-- ==== Sys2Proof/Word.lean ====
section
/-!
DEFINITION. The word types of the device and their plainest arithmetic: bytes, 32-bit register
words, signed readings of a number modulo a power of two, little-endian and big-endian byte lists.
-/

namespace Sys2Proof

/-- One byte. -/
abbrev Byte := BitVec 8

/-- One 32-bit register or Mitten data word. -/
abbrev Word := BitVec 32

/-- The signed reading of `n` modulo `2 ^ w` (R54: numbers are compared by signed difference). -/
def toSigned (w n : Nat) : Int :=
  if 2 * (n % 2 ^ w) < 2 ^ w then (n % 2 ^ w : Nat) else (n % 2 ^ w : Nat) - (2 ^ w : Nat)

/-- `a - b` modulo `2 ^ w`, read as a signed number (R54). -/
def signedDiff (w a b : Nat) : Int := toSigned w (a % 2 ^ w + (2 ^ w - b % 2 ^ w))

/-- The residue of an integer in `[0, 2 ^ w)`. -/
def ofSigned (w : Nat) (i : Int) : Nat := (i % (2 ^ w : Nat)).toNat

/-- The `n` bytes of `v`, least significant first (R10: device structures are little-endian). -/
def toLE : Nat → Nat → List Byte
  | 0, _ => []
  | n + 1, v => BitVec.ofNat 8 v :: toLE n (v / 256)

/-- The number that a little-endian byte list spells. -/
def fromLE : List Byte → Nat
  | [] => 0
  | b :: bs => b.toNat + 256 * fromLE bs

/-- The number that a network-order byte list spells, most significant byte first (R10). -/
def fromBE (bs : List Byte) : Nat := bs.foldl (fun acc b => acc * 256 + b.toNat) 0

/-- The `n` bytes of `v`, most significant first. -/
def toBE (n v : Nat) : List Byte := (toLE n v).reverse

/-- `n` zero bytes. -/
def zeros (n : Nat) : List Byte := List.replicate n 0

/-- The list cut or zero-padded to exactly `n` bytes. -/
def padTo (n : Nat) (bs : List Byte) : List Byte := (bs ++ zeros (n - bs.length)).take n

/-- Division rounded upwards; zero when the divisor is zero. -/
def ceilDiv (a b : Nat) : Nat := if b = 0 then 0 else (a + b - 1) / b

/-- Bit `i` of `n`, as 0 or 1. -/
def bitOf (n i : Nat) : Nat := n / 2 ^ i % 2

/-- Bits `[hi:lo]` of `n`. -/
def bitsOf (n hi lo : Nat) : Nat := n / 2 ^ lo % 2 ^ (hi + 1 - lo)

/-- A number with bit `i` set. -/
def setBit (n i : Nat) : Nat := if bitOf n i = 1 then n else n + 2 ^ i

/-- A number with bit `i` clear. -/
def clearBit (n i : Nat) : Nat := if bitOf n i = 1 then n - 2 ^ i else n

/-- A Boolean as 0 or 1. -/
def b2n (b : Bool) : Nat := if b then 1 else 0

end Sys2Proof
end

