-- ==== Sys2Proof/Syntax.lean ====
section
/-!
DEFINITION. The commands the device takes: one constructor of `Instr` for each row of spec/opcode_table.json,
with the row's operands, and the types of those operands. A structure that the spec lays out in bytes
(a table entry, a record of an image, a directive's parameters) is given here by its fields.
-/

namespace Sys2Proof

/-! ### Directives: header and authorisation (R457, R463) -/

/-- The header of a directive entry (R457): AUTH and EXT, and the exchange offset of the buffer that the PARAMETERS name for the device to read,
each 0xFFFF_FFFF for none. `authBlock` is what stands at AUTH (R463, R74). `reserved` holds, by byte offset, the reserved bits and device-set fields
that are written non-zero; an offset from 0x1_0000 on is one of the extension block. -/
structure DirHeader where
  tag : Nat
  interrupt : Bool
  authAt : Nat
  authBlock : List (BitVec 8)
  extAt : Nat
  bufferAt : Nat
  reserved : List (Nat × BitVec 8)
  deriving DecidableEq, Repr

/-! ### Rooms, participants and legs (R102 to R104) -/

/-- Leg entry bytes 0x01 to 0x22 (R104). -/
structure LegSpec where
  kind : Nat
  media : Nat
  codec : Nat
  participant : Nat
  room : Nat
  source : Nat
  ssrc : Nat
  rtxSsrc : Nat
  pt : Nat
  rtxPt : Nat
  cls : Nat
  flags : Nat
  rate : Nat
  burst : Nat
  packetSize : Nat
  layerCap : Nat
  deriving DecidableEq, Repr

/-- Leg entry bytes 0x16 to 0x22, the parameters of set-leg (R464). -/
structure LegChange where
  cls : Nat
  flags : Nat
  rate : Nat
  burst : Nat
  packetSize : Nat
  layerCap : Nat
  deriving DecidableEq, Repr

/-- The fields of a participant entry that the host gives (R103). -/
structure PartSpec where
  transport : Nat
  room : Nat
  tunnelId : Nat
  minRate : Nat
  maxRate : Nat
  remoteIp : Nat
  localIp : Nat
  remotePort : Nat
  localPort : Nat
  deriving DecidableEq, Repr

/-- What the device reads in a media packet to forward it (R110, R113): the RTP fields, `head` the first byte of the header and `payload` what
follows its 12 bytes; the layers of its frame, whether it begins a frame and a temporal unit, the decode targets for which its dependency
descriptor gives SWITCH, and whether the stream's spatial layers build on one another (an L mode, or a codec without spatial layers). -/
structure MediaPacket where
  head : Nat
  seq : Nat
  timestamp : Nat
  marker : Bool
  payload : List (BitVec 8)
  frameStart : Bool
  keyframe : Bool
  spatial : Nat
  temporal : Nat
  switchTo : List Nat
  unitStart : Bool
  nested : Bool
  deriving DecidableEq, Repr

/-- One packet of an RFC 8888 report: SSRC, sequence number, and the arrival time if it was received. -/
structure FeedbackItem where
  ssrc : Nat
  seq : Nat
  arrival : Option Nat
  deriving DecidableEq, Repr

/-- Body of the PARTITION record (R101). -/
structure PartitionRec where
  legEntries : Nat
  classifyEntries : Nat
  keyEntries : Nat
  tunnelQueues : Nat
  rtxRegion : Nat
  deriving DecidableEq, Repr

/-! ### Video decode (R130, R134, R139, R151) -/

/-- Stream entry bytes 0x01 to 0x13 (R130), without the CLUSTER that the device sets. -/
structure DecodeSpec where
  codec : Nat
  pool : Nat
  leg : Nat
  maxWidth : Nat
  maxHeight : Nat
  rate : Nat
  refs : Nat
  opPoint : Nat
  flags : Nat
  bitstreamKib : Nat
  deriving DecidableEq, Repr

/-- The profiles that R127 names, and any other. -/
inductive VideoProfile where
  | constrainedBaseline | main | high | main10 | other
  deriving DecidableEq, Repr

/-- The colour description of a VUI or sequence header (R139): its codes as coded, and full range. -/
structure ColourDescription where
  transfer : Nat
  primaries : Nat
  matrix : Nat
  fullRange : Bool
  deriving DecidableEq, Repr

/-- A valid sequence header met in a stream (R127, R128, R148). `level` is ten times the level; `chroma` is 0 for monochrome and 1 for 4:2:0;
`interlaced` says frame_mbs_only_flag 0 or field_seq_flag 1, and `extension` a range, screen-content or multilayer extension of H.265. -/
structure SequenceHeader where
  width : Nat
  height : Nat
  profile : VideoProfile
  highTier : Bool
  level : Nat
  bitDepth : Nat
  chroma : Nat
  interlaced : Bool
  extension : Bool
  largeScaleTile : Bool
  colour : Option ColourDescription
  deriving DecidableEq, Repr

/-- What a coded picture is to R131: an IDR, CRA or BLA picture, a RASL picture of a CRA or BLA, an AV1 key frame with its show_frame, or another. -/
inductive PictureKind where
  | idr | cra | bla | rasl
  | key (shown : Bool)
  | other
  deriving DecidableEq, Repr

/-- One spatial layer of a coded frame (R135): its size, and the widths of its tile columns in blocks, none where it has no tiles. -/
structure FrameLayer where
  width : Nat
  height : Nat
  columns : List Nat
  deriving DecidableEq, Repr

/-- What the codec's reference marking and output process do when decoding of a frame ends (R140, R142). `unmark` and
`outputs` name pictures by decode-order count; `keepShort`, `keepLong` and `slots` are the marks of the frame
itself, `longMarks` the older pictures that become long-term, and `slotsOf` the AV1 slots that older pictures keep. -/
structure Marking where
  keepShort : Bool
  keepLong : Bool
  slots : Nat
  unmark : List Nat
  longMarks : List Nat
  slotsOf : List (Nat × Nat)
  outputs : List Nat
  deriving DecidableEq, Repr

/-- What parsing an assembled frame gives: a sequence header that it carries, its kind, its temporal layer, the picture that a
show_existing_frame shows, its spatial layers, lowest first, the pictures it refers to by decode-order count (none for one never received) and its
marking. -/
structure CodedFrame where
  header : Option SequenceHeader
  kind : PictureKind
  temporal : Nat
  showExisting : Option Nat
  layers : List FrameLayer
  refs : List (Option Nat)
  marking : Marking
  deriving DecidableEq, Repr

/-- What begins at a block (R144). -/
inductive BlockStart where
  | none | slice | dependentSlice | tile
  deriving DecidableEq, Repr

/-- What decoding one 16 x 16 block gives (R136, R143, R144, R151): its cycles, what begins at it, whether its data are missing, invalid or run
beyond the end of its slice or tile, its 256 luma, 64 Cb and 64 Cr samples at the coded depth, the blocks its prediction reads as reference index and
block number, whether such a read came back uncorrectable, and the vector and reference index of R151. -/
structure BlockWork where
  cycles : Nat
  start : BlockStart
  damaged : Bool
  samples : List Nat
  reads : List (Nat × Nat)
  poisoned : Bool
  mvX : Int
  mvY : Int
  ref : Int
  deriving DecidableEq, Repr

/-- What one block-row job meets (R136, R143, R144, R150, R151): its blocks from the left, the writes it issues beyond those of its blocks, another
engine failure, and the costs and coded bits of the row. -/
structure RowWork where
  blocks : List BlockWork
  writes : List (Nat × List (BitVec 8))
  failed : Bool
  intraCost : Nat
  interCost : Nat
  bits : Nat
  deriving DecidableEq, Repr

/-! ### Composition (R154, R158 to R162) -/

/-- Composite entry bytes 0x02 to 0x09 (R154). -/
structure CompositeSpec where
  pool : Nat
  rate : Nat
  width : Nat
  height : Nat
  phase : Nat
  deriving DecidableEq, Repr

/-- A layer entry of a display list (R159). `reserved` says that a reserved bit or field is set. -/
structure Layer where
  kind : Nat
  z : Nat
  alpha : Nat
  vtaps : Nat
  hidden : Bool
  source : Nat
  srcX : Nat
  srcY : Nat
  srcW : Nat
  srcH : Nat
  dstX : Int
  dstY : Int
  dstW : Nat
  dstH : Nat
  placeholder : Nat
  curve : Nat
  matrix : Nat
  fill : Nat
  reserved : Bool
  deriving DecidableEq, Repr

/-- A Visor region entry (R160), without the SIGNATURE that the device fills in. -/
structure Region where
  guardZ : Nat
  x : Nat
  y : Nat
  w : Nat
  h : Nat
  reserved : Bool
  deriving DecidableEq, Repr

/-- A display list (R158). -/
structure DisplayList where
  version : Nat
  outputFormat : Nat
  background : Nat
  staleLimit : Nat
  slate : Nat
  reserved : Bool
  layers : List Layer
  regions : List Region
  deriving DecidableEq, Repr

/-- An asset of the VEIL_ASSETS record (R162). -/
structure Asset where
  id : Nat
  kind : Nat
  colour : Nat
  width : Nat
  height : Nat
  data : List (BitVec 8)
  deriving DecidableEq, Repr

/-- What one band job meets (R175): what came back uncorrectable beside the words that are poisoned, by layer, as a block of a picture or a 64-byte
piece of an asset; the writes it issues beyond its blocks; and another engine failure. -/
structure BandWork where
  poisoned : List (Nat × Nat)
  writes : List (Nat × List (BitVec 8))
  failed : Bool
  deriving DecidableEq, Repr

/-! ### Video encode (R179, R186, R193) -/

/-- The parameters of set-encode: encode entry bytes 0x10 to 0x1F (R179). -/
structure EncodeRate where
  target : Nat
  vbvMs : Nat
  keyInterval : Nat
  qpMin : Nat
  qpMax : Nat
  keyWeight : Nat
  maxPayload : Nat
  layerShare : Nat
  deriving DecidableEq, Repr

/-- Encode entry bytes 0x01 to 0x1F (R179) without the fields that the device sets, and PHASE. -/
structure EncodeSpec where
  codec : Nat
  pool : Nat
  sourceKind : Nat
  structure_ : Nat
  profile : Nat
  flags : Nat
  source : Nat
  rate : Nat
  rc : EncodeRate
  phase : Nat
  deriving DecidableEq, Repr

/-- How the encoder codes a 16 x 16 block (R178, R195): skip, one vector, four, from the spatial layer below, or an intra mode. -/
inductive EncodeMode where
  | skip | inter16 | inter8 | interLayer
  | intra (mode : Nat)
  deriving DecidableEq, Repr

/-- What the coding tools give for a block in one mode (R195, R198, R204): SATD and estimated bits for the decision, its coded bits, its reconstruction as
256 luma, 64 Cb and 64 Cr samples at the coded depth, and the sum of its absolute quantised levels. -/
structure ModeResult where
  mode : EncodeMode
  distortion : Nat
  estimate : Nat
  bits : Nat
  samples : List Nat
  levels : Nat
  deriving DecidableEq, Repr

/-- What coding one 16 x 16 block meets: its cycles, the modes that the tools have evaluated at the row's QP and those of austerity, and whether its source or
its reference came back uncorrectable beside the words that are poisoned. -/
structure EncodeBlock where
  cycles : Nat
  modes : List ModeResult
  austere : List ModeResult
  poisonedSource : Bool
  poisonedRef : Bool
  deriving DecidableEq, Repr

/-- What one row job meets (R186, R187, R193, R205): its blocks in raster order, the bits of the row beside them, the writes it issues beyond those of its blocks,
another engine failure, and the coded bytes of its slice or tile. -/
structure EncodeWork where
  blocks : List EncodeBlock
  overhead : Nat
  writes : List (Nat × List (BitVec 8))
  failed : Bool
  coded : List (BitVec 8)
  deriving DecidableEq, Repr

/-! ### Audio (R207, R210, R215, R219) -/

/-- The parameters of admit-mix (R464). The threshold is a signed byte. -/
structure MixSpec where
  maxTalkers : Nat
  frameMs : Nat
  threshold : Int
  margin : Nat
  hold : Nat
  deriving DecidableEq, Repr

/-- One job that a codec engine has finished. Of a decode batch: the leg, and whether its read of the jitter buffer came back poisoned. Of an
encode batch: the room, the format and the instance. -/
inductive CodecJob where
  | decoded (leg : Nat) (poisoned : Bool)
  | encoded (room format slot : Nat)
  deriving DecidableEq, Repr

/-! ### Mitten lanes (R247 to R249, R262) -/

/-- The operations of the A slot (R249). -/
inductive AOp where
  | nop | add | sub | adds | subs | and | or | xor | shl | shr | asr | min | max | abs | mul | mov
  | mac | msu | dot4 | vmac4 | aclr | aext | ald | aadd | dstep | dfix | movcTo | movcFrom | cmp
  deriving DecidableEq, Repr

/-- The operands of an A slot (R248): DST, SRC1, SRC2 and the parts of MOD. -/
structure AArgs where
  dst : Nat
  src1 : Nat
  src2 : Nat
  satw : Nat
  uns : Bool
  shift : Nat
  deriving DecidableEq, Repr

/-- The operations of the L slot (R249), with LDXY apart. -/
inductive LOp where
  | ld8s | ld16s | ld32 | ld64 | ldq | st8 | st16 | st32 | st64 | stq | pset | pget
  deriving DecidableEq, Repr

/-- The operands of an L slot (R248). -/
structure LArgs where
  reg : Nat
  ptr : Nat
  upd : Nat
  offset : Int
  deriving DecidableEq, Repr

/-- The operands of LDXY (R248). -/
structure XYArgs where
  quadX : Nat
  quadY : Nat
  ptrX : Nat
  ptrY : Nat
  updX : Nat
  updY : Nat
  deriving DecidableEq, Repr

/-- An L slot. -/
inductive LSlot where
  | nop
  | mem (op : LOp) (x : LArgs)
  | ldxy (x : XYArgs)
  deriving DecidableEq, Repr

/-- An A slot. -/
structure ASlot where
  op : AOp
  x : AArgs
  deriving DecidableEq, Repr

/-- The CONTROL operations with their operands (R249). LOOP's body is its number of words, 1 to 4,096. -/
inductive Control where
  | br (cond : Nat) (offset : Int)
  | call (cond : Nat) (offset : Int)
  | ret
  | loop (level : Nat) (rotate isReg : Bool) (count body : Nat)
  | wait (mode value : Nat)
  | signal (cluster event : Nat)
  | spawn (entry arg result : Nat)
  | fetch (localReg pair words : Nat)
  | put (localReg pair words : Nat)
  | fence
  deriving DecidableEq, Repr

/-- An instruction word (R247). -/
inductive MWord where
  | pair (a : ASlot) (l : LSlot)
  | long (op : AOp) (dst imm : Nat)
  | control (c : Control)
  deriving DecidableEq, Repr

/-- An entry of the MITTEN_CODE record (R262). -/
structure CodeEntry where
  start : Nat
  cost : Nat
  priority : Nat
  privileged : Bool
  slot : Nat
  hostStart : Bool
  restart : Bool
  reserved : Bool
  deriving DecidableEq, Repr

/-- A static thread of the MITTEN_CODE record (R262). -/
structure StaticThread where
  entry : Nat
  clusters : Nat
  lanes : Nat
  arg : Nat
  deriving DecidableEq, Repr

/-- How a Mitten word is given: the three-operand form of a PAIR with a companion L slot, or the LONG form, whose immediate
replaces SRC2 (R247). -/
inductive AForm where
  | pair (x : AArgs) (l : LSlot)
  | long (dst imm : Nat)
  deriving DecidableEq, Repr

/-! ### Ingress (R268, R278, R287) -/

/-- A node of the parser graph (R278). -/
structure GraphNode where
  kind : Nat
  fieldWidth : Nat
  fieldOffset : Nat
  advance : Nat
  lenOffset : Nat
  lenMask : Nat
  lenScale : Nat
  setsL3 : Bool
  setsL4 : Bool
  reserved : Bool
  defaultNext : Nat
  matchFirst : Nat
  matchCount : Nat
  result : Nat
  deriving DecidableEq, Repr

/-- The PARSER_GRAPH record (R278); a match entry is its value and its next node. -/
structure ParserGraph where
  startEtherType : Nat
  startNextHeader : Nat
  nodes : List GraphNode
  matches_ : List (Nat × Nat)
  deriving DecidableEq, Repr

/-- One extraction of a template (R287). -/
structure Extraction where
  base : Nat
  width : Nat
  offset : Nat
  deriving DecidableEq, Repr

/-- A classification template (R287). -/
structure Template where
  id : Nat
  path : Nat
  extractions : List Extraction
  deriving DecidableEq, Repr

/-- A classification rule (R287). -/
structure ClassRule where
  path : Nat
  template : Nat
  resultKind : Nat
  target : Nat
  arg : Nat
  key : List (BitVec 8)
  deriving DecidableEq, Repr

/-- The CLASSIFY record (R287). -/
structure ClassifyRec where
  templates : List Template
  rules : List ClassRule
  deriving DecidableEq, Repr

/-! ### Cipher jobs (R299, R305) -/

/-- A job descriptor (R299). -/
structure JobDesc where
  op : Nat
  mode : Nat
  ivBits : Nat
  salted : Bool
  page : Bool
  pinned : Bool
  reserved : Bool
  key : Nat
  iv : Nat
  aadLength : Nat
  payloadLength : Nat
  aadAddr : Nat
  srcAddr : Nat
  dstAddr : Nat
  completion : Nat
  deriving DecidableEq, Repr

/-- What a job is for, and so which consumer its completion goes to (R305). -/
inductive JobPurpose where
  | srtpIn (leg seq roc : Nat) (rtx : Bool) (stamp bytes generation : Nat) (packet : List (BitVec 8))
  | srtcpIn (participant index stamp : Nat) (packet : List (BitVec 8))
  | srtpOut (leg index : Nat) (rtcp : Bool) (packet : List (BitVec 8))
  | gauntletIn (tunnel epoch counter : Nat) (up : Bool) (stamp boundary port generation : Nat) (frame : List (BitVec 8))
  | gauntletOut (tunnel epoch : Nat) (frame : List (BitVec 8))
  | page (page : Nat)
  | pon (port : Nat)
  deriving DecidableEq, Repr

/-- How a running job ends (R303, R304): its core, an error response or a poisoned read met, a parity error, the cycles that the core waited for the
key, and what the codec's headers of a media packet say of its layers. -/
structure JobResult where
  core : Nat
  addrError : Bool
  poisoned : Bool
  failed : Bool
  stall : Nat
  layers : MediaPacket
  deriving DecidableEq, Repr

/-! ### Gauntlet tunnels (R322) -/

/-- The fields of a tunnel entry that the host gives (R322). -/
structure TunnelSpec where
  carrier : Nat
  pinned : Bool
  role : Nat
  egress : Nat
  cls : Nat
  framesPerTick : Nat
  frameLength : Nat
  phase : Nat
  vlanOuter : Nat
  vlanInner : Nat
  remoteMac : Nat
  remoteIp : Nat
  localIp : Nat
  remotePort : Nat
  localPort : Nat
  deriving DecidableEq, Repr

/-! ### Egress (R339, R350, R355) -/

/-- Aggregate entry bytes 0x01 to 0x0F (R339). -/
structure AggSpec where
  egress : Nat
  weight : Nat
  nextHop : Nat
  vlanOuter : Nat
  vlanInner : Nat
  deriving DecidableEq, Repr

/-- A gate list (R350): an entry is its gates and its duration in ns. -/
structure GateList where
  egress : Nat
  baseTime : Nat
  cycleTime : Nat
  entries : List (Nat × Nat)
  deriving DecidableEq, Repr

/-- The GATE_LISTS record (R350). -/
structure GateListsRec where
  batchWindow : Nat
  paceGain : Nat
  systemWeight : Nat
  maxDelay : Nat
  legQueuePackets : Nat
  classLimit : Nat
  lists : List GateList
  deriving DecidableEq, Repr


/-! ### Ethernet ports and PON ports (R363, R368, R370, R377, R396) -/

/-- A port entry of PORT_MODES (R363). -/
structure PortEntry where
  maxFrame : Nat
  lpi : Bool
  training : Bool
  pmd : Nat
  defaultQueue : Nat
  fec : Nat
  bankSize : Nat
  ptpTrim : Int
  reserved : Bool
  deriving DecidableEq, Repr

/-- A PON port entry of PORT_MODES (R377). -/
structure PonEntry where
  mode : Nat
  upRate : Nat
  isProtected : Bool
  defaultQueue : Nat
  enhanced : Bool
  pskIndex : Nat
  serial : List (BitVec 8)
  maxFrame : Nat
  bankSize : Nat
  syncMatches : Nat
  psyncTolerance : Nat
  protectHold : Nat
  todTrim : Int
  reserved : Bool
  deriving DecidableEq, Repr

/-- The PORT_MODES record (R363). -/
structure PortModes where
  quads : List Nat
  ports : List PortEntry
  ponA : PonEntry
  ponB : PonEntry
  deriving DecidableEq, Repr

/-- An entry of the FILTERS record (R370). MATCH and ACTION are given by their bits. -/
structure FilterEntry where
  port : Nat
  index : Nat
  match_ : Nat
  queue : Nat
  drop : Bool
  etherType : Nat
  outerVid : Nat
  innerVid : Nat
  outerPcp : Nat
  reserved : Bool
  deriving DecidableEq, Repr

/-- The OMCI_LIMITS record (R396). -/
structure OmciLimits where
  maxPortIds : Nat
  maxAllocMap : Nat
  queueMask : Nat
  flags : Nat
  rate : Nat
  deriving DecidableEq, Repr

/-- A frame as the MAC receives it: its bytes (FCS included), its length, its raw stamp, whether it holds an error
control character or an uncorrectable codeword, whether its FCS is wrong, and the RS codewords corrected and
uncorrectable since the frame before. -/
structure MacFrame where
  bytes : List (BitVec 8)
  length : Nat
  stamp : Nat
  codeError : Bool
  fcsBad : Bool
  fecCorrected : Nat
  fecUncorrectable : Nat
  deriving DecidableEq, Repr

/-- An allocation of a BWmap (R388): its interval in bits of the upstream timeline of its frame, its burst profile, whether it
opens a burst, and its flags. -/
structure BwAlloc where
  allocId : Nat
  start : Nat
  stop : Nat
  profile : Nat
  opens : Bool
  ploamU : Bool
  dbru : Bool
  deriving DecidableEq, Repr

/-- An XGEM frame (R381 to R383) with its payload as it stands on the line. -/
structure XgemFrame where
  portId : Nat
  keyIndex : Nat
  hecBad : Bool
  idle : Bool
  isFirst : Bool
  isLast : Bool
  gap : Bool
  payload : List (BitVec 8)
  stamp : Nat
  deriving DecidableEq, Repr

/-- A downstream frame (R380, R381): the level of PON_x_RX_LOS at its PSync, the bit errors of its PSync, the stamp of its PSync, its superframe count, and what its
decoding gave; `upKey` is a switch of the upstream key index that the OLT signals. -/
structure DownFrame where
  rxLos : Bool
  psyncErrors : Nat
  stamp : Nat
  superframe : Nat
  fecCorrected : Nat
  fecUncorrectable : Nat
  headerBad : Bool
  bwmap : List BwAlloc
  xgem : List XgemFrame
  upKey : Option Nat
  deriving DecidableEq, Repr

/-- What every downstream PLOAM message carries (R386): the ONU-ID it is addressed to (none for the broadcast one) and whether its MIC
holds. -/
structure Ploam where
  onuId : Option Nat
  micOk : Bool
  deriving DecidableEq, Repr

/-- A burst profile (R386, R388): its index, its upstream rate code and the bits of its preamble and trailer. -/
structure BurstProfile where
  index : Nat
  rate : Nat
  preamble : Nat
  trailer : Nat
  deriving DecidableEq, Repr

/-- What an OMCI message concerns (R394): the mutual-authentication managed entity, a broadcast key with its index and the place of its key field, or
anything else. -/
inductive OmciKind where
  | other
  | mutualAuth
  | broadcastKey (index fieldAt fieldLength : Nat)
  deriving DecidableEq, Repr

/-- An OMCI message received on the OMCI Port-ID (R394). -/
structure OmciMessage where
  micOk : Bool
  kind : OmciKind
  bytes : List (BitVec 8)
  stamp : Nat
  deriving DecidableEq, Repr

/-! ### Near memory, Lining, Glovebox and DMA (R138, R407, R414, R422, R437) -/

/-- A pool entry of MEMORY_MAP (R138). -/
structure PoolEntry where
  base : Nat
  blocks : Nat
  count : Nat
  deriving DecidableEq, Repr

/-- A region entry of MEMORY_MAP (R407). -/
structure RegionEntry where
  code : Nat
  base : Nat
  length : Nat
  deriving DecidableEq, Repr

/-- A Lining entry of MEMORY_MAP (R407). -/
structure LiningEntry where
  first : Nat
  count : Nat
  use : Nat
  deriving DecidableEq, Repr

/-- The MEMORY_MAP record (R407). -/
structure MemoryMap where
  setPoint : Nat
  gloveboxBytes : Nat
  gloveboxBase : Nat
  regions : List RegionEntry
  pools : List PoolEntry
  lining : List LiningEntry
  deriving DecidableEq, Repr

/-- How the codewords of an access come back (R414, R422): clean, corrected, uncorrectable with a syndrome (or a lane), or
retried for a command or address parity error, the last with success or not. -/
inductive Ecc where
  | clean
  | corrected
  | uncorrectable (syndrome : Nat)
  | parity (retries : Nat) (succeeded : Bool)
  deriving DecidableEq, Repr

/-- What an access does. -/
inductive AccessKind where
  | read
  | write (bytes : List (BitVec 8))
  deriving DecidableEq, Repr

/-- What a Crown link meets (R22): a single-bit error, an uncorrectable error, or a flit that fails its CRC a number of times in a row. -/
inductive LinkError where
  | singleBit
  | doubleBit
  | crc (failures : Nat)
  deriving DecidableEq, Repr

/-- What a link of the Crown meets, and which link (R22). -/
structure LinkMeeting where
  link : Nat
  error : LinkError
  deriving DecidableEq, Repr

/-- A row of a bank that is copied into a spare: the bank, and the words of the row that read with an uncorrectable error (R415, R428). -/
structure RowCopy where
  bank : Nat
  uncorrectable : List Nat
  deriving DecidableEq, Repr

/-- What a comparison with PSync finds: the bits that differ, and the level of RX_LOS (R379, R399). -/
structure PsyncRead where
  errors : Nat
  rxLos : Bool
  deriving DecidableEq, Repr

/-- What the parse of a frame reads: the errors of its Cuff words, each by its index and number of bits, and whether the classification bucket
is poisoned (R272, R293). -/
structure ParseReads where
  errors : List (Nat × Nat)
  bucketPoisoned : Bool
  deriving DecidableEq, Repr

/-- What the parse of an inner packet reads: the layers of a media packet, and whether the classification bucket is poisoned (R293). -/
structure InnerReads where
  layers : MediaPacket
  bucketPoisoned : Bool
  deriving DecidableEq, Repr

/-- A request to near memory, to a Lining group or to the Glovebox window: its address, what it does and its source port. -/
structure MemRequest where
  address : Nat
  kind : AccessKind
  port : Nat
  deriving DecidableEq, Repr

/-- A request that reaches a Lining group in one cycle, and how its lanes come back. -/
structure LiningRequest where
  request : MemRequest
  ecc : Ecc
  deriving DecidableEq, Repr

/-- How a page fetch ends (R431, R432): with the ciphertext and the tag that host memory gives, or with a failed host read. -/
inductive FetchResult where
  | read (ciphertext tag : List (BitVec 8))
  | hostError
  deriving DecidableEq, Repr

/-- A DMA descriptor (R437). `reserved` says that a reserved bit is set. -/
structure Descriptor where
  src : Nat
  dst : Nat
  count : Nat
  srcInternal : Bool
  dstInternal : Bool
  notify : Bool
  last : Bool
  reserved : Bool
  next : Nat
  deriving DecidableEq, Repr

/-! ### The remaining records of an image (R36, R67, R73, R262, R462, R489, R498, R505, R508) -/

/-- The ENGINES record (R36), one bit mask per kind of engine. -/
structure EnginesRec where
  decode : Nat
  veils : Nat
  encode : Nat
  audio : Nat
  cipher : Nat
  ingress : Nat
  forwarding : Nat
  band : Nat
  reserved : Bool
  deriving DecidableEq, Repr

/-- The POWER_DOMAINS record (R498). -/
structure PowerDomains where
  domains : Nat
  eclkInitial : Nat
  hostClock : Bool
  marginMin : Nat
  throttleTemp : Nat
  reserved : Bool
  deriving DecidableEq, Repr

/-- The TIME record (R67). The first five fields are register values. -/
structure TimeRec where
  config : Nat
  priority : Nat
  jump : Nat
  admitCfg : Nat
  pulse : Nat
  delayLog : Int
  announceTimeout : Nat
  transport : Nat
  nonForwardable : Bool
  localPriority : List Nat
  reserved : Bool
  deriving DecidableEq, Repr

/-- The SETTINGS record (R73). -/
structure Settings where
  genDrainLimit : Nat
  decodeCap : Nat
  decodeSlack : Nat
  repairWait : Nat
  encodeCap : Nat
  encodeSlack : Nat
  staleLimit : Nat
  compositeSlack : Nat
  concealLimit : Nat
  jbMin : Nat
  jbMax : Nat
  runLimit : Nat
  pinLimit : Nat
  refreshTicks : Nat
  timeProbeTicks : Nat
  oldEpochTicks : Nat
  queueClass : Nat
  hashFields : Nat
  fragTimeout : Nat
  scrubHours : Nat
  dmaRetryLimit : Nat
  lpiIdle : List Nat
  reserved : Bool
  deriving DecidableEq, Repr

/-- The MITTEN_CODE record (R262). -/
structure MittenCode where
  code : List (BitVec 64)
  entries : List CodeEntry
  statics : List StaticThread
  deriving DecidableEq, Repr

/-- A boot step (R505). -/
structure BootStep where
  op : Nat
  pin : Nat
  address : Nat
  value : Nat
  deriving DecidableEq, Repr

/-- An entry of the DIRECTIVE_LIMITS record (R462). -/
structure DirLimit where
  opcode : Nat
  mode : Nat
  rate : Nat
  deriving DecidableEq, Repr

/-- The AUTHORISE record (R489). -/
structure Authorise where
  stepMode : Nat
  zeroizeMode : Nat
  retireMode : Nat
  archiveMode : Nat
  remapThreshold : Nat
  remapWindow : Nat
  spareThreshold : Nat
  spareWindow : Nat
  retireCount : Nat
  autoReset : Bool
  retireWindow : Nat
  mendingLimit : Nat
  reserved : Bool
  deriving DecidableEq, Repr

/-- The DEBUG record (R508). -/
structure DebugRec where
  baud : Nat
  peekBlocks : Nat
  pokeBlocks : Nat
  unlockMinutes : Nat
  allowUnlock : Bool
  reserved : Bool
  deriving DecidableEq, Repr

/-- What the core reads in a key token (R90): whether its format is valid, its header, whether it unwraps (the header check of R92 included), and
the key and the salt it wraps. -/
structure KeyToken where
  formatOk : Bool
  kind : Nat
  usage : Nat
  kekIndex : Nat
  target : Nat
  epoch : Nat
  counter : Nat
  unwraps : Bool
  key : Nat
  salt : Nat
  deriving DecidableEq, Repr

/-- A record of a section (R71, R72). An `anchor` gives its key pair, in the order of a signature block; `other` is a record of unknown TYPE or
VERSION, with its OPTIONAL flag; `malformed` is a record whose framing or reserved bytes break its format. -/
inductive Record where
  | engines (r : EnginesRec)
  | powerDomains (r : PowerDomains)
  | partition (r : PartitionRec)
  | portModes (r : PortModes)
  | memoryMap (r : MemoryMap)
  | time (r : TimeRec)
  | settings (r : Settings)
  | mittenCode (r : MittenCode)
  | parserGraph (r : ParserGraph)
  | veilAssets (r : List Asset)
  | bootSteps (r : List BootStep)
  | classify (r : ClassifyRec)
  | filters (r : List FilterEntry)
  | gateLists (r : GateListsRec)
  | directiveLimits (r : List DirLimit)
  | export_ (bits : Nat)
  | omciLimits (r : OmciLimits)
  | debug (r : DebugRec)
  | authorise (r : Authorise)
  | kek (t : KeyToken)
  | anchor (pair : List (BitVec 8))
  | other (optional : Bool)
  | malformed
  deriving DecidableEq, Repr

/-- A section of an image (R69): TYPE, SIGNER, DIGEST, whether it decrypts to its DIGEST, and its records. -/
structure ImageSection where
  kind : Nat
  signer : Nat
  digest : Nat
  decrypts : Bool
  records : List Record
  deriving DecidableEq, Repr

/-- What the core reads in the bytes of an image (R68 to R75): its header, its sections, and what the checks of its bytes find: `headerOk` the
magic, version, lengths and offsets of code 1; the anchor hashes of the keys in its signature blocks, and the customer's pair; whether the
signatures verify; whether its envelope unwraps, and the image content key in it. -/
structure Image where
  headerOk : Bool
  kind : Nat
  partMask : Nat
  antiRollback : Nat
  length : Nat
  baseDigest : Nat
  imageId : Nat
  sections : List ImageSection
  nymrehalAnchor : Option Nat
  customerAnchor : Nat
  customerPair : List (BitVec 8)
  nymrehalSigOk : Bool
  customerSigOk : Bool
  envelopeOk : Bool
  contentKey : Nat
  deriving DecidableEq, Repr

/-! ### Directives (R464) -/

/-- A directive's opcode and parameters. A structure that a parameter names by an exchange offset is given by its contents. -/
inductive Directive where
  | admitRoom (index maxParticipants : Nat)
  | admitParticipant (index : Nat) (p : PartSpec) (a : AggSpec)
  | admitLeg (index : Nat) (l : LegSpec)
  | setLeg (index : Nat) (l : LegChange)
  | setParticipant (index minRate maxRate weight : Nat)
  | release (kind index : Nat)
  | requestKeyframe (sender : Nat)
  | admitDecode (index : Nat) (d : DecodeSpec)
  | readStatistics (kind index what dest : Nat)
  | admitComposite (index : Nat) (c : CompositeSpec)
  | setLayout (index : Nat) (list : List (BitVec 8)) (length : Nat)
  | admitEncode (index : Nat) (e : EncodeSpec)
  | setEncode (index : Nat) (e : EncodeRate)
  | admitMix (room : Nat) (m : MixSpec)
  | setRoute (leg mode : Nat) (gain : Int)
  | readLevels (room dest : Nat)
  | enableTalkerExport (room : Nat) (record : Option Nat)
  | startThread (entry cluster arg : Nat)
  | stopThread (thread : Nat)
  | deliverKeyToken (token : List (BitVec 8)) (length : Nat)
  | admitTunnel (index : Nat) (t : TunnelSpec)
  | switchEpoch (tunnel epoch : Nat)
  | sendTunnelMessage (tunnel label : Nat) (data : List (BitVec 8))
  | sendFrame (egress cls : Nat) (frame : List (BitVec 8))
  | setShaper (egress cls rate burst : Nat)
  | setPortLpi (mac tw : Nat)
  | enablePon (port disabled : Nat) (registration : List (BitVec 8))
  | setPonPort (port index portId direction queue flags : Nat)
  | setPonMap (port cls allocId : Nat)
  | sendOmci (port : Nat) (message : List (BitVec 8))
  | ponTimeOfDay (port superframe seconds nanoseconds : Nat)
  | switchPon
  | step (source : Nat)
  | setSeconds (seconds : Nat)
  | setMemoryRate (point : Nat)
  | archivePages (first count keyEntry dest : Nat)
  | attest (nonce dest : Nat)
  | pushImage (image : List (BitVec 8))
  | flashProgram (image : List (BitVec 8)) (slot : Nat)
  | snapshotCounters (blocks dest clear : Nat)
  | engineReset (kind index : Nat)
  | warmReset
  | zeroize
  | retire
  | unknown (opcode : Nat)
  deriving DecidableEq, Repr

/-! ### Operands of the remaining commands -/

/-- How a PTP message came (R42): its domain, its transport as PTP_FLAGS codes it, and whether its multicast address is the non-forwardable one of
G.8275.1. -/
structure PtpVia where
  domain : Nat
  transport : Nat
  nonForwardable : Bool
  deriving DecidableEq, Repr

/-- A PTP message as a port received it: its ingress stamp, and how it came. -/
structure PtpArrival where
  stamp : Nat
  via : PtpVia
  deriving DecidableEq, Repr

/-- A PTP message received on a port, with its ingress stamp and correction field in ns (R42). -/
inductive PtpMessage where
  | announce (identity dataset interval : Nat)
  | sync (identity seq : Nat) (twoStep : Bool) (origin : Nat) (correction : Int)
  | followUp (identity seq origin : Nat) (correction : Int)
  | delayResp (identity seq receive : Nat) (correction : Int) (logInterval : Int)
  | pdelayReq (seq : Nat)
  | pdelayResp (identity seq : Nat) (twoStep : Bool) (receipt : Nat) (correction : Int)
  | pdelayRespFollowUp (identity seq origin : Nat) (correction : Int)
  deriving DecidableEq, Repr

/-- How an A-slot word is given to a lane: the lane, and the form of the word. -/
structure LaneA where
  lane : Nat
  form : AForm
  deriving DecidableEq, Repr

/-- How an L-slot word is given to a lane: the lane, the operands of its L slot, and the A slot beside it. -/
structure LaneL where
  lane : Nat
  x : LArgs
  beside : ASlot
  deriving DecidableEq, Repr

/-- How a transfer of a lane ends (R243): its words by index that a memory could not correct, or an error response. -/
structure TransferResult where
  poisoned : List Nat
  error : Bool
  deriving DecidableEq, Repr

/-- A command: one constructor for each row of spec/opcode_table.json, in its order. -/
inductive Instr where
  | admitRoom (h : DirHeader) (index maxParticipants : Nat)
  | admitParticipant (h : DirHeader) (index : Nat) (p : PartSpec) (a : AggSpec)
  | admitLeg (h : DirHeader) (index : Nat) (l : LegSpec)
  | setLeg (h : DirHeader) (index : Nat) (l : LegChange)
  | setParticipant (h : DirHeader) (index minRate maxRate weight : Nat)
  | release (h : DirHeader) (kind index : Nat)
  | requestKeyframe (h : DirHeader) (sender : Nat)
  | admitDecode (h : DirHeader) (index : Nat) (d : DecodeSpec)
  | readStatistics (h : DirHeader) (kind index what dest : Nat)
  | admitComposite (h : DirHeader) (index : Nat) (c : CompositeSpec)
  | setLayout (h : DirHeader) (index : Nat) (list : List (BitVec 8)) (length : Nat)
  | admitEncode (h : DirHeader) (index : Nat) (e : EncodeSpec)
  | setEncode (h : DirHeader) (index : Nat) (e : EncodeRate)
  | admitMix (h : DirHeader) (room : Nat) (m : MixSpec)
  | setRoute (h : DirHeader) (leg mode : Nat) (gain : Int)
  | readLevels (h : DirHeader) (room dest : Nat)
  | enableTalkerExport (h : DirHeader) (room : Nat) (record : Option Nat)
  | startThread (h : DirHeader) (entry cluster arg : Nat)
  | stopThread (h : DirHeader) (thread : Nat)
  | deliverKeyToken (h : DirHeader) (token : List (BitVec 8)) (length : Nat)
  | admitTunnel (h : DirHeader) (index : Nat) (t : TunnelSpec)
  | switchEpoch (h : DirHeader) (tunnel epoch : Nat)
  | sendTunnelMessage (h : DirHeader) (tunnel label : Nat) (data : List (BitVec 8))
  | sendFrame (h : DirHeader) (egress cls : Nat) (frame : List (BitVec 8))
  | setShaper (h : DirHeader) (egress cls rate burst : Nat)
  | setPortLpi (h : DirHeader) (mac tw : Nat)
  | enablePon (h : DirHeader) (port disabled : Nat) (registration : List (BitVec 8))
  | setPonPort (h : DirHeader) (port index portId direction queue flags : Nat)
  | setPonMap (h : DirHeader) (port cls allocId : Nat)
  | sendOmci (h : DirHeader) (port : Nat) (message : List (BitVec 8))
  | ponTimeOfDay (h : DirHeader) (port superframe seconds nanoseconds : Nat)
  | switchPon (h : DirHeader)
  | step (h : DirHeader) (source : Nat)
  | setSeconds (h : DirHeader) (seconds : Nat)
  | setMemoryRate (h : DirHeader) (point : Nat)
  | archivePages (h : DirHeader) (first count keyEntry dest : Nat)
  | attest (h : DirHeader) (nonce dest : Nat)
  | pushImage (h : DirHeader) (image : List (BitVec 8))
  | flashProgram (h : DirHeader) (image : List (BitVec 8)) (slot : Nat)
  | snapshotCounters (h : DirHeader) (blocks dest clear : Nat)
  | engineReset (h : DirHeader) (kind index : Nat)
  | warmReset (h : DirHeader)
  | zeroize (h : DirHeader)
  | retire (h : DirHeader)
  | directiveFetch (entries : List (DirHeader × Directive))
  | ringEnable (ring value : Nat)
  | ringIndexWrite (ring value : Nat)
  | registerWrite (offset width value : Nat)
  | registerReadClear (offset width : Nat)
  | snapshotCapture
  | legsQuery (kind index : Nat)
  | decodeQuery (kind index : Nat)
  | veilQuery (kind index : Nat)
  | encodeQuery (index : Nat)
  | audioQuery (kind index : Nat)
  | mittenQuery (index : Nat)
  | ingressQuery (kind index : Nat)
  | cipherQuery (index : Nat)
  | gauntletQuery (index : Nat)
  | bandQuery (kind index : Nat)
  | ponQuery (port index : Nat)
  | nearmemQuery (stack kind index : Nat)
  | marchGo (group form : Nat)
  | marchDone (failing again : List Nat)
  | dmaGo (channel : Nat)
  | dmaAbort (channel : Nat)
  | chainHeadWrite (channel address : Nat)
  | clockRequest (point : Nat)
  | descriptorFetched (channel : Nat) (bytes : Option (List (BitVec 8)))
  | dmaAccessComplete (channel : Nat) (succeeded : Bool) (data : List (BitVec 8))
  | ident
  | status
  | log (first count : Nat)
  | counters (block : Nat)
  | challenge
  | unlock (block : List (BitVec 8)) (spelt : Bool)
  | peek (offset : Nat)
  | poke (offset value : Nat)
  | lock
  | unlockExpiry
  | pwrGoodFall
  | pwrGoodRise
  | selfTestDone (passed : Bool)
  | resetNLow (duration : Nat)
  | resetNRise
  | perstN
  | functionLevelReset
  | pcieLinkLoss
  | knitBreach
  | railOutOfRange (millivolts : Nat)
  | temperatureTrigger (celsius : Int)
  | clockTrigger (deviation : Int)
  | tamperIn (input duration : Nat)
  | zeroizePin (duration : Nat)
  | zeroizeScrubDone
  | entryToServing
  | flashSlotVerify (slot : Nat) (content : List (BitVec 8))
  | imageVerified
  | bootStep
  | bootWait
  | i2cWrite (ack : Bool)
  | i2cPoll (elapsed : Nat) (reply : Option Nat)
  | gpioWait (elapsed level : Nat)
  | domainRampDone (domain : Nat)
  | tickBoundary
  | lateDrop (kind stream : Nat)
  | generationChanged
  | generationRetired
  | genForced
  | ptpMessage (port : Nat) (arrival : PtpArrival) (m : PtpMessage)
  | sourceDisqualified
  | restoreWaitExpiry (source : Nat)
  | delayReqSend
  | announceTimeout (identity : Nat)
  | ppsEdge (stamp : Nat) (frequencyOk : Bool)
  | ppsMissing
  | todTimeout (port : Nat)
  | ppsOut
  | pulseWidthEnd (output : Nat)
  | heartbeat
  | modTimeExpiry (ring : Nat)
  | drbgReseed
  | entropyHealthFail
  | frameReceived (mac : Nat) (frame : MacFrame)
  | cuffBankSwitch (cuff : Nat)
  | frameParse (cuff : Nat) (reads : ParseReads)
  | fragTimeout (entry : Nat)
  | recirculated (engine : Nat) (reads : InnerReads)
  | cipherJobAccept (cluster port : Nat) (descriptor : List (BitVec 8)) (purpose : JobPurpose)
  | keyLoad (cluster slot : Nat) (unwraps : Bool)
  | cipherCompletion (job : Nat) (r : JobResult)
  | layerRaiseWait (leg : Nat)
  | palmReshare (cluster slot : Nat)
  | feedbackReport (participant : Nat) (items : List FeedbackItem)
  | feedbackStale (participant : Nat)
  | nackUpTimer (leg : Nat)
  | nackReceived (leg : Nat) (seqs : List Nat)
  | keyframeRequest (leg : Nat) (fir : Bool)
  | keyframePendingExpiry (sender : Nat)
  | legDrained (kind index : Nat)
  | frameReady (stream : Nat) (frame : CodedFrame)
  | decodeRowJob (stream : Nat) (work : RowWork)
  | engineFailure (kind index : Nat) (laneMemory : Bool)
  | compositeFrameBoundary (composite : Nat)
  | signaturesComputed (composite veil : Nat)
  | veilBandJob (composite : Nat) (work : BandWork)
  | visorFail (composite : Nat)
  | encodeFrameStart (stream : Nat)
  | encodeRowJob (stream : Nat) (work : EncodeWork)
  | audioPacket (leg sequence : Nat)
  | jbRecompute (leg : Nat)
  | mixPeriod (room cluster : Nat)
  | comfortNoise (leg : Nat)
  | codecBatchDone (cluster : Nat) (jobs : List CodecJob)
  | talkerExportWrite (room : Nat)
  | preempt (thread : Nat)
  | affinityExpiry (thread : Nat)
  | threadDelayExpiry
  | runaway (lane : Nat)
  | nop (lane : Nat)
  | add (w : LaneA)
  | sub (w : LaneA)
  | adds (w : LaneA)
  | subs (w : LaneA)
  | and (w : LaneA)
  | or (w : LaneA)
  | xor (w : LaneA)
  | shl (w : LaneA)
  | shr (w : LaneA)
  | asr (w : LaneA)
  | min (w : LaneA)
  | max (w : LaneA)
  | abs (w : LaneA)
  | mul (w : LaneA)
  | mov (w : LaneA)
  | mac (w : LaneA)
  | msu (w : LaneA)
  | dot4 (w : LaneA)
  | vmac4 (w : LaneA)
  | aclr (w : LaneA)
  | aext (w : LaneA)
  | ald (w : LaneA)
  | aadd (w : LaneA)
  | dstep (w : LaneA)
  | dfix (w : LaneA)
  | movcTo (w : LaneA)
  | movcFrom (w : LaneA)
  | cmp (w : LaneA)
  | ld8s (w : LaneL)
  | ld16s (w : LaneL)
  | ld32 (w : LaneL)
  | ld64 (w : LaneL)
  | ldq (w : LaneL)
  | st8 (w : LaneL)
  | st16 (w : LaneL)
  | st32 (w : LaneL)
  | st64 (w : LaneL)
  | stq (w : LaneL)
  | ldxy (lane : Nat) (x : XYArgs) (beside : ASlot)
  | pset (w : LaneL)
  | pget (w : LaneL)
  | br (lane cond : Nat) (offset : Int)
  | call (lane cond : Nat) (offset : Int)
  | ret (lane : Nat)
  | loop (lane level : Nat) (rotate isReg : Bool) (count body : Nat)
  | wait (lane mode value : Nat)
  | signal (lane cluster event : Nat)
  | spawn (lane entry arg result : Nat)
  | fetch (lane localReg pair words : Nat)
  | put (lane localReg pair words : Nat)
  | fence (lane : Nat)
  | transferDone (lane bank : Nat) (r : TransferResult)
  | gauntletFrameRx (port stamp : Nat) (frame : List (BitVec 8))
  | oldEpochExpiry (tunnel : Nat)
  | tunnelFrameSlot (tunnel : Nat)
  | tunnelDown (tunnel : Nat)
  | tunnelFreed (tunnel : Nat)
  | bandRelease
  | pacingSlot
  | egressFree (egress : Nat)
  | gateEntryChange (egress : Nat)
  | gateListChanged (egress : Nat)
  | ponGrant (port allocId : Nat)
  | linkUp (mac : Nat)
  | linkDown (mac : Nat) (receiving : Bool)
  | lpiEnter (mac : Nat)
  | lpiWake (mac : Nat)
  | psyncHunt (port position : Nat) (found : PsyncRead)
  | syncLost (port : Nat)
  | ponDownstreamFrame (port : Nat) (frame : DownFrame)
  | burstProfile (port : Nat) (m : Ploam) (p : BurstProfile)
  | assignOnuId (port : Nat) (m : Ploam) (serial : List (BitVec 8)) (onuId : Nat)
  | rangingTime (port : Nat) (m : Ploam) (relative : Bool) (delay : Int)
  | requestRegistration (port : Nat) (m : Ploam)
  | assignAllocId (port : Nat) (m : Ploam) (allocId : Nat) (release : Bool)
  | keyControl (port : Nat) (m : Ploam) (index : Nat)
  | deactivateOnuId (port : Nat) (m : Ploam)
  | disableSerialNumber (port : Nat) (m : Ploam) (serial : Option (List (BitVec 8))) (disable : Bool)
  | sleepAllow (port : Nat) (m : Ploam)
  | ploamUnsupported (port : Nat) (m : Ploam) (kind : Nat)
  | to1Expiry (port : Nat)
  | to2Expiry (port : Nat)
  | burstWindow (port : Nat)
  | watchdogTrip (port rise instant : Nat)
  | omciMessage (port : Nat) (m : OmciMessage)
  | protectSwitch
  | todMeasurement (port : Nat)
  | memoryRequest (stack channel : Nat) (request : Option MemRequest) (ecc : Ecc)
  | refreshDue (stack channel bank : Nat)
  | temperatureReading (stack : Nat) (celsius : Int)
  | catchupEnd (stack : Nat)
  | rowRemap (stack channel : Nat) (copy : RowCopy)
  | scrubRead (stack channel : Nat) (ecc : Ecc)
  | trackingStep (stack channel : Nat) (inRange trains : Bool)
  | channelFault (stack channel : Nat)
  | liningAccess (group : Nat) (requests : List LiningRequest)
  | rowSpare (group : Nat) (copy : RowCopy)
  | gloveboxAccess (request : MemRequest)
  | pageFetchDone (page : Nat) (r : FetchResult)
  | crownLinkFault (met : LinkMeeting)
  | retirement (kind index : Nat)
  | autoWarmReset
  | setPointChange
  | junctionReading (celsius : Int)
  | agingCheck (slack : Nat)
  | pcieLinkUp
  | engineResetDone (kind index : Nat)
  | entropyStartupPassed
  | trainingSetExpiry (stack point : Nat)
  | memoryRetrainingDone (failed : List Nat)
  | attestationReportSigned
  | flashProgramWritten
  | partnerLpiSignal (mac : Nat) (on : Bool)
  deriving DecidableEq, Repr

end Sys2Proof
end

