-- ==== Sys2Proof/Decode.lean ====
section
/-!
DEFINITION. The decoder of table words. No row of spec/opcode_table.json gives bits to its command, so no word
spells a command.
-/

namespace Sys2Proof

/-- The command that a word of `nbits` bits spells by the bits of the opcode table: none, since no row gives bits. -/
def decodeTableWord (_nbits _w : Nat) : Option Instr := none

end Sys2Proof
end

