-- ==== Sys2Proof/Machine/Regs.lean ====
section
/-!
DEFINITION. The registers of BAR 0: every field of every register table of the spec, with its offset,
bits, access code, value after a cold reset, Survives column, and (where it has one) the range of the
encodings that are not reserved. Offsets are absolute offsets in BAR 0 (R449). A field whose table gives
"Fused", "Per mode", "DRBG" or a rule as its reset value is computed from the state (Machine/HostRegs.lean) and
its number here is not read.
-/

namespace Sys2Proof.Machine

/-- The access codes of R12. -/
inductive Access where
  | ro | rw | im | w1c | rc | wo
  deriving DecidableEq, Repr

/-- The names of the Survives column (R14). -/
inductive Keep where
  | warm | engine | zeroize | holdover | mending | sealed
  deriving DecidableEq, Repr

/-- One field of one register, or of an array of registers, or of the same register in each instance of
a block. -/
structure Fld where
  off : Nat
  hi : Nat
  lo : Nat
  acc : Access
  reset : Nat
  keep : List Keep
  cnt : Nat
  stride : Nat
  insts : Nat
  instStride : Nat
  least : Nat
  most : Nat
  step : Nat
  deriving DecidableEq, Repr

/-- A field of a single register. -/
def fldAt (off hi lo : Nat) (acc : Access) (reset : Nat) (keep : List Keep) : Fld :=
  ⟨off, hi, lo, acc, reset, keep, 1, 4, 1, 0, 0, 2 ^ (hi + 1 - lo) - 1, 1⟩

/-- The field stands in an array of `n` registers, `stride` bytes apart. -/
def Fld.array (f : Fld) (n stride : Nat) : Fld := { f with cnt := n, stride := stride }

/-- The field stands in `n` instances of its block. -/
def Fld.inst (f : Fld) (n stride : Nat) : Fld := { f with insts := n, instStride := stride }

/-- The encodings of the field that are not reserved: `least` to `most`, in multiples of `step`. -/
def Fld.limit (f : Fld) (least most step : Nat) : Fld := { f with least := least, most := most, step := step }

/-- The field of register `k` of its array. -/
def Fld.at (f : Fld) (k : Nat) : Fld := { f with off := f.off + k * f.stride, cnt := 1 }

/-- The field in instance `i` of its block. -/
def Fld.on (f : Fld) (i : Nat) : Fld := { f with off := f.off + i * f.instStride, insts := 1 }

/-- The field's width in bits. -/
def Fld.width (f : Fld) : Nat := f.hi + 1 - f.lo

/-- The key of the field in the register file: its absolute bit address. -/
def Fld.key (f : Fld) : Nat := f.off * 32 + f.lo

/-- Whether the register at `off` is one of the registers the field stands in; if so, the field there. -/
def Fld.find (f : Fld) (off : Nat) : Option Fld :=
  if off < f.off then none
  else
    let d := off - f.off
    let i := if f.instStride = 0 then 0 else d / f.instStride
    let r := if f.instStride = 0 then d else d % f.instStride
    if i < f.insts ∧ r % f.stride = 0 ∧ r / f.stride < f.cnt then some ((f.on i).at (r / f.stride)) else none

/-- Whether a written value is an encoding of the field that is not reserved (R11). -/
def Fld.legal (f : Fld) (v : Nat) : Bool := f.least ≤ v && v ≤ f.most && v % f.step = 0

/-! The Survives sets that the register tables use (R14). -/

def kWEZS : List Keep := [.warm, .engine, .zeroize, .sealed]
def kS : List Keep := [.sealed]
def kEHM : List Keep := [.engine, .holdover, .mending]
def kEZHMS : List Keep := [.engine, .zeroize, .holdover, .mending, .sealed]
def kWEHM : List Keep := [.warm, .engine, .holdover, .mending]
def kWEZHMS : List Keep := [.warm, .engine, .zeroize, .holdover, .mending, .sealed]
def kWHM : List Keep := [.warm, .holdover, .mending]
def kNone : List Keep := []
def kEHMS : List Keep := [.engine, .holdover, .mending, .sealed]
def kWHMS : List Keep := [.warm, .holdover, .mending, .sealed]
def kHM : List Keep := [.holdover, .mending]
def kEM : List Keep := [.engine, .mending]
def kWEHMS : List Keep := [.warm, .engine, .holdover, .mending, .sealed]
def kE : List Keep := [.engine]
def kEMS : List Keep := [.engine, .mending, .sealed]

/-! ### GLOBAL block (18_host) -/

def Reg.GLOBAL.PART_INFO_PART : Fld := fldAt 0x0 1 0 .ro 0 kWEZS
def Reg.GLOBAL.PART_INFO_GRADE : Fld := fldAt 0x0 2 2 .ro 0 kWEZS
def Reg.GLOBAL.PART_INFO_DV : Fld := fldAt 0x0 3 3 .ro 0 kWEZS
def Reg.GLOBAL.PART_INFO_LIFECYCLE : Fld := fldAt 0x0 5 4 .ro 0 kWEZS
def Reg.GLOBAL.MODE : Fld := fldAt 0x4 2 0 .ro 1 kS
def Reg.GLOBAL.GLOBAL_EVENTS_MODE_CHANGED : Fld := fldAt 0x8 0 0 .w1c 0 kWEZS
def Reg.GLOBAL.GLOBAL_EVENTS_ACCESS_ERROR : Fld := fldAt 0x8 1 1 .w1c 0 kEHM
def Reg.GLOBAL.ACCESS_ERRORS : Fld := fldAt 0xC 31 0 .rc 0 kEHM
def Reg.GLOBAL.HEARTBEAT_ADDRESS_LO : Fld := fldAt 0x10 31 0 .rw 0 kEZHMS |>.limit 0 4294967295 16
def Reg.GLOBAL.HEARTBEAT_ADDRESS_HI : Fld := fldAt 0x14 31 0 .rw 0 kEZHMS
def Reg.GLOBAL.HEARTBEAT_TICKS : Fld := fldAt 0x18 12 0 .rw 80 kEZHMS |>.limit 1 8000 1
def Reg.globalFields0 : List Fld :=
  [Reg.GLOBAL.PART_INFO_PART, Reg.GLOBAL.PART_INFO_GRADE, Reg.GLOBAL.PART_INFO_DV, Reg.GLOBAL.PART_INFO_LIFECYCLE, Reg.GLOBAL.MODE, Reg.GLOBAL.GLOBAL_EVENTS_MODE_CHANGED, Reg.GLOBAL.GLOBAL_EVENTS_ACCESS_ERROR, Reg.GLOBAL.ACCESS_ERRORS, Reg.GLOBAL.HEARTBEAT_ADDRESS_LO, Reg.GLOBAL.HEARTBEAT_ADDRESS_HI, Reg.GLOBAL.HEARTBEAT_TICKS]
/-- The fields of the GLOBAL block. -/
def Reg.globalFields : List Fld := Reg.globalFields0

/-! ### TIME block (02_tick_and_time) -/

def Reg.TIME.TIME_CONFIG_FORMAT : Fld := fldAt 0x10000 0 0 .im 0 kWEHM
def Reg.TIME.TIME_CONFIG_PTP_DELAY : Fld := fldAt 0x10000 1 1 .im 0 kWEHM
def Reg.TIME.TIME_CONFIG_PTP_PROFILE : Fld := fldAt 0x10000 2 2 .im 0 kWEHM
def Reg.TIME.TIME_CONFIG_PTP_DOMAIN : Fld := fldAt 0x10000 9 3 .im 0 kWEHM
def Reg.TIME.TIME_CONFIG_PTP_PORTS : Fld := fldAt 0x10000 25 10 .im 0 kWEHM
def Reg.TIME.SOURCE_PRIORITY_SLOTS : Fld := fldAt 0x10004 15 0 .im 0 kWEHM
def Reg.TIME.SOURCE_PRIORITY_RESTORE_WAIT : Fld := fldAt 0x10004 23 16 .im 10 kWEHM
def Reg.TIME.SOURCE_PRIORITY_LOCK_WINDOW : Fld := fldAt 0x10004 31 24 .im 100 kWEHM
def Reg.TIME.JUMP_THRESHOLD : Fld := fldAt 0x10008 29 0 .im 1000 kWEHM
def Reg.TIME.ADMIT_CONFIG : Fld := fldAt 0x1000C 8 0 .im 248 kWEHM
def Reg.TIME.TIME_STATUS_STATE : Fld := fldAt 0x10010 1 0 .ro 0 kWEZHMS
def Reg.TIME.TIME_STATUS_SOURCE : Fld := fldAt 0x10010 5 2 .ro 0 kWEZHMS
def Reg.TIME.TIME_STATUS_EVER_LOCKED : Fld := fldAt 0x10010 6 6 .ro 0 kWEZHMS
def Reg.TIME.TIME_STATUS_PTP_PORT : Fld := fldAt 0x10010 10 7 .ro 0 kWEHM
def Reg.TIME.TIME_EVENTS_JUMP_REFUSED : Fld := fldAt 0x10014 0 0 .w1c 0 kWHM
def Reg.TIME.TIME_EVENTS_STEPPED : Fld := fldAt 0x10014 1 1 .w1c 0 kWHM
def Reg.TIME.TIME_EVENTS_HOLDOVER_ENTERED : Fld := fldAt 0x10014 2 2 .w1c 0 kWHM
def Reg.TIME.TIME_EVENTS_HOLDOVER_LEFT : Fld := fldAt 0x10014 3 3 .w1c 0 kWHM
def Reg.TIME.TIME_EVENTS_SOURCE_CHANGED : Fld := fldAt 0x10014 4 4 .w1c 0 kWHM
def Reg.TIME.TIME_EVENTS_PPS_MISSING : Fld := fldAt 0x10014 5 5 .w1c 0 kWHM
def Reg.TIME.TIME_EVENTS_TICK_OVERRUN : Fld := fldAt 0x10014 6 6 .w1c 0 kWHM
def Reg.TIME.SNAPSHOT_CONTROL : Fld := fldAt 0x10020 0 0 .wo 0 kNone
def Reg.TIME.NS_LO : Fld := fldAt 0x10024 31 0 .ro 0 kNone
def Reg.TIME.NS_HI : Fld := fldAt 0x10028 31 0 .ro 0 kNone
def Reg.TIME.SEC_LO : Fld := fldAt 0x1002C 31 0 .ro 0 kNone
def Reg.TIME.SEC_HI : Fld := fldAt 0x10030 15 0 .ro 0 kNone
def Reg.TIME.NSEC : Fld := fldAt 0x10034 29 0 .ro 0 kNone
def Reg.TIME.FRAC : Fld := fldAt 0x10038 15 0 .ro 0 kNone
def Reg.TIME.TICK : Fld := fldAt 0x1003C 31 0 .ro 0 kNone
def Reg.TIME.OFFSET : Fld := fldAt 0x10040 31 0 .ro 0 kNone
def Reg.TIME.INCREMENT_LO : Fld := fldAt 0x10044 31 0 .ro 2684354560 kWEZHMS
def Reg.TIME.INCREMENT_HI : Fld := fldAt 0x10048 7 0 .ro 0 kWEZHMS
def Reg.TIME.STEP_COUNT : Fld := fldAt 0x10050 31 0 .ro 0 kWEZHMS
def Reg.TIME.LAST_STEP_LO : Fld := fldAt 0x10054 31 0 .ro 0 kWEZHMS
def Reg.TIME.LAST_STEP_HI : Fld := fldAt 0x10058 31 0 .ro 0 kWEZHMS
def Reg.TIME.JUMP_REFUSED_COUNT : Fld := fldAt 0x10060 31 0 .rc 0 kWHM
def Reg.TIME.HOLDOVER_SECONDS : Fld := fldAt 0x10064 31 0 .ro 0 kWHM
def Reg.TIME.OVERRUN_TOTAL : Fld := fldAt 0x10068 31 0 .rc 0 kWHM
def Reg.TIME.LATE_DROP_TOTAL : Fld := fldAt 0x1006C 31 0 .rc 0 kWHM
def Reg.TIME.PULSE_CONFIG_PPS_ENABLE : Fld := fldAt 0x10070 0 0 .im 0 kWEHM
def Reg.TIME.PULSE_CONFIG_TICK_ENABLE : Fld := fldAt 0x10070 1 1 .im 0 kWEHM
def Reg.TIME.PULSE_CONFIG_PPS_WIDTH : Fld := fldAt 0x10070 18 2 .im 100 kWEHM
def Reg.TIME.PULSE_CONFIG_TICK_WIDTH : Fld := fldAt 0x10070 25 19 .im 10 kWEHM
def Reg.timeFields0 : List Fld :=
  [Reg.TIME.TIME_CONFIG_FORMAT, Reg.TIME.TIME_CONFIG_PTP_DELAY, Reg.TIME.TIME_CONFIG_PTP_PROFILE, Reg.TIME.TIME_CONFIG_PTP_DOMAIN, Reg.TIME.TIME_CONFIG_PTP_PORTS, Reg.TIME.SOURCE_PRIORITY_SLOTS, Reg.TIME.SOURCE_PRIORITY_RESTORE_WAIT, Reg.TIME.SOURCE_PRIORITY_LOCK_WINDOW, Reg.TIME.JUMP_THRESHOLD, Reg.TIME.ADMIT_CONFIG, Reg.TIME.TIME_STATUS_STATE, Reg.TIME.TIME_STATUS_SOURCE, Reg.TIME.TIME_STATUS_EVER_LOCKED, Reg.TIME.TIME_STATUS_PTP_PORT, Reg.TIME.TIME_EVENTS_JUMP_REFUSED, Reg.TIME.TIME_EVENTS_STEPPED, Reg.TIME.TIME_EVENTS_HOLDOVER_ENTERED, Reg.TIME.TIME_EVENTS_HOLDOVER_LEFT, Reg.TIME.TIME_EVENTS_SOURCE_CHANGED, Reg.TIME.TIME_EVENTS_PPS_MISSING, Reg.TIME.TIME_EVENTS_TICK_OVERRUN, Reg.TIME.SNAPSHOT_CONTROL, Reg.TIME.NS_LO, Reg.TIME.NS_HI]
def Reg.timeFields1 : List Fld :=
  [Reg.TIME.SEC_LO, Reg.TIME.SEC_HI, Reg.TIME.NSEC, Reg.TIME.FRAC, Reg.TIME.TICK, Reg.TIME.OFFSET, Reg.TIME.INCREMENT_LO, Reg.TIME.INCREMENT_HI, Reg.TIME.STEP_COUNT, Reg.TIME.LAST_STEP_LO, Reg.TIME.LAST_STEP_HI, Reg.TIME.JUMP_REFUSED_COUNT, Reg.TIME.HOLDOVER_SECONDS, Reg.TIME.OVERRUN_TOTAL, Reg.TIME.LATE_DROP_TOTAL, Reg.TIME.PULSE_CONFIG_PPS_ENABLE, Reg.TIME.PULSE_CONFIG_TICK_ENABLE, Reg.TIME.PULSE_CONFIG_PPS_WIDTH, Reg.TIME.PULSE_CONFIG_TICK_WIDTH]
/-- The fields of the TIME block. -/
def Reg.timeFields : List Fld := Reg.timeFields0 ++ Reg.timeFields1

/-! ### TRUST block (03_image_and_trust) -/

def Reg.TRUST.LIFECYCLE_STATE : Fld := fldAt 0x20000 1 0 .ro 0 kWEZS
def Reg.TRUST.LIFECYCLE_CUSTOMER_ANCHOR_SET : Fld := fldAt 0x20000 2 2 .ro 0 kWEZS
def Reg.TRUST.LIFECYCLE_ARB_COUNT : Fld := fldAt 0x20000 15 8 .ro 0 kWEZS
def Reg.TRUST.IMAGE_STATUS_SOURCE : Fld := fldAt 0x20004 1 0 .ro 0 kEHMS
def Reg.TRUST.IMAGE_STATUS_PRIMARY_REASON : Fld := fldAt 0x20004 5 2 .ro 0 kEHMS
def Reg.TRUST.IMAGE_STATUS_LAST_REASON : Fld := fldAt 0x20004 9 6 .ro 0 kEHM
def Reg.TRUST.IMAGE_STATUS_PENDING : Fld := fldAt 0x20004 10 10 .ro 0 kEHM
def Reg.TRUST.IMAGE_STATUS_OLD_LIVE : Fld := fldAt 0x20004 11 11 .ro 0 kEHM
def Reg.TRUST.IMAGE_STATUS_IMAGE_ARB : Fld := fldAt 0x20004 19 12 .ro 0 kEHMS
def Reg.TRUST.IMAGE_ID : Fld := fldAt 0x20008 31 0 .ro 0 kEHMS
def Reg.TRUST.GENERATION_CURRENT : Fld := fldAt 0x2000C 31 0 .ro 0 kEHM
def Reg.TRUST.GENERATION_OLD : Fld := fldAt 0x20010 31 0 .ro 0 kEHM
def Reg.TRUST.GEN_CONFIG : Fld := fldAt 0x20014 15 0 .im 4000 kWEHM
def Reg.TRUST.ZEROIZE_CAUSE_CAUSE : Fld := fldAt 0x20018 3 0 .ro 0 kWEZS
def Reg.TRUST.ZEROIZE_CAUSE_INPUT : Fld := fldAt 0x20018 5 4 .ro 0 kWEZS
def Reg.TRUST.ZEROIZE_COUNT : Fld := fldAt 0x2001C 31 0 .ro 0 kWEZS
def Reg.TRUST.ENTROPY_STATUS : Fld := fldAt 0x20020 0 0 .ro 0 kEHMS
def Reg.TRUST.TRUST_EVENTS_IMAGE_REFUSED : Fld := fldAt 0x20024 0 0 .w1c 0 kWHM
def Reg.TRUST.TRUST_EVENTS_FALLBACK_USED : Fld := fldAt 0x20024 1 1 .w1c 0 kWHM
def Reg.TRUST.TRUST_EVENTS_GENERATION_CHANGED : Fld := fldAt 0x20024 2 2 .w1c 0 kWHM
def Reg.TRUST.TRUST_EVENTS_GEN_FORCED : Fld := fldAt 0x20024 3 3 .w1c 0 kWHM
def Reg.TRUST.TRUST_EVENTS_ENTROPY_ALARM : Fld := fldAt 0x20024 4 4 .w1c 0 kWHMS
def Reg.TRUST.TOKEN_ACCEPTED : Fld := fldAt 0x20028 31 0 .rc 0 kHM
def Reg.TRUST.TOKEN_REFUSED : Fld := fldAt 0x2002C 31 0 .rc 0 kHM
def Reg.TRUST.GEN_DRAIN_DROP : Fld := fldAt 0x20030 31 0 .rc 0 kHM
def Reg.TRUST.ATTEST_COUNT : Fld := fldAt 0x20034 31 0 .rc 0 kHM
def Reg.TRUST.NYMREHAL_ANCHOR : Fld := fldAt 0x20100 31 0 .ro 0 kWEZS |>.array 12 0x4
def Reg.TRUST.CUSTOMER_ANCHOR : Fld := fldAt 0x20130 31 0 .ro 0 kWEZS |>.array 12 0x4
def Reg.TRUST.DEVICE_ID : Fld := fldAt 0x20160 31 0 .ro 0 kWEZS |>.array 4 0x4
def Reg.trustFields0 : List Fld :=
  [Reg.TRUST.LIFECYCLE_STATE, Reg.TRUST.LIFECYCLE_CUSTOMER_ANCHOR_SET, Reg.TRUST.LIFECYCLE_ARB_COUNT, Reg.TRUST.IMAGE_STATUS_SOURCE, Reg.TRUST.IMAGE_STATUS_PRIMARY_REASON, Reg.TRUST.IMAGE_STATUS_LAST_REASON, Reg.TRUST.IMAGE_STATUS_PENDING, Reg.TRUST.IMAGE_STATUS_OLD_LIVE, Reg.TRUST.IMAGE_STATUS_IMAGE_ARB, Reg.TRUST.IMAGE_ID, Reg.TRUST.GENERATION_CURRENT, Reg.TRUST.GENERATION_OLD, Reg.TRUST.GEN_CONFIG, Reg.TRUST.ZEROIZE_CAUSE_CAUSE, Reg.TRUST.ZEROIZE_CAUSE_INPUT, Reg.TRUST.ZEROIZE_COUNT, Reg.TRUST.ENTROPY_STATUS, Reg.TRUST.TRUST_EVENTS_IMAGE_REFUSED, Reg.TRUST.TRUST_EVENTS_FALLBACK_USED, Reg.TRUST.TRUST_EVENTS_GENERATION_CHANGED, Reg.TRUST.TRUST_EVENTS_GEN_FORCED, Reg.TRUST.TRUST_EVENTS_ENTROPY_ALARM, Reg.TRUST.TOKEN_ACCEPTED, Reg.TRUST.TOKEN_REFUSED]
def Reg.trustFields1 : List Fld :=
  [Reg.TRUST.GEN_DRAIN_DROP, Reg.TRUST.ATTEST_COUNT, Reg.TRUST.NYMREHAL_ANCHOR, Reg.TRUST.CUSTOMER_ANCHOR, Reg.TRUST.DEVICE_ID]
/-- The fields of the TRUST block. -/
def Reg.trustFields : List Fld := Reg.trustFields0 ++ Reg.trustFields1

/-! ### DIRECTIVE block (18_host) -/

def Reg.DIRECTIVE.DIR_BASE_LO : Fld := fldAt 0x30000 31 0 .rw 0 kEZHMS |>.limit 0 4294967295 4096
def Reg.DIRECTIVE.DIR_BASE_HI : Fld := fldAt 0x30004 31 0 .rw 0 kEZHMS
def Reg.DIRECTIVE.DIR_CONTROL_ENABLE : Fld := fldAt 0x30008 0 0 .rw 0 kEZHMS
def Reg.DIRECTIVE.DIR_CONTROL_SIZE_LOG2 : Fld := fldAt 0x30008 5 1 .rw 6 kEZHMS |>.limit 6 16 1
def Reg.DIRECTIVE.DIR_TAIL : Fld := fldAt 0x3000C 31 0 .rw 0 kEZHMS
def Reg.DIRECTIVE.DIR_HEAD : Fld := fldAt 0x30010 31 0 .ro 0 kEZHMS
def Reg.DIRECTIVE.CPL_BASE_LO : Fld := fldAt 0x30020 31 0 .rw 0 kEZHMS |>.limit 0 4294967295 4096
def Reg.DIRECTIVE.CPL_BASE_HI : Fld := fldAt 0x30024 31 0 .rw 0 kEZHMS
def Reg.DIRECTIVE.CPL_CONTROL_ENABLE : Fld := fldAt 0x30028 0 0 .rw 0 kEZHMS
def Reg.DIRECTIVE.CPL_CONTROL_SIZE_LOG2 : Fld := fldAt 0x30028 5 1 .rw 6 kEZHMS |>.limit 6 16 1
def Reg.DIRECTIVE.CPL_CONTROL_VECTOR : Fld := fldAt 0x30028 11 6 .rw 0 kEZHMS
def Reg.DIRECTIVE.CPL_CONTROL_MOD_COUNT : Fld := fldAt 0x30028 19 12 .rw 1 kEZHMS |>.limit 1 255 1
def Reg.DIRECTIVE.CPL_CONTROL_MOD_TIME : Fld := fldAt 0x30028 29 20 .rw 0 kEZHMS |>.limit 0 1000 1
def Reg.DIRECTIVE.CPL_TAIL : Fld := fldAt 0x3002C 31 0 .ro 0 kEZHMS
def Reg.DIRECTIVE.CPL_HEAD : Fld := fldAt 0x30030 31 0 .rw 0 kEZHMS
def Reg.DIRECTIVE.DIRECTIVE_EVENTS_CPL_FULL : Fld := fldAt 0x30040 0 0 .w1c 0 kEHM
def Reg.DIRECTIVE.DIRECTIVE_EVENTS_AUTH_FAIL : Fld := fldAt 0x30040 1 1 .w1c 0 kEHM
def Reg.DIRECTIVE.DIRECTIVE_EVENTS_FETCH_ERROR : Fld := fldAt 0x30040 2 2 .w1c 0 kEHM
def Reg.DIRECTIVE.EVALUATED : Fld := fldAt 0x30050 31 0 .rc 0 kEHM
def Reg.DIRECTIVE.REFUSED : Fld := fldAt 0x30054 31 0 .rc 0 kEHM
def Reg.DIRECTIVE.AUTH_FAILS : Fld := fldAt 0x30058 31 0 .rc 0 kEHM
def Reg.DIRECTIVE.FETCH_ERRORS : Fld := fldAt 0x3005C 31 0 .rc 0 kEHM
def Reg.DIRECTIVE.AUTH_NONCE : Fld := fldAt 0x30080 31 0 .ro 0 kEHM |>.array 8 0x4
def Reg.directiveFields0 : List Fld :=
  [Reg.DIRECTIVE.DIR_BASE_LO, Reg.DIRECTIVE.DIR_BASE_HI, Reg.DIRECTIVE.DIR_CONTROL_ENABLE, Reg.DIRECTIVE.DIR_CONTROL_SIZE_LOG2, Reg.DIRECTIVE.DIR_TAIL, Reg.DIRECTIVE.DIR_HEAD, Reg.DIRECTIVE.CPL_BASE_LO, Reg.DIRECTIVE.CPL_BASE_HI, Reg.DIRECTIVE.CPL_CONTROL_ENABLE, Reg.DIRECTIVE.CPL_CONTROL_SIZE_LOG2, Reg.DIRECTIVE.CPL_CONTROL_VECTOR, Reg.DIRECTIVE.CPL_CONTROL_MOD_COUNT, Reg.DIRECTIVE.CPL_CONTROL_MOD_TIME, Reg.DIRECTIVE.CPL_TAIL, Reg.DIRECTIVE.CPL_HEAD, Reg.DIRECTIVE.DIRECTIVE_EVENTS_CPL_FULL, Reg.DIRECTIVE.DIRECTIVE_EVENTS_AUTH_FAIL, Reg.DIRECTIVE.DIRECTIVE_EVENTS_FETCH_ERROR, Reg.DIRECTIVE.EVALUATED, Reg.DIRECTIVE.REFUSED, Reg.DIRECTIVE.AUTH_FAILS, Reg.DIRECTIVE.FETCH_ERRORS, Reg.DIRECTIVE.AUTH_NONCE]
/-- The fields of the DIRECTIVE block. -/
def Reg.directiveFields : List Fld := Reg.directiveFields0

/-! ### EVENT block (18_host) -/

def Reg.EVENT.EVT_BASE_LO : Fld := fldAt 0x40000 31 0 .rw 0 kEZHMS |>.limit 0 4294967295 4096
def Reg.EVENT.EVT_BASE_HI : Fld := fldAt 0x40004 31 0 .rw 0 kEZHMS
def Reg.EVENT.EVT_CONTROL_ENABLE : Fld := fldAt 0x40008 0 0 .rw 0 kEZHMS
def Reg.EVENT.EVT_CONTROL_SIZE_LOG2 : Fld := fldAt 0x40008 5 1 .rw 6 kEZHMS |>.limit 6 16 1
def Reg.EVENT.EVT_CONTROL_VECTOR : Fld := fldAt 0x40008 11 6 .rw 0 kEZHMS
def Reg.EVENT.EVT_CONTROL_MOD_COUNT : Fld := fldAt 0x40008 19 12 .rw 1 kEZHMS |>.limit 1 255 1
def Reg.EVENT.EVT_CONTROL_MOD_TIME : Fld := fldAt 0x40008 29 20 .rw 0 kEZHMS |>.limit 0 1000 1
def Reg.EVENT.EVT_TAIL : Fld := fldAt 0x4000C 31 0 .ro 0 kEZHMS
def Reg.EVENT.EVT_HEAD : Fld := fldAt 0x40010 31 0 .rw 0 kEZHMS
def Reg.EVENT.STATS_BASE_LO : Fld := fldAt 0x40020 31 0 .rw 0 kEZHMS |>.limit 0 4294967295 4096
def Reg.EVENT.STATS_BASE_HI : Fld := fldAt 0x40024 31 0 .rw 0 kEZHMS
def Reg.EVENT.STATS_CONTROL_ENABLE : Fld := fldAt 0x40028 0 0 .rw 0 kEZHMS
def Reg.EVENT.STATS_CONTROL_SIZE_LOG2 : Fld := fldAt 0x40028 5 1 .rw 6 kEZHMS |>.limit 6 16 1
def Reg.EVENT.STATS_CONTROL_VECTOR : Fld := fldAt 0x40028 11 6 .rw 0 kEZHMS
def Reg.EVENT.STATS_CONTROL_MOD_COUNT : Fld := fldAt 0x40028 19 12 .rw 1 kEZHMS |>.limit 1 255 1
def Reg.EVENT.STATS_CONTROL_MOD_TIME : Fld := fldAt 0x40028 29 20 .rw 0 kEZHMS |>.limit 0 1000 1
def Reg.EVENT.STATS_TAIL : Fld := fldAt 0x4002C 31 0 .ro 0 kEZHMS
def Reg.EVENT.STATS_HEAD : Fld := fldAt 0x40030 31 0 .rw 0 kEZHMS
def Reg.EVENT.DLV_BASE_LO : Fld := fldAt 0x40040 31 0 .rw 0 kEZHMS |>.limit 0 4294967295 4096
def Reg.EVENT.DLV_BASE_HI : Fld := fldAt 0x40044 31 0 .rw 0 kEZHMS
def Reg.EVENT.DLV_CONTROL_ENABLE : Fld := fldAt 0x40048 0 0 .rw 0 kEZHMS
def Reg.EVENT.DLV_CONTROL_SIZE_LOG2 : Fld := fldAt 0x40048 5 1 .rw 6 kEZHMS |>.limit 6 16 1
def Reg.EVENT.DLV_TAIL : Fld := fldAt 0x4004C 31 0 .rw 0 kEZHMS
def Reg.EVENT.DLV_HEAD : Fld := fldAt 0x40050 31 0 .ro 0 kEZHMS
def Reg.EVENT.EVENT_FLAGS_OVERFLOW : Fld := fldAt 0x40060 0 0 .w1c 0 kEHM
def Reg.EVENT.EVENT_FLAGS_DELIVERY_EMPTY : Fld := fldAt 0x40060 1 1 .w1c 0 kEHM
def Reg.EVENT.EVENTS_WRITTEN : Fld := fldAt 0x40070 31 0 .rc 0 kEHM
def Reg.EVENT.EVENTS_LOST : Fld := fldAt 0x40074 31 0 .rc 0 kEHM
def Reg.EVENT.PACKETS_DELIVERED : Fld := fldAt 0x40078 31 0 .rc 0 kEHM
def Reg.eventFields0 : List Fld :=
  [Reg.EVENT.EVT_BASE_LO, Reg.EVENT.EVT_BASE_HI, Reg.EVENT.EVT_CONTROL_ENABLE, Reg.EVENT.EVT_CONTROL_SIZE_LOG2, Reg.EVENT.EVT_CONTROL_VECTOR, Reg.EVENT.EVT_CONTROL_MOD_COUNT, Reg.EVENT.EVT_CONTROL_MOD_TIME, Reg.EVENT.EVT_TAIL, Reg.EVENT.EVT_HEAD, Reg.EVENT.STATS_BASE_LO, Reg.EVENT.STATS_BASE_HI, Reg.EVENT.STATS_CONTROL_ENABLE, Reg.EVENT.STATS_CONTROL_SIZE_LOG2, Reg.EVENT.STATS_CONTROL_VECTOR, Reg.EVENT.STATS_CONTROL_MOD_COUNT, Reg.EVENT.STATS_CONTROL_MOD_TIME, Reg.EVENT.STATS_TAIL, Reg.EVENT.STATS_HEAD, Reg.EVENT.DLV_BASE_LO, Reg.EVENT.DLV_BASE_HI, Reg.EVENT.DLV_CONTROL_ENABLE, Reg.EVENT.DLV_CONTROL_SIZE_LOG2, Reg.EVENT.DLV_TAIL, Reg.EVENT.DLV_HEAD]
def Reg.eventFields1 : List Fld :=
  [Reg.EVENT.EVENT_FLAGS_OVERFLOW, Reg.EVENT.EVENT_FLAGS_DELIVERY_EMPTY, Reg.EVENT.EVENTS_WRITTEN, Reg.EVENT.EVENTS_LOST, Reg.EVENT.PACKETS_DELIVERED]
/-- The fields of the EVENT block. -/
def Reg.eventFields : List Fld := Reg.eventFields0 ++ Reg.eventFields1

/-! ### LEGS block (04_rooms_and_legs) -/

def Reg.LEGS.LEGS_CONFIG_LEG_UNITS : Fld := fldAt 0x100000 4 0 .im 16 kWEHM
def Reg.LEGS.LEGS_CONFIG_RTX_REGION : Fld := fldAt 0x100000 24 8 .im 0 kWEHM
def Reg.LEGS.ROOMS_ACTIVE : Fld := fldAt 0x100004 12 0 .ro 0 kEHM
def Reg.LEGS.PARTICIPANTS_ACTIVE : Fld := fldAt 0x100008 14 0 .ro 0 kEHM
def Reg.LEGS.LEGS_ACTIVE : Fld := fldAt 0x10000C 20 0 .ro 0 kEHM
def Reg.LEGS.LEGS_EVENTS_LEG_FAULT : Fld := fldAt 0x100010 0 0 .w1c 0 kHM
def Reg.LEGS.LEGS_EVENTS_CASCADE : Fld := fldAt 0x100010 1 1 .w1c 0 kHM
def Reg.LEGS.LEGS_EVENTS_FEEDBACK_LOST : Fld := fldAt 0x100010 2 2 .w1c 0 kHM
def Reg.LEGS.LEGS_EVENTS_RTX_FULL : Fld := fldAt 0x100010 3 3 .w1c 0 kHM
def Reg.LEGS.ADMIT_TOTAL : Fld := fldAt 0x100020 31 0 .ro 0 kEHM |>.array 10 0x4
def Reg.LEGS.POLICE_DROP : Fld := fldAt 0x100060 31 0 .rc 0 kHM
def Reg.LEGS.RTX_SENT : Fld := fldAt 0x100064 31 0 .rc 0 kHM
def Reg.LEGS.RTX_MISS : Fld := fldAt 0x100068 31 0 .rc 0 kHM
def Reg.LEGS.RTX_SKIPPED : Fld := fldAt 0x10006C 31 0 .rc 0 kHM
def Reg.LEGS.NACK_IGNORED : Fld := fldAt 0x100070 31 0 .rc 0 kHM
def Reg.LEGS.KEYFRAME_UPSTREAM : Fld := fldAt 0x100074 31 0 .rc 0 kHM
def Reg.LEGS.KEYFRAME_ABSORBED : Fld := fldAt 0x100078 31 0 .rc 0 kHM
def Reg.LEGS.LAYER_SWITCHES : Fld := fldAt 0x10007C 31 0 .rc 0 kHM
def Reg.LEGS.LEGS_PAUSED : Fld := fldAt 0x100080 31 0 .ro 0 kHM
def Reg.LEGS.FEEDBACK_STALE : Fld := fldAt 0x100084 31 0 .rc 0 kHM
def Reg.LEGS.LEG_FAULTS : Fld := fldAt 0x100088 31 0 .rc 0 kHM
def Reg.LEGS.QUERY_CONTROL_INDEX : Fld := fldAt 0x100100 19 0 .rw 0 kNone
def Reg.LEGS.QUERY_CONTROL_KIND : Fld := fldAt 0x100100 21 20 .rw 0 kNone |>.limit 0 2 1
def Reg.LEGS.QUERY_CONTROL_GO : Fld := fldAt 0x100100 22 22 .wo 0 kNone
def Reg.LEGS.QUERY_CONTROL_DONE : Fld := fldAt 0x100100 23 23 .ro 0 kNone
def Reg.LEGS.QUERY_CONTROL_INVALID : Fld := fldAt 0x100100 24 24 .ro 0 kNone
def Reg.LEGS.QUERY_DATA : Fld := fldAt 0x100180 31 0 .ro 0 kNone |>.array 32 0x4
def Reg.legsFields0 : List Fld :=
  [Reg.LEGS.LEGS_CONFIG_LEG_UNITS, Reg.LEGS.LEGS_CONFIG_RTX_REGION, Reg.LEGS.ROOMS_ACTIVE, Reg.LEGS.PARTICIPANTS_ACTIVE, Reg.LEGS.LEGS_ACTIVE, Reg.LEGS.LEGS_EVENTS_LEG_FAULT, Reg.LEGS.LEGS_EVENTS_CASCADE, Reg.LEGS.LEGS_EVENTS_FEEDBACK_LOST, Reg.LEGS.LEGS_EVENTS_RTX_FULL, Reg.LEGS.ADMIT_TOTAL, Reg.LEGS.POLICE_DROP, Reg.LEGS.RTX_SENT, Reg.LEGS.RTX_MISS, Reg.LEGS.RTX_SKIPPED, Reg.LEGS.NACK_IGNORED, Reg.LEGS.KEYFRAME_UPSTREAM, Reg.LEGS.KEYFRAME_ABSORBED, Reg.LEGS.LAYER_SWITCHES, Reg.LEGS.LEGS_PAUSED, Reg.LEGS.FEEDBACK_STALE, Reg.LEGS.LEG_FAULTS, Reg.LEGS.QUERY_CONTROL_INDEX, Reg.LEGS.QUERY_CONTROL_KIND, Reg.LEGS.QUERY_CONTROL_GO]
def Reg.legsFields1 : List Fld :=
  [Reg.LEGS.QUERY_CONTROL_DONE, Reg.LEGS.QUERY_CONTROL_INVALID, Reg.LEGS.QUERY_DATA]
/-- The fields of the LEGS block. -/
def Reg.legsFields : List Fld := Reg.legsFields0 ++ Reg.legsFields1

/-! ### DECODE block (05_video_decode) -/

def Reg.DECODE.DECODE_CONFIG_CAP_PER_BLOCK : Fld := fldAt 0x200000 10 0 .im 768 kWEHM
def Reg.DECODE.DECODE_CONFIG_HOLD_SLACK : Fld := fldAt 0x200000 14 11 .im 2 kWEHM
def Reg.DECODE.DECODE_CONFIG_REPAIR_WAIT : Fld := fldAt 0x200000 22 15 .im 40 kWEHM
def Reg.DECODE.DECODE_STATUS_CLUSTERS_ENABLED : Fld := fldAt 0x200004 15 0 .im 0 kWEHM
def Reg.DECODE.DECODE_STATUS_CLUSTERS_RETIRED : Fld := fldAt 0x200004 31 16 .ro 0 kEM
def Reg.DECODE.STREAMS_ACTIVE : Fld := fldAt 0x200008 13 0 .ro 0 kEHM
def Reg.DECODE.DECODE_EVENTS_STAND_IN : Fld := fldAt 0x20000C 0 0 .w1c 0 kEHM
def Reg.DECODE.DECODE_EVENTS_ROW_ABANDONED : Fld := fldAt 0x20000C 1 1 .w1c 0 kEHM
def Reg.DECODE.DECODE_EVENTS_OVERSIZE_FRAME : Fld := fldAt 0x20000C 2 2 .w1c 0 kEHM
def Reg.DECODE.DECODE_EVENTS_POOL_STARVED : Fld := fldAt 0x20000C 3 3 .w1c 0 kEHM
def Reg.DECODE.DECODE_EVENTS_WRITE_BLOCKED : Fld := fldAt 0x20000C 4 4 .w1c 0 kEHM
def Reg.DECODE.DECODE_EVENTS_UNSUPPORTED : Fld := fldAt 0x20000C 5 5 .w1c 0 kEHM
def Reg.DECODE.DECODE_EVENTS_SIZE_EXCEEDED : Fld := fldAt 0x20000C 6 6 .w1c 0 kEHM
def Reg.DECODE.FRAMES_DECODED : Fld := fldAt 0x200020 31 0 .rc 0 kEHM
def Reg.DECODE.FRAMES_CONCEALED : Fld := fldAt 0x200024 31 0 .rc 0 kEHM
def Reg.DECODE.FRAMES_LOST : Fld := fldAt 0x200028 31 0 .rc 0 kEHM
def Reg.DECODE.BLOCKS_CONCEALED : Fld := fldAt 0x20002C 31 0 .rc 0 kEHM
def Reg.DECODE.ROWS_ABANDONED : Fld := fldAt 0x200030 31 0 .rc 0 kEHM
def Reg.DECODE.STAND_INS : Fld := fldAt 0x200034 31 0 .rc 0 kEHM
def Reg.DECODE.OVERSIZE_FRAMES : Fld := fldAt 0x200038 31 0 .rc 0 kEHM
def Reg.DECODE.POOL_STARVED : Fld := fldAt 0x20003C 31 0 .rc 0 kEHM
def Reg.DECODE.WRITE_BLOCKED : Fld := fldAt 0x200040 31 0 .rc 0 kEHM
def Reg.DECODE.UNSUPPORTED : Fld := fldAt 0x200044 31 0 .rc 0 kEHM
def Reg.DECODE.SIZE_EXCEEDED : Fld := fldAt 0x200048 31 0 .rc 0 kEHM
def Reg.DECODE.OVERRUN : Fld := fldAt 0x200080 31 0 .rc 0 kEHM |>.array 16 0x4
def Reg.DECODE.POOL_FREE : Fld := fldAt 0x200100 19 0 .ro 0 kEHM |>.array 16 0x4
def Reg.DECODE.QUERY_CONTROL_INDEX : Fld := fldAt 0x200200 19 0 .rw 0 kNone
def Reg.DECODE.QUERY_CONTROL_POOL : Fld := fldAt 0x200200 23 20 .rw 0 kNone
def Reg.DECODE.QUERY_CONTROL_KIND : Fld := fldAt 0x200200 24 24 .rw 0 kNone
def Reg.DECODE.QUERY_CONTROL_GO : Fld := fldAt 0x200200 25 25 .wo 0 kNone
def Reg.DECODE.QUERY_CONTROL_DONE : Fld := fldAt 0x200200 26 26 .ro 0 kNone
def Reg.DECODE.QUERY_CONTROL_INVALID : Fld := fldAt 0x200200 27 27 .ro 0 kNone
def Reg.DECODE.QUERY_DATA : Fld := fldAt 0x200280 31 0 .ro 0 kNone |>.array 16 0x4
def Reg.decodeFields0 : List Fld :=
  [Reg.DECODE.DECODE_CONFIG_CAP_PER_BLOCK, Reg.DECODE.DECODE_CONFIG_HOLD_SLACK, Reg.DECODE.DECODE_CONFIG_REPAIR_WAIT, Reg.DECODE.DECODE_STATUS_CLUSTERS_ENABLED, Reg.DECODE.DECODE_STATUS_CLUSTERS_RETIRED, Reg.DECODE.STREAMS_ACTIVE, Reg.DECODE.DECODE_EVENTS_STAND_IN, Reg.DECODE.DECODE_EVENTS_ROW_ABANDONED, Reg.DECODE.DECODE_EVENTS_OVERSIZE_FRAME, Reg.DECODE.DECODE_EVENTS_POOL_STARVED, Reg.DECODE.DECODE_EVENTS_WRITE_BLOCKED, Reg.DECODE.DECODE_EVENTS_UNSUPPORTED, Reg.DECODE.DECODE_EVENTS_SIZE_EXCEEDED, Reg.DECODE.FRAMES_DECODED, Reg.DECODE.FRAMES_CONCEALED, Reg.DECODE.FRAMES_LOST, Reg.DECODE.BLOCKS_CONCEALED, Reg.DECODE.ROWS_ABANDONED, Reg.DECODE.STAND_INS, Reg.DECODE.OVERSIZE_FRAMES, Reg.DECODE.POOL_STARVED, Reg.DECODE.WRITE_BLOCKED, Reg.DECODE.UNSUPPORTED, Reg.DECODE.SIZE_EXCEEDED]
def Reg.decodeFields1 : List Fld :=
  [Reg.DECODE.OVERRUN, Reg.DECODE.POOL_FREE, Reg.DECODE.QUERY_CONTROL_INDEX, Reg.DECODE.QUERY_CONTROL_POOL, Reg.DECODE.QUERY_CONTROL_KIND, Reg.DECODE.QUERY_CONTROL_GO, Reg.DECODE.QUERY_CONTROL_DONE, Reg.DECODE.QUERY_CONTROL_INVALID, Reg.DECODE.QUERY_DATA]
/-- The fields of the DECODE block. -/
def Reg.decodeFields : List Fld := Reg.decodeFields0 ++ Reg.decodeFields1

/-! ### VEIL block (06_veil_composition) -/

def Reg.VEIL.VEIL_CONFIG_STALE_LIMIT : Fld := fldAt 0x300000 3 0 .im 4 kWEHM
def Reg.VEIL.VEIL_CONFIG_COMPOSITE_SLACK : Fld := fldAt 0x300000 6 4 .im 0 kWEHM
def Reg.VEIL.VEIL_STATUS_VEILS_ENABLED : Fld := fldAt 0x300004 15 0 .im 0 kWEHM
def Reg.VEIL.VEIL_STATUS_VEILS_RETIRED : Fld := fldAt 0x300004 31 16 .ro 0 kEM
def Reg.VEIL.COMPOSITES_ACTIVE : Fld := fldAt 0x300008 11 0 .ro 0 kEHM
def Reg.VEIL.COMPOSITES_ACTIVE_SLATED : Fld := fldAt 0x300008 23 12 .ro 0 kEHM
def Reg.VEIL.VEIL_EVENTS_VISOR_MISMATCH : Fld := fldAt 0x30000C 0 0 .w1c 0 kEHM
def Reg.VEIL.VEIL_EVENTS_VISOR_FAIL : Fld := fldAt 0x30000C 1 1 .w1c 0 kEHM
def Reg.VEIL.VEIL_EVENTS_LINE_BUFFER_SHORT : Fld := fldAt 0x30000C 2 2 .w1c 0 kEHM
def Reg.VEIL.VEIL_EVENTS_STALE_PLACEHOLDER : Fld := fldAt 0x30000C 3 3 .w1c 0 kEHM
def Reg.VEIL.VEIL_EVENTS_FRAME_SKIPPED : Fld := fldAt 0x30000C 4 4 .w1c 0 kEHM
def Reg.VEIL.VEIL_EVENTS_LIST_INVALID : Fld := fldAt 0x30000C 5 5 .w1c 0 kEHM
def Reg.VEIL.FRAMES_COMPOSED : Fld := fldAt 0x300020 31 0 .rc 0 kEHM
def Reg.VEIL.FRAMES_WITHHELD : Fld := fldAt 0x300024 31 0 .rc 0 kEHM
def Reg.VEIL.FRAMES_SKIPPED : Fld := fldAt 0x300028 31 0 .rc 0 kEHM
def Reg.VEIL.VISOR_MISMATCHES : Fld := fldAt 0x30002C 31 0 .rc 0 kEHM
def Reg.VEIL.VISOR_FAILS : Fld := fldAt 0x300030 31 0 .rc 0 kEHM
def Reg.VEIL.LINE_BUFFER_SHORT : Fld := fldAt 0x300034 31 0 .rc 0 kEHM
def Reg.VEIL.TAPS_REDUCED : Fld := fldAt 0x300038 31 0 .rc 0 kEHM
def Reg.VEIL.PLACEHOLDERS : Fld := fldAt 0x30003C 31 0 .rc 0 kEHM
def Reg.VEIL.POISON_FILLS : Fld := fldAt 0x300040 31 0 .rc 0 kEHM
def Reg.VEIL.LIST_INVALID : Fld := fldAt 0x300044 31 0 .rc 0 kEHM
def Reg.VEIL.OVERRUN : Fld := fldAt 0x300080 31 0 .rc 0 kEHM |>.array 16 0x4
def Reg.VEIL.QUERY_CONTROL_INDEX : Fld := fldAt 0x300200 14 0 .rw 0 kNone
def Reg.VEIL.QUERY_CONTROL_KIND : Fld := fldAt 0x300200 15 15 .rw 0 kNone
def Reg.VEIL.QUERY_CONTROL_GO : Fld := fldAt 0x300200 16 16 .wo 0 kNone
def Reg.VEIL.QUERY_CONTROL_DONE : Fld := fldAt 0x300200 17 17 .ro 0 kNone
def Reg.VEIL.QUERY_CONTROL_INVALID : Fld := fldAt 0x300200 18 18 .ro 0 kNone
def Reg.VEIL.QUERY_DATA : Fld := fldAt 0x300280 31 0 .ro 0 kNone |>.array 16 0x4
def Reg.veilFields0 : List Fld :=
  [Reg.VEIL.VEIL_CONFIG_STALE_LIMIT, Reg.VEIL.VEIL_CONFIG_COMPOSITE_SLACK, Reg.VEIL.VEIL_STATUS_VEILS_ENABLED, Reg.VEIL.VEIL_STATUS_VEILS_RETIRED, Reg.VEIL.COMPOSITES_ACTIVE, Reg.VEIL.COMPOSITES_ACTIVE_SLATED, Reg.VEIL.VEIL_EVENTS_VISOR_MISMATCH, Reg.VEIL.VEIL_EVENTS_VISOR_FAIL, Reg.VEIL.VEIL_EVENTS_LINE_BUFFER_SHORT, Reg.VEIL.VEIL_EVENTS_STALE_PLACEHOLDER, Reg.VEIL.VEIL_EVENTS_FRAME_SKIPPED, Reg.VEIL.VEIL_EVENTS_LIST_INVALID, Reg.VEIL.FRAMES_COMPOSED, Reg.VEIL.FRAMES_WITHHELD, Reg.VEIL.FRAMES_SKIPPED, Reg.VEIL.VISOR_MISMATCHES, Reg.VEIL.VISOR_FAILS, Reg.VEIL.LINE_BUFFER_SHORT, Reg.VEIL.TAPS_REDUCED, Reg.VEIL.PLACEHOLDERS, Reg.VEIL.POISON_FILLS, Reg.VEIL.LIST_INVALID, Reg.VEIL.OVERRUN, Reg.VEIL.QUERY_CONTROL_INDEX]
def Reg.veilFields1 : List Fld :=
  [Reg.VEIL.QUERY_CONTROL_KIND, Reg.VEIL.QUERY_CONTROL_GO, Reg.VEIL.QUERY_CONTROL_DONE, Reg.VEIL.QUERY_CONTROL_INVALID, Reg.VEIL.QUERY_DATA]
/-- The fields of the VEIL block. -/
def Reg.veilFields : List Fld := Reg.veilFields0 ++ Reg.veilFields1

/-! ### ENCODE block (07_video_encode) -/

def Reg.ENCODE.ENCODE_CONFIG_CAP_PER_BLOCK : Fld := fldAt 0x400000 10 0 .im 768 kWEHM
def Reg.ENCODE.ENCODE_CONFIG_HOLD_SLACK : Fld := fldAt 0x400000 13 11 .im 1 kWEHM
def Reg.ENCODE.ENCODE_STATUS_CLUSTERS_ENABLED : Fld := fldAt 0x400004 7 0 .im 0 kWEHM
def Reg.ENCODE.ENCODE_STATUS_CLUSTERS_RETIRED : Fld := fldAt 0x400004 23 16 .ro 0 kEM
def Reg.ENCODE.STREAMS_ACTIVE : Fld := fldAt 0x400008 12 0 .ro 0 kEHM
def Reg.ENCODE.ENCODE_EVENTS_AUSTERITY : Fld := fldAt 0x40000C 0 0 .w1c 0 kEHM
def Reg.ENCODE.ENCODE_EVENTS_FRAME_DROPPED : Fld := fldAt 0x40000C 1 1 .w1c 0 kEHM
def Reg.ENCODE.ENCODE_EVENTS_ROW_CUT : Fld := fldAt 0x40000C 2 2 .w1c 0 kEHM
def Reg.ENCODE.ENCODE_EVENTS_POOL_STARVED : Fld := fldAt 0x40000C 3 3 .w1c 0 kEHM
def Reg.ENCODE.ENCODE_EVENTS_WRITE_BLOCKED : Fld := fldAt 0x40000C 4 4 .w1c 0 kEHM
def Reg.ENCODE.ENCODE_EVENTS_NOTHING_SENT : Fld := fldAt 0x40000C 5 5 .w1c 0 kEHM
def Reg.ENCODE.FRAMES_ENCODED : Fld := fldAt 0x400020 31 0 .rc 0 kEHM
def Reg.ENCODE.KEYFRAMES : Fld := fldAt 0x400024 31 0 .rc 0 kEHM
def Reg.ENCODE.REPEATS : Fld := fldAt 0x400028 31 0 .rc 0 kEHM
def Reg.ENCODE.SKIP_FRAMES : Fld := fldAt 0x40002C 31 0 .rc 0 kEHM
def Reg.ENCODE.AUSTERITY_FRAMES : Fld := fldAt 0x400030 31 0 .rc 0 kEHM
def Reg.ENCODE.AUSTERITY_ROWS : Fld := fldAt 0x400034 31 0 .rc 0 kEHM
def Reg.ENCODE.FRAMES_DROPPED : Fld := fldAt 0x400038 31 0 .rc 0 kEHM
def Reg.ENCODE.NOTHING_SENT : Fld := fldAt 0x40003C 31 0 .rc 0 kEHM
def Reg.ENCODE.ROWS_CUT : Fld := fldAt 0x400040 31 0 .rc 0 kEHM
def Reg.ENCODE.POOL_STARVED : Fld := fldAt 0x400044 31 0 .rc 0 kEHM
def Reg.ENCODE.WRITE_BLOCKED : Fld := fldAt 0x400048 31 0 .rc 0 kEHM
def Reg.ENCODE.OVERRUN : Fld := fldAt 0x400080 31 0 .rc 0 kEHM |>.array 8 0x4
def Reg.ENCODE.QUERY_CONTROL_INDEX : Fld := fldAt 0x400200 11 0 .rw 0 kNone
def Reg.ENCODE.QUERY_CONTROL_GO : Fld := fldAt 0x400200 16 16 .wo 0 kNone
def Reg.ENCODE.QUERY_CONTROL_DONE : Fld := fldAt 0x400200 17 17 .ro 0 kNone
def Reg.ENCODE.QUERY_CONTROL_INVALID : Fld := fldAt 0x400200 18 18 .ro 0 kNone
def Reg.ENCODE.QUERY_DATA : Fld := fldAt 0x400280 31 0 .ro 0 kNone |>.array 16 0x4
def Reg.encodeFields0 : List Fld :=
  [Reg.ENCODE.ENCODE_CONFIG_CAP_PER_BLOCK, Reg.ENCODE.ENCODE_CONFIG_HOLD_SLACK, Reg.ENCODE.ENCODE_STATUS_CLUSTERS_ENABLED, Reg.ENCODE.ENCODE_STATUS_CLUSTERS_RETIRED, Reg.ENCODE.STREAMS_ACTIVE, Reg.ENCODE.ENCODE_EVENTS_AUSTERITY, Reg.ENCODE.ENCODE_EVENTS_FRAME_DROPPED, Reg.ENCODE.ENCODE_EVENTS_ROW_CUT, Reg.ENCODE.ENCODE_EVENTS_POOL_STARVED, Reg.ENCODE.ENCODE_EVENTS_WRITE_BLOCKED, Reg.ENCODE.ENCODE_EVENTS_NOTHING_SENT, Reg.ENCODE.FRAMES_ENCODED, Reg.ENCODE.KEYFRAMES, Reg.ENCODE.REPEATS, Reg.ENCODE.SKIP_FRAMES, Reg.ENCODE.AUSTERITY_FRAMES, Reg.ENCODE.AUSTERITY_ROWS, Reg.ENCODE.FRAMES_DROPPED, Reg.ENCODE.NOTHING_SENT, Reg.ENCODE.ROWS_CUT, Reg.ENCODE.POOL_STARVED, Reg.ENCODE.WRITE_BLOCKED, Reg.ENCODE.OVERRUN, Reg.ENCODE.QUERY_CONTROL_INDEX]
def Reg.encodeFields1 : List Fld :=
  [Reg.ENCODE.QUERY_CONTROL_GO, Reg.ENCODE.QUERY_CONTROL_DONE, Reg.ENCODE.QUERY_CONTROL_INVALID, Reg.ENCODE.QUERY_DATA]
/-- The fields of the ENCODE block. -/
def Reg.encodeFields : List Fld := Reg.encodeFields0 ++ Reg.encodeFields1

/-! ### AUDIO block (08_audio) -/

def Reg.AUDIO.AUDIO_CONFIG_JB_MIN : Fld := fldAt 0x500000 8 0 .im 20 kWEHM
def Reg.AUDIO.AUDIO_CONFIG_JB_MAX : Fld := fldAt 0x500000 17 9 .im 400 kWEHM
def Reg.AUDIO.AUDIO_CONFIG_CONCEAL_LIMIT : Fld := fldAt 0x500000 25 18 .im 60 kWEHM
def Reg.AUDIO.AUDIO_STATUS_CLUSTERS_ENABLED : Fld := fldAt 0x500004 7 0 .im 0 kWEHM
def Reg.AUDIO.AUDIO_STATUS_CLUSTERS_RETIRED : Fld := fldAt 0x500004 23 16 .ro 0 kEM
def Reg.AUDIO.SOURCES_ACTIVE : Fld := fldAt 0x500008 14 0 .ro 0 kEHM
def Reg.AUDIO.MIXES_ACTIVE : Fld := fldAt 0x50000C 12 0 .ro 0 kEHM
def Reg.AUDIO.AUDIO_EVENTS_DECODE_ERROR : Fld := fldAt 0x500010 0 0 .w1c 0 kEHM
def Reg.AUDIO.AUDIO_EVENTS_COMFORT_NOISE : Fld := fldAt 0x500010 1 1 .w1c 0 kEHM
def Reg.AUDIO.AUDIO_EVENTS_RESYNC : Fld := fldAt 0x500010 2 2 .w1c 0 kEHM
def Reg.AUDIO.AUDIO_EVENTS_LATE_FRAME : Fld := fldAt 0x500010 3 3 .w1c 0 kEHM
def Reg.AUDIO.FRAMES_DECODED : Fld := fldAt 0x500020 31 0 .rc 0 kEHM
def Reg.AUDIO.MS_CONCEALED : Fld := fldAt 0x500024 31 0 .rc 0 kEHM
def Reg.AUDIO.MS_COMFORT_NOISE : Fld := fldAt 0x500028 31 0 .rc 0 kEHM
def Reg.AUDIO.LATE_PACKETS : Fld := fldAt 0x50002C 31 0 .rc 0 kEHM
def Reg.AUDIO.EARLY_PACKETS : Fld := fldAt 0x500030 31 0 .rc 0 kEHM
def Reg.AUDIO.DUPLICATES : Fld := fldAt 0x500034 31 0 .rc 0 kEHM
def Reg.AUDIO.DECODE_ERRORS : Fld := fldAt 0x500038 31 0 .rc 0 kEHM
def Reg.AUDIO.RESYNCS : Fld := fldAt 0x50003C 31 0 .rc 0 kEHM
def Reg.AUDIO.JB_ADJUSTMENTS : Fld := fldAt 0x500040 31 0 .rc 0 kEHM
def Reg.AUDIO.FRAMES_ENCODED : Fld := fldAt 0x500044 31 0 .rc 0 kEHM
def Reg.AUDIO.FEC_RECOVERED : Fld := fldAt 0x500048 31 0 .rc 0 kEHM
def Reg.AUDIO.OVERRUN : Fld := fldAt 0x500080 31 0 .rc 0 kEHM |>.array 8 0x4
def Reg.AUDIO.QUERY_CONTROL_INDEX : Fld := fldAt 0x500200 19 0 .rw 0 kNone
def Reg.AUDIO.QUERY_CONTROL_KIND : Fld := fldAt 0x500200 20 20 .rw 0 kNone
def Reg.AUDIO.QUERY_CONTROL_GO : Fld := fldAt 0x500200 21 21 .wo 0 kNone
def Reg.AUDIO.QUERY_CONTROL_DONE : Fld := fldAt 0x500200 22 22 .ro 0 kNone
def Reg.AUDIO.QUERY_CONTROL_INVALID : Fld := fldAt 0x500200 23 23 .ro 0 kNone
def Reg.AUDIO.QUERY_DATA : Fld := fldAt 0x500280 31 0 .ro 0 kNone |>.array 16 0x4
def Reg.audioFields0 : List Fld :=
  [Reg.AUDIO.AUDIO_CONFIG_JB_MIN, Reg.AUDIO.AUDIO_CONFIG_JB_MAX, Reg.AUDIO.AUDIO_CONFIG_CONCEAL_LIMIT, Reg.AUDIO.AUDIO_STATUS_CLUSTERS_ENABLED, Reg.AUDIO.AUDIO_STATUS_CLUSTERS_RETIRED, Reg.AUDIO.SOURCES_ACTIVE, Reg.AUDIO.MIXES_ACTIVE, Reg.AUDIO.AUDIO_EVENTS_DECODE_ERROR, Reg.AUDIO.AUDIO_EVENTS_COMFORT_NOISE, Reg.AUDIO.AUDIO_EVENTS_RESYNC, Reg.AUDIO.AUDIO_EVENTS_LATE_FRAME, Reg.AUDIO.FRAMES_DECODED, Reg.AUDIO.MS_CONCEALED, Reg.AUDIO.MS_COMFORT_NOISE, Reg.AUDIO.LATE_PACKETS, Reg.AUDIO.EARLY_PACKETS, Reg.AUDIO.DUPLICATES, Reg.AUDIO.DECODE_ERRORS, Reg.AUDIO.RESYNCS, Reg.AUDIO.JB_ADJUSTMENTS, Reg.AUDIO.FRAMES_ENCODED, Reg.AUDIO.FEC_RECOVERED, Reg.AUDIO.OVERRUN, Reg.AUDIO.QUERY_CONTROL_INDEX]
def Reg.audioFields1 : List Fld :=
  [Reg.AUDIO.QUERY_CONTROL_KIND, Reg.AUDIO.QUERY_CONTROL_GO, Reg.AUDIO.QUERY_CONTROL_DONE, Reg.AUDIO.QUERY_CONTROL_INVALID, Reg.AUDIO.QUERY_DATA]
/-- The fields of the AUDIO block. -/
def Reg.audioFields : List Fld := Reg.audioFields0 ++ Reg.audioFields1

/-! ### MITTEN block (09_mitten_hatstand) -/

def Reg.MITTEN.MITTEN_CONFIG : Fld := fldAt 0x600000 17 0 .im 50000 kWEHM
def Reg.MITTEN.MITTEN_STATUS_CLUSTERS_ENABLED : Fld := fldAt 0x600004 7 0 .im 0 kWEHM
def Reg.MITTEN.MITTEN_STATUS_CLUSTERS_RETIRED : Fld := fldAt 0x600004 23 16 .ro 0 kEM
def Reg.MITTEN.THREADS_ACTIVE : Fld := fldAt 0x600008 13 0 .ro 0 kEHM
def Reg.MITTEN.THREADS_ACTIVE_FAULTED : Fld := fldAt 0x600008 27 14 .ro 0 kEHM
def Reg.MITTEN.MITTEN_EVENTS_THREAD_FAULT : Fld := fldAt 0x60000C 0 0 .w1c 0 kEHM
def Reg.MITTEN.MITTEN_EVENTS_ORPHANED : Fld := fldAt 0x60000C 1 1 .w1c 0 kEHM
def Reg.MITTEN.MITTEN_EVENTS_LANE_ERROR : Fld := fldAt 0x60000C 2 2 .w1c 0 kEHM
def Reg.MITTEN.THREAD_STORE_LO : Fld := fldAt 0x600010 31 0 .im 0 kWEHM
def Reg.MITTEN.THREAD_STORE_HI : Fld := fldAt 0x600014 15 0 .im 0 kWEHM
def Reg.MITTEN.DISPATCHES : Fld := fldAt 0x600020 31 0 .rc 0 kEHM
def Reg.MITTEN.AFFINITY_HITS : Fld := fldAt 0x600024 31 0 .rc 0 kEHM
def Reg.MITTEN.PREEMPTIONS : Fld := fldAt 0x600028 31 0 .rc 0 kEHM
def Reg.MITTEN.CANCELS : Fld := fldAt 0x60002C 31 0 .rc 0 kEHM
def Reg.MITTEN.FAULT_ILLEGAL : Fld := fldAt 0x600030 31 0 .rc 0 kEHM
def Reg.MITTEN.FAULT_ACCESS : Fld := fldAt 0x600034 31 0 .rc 0 kEHM
def Reg.MITTEN.FAULT_ADDR : Fld := fldAt 0x600038 31 0 .rc 0 kEHM
def Reg.MITTEN.RUNAWAYS : Fld := fldAt 0x60003C 31 0 .rc 0 kEHM
def Reg.MITTEN.RESTARTS : Fld := fldAt 0x600040 31 0 .rc 0 kEHM
def Reg.MITTEN.ORPHANED : Fld := fldAt 0x600044 31 0 .rc 0 kEHM
def Reg.MITTEN.CORRECTED : Fld := fldAt 0x600048 31 0 .rc 0 kEHM
def Reg.MITTEN.LANE_ERRORS : Fld := fldAt 0x60004C 31 0 .rc 0 kEHM
def Reg.MITTEN.OVERRUN : Fld := fldAt 0x600080 31 0 .rc 0 kEHM |>.array 8 0x4
def Reg.MITTEN.LANE_LOAD_LAST : Fld := fldAt 0x600100 17 0 .ro 0 kHM |>.array 64 0x4
def Reg.MITTEN.LANE_LOAD_MEAN : Fld := fldAt 0x600100 31 18 .ro 0 kHM |>.array 64 0x4
def Reg.MITTEN.QUEUE_DEPTH_EVEN : Fld := fldAt 0x600400 15 0 .ro 0 kHM |>.array 256 0x4
def Reg.MITTEN.QUEUE_DEPTH_ODD : Fld := fldAt 0x600400 31 16 .ro 0 kHM |>.array 256 0x4
def Reg.MITTEN.WAIT_HIST : Fld := fldAt 0x600800 31 0 .rc 0 kHM |>.array 512 0x4
def Reg.MITTEN.QUERY_CONTROL_INDEX : Fld := fldAt 0x601000 12 0 .rw 0 kNone
def Reg.MITTEN.QUERY_CONTROL_GO : Fld := fldAt 0x601000 16 16 .wo 0 kNone
def Reg.MITTEN.QUERY_CONTROL_DONE : Fld := fldAt 0x601000 17 17 .ro 0 kNone
def Reg.MITTEN.QUERY_CONTROL_INVALID : Fld := fldAt 0x601000 18 18 .ro 0 kNone
def Reg.MITTEN.QUERY_DATA : Fld := fldAt 0x601080 31 0 .ro 0 kNone |>.array 8 0x4
def Reg.mittenFields0 : List Fld :=
  [Reg.MITTEN.MITTEN_CONFIG, Reg.MITTEN.MITTEN_STATUS_CLUSTERS_ENABLED, Reg.MITTEN.MITTEN_STATUS_CLUSTERS_RETIRED, Reg.MITTEN.THREADS_ACTIVE, Reg.MITTEN.THREADS_ACTIVE_FAULTED, Reg.MITTEN.MITTEN_EVENTS_THREAD_FAULT, Reg.MITTEN.MITTEN_EVENTS_ORPHANED, Reg.MITTEN.MITTEN_EVENTS_LANE_ERROR, Reg.MITTEN.THREAD_STORE_LO, Reg.MITTEN.THREAD_STORE_HI, Reg.MITTEN.DISPATCHES, Reg.MITTEN.AFFINITY_HITS, Reg.MITTEN.PREEMPTIONS, Reg.MITTEN.CANCELS, Reg.MITTEN.FAULT_ILLEGAL, Reg.MITTEN.FAULT_ACCESS, Reg.MITTEN.FAULT_ADDR, Reg.MITTEN.RUNAWAYS, Reg.MITTEN.RESTARTS, Reg.MITTEN.ORPHANED, Reg.MITTEN.CORRECTED, Reg.MITTEN.LANE_ERRORS, Reg.MITTEN.OVERRUN, Reg.MITTEN.LANE_LOAD_LAST]
def Reg.mittenFields1 : List Fld :=
  [Reg.MITTEN.LANE_LOAD_MEAN, Reg.MITTEN.QUEUE_DEPTH_EVEN, Reg.MITTEN.QUEUE_DEPTH_ODD, Reg.MITTEN.WAIT_HIST, Reg.MITTEN.QUERY_CONTROL_INDEX, Reg.MITTEN.QUERY_CONTROL_GO, Reg.MITTEN.QUERY_CONTROL_DONE, Reg.MITTEN.QUERY_CONTROL_INVALID, Reg.MITTEN.QUERY_DATA]
/-- The fields of the MITTEN block. -/
def Reg.mittenFields : List Fld := Reg.mittenFields0 ++ Reg.mittenFields1

/-! ### INGRESS block (10_ingress) -/

def Reg.INGRESS.INGRESS_CONFIG_QUEUE_CLASS : Fld := fldAt 0x700000 15 0 .im 0 kWEHM
def Reg.INGRESS.INGRESS_CONFIG_HASH_FIELDS : Fld := fldAt 0x700000 19 16 .im 15 kWEHM
def Reg.INGRESS.INGRESS_CONFIG_FRAG_TIMEOUT : Fld := fldAt 0x700000 27 20 .im 32 kWEHM
def Reg.INGRESS.INGRESS_STATUS_SPREAD : Fld := fldAt 0x700004 0 0 .ro 0 kEHM
def Reg.INGRESS.INGRESS_STATUS_ENGINES_RETIRED : Fld := fldAt 0x700004 15 8 .ro 0 kEM
def Reg.INGRESS.INGRESS_EVENTS_CUFF_ERROR : Fld := fldAt 0x700008 0 0 .w1c 0 kEHM
def Reg.INGRESS.INGRESS_EVENTS_FRAG_TABLE_FULL : Fld := fldAt 0x700008 1 1 .w1c 0 kEHM
def Reg.INGRESS.INGRESS_EVENTS_HOST_BACKLOG : Fld := fldAt 0x700008 2 2 .w1c 0 kEHM
def Reg.INGRESS.INGRESS_EVENTS_SPREAD_CHANGED : Fld := fldAt 0x700008 3 3 .w1c 0 kEHM
def Reg.INGRESS.INGRESS_EVENTS_RECIRC_FULL : Fld := fldAt 0x700008 4 4 .w1c 0 kEHM
def Reg.INGRESS.FRAMES_PARSED : Fld := fldAt 0x700020 31 0 .rc 0 kEHM
def Reg.INGRESS.TEMPLATE_PATHS : Fld := fldAt 0x700024 31 0 .rc 0 kEHM
def Reg.INGRESS.GRAPH_WALKS : Fld := fldAt 0x700028 31 0 .rc 0 kEHM
def Reg.INGRESS.FCS_DROPS : Fld := fldAt 0x70002C 31 0 .rc 0 kEHM
def Reg.INGRESS.EXC_DEPTH : Fld := fldAt 0x700030 31 0 .rc 0 kEHM
def Reg.INGRESS.EXC_LENGTH : Fld := fldAt 0x700034 31 0 .rc 0 kEHM
def Reg.INGRESS.EXC_FRAGMENT : Fld := fldAt 0x700038 31 0 .rc 0 kEHM
def Reg.INGRESS.EXC_NO_MATCH : Fld := fldAt 0x70003C 31 0 .rc 0 kEHM
def Reg.INGRESS.EXC_GRAPH_END : Fld := fldAt 0x700040 31 0 .rc 0 kEHM
def Reg.INGRESS.EXC_NESTED : Fld := fldAt 0x700044 31 0 .rc 0 kEHM
def Reg.INGRESS.MEDIA_EXC_DROPS : Fld := fldAt 0x700048 31 0 .rc 0 kEHM
def Reg.INGRESS.HOST_DELIVERED : Fld := fldAt 0x70004C 31 0 .rc 0 kEHM
def Reg.INGRESS.HOST_DROPS : Fld := fldAt 0x700050 31 0 .rc 0 kEHM
def Reg.INGRESS.GRAPH_DROPS : Fld := fldAt 0x700054 31 0 .rc 0 kEHM
def Reg.INGRESS.DEMUX_DROPS : Fld := fldAt 0x700058 31 0 .rc 0 kEHM
def Reg.INGRESS.NO_LEG : Fld := fldAt 0x70005C 31 0 .rc 0 kEHM
def Reg.INGRESS.FRAG_ORPHANS : Fld := fldAt 0x700060 31 0 .rc 0 kEHM
def Reg.INGRESS.FRAG_TIMEOUTS : Fld := fldAt 0x700064 31 0 .rc 0 kEHM
def Reg.INGRESS.FRAG_OVERLAPS : Fld := fldAt 0x700068 31 0 .rc 0 kEHM
def Reg.INGRESS.FRAG_TABLE_FULL : Fld := fldAt 0x70006C 31 0 .rc 0 kEHM
def Reg.INGRESS.FRAG_TOO_LONG : Fld := fldAt 0x700070 31 0 .rc 0 kEHM
def Reg.INGRESS.RECIRCULATED : Fld := fldAt 0x700074 31 0 .rc 0 kEHM
def Reg.INGRESS.RECIRC_DROPS : Fld := fldAt 0x700078 31 0 .rc 0 kEHM
def Reg.INGRESS.UNTRUSTED_DROPS : Fld := fldAt 0x70007C 31 0 .rc 0 kEHM
def Reg.INGRESS.CUFF_UNCORRECTABLE : Fld := fldAt 0x700080 31 0 .rc 0 kEHM
def Reg.INGRESS.CUFF_RESYNC : Fld := fldAt 0x700084 31 0 .rc 0 kEHM
def Reg.INGRESS.CUFF_CONFIG_BANK_SIZE : Fld := fldAt 0x700100 1 0 .im 1 kWEHM |>.array 18 0x4
def Reg.INGRESS.CUFF_CONFIG_PARSE_ENGINE : Fld := fldAt 0x700100 4 2 .ro 0 kEHM |>.array 18 0x4
def Reg.INGRESS.CUFF_STATUS_FILL : Fld := fldAt 0x700200 9 0 .ro 0 kNone |>.array 18 0x4
def Reg.INGRESS.CUFF_STATUS_MARKED : Fld := fldAt 0x700200 10 10 .ro 0 kNone |>.array 18 0x4
def Reg.INGRESS.CUFF_STATUS_WRITER_STALLED : Fld := fldAt 0x700200 11 11 .ro 0 kNone |>.array 18 0x4
def Reg.INGRESS.CUFF_CORRECTED : Fld := fldAt 0x700300 31 0 .rc 0 kEHM |>.array 36 0x4
def Reg.INGRESS.INDIRECTION : Fld := fldAt 0x700400 31 0 .ro 0 kEHM |>.array 128 0x4
def Reg.INGRESS.QUERY_CONTROL_INDEX : Fld := fldAt 0x700800 19 0 .rw 0 kNone
def Reg.INGRESS.QUERY_CONTROL_KIND : Fld := fldAt 0x700800 20 20 .rw 0 kNone
def Reg.INGRESS.QUERY_CONTROL_GO : Fld := fldAt 0x700800 21 21 .wo 0 kNone
def Reg.INGRESS.QUERY_CONTROL_DONE : Fld := fldAt 0x700800 22 22 .ro 0 kNone
def Reg.INGRESS.QUERY_CONTROL_INVALID : Fld := fldAt 0x700800 23 23 .ro 0 kNone
def Reg.INGRESS.QUERY_DATA : Fld := fldAt 0x700880 31 0 .ro 0 kNone |>.array 16 0x4
def Reg.ingressFields0 : List Fld :=
  [Reg.INGRESS.INGRESS_CONFIG_QUEUE_CLASS, Reg.INGRESS.INGRESS_CONFIG_HASH_FIELDS, Reg.INGRESS.INGRESS_CONFIG_FRAG_TIMEOUT, Reg.INGRESS.INGRESS_STATUS_SPREAD, Reg.INGRESS.INGRESS_STATUS_ENGINES_RETIRED, Reg.INGRESS.INGRESS_EVENTS_CUFF_ERROR, Reg.INGRESS.INGRESS_EVENTS_FRAG_TABLE_FULL, Reg.INGRESS.INGRESS_EVENTS_HOST_BACKLOG, Reg.INGRESS.INGRESS_EVENTS_SPREAD_CHANGED, Reg.INGRESS.INGRESS_EVENTS_RECIRC_FULL, Reg.INGRESS.FRAMES_PARSED, Reg.INGRESS.TEMPLATE_PATHS, Reg.INGRESS.GRAPH_WALKS, Reg.INGRESS.FCS_DROPS, Reg.INGRESS.EXC_DEPTH, Reg.INGRESS.EXC_LENGTH, Reg.INGRESS.EXC_FRAGMENT, Reg.INGRESS.EXC_NO_MATCH, Reg.INGRESS.EXC_GRAPH_END, Reg.INGRESS.EXC_NESTED, Reg.INGRESS.MEDIA_EXC_DROPS, Reg.INGRESS.HOST_DELIVERED, Reg.INGRESS.HOST_DROPS, Reg.INGRESS.GRAPH_DROPS]
def Reg.ingressFields1 : List Fld :=
  [Reg.INGRESS.DEMUX_DROPS, Reg.INGRESS.NO_LEG, Reg.INGRESS.FRAG_ORPHANS, Reg.INGRESS.FRAG_TIMEOUTS, Reg.INGRESS.FRAG_OVERLAPS, Reg.INGRESS.FRAG_TABLE_FULL, Reg.INGRESS.FRAG_TOO_LONG, Reg.INGRESS.RECIRCULATED, Reg.INGRESS.RECIRC_DROPS, Reg.INGRESS.UNTRUSTED_DROPS, Reg.INGRESS.CUFF_UNCORRECTABLE, Reg.INGRESS.CUFF_RESYNC, Reg.INGRESS.CUFF_CONFIG_BANK_SIZE, Reg.INGRESS.CUFF_CONFIG_PARSE_ENGINE, Reg.INGRESS.CUFF_STATUS_FILL, Reg.INGRESS.CUFF_STATUS_MARKED, Reg.INGRESS.CUFF_STATUS_WRITER_STALLED, Reg.INGRESS.CUFF_CORRECTED, Reg.INGRESS.INDIRECTION, Reg.INGRESS.QUERY_CONTROL_INDEX, Reg.INGRESS.QUERY_CONTROL_KIND, Reg.INGRESS.QUERY_CONTROL_GO, Reg.INGRESS.QUERY_CONTROL_DONE, Reg.INGRESS.QUERY_CONTROL_INVALID]
def Reg.ingressFields2 : List Fld :=
  [Reg.INGRESS.QUERY_DATA]
/-- The fields of the INGRESS block. -/
def Reg.ingressFields : List Fld := Reg.ingressFields0 ++ Reg.ingressFields1 ++ Reg.ingressFields2

/-! ### CIPHER block (11_cipher_palm) -/

def Reg.CIPHER.CIPHER_CONFIG_PIN_LIMIT : Fld := fldAt 0x800000 8 0 .im 256 kWEHM
def Reg.CIPHER.CIPHER_CONFIG_REFRESH_TICKS : Fld := fldAt 0x800000 24 9 .im 4096 kWEHM
def Reg.CIPHER.CIPHER_STATUS_CLUSTERS_ENABLED : Fld := fldAt 0x800004 7 0 .im 0 kWEHM
def Reg.CIPHER.CIPHER_STATUS_CLUSTERS_RETIRED : Fld := fldAt 0x800004 23 16 .ro 0 kEM
def Reg.CIPHER.PALM_STATUS_RESIDENT : Fld := fldAt 0x800008 10 0 .ro 0 kNone
def Reg.CIPHER.PALM_STATUS_PINNED : Fld := fldAt 0x800008 19 11 .ro 0 kNone
def Reg.CIPHER.PALM_STATUS_LOADS_QUEUED : Fld := fldAt 0x800008 31 20 .ro 0 kNone
def Reg.CIPHER.CIPHER_EVENTS_LENGTH_ERROR : Fld := fldAt 0x80000C 0 0 .w1c 0 kEHM
def Reg.CIPHER.CIPHER_EVENTS_LOAD_FAIL : Fld := fldAt 0x80000C 1 1 .w1c 0 kEHM
def Reg.CIPHER.CIPHER_EVENTS_MASK_STALL : Fld := fldAt 0x80000C 2 2 .w1c 0 kEHM
def Reg.CIPHER.CIPHER_EVENTS_GLOVEBOX_UNTRUSTED : Fld := fldAt 0x80000C 3 3 .w1c 0 kEHM
def Reg.CIPHER.CIPHER_EVENTS_PALM_FULL : Fld := fldAt 0x80000C 4 4 .w1c 0 kEHM
def Reg.CIPHER.JOBS_DONE : Fld := fldAt 0x800020 31 0 .rc 0 kEHM
def Reg.CIPHER.UNTRUSTED_TOTAL : Fld := fldAt 0x800024 31 0 .rc 0 kEHM
def Reg.CIPHER.UNTRUSTED_SRTP : Fld := fldAt 0x800028 31 0 .rc 0 kEHM
def Reg.CIPHER.UNTRUSTED_SRTCP : Fld := fldAt 0x80002C 31 0 .rc 0 kEHM
def Reg.CIPHER.UNTRUSTED_GAUNTLET : Fld := fldAt 0x800030 31 0 .rc 0 kEHM
def Reg.CIPHER.UNTRUSTED_PAGE : Fld := fldAt 0x800034 31 0 .rc 0 kEHM
def Reg.CIPHER.LENGTH_ERRORS : Fld := fldAt 0x800038 31 0 .rc 0 kEHM
def Reg.CIPHER.MODE_ERRORS : Fld := fldAt 0x80003C 31 0 .rc 0 kEHM
def Reg.CIPHER.JOBS_ABORTED : Fld := fldAt 0x800040 31 0 .rc 0 kEHM
def Reg.CIPHER.SRTP_REPLAYED : Fld := fldAt 0x800044 31 0 .rc 0 kEHM
def Reg.CIPHER.PALM_HITS : Fld := fldAt 0x800048 31 0 .rc 0 kEHM
def Reg.CIPHER.PALM_MISSES : Fld := fldAt 0x80004C 31 0 .rc 0 kEHM
def Reg.CIPHER.PALM_LOADS : Fld := fldAt 0x800050 31 0 .rc 0 kEHM
def Reg.CIPHER.PALM_FULL : Fld := fldAt 0x800054 31 0 .rc 0 kEHM
def Reg.CIPHER.LOAD_FAILS : Fld := fldAt 0x800058 31 0 .rc 0 kEHM
def Reg.CIPHER.MASK_STALLS : Fld := fldAt 0x80005C 31 0 .rc 0 kEHM
def Reg.CIPHER.KEY_ABSENT : Fld := fldAt 0x800060 31 0 .rc 0 kEHM
def Reg.CIPHER.MISSES : Fld := fldAt 0x800080 31 0 .rc 0 kEHM |>.array 8 0x4
def Reg.CIPHER.CORE_LOAD_LAST : Fld := fldAt 0x800100 17 0 .ro 0 kHM |>.array 32 0x4
def Reg.CIPHER.CORE_LOAD_MEAN : Fld := fldAt 0x800100 31 18 .ro 0 kHM |>.array 32 0x4
def Reg.CIPHER.PORT_LOAD_LAST : Fld := fldAt 0x800180 17 0 .ro 0 kHM |>.array 4 0x4
def Reg.CIPHER.PORT_LOAD_MEAN : Fld := fldAt 0x800180 31 18 .ro 0 kHM |>.array 4 0x4
def Reg.CIPHER.QUERY_CONTROL_INDEX : Fld := fldAt 0x800200 9 0 .rw 0 kNone
def Reg.CIPHER.QUERY_CONTROL_GO : Fld := fldAt 0x800200 16 16 .wo 0 kNone
def Reg.CIPHER.QUERY_CONTROL_DONE : Fld := fldAt 0x800200 17 17 .ro 0 kNone
def Reg.CIPHER.QUERY_CONTROL_INVALID : Fld := fldAt 0x800200 18 18 .ro 0 kNone
def Reg.CIPHER.QUERY_DATA : Fld := fldAt 0x800280 31 0 .ro 0 kNone |>.array 4 0x4
def Reg.cipherFields0 : List Fld :=
  [Reg.CIPHER.CIPHER_CONFIG_PIN_LIMIT, Reg.CIPHER.CIPHER_CONFIG_REFRESH_TICKS, Reg.CIPHER.CIPHER_STATUS_CLUSTERS_ENABLED, Reg.CIPHER.CIPHER_STATUS_CLUSTERS_RETIRED, Reg.CIPHER.PALM_STATUS_RESIDENT, Reg.CIPHER.PALM_STATUS_PINNED, Reg.CIPHER.PALM_STATUS_LOADS_QUEUED, Reg.CIPHER.CIPHER_EVENTS_LENGTH_ERROR, Reg.CIPHER.CIPHER_EVENTS_LOAD_FAIL, Reg.CIPHER.CIPHER_EVENTS_MASK_STALL, Reg.CIPHER.CIPHER_EVENTS_GLOVEBOX_UNTRUSTED, Reg.CIPHER.CIPHER_EVENTS_PALM_FULL, Reg.CIPHER.JOBS_DONE, Reg.CIPHER.UNTRUSTED_TOTAL, Reg.CIPHER.UNTRUSTED_SRTP, Reg.CIPHER.UNTRUSTED_SRTCP, Reg.CIPHER.UNTRUSTED_GAUNTLET, Reg.CIPHER.UNTRUSTED_PAGE, Reg.CIPHER.LENGTH_ERRORS, Reg.CIPHER.MODE_ERRORS, Reg.CIPHER.JOBS_ABORTED, Reg.CIPHER.SRTP_REPLAYED, Reg.CIPHER.PALM_HITS, Reg.CIPHER.PALM_MISSES]
def Reg.cipherFields1 : List Fld :=
  [Reg.CIPHER.PALM_LOADS, Reg.CIPHER.PALM_FULL, Reg.CIPHER.LOAD_FAILS, Reg.CIPHER.MASK_STALLS, Reg.CIPHER.KEY_ABSENT, Reg.CIPHER.MISSES, Reg.CIPHER.CORE_LOAD_LAST, Reg.CIPHER.CORE_LOAD_MEAN, Reg.CIPHER.PORT_LOAD_LAST, Reg.CIPHER.PORT_LOAD_MEAN, Reg.CIPHER.QUERY_CONTROL_INDEX, Reg.CIPHER.QUERY_CONTROL_GO, Reg.CIPHER.QUERY_CONTROL_DONE, Reg.CIPHER.QUERY_CONTROL_INVALID, Reg.CIPHER.QUERY_DATA]
/-- The fields of the CIPHER block. -/
def Reg.cipherFields : List Fld := Reg.cipherFields0 ++ Reg.cipherFields1

/-! ### GAUNTLET block (12_gauntlet) -/

def Reg.GAUNTLET.GAUNTLET_CONFIG_TIME_PROBE_TICKS : Fld := fldAt 0x900000 7 0 .im 64 kWEHM
def Reg.GAUNTLET.GAUNTLET_CONFIG_OLD_EPOCH_TICKS : Fld := fldAt 0x900000 15 8 .im 8 kWEHM
def Reg.GAUNTLET.TUNNELS_ACTIVE : Fld := fldAt 0x900004 12 0 .ro 0 kEHM
def Reg.GAUNTLET.TUNNELS_UP : Fld := fldAt 0x900004 28 16 .ro 0 kEHM
def Reg.GAUNTLET.GAUNTLET_EVENTS_TUNNEL_DOWN : Fld := fldAt 0x900008 0 0 .w1c 0 kEHM
def Reg.GAUNTLET.GAUNTLET_EVENTS_TUNNEL_UP : Fld := fldAt 0x900008 1 1 .w1c 0 kEHM
def Reg.GAUNTLET.GAUNTLET_EVENTS_PEER_DOWN : Fld := fldAt 0x900008 2 2 .w1c 0 kEHM
def Reg.GAUNTLET.GAUNTLET_EVENTS_EPOCH_PROMOTED : Fld := fldAt 0x900008 3 3 .w1c 0 kEHM
def Reg.GAUNTLET.GAUNTLET_EVENTS_SEGMENT_BAD : Fld := fldAt 0x900008 4 4 .w1c 0 kEHM
def Reg.GAUNTLET.FRAMES_SENT : Fld := fldAt 0x900020 31 0 .rc 0 kEHM
def Reg.GAUNTLET.FILLER_FRAMES : Fld := fldAt 0x900024 31 0 .rc 0 kEHM
def Reg.GAUNTLET.FRAMES_ACCEPTED : Fld := fldAt 0x900028 31 0 .rc 0 kEHM
def Reg.GAUNTLET.HEADER_BAD : Fld := fldAt 0x90002C 31 0 .rc 0 kEHM
def Reg.GAUNTLET.NOT_ACTIVE : Fld := fldAt 0x900030 31 0 .rc 0 kEHM
def Reg.GAUNTLET.EPOCH_UNKNOWN : Fld := fldAt 0x900034 31 0 .rc 0 kEHM
def Reg.GAUNTLET.REPLAY_OLD : Fld := fldAt 0x900038 31 0 .rc 0 kEHM
def Reg.GAUNTLET.REPLAYED : Fld := fldAt 0x90003C 31 0 .rc 0 kEHM
def Reg.GAUNTLET.SEGMENT_BAD : Fld := fldAt 0x900040 31 0 .rc 0 kEHM
def Reg.GAUNTLET.REASSEMBLY_LOST : Fld := fldAt 0x900044 31 0 .rc 0 kEHM
def Reg.GAUNTLET.LABEL_RESERVED : Fld := fldAt 0x900048 31 0 .rc 0 kEHM
def Reg.GAUNTLET.OVERSIZE_INNER : Fld := fldAt 0x90004C 31 0 .rc 0 kEHM
def Reg.GAUNTLET.QUERY_CONTROL_INDEX : Fld := fldAt 0x900200 11 0 .rw 0 kNone
def Reg.GAUNTLET.QUERY_CONTROL_GO : Fld := fldAt 0x900200 16 16 .wo 0 kNone
def Reg.GAUNTLET.QUERY_CONTROL_DONE : Fld := fldAt 0x900200 17 17 .ro 0 kNone
def Reg.GAUNTLET.QUERY_CONTROL_INVALID : Fld := fldAt 0x900200 18 18 .ro 0 kNone
def Reg.GAUNTLET.QUERY_DATA : Fld := fldAt 0x900280 31 0 .ro 0 kNone |>.array 32 0x4
def Reg.gauntletFields0 : List Fld :=
  [Reg.GAUNTLET.GAUNTLET_CONFIG_TIME_PROBE_TICKS, Reg.GAUNTLET.GAUNTLET_CONFIG_OLD_EPOCH_TICKS, Reg.GAUNTLET.TUNNELS_ACTIVE, Reg.GAUNTLET.TUNNELS_UP, Reg.GAUNTLET.GAUNTLET_EVENTS_TUNNEL_DOWN, Reg.GAUNTLET.GAUNTLET_EVENTS_TUNNEL_UP, Reg.GAUNTLET.GAUNTLET_EVENTS_PEER_DOWN, Reg.GAUNTLET.GAUNTLET_EVENTS_EPOCH_PROMOTED, Reg.GAUNTLET.GAUNTLET_EVENTS_SEGMENT_BAD, Reg.GAUNTLET.FRAMES_SENT, Reg.GAUNTLET.FILLER_FRAMES, Reg.GAUNTLET.FRAMES_ACCEPTED, Reg.GAUNTLET.HEADER_BAD, Reg.GAUNTLET.NOT_ACTIVE, Reg.GAUNTLET.EPOCH_UNKNOWN, Reg.GAUNTLET.REPLAY_OLD, Reg.GAUNTLET.REPLAYED, Reg.GAUNTLET.SEGMENT_BAD, Reg.GAUNTLET.REASSEMBLY_LOST, Reg.GAUNTLET.LABEL_RESERVED, Reg.GAUNTLET.OVERSIZE_INNER, Reg.GAUNTLET.QUERY_CONTROL_INDEX, Reg.GAUNTLET.QUERY_CONTROL_GO, Reg.GAUNTLET.QUERY_CONTROL_DONE]
def Reg.gauntletFields1 : List Fld :=
  [Reg.GAUNTLET.QUERY_CONTROL_INVALID, Reg.GAUNTLET.QUERY_DATA]
/-- The fields of the GAUNTLET block. -/
def Reg.gauntletFields : List Fld := Reg.gauntletFields0 ++ Reg.gauntletFields1

/-! ### BAND block (13_band_egress) -/

def Reg.BAND.BAND_CONFIG_BATCH_WINDOW : Fld := fldAt 0xA00000 3 0 .im 2 kWEHM
def Reg.BAND.BAND_CONFIG_PACE_GAIN : Fld := fldAt 0xA00000 10 4 .im 32 kWEHM
def Reg.BAND.BAND_CONFIG_SYSTEM_WEIGHT : Fld := fldAt 0xA00000 18 11 .im 16 kWEHM
def Reg.BAND.BAND_CONFIG_MAX_DELAY : Fld := fldAt 0xA00000 30 19 .im 400 kWEHM
def Reg.BAND.BAND_LIMITS_CLASS_LIMIT : Fld := fldAt 0xA00004 15 0 .im 4096 kWEHM
def Reg.BAND.BAND_LIMITS_LEG_QUEUE_PACKETS : Fld := fldAt 0xA00004 26 16 .im 256 kWEHM
def Reg.BAND.BAND_STATUS_ENGINES_RETIRED : Fld := fldAt 0xA00008 3 0 .ro 0 kEM
def Reg.BAND.BAND_STATUS_SAMPLE_PERIOD : Fld := fldAt 0xA00008 16 8 .ro 256 kWEHM
def Reg.BAND.BAND_EVENTS_NEVER_FITS : Fld := fldAt 0xA0000C 0 0 .w1c 0 kEHM
def Reg.BAND.BAND_EVENTS_CLASS_DROP : Fld := fldAt 0xA0000C 1 1 .w1c 0 kEHM
def Reg.BAND.BAND_EVENTS_STALE_DROP : Fld := fldAt 0xA0000C 2 2 .w1c 0 kEHM
def Reg.BAND.BAND_EVENTS_SAMPLES_LOST : Fld := fldAt 0xA0000C 3 3 .w1c 0 kEHM
def Reg.BAND.BAND_EVENTS_GATE_LIST_CHANGED : Fld := fldAt 0xA0000C 4 4 .w1c 0 kEHM
def Reg.BAND.BAND_EVENTS_LINK_DOWN_DROP : Fld := fldAt 0xA0000C 5 5 .w1c 0 kEHM
def Reg.BAND.PACKETS_RELEASED : Fld := fldAt 0xA00020 31 0 .rc 0 kEHM
def Reg.BAND.PACKETS_SENT : Fld := fldAt 0xA00024 31 0 .rc 0 kEHM
def Reg.BAND.QUEUE_DROPS : Fld := fldAt 0xA00028 31 0 .rc 0 kEHM
def Reg.BAND.CLASS_DROPS : Fld := fldAt 0xA0002C 31 0 .rc 0 kEHM
def Reg.BAND.STALE_DROPS : Fld := fldAt 0xA00030 31 0 .rc 0 kEHM
def Reg.BAND.NEVER_FITS : Fld := fldAt 0xA00034 31 0 .rc 0 kEHM
def Reg.BAND.GATE_WAITS : Fld := fldAt 0xA00038 31 0 .rc 0 kEHM
def Reg.BAND.LINK_DOWN_DROPS : Fld := fldAt 0xA0003C 31 0 .rc 0 kEHM
def Reg.BAND.NO_KEY_DROPS : Fld := fldAt 0xA00040 31 0 .rc 0 kEHM
def Reg.BAND.CIPHER_DROPS : Fld := fldAt 0xA00044 31 0 .rc 0 kEHM
def Reg.BAND.OVERFLOW_REINSERTS : Fld := fldAt 0xA00048 31 0 .rc 0 kEHM
def Reg.BAND.PON_FRAGMENTS : Fld := fldAt 0xA0004C 31 0 .rc 0 kEHM
def Reg.BAND.SAMPLES_LOST : Fld := fldAt 0xA00050 31 0 .rc 0 kEHM
def Reg.BAND.SAMPLES_WRITTEN : Fld := fldAt 0xA00054 31 0 .rc 0 kEHM
def Reg.BAND.OVERRUN : Fld := fldAt 0xA00080 31 0 .rc 0 kEHM |>.array 4 0x4
def Reg.BAND.GATE_STATUS_GATES : Fld := fldAt 0xA00100 7 0 .ro 255 kNone |>.array 18 0x4
def Reg.BAND.GATE_STATUS_ENTRY : Fld := fldAt 0xA00100 15 8 .ro 0 kNone |>.array 18 0x4
def Reg.BAND.GATE_STATUS_LIST_ACTIVE : Fld := fldAt 0xA00100 16 16 .ro 0 kNone |>.array 18 0x4
def Reg.BAND.GATE_STATUS_IN_DEBT : Fld := fldAt 0xA00100 17 17 .ro 0 kNone |>.array 18 0x4
def Reg.BAND.QUERY_CONTROL_INDEX : Fld := fldAt 0xA00200 19 0 .rw 0 kNone
def Reg.BAND.QUERY_CONTROL_KIND : Fld := fldAt 0xA00200 21 20 .rw 0 kNone |>.limit 0 2 1
def Reg.BAND.QUERY_CONTROL_GO : Fld := fldAt 0xA00200 22 22 .wo 0 kNone
def Reg.BAND.QUERY_CONTROL_DONE : Fld := fldAt 0xA00200 23 23 .ro 0 kNone
def Reg.BAND.QUERY_CONTROL_INVALID : Fld := fldAt 0xA00200 24 24 .ro 0 kNone
def Reg.BAND.QUERY_DATA : Fld := fldAt 0xA00280 31 0 .ro 0 kNone |>.array 16 0x4
def Reg.bandFields0 : List Fld :=
  [Reg.BAND.BAND_CONFIG_BATCH_WINDOW, Reg.BAND.BAND_CONFIG_PACE_GAIN, Reg.BAND.BAND_CONFIG_SYSTEM_WEIGHT, Reg.BAND.BAND_CONFIG_MAX_DELAY, Reg.BAND.BAND_LIMITS_CLASS_LIMIT, Reg.BAND.BAND_LIMITS_LEG_QUEUE_PACKETS, Reg.BAND.BAND_STATUS_ENGINES_RETIRED, Reg.BAND.BAND_STATUS_SAMPLE_PERIOD, Reg.BAND.BAND_EVENTS_NEVER_FITS, Reg.BAND.BAND_EVENTS_CLASS_DROP, Reg.BAND.BAND_EVENTS_STALE_DROP, Reg.BAND.BAND_EVENTS_SAMPLES_LOST, Reg.BAND.BAND_EVENTS_GATE_LIST_CHANGED, Reg.BAND.BAND_EVENTS_LINK_DOWN_DROP, Reg.BAND.PACKETS_RELEASED, Reg.BAND.PACKETS_SENT, Reg.BAND.QUEUE_DROPS, Reg.BAND.CLASS_DROPS, Reg.BAND.STALE_DROPS, Reg.BAND.NEVER_FITS, Reg.BAND.GATE_WAITS, Reg.BAND.LINK_DOWN_DROPS, Reg.BAND.NO_KEY_DROPS, Reg.BAND.CIPHER_DROPS]
def Reg.bandFields1 : List Fld :=
  [Reg.BAND.OVERFLOW_REINSERTS, Reg.BAND.PON_FRAGMENTS, Reg.BAND.SAMPLES_LOST, Reg.BAND.SAMPLES_WRITTEN, Reg.BAND.OVERRUN, Reg.BAND.GATE_STATUS_GATES, Reg.BAND.GATE_STATUS_ENTRY, Reg.BAND.GATE_STATUS_LIST_ACTIVE, Reg.BAND.GATE_STATUS_IN_DEBT, Reg.BAND.QUERY_CONTROL_INDEX, Reg.BAND.QUERY_CONTROL_KIND, Reg.BAND.QUERY_CONTROL_GO, Reg.BAND.QUERY_CONTROL_DONE, Reg.BAND.QUERY_CONTROL_INVALID, Reg.BAND.QUERY_DATA]
/-- The fields of the BAND block. -/
def Reg.bandFields : List Fld := Reg.bandFields0 ++ Reg.bandFields1

/-! ### ETH block (14_ethernet) -/

def Reg.ETH.PORT_CONFIG_QUAD_MODE : Fld := fldAt 0xB00000 2 0 .im 0 kWEHM |>.inst 16 0x10000
def Reg.ETH.PORT_CONFIG_FEC : Fld := fldAt 0xB00000 4 3 .im 0 kWEHM |>.inst 16 0x10000
def Reg.ETH.PORT_CONFIG_PMD : Fld := fldAt 0xB00000 6 5 .im 0 kWEHM |>.inst 16 0x10000
def Reg.ETH.PORT_CONFIG_TRAINING : Fld := fldAt 0xB00000 7 7 .im 0 kWEHM |>.inst 16 0x10000
def Reg.ETH.PORT_CONFIG_LPI_ENABLE : Fld := fldAt 0xB00000 8 8 .im 0 kWEHM |>.inst 16 0x10000
def Reg.ETH.PORT_CONFIG_DEFAULT_QUEUE : Fld := fldAt 0xB00000 11 9 .im 0 kWEHM |>.inst 16 0x10000
def Reg.ETH.PORT_CONFIG_MAX_FRAME : Fld := fldAt 0xB00000 25 12 .im 1522 kWEHM |>.inst 16 0x10000
def Reg.ETH.PORT_STATUS_VALID : Fld := fldAt 0xB00004 0 0 .ro 0 kWEHM |>.inst 16 0x10000
def Reg.ETH.PORT_STATUS_LINK : Fld := fldAt 0xB00004 1 1 .ro 0 kEHM |>.inst 16 0x10000
def Reg.ETH.PORT_STATUS_TRAINED : Fld := fldAt 0xB00004 2 2 .ro 0 kEHM |>.inst 16 0x10000
def Reg.ETH.PORT_STATUS_LPI_TX : Fld := fldAt 0xB00004 3 3 .ro 0 kEHM |>.inst 16 0x10000
def Reg.ETH.PORT_STATUS_LPI_RX : Fld := fldAt 0xB00004 4 4 .ro 0 kEHM |>.inst 16 0x10000
def Reg.ETH.PORT_EVENTS_LINK_UP : Fld := fldAt 0xB00008 0 0 .w1c 0 kEHM |>.inst 16 0x10000
def Reg.ETH.PORT_EVENTS_LINK_DOWN : Fld := fldAt 0xB00008 1 1 .w1c 0 kEHM |>.inst 16 0x10000
def Reg.ETH.PORT_EVENTS_RX_OVERFLOW : Fld := fldAt 0xB00008 2 2 .w1c 0 kEHM |>.inst 16 0x10000
def Reg.ETH.PORT_EVENTS_FEC_DEGRADED : Fld := fldAt 0xB00008 3 3 .w1c 0 kEHM |>.inst 16 0x10000
def Reg.ETH.PTP_CORRECTION_RX_CORR : Fld := fldAt 0xB0000C 9 0 .ro 0 kWEHM |>.inst 16 0x10000
def Reg.ETH.PTP_CORRECTION_TX_CORR : Fld := fldAt 0xB0000C 19 10 .ro 0 kWEHM |>.inst 16 0x10000
def Reg.ETH.PTP_TRIM : Fld := fldAt 0xB00010 15 0 .im 0 kWEHM |>.inst 16 0x10000
def Reg.ETH.LPI_CONFIG_LPI_IDLE : Fld := fldAt 0xB00014 9 0 .im 10 kWEHM |>.inst 16 0x10000
def Reg.ETH.LPI_CONFIG_TX_TW : Fld := fldAt 0xB00014 19 10 .ro 0 kEHM |>.inst 16 0x10000
def Reg.ETH.LPI_CONFIG_RX_TW_REQ : Fld := fldAt 0xB00014 29 20 .ro 0 kWEHM |>.inst 16 0x10000
def Reg.ETH.FRAMES_RX_OK : Fld := fldAt 0xB00020 31 0 .rc 0 kEHM |>.inst 16 0x10000
def Reg.ETH.BYTES_RX_OK : Fld := fldAt 0xB00024 31 0 .rc 0 kEHM |>.inst 16 0x10000
def Reg.ETH.RUNT : Fld := fldAt 0xB00028 31 0 .rc 0 kEHM |>.inst 16 0x10000
def Reg.ETH.OVERSIZE : Fld := fldAt 0xB0002C 31 0 .rc 0 kEHM |>.inst 16 0x10000
def Reg.ETH.FCS_ERRORS : Fld := fldAt 0xB00030 31 0 .rc 0 kEHM |>.inst 16 0x10000
def Reg.ETH.CODE_ERRORS : Fld := fldAt 0xB00034 31 0 .rc 0 kEHM |>.inst 16 0x10000
def Reg.ETH.FILTER_DROPS : Fld := fldAt 0xB00038 31 0 .rc 0 kEHM |>.inst 16 0x10000
def Reg.ETH.CONTROL_FRAMES : Fld := fldAt 0xB0003C 31 0 .rc 0 kEHM |>.inst 16 0x10000
def Reg.ETH.RX_OVERFLOW : Fld := fldAt 0xB00040 31 0 .rc 0 kEHM |>.inst 16 0x10000
def Reg.ETH.FRAMES_TX : Fld := fldAt 0xB00044 31 0 .rc 0 kEHM |>.inst 16 0x10000
def Reg.ETH.BYTES_TX : Fld := fldAt 0xB00048 31 0 .rc 0 kEHM |>.inst 16 0x10000
def Reg.ETH.TX_OVERSIZE : Fld := fldAt 0xB0004C 31 0 .rc 0 kEHM |>.inst 16 0x10000
def Reg.ETH.FEC_CORRECTED : Fld := fldAt 0xB00050 31 0 .rc 0 kEHM |>.inst 16 0x10000
def Reg.ETH.FEC_UNCORRECTABLE : Fld := fldAt 0xB00054 31 0 .rc 0 kEHM |>.inst 16 0x10000
def Reg.ETH.LINK_DOWN_COUNT : Fld := fldAt 0xB00058 31 0 .rc 0 kEHM |>.inst 16 0x10000
def Reg.ETH.LPI_TX_ENTRIES : Fld := fldAt 0xB0005C 31 0 .rc 0 kEHM |>.inst 16 0x10000
def Reg.ETH.FILTER_HITS : Fld := fldAt 0xB00100 31 0 .rc 0 kEHM |>.array 64 0x4 |>.inst 16 0x10000
def Reg.ethFields0 : List Fld :=
  [Reg.ETH.PORT_CONFIG_QUAD_MODE, Reg.ETH.PORT_CONFIG_FEC, Reg.ETH.PORT_CONFIG_PMD, Reg.ETH.PORT_CONFIG_TRAINING, Reg.ETH.PORT_CONFIG_LPI_ENABLE, Reg.ETH.PORT_CONFIG_DEFAULT_QUEUE, Reg.ETH.PORT_CONFIG_MAX_FRAME, Reg.ETH.PORT_STATUS_VALID, Reg.ETH.PORT_STATUS_LINK, Reg.ETH.PORT_STATUS_TRAINED, Reg.ETH.PORT_STATUS_LPI_TX, Reg.ETH.PORT_STATUS_LPI_RX, Reg.ETH.PORT_EVENTS_LINK_UP, Reg.ETH.PORT_EVENTS_LINK_DOWN, Reg.ETH.PORT_EVENTS_RX_OVERFLOW, Reg.ETH.PORT_EVENTS_FEC_DEGRADED, Reg.ETH.PTP_CORRECTION_RX_CORR, Reg.ETH.PTP_CORRECTION_TX_CORR, Reg.ETH.PTP_TRIM, Reg.ETH.LPI_CONFIG_LPI_IDLE, Reg.ETH.LPI_CONFIG_TX_TW, Reg.ETH.LPI_CONFIG_RX_TW_REQ, Reg.ETH.FRAMES_RX_OK, Reg.ETH.BYTES_RX_OK]
def Reg.ethFields1 : List Fld :=
  [Reg.ETH.RUNT, Reg.ETH.OVERSIZE, Reg.ETH.FCS_ERRORS, Reg.ETH.CODE_ERRORS, Reg.ETH.FILTER_DROPS, Reg.ETH.CONTROL_FRAMES, Reg.ETH.RX_OVERFLOW, Reg.ETH.FRAMES_TX, Reg.ETH.BYTES_TX, Reg.ETH.TX_OVERSIZE, Reg.ETH.FEC_CORRECTED, Reg.ETH.FEC_UNCORRECTABLE, Reg.ETH.LINK_DOWN_COUNT, Reg.ETH.LPI_TX_ENTRIES, Reg.ETH.FILTER_HITS]
/-- The fields of the ETH block. -/
def Reg.ethFields : List Fld := Reg.ethFields0 ++ Reg.ethFields1

/-! ### PON block (15_pon) -/

def Reg.PON.PON_CONFIG_MODE : Fld := fldAt 0xC00000 1 0 .im 0 kWEHM |>.inst 2 0x40000
def Reg.PON.PON_CONFIG_UP_RATE : Fld := fldAt 0xC00000 3 2 .im 0 kWEHM |>.inst 2 0x40000
def Reg.PON.PON_CONFIG_PROTECTED : Fld := fldAt 0xC00000 4 4 .im 0 kWEHM |>.inst 2 0x40000
def Reg.PON.PON_CONFIG_ENHANCED_SECURITY : Fld := fldAt 0xC00000 5 5 .im 0 kWEHM |>.inst 2 0x40000
def Reg.PON.PON_CONFIG_DEFAULT_QUEUE : Fld := fldAt 0xC00000 8 6 .im 0 kWEHM |>.inst 2 0x40000
def Reg.PON.PON_CONFIG_SYNC_MATCHES : Fld := fldAt 0xC00000 11 9 .im 2 kWEHM |>.inst 2 0x40000
def Reg.PON.PON_CONFIG_PSYNC_TOLERANCE : Fld := fldAt 0xC00000 14 12 .im 2 kWEHM |>.inst 2 0x40000
def Reg.PON.PON_CONFIG_PROTECT_HOLD : Fld := fldAt 0xC00000 22 15 .im 50 kWEHM |>.inst 2 0x40000
def Reg.PON.PON_LIMITS_MAX_FRAME : Fld := fldAt 0xC00004 13 0 .im 1522 kWEHM |>.inst 2 0x40000
def Reg.PON.PON_LIMITS_TOD_TRIM : Fld := fldAt 0xC00004 29 14 .im 0 kWEHM |>.inst 2 0x40000
def Reg.PON.PON_STATUS_STATE : Fld := fldAt 0xC00008 2 0 .ro 0 kHM |>.inst 2 0x40000
def Reg.PON.PON_STATUS_SYNC : Fld := fldAt 0xC00008 3 3 .ro 0 kHM |>.inst 2 0x40000
def Reg.PON.PON_STATUS_TX_PERMIT : Fld := fldAt 0xC00008 4 4 .ro 0 kEHM |>.inst 2 0x40000
def Reg.PON.PON_STATUS_TX_LOCKED : Fld := fldAt 0xC00008 5 5 .ro 0 kWEHM |>.inst 2 0x40000
def Reg.PON.PON_STATUS_WATCHDOG_PERMANENT : Fld := fldAt 0xC00008 6 6 .ro 0 kWEHM |>.inst 2 0x40000
def Reg.PON.PON_STATUS_ACTIVE : Fld := fldAt 0xC00008 7 7 .ro 0 kHM |>.inst 2 0x40000
def Reg.PON.PON_STATUS_ONU_ID : Fld := fldAt 0xC00008 17 8 .ro 0 kHM |>.inst 2 0x40000
def Reg.PON.PON_STATUS_UP_KEY_INDEX : Fld := fldAt 0xC00008 19 18 .ro 0 kHM |>.inst 2 0x40000
def Reg.PON.PON_STATUS_TOD_QUALIFIED : Fld := fldAt 0xC00008 20 20 .ro 0 kHM |>.inst 2 0x40000
def Reg.PON.PON_EVENTS_SYNC_LOST : Fld := fldAt 0xC0000C 0 0 .w1c 0 kEHM |>.inst 2 0x40000
def Reg.PON.PON_EVENTS_O5_ENTERED : Fld := fldAt 0xC0000C 1 1 .w1c 0 kEHM |>.inst 2 0x40000
def Reg.PON.PON_EVENTS_O5_LEFT : Fld := fldAt 0xC0000C 2 2 .w1c 0 kEHM |>.inst 2 0x40000
def Reg.PON.PON_EVENTS_DEACTIVATED : Fld := fldAt 0xC0000C 3 3 .w1c 0 kEHM |>.inst 2 0x40000
def Reg.PON.PON_EVENTS_EMERGENCY_STOP : Fld := fldAt 0xC0000C 4 4 .w1c 0 kWEHM |>.inst 2 0x40000
def Reg.PON.PON_EVENTS_WATCHDOG_TRIP : Fld := fldAt 0xC0000C 5 5 .w1c 0 kWEHM |>.inst 2 0x40000
def Reg.PON.PON_EVENTS_KEY_CHANGED : Fld := fldAt 0xC0000C 6 6 .w1c 0 kEHM |>.inst 2 0x40000
def Reg.PON.PON_EVENTS_PROTECT_SWITCH : Fld := fldAt 0xC0000C 7 7 .w1c 0 kEHM |>.inst 2 0x40000
def Reg.PON.PON_EVENTS_RX_OVERFLOW : Fld := fldAt 0xC0000C 8 8 .w1c 0 kEHM |>.inst 2 0x40000
def Reg.PON.PON_EVENTS_PLOAM_MIC_FAIL : Fld := fldAt 0xC0000C 9 9 .w1c 0 kEHM |>.inst 2 0x40000
def Reg.PON.EQD : Fld := fldAt 0xC00010 31 0 .ro 0 kHM |>.inst 2 0x40000
def Reg.PON.FRAMES_RX_OK : Fld := fldAt 0xC00020 31 0 .rc 0 kEHM |>.inst 2 0x40000
def Reg.PON.BYTES_RX_OK : Fld := fldAt 0xC00024 31 0 .rc 0 kEHM |>.inst 2 0x40000
def Reg.PON.RUNT : Fld := fldAt 0xC00028 31 0 .rc 0 kEHM |>.inst 2 0x40000
def Reg.PON.OVERSIZE : Fld := fldAt 0xC0002C 31 0 .rc 0 kEHM |>.inst 2 0x40000
def Reg.PON.FCS_ERRORS : Fld := fldAt 0xC00030 31 0 .rc 0 kEHM |>.inst 2 0x40000
def Reg.PON.RX_OVERFLOW : Fld := fldAt 0xC00034 31 0 .rc 0 kEHM |>.inst 2 0x40000
def Reg.PON.REASSEMBLY_ERRORS : Fld := fldAt 0xC00038 31 0 .rc 0 kEHM |>.inst 2 0x40000
def Reg.PON.PORTID_UNKNOWN : Fld := fldAt 0xC0003C 31 0 .rc 0 kEHM |>.inst 2 0x40000
def Reg.PON.KEY_INDEX_DROPS : Fld := fldAt 0xC00040 31 0 .rc 0 kEHM |>.inst 2 0x40000
def Reg.PON.HEC_ERRORS : Fld := fldAt 0xC00044 31 0 .rc 0 kEHM |>.inst 2 0x40000
def Reg.PON.FEC_CORRECTED : Fld := fldAt 0xC00048 31 0 .rc 0 kEHM |>.inst 2 0x40000
def Reg.PON.FEC_UNCORRECTABLE : Fld := fldAt 0xC0004C 31 0 .rc 0 kEHM |>.inst 2 0x40000
def Reg.PON.PSYNC_MISSES : Fld := fldAt 0xC00050 31 0 .rc 0 kEHM |>.inst 2 0x40000
def Reg.PON.SYNC_LOST_COUNT : Fld := fldAt 0xC00054 31 0 .rc 0 kEHM |>.inst 2 0x40000
def Reg.PON.HUNT_SATURATED : Fld := fldAt 0xC00058 31 0 .rc 0 kEHM |>.inst 2 0x40000
def Reg.PON.PLOAM_RX : Fld := fldAt 0xC0005C 31 0 .rc 0 kEHM |>.inst 2 0x40000
def Reg.PON.PLOAM_MIC_FAIL : Fld := fldAt 0xC00060 31 0 .rc 0 kEHM |>.inst 2 0x40000
def Reg.PON.OMCI_RX : Fld := fldAt 0xC00064 31 0 .rc 0 kEHM |>.inst 2 0x40000
def Reg.PON.OMCI_MIC_FAIL : Fld := fldAt 0xC00068 31 0 .rc 0 kEHM |>.inst 2 0x40000
def Reg.PON.OMCI_DROPS : Fld := fldAt 0xC0006C 31 0 .rc 0 kEHM |>.inst 2 0x40000
def Reg.PON.FRAMES_TX : Fld := fldAt 0xC00070 31 0 .rc 0 kEHM |>.inst 2 0x40000
def Reg.PON.BYTES_TX : Fld := fldAt 0xC00074 31 0 .rc 0 kEHM |>.inst 2 0x40000
def Reg.PON.BURSTS : Fld := fldAt 0xC00078 31 0 .rc 0 kEHM |>.inst 2 0x40000
def Reg.PON.IDLE_XGEM : Fld := fldAt 0xC0007C 31 0 .rc 0 kEHM |>.inst 2 0x40000
def Reg.PON.PORTID_DROPS : Fld := fldAt 0xC00080 31 0 .rc 0 kEHM |>.inst 2 0x40000
def Reg.PON.TX_OVERSIZE : Fld := fldAt 0xC00084 31 0 .rc 0 kEHM |>.inst 2 0x40000
def Reg.PON.BWMAP_CONFLICTS : Fld := fldAt 0xC00088 31 0 .rc 0 kEHM |>.inst 2 0x40000
def Reg.PON.PROFILE_MISSING : Fld := fldAt 0xC0008C 31 0 .rc 0 kEHM |>.inst 2 0x40000
def Reg.PON.WATCHDOG_TRIPS : Fld := fldAt 0xC00090 31 0 .rc 0 kWEHM |>.inst 2 0x40000
def Reg.PON.ALLOC_ALLOC_ID : Fld := fldAt 0xC00100 13 0 .ro 0 kHM |>.array 32 0x4 |>.inst 2 0x40000
def Reg.PON.ALLOC_VALID : Fld := fldAt 0xC00100 14 14 .ro 0 kHM |>.array 32 0x4 |>.inst 2 0x40000
def Reg.PON.ALLOC_DEFAULT : Fld := fldAt 0xC00100 15 15 .ro 0 kHM |>.array 32 0x4 |>.inst 2 0x40000
def Reg.PON.ALLOC_CLASSES : Fld := fldAt 0xC00100 23 16 .ro 0 kHM |>.array 32 0x4 |>.inst 2 0x40000
def Reg.PON.QUERY_CONTROL_INDEX : Fld := fldAt 0xC00200 9 0 .rw 0 kNone |>.inst 2 0x40000
def Reg.PON.QUERY_CONTROL_GO : Fld := fldAt 0xC00200 16 16 .wo 0 kNone |>.inst 2 0x40000
def Reg.PON.QUERY_CONTROL_DONE : Fld := fldAt 0xC00200 17 17 .ro 0 kNone |>.inst 2 0x40000
def Reg.PON.QUERY_CONTROL_INVALID : Fld := fldAt 0xC00200 18 18 .ro 0 kNone |>.inst 2 0x40000
def Reg.PON.QUERY_DATA : Fld := fldAt 0xC00280 31 0 .ro 0 kNone |>.array 4 0x4 |>.inst 2 0x40000
def Reg.ponFields0 : List Fld :=
  [Reg.PON.PON_CONFIG_MODE, Reg.PON.PON_CONFIG_UP_RATE, Reg.PON.PON_CONFIG_PROTECTED, Reg.PON.PON_CONFIG_ENHANCED_SECURITY, Reg.PON.PON_CONFIG_DEFAULT_QUEUE, Reg.PON.PON_CONFIG_SYNC_MATCHES, Reg.PON.PON_CONFIG_PSYNC_TOLERANCE, Reg.PON.PON_CONFIG_PROTECT_HOLD, Reg.PON.PON_LIMITS_MAX_FRAME, Reg.PON.PON_LIMITS_TOD_TRIM, Reg.PON.PON_STATUS_STATE, Reg.PON.PON_STATUS_SYNC, Reg.PON.PON_STATUS_TX_PERMIT, Reg.PON.PON_STATUS_TX_LOCKED, Reg.PON.PON_STATUS_WATCHDOG_PERMANENT, Reg.PON.PON_STATUS_ACTIVE, Reg.PON.PON_STATUS_ONU_ID, Reg.PON.PON_STATUS_UP_KEY_INDEX, Reg.PON.PON_STATUS_TOD_QUALIFIED, Reg.PON.PON_EVENTS_SYNC_LOST, Reg.PON.PON_EVENTS_O5_ENTERED, Reg.PON.PON_EVENTS_O5_LEFT, Reg.PON.PON_EVENTS_DEACTIVATED, Reg.PON.PON_EVENTS_EMERGENCY_STOP]
def Reg.ponFields1 : List Fld :=
  [Reg.PON.PON_EVENTS_WATCHDOG_TRIP, Reg.PON.PON_EVENTS_KEY_CHANGED, Reg.PON.PON_EVENTS_PROTECT_SWITCH, Reg.PON.PON_EVENTS_RX_OVERFLOW, Reg.PON.PON_EVENTS_PLOAM_MIC_FAIL, Reg.PON.EQD, Reg.PON.FRAMES_RX_OK, Reg.PON.BYTES_RX_OK, Reg.PON.RUNT, Reg.PON.OVERSIZE, Reg.PON.FCS_ERRORS, Reg.PON.RX_OVERFLOW, Reg.PON.REASSEMBLY_ERRORS, Reg.PON.PORTID_UNKNOWN, Reg.PON.KEY_INDEX_DROPS, Reg.PON.HEC_ERRORS, Reg.PON.FEC_CORRECTED, Reg.PON.FEC_UNCORRECTABLE, Reg.PON.PSYNC_MISSES, Reg.PON.SYNC_LOST_COUNT, Reg.PON.HUNT_SATURATED, Reg.PON.PLOAM_RX, Reg.PON.PLOAM_MIC_FAIL, Reg.PON.OMCI_RX]
def Reg.ponFields2 : List Fld :=
  [Reg.PON.OMCI_MIC_FAIL, Reg.PON.OMCI_DROPS, Reg.PON.FRAMES_TX, Reg.PON.BYTES_TX, Reg.PON.BURSTS, Reg.PON.IDLE_XGEM, Reg.PON.PORTID_DROPS, Reg.PON.TX_OVERSIZE, Reg.PON.BWMAP_CONFLICTS, Reg.PON.PROFILE_MISSING, Reg.PON.WATCHDOG_TRIPS, Reg.PON.ALLOC_ALLOC_ID, Reg.PON.ALLOC_VALID, Reg.PON.ALLOC_DEFAULT, Reg.PON.ALLOC_CLASSES, Reg.PON.QUERY_CONTROL_INDEX, Reg.PON.QUERY_CONTROL_GO, Reg.PON.QUERY_CONTROL_DONE, Reg.PON.QUERY_CONTROL_INVALID, Reg.PON.QUERY_DATA]
/-- The fields of the PON block. -/
def Reg.ponFields : List Fld := Reg.ponFields0 ++ Reg.ponFields1 ++ Reg.ponFields2

/-! ### NEARMEM block (16_near_memory) -/

def Reg.NEARMEM.MEM_CONFIG_REMAP_THRESHOLD : Fld := fldAt 0xD00000 5 0 .im 32 kWEHM |>.inst 8 0x10000
def Reg.NEARMEM.MEM_CONFIG_SCRUB_HOURS : Fld := fldAt 0xD00000 15 8 .im 24 kWEHM |>.inst 8 0x10000
def Reg.NEARMEM.MEM_CONFIG_SET_POINT_INITIAL : Fld := fldAt 0xD00000 17 16 .im 0 kWEHM |>.inst 8 0x10000
def Reg.NEARMEM.MEM_STATUS_SET_POINT : Fld := fldAt 0xD00004 1 0 .ro 0 kWEHM |>.inst 8 0x10000
def Reg.NEARMEM.MEM_STATUS_HOT : Fld := fldAt 0xD00004 2 2 .ro 0 kWEHM |>.inst 8 0x10000
def Reg.NEARMEM.MEM_STATUS_CATCHUP : Fld := fldAt 0xD00004 3 3 .ro 0 kWEHM |>.inst 8 0x10000
def Reg.NEARMEM.MEM_STATUS_TRAINING : Fld := fldAt 0xD00004 4 4 .ro 0 kNone |>.inst 8 0x10000
def Reg.NEARMEM.MEM_STATUS_POWERED : Fld := fldAt 0xD00004 5 5 .ro 0 kWEHM |>.inst 8 0x10000
def Reg.NEARMEM.MEM_STATUS_TEMPERATURE : Fld := fldAt 0xD00004 15 8 .ro 0 kWEHM |>.inst 8 0x10000
def Reg.NEARMEM.MEM_STATUS_CHANNELS_FAULTED : Fld := fldAt 0xD00004 31 16 .ro 0 kWEHMS |>.inst 8 0x10000
def Reg.NEARMEM.MEM_EVENTS_CATCHUP_ENTERED : Fld := fldAt 0xD00008 0 0 .w1c 0 kEHM |>.inst 8 0x10000
def Reg.NEARMEM.MEM_EVENTS_UNCORRECTABLE : Fld := fldAt 0xD00008 1 1 .w1c 0 kEHM |>.inst 8 0x10000
def Reg.NEARMEM.MEM_EVENTS_ROW_REMAPPED : Fld := fldAt 0xD00008 2 2 .w1c 0 kEHM |>.inst 8 0x10000
def Reg.NEARMEM.MEM_EVENTS_REMAP_EXHAUSTED : Fld := fldAt 0xD00008 3 3 .w1c 0 kWEHM |>.inst 8 0x10000
def Reg.NEARMEM.MEM_EVENTS_OVERTEMP : Fld := fldAt 0xD00008 4 4 .w1c 0 kWEHM |>.inst 8 0x10000
def Reg.NEARMEM.MEM_EVENTS_RATE_CHANGED : Fld := fldAt 0xD00008 5 5 .w1c 0 kEHM |>.inst 8 0x10000
def Reg.NEARMEM.MEM_EVENTS_RETRAINED : Fld := fldAt 0xD00008 6 6 .w1c 0 kEHM |>.inst 8 0x10000
def Reg.NEARMEM.MEM_EVENTS_CA_RETRY_FAILED : Fld := fldAt 0xD00008 7 7 .w1c 0 kEHM |>.inst 8 0x10000
def Reg.NEARMEM.TRAINING_STATUS : Fld := fldAt 0xD0000C 2 0 .ro 0 kWEHM |>.inst 8 0x10000
def Reg.NEARMEM.CATCHUPS_LONGEST : Fld := fldAt 0xD00010 31 0 .rc 0 kEHM |>.inst 8 0x10000
def Reg.NEARMEM.READS : Fld := fldAt 0xD00020 31 0 .rc 0 kEHM |>.inst 8 0x10000
def Reg.NEARMEM.WRITES : Fld := fldAt 0xD00024 31 0 .rc 0 kEHM |>.inst 8 0x10000
def Reg.NEARMEM.ROW_HITS : Fld := fldAt 0xD00028 31 0 .rc 0 kEHM |>.inst 8 0x10000
def Reg.NEARMEM.ROW_MISSES : Fld := fldAt 0xD0002C 31 0 .rc 0 kEHM |>.inst 8 0x10000
def Reg.NEARMEM.REFRESHES : Fld := fldAt 0xD00030 31 0 .rc 0 kEHM |>.inst 8 0x10000
def Reg.NEARMEM.REFRESHES_FORCED : Fld := fldAt 0xD00034 31 0 .rc 0 kEHM |>.inst 8 0x10000
def Reg.NEARMEM.CATCHUPS : Fld := fldAt 0xD00038 31 0 .rc 0 kEHM |>.inst 8 0x10000
def Reg.NEARMEM.CORRECTED : Fld := fldAt 0xD0003C 31 0 .rc 0 kEHM |>.inst 8 0x10000
def Reg.NEARMEM.UNCORRECTABLE : Fld := fldAt 0xD00040 31 0 .rc 0 kEHM |>.inst 8 0x10000
def Reg.NEARMEM.CA_RETRIES : Fld := fldAt 0xD00044 31 0 .rc 0 kEHM |>.inst 8 0x10000
def Reg.NEARMEM.ROWS_REMAPPED : Fld := fldAt 0xD00048 31 0 .rc 0 kEHM |>.inst 8 0x10000
def Reg.NEARMEM.SCRUB_CORRECTED : Fld := fldAt 0xD0004C 31 0 .rc 0 kEHM |>.inst 8 0x10000
def Reg.NEARMEM.CORRECTED_CH : Fld := fldAt 0xD00100 31 0 .rc 0 kEHM |>.array 16 0x4 |>.inst 8 0x10000
def Reg.NEARMEM.QUERY_CONTROL_INDEX : Fld := fldAt 0xD00200 10 0 .rw 0 kNone |>.inst 8 0x10000
def Reg.NEARMEM.QUERY_CONTROL_KIND : Fld := fldAt 0xD00200 11 11 .rw 0 kNone |>.inst 8 0x10000
def Reg.NEARMEM.QUERY_CONTROL_GO : Fld := fldAt 0xD00200 12 12 .wo 0 kNone |>.inst 8 0x10000
def Reg.NEARMEM.QUERY_CONTROL_DONE : Fld := fldAt 0xD00200 13 13 .ro 0 kNone |>.inst 8 0x10000
def Reg.NEARMEM.QUERY_CONTROL_INVALID : Fld := fldAt 0xD00200 14 14 .ro 0 kNone |>.inst 8 0x10000
def Reg.NEARMEM.QUERY_DATA : Fld := fldAt 0xD00280 31 0 .ro 0 kNone |>.array 4 0x4 |>.inst 8 0x10000
def Reg.nearmemFields0 : List Fld :=
  [Reg.NEARMEM.MEM_CONFIG_REMAP_THRESHOLD, Reg.NEARMEM.MEM_CONFIG_SCRUB_HOURS, Reg.NEARMEM.MEM_CONFIG_SET_POINT_INITIAL, Reg.NEARMEM.MEM_STATUS_SET_POINT, Reg.NEARMEM.MEM_STATUS_HOT, Reg.NEARMEM.MEM_STATUS_CATCHUP, Reg.NEARMEM.MEM_STATUS_TRAINING, Reg.NEARMEM.MEM_STATUS_POWERED, Reg.NEARMEM.MEM_STATUS_TEMPERATURE, Reg.NEARMEM.MEM_STATUS_CHANNELS_FAULTED, Reg.NEARMEM.MEM_EVENTS_CATCHUP_ENTERED, Reg.NEARMEM.MEM_EVENTS_UNCORRECTABLE, Reg.NEARMEM.MEM_EVENTS_ROW_REMAPPED, Reg.NEARMEM.MEM_EVENTS_REMAP_EXHAUSTED, Reg.NEARMEM.MEM_EVENTS_OVERTEMP, Reg.NEARMEM.MEM_EVENTS_RATE_CHANGED, Reg.NEARMEM.MEM_EVENTS_RETRAINED, Reg.NEARMEM.MEM_EVENTS_CA_RETRY_FAILED, Reg.NEARMEM.TRAINING_STATUS, Reg.NEARMEM.CATCHUPS_LONGEST, Reg.NEARMEM.READS, Reg.NEARMEM.WRITES, Reg.NEARMEM.ROW_HITS, Reg.NEARMEM.ROW_MISSES]
def Reg.nearmemFields1 : List Fld :=
  [Reg.NEARMEM.REFRESHES, Reg.NEARMEM.REFRESHES_FORCED, Reg.NEARMEM.CATCHUPS, Reg.NEARMEM.CORRECTED, Reg.NEARMEM.UNCORRECTABLE, Reg.NEARMEM.CA_RETRIES, Reg.NEARMEM.ROWS_REMAPPED, Reg.NEARMEM.SCRUB_CORRECTED, Reg.NEARMEM.CORRECTED_CH, Reg.NEARMEM.QUERY_CONTROL_INDEX, Reg.NEARMEM.QUERY_CONTROL_KIND, Reg.NEARMEM.QUERY_CONTROL_GO, Reg.NEARMEM.QUERY_CONTROL_DONE, Reg.NEARMEM.QUERY_CONTROL_INVALID, Reg.NEARMEM.QUERY_DATA]
/-- The fields of the NEARMEM block. -/
def Reg.nearmemFields : List Fld := Reg.nearmemFields0 ++ Reg.nearmemFields1

/-! ### LINING block (17_lining_glovebox_dma) -/

def Reg.LINING.LINING_CONFIG : Fld := fldAt 0xE00000 4 0 .im 8 kWEHM
def Reg.LINING.MARCH_CONTROL_GROUP : Fld := fldAt 0xE00004 6 0 .rw 0 kNone
def Reg.LINING.MARCH_CONTROL_FORM : Fld := fldAt 0xE00004 7 7 .rw 0 kNone
def Reg.LINING.MARCH_CONTROL_GO : Fld := fldAt 0xE00004 8 8 .wo 0 kNone
def Reg.LINING.MARCH_CONTROL_BUSY : Fld := fldAt 0xE00004 9 9 .ro 0 kNone
def Reg.LINING.MARCH_CONTROL_PASSED : Fld := fldAt 0xE00004 10 10 .ro 0 kNone
def Reg.LINING.MARCH_CONTROL_REFUSED : Fld := fldAt 0xE00004 11 11 .ro 0 kNone
def Reg.LINING.LINING_EVENTS_MARCH_DONE : Fld := fldAt 0xE00008 0 0 .w1c 0 kEHM
def Reg.LINING.LINING_EVENTS_MARCH_FAIL : Fld := fldAt 0xE00008 1 1 .w1c 0 kEHM
def Reg.LINING.LINING_EVENTS_ROW_SPARED : Fld := fldAt 0xE00008 2 2 .w1c 0 kEHM
def Reg.LINING.LINING_EVENTS_SPARE_EXHAUSTED : Fld := fldAt 0xE00008 3 3 .w1c 0 kWEHM
def Reg.LINING.LINING_EVENTS_UNCORRECTABLE_LINING : Fld := fldAt 0xE00008 4 4 .w1c 0 kEHM
def Reg.LINING.LINING_EVENTS_SUBSTITUTED : Fld := fldAt 0xE00008 5 5 .w1c 0 kEHM
def Reg.LINING.CORRECTED : Fld := fldAt 0xE00020 31 0 .rc 0 kEHM
def Reg.LINING.UNCORRECTABLE : Fld := fldAt 0xE00024 31 0 .rc 0 kEHM
def Reg.LINING.ROWS_SPARED : Fld := fldAt 0xE00028 31 0 .rc 0 kEHM
def Reg.LINING.MARCH_RUNS : Fld := fldAt 0xE0002C 31 0 .rc 0 kEHM
def Reg.LINING.BANK_CONFLICTS : Fld := fldAt 0xE00030 31 0 .rc 0 kEHM
def Reg.LINING.GROUP_STATE : Fld := fldAt 0xE00100 31 0 .ro 0 kWEHMS |>.array 10 0x4
def Reg.liningFields0 : List Fld :=
  [Reg.LINING.LINING_CONFIG, Reg.LINING.MARCH_CONTROL_GROUP, Reg.LINING.MARCH_CONTROL_FORM, Reg.LINING.MARCH_CONTROL_GO, Reg.LINING.MARCH_CONTROL_BUSY, Reg.LINING.MARCH_CONTROL_PASSED, Reg.LINING.MARCH_CONTROL_REFUSED, Reg.LINING.LINING_EVENTS_MARCH_DONE, Reg.LINING.LINING_EVENTS_MARCH_FAIL, Reg.LINING.LINING_EVENTS_ROW_SPARED, Reg.LINING.LINING_EVENTS_SPARE_EXHAUSTED, Reg.LINING.LINING_EVENTS_UNCORRECTABLE_LINING, Reg.LINING.LINING_EVENTS_SUBSTITUTED, Reg.LINING.CORRECTED, Reg.LINING.UNCORRECTABLE, Reg.LINING.ROWS_SPARED, Reg.LINING.MARCH_RUNS, Reg.LINING.BANK_CONFLICTS, Reg.LINING.GROUP_STATE]
/-- The fields of the LINING block. -/
def Reg.liningFields : List Fld := Reg.liningFields0

/-! ### GLOVEBOX block (17_lining_glovebox_dma) -/

def Reg.GLOVEBOX.GLOVEBOX_CONFIG : Fld := fldAt 0xF00000 29 0 .im 0 kWEHM
def Reg.GLOVEBOX.GLOVEBOX_STATUS_FRAMES_HELD : Fld := fldAt 0xF00004 8 0 .ro 0 kHM
def Reg.GLOVEBOX.GLOVEBOX_STATUS_FRAMES_DIRTY : Fld := fldAt 0xF00004 17 9 .ro 0 kHM
def Reg.GLOVEBOX.GLOVEBOX_EVENTS_HOST_READ_ERROR : Fld := fldAt 0xF00008 0 0 .w1c 0 kEHM
def Reg.GLOVEBOX.GLOVEBOX_EVENTS_DMA_DONE : Fld := fldAt 0xF00008 1 1 .w1c 0 kEHM
def Reg.GLOVEBOX.GLOVEBOX_EVENTS_DMA_HALTED : Fld := fldAt 0xF00008 2 2 .w1c 0 kEHM
def Reg.GLOVEBOX.DMA_CONFIG : Fld := fldAt 0xF0000C 2 0 .im 3 kWEHM
def Reg.GLOVEBOX.HOST_BASE_LO : Fld := fldAt 0xF00010 31 0 .im 0 kWEHM
def Reg.GLOVEBOX.HOST_BASE_HI : Fld := fldAt 0xF00014 31 0 .im 0 kWEHM
def Reg.GLOVEBOX.FRAME_HITS : Fld := fldAt 0xF00020 31 0 .rc 0 kEHM
def Reg.GLOVEBOX.PAGE_FETCHES : Fld := fldAt 0xF00024 31 0 .rc 0 kEHM
def Reg.GLOVEBOX.ZERO_FILLS : Fld := fldAt 0xF00028 31 0 .rc 0 kEHM
def Reg.GLOVEBOX.PAGE_WRITEBACKS : Fld := fldAt 0xF0002C 31 0 .rc 0 kEHM
def Reg.GLOVEBOX.HOST_READ_ERRORS : Fld := fldAt 0xF00030 31 0 .rc 0 kEHM
def Reg.GLOVEBOX.PAGES_ARCHIVED : Fld := fldAt 0xF00034 31 0 .rc 0 kEHM
def Reg.GLOVEBOX.DMA_RETRIES : Fld := fldAt 0xF00038 31 0 .rc 0 kEHM
def Reg.GLOVEBOX.DMA_HALTS : Fld := fldAt 0xF0003C 31 0 .rc 0 kEHM
def Reg.GLOVEBOX.GO_IGNORED : Fld := fldAt 0xF00040 31 0 .rc 0 kEHM
def Reg.GLOVEBOX.CHAIN_HEAD_LO : Fld := fldAt 0xF01000 31 0 .rw 0 kE |>.array 64 0x40 |>.limit 0 4294967295 32
def Reg.GLOVEBOX.CHAIN_HEAD_HI : Fld := fldAt 0xF01004 31 0 .rw 0 kE |>.array 64 0x40
def Reg.GLOVEBOX.CHANNEL_CONTROL_GO : Fld := fldAt 0xF01008 0 0 .wo 0 kNone |>.array 64 0x40
def Reg.GLOVEBOX.CHANNEL_CONTROL_ABORT : Fld := fldAt 0xF01008 1 1 .wo 0 kNone |>.array 64 0x40
def Reg.GLOVEBOX.CHANNEL_STATUS_RUNNING : Fld := fldAt 0xF0100C 0 0 .ro 0 kNone |>.array 64 0x40
def Reg.GLOVEBOX.CHANNEL_STATUS_DONE : Fld := fldAt 0xF0100C 1 1 .w1c 0 kE |>.array 64 0x40
def Reg.GLOVEBOX.CHANNEL_STATUS_HALTED : Fld := fldAt 0xF0100C 2 2 .w1c 0 kE |>.array 64 0x40
def Reg.GLOVEBOX.CHANNEL_STATUS_LAST_BEAT : Fld := fldAt 0xF0100C 3 3 .w1c 0 kE |>.array 64 0x40
def Reg.GLOVEBOX.CHANNEL_STATUS_REASON : Fld := fldAt 0xF0100C 7 4 .ro 0 kE |>.array 64 0x40
def Reg.GLOVEBOX.REMAINING : Fld := fldAt 0xF01010 31 0 .ro 0 kE |>.array 64 0x40
def Reg.GLOVEBOX.FAULT_SRC_LO : Fld := fldAt 0xF01014 31 0 .ro 0 kE |>.array 64 0x40
def Reg.GLOVEBOX.FAULT_SRC_HI : Fld := fldAt 0xF01018 31 0 .ro 0 kE |>.array 64 0x40
def Reg.GLOVEBOX.FAULT_DST_LO : Fld := fldAt 0xF0101C 31 0 .ro 0 kE |>.array 64 0x40
def Reg.GLOVEBOX.FAULT_DST_HI : Fld := fldAt 0xF01020 31 0 .ro 0 kE |>.array 64 0x40
def Reg.GLOVEBOX.FAULT_BYTES : Fld := fldAt 0xF01024 31 0 .ro 0 kE |>.array 64 0x40
def Reg.GLOVEBOX.DESCRIPTORS_DONE : Fld := fldAt 0xF01028 31 0 .ro 0 kE |>.array 64 0x40
def Reg.gloveboxFields0 : List Fld :=
  [Reg.GLOVEBOX.GLOVEBOX_CONFIG, Reg.GLOVEBOX.GLOVEBOX_STATUS_FRAMES_HELD, Reg.GLOVEBOX.GLOVEBOX_STATUS_FRAMES_DIRTY, Reg.GLOVEBOX.GLOVEBOX_EVENTS_HOST_READ_ERROR, Reg.GLOVEBOX.GLOVEBOX_EVENTS_DMA_DONE, Reg.GLOVEBOX.GLOVEBOX_EVENTS_DMA_HALTED, Reg.GLOVEBOX.DMA_CONFIG, Reg.GLOVEBOX.HOST_BASE_LO, Reg.GLOVEBOX.HOST_BASE_HI, Reg.GLOVEBOX.FRAME_HITS, Reg.GLOVEBOX.PAGE_FETCHES, Reg.GLOVEBOX.ZERO_FILLS, Reg.GLOVEBOX.PAGE_WRITEBACKS, Reg.GLOVEBOX.HOST_READ_ERRORS, Reg.GLOVEBOX.PAGES_ARCHIVED, Reg.GLOVEBOX.DMA_RETRIES, Reg.GLOVEBOX.DMA_HALTS, Reg.GLOVEBOX.GO_IGNORED, Reg.GLOVEBOX.CHAIN_HEAD_LO, Reg.GLOVEBOX.CHAIN_HEAD_HI, Reg.GLOVEBOX.CHANNEL_CONTROL_GO, Reg.GLOVEBOX.CHANNEL_CONTROL_ABORT, Reg.GLOVEBOX.CHANNEL_STATUS_RUNNING, Reg.GLOVEBOX.CHANNEL_STATUS_DONE]
def Reg.gloveboxFields1 : List Fld :=
  [Reg.GLOVEBOX.CHANNEL_STATUS_HALTED, Reg.GLOVEBOX.CHANNEL_STATUS_LAST_BEAT, Reg.GLOVEBOX.CHANNEL_STATUS_REASON, Reg.GLOVEBOX.REMAINING, Reg.GLOVEBOX.FAULT_SRC_LO, Reg.GLOVEBOX.FAULT_SRC_HI, Reg.GLOVEBOX.FAULT_DST_LO, Reg.GLOVEBOX.FAULT_DST_HI, Reg.GLOVEBOX.FAULT_BYTES, Reg.GLOVEBOX.DESCRIPTORS_DONE]
/-- The fields of the GLOVEBOX block. -/
def Reg.gloveboxFields : List Fld := Reg.gloveboxFields0 ++ Reg.gloveboxFields1

/-! ### POWER block (20_power_reset_monitor) -/

def Reg.POWER.POWER_CONFIG_ECLK_INITIAL : Fld := fldAt 0x1000000 1 0 .im 0 kWEHM
def Reg.POWER.POWER_CONFIG_HOST_CLOCK : Fld := fldAt 0x1000000 2 2 .im 0 kWEHM
def Reg.POWER.POWER_CONFIG_MARGIN_MIN : Fld := fldAt 0x1000000 9 3 .im 25 kWEHM
def Reg.POWER.POWER_CONFIG_THROTTLE_TEMP : Fld := fldAt 0x1000000 16 10 .im 115 kWEHM
def Reg.POWER.CLOCK_CONTROL_REQUEST : Fld := fldAt 0x1000004 1 0 .rw 0 kEHM |>.limit 0 2 1
def Reg.POWER.CLOCK_CONTROL_CURRENT : Fld := fldAt 0x1000004 3 2 .ro 0 kEHM
def Reg.POWER.CLOCK_CONTROL_CEILING : Fld := fldAt 0x1000004 5 4 .ro 0 kEHM
def Reg.POWER.CLOCK_CONTROL_PENDING : Fld := fldAt 0x1000004 6 6 .ro 0 kEHM
def Reg.POWER.CLOCK_CONTROL_REFUSED : Fld := fldAt 0x1000004 7 7 .w1c 0 kEHM
def Reg.POWER.POWER_STATUS_VDD_CORE : Fld := fldAt 0x1000008 9 0 .ro 800 kWEHMS
def Reg.POWER.POWER_STATUS_JUNCTION : Fld := fldAt 0x1000008 17 10 .ro 0 kWEHMS
def Reg.POWER.POWER_STATUS_MARGIN : Fld := fldAt 0x1000008 25 18 .ro 0 kWEHMS
def Reg.POWER.POWER_EVENTS_THROTTLED : Fld := fldAt 0x100000C 0 0 .w1c 0 kWEHM
def Reg.POWER.POWER_EVENTS_AGING_LIMIT : Fld := fldAt 0x100000C 1 1 .w1c 0 kWEHM
def Reg.POWER.POWER_EVENTS_SET_POINT_CHANGED : Fld := fldAt 0x100000C 2 2 .w1c 0 kEHM
def Reg.POWER.DOMAINS_ALLOWED_LO : Fld := fldAt 0x1000010 31 0 .im 0 kWEHM
def Reg.POWER.DOMAINS_ALLOWED_HI : Fld := fldAt 0x1000014 31 0 .im 0 kWEHM
def Reg.POWER.DOMAINS_ON_LO : Fld := fldAt 0x1000018 31 0 .ro 0 kEHMS
def Reg.POWER.DOMAINS_ON_HI : Fld := fldAt 0x100001C 31 0 .ro 0 kEHMS
def Reg.POWER.SET_POINT_CHANGES : Fld := fldAt 0x1000020 31 0 .rc 0 kWEHM
def Reg.POWER.THROTTLES : Fld := fldAt 0x1000024 31 0 .rc 0 kWEHM
def Reg.POWER.VOLTAGE_STEPS : Fld := fldAt 0x1000028 31 0 .rc 0 kWEHM
def Reg.POWER.GPIO_OUT_LEVEL : Fld := fldAt 0x1000040 15 0 .rw 0 kWEHM
def Reg.POWER.GPIO_OUT_ENABLE : Fld := fldAt 0x1000040 31 16 .rw 0 kWEHM
def Reg.POWER.GPIO_IN : Fld := fldAt 0x1000044 15 0 .ro 0 kNone
def Reg.powerFields0 : List Fld :=
  [Reg.POWER.POWER_CONFIG_ECLK_INITIAL, Reg.POWER.POWER_CONFIG_HOST_CLOCK, Reg.POWER.POWER_CONFIG_MARGIN_MIN, Reg.POWER.POWER_CONFIG_THROTTLE_TEMP, Reg.POWER.CLOCK_CONTROL_REQUEST, Reg.POWER.CLOCK_CONTROL_CURRENT, Reg.POWER.CLOCK_CONTROL_CEILING, Reg.POWER.CLOCK_CONTROL_PENDING, Reg.POWER.CLOCK_CONTROL_REFUSED, Reg.POWER.POWER_STATUS_VDD_CORE, Reg.POWER.POWER_STATUS_JUNCTION, Reg.POWER.POWER_STATUS_MARGIN, Reg.POWER.POWER_EVENTS_THROTTLED, Reg.POWER.POWER_EVENTS_AGING_LIMIT, Reg.POWER.POWER_EVENTS_SET_POINT_CHANGED, Reg.POWER.DOMAINS_ALLOWED_LO, Reg.POWER.DOMAINS_ALLOWED_HI, Reg.POWER.DOMAINS_ON_LO, Reg.POWER.DOMAINS_ON_HI, Reg.POWER.SET_POINT_CHANGES, Reg.POWER.THROTTLES, Reg.POWER.VOLTAGE_STEPS, Reg.POWER.GPIO_OUT_LEVEL, Reg.POWER.GPIO_OUT_ENABLE]
def Reg.powerFields1 : List Fld :=
  [Reg.POWER.GPIO_IN]
/-- The fields of the POWER block. -/
def Reg.powerFields : List Fld := Reg.powerFields0 ++ Reg.powerFields1

/-! ### FAULTLOG block (19_modes_faults) -/

def Reg.FAULTLOG.LOG_HEAD : Fld := fldAt 0x1100000 31 0 .ro 0 kWEZHMS
def Reg.FAULTLOG.LOG_OLDEST : Fld := fldAt 0x1100004 31 0 .ro 0 kWEZHMS
def Reg.FAULTLOG.MODE_REASON : Fld := fldAt 0x1100008 7 0 .ro 0 kWEZHMS
def Reg.FAULTLOG.FAULT_CONFIG_RETIRE_COUNT : Fld := fldAt 0x110000C 3 0 .im 3 kWEHM
def Reg.FAULTLOG.FAULT_CONFIG_RETIRE_WINDOW : Fld := fldAt 0x110000C 16 4 .im 80 kWEHM
def Reg.FAULTLOG.FAULT_CONFIG_MENDING_LIMIT : Fld := fldAt 0x110000C 25 17 .im 224 kWEHM
def Reg.FAULTLOG.FAULT_CONFIG_AUTO_RESET : Fld := fldAt 0x110000C 26 26 .im 1 kWEHM
def Reg.FAULTLOG.MENDING_STATUS_CHANNELS_FAULTED : Fld := fldAt 0x1100010 7 0 .ro 0 kEMS
def Reg.FAULTLOG.MENDING_STATUS_ENGINES_RETIRED : Fld := fldAt 0x1100010 15 8 .ro 0 kEMS
def Reg.FAULTLOG.MENDING_STATUS_AUTO_RESETS_HOUR : Fld := fldAt 0x1100010 17 16 .ro 0 kWEHMS
def Reg.FAULTLOG.FAULTS_TRANSIENT : Fld := fldAt 0x1100020 31 0 .rc 0 kWEZHMS
def Reg.FAULTLOG.FAULTS_LASTING : Fld := fldAt 0x1100024 31 0 .rc 0 kWEZHMS
def Reg.FAULTLOG.FAULTS_DEVICE : Fld := fldAt 0x1100028 31 0 .rc 0 kWEZHMS
def Reg.FAULTLOG.RETIREMENTS : Fld := fldAt 0x110002C 31 0 .rc 0 kWEZHMS
def Reg.FAULTLOG.AUTO_RESETS : Fld := fldAt 0x1100030 31 0 .rc 0 kWEZHMS
def Reg.FAULTLOG.OVERWRITTEN : Fld := fldAt 0x1100034 31 0 .rc 0 kWEZHMS
def Reg.FAULTLOG.LOG : Fld := fldAt 0x1108000 31 0 .ro 0 kWEZHMS |>.array 8192 0x4
def Reg.faultlogFields0 : List Fld :=
  [Reg.FAULTLOG.LOG_HEAD, Reg.FAULTLOG.LOG_OLDEST, Reg.FAULTLOG.MODE_REASON, Reg.FAULTLOG.FAULT_CONFIG_RETIRE_COUNT, Reg.FAULTLOG.FAULT_CONFIG_RETIRE_WINDOW, Reg.FAULTLOG.FAULT_CONFIG_MENDING_LIMIT, Reg.FAULTLOG.FAULT_CONFIG_AUTO_RESET, Reg.FAULTLOG.MENDING_STATUS_CHANNELS_FAULTED, Reg.FAULTLOG.MENDING_STATUS_ENGINES_RETIRED, Reg.FAULTLOG.MENDING_STATUS_AUTO_RESETS_HOUR, Reg.FAULTLOG.FAULTS_TRANSIENT, Reg.FAULTLOG.FAULTS_LASTING, Reg.FAULTLOG.FAULTS_DEVICE, Reg.FAULTLOG.RETIREMENTS, Reg.FAULTLOG.AUTO_RESETS, Reg.FAULTLOG.OVERWRITTEN, Reg.FAULTLOG.LOG]
/-- The fields of the FAULTLOG block. -/
def Reg.faultlogFields : List Fld := Reg.faultlogFields0

/-- The fields of block `n` of R449. -/
def Reg.blockFields (n : Nat) : List Fld :=
  match n with
  | 0 => Reg.globalFields
  | 1 => Reg.timeFields
  | 2 => Reg.trustFields
  | 3 => Reg.directiveFields
  | 4 => Reg.eventFields
  | 5 => Reg.legsFields
  | 6 => Reg.decodeFields
  | 7 => Reg.veilFields
  | 8 => Reg.encodeFields
  | 9 => Reg.audioFields
  | 10 => Reg.mittenFields
  | 11 => Reg.ingressFields
  | 12 => Reg.cipherFields
  | 13 => Reg.gauntletFields
  | 14 => Reg.bandFields
  | 15 => Reg.ethFields
  | 16 => Reg.ponFields
  | 17 => Reg.nearmemFields
  | 18 => Reg.liningFields
  | 19 => Reg.gloveboxFields
  | 20 => Reg.powerFields
  | 21 => Reg.faultlogFields
  | _ => []

end Sys2Proof.Machine
end

