-- ==== Sys2Proof/Config.lean ====
section
/-!
DEFINITION. The constants that the spec fixes, and the free values: what the spec leaves open. A free
value is an opaque constant, so nothing can be proved about which value it is.
-/

namespace Sys2Proof.Config

/-- Nanoseconds of a tick (R53). -/
def tickNs : Nat := 125000

/-- One nanosecond in the units of the local clock, 2^-32 ns (R38). -/
def fracUnit : Nat := 2 ^ 32

/-- The 128-bit device ID in the fuses (R87). Free: each device has its own. -/
opaque deviceId : Nat

/-- The Nymrehal anchor hash in the fuses (R87), a SHA-384 value. Free. -/
opaque nymrehalAnchor : Nat

/-- The `n`-th draw of the DRBG of R87. Free: the spec gives no value. -/
opaque drbg : Nat → Nat

/-- Whether a charge that 16 fraction bits cannot hold is rounded up (R124 keeps 16 fraction bits and does
not say which way). Asked only for an inexact charge, of its numerator and denominator. -/
opaque chargeRoundsUp : Nat → Nat → Bool

/-- The bucket of the classification table that a key is hashed to (R285 says 'hashed buckets of 8' and
gives no hash). -/
opaque bucketOf : Nat → List Byte → Nat

/-- The 95th percentile of a list of delay variations in ns (R214 gives no interpolation rule). -/
opaque percentile95 : List Int → Int

/-- The linear factor with 16 fraction bits of a gain in 0.5 dB steps (R224 gives no rounding). -/
opaque gainLinear : Int → Nat

/-- The level in 0.25 dB units below full scale of a sum of squares over a count of 24-bit samples
(R221 gives no rounding); the floor of -120 dBFS is applied by the model. -/
opaque dbfs : Nat → Nat → Int

/-- A packet whose dependency descriptor carries the active decode targets bitmask of an operating point (R110 leaves the descriptor's layout to
the AV1 RTP format): what follows the 12 bytes of the RTP header, before and after. -/
opaque activeTargets : List Byte → Nat → List Byte

/-- One sample of the scaler of R165 (its windowed-sinc coefficients are built in and not given): whether along a column, the taps, the phase of 64, the
source and destination sizes that set the cut-off, and the samples under the taps. -/
opaque scaledSample : Bool → Nat → Nat → Nat → Nat → List Nat → Nat

/-- R'G'B' of a Y'CbCr sample (R168 step 1 names the matrices and gives no arithmetic): matrix code (0 BT.709, 1 BT.2020, 2 BT.601), full range, and
Y', Cb, Cr in 10 bits. -/
opaque toRgb : Nat → Bool → Nat × Nat × Nat → Int × Int × Int

/-- Linear R, G, B of an R'G'B' signal (R168 step 2 names the EOTFs): 0 BT.1886, 1 PQ, 2 HLG. -/
opaque linearised : Nat → Int × Int × Int → Int × Int × Int

/-- The built-in gamut matrices in the form of a GAMUT_MATRIX (R168 step 3 names them): to BT.2020, or from it. -/
opaque gamutMatrix : Bool → List Int

/-- A sum with 16 fraction bits brought to a whole number (R168 gives no rounding). -/
opaque roundFraction : Int → Int

/-- The luminance of linear components in primaries (0 BT.709, 1 BT.2020) as a PQ signal value with 16 fraction bits (R168 step 4). -/
opaque luminancePq : Nat → Int × Int × Int → Nat

/-- Linear components scaled from one luminance to another, both as PQ values of 16 bits (R168 step 4). -/
opaque scaleLuminance : Nat → Nat → Int × Int × Int → Int × Int × Int

/-- The output peak of a linear component (R168 step 4): the output format. -/
opaque outputPeak : Nat → Int

/-- R'G'B' of linear components in an output format (R168 step 5). -/
opaque delinearised : Nat → Int × Int × Int → Int × Int × Int

/-- Limited-range Y'CbCr in 10 bits of R'G'B' in an output format (R168 step 5). -/
opaque fromRgb : Nat → Int × Int × Int → Nat × Nat × Nat

/-- A 10-bit sample at 8 bits (R177, R180: an 8-bit stream of a 10-bit source; no rule is given). -/
opaque toEightBits : Nat → Nat

/-- A quarter-pel component rounded to whole samples (R193, R194 give no rounding). -/
opaque roundPel : Int → Int

/-- The bits of a vector difference (R194 leaves them to the codec): codec, and the difference in quarter-pel. -/
opaque vectorBits : Nat → Int → Int → Nat

/-- The vector that a block's vector difference is taken from (R194 leaves it to the codec), and that of a P_Skip macroblock: codec, and the vectors of the blocks to
the left, above, and above and to the right. -/
opaque vectorPredictor : Nat → Option (Int × Int) → Option (Int × Int) → Option (Int × Int) → Int × Int

/-- The prediction of a square of `n` samples at a fraction of a quarter-pel, from the n + 8 by n + 8 samples around it (the codec's interpolation). -/
opaque interpolated : Nat → Nat → Nat → Nat → List Nat → List Nat

/-- The SATD of a square of `n` samples against its prediction (R194, R195 name it). -/
opaque satd : Nat → List Nat → List Nat → Nat

/-- The prefix NAL unit of a slice (R178): keyframe, temporal layer. -/
opaque prefixNal : Bool → Nat → List Byte

/-- The SPS and PPS of an H.264 stream and the sequence header of an AV1 stream, as NAL units or OBUs (R188): the stream. -/
opaque parameterSets : Nat → List (List Byte)

/-- The dependency descriptor of a packet as an RTP header extension (R188): structure, spatial and temporal layer, keyframe, and whether the packet is the
first and the last of its frame. -/
opaque dependencyDescriptor : Nat → Nat → Nat → Bool → Bool → Bool → List Byte

/-- The aggregation header of an AV1 packet (R188): whether it goes on from the packet before and into the next, and whether it begins a keyframe. -/
opaque aggregationHeader : Bool → Bool → Bool → Byte

/-- The frame duration in microseconds and the coded frames of an Opus packet; none for one that is malformed (RFC 6716, which R207 names). -/
opaque opusFrames : List Byte → Option (Nat × List (List Byte))

/-- Whether an Opus packet carries LBRR data of the frame before it (R207). -/
opaque hasLbrr : List Byte → Bool

/-- The next state of a decoder and the samples of a coded frame; none where it fails to decode: codec, state, frame. The codecs are those of the standards
that R207 names. A stereo Opus frame comes out as (L + R) / 2. -/
opaque decodeFrame : Nat → Nat → List Byte → Option (Nat × List Int)

/-- The same for the frame that the LBRR data of an Opus packet recovers. -/
opaque decodeLbrr : Nat → List Byte → Option (Nat × List Int)

/-- The next state of a decoder and the samples of one concealed mix period (R217): codec, state. -/
opaque conceal : Nat → Nat → Nat × List Int

/-- The samples of one mix period of comfort noise (R217): codec, mix period, noise floor in 0.25 dB. -/
opaque comfortNoise : Nat → Nat → Int → List Int

/-- One half of the 96 taps of a bridge, which is linear-phase (R218): 0 for 48 and 16 kHz, 1 for 16 and 8 kHz; the tap. -/
opaque bridgeHalf : Nat → Nat → Int

/-- The sum of products of a bridge brought to a sample. -/
opaque bridgeSum : Int → Int

/-- The threshold of the limiter, -1 dBFS, as a 24-bit sample (R225). -/
opaque limitThreshold : Nat

/-- The gain of the limiter at each of 48 samples, with 16 fraction bits: the gain before, the samples and the 48 that follow (R225). -/
opaque limiterGain : Nat → List Int → List Int → List Nat

/-- The next state of a lane's dither generator and the dither of one sample, with 16 fraction bits of an LSB (R225). -/
opaque ditherNext : Nat → Nat × Int

/-- The lane of the home cluster that runs an encode instance's limiter: room, format, slot. -/
opaque limiterLane : Nat → Nat → Nat → Nat

/-- The next state of an encoder and the bytes of a coded frame (R208): codec, rate, whether inter-frame prediction is disabled, state, samples. -/
opaque encodeFrame : Nat → Nat → Bool → Nat → List Int → Nat × List Byte

/-- What a change of set point adds to the 8 us of the clock switch, in ns (R419 gives at most 32 us in all): the channel, and which change. -/
opaque pointSwitch : Nat → Nat → Nat

/-- How many tick boundaries the writing of new thread code into the idle halves takes, by the digest of its Programs (R233 gives no time). -/
opaque codeWriteTicks : Nat → Nat

/-- The servo's change of INCREMENT for a measured offset (R48 bounds it and gives no law). -/
opaque servo : Nat → Int → Int

/-- Whether PTP master `a` is better than master `b` (R42: the BMCA of the named standard). Arguments:
profile, local priorities and the announced datasets as numbers. -/
opaque bmcaBetter : Nat → Nat → Nat → Nat → Nat → Bool

/-- What a core makes of a payload (R296): OP and MODE of R299, the key, the salted IV as a number, and the bytes. Free: AES is
named by standard only, and no rule of the spec computes it. -/
opaque cipherOut : Nat → Nat → Nat → Nat → List Byte → List Byte

/-- The 16-byte tag of GCM: the mode, the key, the salted IV, the AAD and the ciphertext. Free for the same reason. -/
opaque gcmTag : Nat → Nat → Nat → List Byte → List Byte → List Byte

/-- What the spec gives no value for in the headers of the frames that the device sends: the MAC address of an egress point, that of the station behind a
PON Port-ID, type of service, DF, TTL or hop limit of media packets, and the identification of an IPv4 packet. Free. -/
opaque egressMac : Nat → Nat
opaque ponNextHop : Nat → Nat
opaque mediaTos : Nat
opaque mediaDf : Bool
opaque mediaHops : Nat
opaque ipIdent : Nat → Nat

/-- The SSRC under which the device sends RTCP to a participant. Free: the spec gives none. -/
opaque rtcpSsrc : Nat → Nat

/-- Whether the reseed of a core's mask generator is late at a boundary (R308): the DRBG's draw and the core. Free: the spec gives no time for it. -/
opaque maskLate : Nat → Nat → Bool

/-- The coded size in bits that a comfort frame or a codec frame takes: leg, frame index (R208 names codecs
by standard). -/
opaque encodedBytes : Nat → Nat → List Byte

/-- The downstream delay in ns that the PON standards derive from an equalisation delay (R398). -/
opaque ponDownstreamDelay : Nat → Nat

/-- The counter block of an XGEM payload (R392: the PON standards form it): whether it goes upstream, the superframe count, the position in the frame in
bytes. -/
opaque ponCounter : Bool → Nat → Nat → Nat

/-- The default master session key of the PON standards, and the KEK and the OMCI integrity key that they derive from a master session key and a serial
number (R392). -/
opaque defaultMsk : Nat
opaque ponKek : Nat → List Byte → Nat
opaque omciKey : Nat → List Byte → Nat

/-- A key under the KEK in a Key_Report, a broadcast key out of its field under the KEK, and the MIC of an OMCI message under the integrity key (R392,
R394, R395). -/
opaque ponWrap : Nat → Nat → Nat
opaque ponUnwrap : Nat → List Byte → Nat
opaque omciMic : Nat → List Byte → List Byte

/-- A message of the mutual authentication (R392, R394): the pre-shared key, the serial number, the state of the exchange and the message give the
answer, the next state, and the master session key once the two sides agree. -/
opaque ponAuth : Nat → List Byte → Nat → List Byte → List Byte × Nat × Option Nat

/-- The random delay, in bits, of a Serial_Number_ONU response (R387), from a DRBG draw. -/
opaque serialDelay : Nat → Nat

/-- The 16-bit syndrome that the decoder of near memory finds in a poisoned word (R413 names a reserved check value and gives no
number). -/
opaque poisonSyndrome : Nat

/-- What the response time of a PON port adds to 34.9 us (R387 gives 35.0 us ± 0.1 us), in ns, by superframe. -/
opaque ponResponse : Nat → Nat

/-- The number of a reason of an error response (R23, R27, R28 name the reasons and give no numbers): 1 PORT_OFF, 2 ADDR_UNMAPPED,
3 ADDR_DENIED, 4 a memory error. -/
opaque reasonCode : Nat → Nat

/-- The number that DETAIL gives for an item of Proving (R477) or a test of the self-test (R476); the spec gives no numbers. -/
opaque itemCode : Nat → Nat

/-- Whether a range of host addresses, by its first address and its length, meets one of the device's own BARs (R438): where the host puts
the BARs is no part of the spec. -/
opaque meetsOwnBar : Nat → Nat → Bool

/-- Whether an inexact quotient that the spec rounds in no stated way is rounded up: a means of a register, an estimate. Asked only for
an inexact quotient, of its numerator and denominator. -/
opaque roundsUp : Nat → Nat → Bool

/-- The value that SRC1 takes in a LONG word, by opcode and DST: R247 gives the LONG form no SRC1 field. -/
opaque longSrc1 : Nat → Nat → Nat

/-- The products that DOT4 and VMAC4 take in a LONG word, whose SRC2 quad R247 replaces by one immediate. -/
opaque longQuad : Nat → Nat → Nat → Nat

/-- The result of a shift by 32 or more: opcode, value, amount (R249 gives none). -/
opaque shiftOver : Nat → Nat → Nat → Nat

/-- The carry flag after an A-slot operation whose carry R238 does not define: opcode and operands. -/
opaque carryOf : Nat → Nat → Nat → Bool

/-- The overflow flag after an A-slot operation whose overflow R238 does not define: opcode and operands. -/
opaque overflowOf : Nat → Nat → Nat → Bool

/-- The absolute value of the most negative number (R249 gives none). -/
opaque absMin : Nat

/-- Whether the offset of BR and CALL counts from the next word rather than from the word itself (R249 does not say). -/
opaque branchFromNext : Bool

/-- Whether the X part of an LDXY whose two parts name one register or one pointer is written last (R248 does not say). -/
opaque ldxyXLast : Bool

/-- The bits of a skip frame, by stream, layer and frame (R202 bounds them by 64 for each row). -/
opaque skipBits : Nat → Nat → Nat → Nat

/-- The Alloc-ID under which the OLT grants room for serial numbers, by mode and UP_RATE (R384 leaves it to the PON standards). -/
opaque serialAlloc : Nat → Nat → Nat

/-- The bytes of XGEM space in a grant of a mode: its bits, whether it carries a PLOAMu and a DBRu (R354, R388; the framing and the FEC of a
burst are left to the PON standards). -/
opaque grantSpace : Nat → Nat → Bool → Bool → Nat

/-- How many idle XGEM frames fill a space of a burst (R354; the standards allow idle frames of many lengths). -/
opaque idleFrames : Nat → Nat


/-- The record that read-levels copies for one source: leg index, RMS, peak and held peak (R229 names what it holds and gives no layout). -/
opaque levelRecord : Nat → Int → Nat → Nat → List (BitVec 8)

/-- The bytes of an attestation report: its values and the device certificate (R95 gives their order and no sizes). -/
opaque attestReport : List Nat → List Byte → List Byte

/-- The device-unique key that the core derives from the PUF (R87). Free: each device has its own. -/
opaque deviceKey : Nat

/-- The secret and public keys of the device identity pair, from the device-unique key (R87 names the algorithms and no derivation). -/
opaque identityPair : Nat → List Byte × List Byte

/-- The secret and public keys of the device receipt pair (R87). -/
opaque receiptPair : Nat → List Byte × List Byte

/-- The device certificate in the 16 KiB one-time area (R87). -/
opaque certificate : List Byte

/-- SHA-384 of a message, as the number that its 48 bytes spell little-endian. The spec names the algorithms of this group by standard. -/
opaque sha384 : List Byte → Nat

/-- Whether an ML-DSA-87 signature verifies: public key, message, context string, signature (R75). -/
opaque mldsaVerify : List Byte → List Byte → List Byte → List Byte → Bool

/-- Whether an ECDSA P-384 signature verifies: public key, digest, signature (R75). -/
opaque ecdsaVerify : List Byte → List Byte → List Byte → Bool

/-- The ML-DSA-87 signature of a message: secret key, message, context string (R95). -/
opaque mldsaSign : List Byte → List Byte → List Byte → List Byte

/-- The ECDSA P-384 signature of a digest (R95). -/
opaque ecdsaSign : List Byte → List Byte → List Byte

/-- The shared secret that ML-KEM-1024 decapsulates: secret key, ciphertext (R92). -/
opaque kemSecret : List Byte → List Byte → List Byte

/-- The x-coordinate that ECDH P-384 gives: secret key, public key; none for an invalid public key (R92). -/
opaque ecdhSecret : List Byte → List Byte → Option (List Byte)

/-- AES-256 key wrap: key, plaintext (R89). -/
opaque aesWrap : List Byte → List Byte → List Byte

/-- AES-256 key unwrap: key, wrapped bytes; none where its check fails (R92). -/
opaque aesUnwrap : List Byte → List Byte → Option (List Byte)

/-- AES-256-GCM decryption: key, IV, AAD, ciphertext with its tag; none where the tag fails (R70). -/
opaque gcmOpen : List Byte → List Byte → List Byte → List Byte → Option (List Byte)

/-- The ns that the PLL and the voltage of a higher ECLK set point need; R500 bounds them by 500 us. -/
opaque pointSettles : Nat → Nat

end Sys2Proof.Config
end

