-- ==== Sys2Proof/Machine/State.lean ====
section
/-!
DEFINITION. The state of the device, as plain data, and the state right after a cold reset. Registers are held field by
field in `regs` (Machine/Regs.lean lists every field of BAR 0); tables hold an entry for each index that is in use;
`pending` is the queue of commands that wait, and `out` is the record of everything that has left the device.
-/

namespace Sys2Proof.Machine

/-- Why the machine stops with a fault. -/
inductive Fault where
  /-- A register access beyond the 64 MiB of BAR 0 (R446): no such address exists. Raised by REGISTER_WRITE and
  REGISTER_READ_CLEAR. Safe: nothing is claimed about such an access. -/
  | outsideBar0 (offset : Nat)
  deriving DecidableEq, Repr

/-- Why a command has no meaning in the model. -/
inductive Refusal where
  /-- Raised by an arm of exec whose command has no meaning yet. Safe. -/
  | notModelled (mnemonic : String)
  deriving DecidableEq, Repr

/-- A sparse table: index and entry, indices strictly rising. An index that is not listed holds the entry that its table
has after reset. -/
abbrev Table (α : Type) := List (Nat × α)

/-! ### Host interface (chapter 18) -/

/-- The DATA of an event entry, by kind (R465). -/
inductive EventData where
  | register (offset bits : Nat)
  | packet (delivery length source reason port context : Nat)
  | dma (channel reason done address : Nat)
  | talkers (room tick : Nat)
  | overflow (lost : Nat)
  | mode (old new index : Nat)
  | fault (index code : Nat)
  deriving DecidableEq, Repr

/-- A completion entry (R459), without its PHASE and its TICK, which it takes when it is written. -/
structure Completion where
  tag : Nat
  opcode : Nat
  status : Nat
  detail : Nat
  generation : Nat
  result : Nat
  sequence : Nat
  interrupt : Bool
  deriving DecidableEq, Repr

/-- An admitted directive whose completion is not final (R458): what it waits for, and on which index. -/
structure Deferred where
  tag : Nat
  opcode : Nat
  interrupt : Bool
  generation : Nat
  sequence : Nat
  key : Nat
  info : List Nat
  deriving DecidableEq, Repr

/-- What has left the device. The newest entry stands first in `State.out`. -/
inductive Output where
  | completion (slot : Nat) (bytes : List Byte)
  | event (slot : Nat) (bytes : List Byte)
  | sample (slot : Nat) (bytes : List Byte)
  | msix (vector : Nat)
  | heartbeat (address : Nat) (bytes : List Byte)
  | delivery (index : Nat) (bytes : List Byte)
  | exchange (offset : Nat) (bytes : List Byte)
  | hostWrite (address : Nat) (bytes : List Byte)
  | readData (offset value : Nat)
  | monitor (reply : String) (values : List Nat)
  | i2cWrite (bus device register value speed : Nat)
  | i2cRead (bus device register speed : Nat)
  | i2cRelease
  | flashErase (slot : Nat)
  | flashWrite (slot : Nat) (bytes : List Byte)
  | frame (egress cls : Nat) (bytes : List Byte)
  | ptp (port kind : Nat) (values : List Nat)
  | ploam (port kind : Nat) (values : List Nat)
  | burst (port : Nat) (values : List Nat)
  | xgem (port portId keyIndex : Nat) (last : Bool) (payload : List Byte)
  | lpi (port kind : Nat)
  | response (port reason : Nat)
  | memoryData (address : Nat) (bytes : List Byte) (poisoned : Bool)
  | pin (name : String) (level : Nat)
  | avs (millivolts : Nat)
  | cut (egress : Nat)
  deriving DecidableEq, Repr

/-- A copy of a picture's statistics into the exchange region that is under way (R152): its directive, the buffer held, what it names, its destination, the
bytes in all and those copied. -/
structure StatCopy where
  work : Deferred
  buffer : Nat
  what : Nat
  dest : Nat
  total : Nat
  done : List Byte
  deriving DecidableEq, Repr

/-- The host side: completions that wait for space, unfinished directives, the loss count of R467, the moderation of each
device-produced ring (entries written since the last signal and the time of the first of them, R456), the
MSI-X table words that differ from reset and its pending bits, the DRBG draw that AUTH_NONCE shows, the log of
directives that count toward a RATE (R462), the authorisations of the current second, the directives
fetched in this tick, and the queries, snapshots and captures in progress. -/
structure HostState where
  linkUp : Bool
  waiting : List Completion
  deferred : List Deferred
  lostSince : Nat
  cplSince : Nat
  cplFirst : Option Nat
  evtSince : Nat
  evtFirst : Option Nat
  statsSince : Nat
  statsFirst : Option Nat
  msix : Table Nat
  msixPending : Nat
  nonceDraw : Nat
  rateLog : List (Nat × Nat)
  authSecond : Nat
  authCount : Nat
  fetched : Nat
  queries : List (Nat × Nat)
  queryData : Table (List Byte)
  copies : List StatCopy
  deriving DecidableEq, Repr

/-! ### Time (chapter 02) -/

/-- A measuring source of R45. -/
structure TimeSource where
  qualified : Bool
  offset : Option Int
  measuredAt : Nat
  count : Nat
  refusals : Nat
  jumpOnly : Bool
  candidateSince : Option Nat
  deriving DecidableEq, Repr

/-- A PTP master heard on a port (R42): its identity, and the announced dataset as one number for the BMCA. -/
structure PtpMaster where
  port : Nat
  identity : Nat
  dataset : Nat
  announceAt : Nat
  announceInterval : Nat
  deriving DecidableEq, Repr

/-- The PTP engine: the masters heard, the selected one, the exchange of messages in progress, the mean path delay, the
Syncs of the current second, the master's logMinDelayReqInterval once a Delay_Resp has named it, and the time of the next delay request. Times of the exchange are in quarter ns. -/
structure PtpState where
  masters : List PtpMaster
  selected : Option Nat
  syncSeq : Nat
  syncIngress : Option Int
  syncOrigin : Option Int
  requestSeq : Nat
  requestSent : Option Int
  peerRequestReceipt : Option Int
  peerResponseIngress : Option Int
  pathDelay : Option Int
  syncSecond : Nat
  syncCount : Nat
  minDelayLog : Option Int
  peerCorrection : Int
  nextRequest : Nat
  deriving DecidableEq, Repr

/-- A binding of the TAI of a downstream superframe, from a pon-time-of-day directive (R43). -/
structure TodBinding where
  superframe : Nat
  time : Nat
  deriving DecidableEq, Repr

/-- The local clock, the tick and the time sources. `clock` counts 2^-32 ns units (R38); `correction` is the servo's change
of INCREMENT from nominal, in fraction units; `boundaries` counts tick boundaries passed since the cold
reset (R57); `boundaryAt` and `boundaryPrev` are the local times of the last and the last but one of them in ns, and `once` the boundary count at which each action that happens once per tick
was last done; `mixCount` counts mix periods begun, `mixIndex` is the index of the present one (R219), and `stepTotal` the sum of all steps
of the clock. -/
structure TimeState where
  clock : Nat
  increment : Nat
  correction : Int
  nextCorrection : Option Int
  tickCount : Nat
  boundaries : Nat
  shortTick : Bool
  pendingStep : Option Int
  ptp : TimeSource
  ponA : TimeSource
  ponB : TimeSource
  pps : TimeSource
  engine : PtpState
  lockRun : Nat
  holdoverSince : Nat
  lastOffset : Int
  lastEdge : Option Nat
  ppsFrequency : Bool
  nextSecond : Option Nat
  ppsOutUntil : Option Nat
  tickOutUntil : Option Nat
  ppsOut : Bool
  tickOut : Bool
  lastPpsSecond : Nat
  boundaryAt : Nat
  boundaryPrev : Nat
  once : Table Nat
  mixCount : Nat
  mixIndex : Nat
  stepTotal : Int
  deriving DecidableEq, Repr

/-! ### Trust (chapter 03) -/

/-- What outlives power: the fuses (R77, R79, R87) with the one-time area of the device certificate and the identity of the part (R1, R3), and what
the device has read or written of the slots of the boot flash (R80, R81). -/
structure Fuses where
  is8832 : Bool
  gradeI : Bool
  dv : Bool
  lifecycle : Nat
  anchor : Option Nat
  rollback : Nat
  certificate : List Byte
  flash : Table (List Byte)
  deriving DecidableEq, Repr

/-- One generation of Programs, Tables and Policy (R83 to R85); `half` is the half of the Mitten program memories that holds its code (R233). -/
structure Generation where
  number : Nat
  programs : List Record
  tables : List Record
  policy : List Record
  digests : List Nat
  since : Nat
  half : Nat
  deriving DecidableEq, Repr

/-- Why an image is being verified. `busy` says that a PARTIAL image was pending when it arrived (R83). -/
inductive VerifyPurpose where
  | pushed (busy : Bool) | flashProgram (slot : Nat) (bytes : List Byte)
  deriving DecidableEq, Repr

/-- An entry of the wrapped key table (R89): usage, target, epoch, last accepted counter, and the clear key and salt that its 56 wrapped bytes
hold under the Table KEK (`wrappedForm`). -/
structure KeyEntry where
  usage : Nat
  target : Nat
  epoch : Nat
  counter : Nat
  key : Nat
  salt : Nat
  usableAt : Nat
  corrupt : Bool
  deriving DecidableEq, Repr

/-- A request for an attestation report (R95). -/
structure AttestRequest where
  sequence : Nat
  nonce : Nat
  dest : Nat
  deriving DecidableEq, Repr

/-- The Kuthastan core. `full`, `held`, `verifying` and `pendingPartial` are the decrypted image copies of the KUTHASTAN region with their image
content keys (R70, R76, R408); `flashWrites` holds, oldest first, the verified images whose slot has been erased; `keks` the customer KEKs by
index; `counters` the last accepted token counter by usage and target. -/
structure TrustState where
  fuses : Fuses
  full : Option Image
  accepted : Bool
  held : Option Image
  verifying : List (VerifyPurpose × Image)
  pendingPartial : Option Image
  codeSince : Option Nat
  current : Generation
  old : Option Generation
  flashWrites : List (Nat × List Byte)
  keks : List (Nat × Nat)
  tableKek : Option Nat
  pageKey : Option (Nat × Nat)
  keys : Table KeyEntry
  counters : List (Nat × Nat × Nat)
  hybridSecond : Nat
  hybridCount : Nat
  wrappedSecond : Nat
  wrappedCount : Nat
  draws : Nat
  reseededAt : Nat
  generates : Nat
  startupPassed : Bool
  attest : List AttestRequest
  attestSecond : Nat
  attestDone : Nat
  zeroizing : Bool
  deriving DecidableEq, Repr

/-! ### Modes, faults, power (chapters 19 and 20) -/

/-- The modes of R474. -/
inductive Mode where
  | dormant | proving | serving | holdover | mending | sealed
  deriving DecidableEq, Repr

/-- A fault-log entry (R493). -/
structure FaultEntry where
  code : Nat
  cls : Nat
  block : Nat
  port : Nat
  mode : Nat
  stamp : Nat
  tick : Nat
  detail : Nat
  sequence : Nat
  address : Nat
  deriving DecidableEq, Repr

/-- Failures and retirements. An engine is named by 256 times its KIND of the engine-reset directive plus its index.
`failures` keeps the boundary counts at which it failed, newest first. -/
structure FaultState where
  log : Table FaultEntry
  nextSeq : Nat
  failures : Table (List Nat)
  resetting : List Nat
  retiring : List Nat
  retired : List Nat
  fenced : List Nat
  linksFaulted : List (Nat × Nat)
  linkPending : List (Nat × Nat)
  autoResets : List Nat
  autoExhausted : Bool
  deriving DecidableEq, Repr

/-- What a boot step waits for (R505): a delay to pass, the acknowledgement of a transfer, or a register or a pin from a time on. -/
inductive BootWaitFor where
  | none
  | delay (until_ : Nat)
  | ack
  | poll (from_ : Nat)
  | gpio (from_ : Nat)
  deriving DecidableEq, Repr

/-- What Proving has done so far (R477, R504). -/
structure ProvingState where
  flashTried : Nat
  marchDone : Bool
  trained : Bool
  linksTested : Bool
  bootIndex : Nat
  bootWait : BootWaitFor
  bootDone : Bool
  failed : Bool
  deriving DecidableEq, Repr

/-- Power, pins and the Abaset monitor. `imageDue` says that the domains of an accepted image are switched at the next tick boundary (R499), and `knitOpen`
that the Knit broke while PWR_GOOD was low (R522). -/
structure PowerState where
  pwrGood : Bool
  testEn : Bool
  selfTestDone : Bool
  resetLow : Option Nat
  resetHeld : Bool
  pendingPoint : Option (Nat × Nat)
  protectivePending : Bool
  learned : Table Nat
  marginLow : Nat
  lastVoltageChange : Nat
  agingAt : Nat
  rampQueue : List Nat
  ramping : List (Nat × Nat)
  gpioIn : Nat
  rxLos : Nat
  challenge : Option Nat
  challengeAt : Nat
  unlockUntil : Option Nat
  imageDue : Bool
  knitOpen : Bool
  deriving DecidableEq, Repr

/-! ### Rooms, participants and legs (chapter 04) -/

/-- STATE of a room, a participant or another entry without a state of its own (R102, R103). `admitted` is an entry whose
admission has been evaluated and takes effect at the next tick boundary (R60). -/
inductive Life where
  | free | admitted | active | draining
  deriving DecidableEq, Repr

/-- STATE of a leg (R104). -/
inductive LegState where
  | free | admitted | active | draining | faulted
  deriving DecidableEq, Repr

/-- A room entry (R102). PARTICIPANTS and LEGS are counted from the tables. -/
structure Room where
  state : Life
  maxTalkers : Nat
  mix : Bool
  maxParticipants : Nat
  deriving DecidableEq, Repr

/-- A packet sent to a participant, kept to read its feedback (R114). -/
structure SentPacket where
  ssrc : Nat
  seq : Nat
  time : Nat
  bytes : Nat
  deriving DecidableEq, Repr

/-- One 5 ms send group (R114): its number, the send time of its last received packet and the delay `d`. -/
structure SendGroup where
  number : Nat
  sendTime : Nat
  delay : Int
  deriving DecidableEq, Repr

/-- What a trusted SRTCP packet asks for: a NACK on a leg, a keyframe request on a leg, or an RFC 8888 report. -/
inductive Feedback where
  | nack (leg : Nat) (seqs : List Nat)
  | keyframe (leg : Nat) (fir : Bool)
  | report (items : List FeedbackItem)
  deriving DecidableEq, Repr

/-- A participant entry (R103) with the state of its estimator (R114, R115); `rtcpSent` numbers the SRTCP packets sent to it, `feedback` is what it has
sent that is still to be acted on, and `reportTime` the latest report time in units of 1/65,536 s. -/
structure Participant where
  state : Life
  spec : PartSpec
  keyEntry : Nat
  rtcpSent : Nat
  feedback : List Feedback
  reportTime : Nat
  estimate : Nat
  receivedRate : Nat
  delayState : Nat
  loss : Nat
  lastFeedback : Nat
  estD : Nat
  estL : Nat
  nextEstimate : Option Nat
  lastCut : Option Nat
  overuseRun : Nat
  groups : List SendGroup
  received : List (Nat × Nat)
  reported : List (Nat × Nat × Nat)
  sent : List SentPacket
  staleAt : Nat
  tickBytes : Nat
  deriving DecidableEq, Repr

/-- A packet held in the retransmission cache of a leg (R118). -/
structure CachedPacket where
  seq : Nat
  time : Nat
  packet : MediaPacket
  deriving DecidableEq, Repr

/-- One entry of a FORWARDED leg's map (R118): the sequence number sent, the source leg's sequence number,
and how often it has been retransmitted (R119). -/
structure SentMap where
  seq : Nat
  source : Nat
  resent : Nat
  deriving DecidableEq, Repr

/-- A missing source packet (R117): its sequence number, when the gap was seen and whether its NACK was sent. -/
structure Gap where
  seq : Nat
  seen : Nat
  nacked : Bool
  deriving DecidableEq, Repr

/-- The keyframe aggregation of a sender (R120); `firs` numbers its FIR requests (RFC 5104). -/
structure KeyframeState where
  last : Option Nat
  pending : Bool
  fir : Bool
  firs : Nat
  deriving DecidableEq, Repr

/-- A leg entry (R104) with the working state of its rules. `bucket` counts tokens in units of one
8,000,000,000th of a byte, so that R121's RATE / 8 bytes per second is exact. `layerRates` holds, for each
packet of the last second, its time, layers and bytes (R112); `offsets` what is subtracted from the source's sequence numbers from one of them on,
newest first (R110); `raiseAsked` says that a raise has asked for its keyframe (R113); `nested` that the source's layers build on one another, and
`maskDue` that the next packet carries the active decode targets bitmask (R110). -/
structure Leg where
  state : LegState
  spec : LegSpec
  layerCurrent : Nat
  layerTarget : Nat
  bucket : Nat
  bucketStamp : Nat
  seqNext : Nat
  seqLastIn : Option Nat
  rtxArea : Nat
  rtxSize : Nat
  keyframe : KeyframeState
  packets : Nat
  bytes : Nat
  policeDrops : Nat
  rtxSent : Nat
  rtxMiss : Nat
  layerSwitches : Nat
  paused : Bool
  started : Bool
  raiseSince : Option Nat
  raiseAsked : Bool
  nested : Bool
  maskDue : Bool
  offsets : List (Nat × Nat)
  cache : List CachedPacket
  sentMap : List SentMap
  gaps : List Gap
  layerRates : List (Nat × Nat × Nat × Nat)
  deriving DecidableEq, Repr

/-- A charge held against a budget (R58 to R61, R524): who holds it, the budget code, the unit it is placed
on, the amount in units of 1/65,536 (R124), and whether its work has been released. -/
structure Charge where
  kind : Nat
  index : Nat
  code : Nat
  unit : Nat
  amount : Nat
  released : Bool
  deriving DecidableEq, Repr

/-! ### Video decode (chapter 05), and the jobs of a stream (R62 to R64) -/

/-- The schedule of the jobs of one frame (R63, R135): the boundary count of its first tick, its period in ticks, its
jobs in all and those of one row, the next job to complete, the ticks by which it has moved, and whether that job has met its cap once, with the cycles it still needs and the tick in which it resumes. -/
structure Schedule where
  start : Nat
  period : Nat
  total : Nat
  per : Nat
  next : Nat
  delay : Nat
  suspended : Bool
  carried : Nat
  resumeAt : Nat
  deriving DecidableEq, Repr

/-- STATE of a decode stream or an encode stream (R130, R179). `admitted` is an entry whose admission takes effect at the next
tick boundary (R60). -/
inductive StreamState where
  | free | admitted | waiting | running | draining
  deriving DecidableEq, Repr

/-- STATE of a frame buffer (R139). -/
inductive BufState where
  | free | decoding | complete | freeing
  deriving DecidableEq, Repr

/-- A frame buffer's header (R139) and the statistics it carries (R151). -/
structure Buffer where
  state : BufState
  shortTerm : Bool
  longTerm : Bool
  current : Bool
  slots : Nat
  flags : Nat
  holders : Nat
  stream : Nat
  width : Nat
  height : Nat
  colour : Nat
  picture : Nat
  completed : Nat
  deriving DecidableEq, Repr

/-- A coded frame in a stream's bitstream buffer (R134, R147): its packets by sequence number with their payloads, the numbers of the packet that begins
it and of its marker packet once they are known, the instant at which it was there without a gap, the instant at which its last packet was
expected, whether it broke BITSTREAM_KIB, and the boundary count at which it became ready. A frame none of whose packets arrived has the numbers
that are missing. -/
structure AsmFrame where
  timestamp : Nat
  packets : List (Nat × List Byte)
  first : Option Nat
  marker : Option Nat
  whole : Option Nat
  expected : Option Nat
  oversize : Bool
  readyAt : Option Nat
  deriving DecidableEq, Repr

/-- A frame of a decode stream with the descriptor of its jobs (R143): its schedule, its generation, its output buffer once its first job has taken one,
its parse, its bitstream extent, the buffers of its references, the tile columns that discard data up to a resynchronisation point (R144), and the
work of a suspended job (R136). -/
structure DecodeFrame where
  sched : Schedule
  generation : Nat
  buffer : Option Nat
  frame : CodedFrame
  extent : List Byte
  refs : List (Option Nat)
  discarding : List Nat
  held : Option RowWork
  concealed : Bool
  standIn : Bool
  grey : Bool
  deriving DecidableEq, Repr

/-- A decode stream entry (R130) with its working state: the frames being assembled, the timestamp and the last number of the newest that has been
taken, the sequence header in force, whether RASL pictures are discarded (R131), the frame being decoded and those that wait behind it. -/
structure DecodeStream where
  state : StreamState
  spec : DecodeSpec
  cluster : Nat
  current : Option Nat
  frames : Nat
  concealed : Nat
  lost : Nat
  blocked : Bool
  pictures : Nat
  sequence : Option SequenceHeader
  noRasl : Bool
  assembly : List AsmFrame
  takenStamp : Option Nat
  takenLast : Option Nat
  job : Option DecodeFrame
  ready : List DecodeFrame
  lateRun : Nat
  deriving DecidableEq, Repr

/-! ### Composition (chapter 06) -/

/-- STATE of a composite (R154). `admitted` is an entry whose admission takes effect at the next tick boundary (R60). -/
inductive CompState where
  | free | admitted | idle | running | slate | draining
  deriving DecidableEq, Repr

/-- What a visible VIDEO layer shows in a frame (R163, R164, R166): the buffer held, or its placeholder, or its fill. -/
inductive LayerShow where
  | held (buffer : Nat)
  | placeholder
  | fillOnly (buffer : Nat)
  deriving DecidableEq, Repr

/-- A frame of a composite: its schedule, its generation, its buffer, the display list in force at its boundary with the signatures of its regions, what its
layers show by Z, the region CRCs so far, whether a picture composed in has CONCEALED set, and whether it is a slate frame. -/
structure CompFrame where
  sched : Schedule
  generation : Nat
  buffer : Nat
  list : DisplayList
  signatures : List Nat
  shows : List (Nat × LayerShow)
  crcs : List Nat
  concealed : Bool
  slate : Bool
  deriving DecidableEq, Repr

/-- A display list with the signatures of its regions and the generation they were computed from (R172). -/
structure SignedList where
  list : DisplayList
  signatures : List Nat
  generation : Nat
  deriving DecidableEq, Repr

/-- A composite entry (R154) with its working state. `shows` lists, by Z, what the layers show; `placeholderRun` the Z of the
layers whose run of placeholder frames goes on (R164). `pictures` counts the frames begun, and `queue` holds those that wait for the one before to end (R63). -/
structure Composite where
  state : CompState
  spec : CompositeSpec
  veil : Nat
  visorRun : Nat
  current : Option Nat
  frames : Nat
  withheld : Nat
  skipped : Nat
  listCount : Nat
  inForce : Option SignedList
  awaiting : Option DisplayList
  signed : Option SignedList
  listReadyAt : Nat
  shows : List (Nat × LayerShow)
  placeholderRun : List Nat
  slateDue : Bool
  job : Option CompFrame
  pictures : Nat
  queue : List CompFrame
  lateRun : Nat
  deriving DecidableEq, Repr

/-! ### Video encode (chapter 07) -/

/-- The last frame sent of one kind and temporal layer (R198): its QP, its bits and the bits of its rows. -/
structure PastFrame where
  key : Bool
  temporal : Nat
  qp : Nat
  bits : Nat
  rowBits : List Nat
  deriving DecidableEq, Repr

/-- The rate control of one spatial layer (R196, R197): fullness F, debt D, the last frame sent of each kind and temporal layer, and the
reference pictures: temporal layer and buffer, and the final vectors of the frame before, in raster order (R193). -/
structure LayerRate where
  fullness : Nat
  debt : Nat
  past : List PastFrame
  refs : List (Nat × Nat)
  field : List (Int × Int × Int)
  deriving DecidableEq, Repr

/-- One spatial layer of the frame being coded (R197 to R201): its buffer, what it may spend, its starting QP and its present one, the weights that
split its budget over its rows, what its rows took, the buffer that it predicts from, the final vectors of its blocks so far, its coded rows, and the work of
a suspended job (R187). -/
structure LayerFrame where
  buffer : Nat
  reference : Option Nat
  vectors : List (Int × Int × Int)
  budget : Nat
  cap : Nat
  debtAfter : Nat
  qpStart : Nat
  qp : Nat
  rowWeights : List Nat
  rowBits : List Nat
  austere : Bool
  dropped : Bool
  coded : List (List Byte)
  held : Option EncodeWork
  deriving DecidableEq, Repr

/-- The frame an encode stream is coding: its schedule, its generation, the local time of the boundary that began it, its kind and temporal
layer, the source's buffer and picture, its layers, the rows of each, and the keyframe requests that it answers. -/
structure EncodeFrame where
  sched : Schedule
  generation : Nat
  stamp : Nat
  key : Bool
  temporal : Nat
  source : Nat
  picture : Nat
  layers : List LayerFrame
  layerRows : List Nat
  keyUpTo : Nat
  deriving DecidableEq, Repr

/-- An encode stream entry (R179) with its working state. Keyframe requests are counted as they reach the encoder (`keyAsked`), those
that had at the last tick boundary (`keyKnown`), and those that a keyframe has answered (`keyServed`): KEY_PENDING is set while the first and the last differ
(R184). `pattern` is the position in the temporal pattern (R191);
`startDue` holds the local times of the starts of the frames that wait for the one before to end, with their schedules (R63). -/
structure EncodeStream where
  state : StreamState
  spec : EncodeSpec
  cluster : Nat
  width : Nat
  height : Nat
  reservedBuffers : Nat
  keyAsked : Nat
  keyKnown : Nat
  keyServed : Nat
  keyframe : KeyframeState
  layers : List LayerRate
  frames : Nat
  keyframes : Nat
  skipped : Nat
  sinceKey : Nat
  pattern : Nat
  nextRate : Option EncodeRate
  lastSource : Option (Nat × Nat)
  startDue : List (Nat × Schedule)
  pictures : Nat
  current : Option Nat
  job : Option EncodeFrame
  lateRun : Nat
  deriving DecidableEq, Repr

/-! ### Audio (chapter 08) -/

/-- A trusted packet of an audio leg on its way to the jitter buffer, with its arrival stamp (R214, R39). -/
structure ArrivedPacket where
  seq : Nat
  timestamp : Nat
  marker : Bool
  payload : List Byte
  arrival : Nat
  deriving DecidableEq, Repr

/-- A coded packet in a jitter buffer (R214): the media time in ns of its next frame, the duration of a frame in microseconds, the frames still to be decoded,
whether the packet is none that the codec allows, and whether it holds LBRR data of the frame before it that no engine has taken. -/
structure JitterPacket where
  seq : Nat
  media : Int
  frameUs : Nat
  frames : List (List Byte)
  bad : Bool
  lbrr : Bool
  deriving DecidableEq, Repr

/-- A mix period of a source that is still to be decoded: its number, and the media time that plays at its start; none where no packet has set one. -/
structure PlayWindow where
  period : Nat
  media : Option Int
  deriving DecidableEq, Repr

/-- An audio source entry (R209) with its jitter buffer, decoder, meters and routes. `lastMedia` is the last RTP timestamp, unwrapped; `pcm` holds decoded samples by
the media time of the first; `windows` the periods still to be decoded and `blocks` those decoded and bridged, by their numbers; `up16` and `up48` the last
samples that entered the bridges up; `fade` the periods of the fade to comfort noise that are done; `squares` the sums of squares of the last 20 periods,
newest first; `floors` those of the last 10 s in 100 ms windows. -/
structure AudioSource where
  state : Life
  cluster : Nat
  mode : Nat
  gain : Int
  jbTarget : Nat
  jbCurrent : Nat
  frames : Nat
  concealedMs : Nat
  noiseMs : Nat
  late : Nat
  arrived : List ArrivedPacket
  packets : List JitterPacket
  codec : Nat
  pcm : List (Int × List Int)
  windows : List PlayWindow
  blocks : List (Nat × List Int)
  up16 : List Int
  up48 : List Int
  fade : Nat
  lateRun : Nat
  transit : List (Nat × Int)
  lastTimestamp : Option Nat
  lastMedia : Int
  lastSeq : Nat
  durationUs : Nat
  lastRecompute : Nat
  lastAdjust : Nat
  concealRun : Nat
  noise : Bool
  squares : List Nat
  window : List Nat
  floors : List Nat
  rms : Int
  peak : Nat
  heldPeak : Nat
  heldFor : Nat
  nextRoute : Option (Nat × Int)
  drainPeriods : Nat
  deriving DecidableEq, Repr

/-- A talker's slot (R222): its leg, the mix periods it has held the slot, and for how many it has not been eligible. -/
structure Talker where
  leg : Nat
  held : Nat
  ineligible : Nat
  deriving DecidableEq, Repr

/-- A format of a mix (R211): codec and rate. -/
structure MixFormat where
  codec : Nat
  rate : Nat
  deriving DecidableEq, Repr

/-- An encode instance (R211, R225): the mix that its limiter puts out next, the limiter's gain with 16 fraction bits, the last samples that entered the bridges
down, the encoder's input of the frame that is being filled and of the one that is being coded, and the state of its codec. -/
structure EncodeInstance where
  ahead : List Int
  gain : Nat
  down48 : List Int
  down16 : List Int
  frame : List Int
  coding : List Int
  codec : Nat
  deriving DecidableEq, Repr

/-- A mix entry (R210) with its talkers, the gains in force in the last period (R227), the sums of the last period (R224), its encode instances by format and slot,
those whose set of legs has changed, the instance of each leg (R223), and the talker export (R229). `periods` holds the mix periods still to be mixed, with
their indices; `frameFirst` the first index of the frame being filled; the frames of `due` begin at index `dueFirst`. -/
structure Mix where
  state : Life
  home : Nat
  spec : MixSpec
  formats : List (Option MixFormat)
  encoded : Nat
  slots : List (Option Talker)
  gains : List (Nat × Nat)
  sums : List (List Int)
  changed : List (Nat × Nat)
  legSlots : List (Nat × Nat)
  recordAt : Option Nat
  recordWritten : Nat
  recordDirty : Bool
  recordTick : Nat
  instances : List ((Nat × Nat) × EncodeInstance)
  periods : List (Nat × Nat)
  frameFirst : Option Nat
  due : List (Nat × Nat)
  dueFirst : Nat
  dueSlots : List (Nat × Nat)
  dueChanged : List (Nat × Nat)
  dueSince : Nat
  dueGeneration : Nat
  lateRun : Nat
  lost : Bool
  deriving DecidableEq, Repr

/-! ### Mitten lanes and the Hatstand (chapter 09) -/

/-- A transfer of FETCH or PUT that is outstanding (R243). -/
structure Transfer where
  isPut : Bool
  localAddr : Nat
  address : Nat
  words : Nat
  deriving DecidableEq, Repr

/-- A register bank (R235, R236). `rot0` and `rot1` say that the active loop of a level carries ROTATE; `fenced` says that
the lane waits for the bank's transfers, and `waitNext` the WAIT that does. -/
structure Bank where
  d : List Word
  a : List Int
  p : List Nat
  s : List Int
  b : List Nat
  l : List Nat
  z : Bool
  n : Bool
  c : Bool
  v : Bool
  aov : Bool
  dq : Bool
  resumedHere : Bool
  rot : Nat
  lc0 : Nat
  ls0 : Nat
  le0 : Nat
  lc1 : Nat
  ls1 : Nat
  le1 : Nat
  rot0 : Bool
  rot1 : Bool
  link : Nat
  wake : Nat
  farError : Bool
  pc : Nat
  transfers : List Transfer
  fenced : Bool
  waitNext : Option (Nat × Nat)
  deriving DecidableEq, Repr

/-- Which register bank of a lane runs. -/
inductive BankId where
  | normal | slot0 | slot1
  deriving DecidableEq, Repr

/-- A Mitten lane (R232): its banks, its local memory, the threads that run in the normal bank and in the privileged
banks, which bank issues, and its load. -/
structure Lane where
  normal : Bank
  slot0 : Bank
  slot1 : Bank
  mem : List Host.Cell
  thread : Option Nat
  priv0 : Option Nat
  priv1 : Option Nat
  active : Option BankId
  lastNormal : Option Nat
  run : Nat
  runPriv : Nat
  busy : Nat
  lastBusy : Nat
  history : List Nat
  deriving DecidableEq, Repr

/-- STATE of a thread (R251). -/
inductive ThreadState where
  | free | ready | running | waiting | delayed | faulted
  deriving DecidableEq, Repr

/-- A thread entry (R251) with its reason to wake (R253), its lane if it is privileged, its affinity (R256) and what its job was woken
by. -/
structure Thread where
  state : ThreadState
  priority : Nat
  cluster : Nat
  lastLane : Option Nat
  entry : Nat
  privileged : Bool
  slot : Nat
  lane : Nat
  hostStarted : Bool
  fault : Nat
  pc : Nat
  arg : Nat
  generation : Nat
  digest : Nat
  wake : Nat
  reason : Nat
  eventNo : Nat
  deadline : Option Nat
  lateRun : Nat
  readyAt : Nat
  affinity : Bool
  stopping : Bool
  ending : Bool
  deriving DecidableEq, Repr

/-- The Hatstand: threads, ready lists by 64 x cluster + priority, and latched events by 64 x cluster + event. -/
structure MittenState where
  lanes : Table Lane
  threads : Table Thread
  ready : Table (List Nat)
  latched : List Nat
  deriving DecidableEq, Repr

/-! ### Ingress (chapter 10) -/

/-- A 64-byte Cuff word (R268): its valid bytes and its tag. `boundary` is the model's own: at a preface, the boundary count of the tick in which its frame
was stamped. -/
structure CuffWord where
  data : List Byte
  preface : Bool
  last : Bool
  boundary : Nat
  deriving DecidableEq, Repr

/-- The preface of a frame (R269). -/
structure Preface where
  length : Nat
  port : Nat
  queue : Nat
  fcsBad : Bool
  ptpEvent : Bool
  stamp : Nat
  xgemPort : Nat
  sequence : Nat
  deriving DecidableEq, Repr

/-- A Cuff (R271, R272): the words written and not released in each bank, oldest first, with their bank; the words the MAC or PON logic
still has to write; how many words of its bank the writer has filled; whether it stalls; the sequence number; whether
the reader discards words until a preface; and the part of a frame already streamed. -/
structure Cuff where
  words : List (Bool × CuffWord)
  waiting : List CuffWord
  bank : Bool
  filled : Nat
  stalled : Bool
  sequence : Nat
  resync : Bool
  gathered : List CuffWord
  poisoned : Bool
  marked : Bool
  deriving DecidableEq, Repr

/-- A classification entry (R285). `activeAt` is the boundary count from which an entry made by directive serves (R286). -/
structure ClassEntry where
  path : Nat
  template : Nat
  resultKind : Nat
  target : Nat
  arg : Nat
  genFirst : Nat
  key : List Byte
  genLast : Nat
  anyGen : Bool
  activeAt : Nat
  deriving DecidableEq, Repr

/-- A fragment entry (R281, R282): its datagram, the engine that holds it, the offsets and lengths of the parts gathered in its area of near memory, and the stored decision: a leg, a tunnel (R324), or none. -/
structure FragEntry where
  closed : Bool
  engine : Nat
  protocol : Nat
  id : Nat
  source : Nat
  dest : Nat
  first : Nat
  parts : List (Nat × Nat)
  total : Option Nat
  leg : Option Nat
  tunnel : Option Nat
  generation : Nat
  participant : Nat
  deriving DecidableEq, Repr

/-- An inner packet in a recirculation queue (R291). -/
structure Recirculated where
  label : Nat
  tunnel : Nat
  generation : Nat
  stamp : Nat
  port : Nat
  bytes : List Byte
  deriving DecidableEq, Repr

/-- The ingress path: Cuffs, MAC receive buffers in bytes used, classification and fragment entries, slots reserved for a pending
image (bucket and rule), recirculation queues by engine, and the indirection table. -/
structure IngressState where
  cuffs : Table Cuff
  classify : Table ClassEntry
  reservedSlots : List Nat
  fragments : Table FragEntry
  recirc : Table (List Recirculated)
  lastCuff : Table Nat
  indirection : List (Nat × Nat)
  deriving DecidableEq, Repr

/-! ### Cipher cores and the Palm (chapter 11) -/

/-- STATE of a Palm slot (R309). -/
inductive SlotState where
  | empty | loading | resident | stale
  deriving DecidableEq, Repr

/-- A Palm slot (R309, R314 to R317). -/
structure PalmSlot where
  state : SlotState
  pinned : Bool
  entry : Nat
  version : Nat
  usage : Nat
  refs : Nat
  lastUse : Nat
  useOrder : Nat
  loadedAt : Nat
  shares : Nat
  deriving DecidableEq, Repr

/-- An accepted job: its order of acceptance, its cluster, whether its key was loaded for it, the slot it references (none while its miss waits). -/
structure CipherJob where
  id : Nat
  missed : Bool
  cluster : Nat
  port : Nat
  desc : JobDesc
  purpose : JobPurpose
  entry : Nat
  version : Nat
  slot : Option Nat
  deriving DecidableEq, Repr

/-- A miss that waits for a slot (R315): its cluster, entry and VERSION. -/
structure WaitingMiss where
  cluster : Nat
  entry : Nat
  version : Nat
  deriving DecidableEq, Repr

/-- SRTP state of a leg (R306). `started` says that a packet has been accepted. -/
structure SrtpState where
  roc : Nat
  highest : Nat
  window : Nat
  started : Bool
  srtcpIndex : Nat
  srtcpWindow : Nat
  deriving DecidableEq, Repr

/-- The SRTP state of a leg without traffic: created zero (R306). -/
def SrtpState.zero : SrtpState := { roc := 0, highest := 0, window := 0, started := false, srtcpIndex := 0, srtcpWindow := 0 }

/-- The cipher clusters. `rtx` holds the SRTP states of the legs' RFC 4588 streams, `delivered` the 16 bytes of the last completion written to each port
(R303). `versions` and `pins` hold VERSION and PIN of the wrapped key entries (R311); `replacing` the keys that replace others from
the boundary at which they become usable (R316); `loads` the load
queue (pinned requests apart), by slot. -/
structure CipherState where
  slots : Table PalmSlot
  versions : Table Nat
  pins : Table Nat
  jobs : List CipherJob
  submitted : List JobPurpose
  nextId : Nat
  pinnedLoads : List Nat
  loads : List Nat
  missWaits : List WaitingMiss
  replacing : List (Nat × KeyEntry)
  srtp : Table SrtpState
  rtx : Table SrtpState
  delivered : Table (List Byte)
  coreBusy : Table Nat
  coreLast : Table Nat
  coreHistory : Table (List Nat)
  portBusy : Table Nat
  portLast : Table Nat
  portHistory : Table (List Nat)
  order : Nat
  deriving DecidableEq, Repr

/-! ### Gauntlet tunnels (chapter 12) -/

/-- STATE of a tunnel (R322). -/
inductive TunnelState where
  | free | admitted | active | draining
  deriving DecidableEq, Repr

/-- A packet or message waiting in a tunnel's Band queue, with the boundary count of its queueing (R330, R346): its
label and its bytes. -/
structure TunnelItem where
  label : Nat
  bytes : List Byte
  queuedAt : Nat
  leg : Option Nat
  deriving DecidableEq, Repr

/-- A packet being reassembled from segments (R335). -/
structure Partial where
  label : Nat
  bytes : List Byte
  deriving DecidableEq, Repr

/-- A tunnel frame that has been built (R346): its sequence, the local time of its slot, its epoch, the UP flag it carries, its segment area (with the tag
once it is encrypted), whether it holds filler alone, and whether it is encrypted. -/
structure BuiltFrame where
  sequence : Nat
  slot : Nat
  epoch : Nat
  up : Bool
  area : List Byte
  filler : Bool
  sealed_ : Bool
  deriving DecidableEq, Repr

/-- A tunnel entry (R322) with its replay window (R332), epochs (R333), queue and partial packets. `window` lists the accepted
sequences of the last 4,096; `built` the frames that wait for their encryption or their slot,
and `builtUntil` the boundary count up to which frames have been built. -/
structure Tunnel where
  state : TunnelState
  spec : TunnelSpec
  pinned : Bool
  up : Bool
  peerUp : Bool
  keyed : Bool
  nextKeyed : Bool
  epochCurrent : Nat
  epochNext : Nat
  sendEpoch : Nat
  nextSendEpoch : Option Nat
  keyCurrent : Nat
  keyNext : Nat
  oldEpoch : Option (Nat × Nat)
  oldUntil : Nat
  heldKey : Option KeyEntry
  sendSeq : Nat
  rxHigh : Nat
  rxAny : Bool
  window : List Nat
  lastValid : Nat
  lastValidBoundary : Nat
  peerDownRaised : Bool
  rtt : Int
  offset : Int
  framesSent : Nat
  framesReceived : Nat
  framesRejected : Nat
  downCount : Nat
  queue : List TunnelItem
  sending : Option (Nat × List Byte)
  sendingLeg : Option Nat
  reassembly : Option Partial
  echo : Option (Nat × Nat)
  built : List BuiltFrame
  builtUntil : Nat
  deriving DecidableEq, Repr

/-- A TUNNEL_END frame on its way to the Gauntlet block: its tunnel, its bytes from the header to the tag, the stamp of its preface with the boundary
count of the tick that held it, its port and its generation. -/
structure TunnelArrival where
  tunnel : Nat
  frame : List Byte
  stamp : Nat
  boundary : Nat
  port : Nat
  generation : Nat
  deriving DecidableEq, Repr

/-- The tunnels, the frames that arrive, and the sequence floor and the last GAUNTLET token COUNTER of each tunnel ID (R323). -/
structure GauntletState where
  tunnels : Table Tunnel
  arrivals : List TunnelArrival
  floors : Table Nat
  counters : Table Nat
  deriving DecidableEq, Repr

/-! ### Egress scheduling in the Band (chapter 13) -/

/-- The aggregate entry of a participant (R339): its routing fields, FINISH by class, and counts. -/
structure Aggregate where
  spec : AggSpec
  finish : List Nat
  bytesSent : Nat
  packetsSent : Nat
  drops : Nat
  deriving DecidableEq, Repr

/-- A packet in a leg queue (R341): its RTP fields, `roc` the rollover count of its index (R306), `head` the first byte of its header, and whether it is a packet of RTCP. -/
structure LegPacket where
  seq : Nat
  roc : Nat
  timestamp : Nat
  ssrc : Nat
  pt : Nat
  marker : Bool
  payload : List Byte
  stamp : Nat
  rtcp : Bool
  head : Nat
  deriving DecidableEq, Repr

/-- The queue of a leg with its NEXT_ELIGIBLE (R342) and whether it waits on the overflow list. -/
structure LegQueue where
  packets : List LegPacket
  nextEligible : Nat
  overflow : Bool
  inWheel : Bool
  deriving DecidableEq, Repr

/-- A packet released to the ciphers and not yet in a class queue (R344, R360). -/
structure Released where
  engine : Nat
  leg : Nat
  cluster : Nat
  packet : LegPacket
  deriving DecidableEq, Repr

/-- A packet in a class queue (R347, R348). `agg` is the aggregate index; `length` the frame on the wire including FCS;
`tunnel` marks a tunnel frame; `waited` says that GATE_WAITS has counted it and `headSince` since when (ns) it has stood
at the head while a window of its class opened. -/
structure ClassPacket where
  agg : Nat
  length : Nat
  bytes : List Byte
  stamp : Nat
  finish : Nat
  tunnel : Bool
  waited : Bool
  headSince : Option Nat
  fragment : Bool
  leg : Option Nat
  rtcp : Bool
  deriving DecidableEq, Repr

/-- One class of one egress point (R348). -/
structure ClassQueue where
  packets : List ClassPacket
  v : Nat
  deriving DecidableEq, Repr

/-- A shaper (R355): rate in kbit/s, burst in bytes, credit in units of 1/8,000,000 of a byte (so that a credit
gained over whole ns at whole kbit/s is exact), and the time of the credit in ns. -/
structure Shaper where
  rate : Nat
  burst : Nat
  credit : Int
  at_ : Nat
  deriving DecidableEq, Repr

/-- The gate list in force at an egress point, the one that will replace it and when (R353). -/
structure GateState where
  current : Option GateList
  next : Option (Option GateList × Nat)
  entry : Nat
  deriving DecidableEq, Repr

/-- The Band: aggregates by participant; leg queues; released packets by engine; class queues and finish times of tunnel
and system aggregates by 8 x egress point + class; shapers by 9 x egress point + class; gates; when each
egress point is free (in ps); link-down runs; and the next boundary's shaper changes. -/
structure BandState where
  aggregates : Table Aggregate
  legQueues : Table LegQueue
  released : List Released
  classQueues : Table ClassQueue
  finishes : List (Nat × Nat × Nat)
  shapers : Table Shaper
  gates : Table GateState
  freeAt : Table Nat
  downRun : List Nat
  batchCount : Nat
  releaseAll : Bool
  wheelSlot : Nat
  deriving DecidableEq, Repr


/-! ### Ethernet ports and PON ports (chapters 14 and 15) -/

/-- The working state of a MAC: since when its class queues have been empty, until when it wakes, when its link went down, and the
second in which FEC_DEGRADED was last raised. -/
structure EthPort where
  idleSince : Nat
  wakeUntil : Nat
  downAt : Option Nat
  degradedSecond : Option Nat
  deriving DecidableEq, Repr

/-- A candidate of the PSync hunt (R379): where it is checked next, and its matches so far. -/
structure Candidate where
  next : Nat
  matches_ : Nat
  deriving DecidableEq, Repr

/-- An entry of the Port-ID table (R382). -/
structure PonPortId where
  portId : Nat
  direction : Nat
  queue : Nat
  flags : Nat
  frames : Nat
  deriving DecidableEq, Repr

/-- A key of the TC layer (R392): its index, whether it is the broadcast key, and which key it is. -/
structure PonKey where
  index : Nat
  broadcast : Bool
  key : Nat
  deriving DecidableEq, Repr

/-- An upstream PLOAM message in its queue (R386), by kind, with its values. -/
structure PloamUp where
  kind : Nat
  values : List Nat
  deriving DecidableEq, Repr

/-- A grant (R388): its Alloc-ID, the superframe whose BWmap gave it, its first bit in the upstream frame, its bits, its flags, and whether the Band has
filled it. -/
structure Grant where
  allocId : Nat
  superframe : Nat
  start : Nat
  bits : Nat
  ploamU : Bool
  dbru : Bool
  filled : Bool
  deriving DecidableEq, Repr

/-- A burst window (R388): from when to when, in local ns, and its grants. -/
structure Burst where
  on : Nat
  off : Nat
  grants : List Grant
  sent : Bool
  deriving DecidableEq, Repr

/-- The frame that a grant's Alloc-ID is fragmented over (R354): the bytes left to send. -/
structure Fragment where
  allocId : Nat
  cls : Nat
  data : List Byte
  portId : Nat
  deriving DecidableEq, Repr

/-- A PON port. Positions of the hunt are in bits; times in local ns. `tod` holds the bindings whose PSync has not arrived (R398), `omciQueue` the
OMCI messages of the host that wait for a grant; `stamps` holds the superframe count and the stamp of each PSync of
the last 8,192 frames, newest first; `losSince` since when PON_x_RX_LOS has been high, `msk` the master session key that the mutual authentication has
given (none for the default one) and `auth` its state (R392). -/
structure PonPort where
  candidates : List Candidate
  missRun : Nat
  to1 : Option Nat
  to2 : Option Nat
  profiles : List BurstProfile
  ploamQueue : List PloamUp
  nextEqd : Option Nat
  allocs : List (Option Nat)
  classMap : List (Option Nat)
  portIds : Table PonPortId
  keys : List PonKey
  registration : List Byte
  superframe : Nat
  stamps : List (Nat × Nat)
  assembling : Table (List Byte × Nat)
  bursts : List Burst
  fragments : List Fragment
  burstEn : Bool
  trips : Nat
  tod : List TodBinding
  omciQueue : List (List Byte)
  omciTimes : List Nat
  lossSince : Option Nat
  losSince : Option Nat
  msk : Option Nat
  auth : Nat
  deriving DecidableEq, Repr

/-- The PON ports and the protected pair (R399). -/
structure PonState where
  portA : PonPort
  portB : PonPort
  activeB : Bool
  switchRequested : Bool
  deriving DecidableEq, Repr

/-! ### Near memory, Lining, Glovebox and DMA (chapters 16 and 17) -/

/-- The Crown (R21 to R23): the input that each engine port served last, the cycle at which each credited port last used its credit, the errors
corrected and the flits replayed on each link, and the PORT_OFF responses counted at each sender. -/
structure CrownState where
  lastInput : Table Nat
  credit : Table Nat
  corrected : Table Nat
  replays : Table Nat
  portOff : Table Nat
  deriving DecidableEq, Repr

/-- A request in a queue of a channel (R405, R406), with its arrival in ns, its bank and row, the reading of the clock at its arrival, and its place
in the order of all arrivals. -/
structure QueuedRequest where
  request : MemRequest
  bank : Nat
  row : Nat
  arrived : Nat
  cycle : Nat
  order : Nat
  deriving DecidableEq, Repr

/-- A spare row in use (R415, R420). -/
structure SpareRow where
  row : Nat
  tick : Nat
  corrected : Nat
  deriving DecidableEq, Repr

/-- A bank of near memory: its debt (R410), its open row, the instants before which it takes no activation or command, its
corrected errors by bucket of 1,000 ticks (bucket number and count), the rows of its last four corrected errors,
newest first, the rows and buckets of uncorrectable ones, its spare rows, whether it has met a crossing with no spare left, and whether the crossing
that its window count stands above has been answered. -/
structure MemBank where
  debt : Nat
  open_ : Option Nat
  busyUntil : Nat
  lastActivate : Nat
  lastDue : Option Nat
  buckets : List (Nat × Nat)
  lastRows : List Nat
  uncorrectable : List (Nat × Nat)
  spares : List SpareRow
  noSpare : Bool
  answered : Bool
  deriving DecidableEq, Repr

/-- A channel of near memory: its queues, oldest first, whether its writes drain, the bank whose row it precharges for a refresh, when it last refreshed,
until when a step or a change of set point holds it, when the set that a step in progress replaces was trained, its scrub position and the start of its
scrub period, the times of its exhausted retries, and when each set point's set was last trained or tracked. -/
structure MemChannel where
  reads : List QueuedRequest
  writes : List QueuedRequest
  draining : Bool
  precharging : Option Nat
  lastRefresh : Nat
  heldUntil : Nat
  replaced : Option (Option Nat)
  scrubAt : Nat
  scrubFrom : Option Nat
  exhausted : List Nat
  trained : List (Option Nat)
  deriving DecidableEq, Repr

/-- The near-memory stacks: channels by 16 x stack + channel, banks by 32 x that + bank, requests that wait in the Crown, the poisoned
words, the start of each stack's catch-up, a change of set point in progress, and the number of requests that have reached a queue. -/
structure NearState where
  channels : Table MemChannel
  banks : Table MemBank
  crown : List (Nat × MemRequest)
  poisoned : List Nat
  catchupFrom : Table Nat
  lastReading : Table Nat
  change : Option (Deferred × Nat × Nat)
  retraining : Bool
  arrivals : Nat
  deriving DecidableEq, Repr

/-- A Lining bank (R421, R428): its corrected errors by bucket, last rows, uncorrectable rows, spared rows, whether it has met a crossing with no spare
left and has answered the crossing that its count stands above, and the port it served last. -/
structure LiningBank where
  buckets : List (Nat × Nat)
  lastRows : List Nat
  uncorrectable : List (Nat × Nat)
  spares : List Nat
  noSpare : Bool
  answered : Bool
  lastPort : Nat
  deriving DecidableEq, Repr

/-- The Lining: banks by 64 x group + bank, a march in progress (group, form, the state the group had, and the local time at which it ends), requests that wait, and the groups that another
serves (R426). -/
structure LiningState where
  banks : Table LiningBank
  march : Option (Nat × Nat × Nat × Nat)
  waiting : List (Nat × LiningRequest)
  substitutes : Table Nat
  deriving DecidableEq, Repr

/-- A page frame (R431). -/
structure PageFrame where
  page : Nat
  dirty : Bool
  lastUse : Nat
  data : List Host.Cell
  deriving DecidableEq, Repr

/-- A page fetch in progress (R431, R433) with the requests that share it and the retries so far. -/
structure PageFetch where
  page : Nat
  requests : List MemRequest
  retries : Nat
  deriving DecidableEq, Repr

/-- An archive-pages directive in progress (R435). -/
structure ArchiveJob where
  who : Deferred
  next : Nat
  left : Nat
  written : Nat
  key : Nat
  dest : Nat
  deriving DecidableEq, Repr

/-- The Glovebox: frames by number, fetches, page versions, the clear contents of each page that stands sealed in host memory, archive
sequences by key entry, and the order of use. -/
structure GloveState where
  frames : Table PageFrame
  fetches : List PageFetch
  versions : Table Nat
  sequences : Table Nat
  archive : List ArchiveJob
  order : Nat
  deriving DecidableEq, Repr

/-- One access of a DMA channel that is in flight: a read of `n` bytes, or a write of the bytes in front of the funnel. -/
inductive DmaAccess where
  | read (address n : Nat)
  | write (address n : Nat)
  deriving DecidableEq, Repr

/-- A DMA channel (R436 to R442) at work: the address of the descriptor being fetched or run, the descriptor, the bytes read and
written, the funnel, the access in flight, its retries, and whether it runs downwards. -/
structure DmaChannel where
  at_ : Nat
  desc : Option Descriptor
  readDone : Nat
  written : Nat
  funnel : List Byte
  access : Option DmaAccess
  retries : Nat
  down : Bool
  waiting : Bool
  abort : Bool
  deriving DecidableEq, Repr

/-- The DMA channels that run or wait, and the channel each engine served last. -/
structure DmaState where
  channels : Table DmaChannel
  last : List Nat
  deriving DecidableEq, Repr

/-! ### The whole device -/

/-- A directive whose effect waits for the next tick boundary (R60), with what its evaluation has decided. -/
structure Effect where
  directive : Directive
  info : List Nat
  deriving DecidableEq, Repr

/-- The state of the device. `modeRequests` are the changes of mode that wait for a tick boundary with their reasons (R475);
`warming` says that a warm reset has ended service and Proving has not begun. -/
structure State where
  mode : Mode
  modeRequests : List (Mode × Nat)
  warming : Bool
  regs : Table Nat
  host : HostState
  time : TimeState
  trust : TrustState
  faults : FaultState
  proving : ProvingState
  power : PowerState
  ledger : List Charge
  mem : List Host.Cell
  rooms : Table Room
  participants : Table Participant
  legs : Table Leg
  decodes : Table DecodeStream
  buffers : Table Buffer
  composites : Table Composite
  encodes : Table EncodeStream
  audio : Table AudioSource
  dither : Table Nat
  mixes : Table Mix
  mitten : MittenState
  ingress : IngressState
  cipher : CipherState
  gauntlet : GauntletState
  band : BandState
  eth : Table EthPort
  pon : PonState
  crown : CrownState
  near : NearState
  lining : LiningState
  glove : GloveState
  dma : DmaState
  effects : List Effect
  out : List Output
  freeCount : Nat
  pending : List Instr
  deriving DecidableEq, Repr

/-- A time source that has measured nothing. -/
def TimeSource.reset : TimeSource :=
  { qualified := false, offset := none, measuredAt := 0, count := 0, refusals := 0, jumpOnly := false, candidateSince := none }

/-- The PTP engine after a reset. -/
def PtpState.reset : PtpState :=
  { masters := [], selected := none, syncSeq := 0, syncIngress := none, syncOrigin := none, requestSeq := 0, requestSent := none,
    peerRequestReceipt := none, peerResponseIngress := none, pathDelay := none, syncSecond := 0, syncCount := 0, minDelayLog := none, peerCorrection := 0,
    nextRequest := 0 }

/-- The time block after a cold reset: the local clock at zero (R40), INCREMENT nominal (R38). -/
def TimeState.reset : TimeState :=
  { clock := 0, increment := 0xA0000000, correction := 0, nextCorrection := none, tickCount := 0, boundaries := 0, shortTick := false,
    pendingStep := none, ptp := .reset, ponA := .reset, ponB := .reset, pps := .reset, engine := .reset,
    lockRun := 0, holdoverSince := 0, lastOffset := 0, lastEdge := none, ppsFrequency := false, nextSecond := none, ppsOutUntil := none, tickOutUntil := none,
    ppsOut := false, tickOut := false, lastPpsSecond := 0, boundaryAt := 0, boundaryPrev := 0, once := [], mixCount := 0, mixIndex := 0, stepTotal := 0 }

/-- The host side after a reset: the PCIe link is down, every ring idle. -/
def HostState.reset : HostState :=
  { linkUp := false, waiting := [], deferred := [], lostSince := 0, cplSince := 0, cplFirst := none, evtSince := 0, evtFirst := none,
    statsSince := 0, statsFirst := none, msix := [], msixPending := 0, nonceDraw := 0, rateLog := [], authSecond := 0, authCount := 0,
    fetched := 0, queries := [], queryData := [], copies := [] }

/-- The fuses of a part as it leaves the factory under an ordering code (R1, R2, R77, R79): BLANK, or DEVELOPMENT for a -DV part; no customer
anchor, a count of zero. -/
def Fuses.factoryOf (is8832 gradeI dv : Bool) : Fuses :=
  { is8832 := is8832, gradeI := gradeI, dv := dv, lifecycle := if dv then 1 else 0, anchor := none, rollback := 0,
    certificate := Config.certificate, flash := [] }

/-- The fuses of the part that the model starts with: a grade E PSX-8840 that is not a -DV part. -/
def Fuses.factory : Fuses := Fuses.factoryOf false false false

/-- No generation has taken effect. -/
def Generation.none : Generation := { number := 0, programs := [], tables := [], policy := [], digests := [], since := 0, half := 0 }

/-- The Kuthastan core after a cold reset. -/
def TrustState.reset (f : Fuses) : TrustState :=
  { fuses := f, full := none, accepted := false, held := none, verifying := [], pendingPartial := none, codeSince := none, current := .none, old := none,
    flashWrites := [], keks := [], tableKek := none, pageKey := none, keys := [], counters := [], hybridSecond := 0, hybridCount := 0,
    wrappedSecond := 0, wrappedCount := 0, draws := 1, reseededAt := 0, generates := 0, startupPassed := true, attest := [],
    attestSecond := 0, attestDone := 0, zeroizing := false }

/-- No faults. -/
def FaultState.reset : FaultState :=
  { log := [], nextSeq := 0, failures := [], resetting := [], retiring := [], retired := [], fenced := [], linksFaulted := [],
    linkPending := [], autoResets := [], autoExhausted := false }

/-- Proving has not begun. -/
def ProvingState.reset : ProvingState :=
  { flashTried := 0, marchDone := false, trained := false, linksTested := false, bootIndex := 0, bootWait := .none, bootDone := false,
    failed := false }

/-- Power off. -/
def PowerState.reset : PowerState :=
  { pwrGood := false, testEn := false, selfTestDone := false, resetLow := none, resetHeld := false, pendingPoint := none,
    protectivePending := false, learned := [], marginLow := 0, lastVoltageChange := 0, agingAt := 0, rampQueue := [], ramping := [], gpioIn := 0,
    rxLos := 0, challenge := none, challengeAt := 0, unlockUntil := none, knitOpen := false, imageDue := false }

/-- No thread, every lane idle. -/
def MittenState.reset : MittenState := { lanes := [], threads := [], ready := [], latched := [] }

/-- Empty Cuffs and tables. -/
def IngressState.reset : IngressState :=
  { cuffs := [], classify := [], reservedSlots := [], fragments := [], recirc := [], lastCuff := [], indirection := [] }

/-- Empty Palm, no jobs. -/
def CipherState.reset : CipherState :=
  { slots := [], versions := [], pins := [], jobs := [], submitted := [], nextId := 0, pinnedLoads := [], loads := [], missWaits := [],
    replacing := [], srtp := [], rtx := [], delivered := [], coreBusy := [], coreLast := [], coreHistory := [], portBusy := [], portLast := [], portHistory := [],
    order := 0 }

/-- No tunnels. -/
def GauntletState.reset : GauntletState := { tunnels := [], arrivals := [], floors := [], counters := [] }

/-- Empty queues. -/
def BandState.reset : BandState :=
  { aggregates := [], legQueues := [], released := [], classQueues := [], finishes := [], shapers := [], gates := [], freeAt := [],
    downRun := [], batchCount := 0, releaseAll := false, wheelSlot := 0 }

/-- A PON port that is off. -/
def PonPort.reset : PonPort :=
  { candidates := [], missRun := 0, to1 := none, to2 := none, profiles := [], ploamQueue := [], nextEqd := none,
    allocs := [], classMap := [], portIds := [], keys := [], registration := [], superframe := 0, stamps := [], assembling := [],
    bursts := [], fragments := [], burstEn := false, trips := 0, tod := [], omciQueue := [], omciTimes := [], lossSince := none,
    losSince := none, msk := none, auth := 0 }

/-- Both PON ports off. -/
def PonState.reset : PonState := { portA := .reset, portB := .reset, activeB := false, switchRequested := false }

/-- An idle Crown. -/
def CrownState.reset : CrownState := { lastInput := [], credit := [], corrected := [], replays := [], portOff := [] }

/-- Idle near memory. -/
def NearState.reset : NearState :=
  { channels := [], banks := [], crown := [], poisoned := [], catchupFrom := [], lastReading := [], change := none, retraining := false,
    arrivals := 0 }

/-- An untested Lining. -/
def LiningState.reset : LiningState := { banks := [], march := none, waiting := [], substitutes := [] }

/-- Empty page frames. -/
def GloveState.reset : GloveState :=
  { frames := [], fetches := [], versions := [], sequences := [], archive := [], order := 0 }

/-- No channel runs. -/
def DmaState.reset : DmaState := { channels := [], last := [] }

/-- The device after a cold reset with given fuses, PWR_GOOD still low. -/
def State.cold (f : Fuses) : State :=
  { mode := .dormant, modeRequests := [], warming := false, regs := [], host := .reset, time := .reset, trust := .reset f, faults := .reset, proving := .reset,
    power := .reset, ledger := [], mem := [], rooms := [], participants := [], legs := [], decodes := [], buffers := [],
    composites := [], encodes := [], audio := [], dither := [], mixes := [], mitten := .reset, ingress := .reset, cipher := .reset,
    gauntlet := .reset, band := .reset, eth := [], pon := .reset, crown := .reset, near := .reset, lining := .reset, glove := .reset, dma := .reset,
    effects := [], out := [], freeCount := 0, pending := [] }

/-- The machine right after reset: a cold reset (R14, R475, R496), no command waiting. -/
def State.reset : State := State.cold .factory

end Sys2Proof.Machine
end

