-- ==== Sys2Proof/Machine/Ops.lean ====
section
/-!
DEFINITION. The named operations that every meaning uses: tables, the register file, the rings and their events, the
fault log, the clock, budgets, and internal memory.
-/

namespace Sys2Proof.Machine

/-! ### Tables -/

/-- The entry at an index, if one is listed. -/
def Table.get {α : Type} : Table α → Nat → Option α
  | [], _ => none
  | (j, a) :: t, k => if j = k then some a else Table.get t k

/-- The table with the entry at `k` set to `v`. -/
def Table.put {α : Type} : Table α → Nat → α → Table α
  | [], k, v => [(k, v)]
  | (j, a) :: t, k, v =>
    if k < j then (k, v) :: (j, a) :: t
    else if k = j then (k, v) :: t
    else (j, a) :: Table.put t k v

/-- The table with no entry listed at `k`. -/
def Table.del {α : Type} (t : Table α) (k : Nat) : Table α := t.filter (fun e => e.1 ≠ k)

/-- The table with the entry at `k`, if listed, changed by `f`. -/
def Table.update {α : Type} (t : Table α) (k : Nat) (f : α → α) : Table α :=
  t.map (fun e => if e.1 = k then (e.1, f e.2) else e)

/-- The table with every entry changed by `f`. -/
def Table.all {α : Type} (t : Table α) (f : Nat → α → α) : Table α := t.map (fun e => (e.1, f e.1 e.2))

/-- A list with the first element equal to `x` replaced by `y`. -/
def replaceFirst {α : Type} [DecidableEq α] (l : List α) (x y : α) : List α :=
  match l with
  | [] => []
  | a :: rest => if a = x then y :: rest else a :: replaceFirst rest x y

/-- Whether the indices rise strictly. -/
def Table.wf {α : Type} : Table α → Bool
  | [] => true
  | [_] => true
  | a :: b :: t => decide (a.1 < b.1) && Table.wf (b :: t)

/-- The lowest number below `n` that `free` accepts. -/
def lowest (n : Nat) (free : Nat → Bool) : Option Nat := (List.range n).find? free

/-- The element with the least value of `f`, the first of those that tie. -/
def leastBy {α : Type} (f : α → Int) : List α → Option α
  | [] => none
  | a :: l =>
    match leastBy f l with
    | none => some a
    | some b => if f a ≤ f b then some a else some b

/-- The list with element `i` changed by `f`. -/
def updateAt {α : Type} (l : List α) (i : Nat) (f : α → α) : List α :=
  l.mapIdx (fun j a => if j = i then f a else a)

/-- An element before the first one of a sorted list whose key is not less than its own. -/
def insertBy {α : Type} (f : α → Int) (a : α) : List α → List α
  | [] => [a]
  | b :: l => if f a ≤ f b then a :: b :: l else b :: insertBy f a l

/-- Insertion sort by a key; equal keys keep their order. -/
def sortBy {α : Type} (f : α → Int) (l : List α) : List α := l.foldr (insertBy f) []

/-! ### The clock (R38, R39, R53, R54) -/

/-- The local time in ns, as every stamp shows it (R39). -/
def now (s : State) : Nat := s.time.clock / Config.fracUnit % 2 ^ 64

/-- The local time in ns, not reduced modulo 2^64. -/
def nowNs (s : State) : Nat := s.time.clock / Config.fracUnit

/-- The number of the tick at a local time in ns (R53). -/
def tickOf (ns : Nat) : Nat := ns / Config.tickNs % 2 ^ 32

/-! ### The register file (R12 to R14) -/

/-- The value a field holds. -/
def rd (s : State) (f : Fld) : Nat := (s.regs.get f.key).getD f.reset

/-- The state with a field's value set; a field at its reset value is not listed. -/
def wr (s : State) (f : Fld) (v : Nat) : State :=
  { s with regs := if v % 2 ^ f.width = f.reset then s.regs.del f.key else s.regs.put f.key (v % 2 ^ f.width) }

/-- A counter increased by `n`, saturating at all ones. -/
def bumpBy (s : State) (f : Fld) (n : Nat) : State := wr s f (min (rd s f + n) (2 ^ f.width - 1))

/-- A counter increased by one. -/
def bump (s : State) (f : Fld) : State := bumpBy s f 1

/-- The number of the block that holds a BAR 0 offset (R449); 22 and above for no block. -/
def blockOf (off : Nat) : Nat :=
  if off < 0x50000 then off / 0x10000
  else if off < 0x100000 then 99
  else 4 + off / 0x100000

/-- The fields that stand in the register at `off`. -/
def fieldsAt (off : Nat) : List Fld := (Reg.blockFields (blockOf off)).filterMap (fun f => f.find off)

/-! ### Rings (R453 to R456) -/

/-- The registers of one ring. -/
structure Ring where
  enable : Fld
  size : Fld
  tail : Fld
  head : Fld
  deriving DecidableEq, Repr

def dirRing : Ring :=
  ⟨Reg.DIRECTIVE.DIR_CONTROL_ENABLE, Reg.DIRECTIVE.DIR_CONTROL_SIZE_LOG2, Reg.DIRECTIVE.DIR_TAIL, Reg.DIRECTIVE.DIR_HEAD⟩
def cplRing : Ring :=
  ⟨Reg.DIRECTIVE.CPL_CONTROL_ENABLE, Reg.DIRECTIVE.CPL_CONTROL_SIZE_LOG2, Reg.DIRECTIVE.CPL_TAIL, Reg.DIRECTIVE.CPL_HEAD⟩
def evtRing : Ring :=
  ⟨Reg.EVENT.EVT_CONTROL_ENABLE, Reg.EVENT.EVT_CONTROL_SIZE_LOG2, Reg.EVENT.EVT_TAIL, Reg.EVENT.EVT_HEAD⟩
def statsRing : Ring :=
  ⟨Reg.EVENT.STATS_CONTROL_ENABLE, Reg.EVENT.STATS_CONTROL_SIZE_LOG2, Reg.EVENT.STATS_TAIL, Reg.EVENT.STATS_HEAD⟩
def dlvRing : Ring :=
  ⟨Reg.EVENT.DLV_CONTROL_ENABLE, Reg.EVENT.DLV_CONTROL_SIZE_LOG2, Reg.EVENT.DLV_TAIL, Reg.EVENT.DLV_HEAD⟩

/-- Entries between the two indices of a ring. -/
def Ring.fill (s : State) (r : Ring) : Nat := (rd s r.tail + 2 ^ 32 - rd s r.head) % 2 ^ 32

/-- A ring is full when its indices differ by its number of entries (R453). -/
def Ring.full (s : State) (r : Ring) : Bool := 2 ^ rd s r.size ≤ Ring.fill s r

/-- A ring is empty when its indices are equal (R453). -/
def Ring.empty (s : State) (r : Ring) : Bool := rd s r.tail = rd s r.head

/-- The slot and the PHASE of entry `i` (R453, R454). -/
def Ring.slot (s : State) (r : Ring) (i : Nat) : Nat := i % 2 ^ rd s r.size
def Ring.phase (s : State) (r : Ring) (i : Nat) : Nat := 1 - i / 2 ^ rd s r.size % 2

/-- Something leaves the device. -/
def emit (s : State) (o : Output) : State := { s with out := o :: s.out }

/-- The name of the ball that shows BURST_EN of a PON port. -/
def burstPin (p : Nat) : String := if p = 0 then "PON_A_BURST_EN" else "PON_B_BURST_EN"

/-- Time of one byte on the wire at an Ethernet egress point, in ps (R362). -/
def bytePs (s : State) (e : Nat) : Nat :=
  match rd s (Reg.ETH.PORT_CONFIG_QUAD_MODE.on e) with
  | 1 => 800
  | 2 => 320
  | 3 => 160
  | 4 => 80
  | 5 => 40
  | 6 => 20
  | _ => 800

/-- The clock in ps. -/
def nowPs (s : State) : Nat := s.time.clock * 1000 / Config.fracUnit

/-- A frame of a port is on the wire: the egress point becomes free 12 bytes after its end. -/
def sendingFrame (s : State) (m : Nat) : Bool := decide (nowPs s + 12 * bytePs s m < (s.band.freeAt.get m).getD 0)

/-- The frame that a port is sending, if any, is lost (R365, R374). -/
def cutFrame (s : State) (m : Nat) : State := if sendingFrame s m then emit s (.cut m) else s

/-- Every frame that is being sent is lost: the transmitters are idle (R374). -/
def framesCut (s : State) : State := (List.range 16).foldl cutFrame s

/-- BURST_EN of both ports goes low, as at every reset and zeroize trigger (R400). -/
def burstsLow (s : State) : State :=
  let s := if s.pon.portA.burstEn then emit { s with pon := { s.pon with portA := { s.pon.portA with burstEn := false } } } (.pin (burstPin 0) 0) else s
  if s.pon.portB.burstEn then emit { s with pon := { s.pon with portB := { s.pon.portB with burstEn := false } } } (.pin (burstPin 1) 0) else s

/-- The state with a PON port changed. -/
def withPon (s : State) (p : Nat) (f : PonPort → PonPort) : State :=
  { s with pon := if p = 0 then { s.pon with portA := f s.pon.portA } else { s.pon with portB := f s.pon.portB } }

/-- The level of PON_x_RX_LOS; since when it is high is kept (R399). -/
def takeLos (s : State) (p : Nat) (high : Bool) : State :=
  withPon { s with power := { s.power with rxLos := if high then setBit s.power.rxLos p else clearBit s.power.rxLos p } } p
    (fun x => { x with losSince := if high then x.losSince.or (some (nowNs s)) else none })

/-- Signal an MSI-X vector (R448): it is sent, or kept pending while its entry is masked. -/
def signal (s : State) (v : Nat) : State :=
  if bitOf ((s.host.msix.get (v * 4 + 3)).getD 1) 0 = 1 then
    { s with host := { s.host with msixPending := setBit s.host.msixPending v } }
  else emit s (.msix v)

/-- One more entry of the event ring has been written: moderation of R456. MODE and FAULT events signal at
once. -/
def moderateEvt (s : State) (atOnce : Bool) : State :=
  let n := s.host.evtSince + 1
  if atOnce || rd s Reg.EVENT.EVT_CONTROL_MOD_COUNT ≤ n || rd s Reg.EVENT.EVT_CONTROL_MOD_TIME = 0 then
    signal { s with host := { s.host with evtSince := 0, evtFirst := none } } (rd s Reg.EVENT.EVT_CONTROL_VECTOR)
  else
    { s with host := { s.host with evtSince := n, evtFirst := some (s.host.evtFirst.getD (nowNs s)) } }

/-- The same for the completion ring; a completion with INTERRUPT signals at once. -/
def moderateCpl (s : State) (atOnce : Bool) : State :=
  let n := s.host.cplSince + 1
  if atOnce || rd s Reg.DIRECTIVE.CPL_CONTROL_MOD_COUNT ≤ n || rd s Reg.DIRECTIVE.CPL_CONTROL_MOD_TIME = 0 then
    signal { s with host := { s.host with cplSince := 0, cplFirst := none } } (rd s Reg.DIRECTIVE.CPL_CONTROL_VECTOR)
  else
    { s with host := { s.host with cplSince := n, cplFirst := some (s.host.cplFirst.getD (nowNs s)) } }

/-- The same for the statistics ring. -/
def moderateStats (s : State) : State :=
  let n := s.host.statsSince + 1
  if rd s Reg.EVENT.STATS_CONTROL_MOD_COUNT ≤ n || rd s Reg.EVENT.STATS_CONTROL_MOD_TIME = 0 then
    signal { s with host := { s.host with statsSince := 0, statsFirst := none } } (rd s Reg.EVENT.STATS_CONTROL_VECTOR)
  else
    { s with host := { s.host with statsSince := n, statsFirst := some (s.host.statsFirst.getD (nowNs s)) } }

/-- The KIND of an event (R465). -/
def EventData.kind : EventData → Nat
  | .register _ _ => 1
  | .packet _ _ _ _ _ _ => 2
  | .dma _ _ _ _ => 3
  | .talkers _ _ => 4
  | .overflow _ => 5
  | .mode _ _ _ => 6
  | .fault _ _ => 7

/-- The DATA of an event (R465). -/
def EventData.bytes : EventData → List Byte
  | .register offset bits => toLE 4 offset ++ toLE 4 bits
  | .packet delivery length source reason port context =>
    toLE 4 delivery ++ toLE 2 length ++ toLE 1 source ++ toLE 1 reason ++ toLE 1 port ++ zeros 1 ++ toLE 4 context
  | .dma channel reason done address => toLE 1 channel ++ toLE 1 reason ++ zeros 2 ++ toLE 4 done ++ toLE 8 address
  | .talkers room tick => toLE 2 room ++ zeros 2 ++ toLE 4 tick
  | .overflow lost => toLE 4 lost
  | .mode old new index => toLE 1 old ++ toLE 1 new ++ zeros 2 ++ toLE 4 index
  | .fault index code => toLE 4 index ++ toLE 2 code

/-- An event entry (R465). -/
def eventBytes (phase block tick stamp : Nat) (data : EventData) : List Byte :=
  toLE 2 data.kind ++ toLE 1 phase ++ toLE 1 block ++ toLE 4 tick ++ toLE 8 stamp ++ padTo 16 data.bytes

/-- A completion entry (R459). -/
def completionBytes (phase tick : Nat) (c : Completion) : List Byte :=
  toLE 4 c.tag ++ toLE 2 c.opcode ++ toLE 1 c.status ++ toLE 1 phase ++ toLE 4 c.detail ++ toLE 4 c.generation ++ toLE 8 c.result
    ++ toLE 4 c.sequence ++ toLE 4 tick

/-- A heartbeat (R469). -/
def heartbeatBytes (tick mode timeState stamp : Nat) : List Byte := toLE 4 tick ++ toLE 1 mode ++ toLE 1 timeState ++ zeros 2 ++ toLE 8 stamp

/-- Write one entry into the event ring, which has space for it. -/
def putEvent (s : State) (block stamp : Nat) (data : EventData) (atOnce : Bool) : State :=
  let i := rd s evtRing.tail
  let s := emit s (.event (Ring.slot s evtRing i) (eventBytes (Ring.phase s evtRing i) block s.time.tickCount stamp data))
  let s := wr s evtRing.tail (i + 1)
  moderateEvt (bump s Reg.EVENT.EVENTS_WRITTEN) atOnce

/-- An event that cannot be written is lost (R447, R467). -/
def loseEvent (s : State) : State :=
  bump { s with host := { s.host with lostSince := s.host.lostSince + 1 } } Reg.EVENT.EVENTS_LOST

/-- The event ring takes an entry: the link is up, the ring is enabled and not full. -/
def evtOpen (s : State) : Bool :=
  s.host.linkUp && rd s evtRing.enable = 1 && !Ring.full s evtRing

/-- Space for an event once a due OVERFLOW entry has been written (R467). -/
def evtRoom (s : State) : Bool :=
  evtOpen s && decide (Ring.fill s evtRing + (if s.host.lostSince = 0 then 1 else 2) ≤ 2 ^ rd s evtRing.size)

/-- An event arises (R465 to R467). With the link down it is counted lost (R447). With the ring full or disabled
it is counted lost and OVERFLOW is raised; the REGISTER entry of OVERFLOW itself finds the ring closed and is
lost in turn. The first entry written after a loss is an OVERFLOW entry. -/
def event (s : State) (block stamp : Nat) (data : EventData) (atOnce : Bool) : State :=
  if !s.host.linkUp then loseEvent s
  else
    let s :=
      if s.host.lostSince ≠ 0 && evtOpen s then
        putEvent { s with host := { s.host with lostSince := 0 } } 4 (now s) (.overflow (s.host.lostSince % 2 ^ 32)) false
      else s
    if evtOpen s then putEvent s block stamp data atOnce
    else
      let s := loseEvent s
      if rd s Reg.EVENT.EVENT_FLAGS_OVERFLOW = 1 then s
      else loseEvent (wr s Reg.EVENT.EVENT_FLAGS_OVERFLOW 1)

/-- Raise W1C bits of one register in one cycle: one REGISTER entry gives the bits newly set (R466). -/
def raiseAll (s : State) (fs : List Fld) : State :=
  let fresh := fs.filter (fun f => rd s f = 0)
  match fresh with
  | [] => s
  | f :: _ =>
    let bits := fresh.foldl (fun b g => setBit b g.lo) 0
    let s := fresh.foldl (fun s g => wr s g 1) s
    event s (blockOf f.off) (now s) (.register f.off bits) false

/-- Raise one W1C bit. -/
def raise (s : State) (f : Fld) : State := raiseAll s [f]

/-- A write that R450 or R453 ignores and counts. -/
def accessError (s : State) : State :=
  raise (bump s Reg.GLOBAL.ACCESS_ERRORS) Reg.GLOBAL.GLOBAL_EVENTS_ACCESS_ERROR

/-! ### Modes and the fault log (R471, R475, R479, R493) -/

/-- The code of a mode (R471). -/
def Mode.code : Mode → Nat
  | .dormant => 0
  | .proving => 1
  | .serving => 2
  | .holdover => 3
  | .mending => 4
  | .sealed => 5

/-- Serving, Holdover or Mending. -/
def inService (s : State) : Bool := (s.mode = .serving || s.mode = .holdover || s.mode = .mending) && !s.warming && !s.trust.zeroizing

/-- The class of a fault code (R479): 0 none, 1 transient, 2 lasting, 3 device. -/
def faultClass (code : Nat) : Nat :=
  if code ∈ [0x22, 0x23, 0x31, 0x32, 0x41, 0x42, 0x70] then 2
  else if code ∈ [0x50, 0x80, 0x81, 0x82, 0x90] then 3
  else if code = 0xA0 then 0
  else 1

/-- The fault-log slot that a new entry takes, and whether an entry there is lost (R493): the lowest empty slot; in a
full log the slot of the oldest transient entry, or else of the oldest entry. -/
def faultSlot (log : Table FaultEntry) : Nat × Bool :=
  match lowest 1024 (fun k => (log.get k).isNone) with
  | some k => (k, false)
  | none =>
    match leastBy (fun e => (e.2.sequence : Int)) (log.filter (fun e => e.2.cls = 1)) with
    | some e => (e.1, true)
    | none =>
      match leastBy (fun e => (e.2.sequence : Int)) log with
      | some e => (e.1, true)
      | none => (0, false)

/-- Write a fault-log entry without an event; answers its sequence too. The sequence is kept as an exact count and
shown modulo 2^32. -/
def logEntry (s : State) (code block port detail address : Nat) : State × Nat :=
  let q := s.faults.nextSeq
  let lost := (faultSlot s.faults.log).2
  let e : FaultEntry :=
    { code := code, cls := faultClass code, block := block, port := port, mode := s.mode.code, stamp := now s,
      tick := s.time.tickCount, detail := detail, sequence := q, address := address }
  let s := { s with faults := { s.faults with log := s.faults.log.put (faultSlot s.faults.log).1 e, nextSeq := q + 1 } }
  let s := if lost then bump s Reg.FAULTLOG.OVERWRITTEN else s
  let s :=
    match faultClass code with
    | 1 => bump s Reg.FAULTLOG.FAULTS_TRANSIENT
    | 2 => bump s Reg.FAULTLOG.FAULTS_LASTING
    | 3 => bump s Reg.FAULTLOG.FAULTS_DEVICE
    | _ => s
  (s, q)

/-- A fault: its log entry, and the FAULT event that names it (R465, R479, R493). -/
def fault (s : State) (code block port detail address : Nat) : State :=
  let r := logEntry s code block port detail address
  event r.1 block (now r.1) (.fault (r.2 % 2 ^ 32) code) true

/-- A transition between modes (R475): the mode, MODE_REASON, the MODE_CHANGE entry, MODE_CHANGED and the MODE event with
that entry's index. -/
def changeMode (s : State) (m : Mode) (reason : Nat) : State :=
  let old := s.mode.code
  let s := { s with mode := m }
  let s := wr s Reg.FAULTLOG.MODE_REASON reason
  let r := logEntry s 0xA0 0 0xFFFF (old + 0x100 * m.code + 0x10000 * reason) 0
  let s := raise r.1 Reg.GLOBAL.GLOBAL_EVENTS_MODE_CHANGED
  event s 0 (now s) (.mode old m.code (r.2 % 2 ^ 32)) true

/-! ### Time state shared by several chapters -/

/-- TIME_STATUS.STATE codes of R46. -/
def timeState (s : State) : Nat := rd s Reg.TIME.TIME_STATUS_STATE

/-- The DRBG takes fresh entropy (R88). -/
def reseed (s : State) : State := { s with trust := { s.trust with reseededAt := nowNs s, generates := 0 } }

/-- A DRBG draw: its number and the state that has drawn it (R87). The draw that would be the one beyond 2^20 since the last reseed finds the DRBG
reseeded; a DRBG whose source has not passed its start-up tests is left to DRBG_RESEED, which is then due (R88). -/
def draw (s : State) : State × Nat :=
  let s := if 2 ^ 20 ≤ s.trust.generates && s.trust.startupPassed then reseed s else s
  ({ s with trust := { s.trust with draws := s.trust.draws + 1, generates := s.trust.generates + 1 } }, s.trust.draws)

/-! ### Budgets and charges (R58 to R61, R123, R124) -/

/-- One unit of a charge: charges are kept with 16 fraction bits (R124). -/
def one : Nat := 65536

/-- An amount `num / den` as a charge. An amount that 16 fraction bits hold is exact; otherwise
the spec does not say which way it is rounded, and a free value of Config does. -/
def chargeOf (num den : Nat) : Nat :=
  if den = 0 then 0
  else if num * one % den = 0 then num * one / den
  else if Config.chargeRoundsUp num den then num * one / den + 1 else num * one / den

/-- A quotient rounded as Config chooses where it is inexact. -/
def roundOf (num den : Nat) : Nat :=
  if den = 0 then 0 else if num % den = 0 then num / den else if Config.roundsUp num den then num / den + 1 else num / den

/-- Cycles of a tick at an ECLK set point (R34). -/
def cyclesOf (point : Nat) : Nat := if point = 0 then 200000 else if point = 1 then 150000 else 100000

/-- The admitted total of a budget code, in units of 1/65,536. -/
def admitted (s : State) (code : Nat) : Nat :=
  (s.ledger.filter (fun c => c.code = code)).foldl (fun n c => n + c.amount) 0

/-- The admitted charge of a budget code on one unit. -/
def admittedOn (s : State) (code unit : Nat) : Nat :=
  (s.ledger.filter (fun c => c.code = code && c.unit = unit)).foldl (fun n c => n + c.amount) 0

/-- The charges one holder has. -/
def chargesOf (s : State) (kind index : Nat) : List Charge :=
  s.ledger.filter (fun c => c.kind = kind && c.index = index && !c.released)

/-- The state with a holder's charges replaced. -/
def setCharges (s : State) (kind index : Nat) (cs : List Charge) : State :=
  { s with ledger := s.ledger.filter (fun c => !(c.kind = kind && c.index = index && !c.released)) ++ cs }

/-- A holder's charges marked released: they are freed at the next boundary (R61). -/
def releaseCharges (s : State) (kind index : Nat) : State :=
  { s with ledger := s.ledger.map (fun c => if c.kind = kind && c.index = index then { c with released := true } else c) }

/-- The sum of a list of charges for one budget code. -/
def sumCode (cs : List Charge) (code : Nat) : Nat :=
  (cs.filter (fun c => c.code = code)).foldl (fun n c => n + c.amount) 0

/-! ### Internal memory (R26 to R28) -/

/-- The byte that an address reads as: an unlisted address reads as zero. -/
def memByte (m : List Host.Cell) (a : Nat) : Byte :=
  match m with
  | [] => 0
  | (b, v) :: t => if b = a then v else memByte t a

/-- Write one byte, keeping the list in its canonical form. -/
def memPut (m : List Host.Cell) (a : Nat) (v : Byte) : List Host.Cell :=
  match m with
  | [] => if v = 0 then [] else [(a, v)]
  | (b, w) :: t =>
    if a < b then if v = 0 then (b, w) :: t else (a, v) :: (b, w) :: t
    else if a = b then if v = 0 then t else (a, v) :: t
    else (b, w) :: memPut t a v

/-- Write bytes at consecutive addresses. -/
def memWrite (m : List Host.Cell) (a : Nat) : List Byte → List Host.Cell
  | [] => m
  | v :: vs => memWrite (memPut m a v) (a + 1) vs

/-- Read `n` bytes from `a`. -/
def memRead (m : List Host.Cell) (a : Nat) : Nat → List Byte
  | 0 => []
  | n + 1 => memByte m a :: memRead m (a + 1) n

/-- The canonical form: addresses strictly rising, no zero byte listed. -/
def Memory.wf : List Host.Cell → Bool
  | [] => true
  | [a] => decide (a.2 ≠ 0)
  | a :: b :: t => decide (a.2 ≠ 0) && decide (a.1 < b.1) && Memory.wf (b :: t)

/-- Internal address of exchange offset 0 (R446). -/
def exchangeBase : Nat := 0x002F00000000

/-- Write an output of a directive to the exchange region (R451). After a zeroize trigger the region takes no write
(R452). -/
def exchangeWrite (s : State) (offset : Nat) (bytes : List Byte) : State :=
  if s.trust.zeroizing || s.mode = .sealed then s
  else emit { s with mem := memWrite s.mem (exchangeBase + offset) bytes } (.exchange offset bytes)

/-! ### Packet delivery to the host (R467, R468) -/

/-- Deliver a packet to the host: a delivery buffer and an event slot must both be free, or it is dropped and `none` is
answered. -/
def deliver (s : State) (bytes : List Byte) (source reason port context stamp : Nat) :
    Option State :=
  if !(s.host.linkUp && rd s dlvRing.enable = 1 && rd s evtRing.enable = 1) then none
  else if Ring.empty s dlvRing then none
  else if !evtRoom s then none
  else
    let i := rd s dlvRing.head
    let s := emit s (.delivery i bytes)
    let s := wr s dlvRing.head (i + 1)
    let s := bump s Reg.EVENT.PACKETS_DELIVERED
    some (event s 0xFF stamp (.packet i bytes.length source reason port context) false)

/-- A dropped delivery that found no buffer raises DELIVERY_EMPTY (R473). -/
def deliveryFailed (s : State) : State :=
  if rd s dlvRing.enable = 1 && Ring.empty s dlvRing then raise s Reg.EVENT.EVENT_FLAGS_DELIVERY_EMPTY else s

/-! ### Lateness (R62) -/

/-- `n` late jobs of an engine, counted in its own overrun counter. -/
def lateJobs (s : State) (counter : Fld) (n : Nat) : State :=
  if n = 0 then s
  else raise (bumpBy (bumpBy s counter n) Reg.TIME.OVERRUN_TOTAL n) Reg.TIME.TIME_EVENTS_TICK_OVERRUN

/-- The next state. -/
abbrev ok (s : State) : Host.Outcome State Fault Refusal := .next s

end Sys2Proof.Machine
end

