-- ==== Sys2Proof/Machine/Clock.lean ====
section
/-!
DEFINITION. The local clock between two tick boundaries (R38, R53), the instants at which timed events happen, and the
requests for a change of mode that wait for a boundary (R475).
-/

namespace Sys2Proof.Machine

/-- A tick in units of the local clock. -/
def tickUnits : Nat := Config.tickNs * Config.fracUnit

/-- The clock reading of the next multiple of 125,000 ns. -/
def nextMultiple (s : State) : Nat := (s.time.clock / tickUnits + 1) * tickUnits

/-- The reading of the clock in its first cycle at or beyond a reading `c` that lies ahead (R38). -/
def clockAt (s : State) (c : Nat) : Nat := s.time.clock + ceilDiv (c - s.time.clock) s.time.increment * s.time.increment

/-- The state with the clock set. -/
def State.withClock (s : State) (c : Nat) : State := { s with time := { s.time with clock := c } }

/-- Local time `t` in ns has passed, or is reached before the next tick boundary. -/
def reachable (s : State) (t : Nat) : Bool := decide (t ≤ nowNs s) || decide (clockAt s (t * Config.fracUnit) < nextMultiple s)

/-- The state at the first cycle at or beyond local time `t` in ns. An instant that has passed needs no time. -/
def advanceTo (s : State) (t : Nat) : State := if t ≤ nowNs s then s else s.withClock (clockAt s (t * Config.fracUnit))

/-- The state brought forward to an instant, if it is reached before the next tick boundary. -/
def reach (s : State) (t : Nat) : Option State := if reachable s t then some (advanceTo s t) else none

/-- Ask for a change of mode at the next tick boundary (R475). -/
def requestMode (s : State) (m : Mode) (reason : Nat) : State := { s with modeRequests := s.modeRequests ++ [(m, reason)] }

/-- Proving fails in a way that no retirement absorbs (R477): PROVING_FAILED is written with the failing item, and the device stays in
Proving. -/
def provingFailed (s : State) (item : Nat) : State :=
  fault { s with proving := { s.proving with failed := true } } 0x81 21 0xFFFF item 0

/-- Boundaries that have passed since a count of boundaries (R57). -/
def since (s : State) (b : Nat) : Nat := s.time.boundaries - b

/-- Whether an action that happens at most once in a tick may still happen in this one. -/
def onceDue (s : State) (key : Nat) : Bool := s.time.once.get key ≠ some s.time.boundaries

/-- The action has happened in this tick. -/
def markOnce (s : State) (key : Nat) : State := { s with time := { s.time with once := s.time.once.put key s.time.boundaries } }

/-- Ask for a fresh free value: a number that nothing else has been given. -/
def State.freshId (s : State) : State × Nat := ({ s with freeCount := s.freeCount + 1 }, s.freeCount)

end Sys2Proof.Machine
end

