-- ==== Sys2Proof/Machine/ImageBytes.lean ====
section
/-!
DEFINITION. The bytes of an image and of a key token (R68 to R76, R90 to R92): the header, the section table, the signature blocks, the records
of the sections and their bodies (R36, R67, R73, R101, R138, R162, R262, R278, R287, R350, R363, R370, R377, R396, R407, R462, R489, R498,
R505, R508), and the key token. Every field is little-endian (R10). The algorithms that the spec names by standard are the opaque functions of
Config.
-/

namespace Sys2Proof

/-! ### Fields -/

/-- The `n` bytes at offset `o`, zeros beyond the end. -/
def bytesAt (b : List Byte) (o n : Nat) : List Byte := padTo n ((b.drop o).take n)

/-- The little-endian field of `n` bytes at offset `o`. -/
def leAt (b : List Byte) (o n : Nat) : Nat := fromLE ((b.drop o).take n)

/-- Whether the `n` bytes at offset `o` are zero. -/
def zeroAt (b : List Byte) (o n : Nat) : Bool := ((b.drop o).take n).all (fun x => x = 0)

/-- `count` entries of `size` bytes from offset `o`. -/
def entriesAt (b : List Byte) (o size count : Nat) : List (List Byte) := (List.range count).map (fun i => bytesAt b (o + size * i) size)

/-- A body that has its length and whose reserved bytes are zero. -/
def fixedBody {α : Type} (b : List Byte) (size : Nat) (reserved : Bool) (v : α) : Option α :=
  if b.length = size && !reserved then some v else none

/-! ### Structure records -/

/-- R36. -/
def enginesBody (b : List Byte) : Option EnginesRec :=
  fixedBody b 16 false
    { decode := leAt b 0 2, veils := leAt b 2 2, encode := leAt b 4 1, audio := leAt b 5 1, cipher := leAt b 6 1, ingress := leAt b 7 1,
      forwarding := leAt b 8 1, band := bitsOf (leAt b 9 1) 3 0, reserved := bitsOf (leAt b 9 1) 7 4 ≠ 0 || !zeroAt b 10 6 }

/-- R498. -/
def powerDomainsBody (b : List Byte) : Option PowerDomains :=
  fixedBody b 16 false
    { domains := leAt b 0 8, eclkInitial := leAt b 8 1, hostClock := bitOf (leAt b 9 1) 0 = 1, marginMin := leAt b 10 1, throttleTemp := leAt b 11 1,
      reserved := bitsOf (leAt b 9 1) 7 1 ≠ 0 || !zeroAt b 12 4 }

/-- R101. -/
def partitionBody (b : List Byte) : Option PartitionRec :=
  fixedBody b 24 (!zeroAt b 20 4)
    { legEntries := leAt b 0 4, classifyEntries := leAt b 4 4, keyEntries := leAt b 8 4, tunnelQueues := leAt b 12 4, rtxRegion := leAt b 16 4 }

/-- A port entry (R363). -/
def portEntryOf (b : List Byte) : PortEntry :=
  let f := leAt b 2 1
  { maxFrame := leAt b 0 2, lpi := bitOf f 0 = 1, training := bitOf f 1 = 1, pmd := bitsOf f 3 2, defaultQueue := bitsOf f 6 4, fec := leAt b 3 1,
    bankSize := leAt b 4 1, ptpTrim := toSigned 16 (leAt b 6 2), reserved := bitOf f 7 = 1 || !zeroAt b 5 1 }

/-- A PON port entry (R377). -/
def ponEntryOf (b : List Byte) : PonEntry :=
  let f := leAt b 2 1
  { mode := leAt b 0 1, upRate := leAt b 1 1, isProtected := bitOf f 0 = 1, defaultQueue := bitsOf f 3 1, enhanced := bitOf f 4 = 1,
    pskIndex := leAt b 3 1, serial := bytesAt b 4 8, maxFrame := leAt b 12 2, bankSize := leAt b 14 1, syncMatches := leAt b 15 1,
    psyncTolerance := leAt b 16 1, protectHold := leAt b 17 1, todTrim := toSigned 16 (leAt b 18 2),
    reserved := bitsOf f 7 5 ≠ 0 || !zeroAt b 20 12 }

/-- R363. -/
def portModesBody (b : List Byte) : Option PortModes :=
  fixedBody b 200 (!zeroAt b 4 4)
    { quads := (List.range 4).map (fun k => leAt b k 1), ports := (entriesAt b 8 8 16).map portEntryOf, ponA := ponEntryOf (bytesAt b 0x88 32),
      ponB := ponEntryOf (bytesAt b 0xA8 32) }

/-- R407, R138. -/
def memoryMapBody (b : List Byte) : Option MemoryMap :=
  let r := leAt b 0 1
  let p := leAt b 1 1
  let l := leAt b 2 1
  let regions := entriesAt b 32 24 r
  let lining := entriesAt b (32 + 24 * r + 16 * p) 8 l
  fixedBody b (32 + 24 * r + 16 * p + 8 * l)
    (!zeroAt b 4 4 || !zeroAt b 0x18 8 || regions.any (fun e => !zeroAt e 2 6) || lining.any (fun e => !zeroAt e 3 5))
    { setPoint := leAt b 3 1, gloveboxBytes := leAt b 8 8, gloveboxBase := leAt b 16 8,
      regions := regions.map (fun e => { code := leAt e 0 2, base := leAt e 8 8, length := leAt e 16 8 }),
      pools := (entriesAt b (32 + 24 * r) 16 p).map (fun e => { base := leAt e 0 8, blocks := leAt e 8 4, count := leAt e 12 4 }),
      lining := lining.map (fun e => { first := leAt e 0 1, count := leAt e 1 1, use := leAt e 2 1 }) }

/-- R67. -/
def timeBody (b : List Byte) : Option TimeRec :=
  let f := leAt b 0x16 1
  fixedBody b 40 false
    { config := leAt b 0 4, priority := leAt b 4 4, jump := leAt b 8 4, admitCfg := leAt b 12 4, pulse := leAt b 16 4,
      delayLog := toSigned 8 (leAt b 0x14 1), announceTimeout := leAt b 0x15 1, transport := bitsOf f 1 0, nonForwardable := bitOf f 2 = 1,
      localPriority := (List.range 16).map (fun m => leAt b (0x18 + m) 1), reserved := bitsOf f 7 3 ≠ 0 || !zeroAt b 0x17 1 }

/-- R73. -/
def settingsBody (b : List Byte) : Option Settings :=
  fixedBody b 64 false
    { genDrainLimit := leAt b 0 2, decodeCap := leAt b 2 2, decodeSlack := leAt b 4 1, repairWait := leAt b 5 1, encodeCap := leAt b 6 2,
      encodeSlack := leAt b 8 1, staleLimit := leAt b 9 1, compositeSlack := leAt b 10 1, concealLimit := leAt b 11 1, jbMin := leAt b 12 2,
      jbMax := leAt b 14 2, runLimit := leAt b 16 4, pinLimit := leAt b 20 2, refreshTicks := leAt b 22 2, timeProbeTicks := leAt b 24 1,
      oldEpochTicks := leAt b 25 1, queueClass := leAt b 26 2, hashFields := bitsOf (leAt b 28 1) 3 0, fragTimeout := leAt b 29 1,
      scrubHours := leAt b 30 1, dmaRetryLimit := leAt b 31 1, lpiIdle := (List.range 16).map (fun m => leAt b (32 + 2 * m) 2),
      reserved := bitsOf (leAt b 28 1) 7 4 ≠ 0 }

/-! ### Programs records -/

/-- An entry of MITTEN_CODE (R262). -/
def codeEntryOf (b : List Byte) : CodeEntry :=
  let f := leAt b 9 1
  { start := leAt b 0 4, cost := leAt b 4 4, priority := leAt b 8 1, privileged := bitOf f 0 = 1, slot := bitOf f 1, hostStart := bitOf f 2 = 1,
    restart := bitOf f 3 = 1, reserved := bitsOf f 7 4 ≠ 0 || !zeroAt b 10 6 }

/-- R262. A CODE_LENGTH that is no multiple of 8 breaks the format. -/
def mittenCodeBody (b : List Byte) : Option MittenCode :=
  let e := leAt b 0 2
  let t := leAt b 2 2
  let n := leAt b 4 4
  let at_ := 16 + 16 * e + 8 * t
  fixedBody b (at_ + n) (!zeroAt b 8 8 || n % 8 ≠ 0)
    { code := (List.range (n / 8)).map (fun i => BitVec.ofNat 64 (leAt b (at_ + 8 * i) 8)), entries := (entriesAt b 16 16 e).map codeEntryOf,
      statics := (entriesAt b (16 + 16 * e) 8 t).map (fun x => { entry := leAt x 0 2, clusters := leAt x 2 1, lanes := leAt x 3 1, arg := leAt x 4 4 }) }

/-- A node of the parser graph (R278). -/
def graphNodeOf (b : List Byte) : GraphNode :=
  let f := leAt b 9 1
  { kind := leAt b 0 1, fieldWidth := leAt b 1 1, fieldOffset := leAt b 2 2, advance := leAt b 4 2, lenOffset := leAt b 6 1, lenMask := leAt b 7 1,
    lenScale := leAt b 8 1, setsL3 := bitOf f 0 = 1, setsL4 := bitOf f 1 = 1, reserved := bitsOf f 7 2 ≠ 0, defaultNext := leAt b 10 2,
    matchFirst := leAt b 12 2, matchCount := leAt b 14 1, result := leAt b 15 1 }

/-- R278. -/
def parserGraphBody (b : List Byte) : Option ParserGraph :=
  let n := leAt b 0 2
  let m := leAt b 2 2
  let ms := entriesAt b (16 + 16 * n) 8 m
  fixedBody b (16 + 16 * n + 8 * m) (!zeroAt b 8 8 || ms.any (fun e => !zeroAt e 6 2))
    { startEtherType := leAt b 4 2, startNextHeader := leAt b 6 2, nodes := (entriesAt b 16 16 n).map graphNodeOf,
      matches_ := ms.map (fun e => (leAt e 0 4, leAt e 4 2)) }

/-- R162. An asset lies within the body. -/
def veilAssetsBody (b : List Byte) : Option (List Asset) :=
  let n := leAt b 0 4
  let dir := entriesAt b 8 16 n
  if b.length < 8 + 16 * n || !zeroAt b 4 4 || dir.any (fun e => decide (b.length < leAt e 8 4 + leAt e 12 4)) then none
  else some (dir.map (fun e =>
    { id := leAt e 0 2, kind := leAt e 2 1, colour := leAt e 3 1, width := leAt e 4 2, height := leAt e 6 2,
      data := (b.drop (leAt e 8 4)).take (leAt e 12 4) }))

/-- R505. -/
def bootStepsBody (b : List Byte) : Option (List BootStep) :=
  let n := leAt b 0 2
  fixedBody b (8 + 8 * n) (!zeroAt b 2 6)
    ((entriesAt b 8 8 n).map (fun e => { op := leAt e 0 1, pin := leAt e 1 1, address := leAt e 2 2, value := leAt e 4 4 }))

/-! ### Tables records -/

/-- A template of CLASSIFY (R287). -/
def templateOf (b : List Byte) : Template :=
  { id := leAt b 0 1, path := leAt b 1 1,
    extractions := (entriesAt b 4 4 (leAt b 2 1)).map (fun e => { base := leAt e 0 1, width := leAt e 1 1, offset := leAt e 2 2 }) }

/-- A rule of CLASSIFY (R287). -/
def classRuleOf (b : List Byte) : ClassRule :=
  { path := leAt b 0 1, template := leAt b 1 1, resultKind := leAt b 2 1, target := leAt b 4 4, arg := leAt b 8 4, key := bytesAt b 16 40 }

/-- R287. -/
def classifyBody (b : List Byte) : Option ClassifyRec :=
  let t := leAt b 0 2
  let r := leAt b 2 2
  let ts := entriesAt b 8 40 t
  let rs := entriesAt b (8 + 40 * t) 56 r
  fixedBody b (8 + 40 * t + 56 * r)
    (!zeroAt b 4 4 || ts.any (fun e => !zeroAt e 3 1 || !zeroAt e 36 4 || decide (8 < leAt e 2 1)) || rs.any (fun e => !zeroAt e 3 1 || !zeroAt e 12 4))
    { templates := ts.map templateOf, rules := rs.map classRuleOf }

/-- An entry of FILTERS (R370). -/
def filterOf (b : List Byte) : FilterEntry :=
  let a := leAt b 3 1
  { port := leAt b 0 1, index := leAt b 1 1, match_ := bitsOf (leAt b 2 1) 5 0, queue := bitsOf a 2 0, drop := bitOf a 7 = 1, etherType := leAt b 4 2,
    outerVid := bitsOf (leAt b 6 2) 11 0, innerVid := bitsOf (leAt b 8 2) 11 0, outerPcp := bitsOf (leAt b 10 1) 2 0,
    reserved := bitsOf (leAt b 2 1) 7 6 ≠ 0 || bitsOf a 6 3 ≠ 0 || bitsOf (leAt b 6 2) 15 12 ≠ 0 || bitsOf (leAt b 8 2) 15 12 ≠ 0
      || bitsOf (leAt b 10 1) 7 3 ≠ 0 || !zeroAt b 11 5 }

/-- R370. -/
def filtersBody (b : List Byte) : Option (List FilterEntry) :=
  let n := leAt b 0 2
  fixedBody b (8 + 16 * n) (!zeroAt b 2 6) ((entriesAt b 8 16 n).map filterOf)

/-- The lists of GATE_LISTS (R350) from offset `o`, with the offset behind them; none where a reserved byte is set. -/
def gateListsFrom (b : List Byte) (o : Nat) : Nat → Option (List GateList × Nat)
  | 0 => some ([], o)
  | k + 1 =>
    let n := leAt b (o + 1) 2
    let es := entriesAt b (o + 24) 8 n
    if !zeroAt b (o + 3) 1 || !zeroAt b (o + 16) 8 || es.any (fun e => !zeroAt e 1 3) then none
    else (gateListsFrom b (o + 24 + 8 * n) k).map (fun r =>
      ({ egress := leAt b o 1, baseTime := leAt b (o + 4) 8, cycleTime := leAt b (o + 12) 4,
         entries := es.map (fun e => (leAt e 0 1, leAt e 4 4)) } :: r.1, r.2))

/-- R350. -/
def gateListsBody (b : List Byte) : Option GateListsRec :=
  match gateListsFrom b 16 (leAt b 0 1) with
  | none => none
  | some (ls, n) =>
    fixedBody b n (!zeroAt b 10 6)
      { batchWindow := leAt b 1 1, paceGain := leAt b 2 1, systemWeight := leAt b 3 1, maxDelay := leAt b 4 2, legQueuePackets := leAt b 6 2,
        classLimit := leAt b 8 2, lists := ls }

/-! ### Policy records -/

/-- R462. -/
def directiveLimitsBody (b : List Byte) : Option (List DirLimit) :=
  let n := leAt b 0 2
  let es := entriesAt b 8 8 n
  fixedBody b (8 + 8 * n) (!zeroAt b 2 6 || es.any (fun e => !zeroAt e 3 1 || !zeroAt e 6 2))
    (es.map (fun e => { opcode := leAt e 0 2, mode := leAt e 2 1, rate := leAt e 4 2 }))

/-- R396. -/
def omciLimitsBody (b : List Byte) : Option OmciLimits :=
  fixedBody b 16 (!zeroAt b 5 1 || !zeroAt b 8 8)
    { maxPortIds := leAt b 0 2, maxAllocMap := leAt b 2 1, queueMask := leAt b 3 1, flags := leAt b 4 1, rate := leAt b 6 2 }

/-- R508. -/
def debugBody (b : List Byte) : Option DebugRec :=
  fixedBody b 16 false
    { baud := leAt b 0 4, peekBlocks := leAt b 4 4, pokeBlocks := leAt b 8 4, unlockMinutes := leAt b 12 2, allowUnlock := bitOf (leAt b 14 1) 0 = 1,
      reserved := bitsOf (leAt b 14 1) 7 1 ≠ 0 || !zeroAt b 15 1 }

/-- R489. -/
def authoriseBody (b : List Byte) : Option Authorise :=
  fixedBody b 16 false
    { stepMode := leAt b 0 1, zeroizeMode := leAt b 1 1, retireMode := leAt b 2 1, archiveMode := leAt b 3 1, remapThreshold := leAt b 4 1,
      remapWindow := leAt b 5 1, spareThreshold := leAt b 6 1, spareWindow := leAt b 7 1, retireCount := leAt b 8 1,
      autoReset := bitOf (leAt b 9 1) 0 = 1, retireWindow := leAt b 10 2, mendingLimit := leAt b 12 2,
      reserved := bitsOf (leAt b 9 1) 7 1 ≠ 0 || !zeroAt b 14 2 }

/-! ### The device's keys (R87) -/

/-- The secret and public keys of the device identity pair. -/
def identityPair : List Byte × List Byte := Config.identityPair Config.deviceKey

/-- The secret and public keys of the device receipt pair. -/
def receiptPair : List Byte × List Byte := Config.receiptPair Config.deviceKey

/-- The 48 bytes of a SHA-384 value. -/
def sha384 (b : List Byte) : List Byte := toLE 48 (Config.sha384 b)

/-! ### Key tokens (R90 to R92) -/

/-- The bytes of a token of a KIND. -/
def tokenSize (kind : Nat) : Nat := if kind = 2 then 104 else 1772

/-- The ASCII bytes of a text. -/
def ascii (t : String) : List Byte := t.toList.map (fun c => BitVec.ofNat 8 c.toNat)

/-- The wrapping key of a HYBRID token (R92); none where ECDH fails. -/
def hybridKey (b : List Byte) : Option (List Byte) :=
  let kem := bytesAt b 0x20 1568
  let pub := bytesAt b 0x640 97
  (Config.ecdhSecret receiptPair.1 pub).map (fun z =>
    (sha384 (toLE 4 1 ++ padTo 32 (Config.kemSecret receiptPair.1 kem) ++ padTo 48 z ++ kem ++ pub ++ bytesAt b 0 32 ++ ascii "PSIXIS-KT1")).take 32)

/-- The payload that a token wraps, if it unwraps (R92). `keks` gives the customer KEKs by index. -/
def tokenPayload (keks : List (Nat × Nat)) (b : List Byte) : Option (List Byte) :=
  let wrapped := bytesAt b (tokenSize (leAt b 5 1) - 72) 72
  let key := if leAt b 5 1 = 2 then (keks.find? (fun k => k.1 = leAt b 7 1)).map (fun k => toLE 32 k.2) else hybridKey b
  key.bind (fun k => Config.aesUnwrap k wrapped)

/-- The format of a token's header (R90): MAGIC, VERSION, KIND, KEK_INDEX and the reserved bytes. -/
def tokenFormat (b : List Byte) : Bool :=
  let kind := leAt b 5 1
  tokenSize kind ≤ b.length && leAt b 0 4 = 0x4B544F4B && leAt b 4 1 = 1 && (kind = 1 || kind = 2)
    && (if kind = 2 then leAt b 7 1 ≤ 15 else leAt b 7 1 = 0) && zeroAt b 0x0E 2 && zeroAt b 0x18 8 && (kind = 2 || zeroAt b 0x6A1 3)

/-- Whether an unwrapped payload is one of R90: 64 bytes, a 16-byte key with zeros after it, 4 zero bytes, and the header's digest. -/
def payloadOk (header p : List Byte) : Bool :=
  p.length = 64 && zeroAt p 44 4 && bytesAt p 48 16 = (sha384 header).take 16 && (leAt header 6 1 ≠ 1 || zeroAt p 16 16)

/-- What the core reads in the bytes of a token. -/
def readToken (keks : List (Nat × Nat)) (b : List Byte) : KeyToken :=
  let p := tokenPayload keks b
  { formatOk := tokenFormat b, kind := leAt b 5 1, usage := leAt b 6 1, kekIndex := leAt b 7 1, target := leAt b 8 4, epoch := leAt b 12 2,
    counter := leAt b 16 8, unwraps := p.any (payloadOk (bytesAt b 0 32)), key := leAt (p.getD []) 0 32, salt := leAt (p.getD []) 32 12 }

/-! ### Records (R71, R72) -/

/-- The body of a record of a TYPE. A PROVISIONING image's ANCHOR holds the two public keys in the order of a signature block. -/
def recordBody (type : Nat) (b : List Byte) : Option Record :=
  match type with
  | 0x0101 => (enginesBody b).map .engines
  | 0x0102 => (powerDomainsBody b).map .powerDomains
  | 0x0103 => (partitionBody b).map .partition
  | 0x0104 => (portModesBody b).map .portModes
  | 0x0105 => (memoryMapBody b).map .memoryMap
  | 0x0106 => (timeBody b).map .time
  | 0x0107 => (settingsBody b).map .settings
  | 0x0201 => (mittenCodeBody b).map .mittenCode
  | 0x0202 => (parserGraphBody b).map .parserGraph
  | 0x0203 => (veilAssetsBody b).map .veilAssets
  | 0x0204 => (bootStepsBody b).map .bootSteps
  | 0x0301 => (classifyBody b).map .classify
  | 0x0302 => (filtersBody b).map .filters
  | 0x0303 => (gateListsBody b).map .gateLists
  | 0x0401 => (directiveLimitsBody b).map .directiveLimits
  | 0x0402 => some (.export_ (fromLE b))
  | 0x0403 => (omciLimitsBody b).map .omciLimits
  | 0x0404 => (debugBody b).map .debug
  | 0x0405 => (authoriseBody b).map .authorise
  | 0x0501 => if b.length = tokenSize (leAt b 5 1) then some (.kek (readToken [] b)) else none
  | 0x0502 => if b.length = 2689 then some (.anchor b) else none
  | _ => none

/-- The TYPE codes of R72. -/
def recordTypes : List Nat :=
  [0x0101, 0x0102, 0x0103, 0x0104, 0x0105, 0x0106, 0x0107, 0x0201, 0x0202, 0x0203, 0x0204, 0x0301, 0x0302, 0x0303, 0x0401, 0x0402, 0x0403,
   0x0404, 0x0405, 0x0501, 0x0502]

/-- One record of a section of TYPE `kind`: its type, VERSION, FLAGS, whether its padding is zero, and its body (R71). -/
def readRecord (kind type version flags : Nat) (padded : Bool) (body : List Byte) : Record :=
  if !padded || 2 ≤ flags then .malformed
  else if !recordTypes.contains type || version ≠ 1 then .other (bitOf flags 0 = 1)
  else if type / 256 ≠ kind then .malformed
  else (recordBody type body).getD .malformed

/-- The records of a section's plaintext (R71). The fuel bounds their number. -/
def readRecords (kind : Nat) : Nat → List Byte → List Record
  | 0, _ => []
  | fuel + 1, b =>
    let n := leAt b 4 4
    let m := 8 + ceilDiv n 8 * 8
    if b.isEmpty then []
    else if b.length < 8 || b.length < m then [.malformed]
    else readRecord kind (leAt b 0 2) (leAt b 2 1) (leAt b 3 1) (zeroAt b (8 + n) (m - 8 - n)) ((b.drop 8).take n) :: readRecords kind fuel (b.drop m)

/-! ### Images (R68 to R70, R74, R75) -/

/-- An entry of the section table (R69). -/
structure SectionEntry where
  kind : Nat
  signer : Nat
  offset : Nat
  length : Nat
  iv : List Byte
  digest : Nat
  reserved : Bool
  raw : List Byte
  deriving DecidableEq, Repr

/-- The fields of an 80-byte entry. -/
def sectionEntryOf (b : List Byte) : SectionEntry :=
  { kind := leAt b 0 1, signer := leAt b 1 1, offset := leAt b 4 4, length := leAt b 8 4, iv := bytesAt b 12 12, digest := leAt b 0x20 48,
    reserved := !zeroAt b 2 2 || !zeroAt b 0x18 8, raw := b }

/-- The section table of an image. -/
def sectionTable (b : List Byte) : List SectionEntry := (entriesAt b (leAt b 0x44 4) 80 (leAt b 0x40 2)).map sectionEntryOf

/-- Bytes of a signature block (R74). -/
def signatureBytes : Nat := 7420

/-- The two public keys of a signature block, in block order. -/
def signatureKeys (b : List Byte) (o : Nat) : List Byte := bytesAt b (o + 4) 2592 ++ bytesAt b (o + 0xA24) 97

/-- The format of a signature block. -/
def signatureFormat (b : List Byte) (o signer : Nat) : Bool :=
  leAt b o 2 = signer && zeroAt b (o + 2) 2 && zeroAt b (o + 0xA85) 3 && zeroAt b (o + 0x1C9B) 1

/-- A signer's message (R75). -/
def signedMessage (b : List Byte) (signer : Nat) : List Byte :=
  sha384 (bytesAt b 0 256 ++ ((sectionTable b).filter (fun e => e.signer = signer)).flatMap (·.raw))

/-- Whether both signatures of a block verify a message, with a context string for ML-DSA-87 (R75, R463). -/
def blockVerifies (b : List Byte) (o : Nat) (m context : List Byte) : Bool :=
  Config.mldsaVerify (bytesAt b (o + 4) 2592) m context (bytesAt b (o + 0xA88) 4627)
    && Config.ecdsaVerify (bytesAt b (o + 0xA24) 97) (sha384 m) (bytesAt b (o + 0x1C9C) 96)

/-- Whether both signatures of an image's block verify (R75). -/
def signatureOk (b : List Byte) (o signer : Nat) : Bool := blockVerifies b o (signedMessage b signer) (ascii "PSIXIS-IMG")

/-- Whether a block of `n` bytes at `o` lies within TOTAL_LENGTH, behind the header. -/
def within (b : List Byte) (o n : Nat) : Bool := 256 ≤ o && o + n ≤ leAt b 0x0C 4

/-- The image's key envelope (R70, R90). -/
def imageEnvelope (b : List Byte) : KeyToken := readToken [] (bytesAt b (leAt b 0x48 4) 1772)

/-- R68, R69, R74: magic, version, reserved bytes, lengths and offsets, the section entries and the signature blocks. -/
def headerBytesOk (b : List Byte) : Bool :=
  let total := leAt b 0x0C 4
  let t := sectionTable b
  256 ≤ total && total ≤ b.length && leAt b 0 4 = 0x45574B4E && leAt b 4 2 = 1 && zeroAt b 0x42 2 && zeroAt b 0x58 168
    && 1 ≤ leAt b 0x40 2 && leAt b 0x40 2 ≤ 5 && within b (leAt b 0x44 4) (80 * leAt b 0x40 2) && within b (leAt b 0x48 4) 1772
    && within b (leAt b 0x50 4) signatureBytes && signatureFormat b (leAt b 0x50 4) 2
    && (leAt b 0x4C 4 = 0 || (within b (leAt b 0x4C 4) signatureBytes && signatureFormat b (leAt b 0x4C 4) 1))
    && t.all (fun e => !e.reserved && 16 ≤ e.length && within b e.offset e.length) && decide ((t.map (·.iv)).Nodup)

/-- A section as it decrypts under the image content key, its table entry the AAD (R70). -/
def sectionOf (b : List Byte) (key : Nat) (e : SectionEntry) : ImageSection :=
  let p := Config.gcmOpen (toLE 32 key) e.iv e.raw ((b.drop e.offset).take e.length)
  { kind := e.kind, signer := e.signer, digest := e.digest, decrypts := p.any (fun x => Config.sha384 x = e.digest),
    records := readRecords e.kind ((p.getD []).length + 1) (p.getD []) }

/-- The image that a run of bytes spells. -/
def Image.ofBytes (b : List Byte) : Image :=
  let env := imageEnvelope b
  let ny := leAt b 0x4C 4
  let cu := leAt b 0x50 4
  { headerOk := headerBytesOk b, kind := leAt b 6 1, partMask := leAt b 7 1, antiRollback := leAt b 8 4, length := leAt b 0x0C 4,
    baseDigest := leAt b 0x10 48, imageId := leAt b 0x54 4, sections := (sectionTable b).map (sectionOf b env.key),
    nymrehalAnchor := if ny = 0 then none else some (Config.sha384 (signatureKeys b ny)), customerAnchor := Config.sha384 (signatureKeys b cu),
    customerPair := signatureKeys b cu, nymrehalSigOk := signatureOk b ny 1, customerSigOk := signatureOk b cu 2,
    envelopeOk := env.formatOk && env.kind = 1 && env.usage = 6 && env.unwraps, contentKey := env.key }

end Sys2Proof
end

