-- ==== Sys2Proof/Machine/ImageFormat.lean ====
section
/-!
DEFINITION. The records of an image: which record of a type governs (R72), the format rules of each record body
(R36, R67, R73, R138, R162, R262, R278, R287, R350, R363, R370, R377, R396, R407, R462, R489, R498, R505, R508), and the
rules that concern the whole Structure section (R36, R101, R408, R409, R423, R498).
-/

namespace Sys2Proof

open Machine

/-! ### Finding a record -/

/-- The records of all the sections of one type. -/
def Image.recordsOf (i : Image) (kind : Nat) : List Record :=
  (i.sections.filter (fun x => x.kind = kind)).flatMap (·.records)

/-- The DIGEST of the section of one type; zero when the image has none. -/
def Image.digestOf (i : Image) (kind : Nat) : Nat :=
  (((i.sections.filter (fun x => x.kind = kind)).head?).map (·.digest)).getD 0

/-- Whether the image has a section of a type. -/
def Image.has (i : Image) (kind : Nat) : Bool := i.sections.any (fun x => x.kind = kind)

def Record.engines? : Record → Option EnginesRec | .engines r => some r | _ => none
def Record.powerDomains? : Record → Option PowerDomains | .powerDomains r => some r | _ => none
def Record.partition? : Record → Option PartitionRec | .partition r => some r | _ => none
def Record.portModes? : Record → Option PortModes | .portModes r => some r | _ => none
def Record.memoryMap? : Record → Option MemoryMap | .memoryMap r => some r | _ => none
def Record.time? : Record → Option TimeRec | .time r => some r | _ => none
def Record.settings? : Record → Option Settings | .settings r => some r | _ => none
def Record.mittenCode? : Record → Option MittenCode | .mittenCode r => some r | _ => none
def Record.parserGraph? : Record → Option ParserGraph | .parserGraph r => some r | _ => none
def Record.veilAssets? : Record → Option (List Asset) | .veilAssets r => some r | _ => none
def Record.bootSteps? : Record → Option (List BootStep) | .bootSteps r => some r | _ => none
def Record.classify? : Record → Option ClassifyRec | .classify r => some r | _ => none
def Record.filters? : Record → Option (List FilterEntry) | .filters r => some r | _ => none
def Record.gateLists? : Record → Option GateListsRec | .gateLists r => some r | _ => none
def Record.directiveLimits? : Record → Option (List DirLimit) | .directiveLimits r => some r | _ => none
def Record.talkerExport? : Record → Option Nat | .export_ b => some b | _ => none
def Record.omciLimits? : Record → Option OmciLimits | .omciLimits r => some r | _ => none
def Record.debug? : Record → Option DebugRec | .debug r => some r | _ => none
def Record.authorise? : Record → Option Authorise | .authorise r => some r | _ => none
def Record.kek? : Record → Option KeyToken | .kek t => some t | _ => none
def Record.anchor? : Record → Option (List Byte) | .anchor p => some p | _ => none

/-! ### Values that hold when a record is absent -/

/-- Every port disabled. -/
def PonEntry.disabled : PonEntry :=
  { mode := 0, upRate := 0, isProtected := false, defaultQueue := 0, enhanced := false, pskIndex := 0, serial := zeros 8, maxFrame := 0,
    bankSize := 0, syncMatches := 0, psyncTolerance := 0, protectHold := 0, todTrim := 0, reserved := false }

/-- The entry of an absorbed MAC. -/
def PortEntry.zero : PortEntry :=
  { maxFrame := 0, lpi := false, training := false, pmd := 0, defaultQueue := 0, fec := 0, bankSize := 0, ptpTrim := 0, reserved := false }

def PortModes.disabled : PortModes :=
  { quads := [0, 0, 0, 0], ports := List.replicate 16 .zero, ponA := .disabled, ponB := .disabled }

def EnginesRec.none : EnginesRec :=
  { decode := 0, veils := 0, encode := 0, audio := 0, cipher := 0, ingress := 0, forwarding := 0, band := 0, reserved := false }

def PowerDomains.none : PowerDomains :=
  { domains := 0, eclkInitial := 0, hostClock := false, marginMin := 0, throttleTemp := 0, reserved := false }

def PartitionRec.none : PartitionRec := { legEntries := 0, classifyEntries := 0, keyEntries := 0, tunnelQueues := 0, rtxRegion := 0 }

def MemoryMap.none : MemoryMap :=
  { setPoint := 0, gloveboxBytes := 0, gloveboxBase := 0, regions := [], pools := [], lining := [] }

/-- R489: the modes are FORBIDDEN, every other field takes its default. -/
def Authorise.absent : Authorise :=
  { stepMode := 0, zeroizeMode := 0, retireMode := 0, archiveMode := 0, remapThreshold := 32, remapWindow := 8, spareThreshold := 8,
    spareWindow := 8, retireCount := 3, autoReset := true, retireWindow := 80, mendingLimit := 224, reserved := false }

/-- R396. -/
def OmciLimits.absent : OmciLimits := { maxPortIds := 64, maxAllocMap := 7, queueMask := 0xFF, flags := 0x0E, rate := 200 }

/-- R73: the Reset values of the register fields. -/
def Settings.absent : Settings :=
  { genDrainLimit := 4000, decodeCap := 768, decodeSlack := 2, repairWait := 40, encodeCap := 768, encodeSlack := 1, staleLimit := 4,
    compositeSlack := 0, concealLimit := 60, jbMin := 20, jbMax := 400, runLimit := 50000, pinLimit := 256, refreshTicks := 4096,
    timeProbeTicks := 64, oldEpochTicks := 8, queueClass := 0, hashFields := 15, fragTimeout := 32, scrubHours := 24,
    dmaRetryLimit := 3, lpiIdle := List.replicate 16 10, reserved := false }

/-- R67. -/
def TimeRec.absent : TimeRec :=
  { config := 0, priority := 0x640A0000, jump := 1000, admitCfg := 248, pulse := 0x00500190, delayLog := 0, announceTimeout := 0,
    transport := 0, nonForwardable := false, localPriority := List.replicate 16 0, reserved := false }

/-- The Reset values of the Band's settings (R361). -/
def GateListsRec.absent : GateListsRec :=
  { batchWindow := 2, paceGain := 32, systemWeight := 16, maxDelay := 400, legQueuePackets := 256, classLimit := 4096, lists := [] }

/-! ### Ports (R362) -/

/-- Whether a MAC is used by its quad's mode. -/
def macUsed (mode mac : Nat) : Bool :=
  if mode ∈ [1, 2, 3, 4] then true else if mode = 5 then mac % 2 = 0 else if mode = 6 then mac % 4 = 0 else false

/-- The mode of a MAC's quad. -/
def PortModes.quadOf (p : PortModes) (mac : Nat) : Nat := p.quads.getD (mac / 4) 0

/-- Whether an egress point is valid (R338): a MAC that is used, or an enabled PON port; point 17 is invalid in a protected
pair. -/
def PortModes.egressValid (p : PortModes) (e : Nat) : Bool :=
  if e < 16 then macUsed (p.quadOf e) e
  else if e = 16 then p.ponA.mode ≠ 0 else e = 17 && p.ponB.mode ≠ 0 && !p.ponA.isProtected

/-- The FEC codes that a mode permits (R362). -/
def fecPermitted (mode fec : Nat) : Bool :=
  if mode = 1 then fec ≤ 1 else if mode = 2 then fec ≤ 2 else fec = 3

/-- The format of a port entry (R363). -/
def PortEntry.formatOk (e : PortEntry) (mode mac : Nat) : Bool :=
  if macUsed mode mac then
    !e.reserved && (e.maxFrame = 0 || (1518 ≤ e.maxFrame && e.maxFrame ≤ 9216)) && e.pmd ≤ 2 && e.defaultQueue ≤ 7 && e.bankSize ≤ 3
      && fecPermitted mode e.fec && !(e.training && e.pmd = 0) && !(e.lpi && mode ≠ 1 && mode ≠ 2)
  else decide (e = .zero)

/-- The format of a PON port entry on its own (R377). -/
def PonEntry.formatOk (e : PonEntry) : Bool :=
  if e.mode = 0 then decide (e = .disabled)
  else
    !e.reserved && e.mode ≤ 2 && e.upRate ≤ 2 && !(e.mode = 1 && e.upRate ≠ 0) && e.defaultQueue ≤ 7
      && (e.maxFrame = 0 || (1518 ≤ e.maxFrame && e.maxFrame ≤ 9216)) && e.bankSize ≤ 3
      && (e.syncMatches = 0 || (2 ≤ e.syncMatches && e.syncMatches ≤ 4)) && e.psyncTolerance ≤ 5 && e.protectHold ≤ 255

/-- The format of PORT_MODES (R363, R377). `keks` are the KEK indices that the Trust section loads. -/
def PortModes.formatOk (p : PortModes) (keks : List Nat) : Bool :=
  p.quads.length = 4 && p.ports.length = 16 && p.quads.all (· ≤ 6)
    && (p.ports.zipIdx.all (fun e => e.1.formatOk (p.quadOf e.2) e.2))
    && p.ponA.formatOk && p.ponB.formatOk && !p.ponB.isProtected
    && !(p.ponA.isProtected && (p.ponA.mode ≠ p.ponB.mode || p.ponA.upRate ≠ p.ponB.upRate || p.ponA.serial ≠ p.ponB.serial))
    && !(p.ponA.enhanced && !keks.contains p.ponA.pskIndex) && !(p.ponB.enhanced && !keks.contains p.ponB.pskIndex)

/-! ### Format rules of the other records -/

/-- R36: the reserved bits. -/
def EnginesRec.formatOk (e : EnginesRec) : Bool := !e.reserved && e.band < 16

/-- R498. -/
def PowerDomains.formatOk (p : PowerDomains) : Bool :=
  !p.reserved && p.eclkInitial ≤ 2 && (p.marginMin = 0 || (10 ≤ p.marginMin && p.marginMin ≤ 100))
    && (p.throttleTemp = 0 || (95 ≤ p.throttleTemp && p.throttleTemp ≤ 120))

/-- R67, with the ranges of the registers of R66. -/
def TimeRec.formatOk (t : TimeRec) : Bool :=
  !t.reserved && t.config < 2 ^ 26
    && (if bitOf t.config 2 = 1 then 24 ≤ bitsOf t.config 9 3 && bitsOf t.config 9 3 ≤ 43 && t.transport = 0 else true)
    && [0, 4, 8, 12].all (fun i => bitsOf t.priority (i + 3) i ≤ 5)
    && 1 ≤ bitsOf t.priority 23 16 && 10 ≤ bitsOf t.priority 31 24 && t.priority < 2 ^ 32
    && 100 ≤ t.jump && t.jump ≤ 1000000000 && 128 ≤ t.admitCfg && t.admitCfg ≤ 256
    && 1 ≤ bitsOf t.pulse 18 2 && bitsOf t.pulse 18 2 ≤ 100000 && 1 ≤ bitsOf t.pulse 25 19 && bitsOf t.pulse 25 19 ≤ 100 && t.pulse < 2 ^ 26
    && decide (-7 ≤ t.delayLog) && decide (t.delayLog ≤ 0)
    && (t.announceTimeout = 0 || (2 ≤ t.announceTimeout && t.announceTimeout ≤ 10)) && t.transport ≤ 2 && t.localPriority.length = 16

/-- R73. LPI_IDLE of a MAC without LPI_ENABLE is ignored. -/
def Settings.formatOk (x : Settings) (lpi : List Bool) : Bool :=
  !x.reserved && 8 ≤ x.genDrainLimit && x.genDrainLimit ≤ 65535 && 96 ≤ x.decodeCap && x.decodeCap ≤ 1536 && x.decodeSlack ≤ 8
    && x.repairWait ≤ 200 && 96 ≤ x.encodeCap && x.encodeCap ≤ 1536 && x.encodeSlack ≤ 4 && 1 ≤ x.staleLimit && x.staleLimit ≤ 8
    && x.compositeSlack ≤ 4 && 20 ≤ x.concealLimit && x.concealLimit ≤ 200 && 20 ≤ x.jbMin && x.jbMin ≤ 400
    && x.jbMin ≤ x.jbMax && x.jbMax ≤ 400 && 1000 ≤ x.runLimit && x.runLimit ≤ 200000 && 9 ≤ x.pinLimit && x.pinLimit ≤ 256
    && 256 ≤ x.refreshTicks && x.refreshTicks ≤ 65535 && 8 ≤ x.timeProbeTicks && x.timeProbeTicks ≤ 255
    && 1 ≤ x.oldEpochTicks && x.oldEpochTicks ≤ 64 && (List.range 8).all (fun q => bitsOf x.queueClass (2 * q + 1) (2 * q) ≤ 2)
    && x.hashFields ≤ 15 && 8 ≤ x.fragTimeout && x.fragTimeout ≤ 255 && 1 ≤ x.scrubHours && x.scrubHours ≤ 168 && x.dmaRetryLimit ≤ 7
    && x.lpiIdle.length = 16 && (x.lpiIdle.zip lpi).all (fun e => !e.2 || (1 ≤ e.1 && e.1 ≤ 1000))

/-- The privileged lanes that the static threads take: lane and slot, one for each thread (R262). -/
def MittenCode.privileged (m : MittenCode) : List (Nat × Nat) :=
  m.statics.flatMap (fun t =>
    match m.entries[t.entry]? with
    | some e =>
      if e.privileged then
        (List.range 8).flatMap (fun c =>
          (List.range 8).filterMap (fun l =>
            if bitOf t.clusters c = 1 && bitOf t.lanes l = 1 then some (8 * c + l, e.slot) else none))
      else []
    | none => [])

/-- R262. -/
def MittenCode.formatOk (m : MittenCode) : Bool :=
  1 ≤ m.entries.length && m.entries.length ≤ 256 && m.statics.length ≤ 256 && m.code.length ≤ 16384
    && m.entries.all (fun e => !e.reserved && e.start % 8 = 0 && e.start < 8 * m.code.length && e.cost ≤ 1600000 && e.priority ≤ 63 && e.slot ≤ 1)
    && m.statics.all (fun t =>
      match m.entries[t.entry]? with
      | some e => t.clusters < 256 && t.lanes < 256 && (e.privileged || t.lanes = 0)
      | none => false)
    && decide m.privileged.Nodup

/-- R278. -/
def ParserGraph.formatOk (g : ParserGraph) : Bool :=
  let n := g.nodes.length
  let node (i : Nat) : Bool := i < n || i = 0xFFFF
  1 ≤ n && n ≤ 256 && g.matches_.length ≤ 4096 && node g.startEtherType && node g.startNextHeader
    && g.matches_.all (fun m => m.2 < n)
    && g.nodes.all (fun x => !x.reserved && x.kind ≤ 3 && (x.kind ≠ 0 || x.fieldWidth ∈ [1, 2, 4]) && node x.defaultNext && x.matchCount ≤ 16
      && x.matchFirst + x.matchCount ≤ g.matches_.length && (if x.kind = 1 then 1 ≤ x.result && x.result ≤ 255 else x.result = 0))

/-- The LENGTH of an asset by its kind and size (R162). -/
def Asset.size (a : Asset) : Nat :=
  match a.kind with
  | 0 => 4 * a.width * a.height
  | 1 => 1024 + a.width * a.height
  | 2 => 130
  | _ => 36

/-- R162. -/
def assetsOk (l : List Asset) : Bool :=
  l.length ≤ 4096 && decide ((l.map (·.id)).Nodup)
    && l.all (fun a => a.id ≤ 65534 && a.kind ≤ 3 && a.data.length = a.size
      && (if a.kind ≤ 1 then 1 ≤ a.width && a.width ≤ 4096 && 1 ≤ a.height && a.height ≤ 2304 && a.colour ≤ 2
          else a.width = 0 && a.height = 0 && a.colour = 0))

/-- The longest time a boot step waits, in us (R505). -/
def BootStep.waits (b : BootStep) : Nat :=
  if b.op = 2 then b.value else if b.op = 4 || b.op = 5 then bitsOf b.value 31 16 * 1000 else 0

/-- R505. -/
def bootStepsOk (l : List BootStep) : Bool :=
  l.length ≤ 256 && l.all (fun b => 1 ≤ b.op && b.op ≤ 5) && (l.foldl (fun n b => n + b.waits) 0) ≤ 1000000

/-- R287. -/
def ClassifyRec.formatOk (c : ClassifyRec) : Bool :=
  c.templates.length ≤ 64 && c.rules.length ≤ 4096
    && c.templates.all (fun t => 1 ≤ t.id && t.id ≤ 255 && 1 ≤ t.path && t.path ≤ 5 && 1 ≤ t.extractions.length && t.extractions.length ≤ 8
      && t.extractions.all (fun x => x.base ≤ 3 && 1 ≤ x.width && x.width ≤ 16)
      && t.extractions.foldl (fun n x => n + x.width) 0 ≤ 40
      && ((c.templates.filter (fun u => u.path = t.path)).length ≤ 4))
    && c.rules.all (fun r => r.resultKind ≠ 0 && r.resultKind ≠ 1 && r.resultKind ≠ 2 && r.resultKind ≤ 7 && 1 ≤ r.path && r.path ≤ 5 && r.template ≤ 255
      && r.key.length ≤ 40)

/-- R370. -/
def filtersOk (l : List FilterEntry) (p : PortModes) : Bool :=
  l.length ≤ 1024 && decide ((l.map (fun f => (f.port, f.index))).Nodup)
    && l.all (fun f => !f.reserved && f.port < 16 && f.index < 64 && f.match_ < 64 && f.queue < 8 && f.outerVid < 4096 && f.innerVid < 4096
      && f.outerPcp < 8 && macUsed (p.quadOf f.port) f.port)

/-- R350. -/
def GateListsRec.formatOk (g : GateListsRec) (p : PortModes) : Bool :=
  g.lists.length ≤ 16 && 1 ≤ g.batchWindow && g.batchWindow ≤ 8 && 4 ≤ g.paceGain && g.paceGain ≤ 64 && 1 ≤ g.systemWeight
    && g.systemWeight ≤ 255 && 8 ≤ g.maxDelay && g.maxDelay ≤ 4000 && 16 ≤ g.legQueuePackets && g.legQueuePackets ≤ 1024
    && 64 ≤ g.classLimit && g.classLimit ≤ 65535 && decide ((g.lists.map (·.egress)).Nodup)
    && g.lists.all (fun l => l.egress < 16 && p.egressValid l.egress && 1 ≤ l.entries.length && l.entries.length ≤ 256
      && 1000 ≤ l.cycleTime && l.cycleTime ≤ 1000000000 && l.entries.foldl (fun n e => n + e.2) 0 = l.cycleTime)

/-- R396. -/
def OmciLimits.formatOk (o : OmciLimits) : Bool :=
  o.maxPortIds ≤ 1023 && o.maxAllocMap ≤ 31 && o.queueMask < 256 && o.flags < 32 && 1 ≤ o.rate && o.rate ≤ 1000

/-- R462. -/
def dirLimitsOk (l : List DirLimit) : Bool := l.length ≤ 64 && l.all (fun d => d.mode ≤ 2)

/-- R489. -/
def Authorise.formatOk (a : Authorise) : Bool :=
  !a.reserved && a.stepMode ≤ 2 && a.zeroizeMode ≤ 2 && a.retireMode ≤ 2 && a.archiveMode ≤ 2 && 1 ≤ a.remapThreshold
    && a.remapThreshold ≤ 63 && 1 ≤ a.remapWindow && a.remapWindow ≤ 8 && 1 ≤ a.spareThreshold && a.spareThreshold ≤ 31
    && 1 ≤ a.spareWindow && a.spareWindow ≤ 8 && 1 ≤ a.retireCount && a.retireCount ≤ 15 && 8 ≤ a.retireWindow && a.retireWindow ≤ 4800
    && 128 ≤ a.mendingLimit && a.mendingLimit ≤ 256

/-- R508. -/
def DebugRec.formatOk (d : DebugRec) : Bool :=
  !d.reserved && (d.baud = 0 || (9600 ≤ d.baud && d.baud ≤ 3000000)) && (d.unlockMinutes = 0 || d.unlockMinutes ≤ 1440)

/-- R407, R408 and R138: the format of MEMORY_MAP on its own. -/
def MemoryMap.formatOk (m : MemoryMap) : Bool :=
  12 ≤ m.regions.length && m.regions.length ≤ 16 && m.pools.length ≤ 16 && 1 ≤ m.lining.length && m.lining.length ≤ 16 && m.setPoint ≤ 2
    && m.gloveboxBytes % 4096 = 0 && m.gloveboxBase % 4096 = 0
    && m.regions.all (fun r => 1 ≤ r.code && r.code ≤ 13) && decide ((m.regions.map (·.code)).Nodup)
    && m.pools.all (fun p => 1 ≤ p.blocks && p.blocks ≤ 36864) && m.lining.all (fun l => l.use ≤ 2)

/-- R89: a KEK record. -/
def kekOk (t : KeyToken) : Bool := t.formatOk && t.usage = 5 && t.kind = 1 && t.target ≤ 15

/-! ### What the Structure section may ask of the device -/

/-- The bytes that a buffer of a pool takes (R138). -/
def PoolEntry.footprint (p : PoolEntry) : Nat := ceilDiv (32 + p.blocks * 520 + 4096) 4096 * 4096

/-- The extents of the regions and pools. -/
def MemoryMap.extents (m : MemoryMap) : List (Nat × Nat) :=
  m.regions.map (fun r => (r.base, r.length)) ++ m.pools.map (fun p => (p.base, p.count * p.footprint))

/-- Bytes of one stack (R404). -/
def stackBytes : Nat := 0x600000000

/-- The stacks that an extent lies on. -/
def stacksOf (e : Nat × Nat) : List Nat :=
  (List.range 8).filter (fun k => e.1 < (k + 1) * stackBytes && k * stackBytes < e.1 + e.2)

/-- Whether two extents share a byte. -/
def overlaps (a b : Nat × Nat) : Bool := a.1 < b.1 + b.2 && b.1 < a.1 + a.2

/-- Whether no two extents of a list overlap. -/
def disjoint : List (Nat × Nat) → Bool
  | [] => true
  | a :: l => l.all (fun b => !overlaps a b) && disjoint l

/-- The least length of a region (R408). -/
def leastLength (p : PartitionRec) (glove : Nat) (code : Nat) : Nat :=
  match code with
  | 1 => p.legEntries * 128
  | 2 => p.legEntries * 32
  | 3 => p.classifyEntries * 64
  | 4 => p.keyEntries * 96
  | 5 => p.rtxRegion * 1048576
  | 6 => glove / 512
  | 7 => 75497472
  | 8 => 1073741824
  | 9 => 2686976
  | 10 => 8388608
  | 11 => 1073741824
  | 12 => 67108864
  | _ => 262144

/-- R101, R285: the ranges of PARTITION. -/
def PartitionRec.formatOk (p : PartitionRec) : Bool :=
  65536 ≤ p.legEntries && p.legEntries ≤ 1048576 && p.legEntries % 65536 = 0
    && p.classifyEntries ∈ [65536, 131072, 262144, 524288, 1048576] && 1024 ≤ p.keyEntries && p.keyEntries ≤ 131072
    && p.tunnelQueues ≤ 4096 && p.rtxRegion ≤ 65536

/-- R310: what refuses a PARTITION with STRUCTURE_INVALID, and a partition that no record gives, which has no legal size. -/
def PartitionRec.fits (p : PartitionRec) : Bool := p.formatOk && p.keyEntries % 8 = 0

/-- The USE of a Lining group (R407); UNUSED where no entry names it. -/
def MemoryMap.useOf (m : MemoryMap) (g : Nat) : Nat :=
  ((m.lining.find? (fun l => l.first ≤ g && g < l.first + l.count)).map (·.use)).getD 0

/-- The working groups that quarter `q` needs (R423). -/
def groupsNeeded (e : EnginesRec) (q : Nat) : Nat :=
  ((List.range 4).filter (fun i => bitOf e.veils (4 * q + i) = 1)).length
    + ((List.range 2).filter (fun i => bitOf e.encode (2 * q + i) = 1)).length
    + (if bitsOf e.decode (4 * q + 3) (4 * q) ≠ 0 || bitsOf e.audio (2 * q + 1) (2 * q) ≠ 0 then 1 else 0)

/-- Whether any power domain of quarter `q` may be powered (R25, R498). -/
def quarterOn (d : Nat) (q : Nat) : Bool :=
  bitsOf d (4 * q + 3) (4 * q) ≠ 0 || bitsOf d (16 + 2 * q + 1) (16 + 2 * q) ≠ 0 || bitOf d (24 + q) = 1
    || bitsOf d (28 + 2 * q + 1) (28 + 2 * q) ≠ 0 || bitsOf d (36 + 2 * q + 1) (36 + 2 * q) ≠ 0 || bitsOf d (48 + 2 * q + 1) (48 + 2 * q) ≠ 0

/-- Whether every enabled engine has its power domain (R36, R498). -/
def domainsCover (e : EnginesRec) (d : Nat) : Bool :=
  (List.range 16).all (fun i => bitOf e.decode i = 0 || bitOf d i = 1)
    && (List.range 8).all (fun i => bitOf e.encode i = 0 || bitOf d (16 + i) = 1)
    && (List.range 16).all (fun i => bitOf e.veils i = 0 || bitOf d (24 + i / 4) = 1)
    && (List.range 8).all (fun i => bitOf e.audio i = 0 || bitOf d (28 + i) = 1)
    && (List.range 8).all (fun i => bitOf e.cipher i = 0 || bitOf d (36 + i) = 1)

/-- The Structure records of an image that the STRUCTURE_INVALID checks read. -/
structure StructureView where
  engines : EnginesRec
  power : PowerDomains
  part : PartitionRec
  ports : PortModes
  map : MemoryMap
  deriving DecidableEq, Repr

/-- The view of a list of Structure records. -/
def structureView (rs : List Record) : StructureView :=
  { engines := (rs.findSome? Record.engines?).getD .none, power := (rs.findSome? Record.powerDomains?).getD .none,
    part := (rs.findSome? Record.partition?).getD .none, ports := (rs.findSome? Record.portModes?).getD .disabled,
    map := (rs.findSome? Record.memoryMap?).getD .none }

/-- R36: the rules of ENGINES that refuse an image with STRUCTURE_INVALID. -/
def StructureView.enginesFit (v : StructureView) : Bool :=
  v.engines.ingress = 0xFF && v.engines.forwarding = 0xFF && v.engines.band = 0xF && v.engines.cipher ≠ 0
    && !(bitOf v.engines.cipher 0 = 0 && v.ports.ponA.mode ≠ 0) && !(bitOf v.engines.cipher 4 = 0 && v.ports.ponB.mode ≠ 0)
    && !(bitOf v.engines.cipher 7 = 0 && v.map.gloveboxBytes ≠ 0) && domainsCover v.engines v.power.domains

/-- R498. -/
def StructureView.powerFits (v : StructureView) : Bool :=
  [44, 45, 46, 47, 55, 56, 57, 58, 63].all (fun b => bitOf v.power.domains b = 1)

/-- R408, R409: regions and pools. -/
def StructureView.memoryFits (v : StructureView) : Bool :=
  v.map.extents.all (fun e => e.1 % 4096 = 0 && e.1 + e.2 ≤ exchangeBase && (stacksOf e).all (fun k => bitOf v.power.domains (48 + k) = 1))
    && disjoint v.map.extents
    && (List.range 12).all (fun i => v.map.regions.any (fun r => r.code = i + 1))
    && (v.engines.decode = 0 || v.map.regions.any (fun r => r.code = 13))
    && v.map.regions.all (fun r => leastLength v.part v.map.gloveboxBytes r.code ≤ r.length)
    && v.map.gloveboxBytes ≤ 2 ^ 41

/-- R409, R423: the Lining. -/
def StructureView.liningFits (v : StructureView) : Bool :=
  v.map.lining.all (fun l => l.first + l.count ≤ 80) && disjoint (v.map.lining.map (fun l => (l.first, l.count)))
    && ((List.range 80).filter (fun g => v.map.useOf g = 1)).length = 1
    && (List.range 4).all (fun q => groupsNeeded v.engines q ≤ ((List.range 20).filter (fun j => v.map.useOf (20 * q + j) = 2)).length)
    && (List.range 80).all (fun g => v.map.useOf g = 0 || quarterOn v.power.domains (g / 20))

/-- Whether the Structure is within the device (STRUCTURE_INVALID otherwise). -/
def StructureView.fits (v : StructureView) : Bool :=
  v.part.fits && v.enginesFit && v.powerFits && v.memoryFits && v.liningFits

/-- R5, R6: the engines of ENGINES that a PSX-8832 lacks. -/
def EnginesRec.onPart (e : EnginesRec) (is8832 : Bool) : Bool :=
  e.decode < 2 ^ 16 && e.veils < 2 ^ 16 && e.encode < 2 ^ 8 && e.audio < 2 ^ 8 && e.cipher < 2 ^ 8
    && (!is8832 || (e.decode < 2 ^ 8 && e.encode < 2 ^ 4 && e.veils < 2 ^ 8))

/-! ### Verification (R76) -/

/-- The records that govern once the image has taken effect: a PARTIAL image carries what it omits. -/
def effective (s : State) (i : Image) (kind : Nat) : List Record :=
  if i.kind = 1 && !i.has kind then
    match kind with
    | 2 => s.trust.current.programs
    | 3 => s.trust.current.tables
    | 4 => s.trust.current.policy
    | k => ((s.trust.full.map (fun f => f.recordsOf k)).getD [])
  else i.recordsOf kind

/-- The body format rules of one record (R71, R72). -/
def recordOk (s : State) (i : Image) (r : Record) : Bool :=
  let ports := (structureView (effective s i 1)).ports
  match r with
  | .engines e => e.formatOk
  | .powerDomains p => p.formatOk
  | .partition p => p.formatOk
  | .portModes p => p.formatOk ((i.recordsOf 5).filterMap Record.kek? |>.map (·.target))
  | .memoryMap m => m.formatOk
  | .time t => t.formatOk
  | .settings x => x.formatOk (ports.ports.map (·.lpi))
  | .mittenCode m => m.formatOk
  | .parserGraph g => g.formatOk
  | .veilAssets l => assetsOk l
  | .bootSteps l => bootStepsOk l
  | .classify c => c.formatOk
  | .filters l => filtersOk l ports
  | .gateLists g => g.formatOk ports
  | .directiveLimits l => dirLimitsOk l
  | .export_ b => b < 16
  | .omciLimits o => o.formatOk
  | .debug d => d.formatOk
  | .authorise a => a.formatOk
  | .kek t => kekOk t
  | .anchor _ => i.kind = 2
  | .other optional => optional
  | .malformed => false

/-- All the records of an image. -/
def Image.records (i : Image) : List Record := i.sections.flatMap (·.records)

/-- BAD_FORMAT, header only (R68, R69, R83). -/
def headerFormatOk (i : Image) : Bool :=
  i.headerOk && i.kind ≤ 2 && 1 ≤ i.partMask && i.partMask ≤ 3 && i.antiRollback ≤ 128 && i.length ≤ 33554432
    && 1 ≤ i.sections.length && i.sections.length ≤ 5
    && i.sections.all (fun x => 1 ≤ x.kind && x.kind ≤ 5 && x.signer = (if x.kind ≤ 2 then 1 else 2))
    && (i.sections.zip (i.sections.drop 1)).all (fun p => p.1.kind < p.2.kind)
    && (i.kind = 1 || i.baseDigest = 0) && !(i.kind = 1 && (i.has 1 || i.has 5))
    && (i.nymrehalAnchor.isSome || !(i.has 1 || i.has 2))

/-- The KINDs that a lifecycle state accepts (R77, R78). -/
def kindAccepted (f : Fuses) (kind : Nat) : Bool :=
  match f.lifecycle with
  | 0 => kind = 2
  | 1 => kind ≠ 2 || f.anchor.isNone
  | 2 => kind ≠ 2
  | _ => false

/-- The first pass of R76: the code of the first header-only check that fails, 0 for none. -/
def firstPass (s : State) (i : Image) : Nat :=
  let f := s.trust.fuses
  if !headerFormatOk i then 1
  else if bitOf i.partMask (b2n f.is8832) = 0 then 2
  else if !kindAccepted f i.kind then 3
  else if (i.nymrehalAnchor.isSome && i.nymrehalAnchor ≠ some Config.nymrehalAnchor)
      || (f.anchor.isSome && f.anchor ≠ some i.customerAnchor) then 4
  else if (i.nymrehalAnchor.isSome && !i.nymrehalSigOk) || !i.customerSigOk then 5
  else if !i.envelopeOk then 6
  else if i.antiRollback < f.rollback then 8
  else if i.kind = 1 && (s.trust.full.map (fun g => g.digestOf 1)) ≠ some i.baseDigest then 9
  else if i.kind = 1 && s.trust.pendingPartial.isSome then 11
  else 0

/-- The bucket of a rule, and its number of buckets (R285). -/
def bucketOfKey (entries path template : Nat) (key : List Byte) : Nat :=
  Config.bucketOf (entries / 8) (BitVec.ofNat 8 path :: BitVec.ofNat 8 template :: key) % (entries / 8)

/-- Entries in use in a bucket: listed ones and slots reserved for a pending image (R288). -/
def bucketUse (s : State) (b : Nat) : Nat :=
  (s.ingress.classify.filter (fun e => e.1 / 8 = b)).length + (s.ingress.reservedSlots.filter (fun x => x = b)).length

/-- The rules of an image that are not already served by the current generation. -/
def newRules (s : State) (i : Image) : List ClassRule :=
  let rules := (((i.recordsOf 3).findSome? Record.classify?).map (·.rules)).getD []
  if i.kind = 1 then
    let old := ((s.trust.current.tables.findSome? Record.classify?).map (·.rules)).getD []
    rules.filter (fun r => !old.contains r)
  else rules

/-- Whether every new rule finds room in its bucket (R285, R288). -/
def rulesFit (s : State) (i : Image) : Bool :=
  let entries := (structureView (effective s i 1)).part.classifyEntries
  let used (b : Nat) : Nat := if i.kind = 1 then bucketUse s b else 0
  let bs := (newRules s i).map (fun r => bucketOfKey entries r.path r.template r.key)
  bs.all (fun b => used b + (bs.filter (fun x => x = b)).length ≤ 8)

/-- The second pass of R76. -/
def secondPass (s : State) (i : Image) : Nat :=
  let anchors := i.records.filterMap Record.anchor?
  let keks := (i.records.filterMap Record.kek?)
  let v := structureView (effective s i 1)
  if !(i.records.all (recordOk s i)) || (i.kind = 2 && anchors.length ≠ 1) || !decide ((keks.map (·.target)).Nodup) then 1
  else if !v.engines.onPart s.trust.fuses.is8832 then 2
  else if i.kind = 2 && anchors.head? ≠ some i.customerPair then 4
  else if keks.any (fun t => !t.unwraps) then 6
  else if (i.kind ≠ 1 && !v.fits) || !rulesFit s i then 10
  else 0

/-- The reason of IMAGE_STATUS that verification ends with (R76); 0 for acceptance. -/
def verifyImage (s : State) (i : Image) : Nat :=
  let a := firstPass s i
  if a ≠ 0 then a else if i.sections.any (fun x => !x.decrypts) then 7 else secondPass s i

end Sys2Proof
end

