-- ==== Sys2Proof/Machine/Budget.lean ====
section
/-!
DEFINITION. Budgets and admission (R34, R35, R58 to R61, R485, R487, R524), and the loading of the image-set register fields
(R73 and the chapter of each register).
-/

namespace Sys2Proof.Machine

/-! ### Engines in service -/

/-- The mask of the enabled engines of a kind, by the KIND codes of engine-reset (R36, R464). -/
def enabledMask (s : State) (kind : Nat) : Nat :=
  match kind with
  | 0 => rd s Reg.DECODE.DECODE_STATUS_CLUSTERS_ENABLED
  | 1 => rd s Reg.ENCODE.ENCODE_STATUS_CLUSTERS_ENABLED
  | 2 => rd s Reg.VEIL.VEIL_STATUS_VEILS_ENABLED
  | 3 => rd s Reg.AUDIO.AUDIO_STATUS_CLUSTERS_ENABLED
  | 4 => rd s Reg.CIPHER.CIPHER_STATUS_CLUSTERS_ENABLED
  | 5 => 0xFF
  | 6 => 0xFF
  | 7 => 0xF
  | 8 => 0xF
  | 9 => 0xF
  | 10 => 1
  | _ => 0

/-- The name of an engine in the lists of the fault state. -/
def engineId (kind index : Nat) : Nat := 256 * kind + index

/-- An engine in service: enabled, not retired and not fenced (R483, R488). -/
def inServiceEngine (s : State) (kind index : Nat) : Bool :=
  bitOf (enabledMask s kind) index = 1 && !s.faults.retired.contains (engineId kind index)
    && !s.faults.fenced.contains (engineId kind index)

/-- The engines of a kind in service. -/
def enginesOf (s : State) (kind : Nat) : List Nat := (List.range 16).filter (inServiceEngine s kind)

/-! ### Budgets -/

/-- The ECLK set point in force (R500). -/
def eclk (s : State) : Nat := rd s Reg.POWER.CLOCK_CONTROL_CURRENT

/-- Cycles of a tick (R34). -/
def tickCycles (s : State) : Nat := cyclesOf (eclk s)

/-- Bytes that one powered stack moves in a tick at a set point (R58). -/
def stackBudget (point : Nat) : Nat := if point = 0 then 128000000 else if point = 1 then 102400000 else 64000000

/-- The stacks whose domain is on. -/
def poweredStacks (s : State) : List Nat :=
  (List.range 8).filter (fun k => rd s (Reg.NEARMEM.MEM_STATUS_POWERED.on k) = 1)

/-- The number of bits set. -/
def popcount (n width : Nat) : Nat := ((List.range width).filter (fun i => bitOf n i = 1)).length

/-- Faulted channels in all stacks (R487). -/
def faultedChannels (s : State) : Nat :=
  (List.range 8).foldl (fun n k => n + popcount (rd s (Reg.NEARMEM.MEM_STATUS_CHANNELS_FAULTED.on k)) 16) 0

/-- The budget of one unit of a class (R524). -/
def unitBudget (s : State) (code : Nat) : Nat :=
  match code with
  | 1 => 4 * tickCycles s / 96
  | 2 => 4 * tickCycles s / 96
  | 3 => 8 * tickCycles s
  | 4 => 2048
  | 5 => 1024
  | 6 => 8 * tickCycles s
  | 7 => 64 * tickCycles s
  | _ => tickCycles s

/-- The per-tick budget of a class, over the engines in service (R36, R58, R485). -/
def budget (s : State) (code : Nat) : Nat :=
  match code with
  | 1 => (enginesOf s 0).length * 4 * tickCycles s / 96
  | 2 => (enginesOf s 1).length * 4 * tickCycles s / 96
  | 3 => (enginesOf s 2).length * 8 * tickCycles s
  | 4 => (enginesOf s 3).length * 2048
  | 5 => (enginesOf s 3).length * 1024
  | 6 => (enginesOf s 3).length * 8 * tickCycles s
  | 7 => (enginesOf s 4).length * 64 * tickCycles s
  | 8 => (enginesOf s 6).length * tickCycles s
  | 9 => (enginesOf s 7).length * tickCycles s
  | _ => (poweredStacks s).length * stackBudget (rd s Reg.NEARMEM.MEM_STATUS_SET_POINT) * (128 - faultedChannels s) / 128

/-- ADMIT_LIMIT, or in Mending the smaller of it and MENDING_LIMIT (R59, R485). -/
def admitLimit (s : State) : Nat :=
  if s.mode = .mending then min (rd s Reg.TIME.ADMIT_CONFIG) (rd s Reg.FAULTLOG.FAULT_CONFIG_MENDING_LIMIT)
  else rd s Reg.TIME.ADMIT_CONFIG

/-- An amount under a limit in 256ths; the limit does not apply to the audio budgets (R59). -/
def limited (code amount limit : Nat) : Nat := if code = 4 || code = 5 then amount else amount * limit / 256

/-- The limit of an admitted total, in whole units (R59). -/
def budgetLimit (s : State) (code : Nat) : Nat := limited code (budget s code) (admitLimit s)

/-- The limit of one unit's admitted charge (R524). -/
def unitLimit (s : State) (code : Nat) : Nat := limited code (unitBudget s code) (admitLimit s)

/-- The budget codes that a holder's new charges break, lowest first (R59 to R61): those whose total the change would raise above
the limit. -/
def brokenBudgets (s : State) (kind index : Nat) (cs : List Charge) : List Nat :=
  [1, 2, 3, 4, 5, 6, 7, 8, 9, 10].filter (fun code =>
    let old := sumCode (chargesOf s kind index) code
    let new_ := sumCode cs code
    decide (old < new_) && decide (budgetLimit s code * one < admitted s code - old + new_))

/-- Whether unit `unit` of a class can take a raise from `old` to `new_` (R61, R524). -/
def unitTakes (s : State) (code unit old new_ : Nat) : Bool :=
  decide (new_ ≤ old) || decide (admittedOn s code unit - old + new_ ≤ unitLimit s code * one)

/-- Room left on a unit under a limit in 256ths, as a signed amount. -/
def unitRoom (s : State) (code unit limit : Nat) : Int :=
  (limited code (unitBudget s code) limit * one : Nat) - (admittedOn s code unit : Nat)

/-- The unit with the most room that can take an amount, the lowest of those that tie. -/
def placeUnit (s : State) (code limit amount : Nat) (units : List Nat) : Option Nat :=
  leastBy (fun u => -unitRoom s code u limit)
    (units.filter (fun u => decide ((amount : Int) ≤ unitRoom s code u limit)))

/-! ### Image-set fields -/

/-- Set several fields. -/
def wrAll (s : State) : List (Fld × Nat) → State
  | [] => s
  | (f, v) :: l => wrAll (wr s f v) l

/-- A field or its default where it is 0. -/
def orDefault (v d : Nat) : Nat := if v = 0 then d else v

/-- The register fields that TIME sets (R67). -/
def timeFields (t : TimeRec) : List (Fld × Nat) :=
  [(Reg.TIME.TIME_CONFIG_FORMAT, bitOf t.config 0), (Reg.TIME.TIME_CONFIG_PTP_DELAY, bitOf t.config 1),
   (Reg.TIME.TIME_CONFIG_PTP_PROFILE, bitOf t.config 2), (Reg.TIME.TIME_CONFIG_PTP_DOMAIN, bitsOf t.config 9 3),
   (Reg.TIME.TIME_CONFIG_PTP_PORTS, bitsOf t.config 25 10), (Reg.TIME.SOURCE_PRIORITY_SLOTS, bitsOf t.priority 15 0),
   (Reg.TIME.SOURCE_PRIORITY_RESTORE_WAIT, bitsOf t.priority 23 16), (Reg.TIME.SOURCE_PRIORITY_LOCK_WINDOW, bitsOf t.priority 31 24),
   (Reg.TIME.JUMP_THRESHOLD, t.jump), (Reg.TIME.ADMIT_CONFIG, t.admitCfg), (Reg.TIME.PULSE_CONFIG_PPS_ENABLE, bitOf t.pulse 0),
   (Reg.TIME.PULSE_CONFIG_TICK_ENABLE, bitOf t.pulse 1), (Reg.TIME.PULSE_CONFIG_PPS_WIDTH, bitsOf t.pulse 18 2),
   (Reg.TIME.PULSE_CONFIG_TICK_WIDTH, bitsOf t.pulse 25 19)]

/-- The register fields that SETTINGS sets (R73). -/
def settingsFields (x : Settings) : List (Fld × Nat) :=
  [(Reg.TRUST.GEN_CONFIG, x.genDrainLimit), (Reg.DECODE.DECODE_CONFIG_CAP_PER_BLOCK, x.decodeCap),
   (Reg.DECODE.DECODE_CONFIG_HOLD_SLACK, x.decodeSlack), (Reg.DECODE.DECODE_CONFIG_REPAIR_WAIT, x.repairWait),
   (Reg.ENCODE.ENCODE_CONFIG_CAP_PER_BLOCK, x.encodeCap), (Reg.ENCODE.ENCODE_CONFIG_HOLD_SLACK, x.encodeSlack),
   (Reg.VEIL.VEIL_CONFIG_STALE_LIMIT, x.staleLimit), (Reg.VEIL.VEIL_CONFIG_COMPOSITE_SLACK, x.compositeSlack),
   (Reg.AUDIO.AUDIO_CONFIG_CONCEAL_LIMIT, x.concealLimit), (Reg.AUDIO.AUDIO_CONFIG_JB_MIN, x.jbMin),
   (Reg.AUDIO.AUDIO_CONFIG_JB_MAX, x.jbMax), (Reg.MITTEN.MITTEN_CONFIG, x.runLimit), (Reg.CIPHER.CIPHER_CONFIG_PIN_LIMIT, x.pinLimit),
   (Reg.CIPHER.CIPHER_CONFIG_REFRESH_TICKS, x.refreshTicks), (Reg.GAUNTLET.GAUNTLET_CONFIG_TIME_PROBE_TICKS, x.timeProbeTicks),
   (Reg.GAUNTLET.GAUNTLET_CONFIG_OLD_EPOCH_TICKS, x.oldEpochTicks), (Reg.INGRESS.INGRESS_CONFIG_QUEUE_CLASS, x.queueClass),
   (Reg.INGRESS.INGRESS_CONFIG_HASH_FIELDS, x.hashFields), (Reg.INGRESS.INGRESS_CONFIG_FRAG_TIMEOUT, x.fragTimeout),
   (Reg.GLOVEBOX.DMA_CONFIG, x.dmaRetryLimit)]
    ++ (List.range 8).map (fun k => (Reg.NEARMEM.MEM_CONFIG_SCRUB_HOURS.on k, x.scrubHours))

/-- The corrections of R373 by mode and FEC, in quarter ns: receive, transmit. -/
def ptpCorrection (mode fec : Nat) : Nat × Nat :=
  match mode, fec with
  | 1, 0 => (57, 39)
  | 1, _ => (894, 44)
  | 2, 0 => (26, 17)
  | 2, 1 => (345, 20)
  | 2, _ => (927, 114)
  | 3, _ => (554, 91)
  | 4, _ => (290, 64)
  | 5, _ => (328, 69)
  | 6, _ => (380, 79)
  | _, _ => (0, 0)

/-- The register fields of one MAC (R363, R373, R375). -/
def macFields (p : PortModes) (x : Settings) (m : Nat) : List (Fld × Nat) :=
  let e := p.ports.getD m .zero
  let q := p.quadOf m
  if macUsed q m then
    [(Reg.ETH.PORT_CONFIG_QUAD_MODE.on m, q), (Reg.ETH.PORT_CONFIG_FEC.on m, e.fec), (Reg.ETH.PORT_CONFIG_PMD.on m, e.pmd),
     (Reg.ETH.PORT_CONFIG_TRAINING.on m, b2n e.training), (Reg.ETH.PORT_CONFIG_LPI_ENABLE.on m, b2n e.lpi),
     (Reg.ETH.PORT_CONFIG_DEFAULT_QUEUE.on m, e.defaultQueue), (Reg.ETH.PORT_CONFIG_MAX_FRAME.on m, orDefault e.maxFrame 1522),
     (Reg.ETH.PORT_STATUS_VALID.on m, 1), (Reg.ETH.PTP_CORRECTION_RX_CORR.on m, (ptpCorrection q e.fec).1),
     (Reg.ETH.PTP_CORRECTION_TX_CORR.on m, (ptpCorrection q e.fec).2), (Reg.ETH.PTP_TRIM.on m, ofSigned 16 e.ptpTrim),
     (Reg.ETH.LPI_CONFIG_LPI_IDLE.on m, if e.lpi then x.lpiIdle.getD m 10 else 10),
     (Reg.ETH.LPI_CONFIG_RX_TW_REQ.on m, if q = 1 then 5 else if q = 2 then 3 else 0), (Reg.INGRESS.CUFF_CONFIG_BANK_SIZE.at m, e.bankSize)]
  else
    [(Reg.ETH.PORT_CONFIG_QUAD_MODE.on m, 0), (Reg.ETH.PORT_CONFIG_FEC.on m, 0), (Reg.ETH.PORT_CONFIG_PMD.on m, 0),
     (Reg.ETH.PORT_CONFIG_TRAINING.on m, 0), (Reg.ETH.PORT_CONFIG_LPI_ENABLE.on m, 0), (Reg.ETH.PORT_CONFIG_DEFAULT_QUEUE.on m, 0),
     (Reg.ETH.PORT_CONFIG_MAX_FRAME.on m, 0), (Reg.ETH.PORT_STATUS_VALID.on m, 0), (Reg.ETH.PTP_CORRECTION_RX_CORR.on m, 0),
     (Reg.ETH.PTP_CORRECTION_TX_CORR.on m, 0), (Reg.ETH.PTP_TRIM.on m, 0), (Reg.ETH.LPI_CONFIG_LPI_IDLE.on m, 0),
     (Reg.ETH.LPI_CONFIG_RX_TW_REQ.on m, 0), (Reg.INGRESS.CUFF_CONFIG_BANK_SIZE.at m, e.bankSize)]

/-- The register fields of one PON port (R377, R402). -/
def ponFields (e : PonEntry) (p : Nat) : List (Fld × Nat) :=
  [(Reg.PON.PON_CONFIG_MODE.on p, e.mode), (Reg.PON.PON_CONFIG_UP_RATE.on p, e.upRate), (Reg.PON.PON_CONFIG_PROTECTED.on p, b2n e.isProtected),
   (Reg.PON.PON_CONFIG_ENHANCED_SECURITY.on p, b2n e.enhanced), (Reg.PON.PON_CONFIG_DEFAULT_QUEUE.on p, e.defaultQueue),
   (Reg.PON.PON_CONFIG_SYNC_MATCHES.on p, orDefault e.syncMatches 2),
   (Reg.PON.PON_CONFIG_PSYNC_TOLERANCE.on p, if e.psyncTolerance = 0 then 2 else e.psyncTolerance - 1),
   (Reg.PON.PON_CONFIG_PROTECT_HOLD.on p, orDefault e.protectHold 50), (Reg.PON.PON_LIMITS_MAX_FRAME.on p, orDefault e.maxFrame 1522),
   (Reg.PON.PON_LIMITS_TOD_TRIM.on p, ofSigned 16 e.todTrim), (Reg.INGRESS.CUFF_CONFIG_BANK_SIZE.at (16 + p), e.bankSize)]

/-- The address that THREAD_STORE gets (R407). -/
def threadStore (m : MemoryMap) : Nat :=
  match (List.range 80).find? (fun g => m.useOf g = 1) with
  | some g => 0x004000000000 + g * 0x400000
  | none => 0

/-- The register fields that the Structure section sets. -/
def structureFields (rs : List Record) : List (Fld × Nat) :=
  let v := structureView rs
  let x := (rs.findSome? Record.settings?).getD .absent
  let t := (rs.findSome? Record.time?).getD .absent
  timeFields t ++ settingsFields x
    ++ (List.range 16).flatMap (macFields v.ports x) ++ ponFields v.ports.ponA 0 ++ ponFields v.ports.ponB 1
    ++ (List.range 8).map (fun k => (Reg.NEARMEM.MEM_CONFIG_SET_POINT_INITIAL.on k, v.map.setPoint))
    ++ [(Reg.LEGS.LEGS_CONFIG_LEG_UNITS, v.part.legEntries / 65536), (Reg.LEGS.LEGS_CONFIG_RTX_REGION, v.part.rtxRegion),
        (Reg.DECODE.DECODE_STATUS_CLUSTERS_ENABLED, v.engines.decode), (Reg.VEIL.VEIL_STATUS_VEILS_ENABLED, v.engines.veils),
        (Reg.ENCODE.ENCODE_STATUS_CLUSTERS_ENABLED, v.engines.encode), (Reg.AUDIO.AUDIO_STATUS_CLUSTERS_ENABLED, v.engines.audio),
        (Reg.MITTEN.MITTEN_STATUS_CLUSTERS_ENABLED, v.engines.audio), (Reg.CIPHER.CIPHER_STATUS_CLUSTERS_ENABLED, v.engines.cipher),
        (Reg.MITTEN.THREAD_STORE_LO, threadStore v.map), (Reg.MITTEN.THREAD_STORE_HI, threadStore v.map / 2 ^ 32),
        (Reg.GLOVEBOX.GLOVEBOX_CONFIG, v.map.gloveboxBytes / 4096), (Reg.GLOVEBOX.HOST_BASE_LO, v.map.gloveboxBase),
        (Reg.GLOVEBOX.HOST_BASE_HI, v.map.gloveboxBase / 2 ^ 32), (Reg.POWER.POWER_CONFIG_ECLK_INITIAL, v.power.eclkInitial),
        (Reg.POWER.POWER_CONFIG_HOST_CLOCK, b2n v.power.hostClock), (Reg.POWER.POWER_CONFIG_MARGIN_MIN, orDefault v.power.marginMin 25),
        (Reg.POWER.POWER_CONFIG_THROTTLE_TEMP, orDefault v.power.throttleTemp 115), (Reg.POWER.DOMAINS_ALLOWED_LO, v.power.domains),
        (Reg.POWER.DOMAINS_ALLOWED_HI, v.power.domains / 2 ^ 32)]

/-- The register fields that the Tables and the Policy of a generation set (R350, R489). -/
def generationFields (tables policy : List Record) : List (Fld × Nat) :=
  let g := (tables.findSome? Record.gateLists?).getD .absent
  let a := (policy.findSome? Record.authorise?).getD .absent
  [(Reg.BAND.BAND_CONFIG_BATCH_WINDOW, g.batchWindow), (Reg.BAND.BAND_CONFIG_PACE_GAIN, g.paceGain),
   (Reg.BAND.BAND_CONFIG_SYSTEM_WEIGHT, g.systemWeight), (Reg.BAND.BAND_CONFIG_MAX_DELAY, g.maxDelay),
   (Reg.BAND.BAND_LIMITS_CLASS_LIMIT, g.classLimit), (Reg.BAND.BAND_LIMITS_LEG_QUEUE_PACKETS, g.legQueuePackets),
   (Reg.LINING.LINING_CONFIG, a.spareThreshold), (Reg.FAULTLOG.FAULT_CONFIG_RETIRE_COUNT, a.retireCount),
   (Reg.FAULTLOG.FAULT_CONFIG_RETIRE_WINDOW, a.retireWindow), (Reg.FAULTLOG.FAULT_CONFIG_MENDING_LIMIT, a.mendingLimit),
   (Reg.FAULTLOG.FAULT_CONFIG_AUTO_RESET, b2n a.autoReset)]
    ++ (List.range 8).map (fun k => (Reg.NEARMEM.MEM_CONFIG_REMAP_THRESHOLD.on k, a.remapThreshold))

/-- A FULL image takes effect as generation 1 (R83): its fields are loaded, its Policy governs, and its KEKs are loaded with their counters (R89,
R91). -/
def loadImage (s : State) (i : Image) (source : Nat) : State :=
  let g : Generation :=
    { number := 1, programs := i.recordsOf 2, tables := i.recordsOf 3, policy := i.recordsOf 4,
      digests := [i.digestOf 2, i.digestOf 3, i.digestOf 4], since := s.time.boundaries, half := 0 }
  let keks := (i.recordsOf 5).filterMap Record.kek?
  let counters := keks.map (fun t => (5, t.target, t.counter)) ++ s.trust.counters.filter (fun c => c.1 ≠ 5)
  let t := { s.trust with full := some i, accepted := true, current := g, old := none, keks := keks.map (fun t => (t.target, t.key)), counters := counters }
  let s := { s with trust := t }
  wrAll s (structureFields (i.recordsOf 1) ++ generationFields (i.recordsOf 3) (i.recordsOf 4)
    ++ [(Reg.TRUST.IMAGE_STATUS_SOURCE, source), (Reg.TRUST.IMAGE_STATUS_IMAGE_ARB, i.antiRollback), (Reg.TRUST.IMAGE_ID, i.imageId),
        (Reg.TRUST.GENERATION_CURRENT, 1), (Reg.TRUST.IMAGE_STATUS_OLD_LIVE, 0), (Reg.TRUST.IMAGE_STATUS_PENDING, 0)])

/-- Whether an image has been accepted in the present Proving, or governs the present service (R477). -/
def imageRuns (s : State) : Bool := rd s Reg.TRUST.IMAGE_STATUS_SOURCE ≠ 0

/-- The running Structure records. -/
def structureOf (s : State) : List Record := (s.trust.full.map (fun i => i.recordsOf 1)).getD []

/-- The running Structure. -/
def structure_ (s : State) : StructureView := structureView (structureOf s)

/-- The live generation of a number: the old one if it carries it, else the current one (R85). -/
def generationOf (s : State) (g : Nat) : Generation :=
  match s.trust.old with
  | some o => if o.number = g then o else s.trust.current
  | none => s.trust.current

/-- The AUTHORISE record of the current generation. -/
def authoriseOf (s : State) : Authorise := (s.trust.current.policy.findSome? Record.authorise?).getD .absent

end Sys2Proof.Machine
end

