-- ==== Sys2Proof/Machine/Completion.lean ====
section
/-!
DEFINITION. Completions (R453 to R459): the entry that every directive receives once, and directives whose outcome is not yet final.
-/

namespace Sys2Proof.Machine

/-- The completion ring takes an entry: the link is up, the ring is enabled and not full. -/
def cplOpen (s : State) : Bool := s.host.linkUp && rd s cplRing.enable = 1 && !Ring.full s cplRing

/-- Write one completion entry into the ring. -/
def putCompletion (s : State) (c : Completion) : State :=
  let i := rd s cplRing.tail
  let s := emit s (.completion (Ring.slot s cplRing i) (completionBytes (Ring.phase s cplRing i) s.time.tickCount c))
  moderateCpl (wr s cplRing.tail (i + 1)) c.interrupt

/-- A completion becomes final: it is written, or it waits behind those that already wait for space. -/
def complete (s : State) (c : Completion) : State :=
  if cplOpen s && s.host.waiting.isEmpty then putCompletion s c
  else
    let s := { s with host := { s.host with waiting := s.host.waiting ++ [c] } }
    if s.host.linkUp && rd s cplRing.enable = 1 then raise s Reg.DIRECTIVE.DIRECTIVE_EVENTS_CPL_FULL else s

/-- Write as many waiting completions as the ring takes, oldest first. -/
def flushFrom (s : State) : List Completion → State
  | [] => { s with host := { s.host with waiting := [] } }
  | c :: l => if cplOpen s then flushFrom (putCompletion s c) l else { s with host := { s.host with waiting := c :: l } }

/-- The completions that wait are written once the ring has space. -/
def flush (s : State) : State := flushFrom s s.host.waiting

/-- The completion of an unfinished directive. -/
def Deferred.final (d : Deferred) (status detail result : Nat) : Completion :=
  { tag := d.tag, opcode := d.opcode, status := status, detail := detail, generation := d.generation, result := result, sequence := d.sequence,
    interrupt := d.interrupt }

/-- An unfinished directive ends. -/
def finish (s : State) (d : Deferred) (status detail result : Nat) : State :=
  let s := { s with host := { s.host with deferred := s.host.deferred.erase d } }
  complete (if status = 0 then s else bump s Reg.DIRECTIVE.REFUSED) (d.final status detail result)

/-- The unfinished directive of an opcode on an index. -/
def deferredOf (s : State) (opcode key : Nat) : Option Deferred :=
  s.host.deferred.find? (fun d => d.opcode = opcode && d.key = key)

/-- A directive's outcome waits. -/
def defer (s : State) (d : Deferred) : State := { s with host := { s.host with deferred := s.host.deferred ++ [d] } }

end Sys2Proof.Machine
end

