-- ==== Sys2Proof/Machine/Crown.lean ====
section
/-!
DEFINITION. The Crown (chapter 01): ports and the engines behind them, routes, arbitration, the protection of flits, and the check that every
request to an engine port or to an internal address meets (R20 to R29, R488). Every command that sends a request asks `crownReply` or
`portReply` here, and answers a refusal with `answerCrown`.
-/

namespace Sys2Proof.Machine

/-! ### Ports (R17, R24, R523) -/

/-- The first column of a quarter (R24). -/
def quarterColumn (q : Nat) : Nat := if q = 0 then 0 else if q = 1 then 3 else if q = 2 then 10 else 13

/-- The quarter of a column outside the hub (R17). -/
def columnQuarter (c : Nat) : Nat := if c < 3 then 0 else if c < 6 then 1 else if c < 13 then 2 else 3

/-- The Crown port of the controller that serves a channel (R24, R403). -/
def controllerPort (stack channel : Nat) : Nat := 16 * (4 * (stack % 2) + channel / 4) + quarterColumn (stack / 2)

/-- The Crown port of an engine by its KIND code and index, the lowest of its ports (R24, R523). -/
def enginePort (kind i : Nat) : Nat :=
  match kind with
  | 0 => 16 * (i % 4) + quarterColumn (i / 4) + 1
  | 1 => 16 * (2 * (i % 2)) + quarterColumn (i / 2) + 2
  | 2 => 16 * (4 + i % 4) + quarterColumn (i / 4) + 1
  | 3 => 16 * (4 + i % 2) + quarterColumn (i / 2) + 2
  | 4 => 16 * (6 + i % 2) + quarterColumn (i / 2) + 2
  | 5 => 16 * i + 6
  | 6 => 16 * i + 7
  | 7 => 16 * i + 8
  | 8 => 16 * (4 + i) + 8
  | 9 => 16 * i + 9
  | _ => 105

/-- The engine behind a port: its KIND and index (R24). 11 stands for a near-memory controller, with its stack, and 12 for a port of the
Kuthastan core. -/
def portEngine (p : Nat) : Nat × Nat :=
  let r := p / 16
  let c := p % 16
  let q := columnQuarter c
  if c = 6 then (5, r)
  else if c = 7 then (6, r)
  else if c = 8 then (if r < 4 then (7, r) else (8, r - 4))
  else if c = 9 then (if r < 4 then (9, r) else if r < 6 then (12, r - 4) else (10, 0))
  else
    match c - quarterColumn q with
    | 0 => (11, 2 * q + r / 4)
    | 1 => if r < 4 then (0, 4 * q + r) else (2, 4 * q + r - 4)
    | _ => if r < 4 then (1, 2 * q + r / 2) else if r < 6 then (3, 2 * q + r - 4) else (4, 2 * q + r - 6)

/-- The power domains that an engine stands in: it is powered while one of them is on (R25, R498). Port logic serves a PON port beside its
MACs. -/
def engineDomains (kind index : Nat) : List Nat :=
  match kind with
  | 0 => [index]
  | 1 => [16 + index]
  | 2 => [24 + index / 4]
  | 3 => [28 + index]
  | 4 => [36 + index]
  | 5 => [44 + index / 4]
  | 6 => [46]
  | 7 => [47]
  | 8 => (59 + index / 2) :: (if index = 0 then [61] else if index = 2 then [62] else [])
  | 9 => [58]
  | 11 => [48 + index]
  | _ => [63]

/-- The power domain of an engine that can be retired (R25). -/
def engineDomain (kind index : Nat) : Option Nat := if kind ≤ 7 then (engineDomains kind index).head? else none

/-- The domains that are on. -/
def domainsOn (s : State) : Nat := rd s Reg.POWER.DOMAINS_ON_LO + rd s Reg.POWER.DOMAINS_ON_HI * 2 ^ 32

/-- Whether a domain is on. -/
def domainOn (s : State) (d : Nat) : Bool := bitOf (domainsOn s) d = 1

/-- The domains of a quarter (R25). -/
def quarterDomains (q : Nat) : List Nat :=
  (List.range 4).map (· + 4 * q) ++ [16 + 2 * q, 17 + 2 * q, 24 + q, 28 + 2 * q, 29 + 2 * q, 36 + 2 * q, 37 + 2 * q, 48 + 2 * q, 49 + 2 * q]

/-- A router of the hub is always on; one of a quarter is on while any domain of that quarter is (R25). -/
def routerOn (s : State) (port : Nat) : Bool :=
  let c := port % 16
  (decide (6 ≤ c) && decide (c ≤ 9)) || (quarterDomains (columnQuarter c)).any (domainOn s)

/-- The engine behind a port is fused off: a video engine of quarters 2 and 3 of a PSX-8832 (R5). -/
def portFused (s : State) (p : Nat) : Bool :=
  s.trust.fuses.is8832 &&
    (match portEngine p with
     | (0, i) => decide (8 ≤ i)
     | (1, i) => decide (4 ≤ i)
     | (2, i) => decide (8 ≤ i)
     | _ => false)

/-- An engine that answers at its port: on the part, powered, not retired and not fenced (R5, R23, R483, R488). -/
def portServes (s : State) (p : Nat) : Bool :=
  let e := portEngine p
  let id := engineId e.1 e.2
  !portFused s p && (engineDomains e.1 e.2).any (domainOn s) && !s.faults.retired.contains id && !s.faults.fenced.contains id

/-! ### Routes (R17, R20) -/

/-- The links that a flit's route crosses, by router and direction (0 east, 1 west, 2 to the next row, 3 to the row before): along its row to
the destination column, then along that column. -/
def crownRoute (src dst : Nat) : List (Nat × Nat) :=
  let c := src % 16
  let d := dst % 16
  let r := src / 16
  let q := dst / 16
  (if c ≤ d then (List.range (d - c)).map (fun k => (16 * r + c + k, 0)) else (List.range (c - d)).map (fun k => (16 * r + c - k, 1)))
    ++ (if r ≤ q then (List.range (q - r)).map (fun k => (16 * (r + k) + d, 2)) else (List.range (r - q)).map (fun k => (16 * (r - k) + d, 3)))

/-- Two ports keep their path while no fenced link lies on the route of a request or of its response. -/
def pathOpen (s : State) (src dst : Nat) : Bool :=
  !(crownRoute src dst ++ crownRoute dst src).any (fun l => s.faults.linksFaulted.contains l)

/-- Whether a link crosses a die boundary (R17, R25): between columns 2 and 3, 5 and 6, 9 and 10, or 12 and 13. -/
def dieCrossing (l : Nat × Nat) : Bool :=
  let c := l.1 % 16
  (l.2 = 0 && c ∈ [2, 5, 9, 12]) || (l.2 = 1 && c ∈ [3, 6, 10, 13])

/-- The ECLK cycles of a transit: 2 for each router and 4 for each die boundary (R20). -/
def transitCycles (src dst : Nat) : Nat :=
  2 * ((crownRoute src dst).length + 1) + 4 * ((crownRoute src dst).filter dieCrossing).length

/-! ### Arbitration (R21) -/

/-- The ports of the Kuthastan core and housekeeping, which hold a priority credit. -/
def creditPorts : List Nat := [73, 89, 105, 121]

/-- ECLK cycles since the clock stood at zero, counted at the set point in force. -/
def nowCycle (s : State) : Nat := nowNs s * tickCycles s / Config.tickNs

/-- Whether a port's priority credit, of one flit in every 16 cycles, is free. -/
def creditFree (s : State) (port : Nat) : Bool :=
  creditPorts.contains port &&
    (match s.crown.credit.get port with
     | none => true
     | some c => decide (c + 16 ≤ nowCycle s))

/-- The input of the last router of a route by which its flits come: the direction of the last link, or 4 for the router's own port. -/
def lastInput (src dst : Nat) : Nat := (((crownRoute src dst).getLast?).map (·.2)).getD 4

/-- How far an input stands behind the one served last, in round-robin order over a router's five inputs. -/
def inputTurn (last input : Nat) : Nat := (input + 5 - last - 1) % 5

/-- Of the flits that compete for the engine port of `dst`, each with its source port: one under a free credit first, and otherwise the one
whose input is next in turn. -/
def arbitrate {α : Type} (s : State) (dst : Nat) (source : α → Nat) (flits : List α) : Option α :=
  match flits.find? (fun f => creditFree s (source f)) with
  | some f => some f
  | none => leastBy (fun f => (inputTurn ((s.crown.lastInput.get dst).getD 4) (lastInput (source f) dst) : Int)) flits

/-- A flit has been served: under its credit, or in turn. -/
def flitServed (s : State) (src dst : Nat) : State :=
  if creditFree s src then { s with crown := { s.crown with credit := s.crown.credit.put src (nowCycle s) } }
  else { s with crown := { s.crown with lastInput := s.crown.lastInput.put dst (lastInput src dst) } }

/-! ### Region rights (R27, R28, R244) -/

/-- The Mitten ports: those of the audio clusters (R24). -/
def isMittenPort (p : Nat) : Bool := (p % 16 ∈ [2, 5, 12, 15]) && (p / 16 = 4 || p / 16 = 5)

/-- The host and DMA ports, the Kuthastan core ports, and the cipher ports (R24). -/
def isHostPort (p : Nat) : Bool := p ∈ [9, 25, 41, 57]
def isKuthastanPort (p : Nat) : Bool := p ∈ [73, 89]
def isCipherPort (p : Nat) : Bool := (p % 16 ∈ [2, 5, 12, 15]) && (p / 16 = 6 || p / 16 = 7)

/-- Whether an address lies in the region of a code. -/
def inRegion (s : State) (code a : Nat) : Bool :=
  (structure_ s).map.regions.any (fun r => r.code = code && r.base ≤ a && a < r.base + r.length)

/-- Whether a port may reach a near-memory address. -/
def rightsOk (s : State) (port a : Nat) : Bool :=
  (!isHostPort port || exchangeBase ≤ a) && (!isMittenPort port || a < exchangeBase)
    && (!inRegion s 4 a || isKuthastanPort port || isCipherPort port) && (!inRegion s 12 a || isKuthastanPort port)

/-! ### The Lining and the window in the address space (R26, R423, R429) -/

/-- The first internal address of Lining group 0. -/
def liningBase : Nat := 0x004000000000
/-- Bytes of a group. -/
def groupBytes : Nat := 0x400000

/-- STATE of a group in GROUP_STATE_k. -/
def groupState (s : State) (g : Nat) : Nat := bitsOf (rd s (Reg.LINING.GROUP_STATE.at (g / 8))) (4 * (g % 8) + 3) (4 * (g % 8))

/-- STATE codes of GROUP_STATE_k. -/
def gRetained : Nat := 0
def gThreadStore : Nat := 1
def gEngine : Nat := 2
def gFenced : Nat := 3
def gFailed : Nat := 4
def gSubstitute : Nat := 5

/-- The Crown port by which other ports reach a group: the controller at row j mod 8 of the quarter's column c0. -/
def liningPort (g : Nat) : Nat := 16 * (g % 20 % 8) + quarterColumn (g / 20)

/-- The physical group that serves a group's addresses (R426). -/
def servedBy (s : State) (g : Nat) : Nat := (s.lining.substitutes.get g).getD g

/-- A group that answers no access: in retention, or failed (R423, R426). -/
def groupAbsent (s : State) (g : Nat) : Bool := groupState s g = gRetained || groupState s g = gFailed

/-- The first internal address of the Glovebox window, and its end if the image configured all of it (R26). -/
def gloveBase : Nat := 0x080000000000
def gloveLimit : Nat := 0x0A0000000000

/-- Whether an address lies in the part of the window that the image configured. -/
def inWindow (s : State) (a : Nat) : Bool :=
  decide (gloveBase ≤ a) && decide (a < gloveBase + rd s Reg.GLOVEBOX.GLOVEBOX_CONFIG * 4096)

/-! ### The check of a request (R23, R27, R28) -/

/-- Reason codes of an error response: PORT_OFF, ADDR_UNMAPPED, ADDR_DENIED, a memory error. -/
def reasonPortOff : Nat := Config.reasonCode 1
def reasonUnmapped : Nat := Config.reasonCode 2
def reasonDenied : Nat := Config.reasonCode 3
def reasonMemory : Nat := Config.reasonCode 4

/-- An error response at a port, in the record of what has left the device: one more than its reason; 0 is a success. -/
def refuseAt (s : State) (port reason : Nat) : State := emit s (.response port (reason + 1))

/-- An access to an unmapped address (R27). -/
def unmapped (s : State) (port a : Nat) : State :=
  refuseAt (fault s 0x10 0xFF port (reasonUnmapped % 65536 + a / 2 ^ 32 * 65536) (a % 2 ^ 32)) port reasonUnmapped

/-- An access outside a port's rights (R28). -/
def denied (s : State) (port a : Nat) : State :=
  refuseAt (fault s 0x11 0xFF port (a / 2 ^ 32 * 65536) (a % 2 ^ 32)) port reasonDenied

/-- A request to a port that does not answer: the error is counted at the sender (R23). -/
def portOff (s : State) (port : Nat) : State :=
  let s := { s with crown := { s.crown with portOff := s.crown.portOff.put port ((s.crown.portOff.get port).getD 0 + 1) } }
  refuseAt s port reasonPortOff

/-- What the Crown makes of a request. -/
inductive CrownReply where
  | pass
  | unmapped
  | denied
  | portOff
  deriving DecidableEq, Repr

/-- The state after a request has been refused; one that passes is left to its meaning. -/
def answerCrown (s : State) (port a : Nat) : CrownReply → State
  | .pass => s
  | .unmapped => unmapped s port a
  | .denied => denied s port a
  | .portOff => portOff s port

/-- Whether a stack's domain is on. -/
def stackOn (s : State) (stack : Nat) : Bool := rd s (Reg.NEARMEM.MEM_STATUS_POWERED.on stack) = 1

/-- A request from one engine port to another (R5, R23, R488). -/
def portReply (s : State) (src dst : Nat) : CrownReply := if portServes s dst && pathOpen s src dst then .pass else .portOff

/-- The channel of a near-memory address (R404). -/
def nearStack (a : Nat) : Nat := a / stackBytes
def nearOffset (a : Nat) : Nat := a % stackBytes
def nearChannel (a : Nat) : Nat := bitsOf (nearOffset a) 11 8 ^^^ bitsOf (nearOffset a) 19 16

/-- A request from an engine port to an internal address (R26 to R28). -/
def crownReply (s : State) (src a : Nat) : CrownReply :=
  if a < 8 * stackBytes then
    if !rightsOk s src a then .denied
    else if stackOn s (nearStack a) && pathOpen s src (controllerPort (nearStack a) (nearChannel a)) then .pass
    else .portOff
  else if liningBase ≤ a && a < liningBase + 80 * groupBytes then
    let g := servedBy s ((a - liningBase) / groupBytes)
    if isHostPort src then .denied
    else if !pathOpen s src (liningPort g) then .portOff
    else if groupAbsent s g then .unmapped
    else .pass
  else if gloveBase ≤ a && a < gloveLimit then
    if isHostPort src || isMittenPort src then .denied else if inWindow s a then .pass else .unmapped
  else .unmapped

/-- The first 64-byte word of a range that the Crown refuses, with the reply: requests go word by word. -/
def rangeReply (s : State) (src a n : Nat) : Option (Nat × CrownReply) :=
  (((List.range (n / 64 + 2)).map (fun k => max a ((a / 64 + k) * 64))).filter (fun b => decide (b < a + n))).findSome? (fun b =>
    if crownReply s src b = .pass then none else some (b, crownReply s src b))

/-! ### The protection of flits (R22) -/

/-- A link by number: its router and its direction. -/
def linkOf (link : Nat) : Nat × Nat := (link % 256, link / 256 % 256)

/-- What a link meets (R22): whether it is a lasting fault, and the state with the corrected errors and the replays counted. A single-bit error
concerns an on-die link, and a failed CRC a die crossing, where a flit is replayed up to 8 times. -/
def linkMeets (s : State) (link : Nat) (e : LinkError) : State × Bool :=
  let count (t : Table Nat) (n : Nat) : Table Nat := t.put link ((t.get link).getD 0 + n)
  match e with
  | .singleBit =>
    (if dieCrossing (linkOf link) then s else { s with crown := { s.crown with corrected := count s.crown.corrected 1 } }, false)
  | .doubleBit => (s, !dieCrossing (linkOf link))
  | .crc failures =>
    if dieCrossing (linkOf link) then ({ s with crown := { s.crown with replays := count s.crown.replays (min 8 failures) } }, decide (9 ≤ failures))
    else (s, false)

end Sys2Proof.Machine
end

