-- ==== Sys2Proof/Machine/NearMem.lean ====
section
/-!
DEFINITION. Near memory and its controllers (chapter 16): the address decode, the queues and the order of commands, refresh and
catch-up, errors and remapping, training, tracking and changes of set point.
-/

namespace Sys2Proof.Machine

/-! ### Address decode (R404) -/

/-- The byte within the channel. -/
def nearC (a : Nat) : Nat := nearOffset a / 4096 * 256 + nearOffset a % 256
def nearColumn (a : Nat) : Nat := nearC a % 1024
def nearGroup (a : Nat) : Nat := bitsOf (nearC a) 12 10 ^^^ bitsOf (nearC a) 20 18
/-- The bank of a channel, 0 to 31: four to a bank group. -/
def nearBank (a : Nat) : Nat := 4 * nearGroup a + bitsOf (nearC a) 14 13
def nearRow (a : Nat) : Nat := nearC a / 32768

/-- The first internal address of a row (the inverse of R404). -/
def rowAddress (stack channel bank row : Nat) : Nat :=
  let c := row * 32768 + bank % 4 * 8192 + ((bank / 4) ^^^ bitsOf row 5 3) * 1024
  stack * stackBytes + c / 256 * 4096 + (channel ^^^ bitsOf (c / 256) 7 4) * 256

/-! ### Channels and banks -/

/-- A channel at rest. -/
def MemChannel.idle : MemChannel :=
  { reads := [], writes := [], draining := false, precharging := none, lastRefresh := 0, heldUntil := 0, replaced := none, scrubAt := 0,
    scrubFrom := none, exhausted := [], trained := [none, none, none] }

/-- A bank at rest. -/
def MemBank.idle : MemBank :=
  { debt := 0, open_ := none, busyUntil := 0, lastActivate := 0, lastDue := none, buckets := [], lastRows := [], uncorrectable := [], spares := [],
    noSpare := false, answered := false }

def channelOf (s : State) (stack ch : Nat) : MemChannel := (s.near.channels.get (16 * stack + ch)).getD .idle
def bankIndex (stack ch bank : Nat) : Nat := 32 * (16 * stack + ch) + bank
def bankOf (s : State) (stack ch bank : Nat) : MemBank := (s.near.banks.get (bankIndex stack ch bank)).getD .idle

def withChannel (s : State) (stack ch : Nat) (c : MemChannel) : State :=
  { s with near := { s.near with channels := s.near.channels.put (16 * stack + ch) c } }
def withBank (s : State) (stack ch bank : Nat) (b : MemBank) : State :=
  { s with near := { s.near with banks := s.near.banks.put (bankIndex stack ch bank) b } }

/-- Refresh interval in ns (R411). -/
def tRefi (s : State) (stack : Nat) : Nat := if rd s (Reg.NEARMEM.MEM_STATUS_HOT.on stack) = 1 then 1950 else 3900

/-- Whether a stack is in catch-up. -/
def inCatchup (s : State) (stack : Nat) : Bool := rd s (Reg.NEARMEM.MEM_STATUS_CATCHUP.on stack) = 1

/-- Whether a bank may activate a row (R410, R412). -/
def mayActivate (s : State) (stack : Nat) (b : MemBank) : Bool :=
  decide (b.debt < 8) && !(inCatchup s stack && decide (4 < b.debt)) && decide (b.busyUntil ≤ nowNs s) && (b.lastActivate = 0 || decide (b.lastActivate + 9 ≤ nowNs s))

/-- Whether a queued request can be served now: its row is open, or its bank may activate. -/
def serveable (s : State) (stack ch : Nat) (q : QueuedRequest) : Bool :=
  let b := bankOf s stack ch q.bank
  if b.open_ = some q.row then decide (b.busyUntil ≤ nowNs s) else mayActivate s stack b

/-- The 64-byte word of a request. -/
def MemRequest.word (r : MemRequest) : Nat := r.address / 64

/-- Whether one request takes effect before another (R29): the one that arrived first; of a read and a write from different ports to one word that
arrived in the same cycle, the write. -/
def QueuedRequest.precedes (w r : QueuedRequest) : Bool :=
  let isWrite : Bool := match w.request.kind with
    | .write _ => true
    | .read => false
  decide (w.order < r.order) || (isWrite && w.cycle = r.cycle && w.request.port ≠ r.request.port)

/-- A write may not pass a read of its word that takes effect before it (R406). -/
def writeFree (c : MemChannel) (q : QueuedRequest) : Bool :=
  !c.reads.any (fun r => r.request.address / 64 = q.request.address / 64 && !q.precedes r)

/-- A command that a channel can issue. -/
inductive MemCommand where
  | refresh (bank : Nat) (forced : Bool)
  | serve (isWrite : Bool) (q : QueuedRequest)
  | nothing
  deriving DecidableEq, Repr

/-- The first command of R405 that can legally issue. -/
def nextCommand (s : State) (stack ch : Nat) : MemCommand :=
  let c := channelOf s stack ch
  let t := nowNs s
  let spaced := c.lastRefresh = 0 || decide (c.lastRefresh + 8 ≤ t)
  let ready (b : Nat) : Bool := decide ((bankOf s stack ch b).busyUntil ≤ t)
  let owed (b : Nat) : Bool :=
    let x := bankOf s stack ch b
    decide (8 ≤ x.debt) || (inCatchup s stack && decide (4 < x.debt))
  let forced := match c.precharging with
    | some b => if ready b then some b else none
    | none => (List.range 32).find? (fun b => spaced && ready b && owed b)
  let hit (q : QueuedRequest) : Bool := (bankOf s stack ch q.bank).open_ = some q.row && serveable s stack ch q
  let r3 := c.reads.find? (fun q => decide (q.arrived + 2000 ≤ t) && serveable s stack ch q)
  let r4 := c.reads.find? hit
  let w4 := if c.draining then c.writes.find? (fun q => hit q && writeFree c q) else none
  let r5 := c.reads.find? (serveable s stack ch)
  let w5 := if c.draining || c.reads.isEmpty then c.writes.find? (fun q => serveable s stack ch q && writeFree c q) else none
  let named (b : Nat) : Bool := (c.reads ++ c.writes).any (fun q => q.bank = b)
  let idle := if c.precharging.isSome then none else (List.range 32).find? (fun b => spaced && ready b && !named b && decide (0 < (bankOf s stack ch b).debt))
  if s.near.retraining || (decide (t < c.heldUntil) && c.replaced.isNone) then .nothing
  else
  match forced with
  | some b => .refresh b true
  | none =>
    if t < c.heldUntil then .nothing
    else
      match r3.or r4 with
      | some q => .serve false q
      | none =>
        match w4 with
        | some q => .serve true q
        | none =>
          match r5 with
          | some q => .serve false q
          | none =>
            match w5 with
            | some q => .serve true q
            | none => match idle with
              | some b => .refresh b false
              | none => .nothing

/-! ### Windows of corrected errors (R415, R428) -/

/-- One more corrected error in the current bucket of 1,000 ticks. -/
def countBucket (boundaries : Nat) (l : List (Nat × Nat)) : List (Nat × Nat) :=
  let n := boundaries / 1000
  if l.any (fun e => e.1 = n) then l.map (fun e => if e.1 = n then (n, e.2 + 1) else e) else (n, 1) :: l

/-- The count of a window of `w` buckets that ends with the current one. -/
def windowCount (boundaries w : Nat) (l : List (Nat × Nat)) : Nat :=
  (l.filter (fun e => boundaries / 1000 < e.1 + w)).foldl (fun n e => n + e.2) 0

/-- The row that appears most often, ties to the most recent; rows are newest first. -/
def commonRow (rows : List Nat) : Option Nat := leastBy (fun r => -((rows.filter (· = r)).length : Int)) rows

/-- A row with two uncorrectable errors within a window. -/
def doubleRow (boundaries w : Nat) (l : List (Nat × Nat)) : Option Nat :=
  let recent := l.filter (fun e => boundaries / 1000 < e.2 + w)
  (recent.find? (fun e => 2 ≤ (recent.filter (fun x => x.1 = e.1)).length)).map (·.1)

/-! ### Serving one request (R406, R414) -/

/-- Whether a word is poisoned (R413). -/
def isPoisoned (s : State) (w : Nat) : Bool := s.near.poisoned.contains w

/-- Whether a word of a range is held poisoned. -/
def rangePoisoned (s : State) (address n : Nat) : Bool :=
  (List.range (ceilDiv (address % 64 + n) 64)).any (fun k => isPoisoned s (address / 64 + k))

/-- How a word comes back: a poisoned word decodes as uncorrectable. -/
def eccOf (s : State) (w : Nat) (e : Ecc) : Ecc :=
  if isPoisoned s w then match e with
    | .parity n ok => .parity n ok
    | _ => .uncorrectable Config.poisonSyndrome
  else e

/-- The bank's record of a corrected error. A window count that has fallen below the threshold can cross it again. -/
def correctedIn (s : State) (stack ch bank row : Nat) : State :=
  let b := bankOf s stack ch bank
  let above := decide (rd s (Reg.NEARMEM.MEM_CONFIG_REMAP_THRESHOLD.on stack) ≤ windowCount s.time.boundaries (authoriseOf s).remapWindow b.buckets)
  let s := withBank s stack ch bank
    { b with buckets := countBucket s.time.boundaries b.buckets, lastRows := (row :: b.lastRows).take 4, answered := b.answered && above }
  bump (bump s (Reg.NEARMEM.CORRECTED.on stack)) ((Reg.NEARMEM.CORRECTED_CH.on stack).at ch)

/-- An uncorrectable error: counted, raised and logged with the requester's port (R414). -/
def uncorrectableIn (s : State) (stack ch bank row port a syndrome : Nat) : State :=
  let b := bankOf s stack ch bank
  let s := withBank s stack ch bank { b with uncorrectable := (row, s.time.boundaries / 1000) :: b.uncorrectable }
  let s := raise (bump s (Reg.NEARMEM.UNCORRECTABLE.on stack)) (Reg.NEARMEM.MEM_EVENTS_UNCORRECTABLE.on stack)
  fault s 0x20 17 port (syndrome % 65536 + a / 2 ^ 32 * 65536) (a % 2 ^ 32)

/-- A leg's entry is changed. -/
def updLeg (s : State) (l : Nat) (f : Leg → Leg) : State := { s with legs := s.legs.update l f }

/-- A leg entry read with an uncorrectable error (R108): the leg carries nothing until it is released. -/
def faultLeg (s : State) (l : Nat) : State :=
  raise (bump (updLeg s l (fun x => { x with state := .faulted })) Reg.LEGS.LEG_FAULTS) Reg.LEGS.LEGS_EVENTS_LEG_FAULT

/-- The legs whose entries a 64-byte word at an address holds: LEG_TABLE is region 1, with 128 bytes for each entry (R104, R408). -/
def legAt (s : State) (a : Nat) : Option Nat :=
  match (structure_ s).map.regions.find? (fun r => r.code = 1) with
  | some r => if r.base ≤ a && a < r.base + r.length then some ((a - r.base) / 128) else none
  | none => none

/-- A read of an entry in LEG_TABLE came back uncorrectable: a leg in use becomes FAULTED. -/
def faultLegAt (s : State) (a : Nat) : State :=
  match legAt s a with
  | some l => if ((s.legs.get l).map (fun x => x.state = .admitted || x.state = .active)).getD false then faultLeg s l else s
  | none => s

/-- The bytes that a read returns: memory with the queued writes that take effect before the read (R29, R406). -/
def readBytes (s : State) (c : MemChannel) (q : QueuedRequest) : List Byte :=
  let m := c.writes.foldl (fun m w =>
    match w.request.kind with
    | .write bs => if w.request.address / 64 = q.request.address / 64 && w.precedes q then memWrite m w.request.address bs else m
    | .read => m) s.mem
  memRead m (q.request.address / 64 * 64) 64

/-- The effect of serving one request with its codewords as they come back (R406, R414). -/
def serve (s : State) (stack ch : Nat) (isWrite : Bool) (q : QueuedRequest) (e : Ecc) : State :=
  let c := channelOf s stack ch
  let b := bankOf s stack ch q.bank
  let hit := b.open_ = some q.row
  let a := q.request.address
  let w := a / 64
  let port := q.request.port
  let s := bump s (if hit then Reg.NEARMEM.ROW_HITS.on stack else Reg.NEARMEM.ROW_MISSES.on stack)
  let s := if hit then s else withBank s stack ch q.bank { b with open_ := some q.row, lastActivate := nowNs s }
  let s := bump s (if isWrite then Reg.NEARMEM.WRITES.on stack else Reg.NEARMEM.READS.on stack)
  let whole : Bool := match q.request.kind with
    | .write bs => decide (bs.length = 64)
    | .read => false
  let e := if whole then (match e with
      | .parity n ok => .parity n ok
      | _ => .clean) else eccOf s w e
  let s := withChannel s stack ch
    (if isWrite then
      let ws := c.writes.erase q
      { c with writes := ws, draining := if ws.length ≤ 16 then false else c.draining }
     else { c with reads := c.reads.erase q })
  let store (s : State) : State :=
    match q.request.kind with
    | .write bs => emit { s with mem := memWrite s.mem a bs, near := { s.near with poisoned := if whole then s.near.poisoned.filter (· ≠ w) else s.near.poisoned } } (.response port 0)
    | .read => emit s (.memoryData (w * 64) (readBytes s c q) false)
  match e with
  | .clean => store s
  | .corrected => store (correctedIn s stack ch q.bank q.row)
  | .uncorrectable syn =>
    let s := uncorrectableIn s stack ch q.bank q.row port a syn
    if isWrite then refuseAt s port reasonMemory else emit (faultLegAt s a) (.memoryData (w * 64) (zeros 64) true)
  | .parity n succeeded =>
    let s := bumpBy s (Reg.NEARMEM.CA_RETRIES.on stack) n
    if succeeded then store s
    else
      let c := channelOf s stack ch
      let s := withChannel s stack ch { c with exhausted := nowNs s :: c.exhausted }
      let s := raise s (Reg.NEARMEM.MEM_EVENTS_CA_RETRY_FAILED.on stack)
      let s := fault s 0x21 17 port (n + a / 2 ^ 32 * 65536) (a % 2 ^ 32)
      if isWrite then refuseAt s port reasonMemory else emit s (.memoryData (w * 64) (zeros 64) true)

/-- A refresh of a bank: an open row is precharged first, which takes 4 ns, and the channel's next refresh is this bank's (R410, R412). -/
def refresh (s : State) (stack ch bank : Nat) (forced : Bool) : State :=
  let b := bankOf s stack ch bank
  if b.open_.isSome then
    let s := withBank s stack ch bank { b with open_ := none, busyUntil := nowNs s + 4 }
    withChannel s stack ch { channelOf s stack ch with precharging := some bank }
  else
    let s := withBank s stack ch bank { b with debt := b.debt - 1, busyUntil := nowNs s + 130 }
    let s := withChannel s stack ch { channelOf s stack ch with lastRefresh := nowNs s, precharging := none }
    let s := bump s (Reg.NEARMEM.REFRESHES.on stack)
    if forced && decide (8 ≤ b.debt) then bump s (Reg.NEARMEM.REFRESHES_FORCED.on stack) else s

/-- Whether the queue of a request's kind has room (R405). -/
def queueRoom (c : MemChannel) (r : MemRequest) : Bool :=
  match r.kind with
  | .read => decide (c.reads.length < 64)
  | .write _ => decide (c.writes.length < 64)

/-- A request enters the queue of its kind (R405). -/
def enqueue (s : State) (stack ch : Nat) (r : MemRequest) : State :=
  let c := channelOf s stack ch
  let q : QueuedRequest := { request := r, bank := nearBank r.address, row := nearRow r.address, arrived := nowNs s, cycle := s.time.clock,
                             order := s.near.arrivals }
  let s := { s with near := { s.near with arrivals := s.near.arrivals + 1 } }
  match r.kind with
  | .read => withChannel s stack ch { c with reads := c.reads ++ [q] }
  | .write _ => withChannel s stack ch { c with writes := c.writes ++ [q], draining := c.draining || decide (48 ≤ c.writes.length + 1) }

/-- The requests that stand at the head of the Crown before a channel: of each source port the oldest, since flits of one port to one
controller arrive in order (R20), if it is for this channel and finds room. A channel is named by 16 x stack + channel; four of them share a
controller. -/
def crownHeads (s : State) (stack ch : Nat) : List (Nat × MemRequest) :=
  let mine := s.near.crown.filter (fun e => e.1 / 4 = (16 * stack + ch) / 4)
  mine.filter (fun e => e.1 = 16 * stack + ch && queueRoom (channelOf s stack ch) e.2 && mine.find? (fun x => x.2.port = e.2.port) = some e)

/-- Requests that waited in the Crown move into the channel's queues as long as there is room, in the order in which the last router serves
them (R21); `fuel` bounds their number. -/
def admitWaiting (s : State) (stack ch : Nat) : Nat → State
  | 0 => s
  | fuel + 1 =>
    match arbitrate s (controllerPort stack ch) (fun e => e.2.port) (crownHeads s stack ch) with
    | none => s
    | some e =>
      let s := flitServed { s with near := { s.near with crown := s.near.crown.erase e } } e.2.port (controllerPort stack ch)
      admitWaiting (enqueue s stack ch e.2) stack ch fuel

/-- The requests that wait in the Crown, with a new one behind them, and what of them the channel's queues take. -/
def arrive (s : State) (stack ch : Nat) (r : Option MemRequest) : State :=
  let s := match r with
    | some r => { s with near := { s.near with crown := s.near.crown ++ [(16 * stack + ch, r)] } }
    | none => s
  admitWaiting s stack ch s.near.crown.length

/-- The channel issues the first command that it can; `ecc` is how the codewords of that command come back. -/
def issueCommand (s : State) (stack ch : Nat) (ecc : Ecc) : State :=
  match nextCommand s stack ch with
  | .refresh b forced => refresh s stack ch b forced
  | .serve w q => serve s stack ch w q ecc
  | .nothing => s

/-- Whether a request is one that a channel's controller takes: at most one word, of that channel. -/
def requestFits (stack ch : Nat) (r : MemRequest) : Bool :=
  (match r.kind with
   | .read => true
   | .write bs => decide (bs.length ≤ 64 - r.address % 64) && decide (0 < bs.length))
    && nearStack r.address % 8 = stack && nearChannel r.address = ch

/-- MEMORY_REQUEST: a request to near memory or beyond it (or none) reaches the Crown, which answers it or passes it to its channel; the channel
issues the first command that it can. A fused port sends nothing (R5). -/
def execMemoryRequest (stack channel : Nat) (request : Option MemRequest) (ecc : Ecc) (s : State) : Host.Outcome State Fault Refusal :=
  if !(decide (stack < 8) && decide (channel < 16)) then ok s
  else
    match request with
    | none => ok (if stackOn s stack then issueCommand (arrive s stack channel none) stack channel ecc else s)
    | some r =>
      if !requestFits stack channel r || portFused s r.port then ok s
      else if crownReply s r.port r.address = .pass then
        ok (if r.address < 8 * stackBytes then issueCommand (arrive s stack channel (some r)) stack channel ecc else s)
      else ok (answerCrown s r.port r.address (crownReply s r.port r.address))

/-! ### Refresh, temperature, catch-up (R410 to R412) -/

/-- The next due instant of a bank: one interval after its last. The first instants of the banks are staggered evenly over an interval of local time. -/
def nextDue (s : State) (stack channel bank : Nat) : Nat :=
  let n := tRefi s stack
  match (bankOf s stack channel bank).lastDue with
  | some t => t + n
  | none => nowNs s + (bank * n / 32 + n - nowNs s % n) % n

/-- REFRESH_DUE: a bank's due instant raises its debt. -/
def execRefreshDue (stack channel bank : Nat) (s : State) : Host.Outcome State Fault Refusal :=
  if !(decide (stack < 8) && decide (channel < 16) && decide (bank < 32) && stackOn s stack) then ok s
  else
    let b := bankOf s stack channel bank
    let due := nextDue s stack channel bank
    match reach s due with
    | none => ok s
    | some s => ok (withBank s stack channel bank { b with debt := min 8 (b.debt + 1), lastDue := some due })

/-- Whether a bank of a stack has a debt above 4. -/
def debtAbove4 (s : State) (stack : Nat) : Bool :=
  s.near.banks.any (fun e => e.1 / 512 = stack && decide (4 < e.2.debt))

/-- TEMPERATURE_READING: every 32 us the controller reads the stack's temperature. -/
def execTemperatureReading (stack : Nat) (celsius : Int) (s : State) : Host.Outcome State Fault Refusal :=
  if !(decide (stack < 8) && stackOn s stack) then ok s
  else
    match reach s (match s.near.lastReading.get stack with | some t => t + 32000 | none => 0) with
    | none => ok s
    | some s =>
      let hot := rd s (Reg.NEARMEM.MEM_STATUS_HOT.on stack) = 1
      let s := { s with near := { s.near with lastReading := s.near.lastReading.put stack (nowNs s) } }
      let s := wr s (Reg.NEARMEM.MEM_STATUS_TEMPERATURE.on stack) (ofSigned 8 celsius)
      let s := if 85 < celsius then wr s (Reg.NEARMEM.MEM_STATUS_HOT.on stack) 1
               else if celsius ≤ 82 then wr s (Reg.NEARMEM.MEM_STATUS_HOT.on stack) 0 else s
      let s := if 95 < celsius then
          fault (raise s (Reg.NEARMEM.MEM_EVENTS_OVERTEMP.on stack)) 0x24 17 (controllerPort stack 0) (ofSigned 16 celsius) 0
        else s
      if !hot && decide (85 < celsius) && debtAbove4 s stack && !inCatchup s stack then
        let s := wr s (Reg.NEARMEM.MEM_STATUS_CATCHUP.on stack) 1
        let s := bump { s with near := { s.near with catchupFrom := s.near.catchupFrom.put stack (nowNs s) } } (Reg.NEARMEM.CATCHUPS.on stack)
        ok (raise s (Reg.NEARMEM.MEM_EVENTS_CATCHUP_ENTERED.on stack))
      else ok s

/-- CATCHUP_END: every bank of the stack has a debt of 4 or less. -/
def execCatchupEnd (stack : Nat) (s : State) : Host.Outcome State Fault Refusal :=
  if decide (stack < 8) && inCatchup s stack && !debtAbove4 s stack then
    let took := nowNs s - (s.near.catchupFrom.get stack).getD (nowNs s)
    let s := wr s (Reg.NEARMEM.MEM_STATUS_CATCHUP.on stack) 0
    ok (wr s (Reg.NEARMEM.CATCHUPS_LONGEST.on stack) (min (2 ^ 32 - 1) (max took (rd s (Reg.NEARMEM.CATCHUPS_LONGEST.on stack)))))
  else ok s

/-! ### Remapping (R415) -/

/-- The row that a bank must remap, and the window count that causes it. -/
def remapDue (s : State) (stack ch bank : Nat) : Option (Nat × Nat) :=
  let b := bankOf s stack ch bank
  let w := (authoriseOf s).remapWindow
  let n := windowCount s.time.boundaries w b.buckets
  match doubleRow s.time.boundaries w b.uncorrectable with
  | some r => some (r, n)
  | none => if rd s (Reg.NEARMEM.MEM_CONFIG_REMAP_THRESHOLD.on stack) ≤ n then (commonRow b.lastRows).map (fun r => (r, n)) else none

/-- The words of a row: its 1 KiB are four pieces of 256 bytes, 4 KiB apart (R404). -/
def rowWord (stack channel bank row k : Nat) : Nat := (rowAddress stack channel bank row + k / 4 * 4096 + k % 4 * 64) / 64

/-- The words of a row that its copy meets as uncorrectable are written as poison. -/
def poisonRow (s : State) (stack channel bank row : Nat) (bad : List Nat) : State :=
  let l := (bad.map (fun k => rowWord stack channel bank row (k % 16))).filter (fun w => !s.near.poisoned.contains w)
  { s with near := { s.near with poisoned := l.eraseDups ++ s.near.poisoned } }

/-- ROW_REMAP: a row moves to a spare row of its bank, its 16 words through the code, of which `bad` are uncorrectable; with no spare left
REMAP_EXHAUSTED is raised, and later crossings are logged. -/
def execRowRemap (stack channel : Nat) (c : RowCopy) (s : State) : Host.Outcome State Fault Refusal :=
  let bank := c.bank
  if !(decide (stack < 8) && decide (channel < 16) && decide (bank < 32)) then ok s
  else
    match remapDue s stack channel bank with
    | none => ok s
    | some (row, n) =>
      let b := bankOf s stack channel bank
      if b.spares.length < 4 then
        let s := withBank (poisonRow s stack channel bank row c.uncorrectable) stack channel bank
          { b with open_ := none, buckets := [], uncorrectable := b.uncorrectable.filter (fun e => e.1 ≠ row),
                   spares := b.spares ++ [{ row := row, tick := s.time.tickCount, corrected := n }] }
        ok (raise (bump s (Reg.NEARMEM.ROWS_REMAPPED.on stack)) (Reg.NEARMEM.MEM_EVENTS_ROW_REMAPPED.on stack))
      else if b.answered && (doubleRow s.time.boundaries (authoriseOf s).remapWindow b.uncorrectable).isNone then ok s
      else if b.noSpare then
        let a := rowAddress stack channel bank row
        ok (fault (withBank s stack channel bank { b with answered := true, uncorrectable := b.uncorrectable.filter (fun e => e.1 ≠ row) }) 0x23 17 (controllerPort stack channel) (bank + a / 2 ^ 32 * 65536) (a % 2 ^ 32))
      else
        ok (raise (withBank s stack channel bank { b with noSpare := true, answered := true, uncorrectable := b.uncorrectable.filter (fun e => e.1 ≠ row) }) (Reg.NEARMEM.MEM_EVENTS_REMAP_EXHAUSTED.on stack))

/-- Whether a channel may read a word for scrub: it has nothing else to issue, and a new pass begins only when its period is over. -/
def scrubDue (s : State) (stack channel : Nat) : Bool :=
  let c := channelOf s stack channel
  c.reads.isEmpty && c.writes.isEmpty && decide (c.heldUntil ≤ nowNs s) && nextCommand s stack channel = .nothing
    && (c.scrubAt ≠ 0 || (match c.scrubFrom with
        | some t => decide (t + rd s (Reg.NEARMEM.MEM_CONFIG_SCRUB_HOURS.on stack) * 3600000000000 ≤ nowNs s)
        | none => true))

/-- SCRUB_READ: a channel reads its next word at the lowest order of R405 (R416). -/
def execScrubRead (stack channel : Nat) (ecc : Ecc) (s : State) : Host.Outcome State Fault Refusal :=
  let c := channelOf s stack channel
  if !(decide (stack < 8) && decide (channel < 16) && stackOn s stack && scrubDue s stack channel) then ok s
  else
    let at_ := c.scrubAt
    let bank := 4 * (bitsOf at_ 12 10 ^^^ bitsOf at_ 20 18) + bitsOf at_ 14 13
    let row := at_ / 32768
    let a := rowAddress stack channel bank row + at_ % 1024 / 256 * 4096 + at_ % 256
    let s := withChannel s stack channel { c with scrubAt := (at_ + 64) % (49152 * 32768),
                                                        scrubFrom := if at_ = 0 then some (nowNs s) else c.scrubFrom }
    match eccOf s (a / 64) ecc with
    | .corrected => ok (bump (correctedIn s stack channel bank row) (Reg.NEARMEM.SCRUB_CORRECTED.on stack))
    | .uncorrectable syn => ok (uncorrectableIn s stack channel bank row (controllerPort stack channel) a syn)
    | _ => ok s

/-! ### Training and set points (R417 to R419) -/

/-- Whether a channel's set for a point is valid. -/
def setValid (s : State) (c : MemChannel) (point : Nat) : Bool :=
  match c.trained.getD point none with
  | some t => decide (nowNs s < t + 3600000000000)
  | none => false

/-- SET_VALID of a stack (R420). -/
def validMask (s : State) (stack : Nat) : Nat :=
  ((List.range 3).filter (fun p => (List.range 16).all (fun ch => setValid s (channelOf s stack ch) p))).foldl (fun n p => n + 2 ^ p) 0

/-- TRAINING_STATUS shows the sets that are valid. -/
def showSets (s : State) (stack : Nat) : State := wr s (Reg.NEARMEM.TRAINING_STATUS.on stack) (validMask s stack)

/-- A channel trains or tracks a set point. -/
def trainSet (s : State) (stack ch point : Nat) : State :=
  let c := channelOf s stack ch
  withChannel s stack ch { c with trained := updateAt c.trained point (fun _ => some (nowNs s)) }

/-- A step on the set in force holds a channel for some ns; what it replaces is kept until it ends (R419). -/
def holdStep (s : State) (stack ch ns : Nat) : State :=
  let c := channelOf s stack ch
  withChannel s stack ch { c with heldUntil := nowNs s + ns, replaced := some (c.trained.getD (rd s Reg.NEARMEM.MEM_STATUS_SET_POINT) none) }

/-- Whether a step is in progress on a channel. -/
def stepping (s : State) (c : MemChannel) : Bool := c.replaced.isSome && decide (nowNs s < c.heldUntil)

/-- The channel without its step in progress, whose partial results are discarded. -/
def abandonStep (s : State) (point : Nat) (c : MemChannel) : MemChannel :=
  match c.replaced with
  | some t => { c with replaced := none, trained := if nowNs s < c.heldUntil then updateAt c.trained point (fun _ => t) else c.trained }
  | none => c

/-- The set point in force. -/
def setPoint (s : State) : Nat := rd s Reg.NEARMEM.MEM_STATUS_SET_POINT

/-- A channel is faulted (R414, R487). -/
def faultChannel (s : State) (stack ch : Nat) : State :=
  let f := Reg.NEARMEM.MEM_STATUS_CHANNELS_FAULTED.on stack
  let s := wr s f (setBit (rd s f) ch)
  let a := stack * stackBytes
  let s := fault s 0x22 17 (controllerPort stack ch) (ch + a / 2 ^ 32 * 65536) (a % 2 ^ 32)
  if s.mode = .serving || s.mode = .holdover then requestMode s .mending 7 else s

/-- TRACKING_STEP: the tracking step of a channel in its tick (R418). It holds the channel's requests; a shift beyond its range makes the
channel retrain. -/
def execTrackingStep (stack channel : Nat) (inRange trains : Bool) (s : State) : Host.Outcome State Fault Refusal :=
  let g := 16 * stack + channel
  if !(inService s && decide (stack < 8) && decide (channel < 16) && stackOn s stack && s.time.tickCount % 8000 = 62 * g && onceDue s (0x600000 + g)) then ok s
  else if inRange then
    let s := holdStep (markOnce s (0x600000 + g)) stack channel 20000
    ok (showSets (trainSet s stack channel (setPoint s)) stack)
  else
    let s := holdStep (markOnce s (0x600000 + g)) stack channel 1500000
    if trains then ok (raise (showSets (trainSet s stack channel (setPoint s)) stack) (Reg.NEARMEM.MEM_EVENTS_RETRAINED.on stack))
    else ok (faultChannel s stack channel)

/-- CHANNEL_FAULT: a channel has exhausted its retries three times within one second (R414, R487). In Proving it is a channel of a powered stack that
does not train (R477). -/
def execChannelFault (stack channel : Nat) (s : State) : Host.Outcome State Fault Refusal :=
  let recent := (channelOf s stack channel).exhausted.filter (fun t => nowNs s < t + 1000000000)
  if decide (stack < 8) && decide (channel < 16) && inService s && decide (3 ≤ recent.length)
      && bitOf (rd s (Reg.NEARMEM.MEM_STATUS_CHANNELS_FAULTED.on stack)) channel = 0 then
    ok (faultChannel (withChannel s stack channel { channelOf s stack channel with exhausted := [] }) stack channel)
  else if s.mode = .proving && s.proving.marchDone && !s.proving.failed && decide (stack < 8) && decide (channel < 16) && stackOn s stack then
    ok (provingFailed { s with proving := { s.proving with trained := false } } (Config.itemCode 2))
  else ok s

/-- TRAINING_SET_EXPIRY: a set of a stack has been neither trained nor tracked for 3,600 s (R417). -/
def execTrainingSetExpiry (stack point : Nat) (s : State) : Host.Outcome State Fault Refusal :=
  if !(decide (stack < 8) && decide (point < 3)) then ok s
  else
    let times := (List.range 16).filterMap (fun ch => (channelOf s stack ch).trained.getD point none)
    match leastBy (fun (t : Nat) => (t : Int)) times with
    | none => ok s
    | some t =>
      match reach s (t + 3600000000000) with
      | none => ok s
      | some s =>
        let drop (s : State) (ch : Nat) : State :=
          let c := channelOf s stack ch
          if setValid s c point then s else withChannel s stack ch { c with trained := updateAt c.trained point (fun _ => none) }
        ok (showSets ((List.range 16).foldl drop s) stack)

/-- Every stack takes a set point (R419 step 4): MEM_STATUS shows it. -/
def takePoint (s : State) (point : Nat) : State :=
  (List.range 8).foldl (fun s k => wr s (Reg.NEARMEM.MEM_STATUS_SET_POINT.on k) point) s

/-- The start of a change of set point at a boundary (R419 steps 1 to 4): steps in progress are abandoned, every bank is refreshed to a debt of
0, and the new point is in force. The channels take no command until the clocks have switched, at most 32 µs later. -/
def beginPointChange (s : State) (d : Deferred) (point : Nat) : State :=
  let old := setPoint s
  let s := { s with near := { s.near with channels := s.near.channels.all (fun _ c => abandonStep s old c) } }
  let valid := (poweredStacks s).all (fun k => bitOf (validMask s k) point = 1)
  let s := { s with near := { s.near with banks := s.near.banks.all (fun _ b => { b with debt := 0, open_ := none }),
                                          channels := (List.range 128).foldl (fun t g =>
                                            t.put g { (t.get g).getD .idle with precharging := none, heldUntil := nowNs s + 8000 + Config.pointSwitch g s.freeCount % 24001 })
                                            s.near.channels, 
                                          change := some (d, point, old), retraining := !valid } }
  takePoint s point

/-- The channels of a list, channel n of stack s as 16 x s + n, that fail training at a point: at the image's SET_POINT each is a lasting fault (R417). -/
def faultRetrained (s : State) (point : Nat) (failed : List Nat) : State :=
  if point ≠ rd s Reg.NEARMEM.MEM_CONFIG_SET_POINT_INITIAL then s
  else failed.foldl (fun s g =>
    if g < 128 && bitOf (rd s (Reg.NEARMEM.MEM_STATUS_CHANNELS_FAULTED.on (g / 16))) (g % 16) = 0 then faultChannel s (g / 16) (g % 16) else s) s

/-- MEMORY_RETRAINING_DONE: every channel has trained at the new point, and the completion reports RETRAINED; or some have failed, and the device
returns to the old point with TRAINING_FAILED. -/
def execMemoryRetrainingDone (failed : List Nat) (s : State) : Host.Outcome State Fault Refusal :=
  match s.near.change with
  | none => ok s
  | some (d, point, old) =>
    if !s.near.retraining then ok s
    else
      let s := { s with near := { s.near with change := none, retraining := false } }
      if failed ≠ [] then ok (finish (faultRetrained (takePoint s old) point failed) d 18 0 0)
      else
        let one (s : State) (k : Nat) : State :=
          raiseAll (showSets ((List.range 16).foldl (fun s ch => trainSet s k ch point) s) k)
            [Reg.NEARMEM.MEM_EVENTS_RATE_CHANGED.on k, Reg.NEARMEM.MEM_EVENTS_RETRAINED.on k]
        ok (finish ((poweredStacks s).foldl one s) d 0 1 0)

/-- Bytes written to near memory; a word that is written whole is poisoned no more (R413). -/
def store (s : State) (address : Nat) (bytes : List Byte) : State :=
  { s with mem := memWrite s.mem address bytes,
           near := { s.near with poisoned := s.near.poisoned.filter (fun w => !(decide (address ≤ 64 * w) && decide (64 * w + 64 ≤ address + bytes.length))) } }

end Sys2Proof.Machine
end

