-- ==== Sys2Proof/Machine/Lining.lean ====
section
/-!
DEFINITION. The Lining (chapter 17): groups, banks and rows, error correction, march tests and sparing.
-/

namespace Sys2Proof.Machine

/-! ### Groups, banks and rows (R421, R443) -/

/-- The state with a group's STATE set. -/
def setGroup (s : State) (g v : Nat) : State :=
  let f := Reg.LINING.GROUP_STATE.at (g / 8)
  wr s f (rd s f - groupState s g * 2 ^ (4 * (g % 8)) + v * 2 ^ (4 * (g % 8)))

/-- The USE that MEMORY_MAP gives a group. -/
def useOf (s : State) (g : Nat) : Nat := (structure_ s).map.useOf g

/-- A bank with no errors. -/
def LiningBank.clean : LiningBank := { buckets := [], lastRows := [], uncorrectable := [], spares := [], noSpare := false, answered := false, lastPort := 0 }

def liningBankOf (s : State) (g b : Nat) : LiningBank := (s.lining.banks.get (64 * g + b)).getD .clean
def withLiningBank (s : State) (g b : Nat) (x : LiningBank) : State :=
  { s with lining := { s.lining with banks := s.lining.banks.put (64 * g + b) x } }

/-- The bank and the row of a byte offset within a group. -/
def liningBankAt (o : Nat) : Nat := o / 64 % 64
def liningRowAt (o : Nat) : Nat := o / 64 / 64 / 8

/-- The first internal address of a row of a bank. -/
def liningRowAddress (g b row : Nat) : Nat := liningBase + g * groupBytes + row * 8 * 4096 + b * 64

/-! ### Sparing (R428) -/

/-- The words of a row at the positions `bad` are written as poison. -/
def poisonLining (s : State) (g b row : Nat) (bad : List Nat) : State :=
  let l := (bad.map (fun k => (liningRowAddress g b row + k % 8 * 4096) / 64)).filter (fun w => !s.near.poisoned.contains w)
  { s with near := { s.near with poisoned := l.eraseDups ++ s.near.poisoned } }

/-- A row of a bank is spared, its 8 words through the code, of which `bad` are uncorrectable; or the bank finds no spare left, which it answers once
for each crossing of its threshold. -/
def spareRow (s : State) (g b row : Nat) (bad : List Nat) : State :=
  let x := liningBankOf s g b
  if x.spares.length < 4 then
    let s := withLiningBank (poisonLining s g b row bad) g b
      { x with buckets := [], uncorrectable := x.uncorrectable.filter (fun e => e.1 ≠ row), spares := x.spares ++ [row] }
    raise (bump s Reg.LINING.ROWS_SPARED) Reg.LINING.LINING_EVENTS_ROW_SPARED
  else if x.noSpare then
    fault (withLiningBank s g b { x with answered := true, uncorrectable := x.uncorrectable.filter (fun e => e.1 ≠ row) }) 0x31 18 (liningPort g) (b + liningRowAddress g b row / 2 ^ 32 * 65536) (liningRowAddress g b row % 2 ^ 32)
  else raise (withLiningBank s g b { x with noSpare := true, answered := true, uncorrectable := x.uncorrectable.filter (fun e => e.1 ≠ row) }) Reg.LINING.LINING_EVENTS_SPARE_EXHAUSTED

/-- The row that a bank must spare. -/
def spareDue (s : State) (g b : Nat) : Option Nat :=
  let x := liningBankOf s g b
  let w := (authoriseOf s).spareWindow
  match doubleRow s.time.boundaries w x.uncorrectable with
  | some r => some r
  | none => if rd s Reg.LINING.LINING_CONFIG ≤ windowCount s.time.boundaries w x.buckets && !x.answered then commonRow x.lastRows else none

/-- ROW_SPARE: a bank whose errors reach the threshold copies a row into a spare. -/
def execRowSpare (group : Nat) (c : RowCopy) (s : State) : Host.Outcome State Fault Refusal :=
  if !(decide (group < 80) && decide (c.bank < 64)) then ok s
  else
    match spareDue s group c.bank with
    | some row => ok (spareRow s group c.bank row c.uncorrectable)
    | none => ok s

/-! ### Accesses (R421 to R424) -/

/-- Serve one request of a group's bank. -/
def liningServe (s : State) (g : Nat) (q : LiningRequest) : State :=
  let r := q.request
  let o := r.address % groupBytes
  let b := liningBankAt o
  let row := liningRowAt o
  let x := liningBankOf s g b
  let s := withLiningBank s g b { x with lastPort := r.port }
  let whole : Bool := match r.kind with
    | .write bs => decide (bs.length = 64)
    | .read => false
  let store (s : State) : State :=
    match r.kind with
    | .write bs => emit (Machine.store s r.address bs) (.response r.port 0)
    | .read => emit s (.memoryData (r.address / 64 * 64) (memRead s.mem (r.address / 64 * 64) 64) false)
  if whole then store s
  else
    match eccOf s (r.address / 64) q.ecc with
    | .corrected =>
      let x := liningBankOf s g b
      let above := decide (rd s Reg.LINING.LINING_CONFIG ≤ windowCount s.time.boundaries (authoriseOf s).spareWindow x.buckets)
      let s := withLiningBank s g b
        { x with buckets := countBucket s.time.boundaries x.buckets, lastRows := (row :: x.lastRows).take 4, answered := x.answered && above }
      store (bump s Reg.LINING.CORRECTED)
    | .uncorrectable lane =>
      let x := liningBankOf s g b
      let s := withLiningBank s g b { x with uncorrectable := (row, s.time.boundaries / 1000) :: x.uncorrectable }
      let s := raise (bump s Reg.LINING.UNCORRECTABLE) Reg.LINING.LINING_EVENTS_UNCORRECTABLE_LINING
      let s := fault s 0x30 18 r.port (lane % 65536 + r.address / 2 ^ 32 * 65536) (r.address % 2 ^ 32)
      match r.kind with
      | .write _ => refuseAt s r.port reasonMemory
      | .read => emit s (.memoryData (r.address / 64 * 64) (zeros 64) true)
    | _ => store s

/-- How far a port stands behind the port served last, in round-robin order. -/
def portTurn (last port : Nat) : Nat := (port + 128 - last - 1) % 128

/-- Requests to one word from different ports that reach a group in one cycle take effect write first (R29): a read that meets such a write moves
behind the others. -/
def writesFirst (qs : List LiningRequest) : List LiningRequest :=
  let word (q : LiningRequest) : Nat := q.request.address / 64
  let meets (q : LiningRequest) : Bool := q.request.kind = .read
    && qs.any (fun x => x.request.kind ≠ .read && word x = word q && x.request.port ≠ q.request.port)
  qs.filter (fun q => !meets q) ++ qs.filter meets

/-- Of the requests that stand before each bank of a group in one cycle, in their order of arrival, the first in round-robin order of source port
is served, and the others wait one cycle, counted in BANK_CONFLICTS. No request passes an older one to its word (R29). -/
def liningCycle (s : State) (g : Nat) (qs : List LiningRequest) : State :=
  let at_ (b : Nat) : List LiningRequest := qs.filter (fun q => liningBankAt (q.request.address % groupBytes) = b)
  let free (l : List LiningRequest) : List LiningRequest :=
    l.filter (fun q => l.find? (fun x => x.request.address / 64 = q.request.address / 64) = some q)
  (List.range 64).foldl (fun s b =>
    match leastBy (fun q => (portTurn (liningBankOf s g b).lastPort q.request.port : Int)) (free (at_ b)) with
    | none => s
    | some q =>
      let rest := (at_ b).erase q
      let s := liningServe s g q
      bumpBy { s with lining := { s.lining with waiting := s.lining.waiting ++ rest.map (fun r => (g, r)) } } Reg.LINING.BANK_CONFLICTS rest.length) s

/-- Whether a request is one that a group can take: inside the group, and a write inside one word. -/
def liningFits (group : Nat) (r : MemRequest) : Bool :=
  decide (liningBase + group * groupBytes ≤ r.address) && decide (r.address < liningBase + (group + 1) * groupBytes) &&
    (match r.kind with
     | .read => true
     | .write bs => decide (0 < bs.length) && decide (bs.length ≤ 64 - r.address % 64))

/-- The requests that the Crown refuses get their error responses; the others are answered beside the state. A fenced group holds its accesses, and
answers them after its march (R427). -/
def liningPass (s : State) (qs : List LiningRequest) : State × List LiningRequest :=
  let reply (q : LiningRequest) : CrownReply := crownReply s q.request.port q.request.address
  ((qs.filter (fun q => reply q ≠ .pass)).foldl (fun s q => answerCrown s q.request.port q.request.address (reply q)) s,
    qs.filter (fun q => reply q = .pass))

/-- LINING_ACCESS: the requests that reach a group in one cycle, after those that wait before it. A fused port sends nothing (R5). -/
def execLiningAccess (group : Nat) (requests : List LiningRequest) (s : State) : Host.Outcome State Fault Refusal :=
  if 80 ≤ group then ok s
  else
    let g := servedBy s group
    let r := liningPass s (requests.filter (fun q => liningFits group q.request && !portFused s q.request.port))
    if groupState s g = gFenced then
      ok { r.1 with lining := { r.1.lining with waiting := r.1.lining.waiting ++ (writesFirst r.2).map (fun q => (g, q)) } }
    else
      let waiting := (r.1.lining.waiting.filter (fun e => e.1 = g)).map (·.2)
      let s := { r.1 with lining := { r.1.lining with waiting := r.1.lining.waiting.filter (fun e => e.1 ≠ g) } }
      let late := liningPass s waiting
      ok (liningCycle late.1 g (late.2 ++ writesFirst r.2))

/-! ### March tests (R425 to R427) -/

/-- A failing word of a march, as an operand names it: the group, the bank and the row. -/
def wordGroup (w : Nat) : Nat := w / 8192
def wordBank (w : Nat) : Nat := w / 128 % 64
def wordRow (w : Nat) : Nat := w % 128

/-- The rows of failing words, each once, by group, bank and row. -/
def failingRows (ws : List Nat) : List (Nat × Nat × Nat) := (ws.map (fun w => (wordGroup w, wordBank w, wordRow w))).eraseDups

/-- A failing row is spared; the group of one that finds no spare left, where a fifth would be needed, joins the list (R426). -/
def spareFailing (r : State × List Nat) (x : Nat × Nat × Nat) : State × List Nat :=
  (spareRow r.1 x.1 x.2.1 x.2.2 [], if 4 ≤ (liningBankOf r.1 x.1 x.2.1).spares.length then r.2 ++ [x.1] else r.2)

/-- The contents of a group after the destroying form: every word is zero. -/
def clearGroup (s : State) (g : Nat) : State :=
  { s with mem := s.mem.filter (fun c => !(decide (liningBase + g * groupBytes ≤ c.1) && decide (c.1 < liningBase + (g + 1) * groupBytes))) }

/-- How long a march holds a group, in ns (R424, R425): its operations, one per cycle in each bank, and 2 µs where the group leaves retention. -/
def marchNs (s : State) (form st : Nat) : Nat :=
  ceilDiv ((if form = 0 then 14336 else 10240) * Config.tickNs) (tickCycles s) + (if st = gRetained then 2000 else 0)

/-- GO of MARCH_CONTROL is written: a march on one group, or REFUSED. -/
def marchGo (s : State) (group form : Nat) : State :=
  if !(decide (group < 80) && decide (form < 2)) then accessError s
  else
    let s := wr (wr s Reg.LINING.MARCH_CONTROL_GROUP group) Reg.LINING.MARCH_CONTROL_FORM form
    if rd s Reg.LINING.MARCH_CONTROL_BUSY = 1 then s
    else
      let st := groupState s group
      let allowed := if form = 0 then decide (st ≠ gFailed) else decide (useOf s group = 0) && decide (st = gRetained)
      if allowed then
        let s := wr (wr s Reg.LINING.MARCH_CONTROL_REFUSED 0) Reg.LINING.MARCH_CONTROL_BUSY 1
        let s := { s with lining := { s.lining with march := some (group, form, st, nowNs s + marchNs s form st) } }
        bump (setGroup s group gFenced) Reg.LINING.MARCH_RUNS
      else wr s Reg.LINING.MARCH_CONTROL_REFUSED 1

/-- MARCH_GO: the host asks for a march on one group. -/
def execMarchGo (group form : Nat) (s : State) : Host.Outcome State Fault Refusal :=
  if s.host.linkUp && s.mode ≠ .sealed && s.mode ≠ .dormant then ok (marchGo s group form) else ok s

/-- A march that is stopped is treated as failed for that run (R427). -/
def stopMarch (s : State) : State :=
  match s.lining.march with
  | none => s
  | some (g, _, st, _) =>
    let s := setGroup { s with lining := { s.lining with march := none } } g st
    let s := wr (wr s Reg.LINING.MARCH_CONTROL_BUSY 0) Reg.LINING.MARCH_CONTROL_PASSED 0
    raiseAll s [Reg.LINING.LINING_EVENTS_MARCH_DONE, Reg.LINING.LINING_EVENTS_MARCH_FAIL]

/-- The engines that work in an ENGINE group: the quarter's enabled Veils take its ENGINE groups in ascending order, then its enabled encode
clusters, then its decode and audio clusters together (R423). -/
def groupUsers (s : State) (g : Nat) : List Nat :=
  let q := g / 20
  let e := (structure_ s).engines
  let groups := ((List.range 20).map (fun j => 20 * q + j)).filter (fun g => useOf s g = 2)
  let veils := ((List.range 4).map (fun i => 4 * q + i)).filter (fun i => bitOf e.veils i = 1)
  let encodes := ((List.range 2).map (fun i => 2 * q + i)).filter (fun i => bitOf e.encode i = 1)
  let shared := (((List.range 4).map (fun i => 4 * q + i)).filter (fun i => bitOf e.decode i = 1)).map (engineId 0)
    ++ (((List.range 2).map (fun i => 2 * q + i)).filter (fun i => bitOf e.audio i = 1)).map (engineId 3)
  let areas := veils.map (fun i => [engineId 2 i]) ++ encodes.map (fun i => [engineId 1 i]) ++ (if shared.isEmpty then [] else [shared])
  areas.getD (groups.idxOf g) []

/-- A group is marked FAILED in Proving, and replaced, or else its engines are to be retired (R426). -/
def failGroup (s : State) (g : Nat) : State :=
  let s := fault (setGroup s g gFailed) 0x32 18 (liningPort g) g 0
  if useOf s g = 0 then s
  else
    let q := g / 20
    match ((List.range 20).map (fun j => 20 * q + j)).find? (fun u => useOf s u = 0 && groupState s u = gRetained) with
    | some u =>
      let s := setGroup { s with lining := { s.lining with substitutes := s.lining.substitutes.put g u } } u gSubstitute
      raise s Reg.LINING.LINING_EVENTS_SUBSTITUTED
    | none =>
      let users := if useOf s g = 1 then (enginesOf s 3).map (engineId 3) else groupUsers s g
      { s with faults := { s.faults with retiring := s.faults.retiring ++ users } }

/-- Near memory trains in Proving (R417): all three set points on every channel of every powered stack, which then runs at SET_POINT; a channel
that was faulted and trains again is faulted no more (R487). -/
def trainAll (s : State) : State :=
  let one (s : State) (k : Nat) : State :=
    showSets ((List.range 16).foldl (fun s ch => (List.range 3).foldl (fun s p => trainSet s k ch p) s) s) k
  let s := (poweredStacks s).foldl (fun s k => wr (one s k) (Reg.NEARMEM.MEM_STATUS_CHANNELS_FAULTED.on k) 0) s
  takePoint { s with proving := { s.proving with trained := true, linksTested := true } } (structure_ s).map.setPoint

/-- MARCH_DONE. With a requested march in progress, that march ends: `failing` are the words that failed, in the marched group. In Proving
with none in progress, the march of R426 over all groups ends: `failing` are the words that failed once, and `again` those that failed when
their groups were run again. -/
def execMarchDone (failing again : List Nat) (s : State) : Host.Outcome State Fault Refusal :=
  match s.lining.march with
  | some (g, form, st, ends) =>
    match reach s ends with
    | none => ok s
    | some s =>
    let bad := failing.filter (fun w => wordGroup w = g)
    let s := ((failingRows bad).foldl spareFailing (s, [])).1
    let s := setGroup { s with lining := { s.lining with march := none } } g st
    let s := if form = 1 then clearGroup s g else s
    let s := wr s Reg.LINING.MARCH_CONTROL_BUSY 0
    let s := wr s Reg.LINING.MARCH_CONTROL_PASSED (b2n bad.isEmpty)
    ok (raiseAll s (Reg.LINING.LINING_EVENTS_MARCH_DONE :: if bad.isEmpty then [] else [Reg.LINING.LINING_EVENTS_MARCH_FAIL]))
  | none =>
    if !(s.mode = .proving && imageRuns s && !s.proving.marchDone) then ok s
    else
      let bad := failing.filter (fun w => decide (wordGroup w < 80))
      let s := bumpBy ((List.range 80).foldl clearGroup s) Reg.LINING.MARCH_RUNS 80
      let s := (List.range 80).foldl (fun s g => setGroup s g gRetained) { s with lining := { s.lining with substitutes := [] } }
      let r := (failingRows bad).foldl spareFailing (s, [])
      let s := r.1
      let lost := (r.2 ++ (again.map wordGroup).filter (fun g => bad.any (fun w => wordGroup w = g))).eraseDups
      let s := (sortBy (fun (g : Nat) => (g : Int)) lost).foldl (fun s g => setGroup s g gFailed) s
      let s := (sortBy (fun (g : Nat) => (g : Int)) lost).foldl failGroup s
      ok (trainAll { s with proving := { s.proving with marchDone := true } })

/-- At entry to Serving the groups take their uses (R423): ENGINE groups beyond the need stay in retention. -/
def placeLining (s : State) : State :=
  let e := (structure_ s).engines
  let rank (g : Nat) : Nat := (((List.range 20).map (fun j => 20 * (g / 20) + j)).filter (fun u => useOf s u = 2)).idxOf g
  (List.range 80).foldl (fun s g =>
    if groupState s g ≠ gRetained then s
    else if useOf s g = 1 then setGroup s g gThreadStore
    else if useOf s g = 2 && decide (rank g < groupsNeeded e (g / 20)) then setGroup s g gEngine
    else s) s

end Sys2Proof.Machine
end

