-- ==== Sys2Proof/Machine/Glovebox.lean ====
section
/-!
DEFINITION. The Glovebox (chapter 17, R429 to R435): page frames, versions, fetches and write-backs, and the archiving of pages.
-/

namespace Sys2Proof.Machine

/-- The page of an address in the window. -/
def pageOf (a : Nat) : Nat := (a - gloveBase) / 4096

/-- The version of a page; 0 for a page that has never been written (R430). -/
def versionOf (s : State) (page : Nat) : Nat := (s.glove.versions.get page).getD 0

/-- GLOVEBOX_STATUS shows the frames. -/
def showFrames (s : State) : State :=
  wr (wr s Reg.GLOVEBOX.GLOVEBOX_STATUS_FRAMES_HELD s.glove.frames.length) Reg.GLOVEBOX.GLOVEBOX_STATUS_FRAMES_DIRTY
    (s.glove.frames.filter (fun f => f.2.dirty)).length

/-- The frame that holds a page. -/
def frameOf (s : State) (page : Nat) : Option (Nat × PageFrame) := s.glove.frames.find? (fun f => f.2.page = page)

/-- GLOVEBOX_HOST_BASE. -/
def hostBase (s : State) : Nat := rd s Reg.GLOVEBOX.HOST_BASE_LO + rd s Reg.GLOVEBOX.HOST_BASE_HI * 2 ^ 32

/-- The key of a page's job and its IV with the key's salt (R430): the page number and the version. -/
def pageSecret (s : State) (page version : Nat) : Nat × Nat :=
  let k := s.trust.pageKey.getD (0, 0)
  (k.1, (page % 2 ^ 32 + version % 2 ^ 64 * 2 ^ 32) ^^^ k.2)

/-- The AAD of a page. -/
def pageAad (page version : Nat) : List Byte := toLE 8 page ++ toLE 8 version

/-- The sealing path's job on the pinned page key has run. -/
def countPageJob (s : State) : State := bump (bump s Reg.CIPHER.PALM_HITS) Reg.CIPHER.JOBS_DONE

/-- The write-back of a frame (R430, R431): the version rises, and the ciphertext and the tag go to host memory. -/
def writeBack (s : State) (k : Nat) (f : PageFrame) : State :=
  let v := versionOf s f.page + 1
  let clear := memRead f.data 0 4096
  let x := pageSecret s f.page v
  let body := padTo 4096 (Config.cipherOut 0 2 x.1 x.2 clear)
  let s := countPageJob s
  let s := { s with glove := { s.glove with versions := s.glove.versions.put f.page v, frames := s.glove.frames.put k { f with dirty := false } } }
  let s := emit s (.hostWrite (hostBase s + f.page * 4096) body)
  let s := emit s (.hostWrite (hostBase s + rd s Reg.GLOVEBOX.GLOVEBOX_CONFIG * 4096 + f.page * 16) (padTo 16 (Config.gcmTag 2 x.1 x.2 (pageAad f.page v) body)))
  showFrames (bump s Reg.GLOVEBOX.PAGE_WRITEBACKS)

/-- A miss takes a frame: an empty one, else the least recently used clean one, else the least recently used dirty one after its write-back
(R431). The state that has an empty frame. -/
def emptyFrame (s : State) : State :=
  if s.glove.frames.length + s.glove.fetches.length < 256 then s
  else
    match leastBy (fun f => (f.2.lastUse : Int)) (s.glove.frames.filter (fun f => !f.2.dirty)) with
    | some f => showFrames { s with glove := { s.glove with frames := s.glove.frames.del f.1 } }
    | none =>
      match leastBy (fun f => (f.2.lastUse : Int)) s.glove.frames with
      | some f =>
        let s := writeBack s f.1 f.2
        showFrames { s with glove := { s.glove with frames := s.glove.frames.del f.1 } }
      | none => s

/-- Put a page into the lowest empty frame. -/
def fillFrame (s : State) (page : Nat) (data : List Host.Cell) : State :=
  match lowest 256 (fun k => (s.glove.frames.get k).isNone) with
  | none => s
  | some k =>
    showFrames { s with glove := { s.glove with order := s.glove.order + 1,
                                                frames := s.glove.frames.put k { page := page, dirty := false, lastUse := s.glove.order, data := data } } }

/-- Serve one request from the frame that holds its page. -/
def gloveServe (s : State) (r : MemRequest) : State :=
  match frameOf s (pageOf r.address) with
  | none => s
  | some (k, f) =>
    let s := { s with glove := { s.glove with order := s.glove.order + 1 } }
    match r.kind with
    | .read =>
      let s := { s with glove := { s.glove with frames := s.glove.frames.put k { f with lastUse := s.glove.order } } }
      emit s (.memoryData (r.address / 64 * 64) (memRead f.data ((r.address - gloveBase) % 4096 / 64 * 64) 64) false)
    | .write bs =>
      let f := { f with lastUse := s.glove.order, dirty := true, data := memWrite f.data ((r.address - gloveBase) % 4096) bs }
      emit (showFrames { s with glove := { s.glove with frames := s.glove.frames.put k f } }) (.response r.port 0)

/-- Bring a page towards a frame: a hit, a zero fill, or a fetch. The requests of a fetch wait with it. -/
def gloveAccess (s : State) (r : MemRequest) : State :=
  let page := pageOf r.address
  if (frameOf s page).isSome then gloveServe (bump s Reg.GLOVEBOX.FRAME_HITS) r
  else if s.glove.fetches.any (fun f => f.page = page) then
    { s with glove := { s.glove with fetches := s.glove.fetches.map (fun f => if f.page = page then { f with requests := f.requests ++ [r] } else f) } }
  else
    let s := emptyFrame s
    if versionOf s page = 0 then gloveServe (fillFrame (bump s Reg.GLOVEBOX.ZERO_FILLS) page []) r
    else
      bump { s with glove := { s.glove with fetches := s.glove.fetches ++ [{ page := page, requests := [r], retries := 0 }] } } Reg.GLOVEBOX.PAGE_FETCHES

/-! ### Archiving (R435) -/

/-- The archive record of a page that a frame holds. -/
def archiveRecord (s : State) (j : ArchiveJob) (f : PageFrame) : State :=
  let e := s.trust.keys.get j.key
  let epoch := (e.map (·.epoch)).getD 0
  let seq := (s.glove.sequences.get j.key).getD 0
  let header := toLE 4 0x41524348 ++ toLE 2 1 ++ toLE 2 epoch ++ toLE 8 f.page ++ toLE 8 seq ++ zeros 8
  let clear := memRead f.data 0 4096
  let key := (e.map (·.key)).getD 0
  let iv := (seq * 2 ^ 32) ^^^ (e.map (·.salt)).getD 0
  let coded := padTo 4096 (Config.cipherOut 0 2 key iv clear)
  let body := coded ++ padTo 16 (Config.gcmTag 2 key iv header coded)
  let s := bump s Reg.CIPHER.JOBS_DONE
  let s := { s with glove := { s.glove with sequences := s.glove.sequences.put j.key (seq + 1) } }
  bump (emit s (.hostWrite (j.dest + j.written * 4144) (header ++ body))) Reg.GLOVEBOX.PAGES_ARCHIVED

/-- Archive pages from the next one on, until one must be fetched or none is left; `fuel` bounds the pages. -/
def archiveOn (s : State) (j : ArchiveJob) : Nat → State × Option ArchiveJob
  | 0 => (s, some j)
  | fuel + 1 =>
    if j.left = 0 then (finish s j.who 0 0 j.written, none)
    else
      let go (s : State) : State × Option ArchiveJob :=
        match frameOf s j.next with
        | some (_, f) => archiveOn (archiveRecord s j f) { j with next := j.next + 1, left := j.left - 1, written := j.written + 1 } fuel
        | none => (s, some j)
      if (frameOf s j.next).isSome then go (bump s Reg.GLOVEBOX.FRAME_HITS)
      else if s.glove.fetches.any (fun f => f.page = j.next) then (s, some j)
      else
        let s := emptyFrame s
        if versionOf s j.next = 0 then go (fillFrame (bump s Reg.GLOVEBOX.ZERO_FILLS) j.next [])
        else
          (bump { s with glove := { s.glove with fetches := s.glove.fetches ++ [{ page := j.next, requests := [], retries := 0 }] } } Reg.GLOVEBOX.PAGE_FETCHES,
            some j)

/-- Every archive job goes on as far as it can. -/
def runArchives (s : State) : State :=
  s.glove.archive.foldl (fun s j =>
    let r := archiveOn { s with glove := { s.glove with archive := s.glove.archive.erase j } } j (j.left + 1)
    match r.2 with
    | some j => { r.1 with glove := { r.1.glove with archive := r.1.glove.archive ++ [j] } }
    | none => r.1) s

/-- The archive jobs that wait for a page end, with the pages before it written. -/
def endArchives (s : State) (page : Nat) : State :=
  (s.glove.archive.filter (fun j => j.next = page)).foldl (fun s j =>
    finish { s with glove := { s.glove with archive := s.glove.archive.erase j } } j.who 0 0 j.written) s

/-! ### Commands -/

/-- GLOVEBOX_ACCESS: one request of at most one 64-byte word to the window or beyond it. A fused port sends nothing (R5). -/
def execGloveboxAccess (r : MemRequest) (s : State) : Host.Outcome State Fault Refusal :=
  let fits : Bool := match r.kind with
    | .read => true
    | .write bs => decide (0 < bs.length) && decide (bs.length ≤ 64 - r.address % 64)
  if !fits || portFused s r.port || decide (r.address < gloveBase) then ok s
  else if crownReply s r.port r.address = .pass then ok (gloveAccess s r)
  else ok (answerCrown s r.port r.address (crownReply s r.port r.address))

/-- Every request of a fetch gets poisoned data or an error response. -/
def poisonRequests (s : State) (rs : List MemRequest) : State :=
  rs.foldl (fun s r =>
    match r.kind with
    | .read => emit s (.memoryData (r.address / 64 * 64) (zeros 64) true)
    | .write _ => refuseAt s r.port reasonMemory) s

/-- Whether a page's tag is that of its ciphertext under the page's version (R304, R430). -/
def pageVerifies (s : State) (page : Nat) (ciphertext tag : List Byte) : Bool :=
  let x := pageSecret s page (versionOf s page)
  tag = padTo 16 (Config.gcmTag 2 x.1 x.2 (pageAad page (versionOf s page)) ciphertext)

/-- The clear bytes of a page's ciphertext. -/
def pageClear (s : State) (page : Nat) (ciphertext : List Byte) : List Byte :=
  let x := pageSecret s page (versionOf s page)
  padTo 4096 (Config.cipherOut 1 2 x.1 x.2 ciphertext)

/-- PAGE_FETCH_DONE: the page is decrypted into its frame, or its tag is wrong, or the host read has failed (R431 to R433). -/
def execPageFetchDone (page : Nat) (r : FetchResult) (s : State) : Host.Outcome State Fault Refusal :=
  match s.glove.fetches.find? (fun f => f.page = page) with
  | none => ok s
  | some f =>
    let s0 := { s with glove := { s.glove with fetches := s.glove.fetches.erase f } }
    let port := ((f.requests.head?).map (·.port)).getD 0xFFFF
    match r with
    | .read ciphertext tag =>
      if pageVerifies s page ciphertext tag then
        let s := fillFrame (emptyFrame (countPageJob s0)) page (memWrite [] 0 (pageClear s page ciphertext))
        ok (runArchives (f.requests.foldl gloveServe s))
      else
      let s := bump (bump (countPageJob s0) Reg.CIPHER.UNTRUSTED_TOTAL) Reg.CIPHER.UNTRUSTED_PAGE
      let s := fault (raise s Reg.CIPHER.CIPHER_EVENTS_GLOVEBOX_UNTRUSTED) 0x61 12 port 0 page
      ok (runArchives (endArchives (poisonRequests s f.requests) page))
    | .hostError =>
      if f.retries < rd s Reg.GLOVEBOX.DMA_CONFIG then
        ok { s with glove := { s.glove with fetches := s.glove.fetches.map (fun g => if g.page = page then { g with retries := g.retries + 1 } else g) } }
      else
        let s := raise (bump s0 Reg.GLOVEBOX.HOST_READ_ERRORS) Reg.GLOVEBOX.GLOVEBOX_EVENTS_HOST_READ_ERROR
        let s := fault s 0x62 19 port 0 page
        ok (runArchives (endArchives (poisonRequests s f.requests) page))

end Sys2Proof.Machine
end

