-- ==== Sys2Proof/Machine/Dma.lean ====
section
/-!
DEFINITION. DMA (chapter 17, R436 to R442): channels, descriptors, the funnel, retries and halts.
-/

namespace Sys2Proof.Machine

/-- Whether the host can reach the registers: the link is up, outside Dormant and Sealed (R447, R450). -/
def hostReaches (s : State) : Bool := s.host.linkUp && s.mode ≠ .dormant && s.mode ≠ .sealed

/-- RUNNING of a channel. -/
def dmaRunning (s : State) (ch : Nat) : Bool := rd s (Reg.GLOVEBOX.CHANNEL_STATUS_RUNNING.at ch) = 1

/-- The Crown port of a DMA engine (R24). -/
def dmaPort (ch : Nat) : Nat := 16 * (ch / 16) + 9

def withDma (s : State) (ch : Nat) (c : DmaChannel) : State := { s with dma := { s.dma with channels := s.dma.channels.put ch c } }

/-- An engine takes the next channel with GO set, in round-robin order from the channel it served last (R436). -/
def dmaNext (s : State) (engine : Nat) : State :=
  let mine := s.dma.channels.filter (fun c => c.1 / 16 = engine)
  if mine.any (fun c => !c.2.waiting) then s
  else
    let last := s.dma.last.getD engine 15
    match leastBy (fun c => (((c.1 % 16 + 32 - last - 1) % 16 : Nat) : Int)) mine with
    | none => s
    | some (ch, c) =>
      let l := (List.range 4).map (fun k => if k = engine then ch % 16 else s.dma.last.getD k 15)
      withDma { s with dma := { s.dma with last := l } } ch { c with waiting := false }

/-- The fault fields of a halted channel (R440). -/
def dmaFaultFields (s : State) (ch : Nat) (c : DmaChannel) : State :=
  match c.desc with
  | none => s
  | some d =>
    let at_ := if c.down then 0 else c.written
    wrAll s
      [(Reg.GLOVEBOX.FAULT_SRC_LO.at ch, d.src + at_), (Reg.GLOVEBOX.FAULT_SRC_HI.at ch, (d.src + at_) / 2 ^ 32),
       (Reg.GLOVEBOX.FAULT_DST_LO.at ch, d.dst + at_), (Reg.GLOVEBOX.FAULT_DST_HI.at ch, (d.dst + at_) / 2 ^ 32),
       (Reg.GLOVEBOX.FAULT_BYTES.at ch, d.count - c.written)]

/-- A channel halts with a reason of R444. -/
def dmaHalt (s : State) (ch : Nat) (c : DmaChannel) (reason : Nat) : State :=
  let s := { s with dma := { s.dma with channels := s.dma.channels.del ch } }
  let s := wrAll s [(Reg.GLOVEBOX.CHANNEL_STATUS_RUNNING.at ch, 0), (Reg.GLOVEBOX.CHANNEL_STATUS_REASON.at ch, reason)]
  let s := if reason = 2 || reason = 3 then s else dmaFaultFields s ch c
  let last : Bool := match c.desc with
    | some d => decide (reason = 1) && decide (c.readDone = d.count)
    | none => false
  let s := if reason = 1 then wr s (Reg.GLOVEBOX.CHANNEL_STATUS_DONE.at ch) 0 else s
  let s := raiseAll s (Reg.GLOVEBOX.CHANNEL_STATUS_HALTED.at ch :: if last then [Reg.GLOVEBOX.CHANNEL_STATUS_LAST_BEAT.at ch] else [])
  dmaNext (raise (bump s Reg.GLOVEBOX.DMA_HALTS) Reg.GLOVEBOX.GLOVEBOX_EVENTS_DMA_HALTED) (ch / 16)

/-- Every channel that `which` picks halts with a reason. -/
def dmaHaltAll (s : State) (which : Nat → Bool) (reason : Nat) : State :=
  (s.dma.channels.filter (fun c => which c.1)).foldl (fun s c => dmaHalt { s with dma := { s.dma with channels := s.dma.channels.map (fun x => if which x.1 then (x.1, { x.2 with waiting := true }) else x) } } c.1 c.2 reason) s

/-! ### Descriptors (R437, R438, R441) -/

/-- A descriptor's 32 bytes as an engine reads them, little-endian (R437). The bits [63:48] of an internal address are reserved ones. -/
def readDescriptor (b : List Byte) : Descriptor :=
  let at_ (o n : Nat) : Nat := fromLE ((b.drop o).take n)
  let flags := at_ 0x14 1
  { src := at_ 0 8, dst := at_ 8 8, count := at_ 0x10 4, srcInternal := bitOf flags 0 = 1, dstInternal := bitOf flags 1 = 1, notify := bitOf flags 2 = 1,
    last := bitOf flags 3 = 1,
    reserved := decide (16 ≤ flags) || at_ 0x15 3 ≠ 0 || (bitOf flags 0 = 1 && decide (2 ^ 48 ≤ at_ 0 8)) || (bitOf flags 1 = 1 && decide (2 ^ 48 ≤ at_ 8 8)),
    next := at_ 0x18 8 }

/-- The bytes of a descriptor. -/
def descriptorBytes (d : Descriptor) : List Byte :=
  toLE 8 d.src ++ toLE 8 d.dst ++ toLE 4 d.count
    ++ toLE 1 (b2n d.srcInternal + 2 * b2n d.dstInternal + 4 * b2n d.notify + 8 * b2n d.last + 16 * b2n d.reserved) ++ zeros 3 ++ toLE 8 d.next

/-- Whether a descriptor is malformed: reason DESCRIPTOR. -/
def malformed (d : Descriptor) : Bool := d.count = 0 || d.reserved || (!d.last && d.next % 32 ≠ 0)

/-- Whether a range lies in the exchange region. -/
def inExchange (a n : Nat) : Bool := decide (exchangeBase ≤ a) && decide (a + n ≤ exchangeBase + 2 ^ 32)

/-- Whether a transfer is within its address spaces; reason DENIED otherwise. -/
def transferAllowed (s : State) (d : Descriptor) : Bool :=
  let host (a : Nat) : Bool := decide (a + d.count ≤ 2 ^ 64) && !Config.meetsOwnBar a d.count
  (if d.srcInternal then inExchange d.src d.count else host d.src)
    && (if d.dstInternal then
          inExchange d.dst d.count || (decide (gloveBase ≤ d.dst) && decide (d.dst + d.count ≤ gloveBase + rd s Reg.GLOVEBOX.GLOVEBOX_CONFIG * 4096))
        else host d.dst)

/-- Whether the funnel runs downwards. -/
def downwards (d : Descriptor) : Bool :=
  (d.srcInternal == d.dstInternal) && decide (d.src < d.dst) && decide (d.dst < d.src + d.count)

/-! ### The funnel (R439) -/

/-- The address and the length of the next access on one side that has moved `done` of `count` bytes from `base`. -/
def nextSpan (base count done : Nat) (down : Bool) : Nat × Nat :=
  if down then
    let e := base + count - done
    let n := min (count - done) (if e % 64 = 0 then 64 else e % 64)
    (e - n, n)
  else
    let a := base + done
    (a, min (count - done) (64 - a % 64))

/-- Issue the next access of a channel: a write as soon as the funnel holds every byte of it, or else a read. -/
def dmaIssue (s : State) (ch : Nat) (c : DmaChannel) (d : Descriptor) : State :=
  let w := nextSpan d.dst d.count c.written c.down
  if decide (0 < w.2) && decide (w.2 ≤ c.funnel.length) then withDma s ch { c with access := some (.write w.1 w.2) }
  else
    let r := nextSpan d.src d.count c.readDone c.down
    let s := wr s (Reg.GLOVEBOX.REMAINING.at ch) (d.count - (c.readDone + r.2))
    withDma s ch { c with access := some (.read r.1 r.2), readDone := c.readDone + r.2 }

/-- A descriptor completes (R437, R442): the chain ends, or the next descriptor is fetched. -/
def dmaDescriptorDone (s : State) (ch : Nat) (c : DmaChannel) (d : Descriptor) : State :=
  let f := Reg.GLOVEBOX.DESCRIPTORS_DONE.at ch
  let s := bump s f
  let s := if d.notify then event s 19 (now s) (.dma ch 0 (rd s f) c.at_) false else s
  if d.last then
    let s := { s with dma := { s.dma with channels := s.dma.channels.del ch } }
    let s := wr s (Reg.GLOVEBOX.CHANNEL_STATUS_RUNNING.at ch) 0
    dmaNext (raise (raise s (Reg.GLOVEBOX.CHANNEL_STATUS_DONE.at ch)) Reg.GLOVEBOX.GLOVEBOX_EVENTS_DMA_DONE) (ch / 16)
  else if c.abort then dmaHalt s ch c 4
  else withDma s ch { c with at_ := d.next, desc := none, readDone := 0, written := 0, funnel := [], access := none, retries := 0, down := false }

/-- A write of the funnel's bytes reaches its destination. -/
def dmaStore (s : State) (ch : Nat) (d : Descriptor) (a : Nat) (bs : List Byte) : State :=
  if !d.dstInternal then emit s (.hostWrite a bs)
  else if inExchange d.dst d.count then store s a bs
  else gloveAccess s { address := a, kind := .write bs, port := dmaPort ch }

/-! ### Commands -/

/-- GO of a channel is set. -/
def dmaGo (s : State) (ch : Nat) : State :=
  if dmaRunning s ch then bump s Reg.GLOVEBOX.GO_IGNORED
  else
    let s := wrAll s [(Reg.GLOVEBOX.CHANNEL_STATUS_RUNNING.at ch, 1), (Reg.GLOVEBOX.CHANNEL_STATUS_REASON.at ch, 0), (Reg.GLOVEBOX.DESCRIPTORS_DONE.at ch, 0)]
    let head := rd s (Reg.GLOVEBOX.CHAIN_HEAD_LO.at ch) + rd s (Reg.GLOVEBOX.CHAIN_HEAD_HI.at ch) * 2 ^ 32
    dmaNext (withDma s ch
      { at_ := head, desc := none, readDone := 0, written := 0, funnel := [], access := none, retries := 0, down := false, waiting := true,
        abort := false }) (ch / 16)

/-- DMA_GO: the host sets GO of a channel. -/
def execDmaGo (ch : Nat) (s : State) : Host.Outcome State Fault Refusal :=
  if hostReaches s && decide (ch < 64) then ok (dmaGo s ch) else ok s

/-- ABORT of a channel is set. A channel that waits for its engine has no access to finish. -/
def dmaAbort (s : State) (ch : Nat) : State :=
  match s.dma.channels.get ch with
  | none => s
  | some c => if c.waiting then dmaHalt s ch c 4 else withDma s ch { c with abort := true }

/-- DMA_ABORT: the host sets ABORT of a channel. -/
def execDmaAbort (ch : Nat) (s : State) : Host.Outcome State Fault Refusal :=
  if hostReaches s && decide (ch < 64) then ok (dmaAbort s ch) else ok s

/-- CHAIN_HEAD_WRITE: both halves of CHAIN_HEAD are written. -/
def execChainHeadWrite (ch address : Nat) (s : State) : Host.Outcome State Fault Refusal :=
  if !(hostReaches s && decide (ch < 64) && decide (address < 2 ^ 64)) then ok s
  else if dmaRunning s ch then ok s
  else
    let s := wr s (Reg.GLOVEBOX.CHAIN_HEAD_HI.at ch) (address / 2 ^ 32)
    if address % 32 = 0 then ok (wr s (Reg.GLOVEBOX.CHAIN_HEAD_LO.at ch) address) else ok (accessError s)

/-- DESCRIPTOR_FETCHED: a descriptor arrives, or its fetch has failed. -/
def execDescriptorFetched (ch : Nat) (r : Option (List Byte)) (s : State) : Host.Outcome State Fault Refusal :=
  match s.dma.channels.get ch with
  | none => ok s
  | some c =>
    if c.waiting || c.desc.isSome then ok s
    else if c.abort then ok (dmaHalt s ch c 4)
    else
      match r with
      | none =>
        if c.retries < rd s Reg.GLOVEBOX.DMA_CONFIG then ok (bump (withDma s ch { c with retries := c.retries + 1 }) Reg.GLOVEBOX.DMA_RETRIES)
        else ok (dmaHalt s ch c 1)
      | some b =>
        let d := readDescriptor b
        if malformed d then ok (dmaHalt s ch c 3)
        else if !transferAllowed s d then ok (dmaHalt s ch c 2)
        else
          let c := { c with desc := some d, readDone := 0, written := 0, funnel := [], access := none, retries := 0, down := downwards d }
          ok (dmaIssue s ch c d)

/-- The word of an access in flight that the Crown refuses to the channel's port; the sealing path of the Glovebox lies on the hub (R28, R440). -/
def dmaRefused (s : State) (ch : Nat) (d : Descriptor) (a : DmaAccess) : Option (Nat × CrownReply) :=
  match a with
  | .read addr n => if d.srcInternal then rangeReply s (dmaPort ch) addr n else none
  | .write addr n => if d.dstInternal && inExchange d.dst d.count then rangeReply s (dmaPort ch) addr n else none

/-- Whether an access in flight meets a poisoned word inside the device: a read of one, or a narrow write, which reads its word first (R439, R440). -/
def dmaPoisoned (s : State) (d : Descriptor) (a : DmaAccess) : Bool :=
  match a with
  | .read addr n => d.srcInternal && rangePoisoned s addr n
  | .write addr n => d.dstInternal && inExchange d.dst d.count && decide (n < 64) && rangePoisoned s addr n

/-- The error response that an access in flight meets in the Crown. -/
def answerDma (s : State) (ch : Nat) (d : Descriptor) (a : DmaAccess) : State :=
  match dmaRefused s ch d a with
  | some e => answerCrown s (dmaPort ch) e.1 e.2
  | none => s

/-- DMA_ACCESS_COMPLETE: the access in flight ends, well or not; `data` are the bytes of a host read. -/
def execDmaAccessComplete (ch : Nat) (succeeded : Bool) (data : List Byte) (s : State) : Host.Outcome State Fault Refusal :=
  match s.dma.channels.get ch with
  | none => ok s
  | some c =>
    match c.desc, c.access with
    | some d, some a =>
      if c.waiting then ok s
      else if !succeeded || (dmaRefused s ch d a).isSome || dmaPoisoned s d a then
        let s := answerDma s ch d a
        if c.abort then ok (dmaHalt s ch c 4)
        else
          let posted : Bool := match a with
            | .write _ _ => !d.dstInternal
            | .read _ _ => false
          if posted then ok s
          else if c.retries < rd s Reg.GLOVEBOX.DMA_CONFIG then ok (bump (withDma s ch { c with retries := c.retries + 1 }) Reg.GLOVEBOX.DMA_RETRIES)
          else ok (dmaHalt s ch c 1)
      else
        match a with
        | .read addr n =>
          let bs := if d.srcInternal then memRead s.mem addr n else padTo n data
          let c := { c with funnel := if c.down then bs ++ c.funnel else c.funnel ++ bs, access := none, retries := 0 }
          if c.abort then ok (dmaHalt s ch c 4) else ok (dmaIssue s ch c d)
        | .write addr n =>
          let bs := if c.down then c.funnel.drop (c.funnel.length - n) else c.funnel.take n
          let rest := if c.down then c.funnel.take (c.funnel.length - n) else c.funnel.drop n
          let s := dmaStore s ch d addr bs
          let c := { c with funnel := rest, written := c.written + n, access := none, retries := 0 }
          if c.written = d.count then ok (dmaDescriptorDone s ch c d)
          else if c.abort then ok (dmaHalt s ch c 4)
          else ok (dmaIssue s ch c d)
    | _, _ => ok s

end Sys2Proof.Machine
end

