-- ==== Sys2Proof/Machine/StepTimes.lean ====
section
/-!
DEFINITION. What a step of the local clock does to the instants that the device keeps: a delay is neither shortened nor lengthened (R57).
NEXT_ELIGIBLE of a leg, the gate lists and the stamps of PTP messages are local times by their own rules, and stay.
-/

namespace Sys2Proof.Machine

/-- A kept instant in ns moves with the clock. Zero stands for none. -/
def moved (o : Int) (t : Nat) : Nat := if t = 0 then 0 else (max 1 ((t : Int) + o)).toNat

def movedO (o : Int) (t : Option Nat) : Option Nat := t.map (moved o)

/-- Time sources, pulses and edges. -/
def moveTime (o : Int) (t : TimeState) : TimeState :=
  let src (x : TimeSource) : TimeSource := { x with measuredAt := moved o x.measuredAt, candidateSince := movedO o x.candidateSince }
  { t with ptp := src t.ptp, ponA := src t.ponA, ponB := src t.ponB, pps := src t.pps,
           engine := { t.engine with nextRequest := moved o t.engine.nextRequest,
                                     masters := t.engine.masters.map (fun m => { m with announceAt := moved o m.announceAt }) },
           holdoverSince := moved o t.holdoverSince, lastEdge := movedO o t.lastEdge, ppsOutUntil := movedO o t.ppsOutUntil, tickOutUntil := movedO o t.tickOutUntil }

/-- Moderation of the rings and the ramps, delays and unlocks of the POWER block. -/
def moveBasics (o : Int) (s : State) : State :=
  { s with
    host := { s.host with cplFirst := movedO o s.host.cplFirst, evtFirst := movedO o s.host.evtFirst, statsFirst := movedO o s.host.statsFirst },
    power := { s.power with ramping := s.power.ramping.map (fun r => (r.1, moved o r.2)), resetLow := movedO o s.power.resetLow,
                            pendingPoint := s.power.pendingPoint.map (fun r => (r.1, moved o r.2)), challengeAt := moved o s.power.challengeAt,
                            lastVoltageChange := moved o s.power.lastVoltageChange, agingAt := moved o s.power.agingAt, unlockUntil := movedO o s.power.unlockUntil },
    trust := { s.trust with reseededAt := moved o s.trust.reseededAt } }

/-- Legs, participants, audio sources and the frames being assembled. -/
def moveMedia (o : Int) (s : State) : State :=
  { s with
    legs := s.legs.all (fun _ (x : Leg) =>
      { x with bucketStamp := moved o x.bucketStamp, keyframe := { x.keyframe with last := movedO o x.keyframe.last },
               raiseSince := movedO o x.raiseSince, cache := x.cache.map (fun c => { c with time := moved o c.time }),
               gaps := x.gaps.map (fun g => { g with seen := moved o g.seen }), layerRates := x.layerRates.map (fun r => (moved o r.1, r.2)) }),
    participants := s.participants.all (fun _ (a : Participant) =>
      { a with lastFeedback := moved o a.lastFeedback, lastCut := movedO o a.lastCut, staleAt := moved o a.staleAt,
               received := a.received.map (fun r => (moved o r.1, r.2)), reported := a.reported.map (fun r => (moved o r.1, r.2)),
               sent := a.sent.map (fun p => { p with time := moved o p.time }),
               groups := a.groups.map (fun g =>
                 { g with sendTime := moved o g.sendTime, number := moved o g.sendTime / 5000000, delay := g.delay - o }) }),
    audio := s.audio.all (fun _ (x : AudioSource) =>
      { x with arrived := x.arrived.map (fun p => { p with arrival := moved o p.arrival }), transit := x.transit.map (fun t => (moved o t.1, t.2)),
               lastRecompute := moved o x.lastRecompute, lastAdjust := moved o x.lastAdjust }),
    mixes := s.mixes.all (fun _ (m : Mix) => { m with recordWritten := moved o m.recordWritten }),
    decodes := s.decodes.all (fun _ (d : DecodeStream) =>
      { d with assembly := d.assembly.map (fun a => { a with whole := movedO o a.whole, expected := movedO o a.expected }) }) }

/-- The stamp of a received packet whose cipher job has not completed, where a delay is counted from it: the policing of its leg, the media time of an audio packet. -/
def moveStamp (o : Int) : JobPurpose → JobPurpose
  | .srtpIn l seq roc rtx stamp n g b => .srtpIn l seq roc rtx (moved o stamp) n g b
  | .srtcpIn p i stamp b => .srtcpIn p i (moved o stamp) b
  | p => p

/-- Queues, shapers, ports, fragments and tunnels. A tunnel frame already built keeps the distance of its slot from the boundary (R330). -/
def moveNetwork (o : Int) (s : State) : State :=
  let class_ (q : ClassQueue) : ClassQueue :=
    { q with packets := q.packets.map (fun p => { p with stamp := moved o p.stamp, headSince := movedO o p.headSince }) }
  { s with
    band := { s.band with
      classQueues := s.band.classQueues.all (fun _ (q : ClassQueue) => class_ q),
      legQueues := s.band.legQueues.all (fun _ (q : LegQueue) => { q with packets := q.packets.map (fun p => { p with stamp := moved o p.stamp }) }),
      shapers := s.band.shapers.all (fun _ (h : Shaper) => { h with at_ := moved o h.at_ }),
      freeAt := s.band.freeAt.all (fun _ (t : Nat) => moved (1000 * o) t) },
    cipher := { s.cipher with submitted := s.cipher.submitted.map (moveStamp o), jobs := s.cipher.jobs.map (fun j => { j with purpose := moveStamp o j.purpose }) },
    eth := s.eth.all (fun _ (p : EthPort) => { p with idleSince := moved o p.idleSince, wakeUntil := moved o p.wakeUntil, downAt := movedO o p.downAt }),
    ingress := { s.ingress with fragments := s.ingress.fragments.all (fun _ (f : FragEntry) => { f with first := moved o f.first }) },
    gauntlet := { s.gauntlet with tunnels := s.gauntlet.tunnels.all (fun _ (x : Tunnel) =>
      { x with built := x.built.map (fun b => { b with slot := moved o b.slot }) }) } }

/-- A PON port. -/
def movePon (o : Int) (x : PonPort) : PonPort :=
  { x with to1 := movedO o x.to1, to2 := movedO o x.to2, lossSince := movedO o x.lossSince, losSince := movedO o x.losSince, stamps := x.stamps.map (fun r => (r.1, moved o r.2)),
           bursts := x.bursts.map (fun b => { b with on := moved o b.on, off := moved o b.off }), omciTimes := x.omciTimes.map (moved o) }

/-- Near memory. -/
def moveNear (o : Int) (n : NearState) : NearState :=
  let queued (q : List QueuedRequest) : List QueuedRequest := q.map (fun r => { r with arrived := moved o r.arrived })
  { n with
    channels := n.channels.all (fun _ (c : MemChannel) =>
      { c with reads := queued c.reads, writes := queued c.writes, lastRefresh := moved o c.lastRefresh, heldUntil := moved o c.heldUntil,
               exhausted := c.exhausted.map (moved o), trained := c.trained.map (movedO o), scrubFrom := movedO o c.scrubFrom,
               replaced := c.replaced.map (movedO o) }),
    banks := n.banks.all (fun _ (b : MemBank) =>
      { b with busyUntil := moved o b.busyUntil, lastActivate := moved o b.lastActivate, lastDue := movedO o b.lastDue }),
    catchupFrom := n.catchupFrom.all (fun _ (t : Nat) => moved o t), lastReading := n.lastReading.all (fun _ (t : Nat) => moved o t) }

/-- Mitten threads: since when they are READY, in units of the clock, and their deadlines, which count boundaries (R57, R219). The clock has been stepped. -/
def moveReadiness (o : Int) (s : State) : State :=
  let ticks (d : Nat) : Nat := ofSigned 32 ((d : Int) + tickOf (nowNs s) - tickOf ((nowNs s : Int) - o).toNat)
  { s with mitten := { s.mitten with threads := s.mitten.threads.all (fun _ (x : Thread) =>
      { x with readyAt := moved (o * Config.fracUnit) x.readyAt, deadline := x.deadline.map ticks }) } }

/-- All the kept instants move with a step of the clock. -/
def moveInstants (o : Int) (s : State) : State :=
  let s := moveReadiness o (moveNetwork o (moveMedia o (moveBasics o s)))
  { s with time := moveTime o s.time, near := moveNear o s.near,
           lining := { s.lining with march := s.lining.march.map (fun m => (m.1, m.2.1, m.2.2.1, moved o m.2.2.2)) },
           pon := { s.pon with portA := movePon o s.pon.portA, portB := movePon o s.pon.portB } }

end Sys2Proof.Machine
end

