-- ==== Sys2Proof/Machine/TimeBlock.lean ====
section
/-!
DEFINITION. The TIME block (chapter 02): sources and their selection (R41 to R52), the PTP engine (R42, R67), the PPS and PON
sources, the servo's bounds (R38, R48), steps, snapshots and the time pins (R65, R66).
-/

namespace Sys2Proof.Machine

/-! ### Sources -/

/-- The record of a measuring source by its code (R41). -/
def sourceGet (t : TimeState) (c : Nat) : TimeSource :=
  if c = 1 then t.ptp else if c = 2 then t.ponA else if c = 3 then t.ponB else t.pps

/-- The state with the record of a measuring source replaced. -/
def sourcePut (s : State) (c : Nat) (x : TimeSource) : State :=
  { s with time :=
      if c = 1 then { s.time with ptp := x } else if c = 2 then { s.time with ponA := x }
      else if c = 3 then { s.time with ponB := x } else { s.time with pps := x } }

/-- The source codes of SOURCE_PRIORITY in order of priority; all EMPTY acts as FREE_RUN (R66). -/
def slots (s : State) : List Nat :=
  let v := rd s Reg.TIME.SOURCE_PRIORITY_SLOTS
  if v = 0 then [5] else ([v % 16, v / 16 % 16, v / 256 % 16, v / 4096 % 16].filter (· ≠ 0))

/-- The codes of the measuring sources (R45). -/
def measuring (c : Nat) : Bool := 1 ≤ c && c ≤ 4

/-- JUMP_THRESHOLD in ns. -/
def threshold (s : State) : Nat := rd s Reg.TIME.JUMP_THRESHOLD

/-- EVER_LOCKED. -/
def everLocked (s : State) : Bool := rd s Reg.TIME.TIME_STATUS_EVER_LOCKED = 1

/-- An offset within JUMP_THRESHOLD; an offset equal to it is accepted (R49). -/
def within (s : State) (o : Int) : Bool := o.natAbs ≤ threshold s

/-- A candidate of R45. -/
def candidate (s : State) (c : Nat) : Bool :=
  let x := sourceGet s.time c
  measuring c && (slots s).contains c && x.qualified && (match x.offset with | some o => within s o | none => false)

/-- The source that TIME_STATUS shows. -/
def selected (s : State) : Nat := rd s Reg.TIME.TIME_STATUS_SOURCE

/-- Whether a measuring source is selected and not in holdover. -/
def tracking (s : State) : Bool := measuring (selected s) && (timeState s = 1 || timeState s = 2)

/-- TIME_STATUS.SOURCE takes a code (SOURCE_CHANGED if it is a new one). -/
def setSource (s : State) (c : Nat) : State :=
  if selected s = c then s else raise (wr s Reg.TIME.TIME_STATUS_SOURCE c) Reg.TIME.TIME_EVENTS_SOURCE_CHANGED

/-- A pin of the time outputs that is high goes low. -/
def pinsLow (s : State) : State :=
  let s := if s.time.ppsOut then emit { s with time := { s.time with ppsOut := false, ppsOutUntil := none } } (.pin "TIME_PPS_OUT" 0) else s
  if s.time.tickOut then emit { s with time := { s.time with tickOut := false, tickOutUntil := none } } (.pin "TIME_TICK_OUT" 0) else s

/-- TIME_STATUS.STATE takes a code; outside LOCKED and HOLDOVER the time outputs are held low (R46, R65). -/
def setTimeState (s : State) (v : Nat) : State :=
  let s := wr s Reg.TIME.TIME_STATUS_STATE v
  if v = 2 || v = 3 then s else pinsLow s

/-- Ask that the mode be Serving or Holdover from the next boundary on (R50, R51): an earlier request between the two no longer stands. -/
def requestClockMode (s : State) (m : Mode) (reason : Nat) : State :=
  let s := { s with modeRequests := s.modeRequests.filter (fun r => r.1 ≠ .serving && r.1 ≠ .holdover) }
  if s.mode ≠ m && (s.mode = .serving || s.mode = .holdover) then requestMode s m reason else s

/-- Select a measuring source (R45, R51): state LOCKING, and the end of HOLDOVER if it was in force. -/
def selectSource (s : State) (c : Nat) : State :=
  let was := timeState s
  let s := setSource s c
  let s := setTimeState s 1
  let s := { s with time := { s.time with lockRun := 0 } }
  let s := sourcePut s c { sourceGet s.time c with refusals := 0 }
  if was = 3 then
    let s := wr s Reg.TIME.HOLDOVER_SECONDS ((nowNs s - s.time.holdoverSince) / 1000000000)
    let s := raise s Reg.TIME.TIME_EVENTS_HOLDOVER_LEFT
    requestClockMode s .serving 5
  else s

/-- HOLDOVER begins (R50): INCREMENT holds its last servo value; Serving goes to Holdover mode, Mending stays. -/
def enterHoldover (s : State) : State :=
  if timeState s = 3 then s
  else
    let s := setTimeState s 3
    let s := { s with time := { s.time with holdoverSince := nowNs s, nextCorrection := none, lockRun := 0 } }
    let s := raise s Reg.TIME.TIME_EVENTS_HOLDOVER_ENTERED
    requestClockMode s .holdover 4

/-- The selected source is lost with EVER_LOCKED set: the highest-priority candidate, or HOLDOVER (R45, R50). -/
def sourceLost (s : State) : State :=
  match (slots s).find? (candidate s) with
  | some c => selectSource s c
  | none => enterHoldover s

/-- Before the first lock (R45): the highest-priority qualified measuring source, or else FREE_RUN and state FREE. -/
def selectFree (s : State) : State :=
  match (slots s).find? (fun c => measuring c && (sourceGet s.time c).qualified) with
  | some c => if selected s = c && timeState s ≠ 0 then s else selectSource s c
  | none =>
    let s := setTimeState s 0
    if (slots s).contains 5 then setSource s 5 else s

/-- A source is disqualified. `jumpOnly` marks a disqualification by refusals alone (R52). -/
def disqualify (s : State) (c : Nat) (jumpOnly : Bool) : State :=
  let x := sourceGet s.time c
  let was := tracking s && selected s = c
  let s := sourcePut s c
    { x with qualified := false, jumpOnly := jumpOnly, refusals := 0, candidateSince := none, count := if jumpOnly then x.count else 0 }
  if !inService s then s
  else if everLocked s then (if was then sourceLost s else s)
  else selectFree s

/-! ### The servo (R38, R48) -/

/-- Nominal INCREMENT and its limit at a set point (R38). -/
def nominalIncrement (point : Nat) : Nat := if point = 0 then 0x00A0000000 else if point = 1 then 0x00D5555555 else 0x0140000000
def incrementLimit (point : Nat) : Nat := if point = 0 then 1342177 else if point = 1 then 1789569 else 2684354

/-- A correction kept within ±500 ppm of nominal. -/
def clampCorrection (point : Nat) (c : Int) : Int := max (-(incrementLimit point : Int)) (min (incrementLimit point : Int) c)

/-- An accepted measurement of the selected source (R46, R48). -/
def correct (s : State) (o : Int) : State :=
  let c := clampCorrection (eclk s) (Config.servo s.time.increment o)
  let small := decide (o.natAbs < rd s Reg.TIME.SOURCE_PRIORITY_LOCK_WINDOW)
  let run := if small then s.time.lockRun + 1 else 0
  let s := { s with time := { s.time with nextCorrection := some c, lockRun := run } }
  setTimeState s (if !small then 1 else if 16 ≤ run then 2 else timeState s)

/-! ### Measurements (R45 to R51) -/

/-- A measured offset of source `c`; `meets` says that the source now meets its qualification rule of R43 to R45. -/
def measure (s : State) (c : Nat) (o : Int) (meets : Bool) : State :=
  if !(inService s && (slots s).contains c) then s
  else
    let x := sourceGet s.time c
    let s := { s with time := { s.time with lastOffset := o } }
    let x := { x with offset := some o, measuredAt := nowNs s }
    if !everLocked s then
      let first := meets && !x.qualified
      let s := sourcePut s c { x with qualified := x.qualified || meets }
      let s := selectFree s
      if first && selected s = c && s.time.pendingStep.isNone then
        { s with time := { s.time with pendingStep := some o } }
      else s
    else if tracking s && selected s = c then
      if within s o then correct (sourcePut s c { x with refusals := 0 }) o
      else
        let s := sourcePut { s with time := { s.time with lockRun := 0 } } c { x with refusals := x.refusals + 1 }
        raise (bump s Reg.TIME.JUMP_REFUSED_COUNT) Reg.TIME.TIME_EVENTS_JUMP_REFUSED
    else
      let q := meets && (within s o || (x.qualified || !x.jumpOnly))
      let x := { x with qualified := x.qualified || q, jumpOnly := x.jumpOnly && !q }
      let cand := x.qualified && within s o
      let s := sourcePut s c { x with candidateSince := if cand then some (x.candidateSince.getD (nowNs s)) else none }
      if cand && !tracking s then selectSource s c else s

/-- SOURCE_DISQUALIFIED: four consecutive refused measurements of the selected source (R50). -/
def execSourceDisqualified (s : State) : Host.Outcome State Fault Refusal :=
  if tracking s && decide (4 ≤ (sourceGet s.time (selected s)).refusals) then ok (disqualify s (selected s) true) else ok s

/-- RESTORE_WAIT_EXPIRY: a higher-priority source has stayed a candidate for RESTORE_WAIT seconds (R45). -/
def execRestoreWaitExpiry (c : Nat) (s : State) : Host.Outcome State Fault Refusal :=
  match (sourceGet s.time c).candidateSince with
  | none => ok s
  | some t =>
    if inService s && everLocked s && tracking s && candidate s c && ((slots s).idxOf c < (slots s).idxOf (selected s)) then
      match reach s (t + rd s Reg.TIME.SOURCE_PRIORITY_RESTORE_WAIT * 1000000000) with
      | some s => ok (selectSource s c)
      | none => ok s
    else ok s

/-! ### PTP (R42, R67, R373) -/

/-- The TIME record in force. -/
def timeRec (s : State) : TimeRec := ((structureOf s).findSome? Record.time?).getD .absent

/-- A receive stamp referred to the connector, in quarter ns (R373). -/
def rxStamp (s : State) (port stamp : Nat) : Int :=
  4 * (stamp : Int) - rd s (Reg.ETH.PTP_CORRECTION_RX_CORR.on port) - toSigned 16 (rd s (Reg.ETH.PTP_TRIM.on port))

/-- A transmit stamp referred to the connector, in quarter ns. -/
def txStamp (s : State) (port stamp : Nat) : Int :=
  4 * (stamp : Int) + rd s (Reg.ETH.PTP_CORRECTION_TX_CORR.on port) + toSigned 16 (rd s (Reg.ETH.PTP_TRIM.on port))

/-- The localPriority of a port (R67). -/
def localPriority (s : State) (port : Nat) : Nat := orDefault ((timeRec s).localPriority.getD port 0) 128

/-- The master that the BMCA of the profile selects among those heard (R42). The algorithm is named by standard, so the
comparison of two masters is a free value. -/
def bmca (s : State) : Option PtpMaster :=
  let better (a b : PtpMaster) : Bool :=
    Config.bmcaBetter (rd s Reg.TIME.TIME_CONFIG_PTP_PROFILE) (localPriority s a.port) (localPriority s b.port) a.dataset b.dataset
  s.time.engine.masters.foldl (fun b a =>
    match b with
    | none => some a
    | some x => if better a x then some a else some x) none

/-- The state with the PTP engine's state replaced. -/
def withEngine (s : State) (e : PtpState) : State := { s with time := { s.time with engine := e } }

/-- The BMCA runs again: a new selection starts its exchange afresh, and with no master the source is lost (R42, R45). A change of master keeps the
count of measurements, which R45 takes of the source (log 105). -/
def runBmca (s : State) : State :=
  match bmca s with
  | none =>
    let s := withEngine s { s.time.engine with selected := none }
    if s.time.ptp.qualified then disqualify s 1 false else sourcePut s 1 { s.time.ptp with count := 0 }
  | some m =>
    let e := s.time.engine
    let s :=
      if e.selected = some m.identity then s
      else withEngine s { e with selected := some m.identity, syncIngress := none, syncOrigin := none, requestSent := none, pathDelay := none, minDelayLog := none,
                                 peerRequestReceipt := none, peerResponseIngress := none }
    wr s Reg.TIME.TIME_STATUS_PTP_PORT m.port

/-- The port of the selected master. -/
def ptpPort (s : State) : Nat := rd s Reg.TIME.TIME_STATUS_PTP_PORT

/-- A PTP offset measurement from the origin and ingress times of a Sync, once a path delay is known: true TAI less local time
(R45). -/
def ptpMeasure (s : State) (origin ingress : Int) : State :=
  match s.time.engine.pathDelay with
  | none => s
  | some d =>
    let x := { s.time.ptp with count := s.time.ptp.count + 1 }
    measure (sourcePut s 1 x) 1 ((origin + d - ingress) / 4) (16 ≤ x.count)

/-- The interval of a log value in ns. -/
def logInterval (l : Int) : Nat := if l < 0 then 1000000000 / 2 ^ l.natAbs else 1000000000 * 2 ^ l.natAbs

/-- What the device's own messages carry (R42, R67): domain, transport, and the multicast address of G.8275.1. -/
def ptpVia (s : State) : List Nat := [rd s Reg.TIME.TIME_CONFIG_PTP_DOMAIN, (timeRec s).transport, b2n (timeRec s).nonForwardable]

/-- Whether a message is one of the device's PTP: of its domain, on its transport, and under G.8275.1 to the chosen multicast address (R42,
R67). -/
def ptpMine (s : State) (v : PtpVia) : Bool :=
  v.domain = rd s Reg.TIME.TIME_CONFIG_PTP_DOMAIN && v.transport = (timeRec s).transport
    && (rd s Reg.TIME.TIME_CONFIG_PTP_PROFILE = 0 || v.nonForwardable == (timeRec s).nonForwardable)

/-- The effect of one PTP message received on a port with its raw stamp (R42, R45, R67). Messages of a master that is not
selected, and Syncs beyond the 128th of a second, are ignored. -/
def ptpReceive (s : State) (port stamp : Nat) (m : PtpMessage) : State :=
  let e := s.time.engine
  let p2p := rd s Reg.TIME.TIME_CONFIG_PTP_DELAY = 1
  match m with
  | .announce id ds interval =>
    let x : PtpMaster := { port := port, identity := id, dataset := ds, announceAt := stamp, announceInterval := interval }
    runBmca (withEngine s { e with masters := e.masters.filter (fun y => y.identity ≠ id) ++ [x] })
  | .sync id seq twoStep origin corr =>
    if e.selected ≠ some id then s
    else
      let sec := stamp / 1000000000
      let n := if e.syncSecond = sec then e.syncCount + 1 else 1
      let s := withEngine s { e with syncSecond := sec, syncCount := n }
      if 128 < n then s
      else
        let rx := rxStamp s port stamp - 4 * corr
        let s := withEngine s { s.time.engine with syncSeq := seq, syncIngress := some rx, syncOrigin := if twoStep then none else some (4 * (origin : Int)) }
        if twoStep then s else ptpMeasure s (4 * (origin : Int)) rx
  | .followUp id seq origin corr =>
    match e.syncIngress with
    | some rx =>
      if e.selected = some id && e.syncSeq = seq && e.syncOrigin.isNone then
        let o := 4 * (origin : Int) + 4 * corr
        ptpMeasure (withEngine s { e with syncOrigin := some o }) o rx
      else s
    | none => s
  | .delayResp id seq receive corr log =>
    if p2p || e.selected ≠ some id || e.requestSeq ≠ seq then s
    else
      let s := withEngine s { e with minDelayLog := some log }
      match e.requestSent, e.syncIngress, e.syncOrigin with
      | some t3, some t2, some t1 =>
        withEngine s { s.time.engine with pathDelay := some (((t2 - t1) + (4 * (receive : Int) - 4 * corr - t3)) / 2) }
      | _, _, _ => s
  | .pdelayReq seq =>
    emit (emit s (.ptp port 3 (ptpVia s ++ [seq, stamp]))) (.ptp port 10 (ptpVia s ++ [seq, now s]))
  | .pdelayResp _ seq twoStep receipt corr =>
    if !p2p || e.requestSeq ≠ seq then s
    else
      let t4 := rxStamp s port stamp
      if twoStep then withEngine s { e with peerRequestReceipt := some (4 * (receipt : Int)), peerResponseIngress := some t4, peerCorrection := 4 * corr }
      else
        match e.requestSent with
        | some t1 => withEngine s { e with pathDelay := some ((t4 - t1 - 4 * corr) / 2) }
        | none => s
  | .pdelayRespFollowUp _ seq origin corr =>
    if !p2p || e.requestSeq ≠ seq then s
    else
      match e.requestSent, e.peerRequestReceipt, e.peerResponseIngress with
      | some t1, some t2, some t4 => withEngine s { e with pathDelay := some (((t4 - t1) - (4 * (origin : Int) - t2) - e.peerCorrection - 4 * corr) / 2) }
      | _, _, _ => s

/-- PTP_MESSAGE: on a port of PTP_PORTS, in the modes in which the device evaluates sources, and of the device's domain and transport (R41, R42). -/
def execPtpMessage (port : Nat) (a : PtpArrival) (m : PtpMessage) (s : State) : Host.Outcome State Fault Refusal :=
  if inService s && decide (port < 16) && bitOf (rd s Reg.TIME.TIME_CONFIG_PTP_PORTS) port = 1 && (slots s).contains 1 && ptpMine s a.via then
    ok (ptpReceive s port a.stamp m)
  else ok s

/-- DELAY_REQ_SEND: Delay_Req or Pdelay_Req at the interval of R67, or at the master's longer one once a Delay_Resp has named it, on the port of the
selected master. -/
def execDelayReqSend (s : State) : Host.Outcome State Fault Refusal :=
  let e := s.time.engine
  if inService s && e.selected.isSome && (slots s).contains 1 then
    match reach s e.nextRequest with
    | none => ok s
    | some s =>
      let own := logInterval (timeRec s).delayLog
      let step := (e.minDelayLog.map (fun l => max own (logInterval l))).getD own
      let seq := (e.requestSeq + 1) % 65536
      let kind := if rd s Reg.TIME.TIME_CONFIG_PTP_DELAY = 1 then 2 else 1
      let s := withEngine s { e with requestSeq := seq, requestSent := some (txStamp s (ptpPort s) (nowNs s)), nextRequest := nowNs s + step,
                                     peerRequestReceipt := none, peerResponseIngress := none }
      ok (emit s (.ptp (ptpPort s) kind (ptpVia s ++ [seq])))
  else ok s

/-- ANNOUNCE_TIMEOUT: a master is removed announceReceiptTimeout intervals after its last Announce (R67). -/
def execAnnounceTimeout (identity : Nat) (s : State) : Host.Outcome State Fault Refusal :=
  match s.time.engine.masters.find? (fun m => m.identity = identity) with
  | none => ok s
  | some m =>
    match reach s (m.announceAt + orDefault (timeRec s).announceTimeout 3 * m.announceInterval) with
    | none => ok s
    | some s =>
      ok (runBmca (withEngine s { s.time.engine with masters := s.time.engine.masters.filter (fun y => y.identity ≠ identity) }))

/-! ### PPS (R44) -/

/-- The PPS source misses an edge by more than 1 us (R44): it is disqualified, and its run of edges begins anew. -/
def ppsMissed (s : State) : State :=
  raise (disqualify { s with time := { s.time with lastEdge := none } } 4 false) Reg.TIME.TIME_EVENTS_PPS_MISSING

/-- How far an edge comes after the last one that counted, by signed difference (R54). -/
def edgeGap (s : State) (stamp : Nat) : Option Int := s.time.lastEdge.map (fun t => signedDiff 64 stamp t)

/-- The edge as the source counts it: 1 s ± 1 us after the last one it lengthens the run, and otherwise it starts a new one. While the source is
qualified an early edge leaves the instant at which the next one is awaited. -/
def countEdge (s : State) (stamp : Nat) (frequencyOk : Bool) : State :=
  let x := s.time.pps
  let inStep := match edgeGap s stamp with
    | some d => decide (999999000 ≤ d) && decide (d ≤ 1000001000)
    | none => false
  let s := { s with time := { s.time with ppsFrequency := frequencyOk } }
  if x.qualified && !inStep && s.time.lastEdge.isSome then s
  else
    let s := sourcePut s 4 { x with count := if inStep then x.count + 1 else 1 }
    { s with time := { s.time with lastEdge := some stamp, nextSecond := if everLocked s then s.time.nextSecond else s.time.nextSecond.map (· + 1) } }

/-- PPS_EDGE: a rising edge of TIME_PPS_IN. Inputs are ignored unless PPS is listed (R65). The second's number is the one given by
set-seconds, then the next whole seconds; once the clock has locked it is the second nearest to local time (log 107). An edge that comes later than its time
and 1 us finds the source disqualified by the edge that was missing. -/
def execPpsEdge (stamp : Nat) (frequencyOk : Bool) (s : State) : Host.Outcome State Fault Refusal :=
  if !(inService s && (slots s).contains 4) then ok s
  else
    let late := s.time.pps.qualified && (edgeGap s stamp).any (fun d => decide (1000001000 < d))
    let s := if late then ppsMissed s else s
    let sec := if everLocked s then some ((stamp + 500000000) / 1000000000) else s.time.nextSecond
    let s := countEdge s stamp frequencyOk
    match sec with
    | some n => ok (measure s 4 ((n * 1000000000 : Nat) - (stamp : Int)) (frequencyOk && 4 ≤ s.time.pps.count))
    | none => ok s

/-- PPS_MISSING: an edge is missing by more than 1 us (R44). -/
def execPpsMissing (s : State) : Host.Outcome State Fault Refusal :=
  match s.time.lastEdge with
  | none => ok s
  | some t =>
    if !(inService s && (slots s).contains 4 && s.time.pps.qualified) then ok s
    else
      match reach s (t + 1000001001) with
      | none => ok s
      | some s => ok (ppsMissed s)

/-! ### PON time of day (R398) -/

/-- The source code of a PON port. -/
def todSource (port : Nat) : Nat := if port = 0 then 2 else 3

/-- TOD_TIMEOUT: 10 s without a measurement. -/
def execTodTimeout (port : Nat) (s : State) : Host.Outcome State Fault Refusal :=
  let x := sourceGet s.time (todSource port)
  if decide (port < 2) && x.qualified then
    match reach s (x.measuredAt + 10000000000) with
    | none => ok s
    | some s => ok (wr (disqualify s (todSource port) false) (Reg.PON.PON_STATUS_TOD_QUALIFIED.on port) 0)
  else ok s

/-! ### Steps (R47, R52, R55, R56) -/

/-- The span of the clock in units of 2^-32 ns: 64-bit ns in COUNTER format, 48-bit seconds in SPLIT (R37). -/
def clockSpan (s : State) : Nat :=
  (if rd s Reg.TIME.TIME_CONFIG_FORMAT = 1 then 2 ^ 48 * 1000000000 else 2 ^ 64) * Config.fracUnit

/-- The kept offsets have changed by a step (R45, R52): sources that are candidates now have been so from now on, and with none selected the best
candidate is selected at once. -/
def afterStep (s : State) : State :=
  let mark (s : State) (c : Nat) : State :=
    let x := sourceGet s.time c
    sourcePut s c { x with candidateSince := if candidate s c then some (x.candidateSince.getD (nowNs s)) else none }
  let s := [1, 2, 3, 4].foldl mark s
  if !inService s || tracking s then s
  else
    match (slots s).find? (candidate s) with
    | some c => selectSource s c
    | none => s

/-- The pending step at a boundary: the clock moves, the kept offsets are reduced, the step is recorded. -/
def applyStep (s : State) : State :=
  match s.time.pendingStep with
  | none => s
  | some o =>
    let red (x : TimeSource) : TimeSource := { x with offset := x.offset.map (· - o) }
    let c := (((s.time.clock : Int) + o * Config.fracUnit) % (clockSpan s : Int)).toNat
    let s := { s with time := { s.time with clock := c, pendingStep := none, ptp := red s.time.ptp, ponA := red s.time.ponA,
                                            ponB := red s.time.ponB, pps := red s.time.pps, stepTotal := s.time.stepTotal + o,
                                            shortTick := decide (c / Config.fracUnit % Config.tickNs ≠ 0) } }
    let s := bump (moveInstants o s) Reg.TIME.STEP_COUNT
    let s := wr s Reg.TIME.LAST_STEP_LO (ofSigned 64 o)
    let s := wr s Reg.TIME.LAST_STEP_HI (ofSigned 64 o / 2 ^ 32)
    let s := wr s Reg.TIME.TIME_STATUS_EVER_LOCKED 1
    afterStep (raise s Reg.TIME.TIME_EVENTS_STEPPED)

/-- The new INCREMENT at a boundary (R38, R40, R48). -/
def loadIncrement (s : State) : State :=
  let c := match s.time.nextCorrection with
    | some c => c
    | none => s.time.correction
  let c := clampCorrection (eclk s) c
  let inc := ((nominalIncrement (eclk s) : Int) + c).toNat
  let s := { s with time := { s.time with correction := c, nextCorrection := none, increment := inc } }
  wr (wr s Reg.TIME.INCREMENT_LO inc) Reg.TIME.INCREMENT_HI (inc / 2 ^ 32)

/-- A correction rescaled in proportion to a new set point's nominal INCREMENT (R40). -/
def rescaleCorrection (c : Int) (old new_ : Nat) : Int := c * (nominalIncrement new_ : Int) / (nominalIncrement old : Int)

/-! ### Snapshot and pins (R65, R66) -/

/-- CAPTURE is written: every snapshot register is latched in one cycle. -/
def capture (s : State) : State :=
  let t := nowNs s
  let split := rd s Reg.TIME.TIME_CONFIG_FORMAT = 1
  let off := max (-(2147483647 : Int)) (min 2147483647 s.time.lastOffset)
  wrAll s
    [(Reg.TIME.NS_LO, t), (Reg.TIME.NS_HI, t / 2 ^ 32), (Reg.TIME.SEC_LO, if split then t / 1000000000 else 0),
     (Reg.TIME.SEC_HI, if split then t / 1000000000 / 2 ^ 32 else 0), (Reg.TIME.NSEC, if split then t % 1000000000 else 0),
     (Reg.TIME.FRAC, s.time.clock % Config.fracUnit / 65536), (Reg.TIME.TICK, s.time.tickCount), (Reg.TIME.OFFSET, ofSigned 32 off)]

/-- SNAPSHOT_CAPTURE: the host writes CAPTURE. -/
def execSnapshotCapture (s : State) : Host.Outcome State Fault Refusal :=
  if s.host.linkUp && s.mode ≠ .dormant && s.mode ≠ .sealed then ok (capture s) else ok s

/-- Whether the time outputs may drive: LOCKED or HOLDOVER, outside Dormant, Sealed and reset (R65, R492). -/
def pinsDrive (s : State) : Bool :=
  (timeState s = 2 || timeState s = 3) && s.mode ≠ .dormant && s.mode ≠ .sealed && !s.warming && !s.power.resetHeld

/-- Whether this cycle is the one in which a whole TAI second begins: the cycle of a tick boundary that no step has cut short, at a multiple of
8,000 ticks (R53, R65). -/
def secondBegins (s : State) : Bool :=
  nowNs s = s.time.boundaryAt && !s.time.shortTick && nowNs s / Config.tickNs % 8000 = 0

/-- PPS_OUT: a pulse begins at each whole TAI second of local time, once for each of its boundaries. -/
def execPpsOut (s : State) : Host.Outcome State Fault Refusal :=
  let sec := nowNs s / 1000000000
  if pinsDrive s && rd s Reg.TIME.PULSE_CONFIG_PPS_ENABLE = 1 && secondBegins s && onceDue s 2 then
    let s := markOnce s 2
    ok (emit { s with time := { s.time with ppsOut := true, lastPpsSecond := sec,
                                            ppsOutUntil := some (nowNs s + rd s Reg.TIME.PULSE_CONFIG_PPS_WIDTH * 1000) } }
      (.pin "TIME_PPS_OUT" 1))
  else ok s

/-- The pulse of TIME_TICK_OUT at a boundary. -/
def tickPulse (s : State) : State :=
  if pinsDrive s && rd s Reg.TIME.PULSE_CONFIG_TICK_ENABLE = 1 then
    emit { s with time := { s.time with tickOut := true, tickOutUntil := some (nowNs s + rd s Reg.TIME.PULSE_CONFIG_TICK_WIDTH * 100) } }
      (.pin "TIME_TICK_OUT" 1)
  else s

/-- PULSE_WIDTH_END: output 0 is TIME_PPS_OUT, 1 is TIME_TICK_OUT. -/
def execPulseWidthEnd (output : Nat) (s : State) : Host.Outcome State Fault Refusal :=
  if output = 0 then
    match s.time.ppsOutUntil with
    | none => ok s
    | some t =>
      match reach s t with
      | none => ok s
      | some s => ok (emit { s with time := { s.time with ppsOut := false, ppsOutUntil := none } } (.pin "TIME_PPS_OUT" 0))
  else if output = 1 then
    match s.time.tickOutUntil with
    | none => ok s
    | some t =>
      match reach s t with
      | none => ok s
      | some s => ok (emit { s with time := { s.time with tickOut := false, tickOutUntil := none } } (.pin "TIME_TICK_OUT" 0))
  else ok s

end Sys2Proof.Machine
end

