-- ==== Sys2Proof/Machine/Power.lean ====
section
/-!
DEFINITION. Power domains, ECLK set points and adaptive voltage (chapter 20, R498 to R502).
-/

namespace Sys2Proof.Machine

/-! ### Domains (R498, R499) -/

/-- DOMAINS_ON takes a value; MEM_STATUS shows the stacks that are powered. -/
def setDomains (s : State) (m : Nat) : State :=
  let s := wr (wr s Reg.POWER.DOMAINS_ON_LO m) Reg.POWER.DOMAINS_ON_HI (m / 2 ^ 32)
  (List.range 8).foldl (fun s k => wr s (Reg.NEARMEM.MEM_STATUS_POWERED.on k) (bitOf m (48 + k))) s

/-- A stack whose domain goes off loses its training sets (R417). -/
def loseSets (s : State) (stack : Nat) : State :=
  showSets ((List.range 16).foldl (fun s ch => withChannel s stack ch { channelOf s stack ch with trained := [none, none, none] }) s) stack

/-- A domain is switched off; it keeps no state. -/
def domainOff (s : State) (d : Nat) : State :=
  let s := setDomains s (clearBit (domainsOn s) d)
  if 48 ≤ d && d < 56 then loseSets s (d - 48) else s

/-- The domains that the running image asks for (R499). -/
def domainWanted (s : State) (d : Nat) : Bool :=
  let v := structure_ s
  let allowed := bitOf (rd s Reg.POWER.DOMAINS_ALLOWED_LO + rd s Reg.POWER.DOMAINS_ALLOWED_HI * 2 ^ 32) d = 1
  let kind (k i : Nat) : Bool := !s.faults.retired.contains (engineId k i)
  let used : Bool :=
    if d < 16 then decide (bitOf v.engines.decode d = 1) && kind 0 d
    else if d < 24 then decide (bitOf v.engines.encode (d - 16) = 1) && kind 1 (d - 16)
    else if d < 28 then (List.range 4).any (fun i => decide (bitOf v.engines.veils (4 * (d - 24) + i) = 1) && kind 2 (4 * (d - 24) + i))
    else if d < 36 then decide (bitOf v.engines.audio (d - 28) = 1) && kind 3 (d - 28)
    else if d < 44 then decide (bitOf v.engines.cipher (d - 36) = 1) && kind 4 (d - 36)
    else if d < 46 then (List.range 4).any (fun i => kind 5 (4 * (d - 44) + i))
    else if d = 46 then (List.range 8).any (fun i => kind 6 i)
    else if d = 47 then (List.range 4).any (fun i => kind 7 i)
    else if d < 56 then v.map.extents.any (fun e => (stacksOf e).contains (d - 48))
    else if d < 59 then true
    else if d = 59 then decide (v.ports.quads.getD 0 0 ≠ 0) || decide (v.ports.quads.getD 1 0 ≠ 0)
    else if d = 60 then decide (v.ports.quads.getD 2 0 ≠ 0) || decide (v.ports.quads.getD 3 0 ≠ 0)
    else if d = 61 then decide (v.ports.ponA.mode ≠ 0)
    else if d = 62 then decide (v.ports.ponB.mode ≠ 0)
    else true
  d = 63 || (allowed && used)

/-- Domains that wait ramp, at most 8 at once, in ascending order. -/
def startRamps (s : State) : State :=
  let n := 8 - s.power.ramping.length
  { s with power := { s.power with ramping := s.power.ramping ++ (s.power.rampQueue.take n).map (fun d => (d, nowNs s + 20000)),
                                   rampQueue := s.power.rampQueue.drop n } }

/-- Ask for domains to be switched on: those that are not on, not ramping and not waiting. -/
def askDomains (s : State) (ds : List Nat) : State :=
  let new_ := ds.filter (fun d => !domainOn s d && !s.power.ramping.any (fun r => r.1 = d) && !s.power.rampQueue.contains d)
  startRamps { s with power := { s.power with rampQueue := sortBy (fun (d : Nat) => (d : Int)) (s.power.rampQueue ++ new_) } }

/-- The domains that Proving needs before an image is known (R504): packet path, near memory, die-to-die and host. -/
def bootDomains : List Nat := (List.range 15).map (· + 44)

/-- The domains of an accepted image: those it asks for ramp, and the others go off. -/
def powerImage (s : State) : State :=
  let s := { s with power := { s.power with imageDue := false } }
  let s := ((List.range 63).filter (fun d => !domainWanted s d)).foldl
    (fun s d => if domainOn s d then domainOff s d else { s with power := { s.power with rampQueue := s.power.rampQueue.erase d, ramping := s.power.ramping.filter (fun r => r.1 ≠ d) } }) s
  askDomains s ((List.range 63).filter (domainWanted s))

/-- The domains of an image accepted since the last boundary are switched: none is switched between boundaries (R499). -/
def powerStep (s : State) : State := if s.power.imageDue then powerImage s else s

/-- The unlock ends (R507). -/
def endUnlock (s : State) : State := { s with power := { s.power with unlockUntil := none } }

/-- DOMAIN_RAMP_DONE: a domain is on 20 us after it began to ramp, and a waiting one may ramp. -/
def execDomainRampDone (d : Nat) (s : State) : Host.Outcome State Fault Refusal :=
  match s.power.ramping.find? (fun r => r.1 = d) with
  | none => ok s
  | some r =>
    match reach s r.2 with
    | none => ok s
    | some s =>
      let s := { s with power := { s.power with ramping := s.power.ramping.erase r } }
      ok (startRamps (setDomains s (setBit (domainsOn s) d)))

/-! ### Voltage (R500, R502) -/

/-- VDD_CORE's target in mV. -/
def vdd (s : State) : Nat := rd s Reg.POWER.POWER_STATUS_VDD_CORE

/-- The target takes a value and is requested over the AVSBus (R495); VOLTAGE_STEPS counts a change. -/
def setVdd (s : State) (mv : Nat) : State :=
  if vdd s = mv then s
  else
    let s := emit (bump (wr s Reg.POWER.POWER_STATUS_VDD_CORE mv) Reg.POWER.VOLTAGE_STEPS) (.avs mv)
    { s with power := { s.power with lastVoltageChange := nowNs s } }

/-- The target that a set point starts at: the last one learned there. -/
def learnedVdd (s : State) (point : Nat) : Nat := (s.power.learned.get point).getD 800

/-! ### Set points (R35, R40, R500, R501) -/

/-- ECLK passes to a set point at a boundary: INCREMENT is rescaled and the servo's correction kept. -/
def passTo (s : State) (point : Nat) : State :=
  let old := eclk s
  let s := { s with time := { s.time with correction := rescaleCorrection s.time.correction old point,
                                          nextCorrection := s.time.nextCorrection.map (fun c => rescaleCorrection c old point) } }
  setVdd (wr s Reg.POWER.CLOCK_CONTROL_CURRENT point) (learnedVdd s point)

/-- A change of set point that is counted and raised. -/
def changePoint (s : State) (point : Nat) : State :=
  raise (bump (passTo s point) Reg.POWER.SET_POINT_CHANGES) Reg.POWER.POWER_EVENTS_SET_POINT_CHANGED

/-- The set-point change that falls due at a boundary. A protective step-down outranks a host request, which is cancelled. -/
def duePoint (s : State) : State :=
  if s.power.protectivePending then
    let s := { s with power := { s.power with protectivePending := false } }
    let s := match s.power.pendingPoint with
      | some _ =>
        let s := { s with power := { s.power with pendingPoint := none } }
        raise (wr s Reg.POWER.CLOCK_CONTROL_PENDING 0) Reg.POWER.CLOCK_CONTROL_REFUSED
      | none => s
    if 2 ≤ eclk s then s
    else
      let s := changePoint s (eclk s + 1)
      raise (bump (wr s Reg.POWER.CLOCK_CONTROL_CEILING (eclk s)) Reg.POWER.THROTTLES) Reg.POWER.POWER_EVENTS_THROTTLED
  else
    match s.power.pendingPoint with
    | some (p, t) =>
      if t ≤ nowNs s then
        changePoint (wr { s with power := { s.power with pendingPoint := none } } Reg.POWER.CLOCK_CONTROL_PENDING 0) p
      else s
    | none => s

/-- The device asks itself for a protective step-down at the next boundary; at 0.8 GHz it stays. -/
def stepDown (s : State) : State :=
  if 2 ≤ eclk s then s else { s with power := { s.power with protectivePending := true } }

/-- CLOCK_CONTROL.REQUEST is written. A higher point waits for its PLL and its voltage, at most 500 us: how long is free (log 142). -/
def clockRequest (s : State) (point : Nat) : State :=
  if 3 ≤ point then accessError s
  else if point = eclk s then wr s Reg.POWER.CLOCK_CONTROL_REQUEST point
  else if rd s Reg.POWER.POWER_CONFIG_HOST_CLOCK = 0 || decide (point < rd s Reg.POWER.CLOCK_CONTROL_CEILING)
      || decide (rd s Reg.POWER.CLOCK_CONTROL_PENDING = 1) then
    raise s Reg.POWER.CLOCK_CONTROL_REFUSED
  else
    let s := wr (wr s Reg.POWER.CLOCK_CONTROL_REQUEST point) Reg.POWER.CLOCK_CONTROL_PENDING 1
    if point < eclk s then
      let r := s.freshId
      setVdd { r.1 with power := { s.power with pendingPoint := some (point, nowNs s + min 500000 (Config.pointSettles r.2)) } } (learnedVdd s point)
    else { s with power := { s.power with pendingPoint := some (point, 0) } }

/-- CLOCK_REQUEST: the host writes CLOCK_CONTROL.REQUEST. -/
def execClockRequest (point : Nat) (s : State) : Host.Outcome State Fault Refusal :=
  if hostReaches s then ok (clockRequest s point) else ok s

/-- The target of R502 for a margin. -/
def agingTarget (s : State) (margin : Nat) : Nat :=
  let least := rd s Reg.POWER.POWER_CONFIG_MARGIN_MIN
  if margin < least then min (vdd s + 5) 800
  else if least + 15 < margin && decide (s.power.lastVoltageChange + 10000000000 ≤ nowNs s) then max (vdd s - 5) 600
  else vdd s

/-- A check of the aging monitors, with their least slack. -/
def agingCheck (s : State) (slack : Nat) : State :=
  let s := wr s Reg.POWER.POWER_STATUS_MARGIN (min slack 255)
  let low := decide (slack < rd s Reg.POWER.POWER_CONFIG_MARGIN_MIN) && decide (vdd s = 800)
  let n := if low then s.power.marginLow + 1 else 0
  let s := setVdd s (agingTarget s slack)
  let s := { s with power := { s.power with marginLow := if 3 ≤ n then 0 else n, learned := s.power.learned.put (eclk s) (vdd s),
                                            agingAt := nowNs s + 1000000000 } }
  if 3 ≤ n then stepDown (raise s Reg.POWER.POWER_EVENTS_AGING_LIMIT) else s

/-- AGING_CHECK: the check of this second, with the least slack of the aging monitors in ps. -/
def execAgingCheck (slack : Nat) (s : State) : Host.Outcome State Fault Refusal :=
  if s.mode = .dormant then ok s
  else
    match reach s s.power.agingAt with
    | none => ok s
    | some s => ok (agingCheck s slack)

end Sys2Proof.Machine
end

