-- ==== Sys2Proof/Machine/Reset.lean ====
section
/-!
DEFINITION. Resets, zeroization and the pins that start them (R97, R98, R447, R475, R476, R496, R503).
-/

namespace Sys2Proof.Machine

/-! ### What a reset keeps of the registers (R14) -/

/-- The field whose key is `k`. -/
def keyField (k : Nat) : Option Fld := (fieldsAt (k / 32)).find? (fun f => f.lo = k % 32)

/-- The register file that a reset of a kind leaves: the fields whose Survives column names it. -/
def keepRegs (r : Table Nat) (k : Keep) : Table Nat :=
  r.filter (fun e => match keyField e.1 with
    | some f => f.keep.contains k
    | none => false)

/-! ### Reset states -/

/-- A cold reset (R496): everything returns to its reset value; the fuses stay. -/
def coldReset (s : State) : State :=
  let c := State.cold s.trust.fuses
  { c with out := (framesCut (burstsLow (pinsLow s))).out, pending := s.pending, freeCount := s.freeCount, trust := { c.trust with draws := s.trust.draws + 1 },
           host := { c.host with nonceDraw := s.trust.draws },
           power := { c.power with knitOpen := s.power.knitOpen, gpioIn := s.power.gpioIn, rxLos := s.power.rxLos } }

/-- The time block after a reset of the sources: the clock and what TIME_STATUS shows go on (R40, R47). -/
def TimeState.restart (t : TimeState) : TimeState :=
  { t with ptp := .reset, ponA := .reset, ponB := .reset, pps := .reset, engine := .reset, lockRun := 0, nextCorrection := none, pendingStep := none,
           lastEdge := none, ppsFrequency := false, nextSecond := none }

/-- What the resets of R503 other than a cold reset have in common: all engines, tables and queues are emptied; the clock, the fault
log, near memory's training sets, errors and remaps, and the Lining's spares stay; registers stay as their Survives column says. CURRENT is 1.6 GHz
again: the servo's correction is rescaled, and the next boundary loads the INCREMENT (R40). -/
def clearWork (s : State) (k : Keep) : State :=
  let c := State.cold s.trust.fuses
  let on := domainsOn s
  let kept := (List.range 64).foldl (fun n d => if bitOf on d = 1 && (bootDomains.contains d || d = 63) then n + 2 ^ d else n) 0
  let s1 : State :=
    { c with
      mode := s.mode, regs := keepRegs s.regs k, out := (framesCut (burstsLow s)).out, pending := s.pending, freeCount := s.freeCount, time := { s.time.restart with correction := rescaleCorrection s.time.correction (eclk s) 0 }, mem := s.mem,
      host := { c.host with linkUp := s.host.linkUp, msix := s.host.msix, msixPending := s.host.msixPending, nonceDraw := s.trust.draws },
      faults := { c.faults with log := s.faults.log, nextSeq := s.faults.nextSeq, autoResets := s.faults.autoResets },
      power := { s.power with pendingPoint := none, protectivePending := false, rampQueue := [], ramping := [], challenge := none, unlockUntil := none, imageDue := false },
      trust := { c.trust with draws := s.trust.draws + 1, reseededAt := s.trust.reseededAt, generates := s.trust.generates,
                              startupPassed := s.trust.startupPassed },
      near := { s.near with crown := [], change := none, retraining := false,
                            channels := s.near.channels.all (fun _ x => { x with reads := [], writes := [], draining := false, precharging := none, heldUntil := 0, replaced := none }) },
      lining := { c.lining with banks := s.lining.banks, substitutes := s.lining.substitutes },
      pon := { c.pon with portA := { c.pon.portA with trips := s.pon.portA.trips, losSince := s.pon.portA.losSince },
                          portB := { c.pon.portB with trips := s.pon.portB.trips, losSince := s.pon.portB.losSince } } }
  let s1 := setDomains s1 kept
  pinsLow (if eclk s = 0 then s1 else setVdd s1 (learnedVdd s1 0))

/-- A warm reset (R503). Service stops at once; the transition into Proving follows at a tick boundary. It is ignored in Dormant and in
Sealed (R476), and a zeroization outranks it (R478). The Policy of the last accepted image goes on governing Proving (R461). -/
def warmReset (s : State) : State :=
  if s.mode = .dormant || s.mode = .sealed || s.trust.zeroizing then s
  else
    let t := s.trust
    let c := clearWork (stopMarch s) .warm
    let c := { c with warming := true,
                      trust := { c.trust with full := t.full, accepted := t.accepted, held := t.held, current := { t.current with number := 0 } } }
    c

/-- A warm reset with its transition into Proving and the reason for it. -/
def warmResetFor (s : State) (reason : Nat) : State :=
  if s.mode = .dormant || s.mode = .sealed || s.trust.zeroizing then s else requestMode (warmReset s) .proving reason

/-! ### Zeroization (R97, R98) -/

/-- The lifecycle is fused RETIRED. -/
def fuseRetired (s : State) : State := { s with trust := { s.trust with fuses := { s.trust.fuses with lifecycle := 3 } } }

/-- Unfinished directives are refused with SEALED. -/
def refuseUnfinished (s : State) : State := s.host.deferred.foldl (fun s d => finish s d 12 0 0) s

/-- The erasures of R98 at the trigger: keys, tables, images and the exchange region. The rings go on (their fields survive). -/
def eraseAll (s : State) : State :=
  let s := refuseUnfinished s
  let h := s.host
  let c := clearWork (stopMarch s) .zeroize
  { c with
    trust := { c.trust with zeroizing := true },
    mem := c.mem.filter (fun x => !(decide (exchangeBase ≤ x.1) && decide (x.1 < exchangeBase + 2 ^ 32))),
    host := { c.host with waiting := h.waiting, lostSince := h.lostSince, cplSince := h.cplSince, cplFirst := h.cplFirst, evtSince := h.evtSince,
                          evtFirst := h.evtFirst, statsSince := h.statsSince, statsFirst := h.statsFirst } }

/-- A zeroize trigger with its cause and, for TAMPER_IN, its input. A Knit breach and a retire directive fuse RETIRED. A second trigger does not
restart the sequence, and once a sequence has ended in Sealed a further trigger finds nothing to erase; a part that its lifecycle sealed (R476) has
run none, and runs it. -/
def zeroizeTrigger (s : State) (cause input : Nat) : State :=
  let s := if cause = 1 || cause = 9 then fuseRetired s else s
  if s.trust.zeroizing || (s.mode = .sealed && decide (rd s Reg.TRUST.ZEROIZE_CAUSE_CAUSE ≠ 0)) then s
  else
    let s := eraseAll s
    let s := wrAll s [(Reg.TRUST.ZEROIZE_CAUSE_CAUSE, cause), (Reg.TRUST.ZEROIZE_CAUSE_INPUT, input)]
    fault (bump s Reg.TRUST.ZEROIZE_COUNT) 0x90 2 0xFFFF cause 0

/-- ZEROIZE_SCRUB_DONE: the device enters Sealed at once, with the always-on and host domains on (R474); there is no transition from Sealed to
Sealed (R475). -/
def execZeroizeScrubDone (s : State) : Host.Outcome State Fault Refusal :=
  if s.trust.zeroizing then
    let s := { s with trust := { s.trust with zeroizing := false }, modeRequests := [], warming := false }
    let s := setDomains s (2 ^ 63 + 2 ^ 58)
    ok (if s.mode = .sealed then s else changeMode s .sealed 12)
  else ok s

/-- KNIT_BREACH: a Knit open or short; while PWR_GOOD is low it is met at the first Dormant after power returns (R522). -/
def execKnitBreach (s : State) : Host.Outcome State Fault Refusal :=
  if s.power.pwrGood then ok (zeroizeTrigger s 1 0) else ok { s with power := { s.power with knitOpen := true } }

/-- RAIL_OUT_OF_RANGE: a core rail outside 0.50 to 0.90 V, armed while PWR_GOOD is high (R516). -/
def execRailOutOfRange (millivolts : Nat) (s : State) : Host.Outcome State Fault Refusal :=
  if s.power.pwrGood && (decide (millivolts < 500) || decide (900 < millivolts)) then ok (zeroizeTrigger s 2 0) else ok s

/-- TEMPERATURE_TRIGGER: a junction below -50 or above 125 °C. -/
def execTemperatureTrigger (celsius : Int) (s : State) : Host.Outcome State Fault Refusal :=
  if celsius < -50 || 125 < celsius then ok (zeroizeTrigger s 3 0) else ok s

/-- JUNCTION_READING: the hottest reading; at THROTTLE_TEMP or above it asks for a protective step-down. One outside the limits of R97 is a trigger
besides (R501). -/
def execJunctionReading (celsius : Int) (s : State) : Host.Outcome State Fault Refusal :=
  if s.mode = .dormant then ok s
  else
    let s := wr s Reg.POWER.POWER_STATUS_JUNCTION (ofSigned 8 celsius)
    if celsius < -50 || 125 < celsius then ok (zeroizeTrigger s 3 0)
    else if (rd s Reg.POWER.POWER_CONFIG_THROTTLE_TEMP : Int) ≤ celsius then ok (stepDown s) else ok s

/-- CLOCK_TRIGGER: the ECLK reference more than 10 % from nominal; the deviation is in thousandths. -/
def execClockTrigger (deviation : Int) (s : State) : Host.Outcome State Fault Refusal :=
  if 100 < deviation.natAbs then ok (zeroizeTrigger s 4 0) else ok s

/-- TAMPER_IN: a pin high for 100 ns or longer. -/
def execTamperIn (input duration : Nat) (s : State) : Host.Outcome State Fault Refusal :=
  if decide (input < 4) && decide (100 ≤ duration) then ok (zeroizeTrigger s 5 input) else ok s

/-- ZEROIZE_PIN: ZEROIZE_N low for 100 ns or longer. -/
def execZeroizePin (duration : Nat) (s : State) : Host.Outcome State Fault Refusal :=
  if 100 ≤ duration then ok (zeroizeTrigger s 6 0) else ok s

/-! ### Power-good, self-test and RESET_N -/

/-- PWR_GOOD_FALL: a cold reset. -/
def execPwrGoodFall (s : State) : Host.Outcome State Fault Refusal :=
  ok (coldReset s)

/-- PWR_GOOD_RISE: the device enters Dormant. -/
def execPwrGoodRise (s : State) : Host.Outcome State Fault Refusal :=
  if s.power.pwrGood then ok s
  else
    let broken := s.power.knitOpen
    let s := { s with power := { s.power with pwrGood := true, knitOpen := false } }
    let s := changeMode (setDomains s (2 ^ 63)) .dormant 0
    ok (if broken then zeroizeTrigger s 1 0 else s)

/-- SELF_TEST_DONE: Proving, or Sealed for a RETIRED part; a failure leaves the device in Dormant until a cold reset (R476). TEST_EN holds it
there as well (R513). -/
def execSelfTestDone (passed : Bool) (s : State) : Host.Outcome State Fault Refusal :=
  if s.power.pwrGood && s.mode = .dormant && !s.power.selfTestDone && !s.power.testEn && !s.trust.zeroizing then
    let s := { s with power := { s.power with selfTestDone := true } }
    if !passed then ok (fault s 0x80 2 0xFFFF (Config.itemCode 0) 0)
    else if s.trust.fuses.lifecycle = 3 then ok (changeMode (setDomains s (2 ^ 63 + 2 ^ 58)) .sealed 13)
    else ok (requestMode s .proving 1)
  else ok s

/-- RESET_N_LOW: the pin has been low for `duration` ns. From 100 ns on a warm reset is held until the pin rises. -/
def execResetNLow (duration : Nat) (s : State) : Host.Outcome State Fault Refusal :=
  if duration < 100 || s.mode = .dormant || s.mode = .sealed || s.trust.zeroizing || s.power.resetHeld then ok s
  else
    let s := warmReset s
    ok { s with power := { s.power with resetHeld := true, resetLow := some (nowNs s - duration) } }

/-- RESET_N_RISE: the transition into Proving follows, not before 1 us after the falling edge (R503). -/
def execResetNRise (s : State) : Host.Outcome State Fault Refusal :=
  if s.power.resetHeld then ok (requestMode { s with power := { s.power with resetHeld := false } } .proving 8) else ok s

/-! ### The PCIe link (R447) -/

/-- The link goes down: DMA channels halt with LINK_DOWN, and rings stop. -/
def linkDown (s : State) : State :=
  if s.host.linkUp then
    let s := { s with host := { s.host with linkUp := false } }
    dmaHaltAll s (fun _ => true) 5
  else s

/-- A link reset (R503): the link goes down, and an unlock ends, as it does with any reset (R507). -/
def linkReset (s : State) : State := endUnlock (linkDown s)

/-- PERST_N. -/
def execPerstN (s : State) : Host.Outcome State Fault Refusal :=
  ok (linkReset s)

/-- FUNCTION_LEVEL_RESET. -/
def execFunctionLevelReset (s : State) : Host.Outcome State Fault Refusal :=
  ok (linkReset s)

/-- PCIE_LINK_LOSS. -/
def execPcieLinkLoss (s : State) : Host.Outcome State Fault Refusal :=
  ok (linkDown s)

/-- PCIE_LINK_UP: the host domain must be powered. Completions that waited are written. -/
def execPcieLinkUp (s : State) : Host.Outcome State Fault Refusal :=
  if s.host.linkUp || !s.power.pwrGood || s.mode = .dormant || !domainOn s 58 then ok s
  else ok (flush { s with host := { s.host with linkUp := true } })

end Sys2Proof.Machine
end

