-- ==== Sys2Proof/Machine/Faults.lean ====
section
/-!
DEFINITION. Engine failures (R480 to R482): the log entry, the count toward retirement, and what an engine reset leaves of the
register block of its engine (R14). What a reset does to the engine's work stands with each engine.
-/

namespace Sys2Proof.Machine

/-- Whether a BAR 0 offset lies in the register block, or the instances of it, that an engine of a kind owns. -/
def ownsOffset (kind index off : Nat) : Bool :=
  match kind with
  | 0 => blockOf off = 6
  | 1 => blockOf off = 8
  | 2 => blockOf off = 7
  | 3 => blockOf off = 9 || blockOf off = 10
  | 4 => blockOf off = 12
  | 5 => blockOf off = 11
  | 6 => blockOf off = 5
  | 7 => blockOf off = 14
  | 8 => (blockOf off = 15 && off % 0x100000 / 0x40000 = index)
      || (blockOf off = 16 && off % 0x100000 / 0x40000 = index / 2 && index % 2 = 0)
  | 9 => blockOf off = 19
  | _ => false

/-- Whether a query, by its number, belongs to the block of an engine: a PON port's query to the port logic that serves it. -/
def ownsQuery (kind index q : Nat) : Bool :=
  match kind with
  | 0 => q = 6
  | 1 => q = 8
  | 2 => q = 7
  | 3 => q = 9 || q = 10
  | 4 => q = 12
  | 5 => q = 11
  | 6 => q = 5
  | 7 => q = 14
  | 8 => (q = 16 && index = 0) || (q = 17 && index = 2)
  | _ => false

/-- The registers after an engine reset (R14): within the engine's block, only the fields whose Survives column names Engine. A query of the block
in progress ends, and QUERY_DATA, which names no reset, reads zero again. -/
def engineRegs (s : State) (kind index : Nat) : State :=
  { s with
    host := { s.host with queries := s.host.queries.filter (fun g => !ownsQuery kind index g.1),
                          queryData := s.host.queryData.filter (fun g => !ownsQuery kind index g.1) },
    regs := s.regs.filter (fun e => !ownsOffset kind index (e.1 / 32)
      || (match keyField e.1 with
          | some f => f.keep.contains .engine
          | none => true)) }

/-- An engine that can fail: enabled, in service. -/
def canFail (s : State) (kind index : Nat) : Bool := decide (kind ≤ 10) && inServiceEngine s kind index

/-- A failure at boundary count `t`: whether it meets R482's threshold, given the earlier failures, newest first. -/
def retireDue (s : State) (earlier : List Nat) : Bool :=
  let n := rd s Reg.FAULTLOG.FAULT_CONFIG_RETIRE_COUNT
  if n ≤ 1 then true
  else
    match earlier[n - 2]? with
    | some t0 => decide (s.time.boundaries < t0 + rd s Reg.FAULTLOG.FAULT_CONFIG_RETIRE_WINDOW * 1000)
    | none => false

/-- A failure of an engine (R480): it is logged and counted; whether its reset starts now is answered too. A failure during a reset is counted only. -/
def countFailure (s : State) (kind index : Nat) : State × Bool :=
  if !canFail s kind index then (s, false)
  else
    let id := engineId kind index
    let earlier := (s.faults.failures.get id).getD []
    let retire := retireDue s earlier && !s.faults.retiring.contains id
    let f := s.faults
    let resetting := f.resetting.contains id
    let s := { s with faults := { f with
      failures := f.failures.put id ((s.time.boundaries :: earlier).take 15),
      retiring := if retire then f.retiring ++ [id] else f.retiring,
      resetting := if resetting then f.resetting else f.resetting ++ [id] } }
    (fault s 0x40 (match kind with
      | 0 => 6 | 1 => 8 | 2 => 7 | 3 => 9 | 4 => 12 | 5 => 11 | 6 => 5 | 7 => 14 | 8 => 15 | 9 => 19 | _ => 20)
      (enginePort kind index) (kind + 256 * index) 0, !resetting)

end Sys2Proof.Machine
end

