-- ==== Sys2Proof/Machine/Wire.lean ====
section
/-!
DEFINITION. Frames as they stand on the wire: IP, UDP and VLAN headers around what the device sends (R103, R324, R339), and the padding and FCS of the
MAC (R372).
-/

namespace Sys2Proof.Machine

/-- Whether an address is in the IPv4-mapped form (R103). -/
def isMapped (a : Nat) : Bool := a / 2 ^ 32 = 0xFFFF

/-! ### Checks -/

/-- The sum of a string's 16-bit words, in network order. -/
def sum16 : List Byte → Nat
  | [] => 0
  | [a] => 256 * a.toNat
  | a :: b :: l => 256 * a.toNat + b.toNat + sum16 l

/-- The Internet checksum of a sum. -/
def checksum (n : Nat) : Nat :=
  let f (n : Nat) : Nat := n % 65536 + n / 65536
  65535 - f (f (f n))

/-- One bit and one byte of the CRC-32 of IEEE 802.3. -/
def crc32Bit (c : Nat) : Nat := if c % 2 = 1 then (c / 2) ^^^ 0xEDB88320 else c / 2
def crc32Byte (c b : Nat) : Nat := (List.range 8).foldl (fun c _ => crc32Bit c) (c ^^^ b)

/-- The FCS of a frame's data: the CRC, its first bits in the first byte. -/
def frameFcs (b : List Byte) : List Byte := toLE 4 (b.foldl (fun c x => crc32Byte c x.toNat) 0xFFFFFFFF ^^^ 0xFFFFFFFF)

/-- A frame's data as the MAC sends it: padded to 60 bytes, with its FCS (R372). -/
def onWire (b : List Byte) : List Byte :=
  let b := b ++ zeros (60 - b.length)
  b ++ frameFcs b

/-! ### Headers -/

/-- The MAC header with up to two VLAN tags. -/
def macHeader (dest source outer inner etherType : Nat) : List Byte :=
  let tag (v : Nat) : List Byte := if v = 0 then [] else toBE 2 0x8100 ++ toBE 2 v
  toBE 6 dest ++ toBE 6 source ++ tag outer ++ tag inner ++ toBE 2 etherType

/-- A UDP datagram with the checksum that its addresses give it. -/
def udpDatagram (source dest sourcePort destPort : Nat) (payload : List Byte) : List Byte :=
  let n := 8 + payload.length
  let pseudo := if isMapped dest then toBE 4 source ++ toBE 4 dest ++ toBE 2 17 ++ toBE 2 n else toBE 16 source ++ toBE 16 dest ++ toBE 4 n ++ toBE 4 17
  let c := checksum (sum16 (pseudo ++ toBE 2 sourcePort ++ toBE 2 destPort ++ toBE 2 n ++ zeros 2 ++ payload))
  toBE 2 sourcePort ++ toBE 2 destPort ++ toBE 2 n ++ toBE 2 (if c = 0 then 65535 else c) ++ payload

/-- The fields of an IP header that no address gives: type of service, identification, whether DF is set, and the TTL or hop limit. -/
structure IpFields where
  tos : Nat
  ident : Nat
  df : Bool
  hops : Nat
  deriving DecidableEq, Repr

/-- An IP packet with a UDP datagram. -/
def ipPacket (f : IpFields) (source dest : Nat) (udp : List Byte) : List Byte :=
  if isMapped dest then
    let head := toBE 1 0x45 ++ toBE 1 f.tos ++ toBE 2 (20 + udp.length) ++ toBE 2 f.ident ++ toBE 2 (if f.df then 0x4000 else 0) ++ toBE 1 f.hops ++ toBE 1 17
    let ends := toBE 4 source ++ toBE 4 dest
    head ++ toBE 2 (checksum (sum16 (head ++ ends))) ++ ends ++ udp
  else
    toBE 4 (6 * 2 ^ 28 + f.tos * 2 ^ 20) ++ toBE 2 udp.length ++ toBE 1 17 ++ toBE 1 f.hops ++ toBE 16 source ++ toBE 16 dest ++ udp

/-- The data of a frame that carries a UDP payload. -/
def udpFrame (f : IpFields) (mac egressMac outer inner source dest sourcePort destPort : Nat) (payload : List Byte) : List Byte :=
  macHeader mac egressMac outer inner (if isMapped dest then 0x0800 else 0x86DD)
    ++ ipPacket f source dest (udpDatagram source dest sourcePort destPort payload)

/-- The data of a frame that carries a packet of a participant, in its addresses and by its aggregate entry (R103, R339). -/
def participantFrame (p : PartSpec) (a : AggSpec) (ident : Nat) (payload : List Byte) : List Byte :=
  udpFrame { tos := Config.mediaTos, ident := Config.ipIdent ident, df := Config.mediaDf, hops := Config.mediaHops }
    (if a.egress < 16 then a.nextHop else Config.ponNextHop a.nextHop) (Config.egressMac a.egress) a.vlanOuter a.vlanInner p.localIp p.remoteIp p.localPort
    p.remotePort payload

/-- The data of a frame that carries a Gauntlet frame: TTL or hop limit 64, and DF set (R324). -/
def carrierFrame (t : TunnelSpec) (ident : Nat) (frame : List Byte) : List Byte :=
  if t.carrier = 0 then macHeader t.remoteMac (Config.egressMac t.egress) t.vlanOuter t.vlanInner 0x88B5 ++ frame
  else
    udpFrame { tos := Config.mediaTos, ident := Config.ipIdent ident, df := true, hops := 64 } t.remoteMac (Config.egressMac t.egress) t.vlanOuter t.vlanInner
      t.localIp t.remoteIp t.localPort t.remotePort frame

end Sys2Proof.Machine
end

