-- ==== Sys2Proof/Machine/Band.lean ====
section
/-!
DEFINITION. The Band (chapter 13): leg queues and pacing, aggregates and class queues, gates, shapers, and the transmission stage.
-/

namespace Sys2Proof.Machine

/-! ### Egress points (R338) -/

/-- The Band engine that serves an egress point: its own, or the next that is not retired. -/
def egressEngine (s : State) (e : Nat) : Nat :=
  let own := if e < 16 then e / 4 else if e = 16 then 0 else 2
  (((List.range 4).map (fun k => (own + k) % 4)).find? (fun k => !s.faults.retired.contains (engineId 7 k))).getD own

/-- Whether an egress point exists under the running PORT_MODES. -/
def egressValid (s : State) (e : Nat) : Bool := (structure_ s).ports.egressValid e

/-- Whether an egress point can transmit (R357): an Ethernet link is up, a PON port is in O5. -/
def canTransmit (s : State) (e : Nat) : Bool :=
  if e < 16 then rd s (Reg.ETH.PORT_STATUS_LINK.on e) = 1
  else rd s (Reg.PON.PON_STATUS_STATE.on (e - 16)) = 4

/-! ### Frame lengths -/

/-- The frame on the wire, FCS included, that carries `n` bytes of IP payload after the UDP header: Ethernet header and
VLAN tags, IP and UDP headers; at least 64 bytes (R372). -/
def frameLength (ip outer inner n : Nat) : Nat :=
  max 64 (14 + (if outer = 0 then 0 else 4) + (if inner = 0 then 0 else 4) + (if isMapped ip then 20 else 40) + 8 + n + 4)

/-- The RTP packet of a leg packet: 12 bytes of header and its payload. -/
def LegPacket.rtpLength (p : LegPacket) : Nat := if p.rtcp then p.payload.length else 12 + p.payload.length

/-- The packet in clear. -/
def LegPacket.bytes (p : LegPacket) : List Byte :=
  if p.rtcp then p.payload
  else [BitVec.ofNat 8 p.head, BitVec.ofNat 8 ((if p.marker then 128 else 0) + p.pt % 128)] ++ toBE 2 p.seq ++ toBE 4 p.timestamp ++ toBE 4 p.ssrc ++ p.payload

/-! ### Leg queues and pacing (R341, R342) -/

/-- An empty leg queue. -/
def LegQueue.empty : LegQueue := { packets := [], nextEligible := 0, overflow := false, inWheel := false }
def legQueueOf (s : State) (l : Nat) : LegQueue := (s.band.legQueues.get l).getD .empty
def withLegQueue (s : State) (l : Nat) (q : LegQueue) : State := { s with band := { s.band with legQueues := s.band.legQueues.put l q } }

/-- A packet is dropped in the Band: its participant's aggregate counts it. -/
def dropFrom (s : State) (agg : Nat) : State :=
  { s with band := { s.band with aggregates := s.band.aggregates.update agg (fun a => { a with drops := min (a.drops + 1) (2 ^ 32 - 1) }) } }

/-- The participant of a leg. -/
def participantOf (s : State) (l : Nat) : Nat := ((s.legs.get l).map (fun x => x.spec.participant)).getD 0

/-- Where a leg waits after its NEXT_ELIGIBLE has changed: nowhere, in the wheel or on the overflow list. -/
def rewheel (s : State) (q : LegQueue) : LegQueue :=
  if q.packets.isEmpty || q.nextEligible ≤ nowNs s then { q with inWheel := false, overflow := false }
  else if nowNs s + 8192000 ≤ q.nextEligible then { q with inWheel := false, overflow := true }
  else { q with inWheel := true, overflow := false }

/-- A packet is queued on a leg, at the tail or (an RFC 4588 retransmission) at the head. -/
def queueLeg (s : State) (l : Nat) (p : LegPacket) (atHead : Bool) : State :=
  let q := legQueueOf s l
  if rd s Reg.BAND.BAND_LIMITS_LEG_QUEUE_PACKETS ≤ q.packets.length then dropFrom (bump s Reg.BAND.QUEUE_DROPS) (participantOf s l)
  else
    let q := { q with packets := if atHead then p :: q.packets else q.packets ++ [p] }
    withLegQueue s l (rewheel s q)

/-- The interval of a packet of `n` bytes in ns (R342). -/
def paceInterval (s : State) (rate n : Nat) : Nat := roundOf (n * 32000000000) (rate * rd s Reg.BAND.BAND_CONFIG_PACE_GAIN)

/-- The draining loop of R343 over the packets of a leg: the packets taken, those left, and NEXT_ELIGIBLE. -/
def drainLoop (s : State) (rate tr : Nat) (ne : Nat) : List LegPacket → List LegPacket × List LegPacket × Nat
  | [] => ([], [], ne)
  | p :: ps =>
    if ne ≤ tr && decide (p.stamp < tr) then
      let r := drainLoop s rate tr (ne + paceInterval s rate p.rtpLength) ps
      (p :: r.1, r.2.1, r.2.2)
    else ([], p :: ps, ne)

/-- A leg is drained at a release at time `tr`, with unused credit of `w` ticks. -/
def drainLeg (s : State) (l tr w : Nat) : State × List LegPacket :=
  let q := legQueueOf s l
  if q.packets.isEmpty then (s, [])
  else
    let rate := ((s.legs.get l).map (fun x => x.spec.rate)).getD 0
    let r := drainLoop s rate tr (max q.nextEligible (tr - w * 125000)) q.packets
    (withLegQueue s l (rewheel s { q with packets := r.2.1, nextEligible := r.2.2 }), r.1)

/-! ### Class queues and fair queueing (R347, R348) -/

/-- An empty class queue. -/
def ClassQueue.empty : ClassQueue := { packets := [], v := 0 }
def classOf (s : State) (e c : Nat) : ClassQueue := (s.band.classQueues.get (8 * e + c)).getD .empty

/-- A class queue set. An Ethernet port keeps since when all its class queues have been empty (R366). -/
def withClass (s : State) (e c : Nat) (q : ClassQueue) : State :=
  let s := { s with band := { s.band with classQueues := s.band.classQueues.put (8 * e + c) q } }
  if (List.range 8).all (fun k => (classOf s e k).packets.isEmpty) then { s with eth := s.eth.update e (fun p => { p with idleSince := nowNs s }) } else s

/-- The later of two 32-bit virtual times. -/
def laterOf (a b : Nat) : Nat := if 0 ≤ signedDiff 32 a b then a else b

/-- The weight of an aggregate (R339, R347). -/
def weightOf (s : State) (agg : Nat) : Nat :=
  if agg = 20480 then rd s Reg.BAND.BAND_CONFIG_SYSTEM_WEIGHT
  else if 16384 ≤ agg then 255
  else ((s.band.aggregates.get agg).map (fun a => a.spec.weight)).getD 1

/-- The finish time of an aggregate's last packet in a class. -/
def finishOf (s : State) (e c agg : Nat) : Nat :=
  if agg < 16384 then ((s.band.aggregates.get agg).map (fun a => a.finish.getD c 0)).getD 0
  else ((s.band.finishes.find? (fun x => x.1 = 8 * e + c && x.2.1 = agg)).map (fun x => x.2.2)).getD 0

/-- The finish time of an aggregate in a class, set. -/
def setFinish (s : State) (e c agg v : Nat) : State :=
  if agg < 16384 then
    { s with band := { s.band with aggregates := s.band.aggregates.update agg (fun a => { a with finish := updateAt a.finish c (fun _ => v) }) } }
  else
    { s with band := { s.band with finishes := (8 * e + c, agg, v) :: s.band.finishes.filter (fun x => !(x.1 = 8 * e + c && x.2.1 = agg)) } }

/-- A packet arrives at a class queue. -/
def enqueueClass (s : State) (e c : Nat) (p : ClassPacket) : State :=
  if !canTransmit s e then
    let s := dropFrom (bump s Reg.BAND.LINK_DOWN_DROPS) p.agg
    if s.band.downRun.contains e then s
    else raise { s with band := { s.band with downRun := s.band.downRun ++ [e] } } Reg.BAND.BAND_EVENTS_LINK_DOWN_DROP
  else
    let s := { s with band := { s.band with downRun := s.band.downRun.filter (· ≠ e) } }
    let q := classOf s e c
    let fill := (q.packets.map (·.length)).sum
    if !p.tunnel && decide (rd s Reg.BAND.BAND_LIMITS_CLASS_LIMIT * 1024 < fill + p.length) then
      raise (bump (dropFrom s p.agg) Reg.BAND.CLASS_DROPS) Reg.BAND.BAND_EVENTS_CLASS_DROP
    else
      let fin := (laterOf q.v (finishOf s e c p.agg) + ceilDiv (p.length * 256) (weightOf s p.agg)) % 2 ^ 32
      withClass (setFinish s e c p.agg fin) e c { q with packets := q.packets ++ [{ p with finish := fin }] }

/-- Whether packet `a` goes before packet `b`: the smaller finish stamp, then the lower aggregate index. -/
def goesBefore (a b : ClassPacket) : Bool :=
  decide (signedDiff 32 a.finish b.finish < 0) || (a.finish = b.finish && decide (a.agg < b.agg))

/-- The head of a class queue. -/
def headOf (q : ClassQueue) : Option ClassPacket :=
  match q.packets with
  | [] => none
  | p :: ps => some (ps.foldl (fun a b => if goesBefore b a then b else a) p)

/-! ### Gates (R350 to R353) -/

/-- The gate list in force at an egress point. -/
def gateOf (s : State) (e : Nat) : Option GateList := (s.band.gates.get e).bind (·.current)

/-- The entry in force at an offset in the cycle: its index, its gates, and the offset at which it ends. -/
def gateEntryAt (l : List (Nat × Nat)) (off : Nat) : Nat × Nat × Nat :=
  let rec go (j start : Nat) : List (Nat × Nat) → Nat × Nat × Nat
    | [] => (0, 0xFF, start)
    | (g, d) :: t => if off < start + d then (j, g, start + d) else go (j + 1) (start + d) t
  go 0 0 l

/-- The offset of a local time in the cycle of a list. -/
def cycleOffset (g : GateList) (t : Nat) : Nat := (((t : Int) - (g.baseTime : Int)) % (g.cycleTime : Int)).toNat

/-- How long from `t` on the gate of a class stays open, in ns, at most two cycles; none when it never closes. -/
def openFor (g : GateList) (c t : Nat) : Option Nat :=
  if g.entries.all (fun e => bitOf e.1 c = 1) then none
  else
    let off := cycleOffset g t
    let entries := g.entries ++ g.entries
    let rec go (start : Nat) : List (Nat × Nat) → Nat
      | [] => start
      | (m, d) :: t => if start + d ≤ off then go (start + d) t else if bitOf m c = 1 then go (start + d) t else start
    some (go 0 entries - off)

/-- Whether the gates let a frame of a class and a duration in ps start at a time in ps: it starts and ends in one window (R351). -/
def gateFits (s : State) (e c tPs dPs : Nat) : Bool :=
  match gateOf s e with
  | none => true
  | some g =>
    let t := tPs / 1000
    bitOf (gateEntryAt g.entries (cycleOffset g t)).2.1 c = 1
      && (match openFor g c t with
          | none => true
          | some n => decide (tPs + dPs < (t + n) * 1000))

/-- The gate of a class is open at a time in ns. -/
def gateOpen (s : State) (e c t : Nat) : Bool :=
  match gateOf s e with
  | none => true
  | some g => bitOf (gateEntryAt g.entries (cycleOffset g t)).2.1 c = 1

/-! ### Shapers (R355, R356) -/

/-- The shaper of an egress point and class, 8 for the port. -/
def shaperOf (s : State) (e c : Nat) : Option Shaper := s.band.shapers.get (9 * e + c)

/-- A shaper brought up to date. A unit of credit is 1/8,000,000 of a byte. -/
def Shaper.upTo (h : Shaper) (t : Nat) : Shaper :=
  { h with credit := min ((h.burst * 8000000 : Nat) : Int) (h.credit + ((h.rate * (t - h.at_) : Nat) : Int)), at_ := max h.at_ t }

/-- Whether a shaper, if there is one, lets a frame start. -/
def shaperLets (s : State) (e c t : Nat) : Bool :=
  match shaperOf s e c with
  | none => true
  | some h => decide (0 ≤ (h.upTo t).credit)

/-- A frame of `n` bytes is charged to a shaper. -/
def chargeShaper (s : State) (e c t n : Nat) : State :=
  match shaperOf s e c with
  | none => s
  | some h =>
    let h := h.upTo t
    { s with band := { s.band with shapers := s.band.shapers.put (9 * e + c) { h with credit := h.credit - ((n * 8000000 : Nat) : Int) } } }

/-- The effect of set-shaper at a boundary: RATE 0 disables. -/
def setShaper (s : State) (e c rate burst : Nat) : State :=
  let t := nowNs s
  if rate = 0 then { s with band := { s.band with shapers := s.band.shapers.del (9 * e + c) } }
  else
    let h := match shaperOf s e c with
      | none => { rate := rate, burst := burst, credit := ((burst * 8000000 : Nat) : Int), at_ := t : Shaper }
      | some h => { h.upTo t with rate := rate, burst := burst, credit := min (h.upTo t).credit ((burst * 8000000 : Nat) : Int) }
    { s with band := { s.band with shapers := s.band.shapers.put (9 * e + c) h } }

/-! ### The transmission stage (R349, R352) -/

/-- A packet leaves its class queue. -/
def removePacket (s : State) (e c : Nat) (p : ClassPacket) : State :=
  let q := classOf s e c
  withClass s e c { q with packets := q.packets.erase p }

/-- The data of the frame that a packet leaves in: a leg's packet and a tunnel's frame in their headers, another as it stands. -/
def frameData (s : State) (p : ClassPacket) : List Byte :=
  match p.leg, s.participants.get p.agg, s.band.aggregates.get p.agg with
  | some _, some x, some a => participantFrame x.spec a.spec s.freeCount p.bytes
  | some _, _, _ => p.bytes
  | none, _, _ =>
    match s.gauntlet.tunnels.get (p.agg - 16384) with
    | some x => if p.tunnel then carrierFrame x.spec s.freeCount p.bytes else p.bytes
    | none => p.bytes

/-- What leaves the device with a packet at its start: on an Ethernet egress point the whole frame; on a PON the XGEM frames carry it (R354). -/
def sentAs (s : State) (e c : Nat) (p : ClassPacket) : List Output := if e < 16 then [.frame e c (onWire (frameData s p))] else []

/-- The send time of a packet of a leg is kept for a second, to read the participant's feedback (R114). -/
def recordSent (s : State) (p : ClassPacket) : State :=
  match p.leg with
  | none => s
  | some _ =>
    if p.rtcp then s else
    let x : SentPacket := { ssrc := fromBE ((p.bytes.drop 8).take 4), seq := fromBE ((p.bytes.drop 2).take 2), time := nowNs s, bytes := p.length }
    { s with participants := s.participants.update p.agg (fun a =>
      { a with sent := x :: a.sent.filter (fun y => decide (nowNs s < y.time + 1000000000)) }) }

/-- A packet starts to transmit: V takes its finish stamp, and it is counted. -/
def countSent (s : State) (e c : Nat) (p : ClassPacket) : State :=
  let q := classOf s e c
  let s := withClass s e c { q with packets := q.packets.erase p, v := p.finish }
  let s := bump s Reg.BAND.PACKETS_SENT
  let s := { s with band := { s.band with aggregates := s.band.aggregates.update p.agg (fun a =>
    { a with bytesSent := (a.bytesSent + p.length) % 2 ^ 64, packetsSent := min (a.packetsSent + 1) (2 ^ 32 - 1) }) } }
  (sentAs s e c p).foldl emit { recordSent s p with freeCount := s.freeCount + 1 }

/-- A stale packet is dropped at the head of its class. -/
def isStale (s : State) (p : ClassPacket) : Bool := decide (0 ≤ signedDiff 64 (nowNs s) (p.stamp + rd s Reg.BAND.BAND_CONFIG_MAX_DELAY * 125000)) && !p.tunnel
def dropStale (s : State) (e c : Nat) (p : ClassPacket) : State :=
  raise (bump (dropFrom (removePacket s e c p) p.agg) Reg.BAND.STALE_DROPS) Reg.BAND.BAND_EVENTS_STALE_DROP

/-- Stale heads of a class are dropped, at most `fuel` of them. -/
def dropStaleHeads (s : State) (e c : Nat) : Nat → State
  | 0 => s
  | fuel + 1 =>
    match headOf (classOf s e c) with
    | some p => if isStale s p then dropStaleHeads (dropStale s e c p) e c fuel else s
    | none => s

/-- A head packet that does not fit the rest of its window waits for the next: GATE_WAITS counts it once (R352). -/
def waitGate (s : State) (e c : Nat) (p : ClassPacket) : State :=
  let q := classOf s e c
  let s := if p.waited then s else bump s Reg.BAND.GATE_WAITS
  withClass s e c { q with packets := replaceFirst q.packets p { p with waited := true } }

/-- The MAC sends a frame, or drops one that would exceed MAX_FRAME (R372). Times in ps. -/
def startFrame (s : State) (e c tPs : Nat) (p : ClassPacket) : State :=
  if rd s (Reg.ETH.PORT_CONFIG_MAX_FRAME.on e) < p.length then
    bump (removePacket s e c p) (Reg.ETH.TX_OVERSIZE.on e)
  else
    let s := countSent s e c p
    let s := bumpBy (bump s (Reg.ETH.FRAMES_TX.on e)) (Reg.ETH.BYTES_TX.on e) p.length
    let s := chargeShaper (chargeShaper s e c (tPs / 1000) p.length) e 8 (tPs / 1000) p.length
    { s with band := { s.band with freeAt := s.band.freeAt.put e (tPs + (p.length + 8 + 12) * bytePs s e) } }

/-- The transmission stage of a free Ethernet egress point considers the classes in a list, highest first. -/
def considerClasses (s : State) (e tPs : Nat) : List Nat → State
  | [] => s
  | c :: cs =>
    let s := dropStaleHeads s e c ((classOf s e c).packets.length)
    match headOf (classOf s e c) with
    | none => considerClasses s e tPs cs
    | some p =>
      let d := (p.length + 8) * bytePs s e
      if !gateFits s e c tPs d then considerClasses (if gateOpen s e c (tPs / 1000) then waitGate s e c p else s) e tPs cs
      else if shaperLets s e c (tPs / 1000) && shaperLets s e 8 (tPs / 1000) then startFrame s e c tPs p
      else considerClasses s e tPs cs

/-- The classes in the order of R349. -/
def classOrder : List Nat := [7, 6, 5, 4, 3, 2, 1, 0]

/-- EGRESS_FREE: an Ethernet egress point is free and starts a frame. A port in low power idle, or one that wakes, starts none (R366). -/
def execEgressFree (e : Nat) (s : State) : Host.Outcome State Fault Refusal :=
  if !(decide (e < 16) && inService s && egressValid s e && canTransmit s e) then ok s
  else if rd s (Reg.ETH.PORT_STATUS_LPI_TX.on e) = 1 then ok s
  else
    let wake := ((s.eth.get e).map (fun p => p.wakeUntil)).getD 0 * 1000
    let free := max ((s.band.freeAt.get e).getD 0) wake
    let t := max free (nowPs s)
    match reach s (ceilDiv free 1000) with
    | none => ok s
    | some s => ok (considerClasses s e t classOrder)

/-! ### Gate instants -/

/-- The packets at the head of a class since a window that ends now are dropped (R352); those at the head of a class whose window opens
now are marked. -/
def gateInstant (s : State) (e : Nat) (was : Nat) (now_ : Nat) : State :=
  classOrder.foldl (fun s c =>
    let wasOpen := bitOf was c = 1
    let isOpen := bitOf now_ c = 1
    match headOf (classOf s e c) with
    | none => s
    | some p =>
      let q := classOf s e c
      if wasOpen && !isOpen && p.headSince.isSome then
        raise (bump (dropFrom (removePacket s e c p) p.agg) Reg.BAND.NEVER_FITS) Reg.BAND.BAND_EVENTS_NEVER_FITS
      else if !wasOpen && isOpen then
        withClass s e c { q with packets := replaceFirst q.packets p { p with headSince := some (nowNs s) } }
      else s) s

/-- The gates of an entry of a list; every gate is open without a list. -/
def gatesOf (l : Option GateList) (entry : Nat) : Nat := ((l.bind (fun g => g.entries[entry]?)).map (·.1)).getD 0xFF

/-- GATE_ENTRY_CHANGE: the next entry of a gate list comes into force. -/
def execGateEntryChange (e : Nat) (s : State) : Host.Outcome State Fault Refusal :=
  if !inService s then ok s
  else
    match gateOf s e, s.band.gates.get e with
    | some g, some st =>
      let off := cycleOffset g (nowNs s)
      let cur := gateEntryAt g.entries off
      let was := gatesOf (some g) st.entry
      if cur.1 ≠ st.entry then
        ok (gateInstant { s with band := { s.band with gates := s.band.gates.put e { st with entry := cur.1 } } } e was cur.2.1)
      else
        match reach s (nowNs s + (cur.2.2 - off)) with
        | none => ok s
        | some s =>
          let nxt := gateEntryAt g.entries (cycleOffset g (nowNs s))
          ok (gateInstant { s with band := { s.band with gates := s.band.gates.put e { st with entry := nxt.1 } } } e was nxt.2.1)
    | _, _ => ok s

/-- The first cycle start of a gate list at or after a time (R353). -/
def cycleStart (g : GateList) (t : Nat) : Nat :=
  if t ≤ g.baseTime then g.baseTime - (g.baseTime - t) / g.cycleTime * g.cycleTime
  else g.baseTime + ceilDiv (t - g.baseTime) g.cycleTime * g.cycleTime

/-- GATE_LIST_CHANGED: the list that waits comes into force at its first cycle start; a window that the change ends drops its head as R352 says.
A sleeping port wakes (R366). -/
def execGateListChanged (e : Nat) (s : State) : Host.Outcome State Fault Refusal :=
  if !inService s then ok s
  else
    match s.band.gates.get e with
    | none => ok s
    | some st =>
      match st.next with
      | none => ok s
      | some (g, t) =>
        match reach s t with
        | none => ok s
        | some s =>
          let new_ := match g with
            | some l => gateEntryAt l.entries (cycleOffset l (nowNs s))
            | none => (0, 0xFF, 0)
          let s := { s with band := { s.band with gates := s.band.gates.put e { current := g, next := none, entry := new_.1 } } }
          let s := gateInstant s e (gatesOf st.current st.entry) new_.2.1
          let s := wr s (Reg.ETH.PORT_STATUS_LPI_TX.on e) (if g.isSome then 0 else rd s (Reg.ETH.PORT_STATUS_LPI_TX.on e))
          ok (raise s Reg.BAND.BAND_EVENTS_GATE_LIST_CHANGED)

/-- The gate lists of a generation, of which a change waits for its first cycle start. At an entry to Serving they are in force at once. -/
def loadGates (s : State) (lists : List GateList) (atOnce : Bool) : State :=
  (List.range 16).foldl (fun s e =>
    let l := lists.find? (fun g => g.egress = e)
    let st := (s.band.gates.get e).getD { current := none, next := none, entry := 0 }
    if atOnce then
      match l with
      | some g => { s with band := { s.band with gates := s.band.gates.put e { current := some g, next := none, entry := (gateEntryAt g.entries (cycleOffset g (nowNs s))).1 } } }
      | none => { s with band := { s.band with gates := s.band.gates.del e } }
    else if st.current = l then { s with band := { s.band with gates := if (s.band.gates.get e).isSome then s.band.gates.put e { st with next := none } else s.band.gates } }
    else
      let t := match l with
        | some g => cycleStart g (nowNs s)
        | none => nowNs s
      { s with band := { s.band with gates := s.band.gates.put e { st with next := some (l, t) } } }) s

/-! ### The timing wheel (R342) -/

/-- PACING_SLOT: the next slot of 1 us begins. Its legs become eligible; a pass of slot 0 moves the overflow entries that fall due within the
coming revolution into the wheel. -/
def execPacingSlot (s : State) : Host.Outcome State Fault Refusal :=
  if !inService s then ok s
  else
    let slot := nowNs s / 1000 + (if s.band.wheelSlot < nowNs s / 1000 then 0 else 1)
    match reach s (slot * 1000) with
    | none => ok s
    | some s =>
      let t := slot * 1000
      let passed := s.band.wheelSlot / 8192 < slot / 8192
      let moves (q : LegQueue) : Bool := passed && q.overflow && decide (q.nextEligible < slot / 8192 * 8192000 + 8192000)
      let n := (s.band.legQueues.filter (fun e => moves e.2)).length
      let s := { s with band := { s.band with wheelSlot := slot, legQueues := s.band.legQueues.all (fun _ (q : LegQueue) =>
        let q := if moves q then { q with overflow := false, inWheel := true } else q
        if q.inWheel && decide (q.nextEligible < t + 1000) then { q with inWheel := false } else q) } }
      ok (bumpBy s Reg.BAND.OVERFLOW_REINSERTS n)

/-! ### Sampling (R358, R359) -/

/-- One sample of a queue, written to the statistics ring or lost. -/
def putSample (s : State) (queue bytes packets : Nat) (head : Option Nat) : State :=
  let delay := match head with
    | some t => min ((nowNs s - t) / 1000) 65535
    | none => 0
  if !(s.host.linkUp && rd s statsRing.enable = 1) || Ring.full s statsRing then
    raise (bump s Reg.BAND.SAMPLES_LOST) Reg.BAND.BAND_EVENTS_SAMPLES_LOST
  else
    let i := rd s statsRing.tail
    let s := emit s (.sample (Ring.slot s statsRing i) (toLE 4 queue ++ toLE 4 s.time.tickCount ++ toLE 4 (min bytes (2 ^ 32 - 1))
      ++ toLE 2 (min packets 65535) ++ toLE 2 delay))
    moderateStats (bump (wr s statsRing.tail (i + 1)) Reg.BAND.SAMPLES_WRITTEN)

/-- The samples of one tick boundary: a rotation of leg and tunnel queues, and all class queues; none while the statistics ring is disabled. -/
def sampleQueues (s : State) : State :=
  if rd s statsRing.enable ≠ 1 then s else
  let entries := rd s Reg.LEGS.LEGS_CONFIG_LEG_UNITS * 65536
  let turns := entries / 4096
  let j := if turns = 0 then 0 else s.band.batchCount % turns
  let legs := s.legs.filter (fun e => decide (4096 * j ≤ e.1) && decide (e.1 < 4096 * j + 4096) && e.2.spec.kind ≠ 0 && e.2.state ≠ .free)
  let s := legs.foldl (fun s e =>
    let q := legQueueOf s e.1
    putSample s e.1 ((q.packets.map LegPacket.rtpLength).sum) q.packets.length (q.packets.head?.map (·.stamp))) s
  let k := s.band.batchCount % 256
  let tunnels := s.gauntlet.tunnels.filter (fun e => e.1 / 16 = k && e.2.state ≠ .free)
  let s := tunnels.foldl (fun s e =>
    putSample s (2 ^ 30 + e.1) ((e.2.queue.map (fun i => i.bytes.length)).sum) e.2.queue.length
      (e.2.queue.head?.map (fun i => s.time.boundaryAt - since s i.queuedAt * 125000))) s
  (List.range 144).foldl (fun s k =>
    let q := classOf s (k / 8) (k % 8)
    putSample s (2 ^ 31 + k) ((q.packets.map (·.length)).sum) q.packets.length ((headOf q).map (·.stamp))) s

/-! ### The system aggregate (R347) -/

/-- A frame of the host, or of an EGRESS rule, enters its class queue in the system aggregate. `frame` lacks its FCS. -/
def sendSystem (s : State) (e c : Nat) (frame : List Byte) (stamp : Nat) : State :=
  enqueueClass s e c { agg := 20480, length := max 64 (frame.length + 4), bytes := frame, stamp := stamp, finish := 0, tunnel := false, waited := false,
                       headSince := none, fragment := false, leg := none, rtcp := false }

/-! ### The way of a leg's packet to its class queue -/

/-- The aggregate of a participant. -/
def aggOf (s : State) (p : Nat) : Option Aggregate := s.band.aggregates.get p

/-- A packet of a leg enters the class queue of its participant as its bytes `b` stand after protection. -/
def enqueueLegPacket (s : State) (l : Nat) (b : List Byte) (p : LegPacket) : State :=
  match s.legs.get l with
  | none => s
  | some x =>
    match aggOf s x.spec.participant, s.participants.get x.spec.participant with
    | some a, some part =>
      enqueueClass s a.spec.egress (x.spec.cls % 8)
        { agg := x.spec.participant, length := frameLength part.spec.remoteIp a.spec.vlanOuter a.spec.vlanInner b.length, bytes := b,
          stamp := p.stamp, finish := 0, tunnel := false, waited := false, headSince := none, fragment := false, leg := some l, rtcp := p.rtcp }
    | _, _ => s

/-! ### An engine reset (R360) -/

/-- The packets that a Band engine had released but not placed in class queues are dropped. -/
def dropReleased (s : State) (engine : Nat) : State :=
  let gone := s.band.released.filter (fun r => r.engine = engine)
  let s := { s with band := { s.band with released := s.band.released.filter (fun r => r.engine ≠ engine) } }
  gone.foldl (fun s r => bump (dropFrom s (participantOf s r.leg)) Reg.BAND.CIPHER_DROPS) s

/-- Whether anything of a leg is still queued or on its way, in its tunnel's queue included (R105). -/
def legQueued (s : State) (l : Nat) : Bool :=
  !(legQueueOf s l).packets.isEmpty || s.band.released.any (fun r => r.leg = l)
    || s.band.classQueues.any (fun e => e.2.packets.any (fun p => p.leg = some l))
    || s.gauntlet.tunnels.any (fun e => e.2.sendingLeg = some l || e.2.queue.any (fun i => i.leg = some l))

end Sys2Proof.Machine
end

