-- ==== Sys2Proof/Machine/Assembly.lean ====
section
/-!
DEFINITION. The assembly of coded frames from the packets of a RECEIVE leg (R134, R147).
-/

namespace Sys2Proof.Machine

def updDecode (s : State) (i : Nat) (f : DecodeStream → DecodeStream) : State := { s with decodes := s.decodes.update i f }

/-- A frame of a stream is lost. -/
def loseFrame (s : State) (i : Nat) : State := bump (updDecode s i (fun d => { d with lost := d.lost + 1 })) Reg.DECODE.FRAMES_LOST

/-- Whether RTP timestamp or sequence number `a` of `w` bits comes before `b`. -/
def comesBefore (w a b : Nat) : Bool := decide (0 < signedDiff w b a)

/-- How many packets a frame has, from its first number to its marker. -/
def AsmFrame.span (a : AsmFrame) : Option Nat :=
  match a.first, a.marker with
  | some f, some m => some ((m + 65536 - f) % 65536 + 1)
  | _, _ => none

/-- The assembled bytes. -/
def AsmFrame.bytes (a : AsmFrame) : List Byte := a.packets.flatMap (·.2)

/-- Whether nothing of a frame has arrived (R134). -/
def AsmFrame.absent (a : AsmFrame) : Bool := a.packets.isEmpty && !a.oversize

/-- The bytes of an RTP header after its first 12: the CSRCs and the extension (RFC 3550). -/
def MediaPacket.headerRest (p : MediaPacket) : Nat :=
  let n := 4 * (p.head % 16)
  if bitOf p.head 4 = 1 then n + 4 + 4 * fromBE ((p.payload.drop (n + 2)).take 2) else n

/-- The payload of an RTP packet: what follows its header with the CSRCs and the extension, less the padding (RFC 3550). -/
def MediaPacket.media (p : MediaPacket) : List Byte :=
  let b := p.payload.drop (MediaPacket.headerRest p)
  if bitOf p.head 5 = 1 then b.take (b.length - (b.getLastD 0).toNat) else b

/-- A packet put in sequence-number order. -/
def putPacket (seq : Nat) (payload : List Byte) : List (Nat × List Byte) → List (Nat × List Byte)
  | [] => [(seq, payload)]
  | p :: l => if comesBefore 16 seq p.1 then (seq, payload) :: p :: l else p :: putPacket seq payload l

/-- A frame with a packet more, at local time `t`, and whether the packet breaks the buffer of `limit` bytes: then assembly stops (R147). -/
def AsmFrame.take (a : AsmFrame) (p : MediaPacket) (limit t : Nat) : AsmFrame × Bool :=
  let expected := if p.marker && a.expected.isNone then some t else a.expected
  if a.oversize then ({ a with expected := expected }, false)
  else if limit < a.bytes.length + (MediaPacket.media p).length then ({ a with packets := [], oversize := true, expected := expected }, true)
  else
    let a := { a with packets := putPacket p.seq (MediaPacket.media p) a.packets, expected := expected,
                      first := if p.unitStart then (match a.first with
                                                    | some f => if comesBefore 16 p.seq f then some p.seq else some f
                                                    | none => some p.seq) else a.first,
                      marker := if p.marker then some p.seq else a.marker }
    ({ a with whole := if a.whole.isNone && a.span = some a.packets.length then some t else a.whole }, false)

/-- A frame of which a packet is the first to arrive. -/
def AsmFrame.new (timestamp : Nat) : AsmFrame :=
  { timestamp := timestamp, packets := [], first := none, marker := none, whole := none, expected := none, oversize := false, readyAt := none }

/-- Frames before a packet's frame: their last packets are expected now, since a packet of a later frame has come (R134). -/
def expectBefore (stamp t : Nat) (l : List AsmFrame) : List AsmFrame :=
  l.map (fun a => if comesBefore 32 a.timestamp stamp && a.expected.isNone then { a with expected := some t } else a)

/-- A frame put in timestamp order. -/
def putFrame (a : AsmFrame) : List AsmFrame → List AsmFrame
  | [] => [a]
  | b :: l => if comesBefore 32 a.timestamp b.timestamp then a :: b :: l else b :: putFrame a l

/-- The numbers that are missing between the marker of one frame and the first packet of the next stand for a frame none of whose packets arrived
(log 128). `last` is the number of the last packet before the list. -/
def fillLost (t : Nat) (last : Option Nat) : List AsmFrame → List AsmFrame
  | [] => []
  | a :: l =>
    let next := if a.oversize then none else a.marker
    match last, a.first with
    | some m, some f =>
      if comesBefore 16 ((m + 1) % 65536) f then
        { AsmFrame.new ((a.timestamp + 2 ^ 32 - 1) % 2 ^ 32) with first := some ((m + 1) % 65536), marker := some ((f + 65535) % 65536), expected := some t }
          :: a :: fillLost t next l
      else a :: fillLost t next l
    | _, _ => a :: fillLost t next l

/-- Frames that stood for a lost one whose numbers take in `seq`: they are lost no more. -/
def foundAgain (seq : Nat) (l : List AsmFrame) : List AsmFrame :=
  l.filter (fun a => !(a.absent && (match a.first, a.marker with
    | some f, some m => !comesBefore 16 seq f && !comesBefore 16 m seq
    | _, _ => false)))

/-- A packet of a stream's leg enters its bitstream buffer. A packet of a frame that has been taken, or that has arrived before, changes nothing. -/
def assemblePacket (s : State) (i : Nat) (d : DecodeStream) (p : MediaPacket) : State :=
  let t := nowNs s
  let old := d.takenStamp.any (fun x => !comesBefore 32 x p.timestamp)
  if old || d.assembly.any (fun a => a.timestamp = p.timestamp && !a.absent && a.packets.any (fun q => q.1 = p.seq)) then s
  else
    let l := expectBefore p.timestamp t (foundAgain p.seq d.assembly)
    let l := if l.any (fun a => a.timestamp = p.timestamp) then l else putFrame (.new p.timestamp) l
    let r := l.map (fun a => if a.timestamp = p.timestamp then a.take p (d.spec.bitstreamKib * 1024) t else (a, false))
    let s := updDecode s i (fun d => { d with assembly := fillLost t d.takenLast (r.map (·.1)) })
    if r.any (·.2) then raise (bump (loseFrame s i) Reg.DECODE.OVERSIZE_FRAMES) Reg.DECODE.DECODE_EVENTS_OVERSIZE_FRAME else s

/-- A packet of a RECEIVE leg enters the bitstream buffer of every decode stream that names the leg. -/
def assembleMedia (s : State) (leg : Nat) (p : MediaPacket) : State :=
  (s.decodes.filter (fun e => e.2.spec.leg = leg && (e.2.state = .waiting || e.2.state = .running))).foldl (fun s e => assemblePacket s e.1 e.2 p) s

/-- Whether local time `a` is before `b`, as stamps are compared (R54). -/
def earlier (a b : Nat) : Bool := comesBefore 64 a b

/-- Whether a frame is ready at the boundary that began this tick (R134). -/
def AsmFrame.isReady (s : State) (a : AsmFrame) : Bool :=
  a.whole.any (fun t => earlier t s.time.boundaryAt)
    || a.expected.any (fun t => earlier (t + rd s Reg.DECODE.DECODE_CONFIG_REPAIR_WAIT * 1000000) s.time.boundaryAt)

/-- At a tick boundary the frames that have become ready take its boundary count, from which their jobs are scheduled (R135). -/
def markReady (s : State) : State :=
  if s.time.shortTick then s
  else
    { s with decodes := s.decodes.all (fun _ (d : DecodeStream) =>
      { d with assembly := d.assembly.map (fun a => if a.readyAt.isNone && !a.oversize && a.isReady s then { a with readyAt := some s.time.boundaries } else a) }) }

end Sys2Proof.Machine
end

