-- ==== Sys2Proof/Machine/Sound.lean ====
section
/-!
DEFINITION. The samples of the audio path (R207, R208, R217, R218, R224, R225, R227): packets and frames of the codecs, bridges, crossfades, sums and the
limiter. What the standards of the codecs define, and the coefficients that the spec does not give, are in Config.
-/

namespace Sys2Proof.Machine

/-! ### Codecs (R207, R208) -/

/-- A trusted packet of a leg with an audio source goes to its jitter buffer, with its arrival stamp. -/
def arriveAudio (s : State) (l : Nat) (p : MediaPacket) (stamp : Nat) : State :=
  { s with audio := s.audio.update l (fun x =>
      { x with arrived := x.arrived ++ [{ seq := p.seq, timestamp := p.timestamp, marker := p.marker, payload := MediaPacket.media p, arrival := stamp }] }) }

/-- The media clock of a codec (R208). -/
def mediaClock (codec : Nat) : Nat := if codec = 0 then 48000 else 8000

/-- An RTP timestamp, unwrapped, in ns. -/
def mediaNs (codec : Nat) (t : Int) : Int := t * 1000000000 / (mediaClock codec : Int)

/-- Samples of a codec's domain in one mix period: 48 kHz for Opus, 16 kHz for G.722, 8 kHz for G.711. -/
def perPeriod (codec : Nat) : Nat := if codec = 0 then 48 else if codec = 3 then 16 else 8

/-- The frames of a packet and the duration of one in microseconds; none for a packet that R207 does not support. -/
def packetFrames (codec : Nat) (payload : List Byte) : Option (Nat × List (List Byte)) :=
  if codec = 0 then (Config.opusFrames payload).filter (fun f => decide (f.1 * f.2.length ≤ 120000) && !f.2.isEmpty)
  else if 8 ≤ payload.length && payload.length ≤ 960 then some (125 * payload.length, [payload])
  else none

/-- Samples that `us` microseconds take in a codec's domain. -/
def samplesIn (codec us : Nat) : Nat := us * perPeriod codec / 1000

/-- A sample of 24 bits. -/
def clip24 (v : Int) : Int := max (-8388608) (min 8388607 v)

/-- Exactly `n` samples of 24 bits. -/
def samples24 (n : Nat) (xs : List Int) : List Int := (List.range n).map (fun i => clip24 (xs.getD i 0))

/-! ### Crossfades (R217, R227) -/

/-- A quotient whose rounding, where it is inexact, is a free value. -/
def quotient (num : Int) (den : Nat) : Int :=
  if num % (den : Int) = 0 then num / (den : Int) else if Config.roundsUp num.natAbs den then num / (den : Int) + 1 else num / (den : Int)

/-- `old` fades linearly into `new_` over `n` samples, of which these begin at sample `k`. -/
def fadeInto (n k : Nat) (old new_ : List Int) : List Int :=
  new_.mapIdx (fun i v => quotient (old.getD i 0 * ((n : Int) - (k + i + 1 : Nat)) + v * ((k + i + 1 : Nat) : Int)) n)

/-- The crossfade of two effective gains at sample `n`, applied to a sample: rounded, halves upward. Gains have 16 fraction bits. -/
def crossfade (old new_ : Nat) (n : Nat) (v : Int) : Int :=
  let num : Int := ((old * (47 - n) + new_ * (n + 1) : Nat) : Int) * v
  (2 * num + 48 * 65536) / (2 * 48 * 65536)

/-- A number held in a 40-bit accumulator. -/
def sat40 (v : Int) : Int := max (-(2 ^ 39)) (min (2 ^ 39 - 1) v)

/-- The products of one source in a period. -/
def products (old new_ : Nat) (xs : List Int) : List Int := (List.range 48).map (fun n => crossfade old new_ n (xs.getD n 0))

/-- The sum of lists of 48 samples. -/
def sumSamples (ls : List (List Int)) : List Int := ls.foldl (fun acc l => (acc.zip l).map (fun p => sat40 (p.1 + p.2))) (List.replicate 48 0)

/-! ### Bridges (R218) -/

/-- Tap `k` of the 96 of a bridge: 0 between 48 and 16 kHz, 1 between 16 and 8 kHz. -/
def bridgeTap (bridge k : Nat) : Int := Config.bridgeHalf bridge (min k (95 - k))

/-- The last `n` samples of a list. -/
def lastOf (n : Nat) (xs : List Int) : List Int := xs.drop (xs.length - n)

/-- The bridge up by `d`: each input sample gives `d` outputs, of 96 / d taps each; `past` are the samples that came before. -/
def bridgeUp (bridge d : Nat) (past xs : List Int) : List Int :=
  let all_ := List.replicate (96 - past.length) 0 ++ past ++ xs
  (List.range xs.length).flatMap (fun m => (List.range d).map (fun j =>
    clip24 (Config.bridgeSum (((List.range (96 / d)).map (fun i => bridgeTap bridge (d * i + j) * all_.getD (96 + m - i) 0)).sum))))

/-- The bridge down by `d`: every `d` input samples give one output of 96 taps. -/
def bridgeDown (bridge d : Nat) (past xs : List Int) : List Int :=
  let all_ := List.replicate (96 - past.length) 0 ++ past ++ xs
  (List.range (xs.length / d)).map (fun m =>
    clip24 (Config.bridgeSum (((List.range 96).map (fun k => bridgeTap bridge k * all_.getD (96 + d * m + d - 1 - k) 0)).sum)))

/-- A period of a source in the 48 kHz domain, with the last samples that entered its bridges. -/
def bridged (codec : Nat) (up16 up48 xs : List Int) : List Int × List Int × List Int :=
  if codec = 0 then (xs, up16, up48)
  else if codec = 3 then (bridgeUp 0 3 up48 xs, up16, lastOf 96 (up48 ++ xs))
  else
    let mid := bridgeUp 1 2 up16 xs
    (bridgeUp 0 3 up48 mid, lastOf 96 (up16 ++ xs), lastOf 96 (up48 ++ mid))

/-! ### The limiter (R225) -/

/-- The largest gain, not above 1, that keeps a sample within the threshold. -/
def gainCap (v : Int) : Nat := if v.natAbs ≤ Config.limitThreshold then 65536 else Config.limitThreshold * 65536 / v.natAbs

/-- A mix with the limiter's gain on each of its samples, and the gain at its end. No sample exceeds the threshold; `next` are the 48 samples that follow. -/
def limitedBy (gain : Nat) (xs next : List Int) : List Int × Nat :=
  let gains := Config.limiterGain gain xs next
  let capped := xs.mapIdx (fun i v => min (gains.getD i 65536) (gainCap v))
  ((xs.zip capped).map (fun p => Int.tdiv (p.1 * (p.2 : Int)) 65536), capped.getLastD gain)

/-- The input width of a codec's encoder: 16 bits for Opus, 13 for A-law, 14 for the others. -/
def encoderBits (codec : Nat) : Nat := if codec = 0 then 16 else if codec = 2 then 13 else 14

/-- A number in `w` bits, signed. -/
def clipBits (w : Nat) (v : Int) : Int := max (-(2 ^ (w - 1) : Nat)) (min ((2 ^ (w - 1) : Nat) - 1) v)

/-- Samples of 24 bits rounded to a width, each with the dither of its lane's generator, of at most one LSB; and the generator's state. -/
def dithered (w : Nat) (g : Nat) : List Int → List Int × Nat
  | [] => ([], g)
  | v :: vs =>
    let d := Config.ditherNext g
    let lsb : Int := max (-65536) (min 65536 d.2)
    let sh := 24 - w
    let r := dithered w d.1 vs
    (clipBits w ((v * 65536 + lsb * (2 ^ sh : Nat) + (2 ^ (sh + 15) : Nat)) / ((2 ^ (sh + 16) : Nat) : Int)) :: r.1, r.2)

/-- A new encode instance. -/
def EncodeInstance.fresh : EncodeInstance :=
  { ahead := List.replicate 48 0, gain := 65536, down48 := [], down16 := [], frame := [], coding := [], codec := 0 }

/-- An instance takes the mix of a period: it puts out the one before, limited, dithered and bridged down, into the frame that it fills; with the state of
its lane's dither generator. -/
def EncodeInstance.take (x : EncodeInstance) (codec dither : Nat) (mix : List Int) : EncodeInstance × Nat :=
  let lim := limitedBy x.gain x.ahead mix
  let out := dithered (encoderBits codec) dither lim.1
  let x := { x with ahead := mix, gain := lim.2 }
  let fit (l : List Int) : List Int := l.map (clipBits (encoderBits codec))
  if codec = 0 then ({ x with frame := x.frame ++ out.1 }, out.2)
  else
    let mid := fit (bridgeDown 0 3 x.down48 out.1)
    let x := { x with down48 := lastOf 96 (x.down48 ++ out.1) }
    if codec = 3 then ({ x with frame := x.frame ++ mid }, out.2)
    else ({ x with frame := x.frame ++ fit (bridgeDown 1 2 x.down16 mid), down16 := lastOf 96 (x.down16 ++ mid) }, out.2)

end Sys2Proof.Machine
end

