-- ==== Sys2Proof/Machine/Legs.lean ====
section
/-!
DEFINITION. Rooms, participants and legs at work (chapter 04): policing, forwarding and layers, retransmission, keyframe requests, and
rate estimation. Admission and release are in Machine/Admit.lean and Machine/Release.lean.
-/

namespace Sys2Proof

/-- Flags of a leg (R104). -/
def LegSpec.rtx (x : LegSpec) : Bool := bitOf x.flags 0 = 1
def LegSpec.nackUp (x : LegSpec) : Bool := bitOf x.flags 1 = 1
def LegSpec.keyframeUp (x : LegSpec) : Bool := bitOf x.flags 2 = 1
def LegSpec.useFir (x : LegSpec) : Bool := bitOf x.flags 3 = 1

end Sys2Proof

namespace Sys2Proof.Machine

def updPart (s : State) (p : Nat) (f : Participant → Participant) : State := { s with participants := s.participants.update p f }

/-- A leg that carries media. -/
def legActive (s : State) (l : Nat) : Bool := ((s.legs.get l).map (fun x => decide (x.state = .active))).getD false

/-- The legs of a participant, of a room, or that name a source, by index. -/
def legsOfPart (s : State) (p : Nat) : List (Nat × Leg) := s.legs.filter (fun e => e.2.spec.participant = p && e.2.state ≠ .free)
def legsOfSource (s : State) (l : Nat) : List (Nat × Leg) :=
  s.legs.filter (fun e => e.2.spec.kind = 1 && e.2.spec.source = l && e.2.state ≠ .free)

/-- The producer ID of an encode stream (R181) and of a room's mix (R210). -/
def encodeProducer (i : Nat) : Nat := 0x10000000 + i
def mixProducer (r : Nat) : Nat := 0x20000000 + r

/-- The PRODUCED legs of a producer. -/
def legsOfProducer (s : State) (p : Nat) : List (Nat × Leg) :=
  s.legs.filter (fun e => e.2.spec.kind = 2 && e.2.spec.source = p && e.2.state ≠ .free)

/-! ### Policing (R121, R122) -/

/-- A byte in units of a leg's bucket. -/
def bucketByte : Nat := 8000000000

/-- A packet of `n` bytes stamped `t` is policed: whether it is admitted. -/
def police (s : State) (l t n : Nat) : State × Bool :=
  match s.legs.get l with
  | none => (s, false)
  | some x =>
    let b := min (x.bucket + x.spec.rate * (t - x.bucketStamp)) (x.spec.burst * bucketByte)
    let x := { x with bucketStamp := max x.bucketStamp t }
    if n * bucketByte ≤ b then ({ s with legs := s.legs.put l { x with bucket := b - n * bucketByte } }, true)
    else
      let s := { s with legs := s.legs.put l { x with bucket := b, policeDrops := x.policeDrops + 1 } }
      (bump s Reg.LEGS.POLICE_DROP, false)

/-! ### RTCP that the device originates (R117, R120, R341) -/

/-- A feedback packet of RFC 4585: its format, its type, the two SSRCs and its control information. -/
def feedbackBytes (format type sender media : Nat) (info : List Byte) : List Byte :=
  toBE 1 (128 + format) ++ toBE 1 type ++ toBE 2 (2 + info.length / 4) ++ toBE 4 sender ++ toBE 4 media ++ info

/-- The pairs of a generic NACK: a number, and which of the 16 after it are missing too. `fuel` bounds the pairs. -/
def nackPairs : Nat → List Nat → List Byte
  | 0, _ => []
  | _, [] => []
  | fuel + 1, q :: l =>
    let near (m : Nat) : Bool := 1 ≤ (m + 65536 - q) % 65536 && (m + 65536 - q) % 65536 ≤ 16
    toBE 2 q ++ toBE 2 ((l.filter near).foldl (fun b m => setBit b ((m + 65536 - q) % 65536 - 1)) 0) ++ nackPairs fuel (l.filter (fun m => !near m))

/-- An RTCP packet of a leg enters its leg queue with the next SRTCP index of the participant. -/
def queueRtcp (s : State) (l p : Nat) (bytes : List Byte) : State :=
  let n := ((s.participants.get p).map (fun a => a.rtcpSent)).getD 0
  let s := updPart s p (fun a => { a with rtcpSent := (n + 1) % 2 ^ 31 })
  queueLeg s l { seq := 0, roc := n, timestamp := 0, ssrc := Config.rtcpSsrc p, pt := 0, marker := false, payload := bytes, stamp := nowNs s, rtcp := true,
                 head := 128 } false

/-- A generic NACK, and a keyframe request: an RFC 5104 FIR with its sequence number, or a PLI. -/
def queueNack (s : State) (l : Nat) (x : LegSpec) (seqs : List Nat) : State :=
  queueRtcp s l x.participant (feedbackBytes 1 205 (Config.rtcpSsrc x.participant) x.ssrc (nackPairs seqs.length seqs))
def queuePli (s : State) (l : Nat) (x : LegSpec) : State := queueRtcp s l x.participant (feedbackBytes 1 206 (Config.rtcpSsrc x.participant) x.ssrc [])
def queueFir (s : State) (l : Nat) (x : LegSpec) (n : Nat) : State :=
  queueRtcp s l x.participant (feedbackBytes 4 206 (Config.rtcpSsrc x.participant) 0 (toBE 4 x.ssrc ++ toBE 1 n ++ zeros 3))

/-! ### Feedback that arrives (R114, R118, R120, R305) -/

/-- The packets of an RTCP compound: format, type and what follows the first word. `fuel` bounds them. -/
def rtcpPackets : Nat → List Byte → List (Nat × Nat × List Byte)
  | 0, _ => []
  | fuel + 1, b =>
    if b.length < 4 then []
    else
      let n := 4 * fromBE ((b.drop 2).take 2)
      (fromBE (b.take 1) % 32, fromBE ((b.drop 1).take 1), (b.drop 4).take n) :: rtcpPackets fuel (b.drop (4 + n))

/-- The numbers that a generic NACK's pairs name. -/
def nackNumbers : Nat → List Byte → List Nat
  | 0, _ => []
  | fuel + 1, b =>
    if b.length < 4 then []
    else
      let pid := fromBE (b.take 2)
      let mask := fromBE ((b.drop 2).take 2)
      pid :: (((List.range 16).filter (fun k => bitOf mask k = 1)).map (fun k => (pid + k + 1) % 65536)) ++ nackNumbers fuel (b.drop 4)

/-- The blocks of an RFC 8888 report: for each SSRC a first number and its packets, each received or not, with how long before the report time
`at_` (1/65,536 s) it arrived in units of 1/1,024 s. Arrival times are in ns. -/
def reportItems (at_ : Nat) : Nat → List Byte → List FeedbackItem
  | 0, _ => []
  | fuel + 1, b =>
    if b.length < 8 then []
    else
      let ssrc := fromBE (b.take 4)
      let first := fromBE ((b.drop 4).take 2)
      let n := fromBE ((b.drop 6).take 2)
      let item (k : Nat) : FeedbackItem :=
        let e := fromBE (((b.drop 8).drop (2 * k)).take 2)
        { ssrc := ssrc, seq := (first + k) % 65536,
          arrival := if bitOf e 15 = 1 then some ((at_ - 64 * (e % 8192)) * 1000000000 / 65536) else none }
      (List.range n).map item ++ reportItems at_ fuel (b.drop (8 + 4 * ceilDiv n 2))

/-- The send leg of a participant that carries an SSRC. -/
def sendLegOf (s : State) (p ssrc : Nat) : Option Nat := ((legsOfPart s p).find? (fun e => e.2.spec.kind ≠ 0 && e.2.spec.ssrc = ssrc)).map (·.1)

/-- What one RTCP packet of a participant asks for: a generic NACK, a PLI, FIRs, or an RFC 8888 report under its unwrapped report time. -/
def feedbackOf (s : State) (p at_ : Nat) (x : Nat × Nat × List Byte) : List Feedback :=
  let media := sendLegOf s p (fromBE ((x.2.2.drop 4).take 4))
  match x.1, x.2.1 with
  | 1, 205 => (media.map (fun l => .nack l (nackNumbers x.2.2.length (x.2.2.drop 8)))).toList
  | 1, 206 => (media.map (fun l => .keyframe l false)).toList
  | 4, 206 =>
    ((List.range ((x.2.2.length - 8) / 8)).filterMap (fun k => sendLegOf s p (fromBE ((x.2.2.drop (8 + 8 * k)).take 4)))).map (fun l => .keyframe l true)
  | 11, 205 => [.report (reportItems at_ x.2.2.length ((x.2.2.drop 4).take (x.2.2.length - 8)))]
  | _, _ => []

/-- The report time of an RFC 8888 report, unwrapped beside the latest one. -/
def reportTimeOf (a : Participant) (b : List Byte) : Nat := ((a.reportTime : Int) + signedDiff 32 (fromBE (b.drop (b.length - 4))) a.reportTime).toNat

/-- A trusted RTCP compound of a participant. -/
def arriveFeedback (s : State) (p : Nat) (b : List Byte) : State :=
  (rtcpPackets b.length b).foldl (fun s x =>
    match s.participants.get p with
    | none => s
    | some a =>
      let t := if x.1 = 11 && x.2.1 = 205 then reportTimeOf a x.2.2 else a.reportTime
      updPart s p (fun a => { a with feedback := a.feedback ++ feedbackOf s p t x, reportTime := max a.reportTime t })) s

/-- What a participant has asked for is acted on. -/
def takeFeedback (s : State) (p : Nat) (f : Feedback) : Option State :=
  match s.participants.get p with
  | none => none
  | some a => if a.feedback.contains f then some (updPart s p (fun a => { a with feedback := a.feedback.erase f })) else none

/-! ### Keyframe requests (R120) -/

/-- A request goes upstream: to the encoder of a producer, or as RTCP to a RECEIVE leg's participant. -/
def sendKeyframe (s : State) (sender : Nat) : State :=
  if 0x10000000 ≤ sender then
    let i := sender - 0x10000000
    bump { s with encodes := s.encodes.update i (fun e =>
      { e with keyAsked := e.keyAsked + 1, keyframe := { e.keyframe with last := some (nowNs s), pending := false, fir := false } }) } Reg.LEGS.KEYFRAME_UPSTREAM
  else
    match s.legs.get sender with
    | none => s
    | some x =>
      let fir := x.keyframe.fir || x.spec.useFir
      let s := updLeg s sender (fun y => { y with keyframe := { last := some (nowNs s), pending := false, fir := false,
                                                                firs := if fir then (x.keyframe.firs + 1) % 256 else x.keyframe.firs } })
      bump (if fir then queueFir s sender x.spec x.keyframe.firs else queuePli s sender x.spec) Reg.LEGS.KEYFRAME_UPSTREAM

/-- The keyframe state of a sender that takes requests: a RECEIVE leg with KEYFRAME_UP, or an encode stream. -/
def keyframeOf (s : State) (sender : Nat) : Option KeyframeState :=
  if 0x10000000 ≤ sender then (s.encodes.get (sender - 0x10000000)).bind (fun e => if e.state = .free then none else some e.keyframe)
  else (s.legs.get sender).bind (fun x => if x.spec.kind = 0 && x.spec.keyframeUp && x.state ≠ .free && x.state ≠ .draining then some x.keyframe else none)

/-- The keyframe state of a sender set. -/
def setKeyframe (s : State) (sender : Nat) (k : KeyframeState) : State :=
  if 0x10000000 ≤ sender then { s with encodes := s.encodes.update (sender - 0x10000000) (fun e => { e with keyframe := k }) }
  else updLeg s sender (fun x => { x with keyframe := k })

/-- A request for a keyframe of a sender. -/
def requestKeyframe (s : State) (sender : Nat) (fir : Bool) : State :=
  match keyframeOf s sender with
  | none => s
  | some k =>
    let s := setKeyframe s sender { k with fir := k.fir || fir }
    if (match k.last with
        | none => true
        | some t => decide (t + 200000000 ≤ nowNs s)) then sendKeyframe s sender
    else bump (setKeyframe s sender { k with fir := k.fir || fir, pending := true }) Reg.LEGS.KEYFRAME_ABSORBED

/-- A keyframe arrives from a sender: it clears a pending request. -/
def clearKeyframe (s : State) (sender : Nat) : State :=
  match keyframeOf s sender with
  | none => s
  | some k => setKeyframe s sender { k with pending := false, fir := false }

/-- KEYFRAME_REQUEST: a PLI or FIR arrives on a leg that carries a sender. -/
def execKeyframeRequest (l : Nat) (fir : Bool) (s : State) : Host.Outcome State Fault Refusal :=
  match s.legs.get l with
  | some x =>
    match takeFeedback s x.spec.participant (.keyframe l fir) with
    | none => ok s
    | some t => if inService s && x.state = .active && x.spec.kind ≠ 0 then ok (requestKeyframe t x.spec.source fir) else ok t
  | none => ok s

/-- KEYFRAME_PENDING_EXPIRY: 200 ms after the last request a pending one is sent. -/
def execKeyframePendingExpiry (sender : Nat) (s : State) : Host.Outcome State Fault Refusal :=
  match keyframeOf s sender with
  | some { last := some t, pending := true, fir := _, firs := _ } =>
    match reach s (t + 200000000) with
    | some s => ok (sendKeyframe s sender)
    | none => ok s
  | _ => ok s

/-! ### The retransmission cache (R117, R118) -/

/-- The bytes of a leg's retransmission area (R118). -/
def rtxAreaBytes (rate : Nat) : Nat := ceilDiv (rate * 3125) (10000 * 512) * 64

/-- The bytes that cached packets take: their RTP headers and what follows (log 119). -/
def cacheBytes (l : List CachedPacket) : Nat := (l.map (fun c => 12 + c.packet.payload.length)).sum

/-- The packets of a cache, oldest first, without the oldest ones that its area does not hold. -/
def fitCache (area : Nat) : List CachedPacket → List CachedPacket
  | [] => []
  | c :: l => if cacheBytes (c :: l) ≤ area then c :: l else fitCache area l

/-- The newest packets of a cache, newest first, that fit its area. -/
def fitNewest (area : Nat) (l : List CachedPacket) : List CachedPacket := (fitCache area l.reverse).reverse

/-- A packet is kept for retransmission: packets older than 250 ms leave; a full area discards the oldest early. -/
def cachePacket (s : State) (l seq : Nat) (p : MediaPacket) : State :=
  match s.legs.get l with
  | none => s
  | some x =>
    if !x.spec.rtx then s
    else
      let kept := x.cache.filter (fun c => decide (nowNs s < c.time + 250000000))
      let all_ := { seq := seq, time := nowNs s, packet := p : CachedPacket } :: kept
      let cut := fitNewest x.rtxSize all_
      let s := updLeg s l (fun x => { x with cache := cut })
      if cut.length < all_.length then raise s Reg.LEGS.LEGS_EVENTS_RTX_FULL else s

/-! ### Forwarding (R110 to R113) -/

/-- The spatial and the temporal layer of an operating point. -/
def opSpatial (p : Nat) : Nat := p % 16
def opTemporal (p : Nat) : Nat := p / 16
def opPoint (spatial temporal : Nat) : Nat := spatial % 16 + 16 * (temporal % 16)

/-- Whether an operating point stands within a cap. -/
def opWithin (a b : Nat) : Bool := opSpatial a ≤ opSpatial b && opTemporal a ≤ opTemporal b

/-- Whether operating point `a` is contained in `b`: fewer temporal layers, or fewer spatial layers where layers build on one another (R113). -/
def opContained (nested : Bool) (a b : Nat) : Bool := opWithin a b && (nested || opSpatial a = opSpatial b)

/-- Whether a packet of some layers belongs to an operating point: without nesting, its own spatial layer alone. -/
def opTakes (nested : Bool) (p spatial temporal : Nat) : Bool :=
  (if nested then decide (spatial ≤ opSpatial p) else decide (spatial = opSpatial p)) && decide (temporal ≤ opTemporal p)

/-- Whether operating point `a` stands above `b`: by spatial layer, then by temporal layer. -/
def opAbove (a b : Nat) : Bool := opSpatial b < opSpatial a || (opSpatial a = opSpatial b && opTemporal b < opTemporal a)

/-- Whether a packet begins a switch point of a leg for its target (R113); `started` says that the leg sends already. A leg that has sent nothing
starts at a keyframe, or where its target has the indication SWITCH (log 118). -/
def switchPoint (x : Leg) (p : MediaPacket) : Bool :=
  p.frameStart &&
    (if !x.started then p.keyframe || p.switchTo.contains x.layerTarget
     else if x.spec.codec = 10 then
       if opContained p.nested x.layerTarget x.layerCurrent then p.unitStart else p.switchTo.contains x.layerTarget
     else if x.spec.codec = 8 then opWithin x.layerTarget x.layerCurrent || p.temporal = 0
     else true)

/-- The offset between a source's sequence number and the one sent, for a source number (R110). -/
def offsetAt (offs : List (Nat × Nat)) (seq : Nat) : Nat := ((offs.find? (fun o => decide (0 < signedDiff 16 seq o.1))).map (·.2)).getD 0

/-- The offsets of a leg as its source reaches a number: the newest is carried on before 2^15 numbers hide it. -/
def carryOffset (offs : List (Nat × Nat)) (seq : Nat) : List (Nat × Nat) :=
  match offs with
  | [] => []
  | o :: l => if 16384 ≤ signedDiff 16 seq o.1 then (((seq + 65535) % 65536, o.2) :: o :: l).take 512 else o :: l

/-- The bytes of a participant in the current tick. -/
def countTickBytes (s : State) (p n : Nat) : State := updPart s p (fun a => { a with tickBytes := a.tickBytes + n })

/-- The rollover count of a packet that a leg sends, beside that of its SEQ_NEXT (R306). -/
def sendRoc (roc next seq : Nat) : Nat :=
  if 0 ≤ signedDiff 16 seq next then (if seq < next then roc + 1 else roc) else if next ≤ seq then roc - 1 else roc

/-- The rollover count of a leg's SEQ_NEXT, and its wraps counted. -/
def rocOf (s : State) (l : Nat) : Nat := ((s.cipher.srtp.get l).getD .zero).roc
def setRoc (s : State) (l n : Nat) : State :=
  { s with cipher := { s.cipher with srtp := s.cipher.srtp.put l { (s.cipher.srtp.get l).getD .zero with roc := n % 2 ^ 32 } } }

/-- A packet of a RECEIVE leg reaches one FORWARDED leg. `fresh` says that it is the newest of its source. -/
def forwardTo (s : State) (l : Nat) (x : Leg) (pt : Nat) (p : MediaPacket) (fresh : Bool) : State :=
  let video : Bool := x.spec.media = 1
  -- the first switch point starts a video leg; a later one makes the target current
  let switches := video && !x.paused && (!x.started || x.layerTarget ≠ x.layerCurrent) && switchPoint x p
  let changed := switches && x.layerTarget ≠ x.layerCurrent
  let x := if switches then { x with started := true, layerCurrent := x.layerTarget, raiseSince := none, raiseAsked := false, maskDue := x.spec.codec = 10 } else x
  let s := if changed then bump s Reg.LEGS.LAYER_SWITCHES else s
  let x := if changed then { x with layerSwitches := x.layerSwitches + 1 } else x
  let x := if !video then { x with started := true } else x
  let x := if x.started && x.offsets.isEmpty then
      { x with offsets := [((p.seq + 65535) % 65536, (p.seq + 65536 - x.seqNext % 65536) % 65536)] }
    else if fresh then { x with offsets := carryOffset x.offsets p.seq } else x
  let sends := x.started && !x.paused && (!video || opTakes p.nested x.layerCurrent p.spatial p.temporal)
  if sends then
    let seq := (p.seq + 65536 - offsetAt x.offsets p.seq) % 65536
    let next := x.seqNext
    let payload := if x.maskDue then Config.activeTargets p.payload x.layerCurrent else p.payload
    let x := { x with seqNext := if fresh then (seq + 1) % 65536 else x.seqNext, maskDue := false,
                      sentMap := if x.spec.rtx then ({ seq := seq, source := p.seq, resent := 0 : SentMap } :: x.sentMap).take 512 else x.sentMap }
    let s := { s with legs := s.legs.put l x }
    let roc := sendRoc (rocOf s l) next seq
    let s := if fresh then setRoc s l (if seq = 65535 then roc + 1 else roc) else s
    let q : LegPacket := { seq := seq, roc := roc, timestamp := p.timestamp, ssrc := x.spec.ssrc, pt := pt, marker := p.marker, payload := payload,
                           stamp := nowNs s, rtcp := false, head := p.head }
    queueLeg (countTickBytes s x.spec.participant q.rtpLength) l q false
  else
    -- a withheld packet leaves no gap
    let x := if x.started && fresh then { x with offsets := ((p.seq, (offsetAt x.offsets p.seq + 1) % 65536) :: x.offsets).take 512 } else x
    { s with legs := s.legs.put l x }

/-- A packet of a RECEIVE leg is forwarded to every ACTIVE FORWARDED leg that names it, in ascending index. -/
def forwardAll (s : State) (src : Nat) (p : MediaPacket) (fresh : Bool) : State :=
  let pt := ((s.legs.get src).map (fun x => x.spec.pt)).getD 0
  (legsOfSource s src).foldl (fun s e =>
    match s.legs.get e.1 with
    | some x => if x.state = .active then forwardTo s e.1 x pt p fresh else s
    | none => s) s

/-- The missing numbers between two sequence numbers. -/
def missing (last seq : Nat) : List Nat :=
  (List.range ((signedDiff 16 seq last).toNat - 1)).map (fun k => (last + 1 + k) % 65536)

/-- A trusted packet of a RECEIVE leg updates its entry, is cached and forwarded (R110, R117, R118). -/
def acceptMedia (s : State) (l : Nat) (p : MediaPacket) (bytes stamp : Nat) : State :=
  match s.legs.get l with
  | none => s
  | some x =>
    if x.state ≠ .active then s
    else
      let fresh := match x.seqLastIn with
        | none => true
        | some last => decide (0 < signedDiff 16 p.seq last)
      let holes := match x.seqLastIn with
        | some last => if fresh && x.spec.nackUp then (missing last p.seq).map (fun q => { seq := q, seen := nowNs s, nacked := false : Gap }) else []
        | none => []
      let x := { x with packets := (x.packets + 1) % 2 ^ 64, bytes := (x.bytes + bytes) % 2 ^ 64,
                        seqLastIn := if fresh then some p.seq else x.seqLastIn, nested := p.nested,
                        gaps := (x.gaps.filter (fun g => g.seq ≠ p.seq && decide (nowNs s < g.seen + 250000000))) ++ holes,
                        layerRates := (nowNs s, p.spatial, p.temporal, 12 + p.payload.length)
                          :: x.layerRates.filter (fun r => decide (nowNs s < r.1 + 1000000000)) }
      let s := { s with legs := s.legs.put l x }
      let s := arriveAudio (assembleMedia (cachePacket s l p.seq p) l p) l p stamp
      let s := if p.keyframe && p.frameStart then clearKeyframe s l else s
      forwardAll s l p fresh

/-- A packet of a producer is sent on one of its PRODUCED legs, with the leg's own numbers; `head` is the first byte of its RTP header. -/
def producePacket (s : State) (l : Nat) (timestamp : Nat) (marker : Bool) (head : Nat) (payload : List Byte) : State :=
  match s.legs.get l with
  | none => s
  | some x =>
    if x.state ≠ .active then s
    else
      let seq := x.seqNext
      let p : MediaPacket := { head := head, seq := seq, timestamp := timestamp, marker := marker, payload := payload, frameStart := false,
                               keyframe := false, spatial := 0, temporal := 0, switchTo := [], unitStart := false, nested := true }
      -- a number used again names a packet that has not been retransmitted
      let s := updLeg s l (fun x => { x with seqNext := (seq + 1) % 65536, sentMap := x.sentMap.filter (fun m => m.seq ≠ seq) })
      let s := cachePacket s l seq p
      let roc := rocOf s l
      let s := if seq = 65535 then setRoc s l (roc + 1) else s
      let q : LegPacket := { seq := seq, roc := roc, timestamp := timestamp, ssrc := x.spec.ssrc, pt := x.spec.pt, marker := marker, payload := payload,
                             stamp := nowNs s, rtcp := false, head := head }
      queueLeg (countTickBytes s x.spec.participant q.rtpLength) l q false

/-! ### Layer targets (R112) -/

/-- The rate in bit/s that a source has sent for an operating point over the last second. -/
def opRate (s : State) (src : Leg) (p : Nat) : Nat :=
  8 * ((src.layerRates.filter (fun r => decide (nowNs s < r.1 + 1000000000) && opTakes src.nested p r.2.1 r.2.2.1)).map (·.2.2.2)).sum

/-- The operating points of a source: those of the layers it has sent over the last second, lowest first. -/
def opPoints (s : State) (src : Leg) : List Nat :=
  let live := src.layerRates.filter (fun r => decide (nowNs s < r.1 + 1000000000))
  let smax := (live.map (·.2.1)).foldl max 0
  let tmax := (live.map (·.2.2.1)).foldl max 0
  (List.range (min smax 15 + 1)).flatMap (fun a => (List.range (min tmax 15 + 1)).map (fun b => opPoint a b))

/-- Whether a point may be taken out of what a leg may use: a raise above the current one needs a tenth more. -/
def opFits (x : Leg) (rate avail p : Nat) : Bool :=
  if opAbove p x.layerCurrent then decide (11 * rate ≤ 10 * avail) else decide (rate ≤ avail)

/-- The FORWARDED video legs of a participant in the order of R112. -/
def videoLegs (s : State) (p : Nat) : List (Nat × Leg) :=
  sortBy (fun e => (7 : Int) - (bitsOf e.2.spec.cls 5 3 : Nat))
    ((legsOfPart s p).filter (fun e => e.2.spec.kind = 1 && e.2.spec.media = 1 && e.2.state = .active))

/-- Step 3 of R112: each leg's lowest point, in bit/s, or none where it is paused, and the remainder. -/
def lowestPoints (s : State) (rem : Nat) : List (Nat × Leg) → List (Nat × Leg × Option Nat) × Nat
  | [] => ([], rem)
  | (l, x) :: t =>
    let r := match s.legs.get x.spec.source with
      | some src => opRate s src 0
      | none => 0
    if r ≤ rem then
      let q := lowestPoints s (rem - r) t
      ((l, x, some r) :: q.1, q.2)
    else
      let q := lowestPoints s rem t
      ((l, x, none) :: q.1, q.2)

/-- Step 4 of R112: each leg that is not paused is raised as far as it fits. -/
def raisePoints (s : State) (rem : Nat) : List (Nat × Leg × Option Nat) → State
  | [] => s
  | (l, _, none) :: t => raisePoints (updLeg s l (fun y => { y with paused := true, raiseSince := none, raiseAsked := false })) rem t
  | (l, x, some r) :: t =>
    let avail := min (rem + r) x.spec.rate
    match s.legs.get x.spec.source with
    | none => raisePoints s rem t
    | some src =>
      let fit := (opPoints s src).filter (fun p => opWithin p x.spec.layerCap && opFits x (opRate s src p) avail p)
      let best := fit.foldl (fun a b => if opAbove b a then b else a) 0
      let raised := opAbove best x.layerCurrent
      let s := updLeg s l (fun y => { y with paused := false, layerTarget := best,
                                             raiseSince := if raised then some (y.raiseSince.getD (nowNs s)) else none,
                                             raiseAsked := raised && y.raiseAsked })
      raisePoints s (rem + r - opRate s src best) t

/-- The estimate of a participant in bit/s: MAX_RATE for a TUNNEL participant (R116). -/
def estimateOf (a : Participant) : Nat := if a.spec.transport = 2 then a.spec.maxRate * 1000 else a.estimate * 1000

/-- The targets of every FORWARDED video leg are set at a tick boundary; LEGS_PAUSED counts the paused ones. -/
def setTargets (s : State) : State :=
  let s := s.participants.foldl (fun s e =>
    let audio := ((legsOfPart s e.1).filter (fun x => x.2.spec.media = 0 && x.2.spec.kind ≠ 0)).map (fun x => x.2.spec.rate)
    let legs := videoLegs s e.1
    if legs.isEmpty then s
    else
      let r := lowestPoints s (estimateOf e.2 - audio.sum) legs
      raisePoints s r.2 r.1) s
  wr s Reg.LEGS.LEGS_PAUSED ((s.legs.filter (fun e => e.2.paused && e.2.state = .active)).length)

/-- LAYER_RAISE_WAIT: a raise that has waited 500 ms asks for a keyframe, once. -/
def execLayerRaiseWait (l : Nat) (s : State) : Host.Outcome State Fault Refusal :=
  match s.legs.get l with
  | none => ok s
  | some x =>
    match x.raiseSince with
    | none => ok s
    | some t =>
      if x.state ≠ .active || !inService s || x.raiseAsked then ok s
      else
        match reach s (t + 500000000) with
        | none => ok s
        | some s => ok (requestKeyframe (updLeg s l (fun y => { y with raiseAsked := true })) x.spec.source false)

/-! ### NACKs -/

/-- NACK_UP_TIMER: 5 ms after a gap was seen its missing packets are NACKed upstream, once. -/
def execNackUpTimer (l : Nat) (s : State) : Host.Outcome State Fault Refusal :=
  match s.legs.get l with
  | none => ok s
  | some x =>
    match x.gaps.find? (fun g => !g.nacked) with
    | none => ok s
    | some g =>
      if x.state ≠ .active || !x.spec.nackUp || !inService s then ok s
      else
        match reach s (g.seen + 5000000) with
        | none => ok s
        | some s =>
          let due := x.gaps.filter (fun h => !h.nacked && decide (h.seen + 5000000 ≤ nowNs s))
          let s := updLeg s l (fun y => { y with gaps := y.gaps.map (fun h => if due.contains h then { h with nacked := true } else h) })
          ok (queueNack s l x.spec (due.map (·.seq)))

/-- What a NACK for one sequence number finds: the packet to send again, when it was cached, and how often it has been retransmitted. -/
def findCached (s : State) (x : Leg) (seq : Nat) : Option (CachedPacket × Nat) :=
  if x.spec.kind = 1 then
    match x.sentMap.find? (fun m => m.seq = seq) with
    | none => none
    | some m =>
      match s.legs.get x.spec.source with
      | none => none
      | some src => (src.cache.find? (fun c => c.seq = m.source)).map (fun c => (c, m.resent))
  else
    (x.cache.find? (fun c => c.seq = seq)).map (fun c => (c, ((x.sentMap.find? (fun m => m.seq = seq)).map (·.resent)).getD 0))

/-- One more retransmission of a sequence number on a leg. -/
def countResent (x : Leg) (seq : Nat) : Leg :=
  if x.sentMap.any (fun m => m.seq = seq) then
    { x with sentMap := x.sentMap.map (fun m => if m.seq = seq then { m with resent := m.resent + 1 } else m) }
  else { x with sentMap := ({ seq := seq, source := seq, resent := 1 : SentMap } :: x.sentMap).take 512 }

/-- A NACK for one sequence number of a send leg (R118, R119). -/
def answerNack (s : State) (l seq : Nat) : State :=
  match s.legs.get l with
  | none => s
  | some x =>
    if !x.spec.rtx then bump s Reg.LEGS.NACK_IGNORED
    else
      match findCached s x seq with
      | none => bump (updLeg s l (fun y => { y with rtxMiss := y.rtxMiss + 1 })) Reg.LEGS.RTX_MISS
      | some (c, resent) =>
        if c.time + 250000000 ≤ nowNs s then bump (updLeg s l (fun y => { y with rtxMiss := y.rtxMiss + 1 })) Reg.LEGS.RTX_MISS
        else if 2 ≤ resent then s
        else
          let q : LegPacket := { seq := x.rtxSent % 65536, roc := x.rtxSent / 65536, timestamp := c.packet.timestamp, ssrc := x.spec.rtxSsrc, pt := x.spec.rtxPt,
                                 marker := c.packet.marker, payload := toBE 2 seq ++ c.packet.payload, stamp := nowNs s, rtcp := false,
                                 head := c.packet.head }
          match s.participants.get x.spec.participant with
          | none => s
          | some a =>
            if estimateOf a < (a.tickBytes + q.rtpLength) * 8 * 8000 then bump s Reg.LEGS.RTX_SKIPPED
            else
              let s := updLeg s l (fun y => countResent { y with rtxSent := y.rtxSent + 1 } seq)
              queueLeg (countTickBytes (bump s Reg.LEGS.RTX_SENT) x.spec.participant q.rtpLength) l q true

/-- NACK_RECEIVED. -/
def execNackReceived (l : Nat) (seqs : List Nat) (s : State) : Host.Outcome State Fault Refusal :=
  match s.legs.get l with
  | some x =>
    match takeFeedback s x.spec.participant (.nack l seqs) with
    | none => ok s
    | some t => if inService s && x.state = .active && x.spec.kind ≠ 0 then ok (seqs.foldl (fun s q => answerNack s l (q % 65536)) t) else ok t
  | none => ok s

/-! ### Rate estimation (R114, R115) -/

/-- The items of a report that name packets sent to the participant, with the packets. -/
def matchItems (a : Participant) (items : List FeedbackItem) : List (SentPacket × Option Nat) :=
  items.filterMap (fun i => (a.sent.find? (fun p => p.ssrc = i.ssrc && p.seq = i.seq)).map (fun p => (p, i.arrival)))

/-- The 5 ms groups of a report: for each group with a received packet, the send time and the delay of the one that arrived last. -/
def groupsOf (m : List (SentPacket × Option Nat)) : List SendGroup :=
  let got := m.filterMap (fun x => x.2.map (fun t => (x.1, t)))
  let add (gs : List SendGroup) (x : SentPacket × Nat) : List SendGroup :=
    let n := x.1.time / 5000000
    let g : SendGroup := { number := n, sendTime := x.1.time, delay := (x.2 : Int) - (x.1.time : Int) }
    match gs.find? (fun h => h.number = n) with
    | none => gs ++ [g]
    | some h => if h.delay + (h.sendTime : Int) ≤ g.delay + (g.sendTime : Int) then gs.map (fun k => if k.number = n then g else k) else gs
  got.foldl add []

/-- The latest 20 groups, old and new, oldest first. -/
def mergeGroups (old new_ : List SendGroup) : List SendGroup :=
  let kept := old.filter (fun g => !new_.any (fun h => h.number = g.number))
  let all_ := sortBy (fun g => (g.number : Int)) (kept ++ new_)
  all_.drop (all_.length - 20)

/-- Numerator and denominator of the least-squares slope of delay against send time; a run under 50 ms has slope 0. -/
def slope (gs : List SendGroup) : Int × Int :=
  match gs.head?, gs.getLast? with
  | some a, some b =>
    if b.sendTime < a.sendTime + 50000000 then (0, 1)
    else
      let n : Int := gs.length
      let xs := gs.map (fun g => ((g.sendTime - a.sendTime : Nat) : Int))
      let ys := gs.map (·.delay)
      let sx := xs.sum
      let sy := ys.sum
      let sxy := ((xs.zip ys).map (fun p => p.1 * p.2)).sum
      let sxx := (xs.map (fun v => v * v)).sum
      (n * sxy - sx * sy, n * sxx - sx * sx)
  | _, _ => (0, 1)

/-- The square root of a number, rounded down, from bit `n - 1` on. -/
def rootOf (v : Nat) : Nat → Nat → Nat
  | 0, r => r
  | n + 1, r => if (r + 2 ^ n) * (r + 2 ^ n) ≤ v then rootOf v n (r + 2 ^ n) else rootOf v n r

/-- `p * base ^ f` for the binary fraction `f`, given by its bits from the highest on, in numbers with 64 fraction bits: `base` is the power for the
bit before. -/
def powFraction (p base : Nat) : List Nat → Nat
  | [] => p
  | b :: bs =>
    let r := rootOf (base * 2 ^ 64) 66 0
    powFraction (if b = 1 then p * r / 2 ^ 64 else p) r bs

/-- `(base / 1000) ^ dt` of R114, with 64 fraction bits, for `dt` in ns. -/
def growthOf (base dt : Nat) : Nat :=
  let q := dt / 1000000000
  let f := dt % 1000000000 * 2 ^ 40 / 1000000000
  powFraction (base ^ q * 2 ^ 64 / 1000 ^ q) (base * 2 ^ 64 / 1000) ((List.range 40).map (fun i => bitOf f (39 - i)))

/-- A rate grown by `(base / 1000) ^ dt`; R114 gives no rounding. -/
def growRate (rate base dt : Nat) : Nat :=
  let n := rate * growthOf base dt
  n / 2 ^ 64 + (if n % 2 ^ 64 ≠ 0 && Config.roundsUp n (2 ^ 64) then 1 else 0)

/-- The packets that a report shows as received are reported no more: each counts once (R114). -/
def dropReported (a : Participant) (m : List (SentPacket × Option Nat)) : List SentPacket :=
  a.sent.filter (fun p => !m.any (fun x => x.2.isSome && x.1 = p))

/-- The update of the estimate at a report. -/
def updateEstimate (s : State) (a : Participant) (m : List (SentPacket × Option Nat)) : Participant :=
  let t := nowNs s
  let groups := mergeGroups a.groups (groupsOf m)
  let g := slope groups
  let steep := decide (g.2 < 100 * g.1)
  let run := if steep then a.overuseRun + 1 else 0
  let dstate := if 2 ≤ run then 1 else if 100 * g.1 < -g.2 then 2 else 0
  let received := (m.filter (fun x => x.2.isSome)).map (fun x => (t, x.1.bytes)) ++ a.received.filter (fun r => decide (t < r.1 + 500000000))
  let rate := ((received.map (·.2)).sum) * 16
  let reported := (t, m.length, (m.filter (fun x => x.2.isNone)).length) :: a.reported.filter (fun r => decide (t < r.1 + 1000000000))
  let loss := roundOf ((reported.map (·.2.2)).sum * 65536) ((reported.map (·.2.1)).sum)
  let dt := if a.lastFeedback = 0 then 0 else t - a.lastFeedback
  let cut := dstate = 1 && (match a.lastCut with
    | none => true
    | some c => decide (c + 200000000 ≤ t))
  let estD := if cut then roundOf (rate * 85) 100
    else if dstate = 0 then min (growRate a.estD 1080 dt) (roundOf (rate * 3) 2 + 64000) else a.estD
  let estL := if 65536 < 10 * loss then roundOf (a.estL * (131072 - loss)) 131072
    else if 50 * loss < 65536 then growRate a.estL 1050 dt else a.estL
  let e := max (a.spec.minRate * 1000) (min (a.spec.maxRate * 1000) (min estD estL))
  { a with groups := groups, overuseRun := run, delayState := dstate, received := received, receivedRate := roundOf rate 1000, reported := reported,
           loss := loss, estD := estD, estL := estL, lastCut := if cut then some t else a.lastCut, lastFeedback := t,
           nextEstimate := some (roundOf e 1000), staleAt := t + 500000000, sent := dropReported a m }

/-- FEEDBACK_REPORT: an RFC 8888 report of an SRTP participant. -/
def execFeedbackReport (p : Nat) (items : List FeedbackItem) (s : State) : Host.Outcome State Fault Refusal :=
  match takeFeedback s p (.report items) with
  | none => ok s
  | some s =>
    match s.participants.get p with
    | some a =>
      if inService s && a.state = .active && a.spec.transport ≠ 2 then
        ok { s with participants := s.participants.put p (updateEstimate s a (matchItems a items)) }
      else ok s
    | none => ok s

/-- FEEDBACK_STALE: 500 ms without a valid report halve the estimate, down to MIN_RATE. -/
def execFeedbackStale (p : Nat) (s : State) : Host.Outcome State Fault Refusal :=
  match s.participants.get p with
  | none => ok s
  | some a =>
    if !inService s || a.state ≠ .active || a.spec.transport = 2 then ok s
    else
      match reach s a.staleAt with
      | none => ok s
      | some s =>
        let e := a.nextEstimate.getD a.estimate
        if e ≤ a.spec.minRate then ok { s with participants := s.participants.put p { a with staleAt := a.staleAt + 500000000 } }
        else
          let h := max a.spec.minRate (roundOf e 2)
          let a := { a with staleAt := a.staleAt + 500000000, nextEstimate := some h, estD := roundOf a.estD 2, estL := roundOf a.estL 2 }
          let s := bump { s with participants := s.participants.put p a } Reg.LEGS.FEEDBACK_STALE
          ok (if h = a.spec.minRate then raise s Reg.LEGS.LEGS_EVENTS_FEEDBACK_LOST else s)

/-- Estimates and byte counts at a tick boundary. -/
def legsTick (s : State) : State :=
  setTargets { s with participants := s.participants.all (fun _ (a : Participant) =>
    { a with tickBytes := 0, estimate := a.nextEstimate.getD a.estimate, nextEstimate := none }) }

end Sys2Proof.Machine
end

