-- ==== Sys2Proof/Machine/Mitten.lean ====
section
/-!
DEFINITION. The Mitten lanes and the Hatstand (chapter 09) without their instruction words: register banks, dispatch and choice of
threads, waits and events, cancelling, faults, engine reset, generations, and what a tick boundary does to threads.
-/

namespace Sys2Proof.Machine

/-! ### Banks and lanes -/

/-- A register bank of zeros (R261). -/
def Bank.zero : Bank :=
  { d := List.replicate 32 0, a := List.replicate 8 0, p := List.replicate 8 0, s := List.replicate 8 0, b := List.replicate 8 0,
    l := List.replicate 8 0, z := false, n := false, c := false, v := false, aov := false, dq := false, resumedHere := false, rot := 0,
    lc0 := 0, ls0 := 0, le0 := 0, lc1 := 0, ls1 := 0, le1 := 0, rot0 := false, rot1 := false, link := 0, wake := 0, farError := false,
    pc := 0, transfers := [], fenced := false, waitNext := none }

/-- An idle lane whose banks and memory are zero. -/
def Lane.zero : Lane :=
  { normal := .zero, slot0 := .zero, slot1 := .zero, mem := [], thread := none, priv0 := none, priv1 := none, active := none,
    lastNormal := none, run := 0, runPriv := 0, busy := 0, lastBusy := 0, history := [] }

/-- The bank of a lane. -/
def Lane.bank (l : Lane) : BankId → Bank
  | .normal => l.normal
  | .slot0 => l.slot0
  | .slot1 => l.slot1

/-- The lane with a bank replaced. -/
def Lane.withBank (l : Lane) (k : BankId) (b : Bank) : Lane :=
  match k with
  | .normal => { l with normal := b }
  | .slot0 => { l with slot0 := b }
  | .slot1 => { l with slot1 := b }

/-- The thread that runs in a bank. -/
def Lane.threadIn (l : Lane) : BankId → Option Nat
  | .normal => l.thread
  | .slot0 => l.priv0
  | .slot1 => l.priv1

/-- The lane with the thread of a bank replaced. -/
def Lane.withThread (l : Lane) (k : BankId) (t : Option Nat) : Lane :=
  match k with
  | .normal => { l with thread := t }
  | .slot0 => { l with priv0 := t }
  | .slot1 => { l with priv1 := t }

/-- Lane by global lane number. -/
def laneOf (s : State) (l : Nat) : Lane := (s.mitten.lanes.get l).getD .zero
def withLane (s : State) (l : Nat) (x : Lane) : State := { s with mitten := { s.mitten with lanes := s.mitten.lanes.put l x } }
def threadOf (s : State) (t : Nat) : Option Thread := s.mitten.threads.get t
def withThreadEntry (s : State) (t : Nat) (x : Thread) : State := { s with mitten := { s.mitten with threads := s.mitten.threads.put t x } }
def updThread (s : State) (t : Nat) (f : Thread → Thread) : State :=
  { s with mitten := { s.mitten with threads := s.mitten.threads.update t f } }

/-- Busy cycles of a lane, and the cycles of the running thread since its dispatch (R260, R265). -/
def Lane.spend (l : Lane) (n : Nat) : Lane := { l with busy := l.busy + n }
def Lane.ran (l : Lane) (k : BankId) (n : Nat) : Lane :=
  match k with
  | .normal => { l with run := l.run + n, busy := l.busy + n }
  | _ => { l with runPriv := l.runPriv + n, busy := l.busy + n }

/-- The bank of a privileged slot. -/
def slotBank (slot : Nat) : BankId := if slot = 0 then .slot0 else .slot1

/-! ### Ready lists -/

/-- The ready list of a cluster and priority. -/
def readyList (s : State) (cluster prio : Nat) : List Nat := (s.mitten.ready.get (64 * cluster + prio)).getD []
def setReady (s : State) (cluster prio : Nat) (l : List Nat) : State :=
  { s with mitten := { s.mitten with ready := if l.isEmpty then s.mitten.ready.del (64 * cluster + prio) else s.mitten.ready.put (64 * cluster + prio) l } }

/-- A thread leaves its ready list. -/
def leaveList (s : State) (t : Nat) (x : Thread) : State := setReady s x.cluster x.priority ((readyList s x.cluster x.priority).erase t)

/-- A thread becomes READY with a reason (R252 to R258). A normal thread joins the tail of its list; a privileged one waits for its lane. -/
def makeReady (s : State) (t reason ev : Nat) : State :=
  match threadOf s t with
  | none => s
  | some x =>
    let s := withThreadEntry s t { x with state := .ready, reason := reason, eventNo := ev, wake := 0, readyAt := s.time.clock,
                                          affinity := !x.privileged && x.lastLane.isSome }
    if x.privileged then s else setReady s x.cluster x.priority (readyList s x.cluster x.priority ++ [t])

/-- A thread becomes FREE: its entry is no longer listed, and its charges are released (R61). -/
def freeThread (s : State) (t : Nat) : State :=
  match threadOf s t with
  | none => s
  | some x =>
    let s := leaveList s t x
    releaseCharges { s with mitten := { s.mitten with threads := s.mitten.threads.del t } } 8 t

/-! ### Code and generations (R262 to R264) -/

/-- The thread code of a generation. -/
def codeOf (g : Generation) : MittenCode := (g.programs.findSome? Record.mittenCode?).getD { code := [], entries := [], statics := [] }

/-- The digest of a generation's Programs, by which thread code is compared (R233). -/
def codeDigest (g : Generation) : Nat := g.digests.getD 0 0

/-- The entry of an index in a generation's entry table. -/
def entryOf (g : Generation) (e : Nat) : Option CodeEntry := (codeOf g).entries[e]?

/-- A thread takes the generation current at its dispatch (R264). It is freed and counted if the new code lacks its entry. -/
def adopt (s : State) (t : Nat) : State :=
  match threadOf s t with
  | none => s
  | some x =>
    let g := s.trust.current
    if x.generation = g.number then s
    else if x.digest = codeDigest g then withThreadEntry s t { x with generation := g.number }
    else if (entryOf g x.entry).isNone then
      raise (bump (freeThread s t) Reg.MITTEN.ORPHANED) Reg.MITTEN.MITTEN_EVENTS_ORPHANED
    else withThreadEntry s t { x with generation := g.number, digest := codeDigest g, reason := 5 }

/-- PC at a dispatch: the entry's START for the reasons 0, 4, 5 and 6, else the saved address (R253). -/
def startPc (s : State) (x : Thread) : Nat :=
  if x.reason ∈ [1, 2, 3] then x.pc else ((entryOf s.trust.current x.entry).map (·.start)).getD 0

/-- The wake reason as d1 receives it (R253). -/
def wakeWord (x : Thread) : Nat := x.reason + if x.reason = 3 then 256 * (x.eventNo % 256) else 0

/-- The bin of a wait in cycles (R265). -/
def waitBin (cycles : Nat) : Nat :=
  ((List.range 15).find? (fun k => decide (cycles < 64 * 2 ^ k))).getD 15

/-- A wait from READY to first word is counted, by cluster and priority band. -/
def countWait (s : State) (x : Thread) (extra : Nat) : State :=
  let cycles := (s.time.clock - x.readyAt) / s.time.increment + extra
  bump s (Reg.MITTEN.WAIT_HIST.at (64 * x.cluster + 16 * (x.priority / 16) + waitBin cycles))

/-! ### Dispatch and choice (R253 to R256) -/

/-- A normal thread is dispatched on a lane: 8 cycles. -/
def dispatchNormal (s : State) (l t : Nat) (x : Thread) : State :=
  let s := leaveList s t x
  let lane := laneOf s l
  let b := lane.normal
  let d := updateAt (updateAt (updateAt b.d 0 (fun _ => BitVec.ofNat 32 t)) 1 (fun _ => BitVec.ofNat 32 (wakeWord x))) 2 (fun _ => BitVec.ofNat 32 x.arg)
  let b := { b with d := d, lc0 := 0, lc1 := 0, rot := 0, farError := false, pc := startPc s x, wake := wakeWord x, fenced := false, waitNext := none,
                    resumedHere := decide (lane.lastNormal = some t) }
  let s := withLane s l { lane with normal := b, thread := some t, active := some .normal, lastNormal := some t, run := 0, busy := lane.busy + 8 }
  let s := withThreadEntry s t { x with state := .running, lastLane := some (l % 8), affinity := false, pc := startPc s x }
  let s := bump s Reg.MITTEN.DISPATCHES
  let s := if x.lastLane = some (l % 8) then bump s Reg.MITTEN.AFFINITY_HITS else s
  countWait s x 8

/-- A privileged thread is dispatched in the bank of its slot: 2 cycles. -/
def dispatchPriv (s : State) (l t : Nat) (x : Thread) : State :=
  let lane := laneOf s l
  let k := slotBank x.slot
  let b := { lane.bank k with pc := startPc s x, wake := wakeWord x, fenced := false, waitNext := none }
  let lane := { (lane.withBank k b).withThread k (some t) with active := some k, runPriv := 0, busy := lane.busy + 2 }
  let s := withLane s l lane
  let s := withThreadEntry s t { x with state := .running, lastLane := some (l % 8), affinity := false, pc := startPc s x }
  let s := bump s Reg.MITTEN.DISPATCHES
  let s := if x.lastLane = some (l % 8) then bump s Reg.MITTEN.AFFINITY_HITS else s
  countWait s x 2

/-- The READY privileged thread of a lane and a slot. -/
def readyPriv (s : State) (l slot : Nat) : Option Nat :=
  (s.mitten.threads.find? (fun e => e.2.privileged && e.2.state = .ready && e.2.cluster = l / 8 && e.2.lane = l % 8 && e.2.slot = slot)).map (·.1)

/-- The READY privileged thread of a lane that runs first: slot 0 before slot 1. -/
def readyPrivOf (s : State) (l : Nat) : Option Nat := (readyPriv s l 0).orElse (fun _ => readyPriv s l 1)

/-- The normal thread that an idle lane takes: the first of the highest priority whose affinity allows it. -/
def chooseNormal (s : State) (l : Nat) : Option Nat :=
  (List.range 64).reverse.findSome? (fun p => (readyList s (l / 8) p).find? (fun t =>
    match threadOf s t with
    | some x => !x.affinity || x.lastLane = some (l % 8)
    | none => false))

/-- A lane that has no bank running takes a thread if one is eligible. A thread that its new generation's code has orphaned is passed over, so the
choice is repeated, at most `fuel` times. -/
def scheduleLane (s : State) (l : Nat) : Nat → State
  | 0 => s
  | fuel + 1 =>
    let lane := laneOf s l
    if lane.active.isSome then s
    else
      match readyPrivOf s l with
      | some t =>
        let s := adopt s t
        match threadOf s t with
        | some x => dispatchPriv s l t x
        | none => scheduleLane s l fuel
      | none =>
        match lane.thread with
        | some _ => withLane s l { lane with active := some .normal, busy := lane.busy + 2 }
        | none =>
          match chooseNormal s l with
          | none => s
          | some t =>
            let s := adopt s t
            match threadOf s t with
            | some x => dispatchNormal s l t x
            | none => scheduleLane s l fuel

/-- The idle lanes of a cluster choose in ascending number (R257). A cluster out of service runs nothing. -/
def schedule (s : State) (cluster : Nat) : State :=
  if inServiceEngine s 3 cluster && !s.faults.resetting.contains (engineId 3 cluster) then
    (List.range 8).foldl (fun s k => scheduleLane s (8 * cluster + k) 8193) s
  else s

/-- The idle lanes of every cluster choose. -/
def scheduleAll (s : State) : State := (List.range 8).foldl schedule s

/-- The bank that a lane runs stops: its thread leaves it. -/
def leaveBank (s : State) (l : Nat) (k : BankId) : State :=
  let lane := laneOf s l
  let b := { lane.bank k with fenced := false, waitNext := none, transfers := [] }
  let lane := (lane.withBank k b).withThread k none
  withLane s l { lane with active := if lane.active = some k then none else lane.active }

/-- The lane and bank in which a thread runs or stands preempted. -/
def placeOf (s : State) (t : Nat) : Option (Nat × BankId) :=
  s.mitten.lanes.findSome? (fun e =>
    if e.2.thread = some t then some (e.1, BankId.normal)
    else if e.2.priv0 = some t then some (e.1, BankId.slot0)
    else if e.2.priv1 = some t then some (e.1, BankId.slot1)
    else none)

/-! ### Events and WAIT (R252, R257, R258) -/

/-- The threads of a cluster that wait on an event, in ascending index. -/
def waitersOn (s : State) (cluster ev : Nat) : List Nat :=
  (s.mitten.threads.filter (fun e => e.2.state = .waiting && e.2.cluster = cluster && e.2.wake = ev && !e.2.ending)).map (·.1)

/-- A job begins as its thread wakes: those of MIX_PERIOD and TICK have deadlines (R259). -/
def beginJob (s : State) (t ev : Nat) : State :=
  updThread s t (fun x => { x with lateRun := 0, deadline := if ev = 0 then some ((s.time.tickCount + 7) % 2 ^ 32) else if ev = 1 then some s.time.tickCount else none })

/-- An event is raised in a cluster: every thread that waits on it wakes. -/
def wakeEvent (s : State) (cluster ev : Nat) : State :=
  schedule ((waitersOn s cluster ev).foldl (fun s t => makeReady (beginJob s t ev) t 3 ev) s) cluster

/-- SIGNAL: waiters wake, or the event is latched. -/
def signalEvent (s : State) (cluster ev : Nat) : State :=
  if (waitersOn s cluster ev).isEmpty then
    if s.mitten.latched.contains (64 * cluster + ev) then s
    else { s with mitten := { s.mitten with latched := s.mitten.latched ++ [64 * cluster + ev] } }
  else wakeEvent s cluster ev

/-- What WAIT does to its thread, once the transfers of the bank have completed. `next` is the address of the next word. -/
def waitThread (s : State) (t mode value next : Nat) : State :=
  match threadOf s t with
  | none => s
  | some x =>
    if x.stopping then freeThread s t
    else
      let s := withThreadEntry s t { x with pc := next }
      let done (s : State) : State := updThread s t (fun x => { x with deadline := none, lateRun := 0 })
      if mode = 0 || (mode = 1 && value = 0) then makeReady s t 1 0
      else if mode = 1 then updThread (done s) t (fun x => { x with state := .delayed, wake := value, reason := 2 })
      else if mode = 2 then
        if 16 ≤ value && s.mitten.latched.contains (64 * x.cluster + value) then
          makeReady (done { s with mitten := { s.mitten with latched := s.mitten.latched.erase (64 * x.cluster + value) } }) t 3 value
        else updThread (done s) t (fun x => { x with state := .waiting, wake := value })
      else updThread (done s) t (fun x => { x with state := .waiting, ending := true, wake := 0 })

/-! ### The loops (R237, R245) -/

/-- The end of a level-1 iteration at the word at `pc`, or the next word. -/
def loopEnd1 (b : Bank) (pc : Nat) : Bank :=
  if b.lc1 ≠ 0 && pc = b.le1 then
    let b := { b with rot := if b.rot1 then (b.rot + 1) % 16 else b.rot }
    if 1 < b.lc1 then { b with lc1 := b.lc1 - 1, pc := b.ls1 } else { b with lc1 := 0, pc := pc + 8 }
  else { b with pc := pc + 8 }

/-- The bank goes on after the word at its PC has completed: to the next word, or back to the start of a loop. -/
def Bank.advance (b : Bank) : Bank :=
  if b.lc0 ≠ 0 && b.pc = b.le0 then
    let b := { b with rot := if b.rot0 then (b.rot + 1) % 16 else b.rot }
    if 1 < b.lc0 then { b with lc0 := b.lc0 - 1, pc := b.ls0 } else loopEnd1 { b with lc0 := 0 } b.pc
  else loopEnd1 b b.pc

/-- A lane executes WAIT: its thread gives it up with the PC of the next word, and the lane chooses. -/
def doWait (s : State) (l : Nat) (k : BankId) (mode value : Nat) : State :=
  let lane := laneOf s l
  match lane.threadIn k with
  | none => s
  | some t =>
    let b := (lane.bank k).advance
    schedule (waitThread (leaveBank (withLane s l (lane.withBank k b)) l k) t mode value b.pc) (l / 8)

/-! ### Cancelling and faults (R259, R260) -/

/-- A running or READY thread's job is cancelled: it is re-entered with reason CANCELLED. -/
def cancelJob (s : State) (t : Nat) : State :=
  match threadOf s t with
  | none => s
  | some x =>
    let again (s : State) : State :=
      let s := updThread s t (fun x => { x with deadline := none, lateRun := 0 })
      bump s Reg.MITTEN.CANCELS
    match placeOf s t with
    | some (l, k) => makeReady (again (leaveBank s l k)) t 4 0
    | none => if x.state = .ready then updThread (again s) t (fun x => { x with reason := 4 }) else s

/-- A thread stops with a fault (R260); whether its entry restarts it is answered too, for that counts as a failure of its cluster. -/
def faultThread (s : State) (l : Nat) (k : BankId) (code : Nat) : State × Bool :=
  match (laneOf s l).threadIn k with
  | none => (s, false)
  | some t =>
    let pc := ((laneOf s l).bank k).pc
    let counter := if code = 1 then Reg.MITTEN.FAULT_ILLEGAL else if code = 2 then Reg.MITTEN.FAULT_ACCESS
      else if code = 3 then Reg.MITTEN.FAULT_ADDR else Reg.MITTEN.RUNAWAYS
    let s := raise (bump (leaveBank s l k) counter) Reg.MITTEN.MITTEN_EVENTS_THREAD_FAULT
    let s := updThread s t (fun x => { x with state := .faulted, fault := code, pc := pc, deadline := none, lateRun := 0 })
    let entry := (threadOf s t).bind (fun x => entryOf (generationOf s x.generation) x.entry)
    if (entry.map (·.restart)).getD false then
      (schedule (makeReady (bump s Reg.MITTEN.RESTARTS) t 6 0) (l / 8), true)
    else (schedule s (l / 8), false)

/-- An engine reset of an audio cluster stops its lanes and zeros them (R261): the threads that ran, or stood preempted, are cancelled. -/
def resetLanes (s : State) (cluster : Nat) : State :=
  (List.range 8).foldl (fun s k =>
    let l := 8 * cluster + k
    let lane := laneOf s l
    let s := [lane.thread, lane.priv0, lane.priv1].foldl (fun s t => match t with
      | some t => cancelJob s t
      | none => s) s
    let lane := laneOf s l
    withLane s l { Lane.zero with busy := lane.busy, lastBusy := lane.lastBusy, history := lane.history }) s

/-! ### Creating threads (R263) -/

/-- The lowest free thread index. -/
def freeIndex (s : State) : Option Nat := lowest 8192 (fun t => (s.mitten.threads.get t).isNone)

/-- A thread is created READY with reason START in the current generation. -/
def createThread (s : State) (t entry cluster lane arg : Nat) (e : CodeEntry) (byHost : Bool) : State :=
  let x : Thread :=
    { state := .ready, priority := e.priority, cluster := cluster, lastLane := none, entry := entry, privileged := e.privileged, slot := e.slot % 2,
      lane := lane, hostStarted := byHost, fault := 0, pc := e.start, arg := arg, generation := s.trust.current.number,
      digest := codeDigest s.trust.current, wake := 0, reason := 0, eventNo := 0, deadline := none, lateRun := 0, readyAt := s.time.clock,
      affinity := false, stopping := false, ending := false }
  makeReady (withThreadEntry s t x) t 0 0

/-- A static thread is made in each cluster it names, and for a privileged entry on each lane it names. -/
def createStatic (s : State) (x : StaticThread) : State :=
  match entryOf s.trust.current x.entry with
  | none => s
  | some e =>
    ((List.range 8).filter (fun c => bitOf x.clusters c = 1 && inServiceEngine s 3 c)).foldl (fun s c =>
      let lanes := if e.privileged then (List.range 8).filter (fun k => bitOf x.lanes k = 1) else [0]
      lanes.foldl (fun s k => match freeIndex s with
        | some t => createThread s t x.entry c k x.arg e false
        | none => s) s) s

/-- The static threads at an entry to Serving. -/
def createStatics (s : State) : State := scheduleAll ((codeOf s.trust.current).statics.foldl createStatic s)

/-- The effect of stop-thread: the thread is freed at its next WAIT, or at once if it is not RUNNING. -/
def stopThread (s : State) (t : Nat) : State :=
  match threadOf s t with
  | none => s
  | some x => if x.state = .running then withThreadEntry s t { x with stopping := true } else freeThread s t

/-! ### Tick boundaries and generations (R258, R259, R264, R265) -/

/-- New thread code takes effect: a FAULTED thread whose code changes is re-entered, or freed if its entry is gone. -/
def recodeFaulted (s : State) : State :=
  (s.mitten.threads.filter (fun e => e.2.state = .faulted && e.2.digest ≠ codeDigest s.trust.current)).foldl (fun s e =>
    let s := adopt s e.1
    if (threadOf s e.1).isSome then makeReady s e.1 5 0 else s) s

/-- The threads that still run under an old generation are stopped and dispatched again under the current one (R86). -/
def moveThreads (s : State) : State :=
  scheduleAll ((s.mitten.threads.filter (fun e => e.2.state = .running && e.2.generation ≠ s.trust.current.number)).foldl (fun s e =>
    match placeOf s e.1 with
    | none => s
    | some (l, k) =>
      let pc := ((laneOf s l).bank k).pc
      let s := makeReady (updThread (leaveBank s l k) e.1 (fun x => { x with pc := pc })) e.1 1 0
      adopt s e.1) s)

/-- Lateness of jobs with deadlines at the end of tick `ended` (R62, R259): each late job is counted for its cluster. -/
def mittenLateness (s : State) (ended : Nat) : State :=
  let late (x : Thread) : Bool :=
    (x.state = .running || x.state = .ready) && (match x.deadline with
      | some d => decide (0 ≤ signedDiff 32 ended d)
      | none => false)
  let counts := (List.range 8).map (fun c => (c, (s.mitten.threads.filter (fun e => e.2.cluster = c && late e.2)).length))
  let s := { s with mitten := { s.mitten with threads := s.mitten.threads.all (fun _ x =>
    { x with lateRun := if late x then x.lateRun + 1 else 0 }) } }
  counts.foldl (fun s e => lateJobs s (Reg.MITTEN.OVERRUN.at e.1) e.2) s

/-- DELAYED threads lose one tick boundary of their count; those that reach zero become READY (R258). -/
def delayTick (s : State) : State :=
  let s := { s with mitten := { s.mitten with threads := s.mitten.threads.all (fun _ (x : Thread) =>
    if x.state = ThreadState.delayed then { x with wake := x.wake - 1 } else x) } }
  (s.mitten.threads.filter (fun e => e.2.state = ThreadState.delayed && e.2.wake = 0)).foldl (fun s e => makeReady s e.1 2 0) s

/-- Threads that have ended become FREE. -/
def freeEnded (s : State) : State := (s.mitten.threads.filter (fun e => e.2.ending)).foldl (fun s e => freeThread s e.1) s

/-- What the Hatstand publishes of a lane at a tick boundary. -/
def publishLane (s : State) (l : Nat) : State :=
  match s.mitten.lanes.get l with
  | none => s
  | some x =>
    let history := (x.busy :: x.history).take 1024
    let mean := min (roundOf (16 * history.sum) (tickCycles s)) 16383
    let s := withLane s l { x with busy := 0, lastBusy := x.busy, history := history }
    wrAll s [(Reg.MITTEN.LANE_LOAD_LAST.at l, min x.busy (2 ^ 18 - 1)), (Reg.MITTEN.LANE_LOAD_MEAN.at l, mean)]

/-- The depths of the ready lists at a tick boundary. -/
def publishDepths (s : State) : State :=
  (List.range 256).foldl (fun s k =>
    wrAll s [(Reg.MITTEN.QUEUE_DEPTH_EVEN.at k, min (readyList s (k / 32) (2 * (k % 32))).length 65535),
             (Reg.MITTEN.QUEUE_DEPTH_ODD.at k, min (readyList s (k / 32) (2 * (k % 32) + 1)).length 65535)]) s

/-- The Hatstand at a tick boundary, at step 6 of R55: ended threads are freed, delays count, events 0 and 1 are raised. `mix` says that the
boundary begins a mix period. -/
def hatstandTick (s : State) (mix : Bool) : State :=
  let s := delayTick (freeEnded s)
  let s := if mix then (List.range 8).foldl (fun s c => wakeEvent s c 0) s else s
  let s := (List.range 8).foldl (fun s c => wakeEvent s c 1) s
  let s := scheduleAll s
  publishDepths ((List.range 64).foldl publishLane s)

/-- The threads that use a generation: those that run or stand preempted under it. -/
def threadUsers (s : State) (g : Nat) : Bool := s.mitten.threads.any (fun e => e.2.state = .running && e.2.generation = g)

/-- THREADS_ACTIVE as it reads. -/
def threadCounts (s : State) : Nat × Nat :=
  (s.mitten.threads.length, (s.mitten.threads.filter (fun e => e.2.state = .faulted)).length)

end Sys2Proof.Machine
end

