-- ==== Sys2Proof/Machine/Audio.lean ====
section
/-!
DEFINITION. Audio decode, mixing and encode (chapter 08): jitter buffers, concealment, meters and talkers, summing, and the encode
instances.
-/

namespace Sys2Proof.Machine

def updSource (s : State) (l : Nat) (f : AudioSource → AudioSource) : State := { s with audio := s.audio.update l f }
def updMix (s : State) (r : Nat) (f : Mix → Mix) : State := { s with mixes := s.mixes.update r f }

/-- The local time less every step of the clock, in which steps move no playout (R214). -/
def audioNow (s : State) : Int := (nowNs s : Int) - s.time.stepTotal

/-- A new audio source (R209). -/
def AudioSource.fresh (s : State) (cluster : Nat) : AudioSource :=
  { state := .admitted, cluster := cluster, mode := 0, gain := 0, jbTarget := rd s Reg.AUDIO.AUDIO_CONFIG_JB_MIN,
    jbCurrent := rd s Reg.AUDIO.AUDIO_CONFIG_JB_MIN, frames := 0, concealedMs := 0, noiseMs := 0, late := 0, arrived := [], packets := [], codec := 0, pcm := [], windows := [],
    blocks := [], up16 := [], up48 := [], fade := 0, lateRun := 0, transit := [],
    lastTimestamp := none, lastMedia := 0, lastSeq := 0, durationUs := 0, lastRecompute := nowNs s, lastAdjust := 0, concealRun := 0, noise := false,
    squares := [], window := [], floors := [], rms := -480, peak := 0, heldPeak := 0, heldFor := 0, nextRoute := none,
    drainPeriods := 0 }

/-! ### Jitter buffers (R214, R215) -/

/-- The least transit time over the last 2 s. -/
def leastTransit (s : State) (x : AudioSource) : Option Int :=
  leastBy id ((x.transit.filter (fun t => decide (nowNs s < t.1 + 2000000000))).map (·.2))

/-- When a sample of a media time plays, in `audioNow`. -/
def playTime (x : AudioSource) (m media : Int) : Int := media + m + (x.jbCurrent : Int) * 1000000

/-- The start of the mix period that contains a playout time, in local time. -/
def periodStart (s : State) (play : Int) : Int := (play + s.time.stepTotal) / 1000000 * 1000000

/-- A packet whose media time is far from the expected value flushes the buffer and restarts the estimate. -/
def resync (s : State) (x : AudioSource) : State × AudioSource :=
  (raise (bump s Reg.AUDIO.RESYNCS) Reg.AUDIO.AUDIO_EVENTS_RESYNC,
    { x with packets := [], transit := [], jbCurrent := rd s Reg.AUDIO.AUDIO_CONFIG_JB_MIN })

/-- Whether a packet starts a talkspurt (R216): its marker, or a gap of 200 ms in media time without a gap in sequence numbers. -/
def talkspurt (x : AudioSource) (codec : Nat) (p : ArrivedPacket) (t : Int) : Bool :=
  p.marker || (decide (p.seq = (x.lastSeq + 1) % 65536)
    && decide (200000000 ≤ mediaNs codec t - mediaNs codec x.lastMedia - (x.durationUs : Int) * 1000))

/-- A packet in a jitter buffer. One that its codec does not allow stands for a packet as long as the last, and will not decode. -/
def JitterPacket.of (codec lastUs : Nat) (p : ArrivedPacket) (media : Int) : JitterPacket :=
  match packetFrames codec p.payload with
  | some f => { seq := p.seq, media := media, frameUs := f.1, frames := f.2, bad := false, lbrr := codec = 0 && Config.hasLbrr p.payload }
  | none => { seq := p.seq, media := media, frameUs := if lastUs = 0 then 20000 else lastUs, frames := [p.payload], bad := true, lbrr := false }

/-- The duration of what a packet still holds, in microseconds. -/
def JitterPacket.us (p : JitterPacket) : Nat := p.frameUs * p.frames.length

/-- A packet reaches the jitter buffer of a source. -/
def placePacket (s : State) (l codec : Nat) (x : AudioSource) (p : ArrivedPacket) : State :=
  let t : Int := match x.lastTimestamp with
    | none => p.timestamp
    | some ts => x.lastMedia + signedDiff 32 p.timestamp ts
  let expected : Int := mediaNs codec x.lastMedia + signedDiff 16 p.seq x.lastSeq * (x.durationUs : Int) * 1000
  let far := x.lastTimestamp.isSome && decide (10000000000 < (mediaNs codec t - expected).natAbs)
  let (s, x) := if far then resync s x else (s, x)
  if x.packets.any (fun q => q.seq = p.seq) then bump { s with audio := s.audio.put l x } Reg.AUDIO.DUPLICATES
  else
    let media := mediaNs codec t
    let q := JitterPacket.of codec x.durationUs p media
    let a : Int := (p.arrival : Int) - s.time.stepTotal
    let spurt := x.lastTimestamp.isSome && talkspurt x codec p t
    let x := { x with transit := (nowNs s, a - media) :: x.transit.filter (fun t => decide (nowNs s < t.1 + 2000000000)),
                      jbCurrent := if spurt then x.jbTarget else x.jbCurrent, lastTimestamp := some p.timestamp, lastMedia := t, lastSeq := p.seq,
                      durationUs := q.us }
    let m := (leastTransit s x).getD (a - media)
    let play := playTime x m media
    if periodStart s play ≤ (nowNs s : Int) then
      bump { s with audio := s.audio.put l { x with late := x.late + 1 } } Reg.AUDIO.LATE_PACKETS
    else if a + 400000000 < play then bump { s with audio := s.audio.put l x } Reg.AUDIO.EARLY_PACKETS
    else { s with audio := s.audio.put l { x with packets := sortBy (·.media) (q :: x.packets) } }

/-- AUDIO_PACKET: the oldest trusted packet of an audio RECEIVE leg that is on its way reaches its jitter buffer. -/
def execAudioPacket (l sequence : Nat) (s : State) : Host.Outcome State Fault Refusal :=
  match s.legs.get l, s.audio.get l with
  | some x, some a =>
    (match a.arrived with
     | p :: rest => if inService s && x.state = .active && a.state = .active && p.seq = sequence then ok (placePacket s l x.spec.codec { a with arrived := rest } p) else ok s
     | [] => ok s)
  | _, _ => ok s

/-- The 95th percentile of a list: between its elements on either side of that rank. -/
def percentile95 (v : List Int) : Int :=
  let l := sortBy id v
  let at_ (i : Nat) : Int := l.getD (min i (l.length - 1)) 0
  max (at_ ((l.length - 1) * 95 / 100)) (min (at_ (ceilDiv (l.length * 95) 100)) (Config.percentile95 v))

/-- The target J in ms (R214): the 95th percentile of the delay variation plus the packet duration, rounded up. -/
def jbTargetOf (s : State) (x : AudioSource) : Nat :=
  match leastTransit s x with
  | none => x.jbTarget
  | some m =>
    let v := (x.transit.filter (fun t => decide (nowNs s < t.1 + 2000000000))).map (fun t => t.2 - m)
    let j := ceilDiv ((percentile95 v).toNat + x.durationUs * 1000) 1000000
    max (rd s Reg.AUDIO.AUDIO_CONFIG_JB_MIN) (min (rd s Reg.AUDIO.AUDIO_CONFIG_JB_MAX) j)

/-- JB_RECOMPUTE: every 100 ms. -/
def execJbRecompute (l : Nat) (s : State) : Host.Outcome State Fault Refusal :=
  match s.audio.get l with
  | none => ok s
  | some x =>
    if !inService s || x.state ≠ .active then ok s
    else
      match reach s (x.lastRecompute + 100000000) with
      | none => ok s
      | some s => ok { s with audio := s.audio.put l { x with jbTarget := jbTargetOf s x, lastRecompute := x.lastRecompute + 100000000 } }

/-! ### Levels (R221) -/

/-- A level in 0.25 dB below full scale, not under -120 dBFS. -/
def level (sum n : Nat) : Int := if sum = 0 then -480 else max (-480) (Config.dbfs sum n)

/-- The sum of squares of a period. -/
def squareSum (xs : List Int) : Nat := (xs.map (fun v => v.natAbs * v.natAbs)).sum

/-- The talk level of a source: over its last 20 periods (R222). -/
def talkLevel (x : AudioSource) : Int := level (x.squares.take 20).sum (20 * 48)

/-- The noise floor of a source: the least RMS over 100 ms of the last 10 s, not above -60 dBFS (R217). -/
def noiseFloor (x : AudioSource) : Int := (x.floors.map (fun v => level v 4800)).foldl min (-240)

/-! ### Decoding (R207, R215 to R219) -/

/-- The codec of a source's leg. -/
def codecOf (s : State) (l : Nat) : Nat := ((s.legs.get l).map (·.spec.codec)).getD 0

/-- ACTIVE_THRESHOLD of the mix of a source's room; -50 dBFS where it has none (R216). -/
def quietUnder (s : State) (l : Nat) : Int := (((s.legs.get l).bind (fun x => s.mixes.get x.spec.room)).map (·.spec.threshold)).getD (-50)

/-- The decoded sample that plays at a media time. -/
def pcmAt (x : AudioSource) (codec : Nat) (t : Int) : Option Int :=
  (x.pcm.find? (fun c => c.1 ≤ t && decide ((t - c.1).toNat * perPeriod codec / 1000000 < c.2.length))).bind
    (fun c => c.2[(t - c.1).toNat * perPeriod codec / 1000000]?)

/-- The decoded samples of the mix period that begins at a media time. -/
def pcmPeriod (x : AudioSource) (codec : Nat) (t : Int) : List (Option Int) :=
  (List.range (perPeriod codec)).map (fun i => pcmAt x codec (t + ((1000000 * i / perPeriod codec : Nat) : Int)))

/-- What a codec engine still has to do for a mix period. -/
inductive DecodeJob where
  | frame (p : JitterPacket)
  | recover (p : JitterPacket) (start : Int)

/-- The next decode job of a mix period: the next frame of the first packet that reaches into it; or, where an Opus frame is missing there, the LBRR data of the next packet. -/
def decodeJob (x : AudioSource) (codec : Nat) (w : PlayWindow) : Option DecodeJob :=
  match w.media with
  | none => none
  | some t =>
    match x.packets.find? (fun p => decide (t < p.media + (p.us : Int) * 1000)) with
    | none => none
    | some p =>
      if p.media < t + 1000000 then some (.frame p)
      else
        let start := p.media - (p.frameUs : Int) * 1000
        if p.lbrr && decide (start < t + 1000000) && (pcmPeriod x codec t).any Option.isNone then some (.recover p start) else none

/-- A frame leaves the jitter buffer; a packet without frames does too. -/
def takeFrameOf (x : AudioSource) (p : JitterPacket) : AudioSource :=
  { x with packets := x.packets.filterMap (fun q =>
      if q.seq ≠ p.seq then some q
      else if q.frames.length ≤ 1 then none
      else some { q with media := q.media + (q.frameUs : Int) * 1000, frames := q.frames.drop 1 }) }

/-- A packet is lost. -/
def losePacket (x : AudioSource) (p : JitterPacket) : AudioSource := { x with packets := x.packets.filter (fun q => q.seq ≠ p.seq) }

/-- A source with the samples of a decoded frame. -/
def addPcm (x : AudioSource) (codec us state : Nat) (start : Int) (samples : List Int) : AudioSource :=
  { x with codec := state, frames := x.frames + 1, pcm := (start, samples24 (samplesIn codec us) samples) :: x.pcm }

/-- A decode job is done. -/
def runDecode (s : State) (l codec : Nat) (x : AudioSource) (j : DecodeJob) (poisoned : Bool) : State :=
  let put (s : State) (x : AudioSource) : State := { s with audio := s.audio.put l x }
  match j with
  | .frame p =>
    if poisoned then put s (takeFrameOf x p)
    else
      match if p.bad then none else Config.decodeFrame codec x.codec (p.frames.headD []) with
      | some r => bump (put s (addPcm (takeFrameOf x p) codec p.frameUs r.1 p.media r.2)) Reg.AUDIO.FRAMES_DECODED
      | none => raise (bump (put s (losePacket x p)) Reg.AUDIO.DECODE_ERRORS) Reg.AUDIO.AUDIO_EVENTS_DECODE_ERROR
  | .recover p start =>
    let x := { x with packets := x.packets.map (fun q => if q.seq = p.seq then { q with lbrr := false } else q) }
    match if poisoned then none else Config.decodeLbrr x.codec (p.frames.headD []) with
    | some r => bump (bump (put s (addPcm x codec p.frameUs r.1 start r.2)) Reg.AUDIO.FRAMES_DECODED) Reg.AUDIO.FEC_RECOVERED
    | none => put s x

/-! ### Concealment and comfort noise (R217) -/

/-- What fills a mix period without data: the codec's concealment, comfort noise, or the 10 ms fade from one to the other. -/
def fillPeriod (x : AudioSource) (codec period : Nat) : AudioSource × List Int :=
  let n := perPeriod codec
  let noise := samples24 n (Config.comfortNoise codec period (noiseFloor x))
  if x.noise && 10 ≤ x.fade then (x, noise)
  else
    let c := Config.conceal codec x.codec
    let x := { x with codec := c.1 }
    if x.noise then ({ x with fade := x.fade + 1 }, fadeInto (10 * n) (n * x.fade) (samples24 n c.2) noise) else (x, samples24 n c.2)

/-- A filled period is counted. -/
def countFill (s : State) (x : AudioSource) : State × AudioSource :=
  if x.noise then (bump s Reg.AUDIO.MS_COMFORT_NOISE, { x with noiseMs := x.noiseMs + 1, concealRun := x.concealRun + 1 })
  else (bump s Reg.AUDIO.MS_CONCEALED, { x with concealedMs := x.concealedMs + 1, concealRun := x.concealRun + 1 })

/-- JB_CURRENT moves by 1 ms towards J in a quiet period (R216): a shrink drops the period's samples, a grow repeats them. The media time that plays then. -/
def adjust (s : State) (l codec : Nat) (x : AudioSource) (t : Int) : State × AudioSource × Int :=
  let xs := (pcmPeriod x codec t).filterMap id
  let quiet := decide (level (squareSum xs) (perPeriod codec) < 4 * quietUnder s l)
  let ready := (pcmPeriod x codec (t + 1000000)).all Option.isSome
  if x.jbCurrent = x.jbTarget || !quiet || decide (nowNs s < x.lastAdjust + 100000000) || (decide (x.jbTarget < x.jbCurrent) && !ready) then (s, x, t)
  else if x.jbCurrent < x.jbTarget then (bump s Reg.AUDIO.JB_ADJUSTMENTS, { x with jbCurrent := x.jbCurrent + 1, lastAdjust := nowNs s }, t)
  else (bump s Reg.AUDIO.JB_ADJUSTMENTS, { x with jbCurrent := x.jbCurrent - 1, lastAdjust := nowNs s }, t + 1000000)

/-- The samples of a mix period of a source, as decoded or filled. -/
def sourcePeriod (s : State) (l codec : Nat) (x : AudioSource) (w : PlayWindow) : State × AudioSource × List Int :=
  let have_ := match w.media with
    | some t => (pcmPeriod x codec t).any Option.isSome
    | none => false
  if !have_ then
    let f := fillPeriod x codec w.period
    let c := countFill s f.1
    (c.1, c.2, f.2)
  else
    let a := adjust s l codec x (w.media.getD 0)
    let data := pcmPeriod a.2.1 codec a.2.2
    let whole := data.all Option.isSome
    let filled := x.concealRun ≠ 0
    if whole && !filled then (a.1, a.2.1, data.filterMap id)
    else
      let f := fillPeriod a.2.1 codec w.period
      let xs := data.mapIdx (fun i v => v.getD (f.2.getD i 0))
      (a.1, { f.1 with concealRun := 0, noise := false, fade := 0 }, if filled then fadeInto (perPeriod codec) 0 f.2 xs else xs)

/-- The samples and packets that have been played. -/
def dropPlayed (x : AudioSource) (codec : Nat) (t : Int) : AudioSource :=
  { x with pcm := x.pcm.filter (fun c => decide (t - 2000000 < c.1 + ((c.2.length * 1000000 / perPeriod codec : Nat) : Int))),
           packets := x.packets.filter (fun p => decide (t < p.media + (p.us : Int) * 1000)) }

/-- The first period of a source that is still to be decoded passes through its bridges, once no codec engine has a job for it. -/
def finishPeriod (s : State) (l : Nat) (x : AudioSource) (w : PlayWindow) (rest : List PlayWindow) : State :=
  let codec := codecOf s l
  let r := sourcePeriod s l codec x w
  let b := bridged codec r.2.1.up16 r.2.1.up48 r.2.2
  let y := { r.2.1 with windows := rest, blocks := ((w.period, b.1) :: r.2.1.blocks).take 4, up16 := b.2.1, up48 := b.2.2 }
  { r.1 with audio := r.1.audio.put l (dropPlayed y codec (w.media.getD 0)) }

/-- The periods of a source that wait for no codec engine, at most `n` of them. -/
def finishPeriods (l : Nat) : Nat → State → State
  | 0, s => s
  | n + 1, s =>
    match s.audio.get l with
    | none => s
    | some x =>
      match x.windows with
      | [] => s
      | w :: rest => if (decodeJob x (codecOf s l) w).isSome then s else finishPeriods l n (finishPeriod s l x w rest)

/-- A mix period begins for a source: what plays in it is settled. -/
def beginPeriod (s : State) (l : Nat) (x : AudioSource) : State :=
  let t : Option Int := (leastTransit s x).map (fun m => (s.time.mixIndex : Int) * 1000000 - s.time.stepTotal - m - (x.jbCurrent : Int) * 1000000)
  let x := { x with windows := x.windows ++ [{ period := s.time.mixCount, media := t }] }
  finishPeriods l 4 { s with audio := s.audio.put l x }

/-- COMFORT_NOISE: after CONCEAL_LIMIT concealed periods the source goes over to comfort noise. -/
def execComfortNoise (l : Nat) (s : State) : Host.Outcome State Fault Refusal :=
  match s.audio.get l with
  | none => ok s
  | some x =>
    if inService s && x.state = .active && !x.noise && decide (rd s Reg.AUDIO.AUDIO_CONFIG_CONCEAL_LIMIT ≤ x.concealRun) then
      ok (raise { s with audio := s.audio.put l { x with noise := true, fade := 0 } } Reg.AUDIO.AUDIO_EVENTS_COMFORT_NOISE)
    else ok s

/-! ### Meters (R221) -/

/-- The block of a source for a mix period. -/
def soundBlock (x : AudioSource) (k : Nat) : List Int := ((x.blocks.find? (fun b => b.1 + 1 = k)).map (·.2)).getD (List.replicate 48 0)

/-- A source is metered in mix period `k`, after its bridges and before its gain. -/
def meterSource (s : State) (l k : Nat) (x : AudioSource) : State :=
  let xs := soundBlock x k
  let sum := squareSum xs
  let peak := (xs.map Int.natAbs).foldl max 0
  let hold := decide (x.heldPeak < peak) || decide (1000 ≤ x.heldFor)
  let window := (sum :: x.window).take 100
  let x := { x with squares := (sum :: x.squares).take 20, rms := level sum 48, peak := peak, heldPeak := if hold then peak else x.heldPeak,
                    heldFor := if hold then 1 else x.heldFor + 1, window := if window.length = 100 then [] else window,
                    floors := if window.length = 100 then (window.sum :: x.floors).take 100 else x.floors }
  { s with audio := s.audio.put l x }

/-! ### Talkers (R222) -/

/-- The sources of a room, by leg index. -/
def sourcesOf (s : State) (room : Nat) : List (Nat × AudioSource) :=
  s.audio.filter (fun e => ((s.legs.get e.1).map (fun x => decide (x.spec.room = room))).getD false && e.2.state = .active)

/-- Whether a source is eligible as a talker. -/
def eligible (m : Mix) (x : AudioSource) : Bool := x.mode = 0 && !x.noise && decide (4 * m.spec.threshold ≤ talkLevel x)

/-- The lowest free slot takes a talker. -/
def fillSlot (slots : List (Option Talker)) (leg : Nat) : List (Option Talker) :=
  match slots.findIdx? Option.isNone with
  | some k => updateAt slots k (fun _ => some { leg := leg, held := 0, ineligible := 0 })
  | none => slots

/-- The legs that hold slots. -/
def slotLegs (slots : List (Option Talker)) : List Nat := slots.filterMap (fun t => t.map (·.leg))

/-- The sources whose levels the clusters send to the home cluster: of each cluster its 16 loudest eligible sources, and the talkers. -/
def reported (m : Mix) (src : List (Nat × AudioSource)) : List (Nat × AudioSource) :=
  let loud := (List.range 8).flatMap (fun c => ((sortBy (fun e => -talkLevel e.2) (src.filter (fun e => e.2.cluster = c && eligible m e.2))).take 16).map (·.1))
  src.filter (fun e => loud.contains e.1 || (slotLegs m.slots).contains e.1 || e.2.mode = 1)

/-- The loudest eligible source without a slot, the lower leg index first. -/
def loudest (m : Mix) (src : List (Nat × AudioSource)) (slots : List (Option Talker)) : Option (Nat × AudioSource) :=
  leastBy (fun e => -talkLevel e.2) (src.filter (fun e => eligible m e.2 && !(slotLegs slots).contains e.1))

/-- The quietest AUTO talker of the slots. -/
def quietest (src : List (Nat × AudioSource)) (slots : List (Option Talker)) : Option (Nat × Talker × Int) :=
  leastBy (fun e => e.2.2) ((slots.mapIdx (fun k t => (k, t))).filterMap (fun e => e.2.bind (fun t =>
    (src.find? (fun x => x.1 = t.leg)).bind (fun x => if x.2.mode = 0 then some (e.1, t, talkLevel x.2) else none))))

/-- FORCED sources take slots, in ascending leg index: a free slot, or else that of the quietest AUTO talker. -/
def forceSlots (src : List (Nat × AudioSource)) (slots : List (Option Talker)) : List (Option Talker) :=
  (src.filter (fun e => e.2.mode = 1)).foldl (fun slots e =>
    if (slotLegs slots).contains e.1 then slots
    else if slots.any Option.isNone then fillSlot slots e.1
    else
      match quietest src slots with
      | some q => updateAt slots q.1 (fun _ => some { leg := e.1, held := 0, ineligible := 0 })
      | none => slots) slots

/-- Free slots are filled by the loudest eligible sources. -/
def fillSlots (m : Mix) (src : List (Nat × AudioSource)) : Nat → List (Option Talker) → List (Option Talker)
  | 0, slots => slots
  | n + 1, slots =>
    if slots.any Option.isNone then
      match loudest m src slots with
      | some e => fillSlots m src n (fillSlot slots e.1)
      | none => slots
    else slots

/-- At most two swaps of the quietest AUTO talker for a louder source. -/
def swapSlots (m : Mix) (src : List (Nat × AudioSource)) : Nat → List (Option Talker) → List (Option Talker)
  | 0, slots => slots
  | n + 1, slots =>
    match loudest m src slots, quietest src slots with
    | some e, some q =>
      if q.2.2 + 4 * (m.spec.margin : Int) ≤ talkLevel e.2 && 10 * m.spec.hold ≤ q.2.1.held then
        swapSlots m src n (updateAt slots q.1 (fun _ => some { leg := e.1, held := 0, ineligible := 0 }))
      else slots
    | _, _ => slots

/-- A talker one period on: a source that is gone or MUTED holds no slot. -/
def ageTalker (m : Mix) (src : List (Nat × AudioSource)) (t : Talker) : Option Talker :=
  match src.find? (fun e => e.1 = t.leg) with
  | none => none
  | some e =>
    if e.2.mode = 2 then none
    else some { t with held := t.held + 1, ineligible := if e.2.mode = 1 || eligible m e.2 then 0 else t.ineligible + 1 }

/-- The talkers of the next period, in the order of R222: FORCED sources first, then the AUTO talkers that have not been eligible for HOLD leave, free slots are
filled, and at most two talkers are swapped. -/
def selectTalkers (m : Mix) (all_ : List (Nat × AudioSource)) : List (Option Talker) :=
  let src := reported m all_
  let forced := forceSlots src (m.slots.map (fun t => t.bind (ageTalker m src)))
  let held := forced.map (fun t => t.filter (fun t => decide (t.ineligible < 10 * m.spec.hold)))
  swapSlots m src 2 (fillSlots m src 16 held)

/-! ### Summing (R224, R227) -/

/-- The effective gains of a mix: the gain of each source that holds a slot. -/
def effectiveGains (src : List (Nat × AudioSource)) (slots : List (Option Talker)) : List (Nat × Nat) :=
  (slotLegs slots).filterMap (fun l => (src.find? (fun e => e.1 = l)).map (fun e => (l, Config.gainLinear e.2.gain)))

/-- The gain of a leg in a list of effective gains. -/
def gainIn (g : List (Nat × Nat)) (l : Nat) : Nat := ((g.find? (fun e => e.1 = l)).map (·.2)).getD 0

/-- The sums of mix period `k`: the room sum, and for each slot the room sum less its talker's own products. -/
def mixSums (s : State) (m : Mix) (gains : List (Nat × Nat)) (k : Nat) : List (List Int) :=
  let legs := (m.gains.map (·.1) ++ gains.map (·.1)).dedup
  let prod := legs.map (fun l => (l, products (gainIn m.gains l) (gainIn gains l) (((s.audio.get l).map (fun x => soundBlock x k)).getD [])))
  let all_ := sumSamples (prod.map (·.2))
  all_ :: m.slots.map (fun t => match t with
    | none => all_
    | some t => match prod.find? (fun p => p.1 = t.leg) with
      | none => all_
      | some p => (all_.zip p.2).map (fun q => sat40 (q.1 - q.2)))

/-! ### Encode instances (R211, R220, R223) -/

/-- The format that a PRODUCED leg uses in a mix. -/
def formatOf (m : Mix) (x : LegSpec) : Option Nat :=
  m.formats.findIdx? (fun f => f = some { codec := x.codec, rate := x.rate })

/-- The slot of the participant of a leg: that of its source, or none, which takes instance 0. -/
def slotOfLeg (s : State) (m : Mix) (x : LegSpec) : Nat :=
  ((m.slots.findIdx? (fun t => match t with
    | some t => participantOf s t.leg = x.participant
    | none => false)).map (· + 1)).getD 0

/-- The ACTIVE PRODUCED legs of a mix. -/
def mixLegs (s : State) (room : Nat) : List (Nat × Leg) := (legsOfProducer s (mixProducer room)).filter (fun e => e.2.state = .active)

/-- At a frame boundary the legs move to their instances, and the instances whose set of legs has changed are marked. -/
def assignLegs (s : State) (room : Nat) (m : Mix) : Mix :=
  let now_ := (mixLegs s room).map (fun e => (e.1, slotOfLeg s m e.2.spec))
  let set_ (l : List (Nat × Nat)) (f k : Nat) : List Nat := (l.filter (fun e => e.2 = k && ((s.legs.get e.1).bind (fun x => formatOf m x.spec)) = some f)).map (·.1)
  let all_ := (List.range 4).flatMap (fun f => (List.range (m.spec.maxTalkers + 1)).map (fun k => (f, k)))
  { m with legSlots := now_, changed := (m.changed ++ all_.filter (fun e => set_ now_ e.1 e.2 ≠ set_ m.legSlots e.1 e.2)).dedup }

/-- The instances whose frame is due: every instance of every format in use. -/
def allInstances (m : Mix) : List (Nat × Nat) :=
  ((List.range 4).filter (fun f => (m.formats.getD f none).isSome)).flatMap (fun f => (List.range (m.spec.maxTalkers + 1)).map (fun k => (f, k)))

/-- The instance of a mix, new if it has none. -/
def instanceOf (m : Mix) (k : Nat × Nat) : EncodeInstance := ((m.instances.find? (fun e => e.1 = k)).map (·.2)).getD .fresh

/-- One encode instance takes the mix of its slot. -/
def feedInstance (room : Nat) (acc : State × Mix) (k : Nat × Nat) : State × Mix :=
  let s := acc.1
  let m := acc.2
  let codec := ((m.formats.getD k.1 none).map (·.codec)).getD 0
  let lane := 8 * m.home + Config.limiterLane room k.1 k.2 % 8
  let r := (instanceOf m k).take codec ((s.dither.get lane).getD 0) (m.sums.getD k.2 [])
  ({ s with dither := s.dither.put lane r.2 }, { m with instances := (k, r.1) :: m.instances.filter (fun e => e.1 ≠ k) })

/-- The sums of mix period `k`, of index `i`, pass through the limiters into the frames that begin at multiples of FRAME_MS (R220, R225). A full frame is due to
be coded in the next period. -/
def fillFrames (s : State) (room : Nat) (m : Mix) (k i : Nat) : State :=
  let starts := m.spec.frameMs ≠ 0 && i % m.spec.frameMs = 0
  let m := if starts then { assignLegs s room m with frameFirst := some i, instances := m.instances.map (fun (e : (Nat × Nat) × EncodeInstance) => (e.1, { e.2 with frame := [] })) } else m
  let r := (allInstances m).foldl (feedInstance room) (s, m)
  let m := r.2
  let full : Bool := match m.frameFirst, m.instances with
    | some _, (f, x) :: _ => decide (m.spec.frameMs * perPeriod (((m.formats.getD f.1 none).map (·.codec)).getD 0) ≤ x.frame.length)
    | _, _ => false
  let m := if full then
      { m with due := allInstances m, dueFirst := m.frameFirst.getD 0, dueSlots := m.legSlots, dueChanged := m.changed, changed := [], frameFirst := none,
               dueSince := k + 1, dueGeneration := s.trust.current.number,
               instances := m.instances.map (fun (e : (Nat × Nat) × EncodeInstance) => (e.1, { e.2 with coding := e.2.frame, frame := [] })) }
    else m
  { r.1 with mixes := r.1.mixes.put room m }

/-- A mix in its next period, `k` of index `i`: it sums under the talkers chosen in the last one, then selects those of the next. -/
def runMix (s : State) (room : Nat) (m : Mix) (k i : Nat) : State :=
  let src := sourcesOf s room
  let gains := effectiveGains src m.slots
  let sums := mixSums s m gains k
  let slots := selectTalkers m src
  let moved := slotLegs slots ≠ slotLegs m.slots || slots.map Option.isSome ≠ m.slots.map Option.isSome
  fillFrames s room { m with gains := gains, sums := sums, slots := slots, lost := false, periods := m.periods.drop 1,
                             recordDirty := m.recordDirty || moved, recordTick := if moved then s.time.tickCount else m.recordTick } k i

/-- Whether every source of a room has been decoded and bridged for mix period `k`, or will not be. -/
def sourcesReady (s : State) (room k : Nat) : Bool := (sourcesOf s room).all (fun e => e.2.windows.all (fun w => decide (k ≤ w.period)))

/-- The sources of a room are metered in mix period `k`. -/
def meterRoom (s : State) (room k : Nat) : State :=
  (sourcesOf s room).foldl (fun s e =>
    match s.audio.get e.1 with
    | some x => meterSource s e.1 k x
    | none => s) s

/-- MIX_PERIOD: the sources of a room are metered, and its mix is made, for the next mix period that has begun. -/
def execMixPeriod (room cluster : Nat) (s : State) : Host.Outcome State Fault Refusal :=
  match s.rooms.get room with
  | none => ok s
  | some _ =>
    if !inService s then ok s
    else
      match (s.mixes.get room).filter (fun m => m.state = .active) with
      | some m =>
        (match m.periods with
         | [] => ok s
         | p :: _ => if m.home = cluster && sourcesReady s room p.1 then ok (runMix (meterRoom s room p.1) room m p.1 p.2) else ok s)
      | none =>
        let key := 1000 + room
        if s.time.mixCount = 0 || s.time.once.get key = some s.time.mixCount || !sourcesReady s room s.time.mixCount then ok s
        else ok (meterRoom { s with time := { s.time with once := s.time.once.put key s.time.mixCount } } room s.time.mixCount)

/-- The RTP timestamp of the frame that is being coded (R220). -/
def frameStamp (m : Mix) (codec : Nat) : Nat := m.dueFirst * (if codec = 0 then 48 else 8) % 2 ^ 32

/-- One job that a codec engine has finished: a decode job of the first period that waits for it, or a frame of an encode instance. -/
def codecJob (s : State) (cluster : Nat) (f : CodecJob) : State :=
  match f with
  | .decoded leg poisoned =>
    match s.audio.get leg with
    | none => s
    | some x =>
      if x.cluster ≠ cluster then s
      else
        match x.windows.head?.bind (decodeJob x (codecOf s leg)) with
        | some j => finishPeriods leg 4 (runDecode s leg (codecOf s leg) x j poisoned)
        | none => s
  | .encoded room format slot =>
    match s.mixes.get room with
    | none => s
    | some m =>
      if m.home ≠ cluster || !m.due.contains (format, slot) then s
      else
        let k := (format, slot)
        let f := (m.formats.getD format none).getD { codec := 0, rate := 0 }
        let x := instanceOf m k
        let r := Config.encodeFrame f.codec f.rate (m.dueChanged.contains k) x.codec x.coding
        let s := updMix s room (fun m => { m with due := m.due.erase k, encoded := m.encoded + 1,
                                                  instances := (k, { x with codec := r.1, coding := [] }) :: m.instances.filter (fun e => e.1 ≠ k) })
        let s := bump s Reg.AUDIO.FRAMES_ENCODED
        (m.dueSlots.filter (fun e => e.2 = slot && ((s.legs.get e.1).bind (fun x => formatOf m x.spec)) = some format)).foldl
          (fun s e => producePacket s e.1 (frameStamp m f.codec) false 0x80 r.2) s

/-- CODEC_BATCH_DONE: a batch of a cluster's codec engines completes, and raises DECODE_DONE or ENCODE_DONE (R258). -/
def execCodecBatchDone (cluster : Nat) (jobs : List CodecJob) (s : State) : Host.Outcome State Fault Refusal :=
  if !(inService s && decide (cluster < 8) && inServiceEngine s 3 cluster) then ok s
  else
    let s := jobs.foldl (fun s f => codecJob s cluster f) s
    let dec := jobs.any (fun f => match f with
      | .decoded _ _ => true
      | .encoded _ _ _ => false)
    let enc := jobs.any (fun f => match f with
      | .decoded _ _ => false
      | .encoded _ _ _ => true)
    let s := if dec then wakeEvent s cluster 2 else s
    ok (if enc then wakeEvent s cluster 3 else s)

/-! ### The talker export (R229) -/

/-- The bits of the EXPORT record of the current generation; none when it is absent (R96). -/
def exportBits (s : State) : Nat := (s.trust.current.policy.findSome? Record.talkerExport?).getD 0

/-- The record of a room's talkers: the participants of slots 1 to 16, the tick of the change, zeros. -/
def talkerRecord (s : State) (m : Mix) : List Byte :=
  padTo 64 ((List.range 16).flatMap (fun k => toLE 2 (match m.slots.getD k none with
    | some t => participantOf s t.leg
    | none => 0xFFFF)) ++ toLE 4 m.recordTick)

/-- TALKER_EXPORT_WRITE: the record of a room is rewritten, at most once per 100 ms. -/
def execTalkerExportWrite (room : Nat) (s : State) : Host.Outcome State Fault Refusal :=
  match s.mixes.get room with
  | none => ok s
  | some m =>
    match m.recordAt with
    | none => ok s
    | some off =>
      if !inService s || !m.recordDirty || bitOf (exportBits s) 3 = 0 then ok s
      else
        match reach s (m.recordWritten + 100000000) with
        | none => ok s
        | some s =>
          let s := exchangeWrite s off (talkerRecord s m)
          let s := updMix s room (fun m => { m with recordDirty := false, recordWritten := nowNs s })
          ok (event s 9 (now s) (.talkers room m.recordTick) false)

/-! ### Boundaries, lateness, engine reset (R219, R226, R230, R62 to R64) -/

/-- A mix-period boundary: routes take effect, a drained source becomes FREE, and the periods of the sources and the mixes begin. -/
def audioPeriod (s : State) : State :=
  let s := { s with audio := s.audio.all (fun _ (x : AudioSource) =>
    let x := match x.nextRoute with
      | some (m, g) => { x with mode := m, gain := g, nextRoute := none }
      | none => x
    if x.state = Life.draining then { x with drainPeriods := x.drainPeriods + 1 } else x) }
  let s := { s with audio := s.audio.filter (fun e => !(e.2.state = Life.draining && decide (2 ≤ e.2.drainPeriods))),
                    mixes := s.mixes.all (fun _ (m : Mix) => if m.state = Life.active then { m with periods := m.periods ++ [(s.time.mixCount, s.time.mixIndex)] } else m) }
  (s.audio.filter (fun e => e.2.state ≠ Life.admitted)).foldl (fun s e => beginPeriod s e.1 e.2) s

/-- Whether a mix has a period behind the present one. -/
def mixLatePeriod (s : State) (m : Mix) : Bool := m.periods.any (fun p => decide (p.1 < s.time.mixCount))

/-- Whether the frames that a mix has to code are behind their period. -/
def mixLateFrame (s : State) (m : Mix) : Bool := !m.due.isEmpty && decide (m.dueSince < s.time.mixCount)

/-- Whether a mix has an unfinished job at the end of the present tick: its period, or a frame to code. -/
def mixLate (s : State) (m : Mix) : Bool := m.state = .active && (mixLatePeriod s m || mixLateFrame s m)

/-- The late jobs of a mix: its period, and each of its frames. -/
def mixLateJobs (s : State) (m : Mix) : Nat :=
  if mixLate s m then b2n (mixLatePeriod s m) + (if mixLateFrame s m then m.due.length else 0) else 0

/-- Whether a source has a coded frame to decode for a period behind the present one. -/
def sourceLate (s : State) (x : AudioSource) : Bool := x.windows.any (fun w => decide (w.period < s.time.mixCount))

/-- Lateness of the sources and the mixes at a boundary. -/
def audioLateness (s : State) : State :=
  let counts := (List.range 8).map (fun c =>
    (c, (s.mixes.filter (fun e => e.2.home = c)).foldl (fun n e => n + mixLateJobs s e.2) 0 + (s.audio.filter (fun e => e.2.cluster = c && sourceLate s e.2)).length))
  let s := { s with mixes := s.mixes.all (fun _ (m : Mix) => { m with lateRun := if mixLate s m then m.lateRun + 1 else 0 }),
                    audio := s.audio.all (fun _ (x : AudioSource) => { x with lateRun := if sourceLate s x then x.lateRun + 1 else 0 }) }
  counts.foldl (fun s e => lateJobs s (Reg.AUDIO.OVERRUN.at e.1) e.2) s

/-- A mix drops its late period and frames (R64, R227): the last period's mix fades to zero, and the next one fades in. -/
def dropMix (s : State) (room : Nat) (m : Mix) : State :=
  let s := raise s Reg.AUDIO.AUDIO_EVENTS_LATE_FRAME
  let m := { m with due := if mixLateFrame s m then [] else m.due, lateRun := 0 }
  match m.periods with
  | p :: rest =>
    if p.1 < s.time.mixCount then
      fillFrames s room { m with periods := rest, lost := true, gains := [], sums := m.sums.map (fun l => l.mapIdx (fun n v => v * (47 - (n : Int)) / 48)) } p.1 p.2
    else { s with mixes := s.mixes.put room m }
  | [] => { s with mixes := s.mixes.put room m }

/-- The coded frame that a codec engine has in hand for a source is lost, and its periods are concealed (R64, R217, R230). -/
def loseCoded (s : State) (l : Nat) : State :=
  match s.audio.get l with
  | none => s
  | some x =>
    match x.windows.head?.bind (decodeJob x (codecOf s l)) with
    | some (.frame p) => finishPeriods l 4 { s with audio := s.audio.put l { takeFrameOf x p with lateRun := 0 } }
    | some (.recover p _) =>
      let x := { x with lateRun := 0, packets := x.packets.map (fun q => if q.seq = p.seq then { q with lbrr := false } else q) }
      finishPeriods l 4 { s with audio := s.audio.put l x }
    | none => s

/-- A source drops its late frame. -/
def dropSource (s : State) (l : Nat) : State := loseCoded (raise s Reg.AUDIO.AUDIO_EVENTS_LATE_FRAME) l

/-- The frames that a mix has begun and not finished are cancelled, as R64 treats a dropped frame (R86). -/
def cancelFrames (s : State) (room : Nat) : State :=
  raise (updMix s room (fun m => { m with due := [] })) Reg.AUDIO.AUDIO_EVENTS_LATE_FRAME

/-- An engine reset of an audio cluster (R230, R261): the frames that its engines have in hand are lost, and with them the state of the codecs and of the
lanes, the bridges' and the limiters'; jitter buffers, routes and slots stay. -/
def resetAudio (s : State) (cluster : Nat) : State :=
  let mine := s.audio.filter (fun e => e.2.cluster = cluster)
  let s := mine.foldl (fun s e => loseCoded s e.1) s
  let s := { s with audio := s.audio.all (fun _ (x : AudioSource) => if x.cluster = cluster then { x with codec := 0, up16 := [], up48 := [] } else x),
                    mixes := s.mixes.all (fun _ (m : Mix) => if m.home = cluster then
                      { m with changed := allInstances m, due := [],
                               instances := m.instances.map (fun e => (e.1, { EncodeInstance.fresh with frame := e.2.frame })) } else m) }
  resetLanes (engineRegs s 3 cluster) cluster

/-- A failure of an audio cluster (R234, R260, R230): it is counted, and resets the cluster unless it resets already. -/
def audioFailure (s : State) (cluster : Nat) : State :=
  let r := countFailure s 3 cluster
  if r.2 then resetAudio r.1 cluster else r.1

/-- A format ends once no leg uses it (R211). -/
def endFormats (s : State) : State :=
  { s with mixes := s.mixes.all (fun r (m : Mix) =>
    let used (f : MixFormat) : Bool := (legsOfProducer s (mixProducer r)).any (fun e => e.2.spec.codec = f.codec && e.2.spec.rate = f.rate)
    { m with formats := m.formats.map (fun f => f.bind (fun f => if used f then some f else none)) }) }

end Sys2Proof.Machine
end

