-- ==== Sys2Proof/Machine/Pictures.lean ====
section
/-!
DEFINITION. Pictures in near memory (R137, R138, R151): where a buffer lies, how its samples are packed, and the areas of its statistics.
-/

namespace Sys2Proof.Machine

/-! ### Where a buffer lies (R138) -/

/-- The name of buffer `i` of a pool. -/
def bufName (pool i : Nat) : Nat := pool * 2 ^ 20 + i

/-- The pool of MEMORY_MAP with a number. -/
def poolOf (s : State) (pool : Nat) : Option PoolEntry := (structure_ s).map.pools[pool]?

/-- The internal address of a buffer, and the blocks that it holds. -/
def bufferPlace (s : State) (b : Nat) : Option (Nat × Nat) :=
  (poolOf s (b / 2 ^ 20)).map (fun p => (p.base + b % 2 ^ 20 * p.footprint, p.blocks))

/-- The picture area of a buffer: its first address and its length; the header stands before it. -/
def pictureArea (p : Nat × Nat) : Nat × Nat := (p.1 + 32, 512 * p.2)
/-- The vector field. -/
def vectorArea (p : Nat × Nat) : Nat × Nat := (p.1 + 32 + 512 * p.2, 8 * p.2)
/-- The row-statistics entries. -/
def rowArea (p : Nat × Nat) : Nat × Nat := (p.1 + 32 + 520 * p.2, 4096)

/-- Whether `n` bytes at an address lie in an area. -/
def inArea (a : Nat × Nat) (address n : Nat) : Bool := decide (a.1 ≤ address) && decide (address + n ≤ a.1 + a.2)

/-- Whether a job may write there (R143): in one of the three areas of its output buffer. -/
def writeAllowed (s : State) (b address n : Nat) : Bool :=
  match bufferPlace s b with
  | some p => inArea (pictureArea p) address n || inArea (vectorArea p) address n || inArea (rowArea p) address n
  | none => false

/-- Memory with `n` bytes from an address at zero: they are listed no more. -/
def memClear (m : List Host.Cell) (a n : Nat) : List Host.Cell := m.filter (fun c => decide (c.1 < a) || decide (a + n ≤ c.1))

/-! ### Blocks (R137) -/

/-- Three 10-bit samples to a word, 384 samples to the 512 bytes of a block. -/
def packBlock (samples : List Nat) : List Byte :=
  (List.range 128).flatMap (fun k =>
    let at_ (i : Nat) : Nat := samples.getD (3 * k + i) 0 % 1024
    toLE 4 (at_ 0 + 1024 * at_ 1 + 1048576 * at_ 2))

/-- Sample `i` of a block at an address. -/
def sampleIn (m : List Host.Cell) (address i : Nat) : Nat :=
  let w := fromLE (memRead m (address + 4 * (i / 3)) 4)
  w / 1024 ^ (i % 3) % 1024

/-- The address of block `k` of a buffer. -/
def blockAddress (p : Nat × Nat) (k : Nat) : Nat := (pictureArea p).1 + 512 * k

/-- Whether a block of a buffer lies, wholly or in part, in a poisoned word (R413). -/
def blockPoisoned (s : State) (b k : Nat) : Bool :=
  match bufferPlace s b with
  | some p => (List.range 9).any (fun i =>
      let a := blockAddress p k
      decide (64 * i < a % 64 + 512) && isPoisoned s (a / 64 + i))
  | none => false

/-- The 384 samples of a block, none where it comes back poisoned. -/
def readBlock (s : State) (b k : Nat) : Option (List Nat) :=
  match bufferPlace s b with
  | some p => if blockPoisoned s b k then none else some ((List.range 384).map (fun i => sampleIn s.mem (blockAddress p k) i))
  | none => none

/-- A block is written. -/
def writeBlock (s : State) (b k : Nat) (samples : List Nat) : State :=
  match bufferPlace s b with
  | some p => store s (blockAddress p k) (packBlock samples)
  | none => s

/-- Blocks across a width or down a height. -/
def blocksAlong (n : Nat) : Nat := ceilDiv n 16

/-- Where sample (x, y) of a plane (0 Y', 1 Cb, 2 Cr) of a picture lies: its block, in raster order, and its place in the block. -/
def samplePlace (width plane x y : Nat) : Nat × Nat :=
  if plane = 0 then (y / 16 * blocksAlong width + x / 16, y % 16 * 16 + x % 16)
  else (y / 8 * blocksAlong width + x / 8, 192 + 64 * plane + y % 8 * 8 + x % 8)

/-- Sample (x, y) of a plane of a buffer's picture, none where its block comes back poisoned. -/
def sampleAt (s : State) (b plane x y : Nat) : Option Nat :=
  match s.buffers.get b, bufferPlace s b with
  | some h, some p =>
    let q := samplePlace h.width plane x y
    if blockPoisoned s b q.1 then none else some (sampleIn s.mem (blockAddress p q.1) q.2)
  | _, _ => none

/-- The samples of a block whose sample (x, y) of each plane is a function of its place in the picture; beyond the picture's width or height
the edge samples are repeated. -/
def pictureBlock (width height bx by_ : Nat) (at_ : Nat → Nat → Nat → Nat) : List Nat :=
  let luma := (List.range 256).map (fun i => at_ 0 (min (width - 1) (16 * bx + i % 16)) (min (height - 1) (16 * by_ + i / 16)))
  let chroma (plane : Nat) : List Nat :=
    (List.range 64).map (fun i => at_ plane (min (ceilDiv width 2 - 1) (8 * bx + i % 8)) (min (ceilDiv height 2 - 1) (8 * by_ + i / 8)))
  luma ++ chroma 1 ++ chroma 2

/-- The place in its block of sample (x, y) of a plane, counted within the block. -/
def inBlock (plane x y : Nat) : Nat := if plane = 0 then y % 16 * 16 + x % 16 else 192 + 64 * plane + y % 8 * 8 + x % 8

/-- A block of samples as it is stored: the edge samples repeated beyond the picture. -/
def edgeRepeated (width height bx by_ : Nat) (samples : List Nat) : List Nat :=
  pictureBlock width height bx by_ (fun plane x y => samples.getD (inBlock plane x y) 0)

/-! ### Statistics (R151) -/

/-- One entry of a vector field. -/
def vectorEntry (x y ref : Int) (concealed : Bool) : List Byte :=
  toLE 2 (ofSigned 16 x) ++ toLE 2 (ofSigned 16 y) ++ toLE 1 (ofSigned 8 ref) ++ toLE 1 (b2n concealed) ++ zeros 2

/-- The entry of block `k`. -/
def writeVector (s : State) (b k : Nat) (entry : List Byte) : State :=
  match bufferPlace s b with
  | some p => store s ((vectorArea p).1 + 8 * k) entry
  | none => s

/-- The vector and reference index of block `k` of a buffer's vector field. -/
def vectorAt (s : State) (b k : Nat) : Int × Int × Int :=
  match bufferPlace s b with
  | some p =>
    let a := (vectorArea p).1 + 8 * k
    (toSigned 16 (fromLE (memRead s.mem a 2)), toSigned 16 (fromLE (memRead s.mem (a + 2) 2)), toSigned 8 (fromLE (memRead s.mem (a + 4) 1)))
  | none => (0, 0, 0)

/-- INTRA_COST, INTER_COST, BITS and CONCEALED_BLOCKS of block row `r` grow by what a job of the row gives. -/
def addRow (s : State) (b r intra inter bits concealed : Nat) : State :=
  match bufferPlace s b with
  | some p =>
    let a := (rowArea p).1 + 16 * r
    let old (k : Nat) : Nat := fromLE (memRead s.mem (a + 4 * k) 4)
    store s a (toLE 4 (old 0 + intra) ++ toLE 4 (old 1 + inter) ++ toLE 4 (old 2 + bits) ++ toLE 4 (old 3 + concealed))
  | none => s

/-- A buffer that is taken: both areas of its statistics are zero. -/
def clearStatistics (s : State) (b : Nat) : State :=
  match bufferPlace s b with
  | some p => { s with mem := memClear (memClear s.mem (vectorArea p).1 (vectorArea p).2) (rowArea p).1 (rowArea p).2 }
  | none => s

end Sys2Proof.Machine
end

