-- ==== Sys2Proof/Machine/VideoDecode.lean ====
section
/-!
DEFINITION. Frame buffers, job schedules, and video decode (chapter 05).
-/

namespace Sys2Proof.Machine

/-! ### Schedules (R62, R63, R135) -/

/-- A schedule of `rows` rows of `per` jobs each that starts with the tick of boundary count `start`. -/
def Schedule.from (start period rows per : Nat) : Schedule :=
  { start := start, period := period, total := max 1 rows * max 1 per, per := max 1 per, next := 0, delay := 0, suspended := false, carried := 0, resumeAt := 0 }

/-- The boundary count of the tick for which job `k` is scheduled: that of its row. -/
def Schedule.tickOf (c : Schedule) (k : Nat) : Nat := c.start + k / c.per * c.period / (c.total / c.per) + c.delay

/-- Whether the next job may run now. In a short tick only a job that has begun runs on (R56). -/
def Schedule.due (c : Schedule) (s : State) : Bool :=
  decide (c.next < c.total)
    && (if c.suspended then decide (c.resumeAt ≤ s.time.boundaries) else !s.time.shortTick && decide (c.tickOf c.next ≤ s.time.boundaries))

/-- The jobs that are late at the end of the tick of boundary count `n`. -/
def Schedule.lateCount (c : Schedule) (n : Nat) : Nat := ((List.range c.total).filter (fun k => decide (c.next ≤ k) && decide (c.tickOf k ≤ n))).length

/-- The schedule moved one tick later. -/
def Schedule.moved (c : Schedule) : Schedule := { c with delay := c.delay + 1 }

/-- The schedule with its next job done. -/
def Schedule.done (c : Schedule) : Schedule := { c with next := c.next + 1, suspended := false, carried := 0 }

/-! ### Frame buffers (R139 to R141) -/

/-- The lowest FREE buffer of a pool. -/
def freeBuffer (s : State) (pool : Nat) : Option Nat :=
  match poolOf s pool with
  | none => none
  | some p => (lowest p.count (fun i => (s.buffers.get (bufName pool i)).isNone)).map (bufName pool)

def updBuffer (s : State) (b : Nat) (f : Buffer → Buffer) : State := { s with buffers := s.buffers.update b f }

/-- Whether a buffer carries a mark. -/
def Buffer.marked (b : Buffer) : Bool := b.shortTerm || b.longTerm || b.current || b.slots ≠ 0

/-- COMPLETE buffers without mark and holder become FREEING. -/
def sweepBuffers (s : State) : State :=
  { s with buffers := s.buffers.all (fun _ (b : Buffer) =>
    if b.state = BufState.complete && !b.marked && b.holders = 0 then { b with state := BufState.freeing } else b) }

/-- A hold on a buffer that has CURRENT set. -/
def takeHold (s : State) (b : Nat) : State := updBuffer s b (fun x => if x.current then { x with holders := x.holders + 1 } else x)

/-- A hold released. -/
def dropHold (s : State) (b : Nat) : State := sweepBuffers (updBuffer s b (fun x => { x with holders := x.holders - 1 }))

/-- FREEING buffers become FREE at a tick boundary. -/
def freeBuffers (s : State) : State := { s with buffers := s.buffers.filter (fun e => e.2.state ≠ .freeing) }

/-- The buffers that a holder's stream number has taken. -/
def buffersOf (s : State) (stream : Nat) : List (Nat × Buffer) := s.buffers.filter (fun e => e.2.stream = stream)

/-- FREE buffers of a pool. -/
def poolFree (s : State) (pool : Nat) : Nat :=
  match poolOf s pool with
  | none => 0
  | some p => p.count - (s.buffers.filter (fun e => e.1 / 2 ^ 20 = pool)).length

/-- A charge holder's charges are gone. -/
def dropCharges (s : State) (kind index : Nat) : State := { s with ledger := s.ledger.filter (fun c => !(c.kind = kind && c.index = index)) }

/-! ### Decode streams -/

/-- The buffer of a picture of a stream, by decode-order count. -/
def pictureBuffer (s : State) (i pic : Nat) : Option (Nat × Buffer) := (buffersOf s i).find? (fun e => e.2.picture = pic && e.2.state ≠ .freeing)

/-- A picture is output: CURRENT moves to it (R142); a CONCEALED one asks for a keyframe (R145). -/
def outputPicture (s : State) (i pic : Nat) : State :=
  match pictureBuffer s i pic, s.decodes.get i with
  | some (b, x), some d =>
    let s := match d.current with
      | some c => updBuffer s c (fun y => { y with current := false })
      | none => s
    let s := updBuffer s b (fun y => { y with current := true })
    let s := updDecode s i (fun y => { y with current := some b })
    if bitOf x.flags 0 = 1 then requestKeyframe s d.spec.leg false else s
  | _, _ => s

/-- The marks that decoding of a frame leaves (R140): on the frame's buffer and on older pictures. -/
def applyMarks (s : State) (i pic : Nat) (m : Marking) : State :=
  { s with buffers := s.buffers.all (fun _ (b : Buffer) =>
    if b.stream ≠ i || b.state = BufState.freeing then b
    else if b.picture = pic then { b with shortTerm := m.keepShort, longTerm := m.keepLong, slots := m.slots }
    else
      let b := if m.unmark.contains b.picture then { b with shortTerm := false, longTerm := false } else b
      let b := if m.longMarks.contains b.picture then { b with shortTerm := false, longTerm := true } else b
      match m.slotsOf.find? (fun e => e.1 = b.picture) with
      | some e => { b with slots := e.2 }
      | none => b) }

/-- All marks of a stream's pictures are cleared, when it has ended. -/
def clearMarks (s : State) (i : Nat) : State :=
  sweepBuffers { s with buffers := s.buffers.all (fun _ (b : Buffer) =>
    if b.stream = i then { b with shortTerm := false, longTerm := false, current := false, slots := 0,
                                  state := if b.state = BufState.decoding then BufState.complete else b.state } else b) }

/-! ### The codec (R127, R128, R131, R139) -/

/-- Whether the profile, tier, level, depth and chroma of a sequence are those of R127, and it uses nothing of R128. -/
def decodable (codec : Nat) (h : SequenceHeader) : Bool :=
  !h.interlaced && decide (h.level ≤ 51) &&
    match codec with
    | 8 => (h.profile = .constrainedBaseline || h.profile = .main || h.profile = .high) && h.bitDepth = 8 && h.chroma = 1
    | 9 => (h.profile = .main || h.profile = .main10) && !h.highTier && !h.extension && (h.bitDepth = 8 || h.bitDepth = 10) && h.chroma = 1
    | 10 => h.profile = .main && !h.largeScaleTile && (h.bitDepth = 8 || h.bitDepth = 10) && decide (h.chroma ≤ 1)
    | _ => false

/-- COLOUR of a sequence's pictures (R139): BT.709 in limited range where it has no colour description. -/
def headerColour (h : SequenceHeader) : Nat :=
  let c := h.colour.getD { transfer := 1, primaries := 1, matrix := 1, fullRange := false }
  c.transfer % 256 + 256 * (c.primaries % 256) + 65536 * (c.matrix % 256) + 2 ^ 24 * b2n c.fullRange + 2 ^ 25 * b2n (decide (h.bitDepth = 10))

/-- Whether a picture is a random access point (R131). -/
def isRandomAccess (codec : Nat) (k : PictureKind) : Bool :=
  match codec, k with
  | 8, .idr => true
  | 9, .idr => true
  | 9, .cra => true
  | 9, .bla => true
  | 10, .key shown => shown
  | _, _ => false

/-- A sequence header that the stream may not decode: whether for its size (R148). -/
def badHeader (d : DecodeStream) (h : SequenceHeader) : Option Bool :=
  if !decodable d.spec.codec h then some false else if d.spec.maxWidth < h.width || d.spec.maxHeight < h.height then some true else none

/-! ### Rows and tiles (R135) -/

/-- The tile columns of a frame, one where it has no tiles. -/
def frameColumns (f : CodedFrame) : Nat := max 1 (((f.layers.map (fun l => l.columns.length)).max?).getD 0)

/-- The block rows of a frame over its spatial layers. -/
def frameRows (f : CodedFrame) : Nat := (f.layers.map (fun l => blocksAlong l.height)).sum

/-- The layer of block row `k`, and the row within it. -/
def rowOf : List Nat → Nat → Nat × Nat
  | [], k => (0, k)
  | r :: l, k => if k < r then (0, k) else ((rowOf l (k - r)).1 + 1, (rowOf l (k - r)).2)

/-- What a job works at: the layer and its size, the block row, the tile column, the first block across and how many. -/
structure RowPlace where
  layer : Nat
  width : Nat
  height : Nat
  row : Nat
  column : Nat
  from_ : Nat
  blocks : Nat
  deriving DecidableEq, Repr

/-- Job `k` of a frame: its rows run from the top, and the tiles of a row from the left. -/
def rowPlace (f : CodedFrame) (k : Nat) : RowPlace :=
  let at_ := rowOf (f.layers.map (fun l => blocksAlong l.height)) (k / frameColumns f)
  let l := f.layers.getD at_.1 { width := 0, height := 0, columns := [] }
  let c := k % frameColumns f
  let whole := blocksAlong l.width
  { layer := at_.1, width := l.width, height := l.height, row := at_.2, column := c, from_ := (l.columns.take c).sum,
    blocks := if l.columns.isEmpty then (if c = 0 then whole else 0) else min (l.columns.getD c 0) (whole - (l.columns.take c).sum) }

/-- The number in the buffer of the first block of a layer: the highest layer, which is the picture, stands first, and the others follow it. -/
def firstBlockOf (f : CodedFrame) (layer : Nat) : Nat :=
  let size (l : FrameLayer) : Nat := blocksAlong l.width * blocksAlong l.height
  if layer + 1 = f.layers.length then 0
  else ((f.layers.getLast?.map size).getD 0) + ((f.layers.take layer).map size).sum

/-! ### Frames -/

/-- The references of a frame that were never received (R146). -/
def missingRefs (s : State) (i : Nat) (f : CodedFrame) : Nat :=
  (f.refs.filter (fun r => match r with
    | none => true
    | some p => (pictureBuffer s i p).isNone)).length

/-- The buffers that a frame's descriptor names: CURRENT in place of a reference never received, none for mid-grey (R143, R146). -/
def refBuffers (s : State) (i : Nat) (d : DecodeStream) (f : CodedFrame) : List (Option Nat) :=
  f.refs.map (fun r => match r.bind (pictureBuffer s i) with
    | some e => some e.1
    | none => d.current)

/-- Whether a frame's prediction reads a picture with CONCEALED set (R145). -/
def concealedRefs (s : State) (refs : List (Option Nat)) : Bool :=
  refs.any (fun r => ((r.bind s.buffers.get).map (fun b => decide (bitOf b.flags 0 = 1))).getD false)

/-- Stand-ins for missing references. -/
def standIns (s : State) (leg n : Nat) : State :=
  if n = 0 then s
  else requestKeyframe (raise (bumpBy s Reg.DECODE.STAND_INS n) Reg.DECODE.DECODE_EVENTS_STAND_IN) leg false

/-- A stream that drains with no frame left: its marks go, and CURRENT with them. -/
def quietDecode (s : State) (i : Nat) : State := clearMarks (updDecode s i (fun d => { d with current := none })) i

/-- The next ready frames begin until one has jobs, at most `fuel` of them. A show_existing_frame has none: its picture is output (R142). -/
def beginReady (s : State) (i : Nat) : Nat → State
  | 0 => s
  | fuel + 1 =>
    match s.decodes.get i with
    | none => s
    | some d =>
      if d.job.isSome then s
      else
        match d.ready with
        | [] => if d.state = .draining then quietDecode s i else s
        | j :: rest =>
          let s := updDecode s i (fun d => { d with ready := rest })
          match j.frame.showExisting with
          | some p => beginReady (sweepBuffers (outputPicture s i p)) i fuel
          | none => updDecode s i (fun d => { d with job := some j })

/-- The stream goes on after a frame has ended. -/
def nextFrameOf (s : State) (i : Nat) : State :=
  let n := ((s.decodes.get i).map (fun d => d.ready.length)).getD 0
  beginReady (updDecode s i (fun d => { d with job := none })) i (n + 1)

/-- The first job of a frame starts: it takes a buffer within the stream's reservation, and its descriptor names its references; without a buffer the
frame is lost (R140, R141, R143, R146). -/
def openFrame (s : State) (i : Nat) (d : DecodeStream) (j : DecodeFrame) : State × Option DecodeFrame :=
  let within := (buffersOf s i).length < d.spec.refs + 1 + rd s Reg.DECODE.DECODE_CONFIG_HOLD_SLACK
  match if within then freeBuffer s d.spec.pool else none with
  | none => (nextFrameOf (raise (bump (loseFrame s i) Reg.DECODE.POOL_STARVED) Reg.DECODE.DECODE_EVENTS_POOL_STARVED) i, none)
  | some b =>
    let n := missingRefs s i j.frame
    let refs := refBuffers s i d j.frame
    let top := j.frame.layers.getLast?.getD { width := 0, height := 0, columns := [] }
    let x : Buffer :=
      { state := .decoding, shortTerm := false, longTerm := false, current := false, slots := 0, flags := 0, holders := 0, stream := i, width := top.width,
        height := top.height, colour := (d.sequence.map headerColour).getD 0, picture := d.pictures, completed := 0 }
    let j := { j with buffer := some b, generation := s.trust.current.number, refs := refs, standIn := decide (0 < n), grey := decide (0 < n) && d.current.isNone,
                      concealed := decide (0 < n) || (!isRandomAccess d.spec.codec j.frame.kind && concealedRefs s refs) }
    let s := standIns s d.spec.leg n
    (updDecode (clearStatistics { s with buffers := s.buffers.put b x } b) i (fun d => { d with job := some j, pictures := d.pictures + 1 }), some j)

/-- The last job of a frame has ended (R140, R142, R145). -/
def completeFrame (s : State) (i : Nat) (j : DecodeFrame) (b : Nat) : State :=
  let flags := b2n j.concealed + 2 * b2n j.standIn + 4 * b2n j.grey
  let pic := ((s.buffers.get b).map (·.picture)).getD 0
  let s := updBuffer s b (fun x => { x with state := .complete, flags := flags, completed := now s })
  let s := bump s Reg.DECODE.FRAMES_DECODED
  let s := updDecode s i (fun d => { d with frames := d.frames + 1, concealed := d.concealed + b2n j.concealed })
  let s := if j.concealed then bump s Reg.DECODE.FRAMES_CONCEALED else s
  let s := applyMarks s i pic j.frame.marking
  let s := j.frame.marking.outputs.foldl (fun s p => outputPicture s i p) s
  nextFrameOf (sweepBuffers s) i

/-- A frame is dropped (R64, R150): it is treated as the network's loss, and a keyframe is requested. -/
def dropDecodeFrame (s : State) (i : Nat) : State :=
  match s.decodes.get i with
  | none => s
  | some d =>
    match d.job with
    | none => s
    | some j =>
      let s := match j.buffer with
        | some b => updBuffer s b (fun x => { x with state := .freeing })
        | none => s
      let s := requestKeyframe (loseFrame s i) d.spec.leg false
      nextFrameOf (updDecode s i (fun d => { d with lateRun := 0 })) i

/-- An engine reset of a decode cluster drops the frames of its streams (R150). -/
def resetDecode (s : State) (cluster : Nat) : State :=
  (s.decodes.filter (fun e => e.2.cluster = cluster && e.2.job.isSome)).foldl (fun s e => dropDecodeFrame s e.1) (engineRegs s 0 cluster)

/-- A failure of a decode cluster. -/
def decodeFailure (s : State) (cluster : Nat) : State :=
  let r := countFailure s 0 cluster
  if r.2 then resetDecode r.1 cluster else r.1

/-- A sequence header takes effect; `start` says that the frame is a random access point at which the stream starts. RASL pictures are discarded after
a BLA picture, and after a CRA picture at which the stream starts (R131). -/
def DecodeStream.admits (d : DecodeStream) (f : CodedFrame) : DecodeStream :=
  let d := match f.header with
    | some h => { d with blocked := false, sequence := some h }
    | none => d
  { d with noRasl := match f.kind with
      | .bla => true
      | .cra => decide (d.state = .waiting) || d.blocked
      | .idr => false
      | _ => d.noRasl }

/-- Whether a stream decodes a frame: it is of the operating point, and no RASL picture that is discarded. -/
def DecodeStream.decodes (d : DecodeStream) (f : CodedFrame) : Bool :=
  (d.spec.codec = 9 || decide (f.temporal ≤ opTemporal d.spec.opPoint)) && !(d.noRasl && f.kind = .rasl)

/-- The frame that a decode stream takes: `a` as assembled, `f` as parsed, ready at the boundary count `tr`. -/
def takeFrame (s : State) (i : Nat) (d : DecodeStream) (a : AsmFrame) (tr : Nat) (f : CodedFrame) : State :=
  match f.header.bind (badHeader d) with
  | some size =>
    let s := loseFrame (updDecode s i (fun d => { d with state := .waiting, blocked := true })) i
    if size then raise (bump s Reg.DECODE.SIZE_EXCEEDED) Reg.DECODE.DECODE_EVENTS_SIZE_EXCEEDED
    else raise (bump s Reg.DECODE.UNSUPPORTED) Reg.DECODE.DECODE_EVENTS_UNSUPPORTED
  | none =>
    if d.blocked && f.header.isNone then loseFrame s i
    else if d.state = .waiting && !isRandomAccess d.spec.codec f.kind then updDecode s i (fun d => { d with blocked := false, sequence := (d.admits f).sequence })
    else
      let d := d.admits f
      if !d.decodes f then updDecode s i (fun _ => d)
      else
        let j : DecodeFrame :=
          { sched := Schedule.from tr (8000 / max 1 d.spec.rate) (frameRows f) (frameColumns f), generation := s.trust.current.number, buffer := none, frame := f, extent := a.bytes,
            refs := [], discarding := [], held := none, concealed := false, standIn := false, grey := false }
        beginReady (updDecode s i (fun _ => { d with state := .running, ready := d.ready ++ [j] })) i (d.ready.length + 1)

/-- The first frame of a stream's assembly that did not break BITSTREAM_KIB, with those after it. -/
def nextAssembled (d : DecodeStream) : List AsmFrame := d.assembly.dropWhile (fun a => a.oversize)

/-- FRAME_READY: the next coded frame of a stream is ready; `f` is what parsing it gives. A frame none of whose packets arrived is lost (R134). -/
def execFrameReady (i : Nat) (f : CodedFrame) (s : State) : Host.Outcome State Fault Refusal :=
  match s.decodes.get i with
  | none => ok s
  | some d =>
    match nextAssembled d with
    | [] => ok s
    | a :: rest =>
      match a.readyAt with
      | none => ok s
      | some tr =>
        if inService s && !s.time.shortTick && (d.state = .waiting || d.state = .running) && inServiceEngine s 0 d.cluster then
          let d := { d with assembly := rest, takenStamp := some a.timestamp, takenLast := a.marker }
          let s := updDecode s i (fun _ => d)
          if a.absent then ok (loseFrame s i) else ok (takeFrame s i d a tr f)
        else ok s

/-! ### Blocks and rows (R136, R143, R144, R151) -/

/-- Whether a block is a resynchronisation point of a codec. -/
def resynchronises (codec : Nat) (b : BlockStart) : Bool :=
  match codec with
  | 8 => b = .slice || b = .tile
  | 9 => b = .slice || b = .tile
  | _ => b = .tile

/-- Whether a block's reads are all of blocks of named reference buffers that come back whole. -/
def readsWhole (s : State) (refs : List (Option Nat)) (b : BlockWork) : Bool :=
  !b.poisoned && b.reads.all (fun r => match refs[r.1]? with
    | some (some n) => !blockPoisoned s n r.2
    | some none => true
    | none => false)

/-- A block that no data were decoded for. -/
def missingBlock : BlockWork :=
  { cycles := 0, start := .none, damaged := true, samples := [], reads := [], poisoned := false, mvX := 0, mvY := 0, ref := -1 }

/-- The samples of a decoded block as they are stored: 10 bits, chroma of a monochrome picture at mid-value (R128, R137). -/
def storedSamples (h : SequenceHeader) (samples : List Nat) : List Nat :=
  let s := samples.map (fun v => if h.bitDepth = 8 then 4 * v else v)
  if h.chroma = 0 then s.take 256 ++ List.replicate (384 - 256) 512 else s

/-- What a concealed block shows: the co-located block of CURRENT, or mid-grey (R144). -/
def concealment (s : State) (current : Option Nat) (p : RowPlace) (top : Bool) (bx : Nat) : List Nat :=
  let grey := List.replicate 384 512
  match current.bind (fun c => (s.buffers.get c).map (fun b => (c, b))) with
  | some (c, b) =>
    if top && decide (bx < blocksAlong b.width) && decide (p.row < blocksAlong b.height) then (readBlock s c (p.row * blocksAlong b.width + bx)).getD grey else grey
  | none => grey

/-- The blocks of a row as they are decoded, from the left: whether each is concealed. A damaged block makes the decoder discard data up to the next
resynchronisation point; `n` blocks are decoded before the row is abandoned. -/
def damageOf (s : State) (codec : Nat) (refs : List (Option Nat)) (discarding : Bool) : Nat → List BlockWork → List Bool × Bool
  | _, [] => ([], discarding)
  | 0, _ :: l =>
    let r := damageOf s codec refs true 0 l
    (true :: r.1, r.2)
  | n + 1, b :: l =>
    let bad := (discarding && !resynchronises codec b.start) || b.damaged || !readsWhole s refs b
    let r := damageOf s codec refs bad n l
    (bad :: r.1, r.2)

/-- One block of a row is written, with its vector where the stream has STATS. -/
def writeDecoded (s : State) (d : DecodeStream) (j : DecodeFrame) (out : Nat) (p : RowPlace) (x : Nat × BlockWork × Bool) : State :=
  let top := decide (p.layer + 1 = j.frame.layers.length)
  let bx := p.from_ + x.1
  let k := firstBlockOf j.frame p.layer + p.row * blocksAlong p.width + bx
  let samples :=
    if x.2.2 then concealment s d.current p top bx
    else edgeRepeated p.width p.height bx p.row (match d.sequence with
      | some h => storedSamples h x.2.1.samples
      | none => x.2.1.samples)
  let s := writeBlock s out k samples
  if bitOf d.spec.flags 0 = 1 && top then
    writeVector s out k (if x.2.2 then vectorEntry 0 0 (-1) true else vectorEntry x.2.1.mvX x.2.1.mvY x.2.1.ref false)
  else s

/-- A row ends: decoded as far as its first `n` blocks, and concealed beyond. -/
def endRow (s : State) (i : Nat) (d : DecodeStream) (j : DecodeFrame) (out : Nat) (w : RowWork) (n : Nat) : State :=
  let p := rowPlace j.frame j.sched.next
  let blocks := (List.range p.blocks).map (fun k => w.blocks.getD k missingBlock)
  let r := damageOf s d.spec.codec j.refs (j.discarding.contains p.column) n blocks
  let concealed := (r.1.filter id).length
  let s := (blocks.zip r.1).mapIdx (fun k x => (k, x)) |>.foldl (fun s x => writeDecoded s d j out p x) s
  let s := bumpBy s Reg.DECODE.BLOCKS_CONCEALED concealed
  let s := if bitOf d.spec.flags 0 = 1 && decide (p.layer + 1 = j.frame.layers.length) then addRow s out p.row w.intraCost w.interCost w.bits concealed else s
  let j := { j with sched := j.sched.done, held := none, concealed := j.concealed || decide (0 < concealed),
                    discarding := if r.2 then p.column :: j.discarding.erase p.column else j.discarding.erase p.column }
  if j.sched.next = j.sched.total then completeFrame s i j out else updDecode s i (fun d => { d with job := some j })

/-- A row is abandoned after `n` of its blocks (R136). -/
def abandonRow (s : State) (i : Nat) (d : DecodeStream) (j : DecodeFrame) (out : Nat) (w : RowWork) (n : Nat) : State :=
  endRow (raise (bump s Reg.DECODE.ROWS_ABANDONED) Reg.DECODE.DECODE_EVENTS_ROW_ABANDONED) i d j out w n

/-- How many blocks of a row are decoded within some cycles. -/
def blocksWithin : Nat → List BlockWork → Nat
  | _, [] => 0
  | c, b :: l => if b.cycles ≤ c then blocksWithin (c - b.cycles) l + 1 else 0

/-- The writes of a job beyond those of its blocks: those outside its areas are suppressed and counted (R143). -/
def strayWrites (s : State) (out : Nat) (writes : List (Nat × List Byte)) : State × Bool :=
  let blocked := (writes.filter (fun w => !writeAllowed s out w.1 w.2.length)).length
  let s := (writes.filter (fun w => writeAllowed s out w.1 w.2.length)).foldl (fun s w => store s w.1 w.2) s
  if blocked = 0 then (s, false) else (raise (bumpBy s Reg.DECODE.WRITE_BLOCKED blocked) Reg.DECODE.DECODE_EVENTS_WRITE_BLOCKED, true)

/-- A block-row job runs with its descriptor complete (R135, R136, R143, R144, R150). -/
def runRow (s : State) (i : Nat) (d : DecodeStream) (j : DecodeFrame) (out : Nat) (w : RowWork) : State :=
  let w := j.held.getD w
  let p := rowPlace j.frame j.sched.next
  let blocks := (List.range p.blocks).map (fun k => w.blocks.getD k missingBlock)
  let cap := rd s Reg.DECODE.DECODE_CONFIG_CAP_PER_BLOCK * p.blocks
  let need := (blocks.map (·.cycles)).sum
  let r := strayWrites s out w.writes
  if r.2 || w.failed then decodeFailure (abandonRow r.1 i d j out w 0) d.cluster
  else if need ≤ cap || (j.sched.suspended && decide (need ≤ 2 * cap)) then endRow r.1 i d j out w blocks.length
  else if j.sched.suspended then abandonRow r.1 i d j out w (blocksWithin (2 * cap) blocks)
  else
    let c := { j.sched with suspended := true, carried := need - cap, resumeAt := s.time.boundaries + 1 }
    updDecode s i (fun d => { d with job := some { j with sched := c, held := some w } })

/-- DECODE_ROW_JOB: the next block-row job of a stream runs; the first job of a frame takes its buffer. -/
def execDecodeRowJob (i : Nat) (w : RowWork) (s : State) : Host.Outcome State Fault Refusal :=
  match s.decodes.get i with
  | none => ok s
  | some d =>
    match d.job with
    | none => ok s
    | some j =>
      if !(inService s && j.sched.due s && decide (d.lateRun < 3) && inServiceEngine s 0 d.cluster && !s.faults.resetting.contains (engineId 0 d.cluster)) then ok s
      else
        match j.buffer with
        | some b => ok (runRow s i d j b w)
        | none =>
          match openFrame s i d j with
          | (s, none) => ok s
          | (s, some j) => ok (runRow s i { d with pictures := d.pictures + 1, job := some j } j (j.buffer.getD 0) w)

/-! ### Boundaries -/

/-- A decode stream takes effect: it becomes WAITING and asks for a keyframe (R131). -/
def activateDecode (s : State) (i : Nat) : State :=
  match s.decodes.get i with
  | some d => if d.state = .admitted then requestKeyframe (updDecode s i (fun d => { d with state := .waiting })) d.spec.leg false else s
  | none => s

/-- Lateness of decode streams at the end of a tick of boundary count `n` (R62, R63). -/
def decodeLateness (s : State) (n : Nat) : State :=
  let late (d : DecodeStream) : Nat := ((d.job.toList ++ d.ready).map (fun j => j.sched.lateCount n)).sum
  let counts := (List.range 16).map (fun c => (c, ((s.decodes.filter (fun e => e.2.cluster = c)).map (fun e => late e.2)).sum))
  let s := { s with decodes := s.decodes.all (fun _ (d : DecodeStream) =>
    if 0 < late d then { d with lateRun := d.lateRun + 1, job := d.job.map (fun j => { j with sched := j.sched.moved }) } else { d with lateRun := 0 }) }
  counts.foldl (fun s e => lateJobs s (Reg.DECODE.OVERRUN.at e.1) e.2) s

/-- The release of a decode stream itself: no further frame begins. -/
def drainDecode (s : State) (i : Nat) : State :=
  let s := updDecode s i (fun d => { d with state := .draining, ready := [], assembly := [] })
  match s.decodes.get i with
  | some d => if d.job.isNone then quietDecode s i else s
  | none => s

/-- Draining streams whose last buffer is FREE become FREE, and their charges go (R141). -/
def endDecodes (s : State) : State :=
  (s.decodes.filter (fun e => e.2.state = .draining && e.2.job.isNone && (buffersOf s e.1).isEmpty)).foldl
    (fun s e => dropCharges { s with decodes := s.decodes.del e.1 } 3 e.1) s

end Sys2Proof.Machine
end

