-- ==== Sys2Proof/Machine/Veil.lean ====
section
/-!
DEFINITION. Composition (chapter 06): display lists, frame boundaries, pictures and placeholders, bands, Visor checks.
-/

namespace Sys2Proof.Machine

/-! ### Frame boundaries by local time (R156, R183) -/

/-- The newest j whose instant j x 1,000,000,000 / rate + phase x 125,000 ns has passed at local time `t`; j is any integer. -/
def framesBy (rate phase t : Nat) : Int := Int.fdiv (((t : Int) - (phase * Config.tickNs : Nat)) * rate) 1000000000

/-- The local time that began this tick, as a multiple of 125,000 ns. -/
def tickStart (s : State) : Nat := s.time.boundaryAt / Config.tickNs * Config.tickNs

/-- Whether a frame boundary falls at the tick boundary `ago` ticks before the one that began this tick. What fell at the start of a short tick counts in the
tick after it (R56). -/
def frameDueBefore (s : State) (rate phase ago : Nat) : Bool :=
  let last := min (s.time.boundaryPrev / Config.tickNs * Config.tickNs) (tickStart s - Config.tickNs)
  !s.time.shortTick && decide (framesBy rate phase (last - ago * Config.tickNs) < framesBy rate phase (tickStart s - ago * Config.tickNs))

/-- Whether a frame boundary falls at the tick boundary that began this tick. -/
def frameDue (s : State) (rate phase : Nat) : Bool := frameDueBefore s rate phase 0

/-! ### Composites -/

def updComp (s : State) (i : Nat) (f : Composite → Composite) : State := { s with composites := s.composites.update i f }

/-- The stream number under which a composite holds buffers. -/
def compStream (i : Nat) : Nat := 65536 + i

/-- The number of bands (R155). -/
def CompositeSpec_bands (c : CompositeSpec) : Nat := ceilDiv c.height 16

/-- The assets of a generation (R162). -/
def assetsOf (g : Generation) : List Asset := (g.programs.findSome? Record.veilAssets?).getD []

def assetOf (g : Generation) (id : Nat) : Option Asset := (assetsOf g).find? (fun a => a.id = id)

/-- A pixel of an image asset (R162): B, G, R and A. -/
structure Argb where
  b : Nat
  g : Nat
  r : Nat
  a : Nat
  deriving DecidableEq, Repr

/-- Where a pixel's byte, or its index byte, stands in the asset's data. -/
def pixelByte (a : Asset) (x y : Nat) : Nat := if a.kind = 0 then 4 * (y * a.width + x) else 1024 + (y * a.width + x)

/-- The pixel (x, y) of an image asset. -/
def argbAt (a : Asset) (x y : Nat) : Argb :=
  let i := if a.kind = 0 then pixelByte a x y else 4 * (a.data.getD (pixelByte a x y) 0).toNat
  let at_ (k : Nat) : Nat := (a.data.getD (i + k) 0).toNat
  { b := at_ 0, g := at_ 1, r := at_ 2, a := at_ 3 }

/-! ### The display list (R158 to R160) -/

/-- A layer entry. -/
def readLayer (b : List Byte) : Layer :=
  let f := leAt b 3 1
  { kind := leAt b 0 1, z := leAt b 1 1, alpha := leAt b 2 1, vtaps := bitsOf f 1 0, hidden := bitOf f 2 = 1, source := leAt b 4 4,
    srcX := leAt b 8 2, srcY := leAt b 10 2, srcW := leAt b 12 2, srcH := leAt b 14 2,
    dstX := toSigned 16 (leAt b 16 2), dstY := toSigned 16 (leAt b 18 2), dstW := leAt b 20 2, dstH := leAt b 22 2,
    placeholder := leAt b 24 2, curve := leAt b 26 2, matrix := leAt b 28 2, fill := leAt b 32 4,
    reserved := bitsOf f 7 3 ≠ 0 || !zeroAt b 30 2 || !zeroAt b 36 4 }

/-- A Visor region entry. -/
def readRegion (b : List Byte) : Region :=
  { guardZ := leAt b 0 1, x := leAt b 2 2, y := leAt b 4 2, w := leAt b 6 2, h := leAt b 8 2, reserved := !zeroAt b 1 1 || !zeroAt b 10 2 }

/-- A display list from its bytes. -/
def readList (b : List Byte) : DisplayList :=
  let layers := leAt b 1 1
  { version := leAt b 0 1, outputFormat := leAt b 3 1, background := leAt b 4 4, staleLimit := leAt b 8 1, slate := leAt b 10 2,
    reserved := !zeroAt b 9 1 || !zeroAt b 12 20, layers := (entriesAt b 32 40 layers).map readLayer,
    regions := (entriesAt b (32 + 40 * layers) 16 (leAt b 2 1)).map readRegion }

/-! ### Validation (R161) -/

/-- A colour's format: 0 SDR, 1 PQ, 2 HLG (R167). -/
def colourFormat (colour : Nat) : Nat := if bitsOf colour 7 0 = 16 then 1 else if bitsOf colour 7 0 = 18 then 2 else 0

/-- LIST_FORMAT. -/
def listFormat (l : DisplayList) (length : Nat) : Bool :=
  l.version = 1 && l.layers.length ≤ 40 && (l.layers.filter (fun x => x.kind = 0)).length ≤ 32
    && (l.layers.filter (fun x => x.kind = 1)).length ≤ 8 && l.regions.length ≤ 16
    && decide (length = 32 + 40 * l.layers.length + 16 * l.regions.length) && l.outputFormat ≤ 2 && !l.reserved && l.staleLimit ≤ 8
    && decide (l.background < 2 ^ 30) && (l.layers.map (·.z)).Nodup
    && l.layers.all (fun x => x.kind ≤ 1 && x.z ≤ 39 && x.vtaps ≠ 3 && !x.reserved && decide (x.fill < 2 ^ 30)
          && (x.kind = 0 || (x.placeholder = 0xFFFF && decide (x.source < 65536))))
    && l.regions.all (fun r => !r.reserved)

/-- SOURCE_ABSENT does not hold: each stream is in the table, each asset in the generation. -/
def sourcesPresent (s : State) (g : Generation) (l : DisplayList) (streams : Bool) : Bool :=
  let known (id : Nat) : Bool := id = 0xFFFF || (assetOf g id).isSome
  known l.slate
    && l.layers.all (fun x => known x.placeholder && known x.curve && known x.matrix
          && (if x.kind = 0 then !streams || (s.decodes.get x.source).isSome else (assetOf g x.source).isSome))

/-- Rectangles (R159, R160). -/
def rectsValid (s : State) (g : Generation) (l : DisplayList) (streams : Bool) : Bool :=
  l.layers.all (fun x =>
      x.srcX % 2 = 0 && x.srcY % 2 = 0 && x.srcW % 2 = 0 && x.srcH % 2 = 0 && 2 ≤ x.srcW && 2 ≤ x.srcH
        && x.dstX % 2 = 0 && x.dstY % 2 = 0 && x.dstW % 2 = 0 && x.dstH % 2 = 0 && 2 ≤ x.dstW && 2 ≤ x.dstH
        && (if x.kind = 0 then
              !streams || (match s.decodes.get x.source with
                | some d => decide (x.srcX + x.srcW ≤ d.spec.maxWidth) && decide (x.srcY + x.srcH ≤ d.spec.maxHeight)
                | none => false)
            else x.dstW = x.srcW && x.dstH = x.srcH
              && (match assetOf g x.source with
                  | some a => decide (x.srcX + x.srcW ≤ a.width) && decide (x.srcY + x.srcH ≤ a.height)
                  | none => false)))
    && l.regions.all (fun r => r.x % 2 = 0 && r.y % 2 = 0 && r.w % 2 = 0 && r.h % 2 = 0 && 2 ≤ r.w && 2 ≤ r.h)

/-- Scale factors of VIDEO layers. -/
def scalesValid (l : DisplayList) : Bool :=
  l.layers.all (fun x => x.kind ≠ 0 || (x.srcW ≤ 8 * x.dstW && x.dstW ≤ 8 * x.srcW && x.srcH ≤ 8 * x.dstH && x.dstH ≤ 8 * x.srcH))

/-- The format of a layer's samples before conversion: of its stream's pictures, or of its asset. -/
def layerFormat (s : State) (g : Generation) (x : Layer) : Nat :=
  if x.kind = 0 then (((s.decodes.get x.source).bind (·.sequence)).map (fun h => colourFormat (headerColour h))).getD 0
  else ((assetOf g x.source).map (·.colour)).getD 0

/-- Colour paths. -/
def coloursValid (s : State) (g : Generation) (l : DisplayList) (streams : Bool) : Bool :=
  let isKind (id : Nat) (ks : List Nat) : Bool := ((assetOf g id).map (fun a => ks.contains a.kind)).getD false
  l.layers.all (fun x =>
    (x.curve = 0xFFFF || isKind x.curve [2]) && (x.matrix = 0xFFFF || isKind x.matrix [3])
      && (x.placeholder = 0xFFFF || isKind x.placeholder [0, 1]) && (x.kind = 0 || isKind x.source [0, 1])
      && ((x.kind = 0 && !streams) || layerFormat s g x = l.outputFormat || x.curve ≠ 0xFFFF)
      && (x.placeholder = 0xFFFF || ((assetOf g x.placeholder).map (·.colour)).getD 0 = l.outputFormat || x.curve ≠ 0xFFFF))

/-- The part of a layer's destination inside the composite: left, right, top, bottom. -/
def visibleRect (c : CompositeSpec) (x : Layer) : Nat × Nat × Nat × Nat :=
  (x.dstX.toNat, (min (c.width : Int) (x.dstX + x.dstW)).toNat, x.dstY.toNat, (min (c.height : Int) (x.dstY + x.dstH)).toNat)

/-- The layer that guards a region. -/
def guardOf (l : DisplayList) (r : Region) : Option Layer := l.layers.find? (fun x => x.z = r.guardZ)

def regionsGuarded (c : CompositeSpec) (l : DisplayList) : Bool :=
  l.regions.all (fun r => match guardOf l r with
    | some x =>
      let v := visibleRect c x
      x.kind = 1 && x.alpha = 255 && !x.hidden && decide (v.1 ≤ r.x) && decide (r.x + r.w ≤ v.2.1) && decide (v.2.2.1 ≤ r.y) && decide (r.y + r.h ≤ v.2.2.2)
    | none => false)

def regionsOpaque (g : Generation) (l : DisplayList) : Bool :=
  l.regions.all (fun r => match guardOf l r with
    | some x =>
      (match assetOf g x.source with
       | some a => (List.range r.h).all (fun dy => (List.range r.w).all (fun dx =>
           (argbAt a (x.srcX + ((r.x + dx : Nat) - x.dstX).toNat) (x.srcY + ((r.y + dy : Nat) - x.dstY).toNat)).a = 255))
       | none => false)
    | none => false)

def regionsClear (l : DisplayList) : Bool :=
  l.regions.all (fun r => l.layers.all (fun x =>
    decide (x.z ≤ r.guardZ) || !(decide (x.dstX < (r.x + r.w : Nat)) && decide ((r.x : Int) < x.dstX + x.dstW)
      && decide (x.dstY < (r.y + r.h : Nat)) && decide ((r.y : Int) < x.dstY + x.dstH))))

/-- The detail of R161 for a display list, 0 if it is valid. Revalidation against a new generation leaves out what concerns decode
streams alone (R174). -/
def layoutDetail (s : State) (c : CompositeSpec) (l : DisplayList) (length : Nat) (streams : Bool) : Nat :=
  let g := s.trust.current
  if !listFormat l length then 1
  else if !sourcesPresent s g l streams then 2
  else if !rectsValid s g l streams then 3
  else if !scalesValid l then 4
  else if !coloursValid s g l streams then 5
  else if !regionsGuarded c l then 6
  else if !regionsOpaque g l then 7
  else if !regionsClear l then 8
  else if 1048576 < (l.regions.map (fun r => r.w * r.h)).sum then 9
  else 0

/-- The length of a list in bytes. -/
def listLength (l : DisplayList) : Nat := 32 + 40 * l.layers.length + 16 * l.regions.length

/-! ### CRCs (R172) -/

/-- One byte into a CRC-32C register. -/
def crcByte (c : Nat) (b : Nat) : Nat :=
  (List.range 8).foldl (fun c _ => if c % 2 = 1 then (c / 2) ^^^ 0x82F63B78 else c / 2) (c ^^^ b)

/-- A 16-bit little-endian value into a CRC-32C register. -/
def crcWord (c v : Nat) : Nat := crcByte (crcByte c (v % 256)) (v / 256 % 256)

/-- The value that a register gives at the end. -/
def crcFinal (c : Nat) : Nat := c ^^^ 0xFFFFFFFF

/-! ### Colour (R167, R168) -/

/-- One sample position after scaling and colour: Y', Cb, Cr in 10 bits and the pixel's own alpha. -/
structure Pixel where
  y : Nat
  cb : Nat
  cr : Nat
  a : Nat
  deriving DecidableEq, Repr

/-- A colour as BACKGROUND and FILL code it. -/
def colourOf (v : Nat) : Pixel := { y := bitsOf v 9 0, cb := bitsOf v 19 10, cr := bitsOf v 29 20, a := 255 }

/-- The primaries of a COLOUR field: 1 BT.2020, 0 BT.709; its matrix: 0 BT.709, 1 BT.2020, 2 BT.601; and its range (R167). -/
def colourPrimaries (colour : Nat) : Nat := if bitsOf colour 15 8 = 9 then 1 else 0
def colourMatrix (colour : Nat) : Nat :=
  let m := bitsOf colour 23 16
  if m = 9 || m = 10 then 1 else if m = 5 || m = 6 then 2 else 0
def colourFull (colour : Nat) : Bool := bitOf colour 24 = 1

/-- The primaries and the matrix of an output format (R158, R168). -/
def formatPrimaries (format : Nat) : Nat := if format = 0 then 0 else 1

/-- Three components. -/
abbrev Triple := Int × Int × Int

/-- A function applied to each component. -/
def eachOf (f : Int → Int) (c : Triple) : Triple := (f c.1, f c.2.1, f c.2.2)

/-- A matrix of 9 values with 16 fraction bits, row by row, applied to linear components. -/
def applyMatrix (m : List Int) (c : Triple) : Triple :=
  let row (k : Nat) : Int := Config.roundFraction (m.getD (3 * k) 0 * c.1 + m.getD (3 * k + 1) 0 * c.2.1 + m.getD (3 * k + 2) 0 * c.2.2)
  (row 0, row 1, row 2)

/-- The values of a GAMUT_MATRIX asset, and those of a TONE_CURVE. -/
def matrixValues (a : Asset) : List Int := (List.range 9).map (fun k => toSigned 32 (leAt a.data (4 * k) 4))
def curveValue (a : Asset) (k : Nat) : Nat := leAt a.data (2 * k) 2

/-- Step 3 of R168: the primaries are converted, and negative components clipped. -/
def convertPrimaries (g : Generation) (matrix source out : Nat) (c : Triple) : Triple :=
  let m := match assetOf g matrix with
    | some a => some (matrixValues a)
    | none => if source = out then none else some (Config.gamutMatrix (decide (out = 1)))
  eachOf (max 0) (match m with
    | some m => applyMatrix m c
    | none => c)

/-- Step 4 of R168: luminance is mapped through the curve, by linear interpolation between its entries. -/
def mapTone (g : Generation) (curve format : Nat) (c : Triple) : Triple :=
  match assetOf g curve with
  | none => c
  | some a =>
    let v := min 65536 (Config.luminancePq (formatPrimaries format) c)
    let i := min 63 (v / 1024)
    let lo : Int := curveValue a i
    let hi : Int := curveValue a (i + 1)
    let w := (Config.roundFraction (65536 * lo + (hi - lo) * 64 * ((v : Int) - 1024 * i))).toNat
    eachOf (min (Config.outputPeak format)) (Config.scaleLuminance v w c)

/-- Steps 2 to 5 of R168 from R'G'B' of a transfer and primaries to Y'CbCr of the output format; steps 2 to 4 and the output transfer are skipped where the
formats match. -/
def finishColour (g : Generation) (x : Layer) (format transfer primaries : Nat) (rgb : Triple) : Nat × Nat × Nat :=
  if transfer = format && primaries = formatPrimaries format then Config.fromRgb format rgb
  else
    let lin := convertPrimaries g x.matrix primaries (formatPrimaries format) (Config.linearised transfer rgb)
    Config.fromRgb format (Config.delinearised format (mapTone g x.curve format lin))

/-- The colour path of a picture's sample (R168): it passes unchanged where transfer, primaries, matrix and range are those of the output (log 131). -/
def pictureColour (g : Generation) (x : Layer) (format colour : Nat) (v : Nat × Nat × Nat) : Pixel :=
  let same := colourFormat colour = format && colourPrimaries colour = formatPrimaries format && colourMatrix colour = formatPrimaries format && !colourFull colour
  let r := if same then v
    else finishColour g x format (colourFormat colour) (colourPrimaries colour) (Config.toRgb (colourMatrix colour) (colourFull colour) v)
  { y := r.1, cb := r.2.1, cr := r.2.2, a := 255 }

/-- The colour path of an asset's pixel: its R'G'B' values are 4 x the stored 8 bits, full range (R167). -/
def assetColour (g : Generation) (x : Layer) (format : Nat) (a : Asset) (p : Argb) : Pixel :=
  let r := finishColour g x format a.colour (formatPrimaries a.colour) (((4 * p.r : Nat) : Int), ((4 * p.g : Nat) : Int), ((4 * p.b : Nat) : Int))
  { y := r.1, cb := r.2.1, cr := r.2.2, a := p.a }

/-! ### Scaling (R165, R166) -/

/-- The vertical decimation of a layer. -/
def decimation (x : Layer) : Nat := if x.dstH < x.srcH then ceilDiv x.srcH x.dstH else 1

/-- The vertical taps that VTAPS asks for. -/
def tapsOf (x : Layer) : Nat := if x.vtaps = 0 then 8 else if x.vtaps = 1 then 4 else 2

/-- The vertical taps that fit the line buffer: halved, down to 2, while the span does not fit (R166). -/
def fittedTaps (x : Layer) : Nat :=
  let fits (n : Nat) : Bool := decide (x.srcW * (n * decimation x) ≤ 32768)
  if fits (tapsOf x) || tapsOf x = 2 then tapsOf x else if fits (tapsOf x / 2) || tapsOf x = 4 then tapsOf x / 2 else 2

/-- Whether a layer's taps are halved, and whether even two taps do not fit. -/
def tapsReduced (x : Layer) : Bool := decide (fittedTaps x < tapsOf x)
def lineShort (x : Layer) : Bool := decide (32768 < x.srcW * 2 * decimation x)

/-- The 16.16 accumulator of an axis at destination sample `d`: its source sample and its phase of 64. -/
def scalePhase (src dst d : Nat) : Nat × Nat :=
  let acc := d * (src * 65536 / max 1 dst)
  (acc / 65536, acc % 65536 / 1024)

/-- The source samples under `n` taps around sample `at_` of a crop of `size` samples; those outside it are its edge samples. -/
def tapPlaces (n at_ size : Nat) : List Nat := (List.range n).map (fun k => min (size - 1) (at_ + k + 1 - n / 2))

/-- One axis of a plane's crop: its first sample, its size and the destination's. -/
structure Axis where
  from_ : Nat
  size : Nat
  dst : Nat
  deriving DecidableEq, Repr

/-- The axes of a plane of a layer: the chroma planes are half as large. -/
def axesOf (x : Layer) (plane : Nat) : Axis × Axis :=
  if plane = 0 then ({ from_ := x.srcX, size := x.srcW, dst := x.dstW }, { from_ := x.srcY, size := x.srcH, dst := x.dstH })
  else ({ from_ := x.srcX / 2, size := x.srcW / 2, dst := x.dstW }, { from_ := x.srcY / 2, size := x.srcH / 2, dst := x.dstH })

/-- The source lines that give destination line `dy` of a plane. -/
def sourceLines (x : Layer) (plane dy : Nat) : List Nat :=
  let v := (axesOf x plane).2
  (tapPlaces (fittedTaps x * decimation x) (scalePhase v.size v.dst dy).1 v.size).map (fun k => v.from_ + k)

/-- Sample (dx, dy) of a plane at the destination size, from a plane read by `at_`; none where a sample under the taps came back poisoned. -/
def scaledAt (x : Layer) (plane dx dy : Nat) (at_ : Nat → Nat → Option Nat) : Option Nat :=
  let h := (axesOf x plane).1
  let v := (axesOf x plane).2
  let hp := scalePhase h.size h.dst dx
  let line (y : Nat) : Option Nat :=
    ((tapPlaces 8 hp.1 h.size).mapM (fun k => at_ (h.from_ + k) y)).map (fun l => Config.scaledSample false 8 hp.2 h.size h.dst l)
  ((sourceLines x plane dy).mapM line).map (fun l => Config.scaledSample true (fittedTaps x) (scalePhase v.size v.dst dy).2 v.size v.dst l)

/-! ### Drawing (R164, R169, R173, R175) -/

/-- What a layer gives a position: a pixel that it draws, or its FILL where its source came back poisoned. -/
inductive Drawn where
  | pixel (p : Pixel)
  | poisoned
  deriving DecidableEq, Repr

/-- Whether a layer's picture block, or a piece of its asset, comes back poisoned in a band. -/
def poisonedIn (w : BandWork) (z k : Nat) : Bool := w.poisoned.contains (z, k)

/-- Sample (x, y) of a plane of a held picture in a band. -/
def heldSample (s : State) (w : BandWork) (z b plane x y : Nat) : Option Nat :=
  if poisonedIn w z (samplePlace (((s.buffers.get b).map (·.width)).getD 0) plane x y).1 then none else sampleAt s b plane x y

/-- A pixel of an asset drawn by a layer in a band; none outside the asset. -/
def assetPixel (g : Generation) (x : Layer) (format : Nat) (w : BandWork) (id px py : Nat) : Option Drawn :=
  match assetOf g id with
  | some a =>
    if a.width ≤ px || a.height ≤ py then none
    else if poisonedIn w x.z (pixelByte a px py / 64) then some .poisoned
    else some (.pixel (assetColour g x format a (argbAt a px py)))
  | none => none

/-- What a VIDEO layer of a frame shows. -/
def showOf (j : CompFrame) (x : Layer) : Option LayerShow := (j.shows.find? (fun e => e.1 = x.z)).map (fun e => e.2)

/-- What a layer shows at (dx, dy) of its destination, in the output format. -/
def layerPixel (s : State) (g : Generation) (j : CompFrame) (w : BandWork) (x : Layer) (dx dy : Nat) : Drawn :=
  let format := j.list.outputFormat
  let fill := Drawn.pixel (colourOf x.fill)
  if x.kind = 0 then
    match showOf j x with
    | some (.held b) =>
      let at_ (plane : Nat) : Option Nat := scaledAt x plane dx dy (heldSample s w x.z b plane)
      let colour := ((s.buffers.get b).map (·.colour)).getD 0
      (match at_ 0, at_ 1, at_ 2 with
       | some y, some cb, some cr => .pixel (pictureColour g x format colour (y, cb, cr))
       | _, _, _ => .poisoned)
    | some .placeholder => (assetPixel g x format w x.placeholder dx dy).getD fill
    | _ => fill
  else (assetPixel g x format w x.source (x.srcX + dx) (x.srcY + dy)).getD fill

/-- The slate as a layer: unscaled, centred, over nothing but BACKGROUND. -/
def slateLayer (c : CompositeSpec) (l : DisplayList) (a : Asset) : Layer :=
  { kind := 1, z := 0, alpha := 255, vtaps := 0, hidden := false, source := l.slate, srcX := 0, srcY := 0, srcW := a.width, srcH := a.height,
    dstX := ((c.width : Int) - a.width) / 2, dstY := ((c.height : Int) - a.height) / 2, dstW := a.width, dstH := a.height,
    placeholder := 0xFFFF, curve := 0xFFFF, matrix := 0xFFFF, fill := l.background, reserved := false }

/-- The layers that a frame draws, by ascending Z: the slate alone in a slate frame, and no HIDDEN layer. -/
def drawnLayers (g : Generation) (c : CompositeSpec) (j : CompFrame) : List Layer :=
  if j.slate then ((assetOf g j.list.slate).map (fun a => slateLayer c j.list a)).toList
  else sortBy (fun x => (x.z : Int)) (j.list.layers.filter (fun x => !x.hidden))

/-- What a layer gives position (px, py) of the output: none outside its destination. -/
def layerAt (s : State) (g : Generation) (j : CompFrame) (w : BandWork) (x : Layer) (px py : Nat) : Option Drawn :=
  if x.dstX ≤ (px : Int) && decide ((px : Int) < x.dstX + x.dstW) && x.dstY ≤ (py : Int) && decide ((py : Int) < x.dstY + x.dstH) then
    some (layerPixel s g j w x ((px : Int) - x.dstX).toNat ((py : Int) - x.dstY).toNat)
  else none

/-- One component blended. -/
def blendOne (a top below : Nat) : Nat := (a * top + (255 - a) * below + 127) / 255

/-- A layer's pixel over what lies below. -/
def blend (x : Layer) (p below : Pixel) : Pixel :=
  let a := if x.kind = 0 then x.alpha else (p.a * x.alpha + 127) / 255
  { y := blendOne a p.y below.y, cb := blendOne a p.cb below.cb, cr := blendOne a p.cr below.cr, a := 255 }

/-- The composed pixel at a position. -/
def composedAt (s : State) (g : Generation) (c : CompositeSpec) (j : CompFrame) (w : BandWork) (px py : Nat) : Pixel :=
  (drawnLayers g c j).foldl (fun below x =>
    match layerAt s g j w x px py with
    | some (.pixel p) => blend x p below
    | some .poisoned => blend x (colourOf x.fill) below
    | none => below) (colourOf j.list.background)

/-- Whether poisoned data lies under a position. -/
def poisonedAt (s : State) (g : Generation) (c : CompositeSpec) (j : CompFrame) (w : BandWork) (px py : Nat) : Bool :=
  (drawnLayers g c j).any (fun x => layerAt s g j w x px py = some .poisoned)

/-- The mean of a 2 x 2 quad, halves rounded up. -/
def quadMean (a b c d : Nat) : Nat := (a + b + c + d + 2) / 4

/-- One quad into a CRC. -/
def crcQuad (crc : Nat) (p00 p01 p10 p11 : Pixel) : Nat :=
  [p00.y, p01.y, p10.y, p11.y, quadMean p00.cb p01.cb p10.cb p11.cb, quadMean p00.cr p01.cr p10.cr p11.cr].foldl crcWord crc

/-- The quads of the lines `y0` up to `y1` of a region, in raster order, into a CRC. -/
def crcRegion (crc : Nat) (r : Region) (y0 y1 : Nat) (at_ : Nat → Nat → Pixel) : Nat :=
  (List.range ((y1 - y0) / 2)).foldl (fun crc j => (List.range (r.w / 2)).foldl (fun crc i =>
    let x := r.x + 2 * i
    let y := y0 + 2 * j
    crcQuad crc (at_ x y) (at_ (x + 1) y) (at_ x (y + 1)) (at_ (x + 1) (y + 1))) crc) crc

/-- The signature of a region (R172): its guarding asset drawn alone through its layer's colour path. -/
def signatureOf (g : Generation) (l : DisplayList) (r : Region) : Nat :=
  let at_ (px py : Nat) : Pixel :=
    match guardOf l r with
    | some x =>
      (match assetPixel g x l.outputFormat { poisoned := [], writes := [], failed := false } x.source (x.srcX + ((px : Int) - x.dstX).toNat)
          (x.srcY + ((py : Int) - x.dstY).toNat) with
       | some (.pixel p) => p
       | _ => colourOf x.fill)
    | none => colourOf 0
  crcFinal (crcRegion 0xFFFFFFFF r r.y (r.y + r.h) at_)

/-- A display list with its signatures for a generation. -/
def signList (g : Generation) (l : DisplayList) : SignedList := { list := l, signatures := l.regions.map (signatureOf g l), generation := g.number }

/-! ### Taking pictures (R163, R164, R166) -/

/-- The buffer that a layer may show at local time `b`, if its picture passes the staleness test. -/
def freshPicture (s : State) (l : DisplayList) (x : Layer) : Option Nat :=
  match s.decodes.get x.source with
  | none => none
  | some d =>
    match d.current with
    | none => none
    | some b =>
      match s.buffers.get b with
      | none => none
      | some y =>
        let limit := orDefault l.staleLimit (rd s Reg.VEIL.VEIL_CONFIG_STALE_LIMIT)
        let last := y.completed + limit * (8000 / max 1 d.spec.rate) * Config.tickNs
        if !earlier s.time.boundaryAt y.completed && earlier s.time.boundaryAt last then some b else none

/-- A VIDEO layer takes its picture or shows its placeholder. -/
def takePicture (i : Nat) (l : DisplayList) (s : State) (x : Layer) : State :=
  match freshPicture s l x with
  | some b => updComp (takeHold s b) i (fun c => { c with shows := c.shows ++ [(x.z, .held b)], placeholderRun := c.placeholderRun.erase x.z })
  | none =>
    let running := ((s.composites.get i).map (fun c => c.placeholderRun.contains x.z)).getD false
    let s := bump s Reg.VEIL.PLACEHOLDERS
    let s := if running then s else raise s Reg.VEIL.VEIL_EVENTS_STALE_PLACEHOLDER
    updComp s i (fun c => { c with shows := c.shows ++ [(x.z, .placeholder)], placeholderRun := if running then c.placeholderRun else c.placeholderRun ++ [x.z] })

/-- The buffer that an entry of the shows holds. -/
def LayerShow.buffer : LayerShow → Option Nat
  | .held b => some b
  | .fillOnly b => some b
  | .placeholder => none

/-- Every hold of a list of shows is released. -/
def dropShows (s : State) (shows : List (Nat × LayerShow)) : State := (shows.filterMap (fun e => e.2.buffer)).foldl dropHold s

/-- The visible VIDEO layers, by Z. -/
def videoLayers (l : DisplayList) : List Layer := sortBy (fun x => (x.z : Int)) (l.layers.filter (fun x => x.kind = 0 && !x.hidden))

/-- The pictures of a frame are taken, and the holds of the frame before are released. -/
def takePictures (s : State) (i : Nat) (l : DisplayList) : State :=
  let old := ((s.composites.get i).map (·.shows)).getD []
  let s := updComp s i (fun c => { c with shows := [], placeholderRun := c.placeholderRun.filter (fun z => (videoLayers l).any (fun x => x.z = z)) })
  dropShows ((videoLayers l).foldl (takePicture i l) s) old

/-- The line buffer test of a frame (R166). -/
def lineBuffers (s : State) (i : Nat) (l : DisplayList) : State :=
  match s.composites.get i with
  | none => s
  | some c =>
    let held (x : Layer) : Bool := c.shows.any (fun e => e.1 = x.z && e.2.buffer.isSome)
    let drawn := (videoLayers l).filter held
    let s := if drawn.any tapsReduced then bump s Reg.VEIL.TAPS_REDUCED else s
    let short := drawn.filter lineShort
    let s := if short.isEmpty then s else raise (bumpBy s Reg.VEIL.LINE_BUFFER_SHORT short.length) Reg.VEIL.VEIL_EVENTS_LINE_BUFFER_SHORT
    updComp s i (fun c => { c with shows := c.shows.map (fun e =>
      if short.any (fun x => x.z = e.1) then (e.1, match e.2.buffer with
        | some b => LayerShow.fillOnly b
        | none => e.2) else e) })

/-! ### Frames -/

/-- The COLOUR of a published buffer: limited range, in the codes of R167. -/
def outputColour (format : Nat) : Nat :=
  if format = 1 then 16 + 256 * 9 + 65536 * 9 else if format = 2 then 18 + 256 * 9 + 65536 * 9 else 1 + 256 + 65536

/-- A composite that drains has no frame left: its holds and its marks go. -/
def quietComposite (s : State) (i : Nat) : State :=
  match s.composites.get i with
  | none => s
  | some c =>
    if c.state = .draining && c.job.isNone then
      clearMarks (updComp (dropShows s c.shows) i (fun c => { c with shows := [], current := none })) (compStream i)
    else s

/-- The frame in flight has ended: the first that waits begins, at its own schedule (R63). -/
def endFrame (s : State) (i : Nat) : State :=
  quietComposite (updComp s i (fun c => { c with job := c.queue.head?, queue := c.queue.drop 1, lateRun := 0 })) i

/-- A frame is withheld, its buffer and its counters (R173); `run` says that VISOR_RUN counts it. -/
def countWithheld (s : State) (i : Nat) (j : CompFrame) (run : Bool) : State :=
  let s := updBuffer s j.buffer (fun b => { b with state := .freeing })
  let s := updComp s i (fun c => { c with withheld := c.withheld + 1, visorRun := if run then min 3 (c.visorRun + 1) else c.visorRun })
  raise (bump (bump s Reg.VEIL.FRAMES_WITHHELD) Reg.VEIL.VISOR_MISMATCHES) Reg.VEIL.VEIL_EVENTS_VISOR_MISMATCH

/-- The frame in flight is withheld: for a mismatch, or, without a change of VISOR_RUN, dropped late (R170) or for a fault (R175). -/
def withhold (s : State) (i : Nat) (j : CompFrame) (run : Bool) : State := endFrame (countWithheld s i j run) i

/-- A frame is published (R171). -/
def publish (s : State) (i : Nat) (c : Composite) (j : CompFrame) : State :=
  let s := match c.current with
    | some o => updBuffer s o (fun b => { b with current := false })
    | none => s
  let s := updBuffer s j.buffer (fun b => { b with state := .complete, current := true, completed := now s, flags := b2n j.concealed })
  let s := updComp s i (fun c => { c with current := some j.buffer, frames := c.frames + 1, visorRun := if j.slate then c.visorRun else 0 })
  endFrame (sweepBuffers (bump s Reg.VEIL.FRAMES_COMPOSED)) i

/-- The last band has been composed: the verdict (R171, R173). -/
def verdict (s : State) (i : Nat) (c : Composite) (j : CompFrame) : State :=
  if j.slate || decide (j.crcs.map crcFinal = j.signatures) then publish s i c j else withhold s i j true

/-- A frame begins: it takes a buffer, or it is skipped (R157). -/
def beginComposition (s : State) (i : Nat) (c : Composite) (l : SignedList) (slate : Bool) : State :=
  let within := (buffersOf s (compStream i)).length < 2 + rd s Reg.VEIL.VEIL_CONFIG_COMPOSITE_SLACK
  match if within then freeBuffer s c.spec.pool else none with
  | none => raise (bump (updComp s i (fun c => { c with skipped := c.skipped + 1 })) Reg.VEIL.FRAMES_SKIPPED) Reg.VEIL.VEIL_EVENTS_FRAME_SKIPPED
  | some b =>
    let s := if slate then s else lineBuffers s i l.list
    let shows := ((s.composites.get i).map (·.shows)).getD []
    let concealed := !slate && shows.any (fun e => match e.2 with
      | .held h => ((s.buffers.get h).map (fun y => decide (bitOf y.flags 0 = 1))).getD false
      | _ => false)
    let x : Buffer :=
      { state := .decoding, shortTerm := false, longTerm := false, current := false, slots := 0, flags := 0, holders := 0, stream := compStream i,
        width := c.spec.width, height := c.spec.height, colour := outputColour l.list.outputFormat, picture := c.pictures, completed := 0 }
    let j : CompFrame :=
      { sched := Schedule.from s.time.boundaries (8000 / max 1 c.spec.rate / 2) (CompositeSpec_bands c.spec) 1, generation := s.trust.current.number, buffer := b,
        list := l.list, signatures := l.signatures, shows := if slate then [] else shows, crcs := if slate then [] else l.list.regions.map (fun _ => 0xFFFFFFFF),
        concealed := concealed, slate := slate }
    updComp (clearStatistics { s with buffers := s.buffers.put b x } b) i (fun c =>
      if c.job.isSome then { c with pictures := c.pictures + 1, queue := c.queue ++ [j] } else { c with pictures := c.pictures + 1, job := some j, lateRun := 0 })

/-- A display list whose time has come takes effect (R161). -/
def adoptList (s : State) (i : Nat) : State :=
  updComp s i (fun c => match c.signed with
    | some l => if c.listReadyAt < s.time.boundaries then
        { c with inForce := some l, signed := none, state := .running, visorRun := 0, listCount := c.listCount + 1, slateDue := false }
      else c
    | none => c)

/-- At a frame boundary the list meets a new generation's assets (R174): it is valid no more and the composite shows its slate, or its signatures are computed anew,
before band 0. -/
def revalidate (s : State) (i : Nat) : State :=
  match s.composites.get i with
  | none => s
  | some c =>
    match c.inForce with
    | none => s
    | some l =>
      if c.state ≠ .running || l.generation = s.trust.current.number then s
      else if layoutDetail s c.spec l.list (listLength l.list) false ≠ 0 then
        raise (bump (updComp s i (fun c => { c with state := .slate })) Reg.VEIL.LIST_INVALID) Reg.VEIL.VEIL_EVENTS_LIST_INVALID
      else updComp s i (fun c => { c with inForce := some (signList s.trust.current l.list) })

/-- The composite frame boundary of a composite. -/
def compositeBoundary (s : State) (i : Nat) : State :=
  let s := adoptList s i
  let s := updComp s i (fun c => if c.slateDue && c.state = .running then { c with state := .slate, slateDue := false } else c)
  let s := revalidate s i
  match s.composites.get i with
  | none => s
  | some c =>
    match c.inForce with
    | none => s
    | some l =>
      if c.state = .running then
        let s := takePictures s i l.list
        beginComposition s i ((s.composites.get i).getD c) l false
      else if c.state = .slate then
        let s := updComp (dropShows s c.shows) i (fun c => { c with shows := [], placeholderRun := [] })
        beginComposition s i ((s.composites.get i).getD c) l true
      else s

/-- COMPOSITE_FRAME_BOUNDARY: a frame boundary of a composite falls at the boundary that began this tick (R156, R163). -/
def execCompositeFrameBoundary (i : Nat) (s : State) : Host.Outcome State Fault Refusal :=
  match s.composites.get i with
  | none => ok s
  | some c =>
    if inService s && (c.state = .idle || c.state = .running || c.state = .slate) && inServiceEngine s 2 c.veil && frameDue s c.spec.rate c.spec.phase
        && onceDue s (0x400000 + i) then
      ok (compositeBoundary (markOnce s (0x400000 + i)) i)
    else ok s

/-! ### Signatures (R172) -/

/-- SIGNATURES_COMPUTED: the Veil has computed the signatures of a list that set-layout has given, and the completion is written (R161, R172). -/
def execSignaturesComputed (i veil : Nat) (s : State) : Host.Outcome State Fault Refusal :=
  match s.composites.get i with
  | none => ok s
  | some c =>
    if !(inService s && inServiceEngine s 2 c.veil && c.veil = veil) then ok s
    else
      match c.awaiting with
      | some l =>
        let s := updComp s i (fun c => { c with awaiting := none, signed := some (signList s.trust.current l) })
        match deferredOf s 0x13 i with
        | some d => ok (finish s d 0 0 0)
        | none => ok s
      | none => ok s

/-! ### Failures (R175) and bands (R170) -/

/-- A composite's frame is dropped late, or cancelled: it is withheld without a change of VISOR_RUN. -/
def dropComposite (s : State) (i : Nat) : State :=
  match (s.composites.get i).bind (·.job) with
  | some j => withhold s i j false
  | none => s

/-- The frames of a generation that wait behind the one in flight are cancelled, and count as withheld. -/
def dropWaiting (s : State) (i g : Nat) : State :=
  match s.composites.get i with
  | some c =>
    let s := (c.queue.filter (fun j => j.generation = g)).foldl (fun s j => countWithheld s i j false) s
    updComp s i (fun c => { c with queue := c.queue.filter (fun j => j.generation ≠ g) })
  | none => s

/-- An engine reset of a Veil cancels its frames in flight. -/
def resetVeil (s : State) (veil : Nat) : State :=
  (s.composites.filter (fun e => e.2.veil = veil && e.2.job.isSome)).foldl (fun s e => dropComposite s e.1) (engineRegs s 2 veil)

/-- A failure of a Veil. -/
def veilFailure (s : State) (veil : Nat) : State :=
  let r := countFailure s 2 veil
  if r.2 then resetVeil r.1 veil else r.1

/-- The CRCs of the regions after a band; a region over poisoned data takes a value that no signature has. -/
def bandCrcs (s : State) (g : Generation) (c : CompositeSpec) (j : CompFrame) (w : BandWork) : List Nat :=
  let top := 16 * j.sched.next
  j.crcs.mapIdx (fun k crc => match j.list.regions[k]? with
    | some r =>
      let y0 := max top r.y
      let y1 := min (min (top + 16) c.height) (r.y + r.h)
      if 2 ^ 32 ≤ crc || (List.range (y1 - y0)).any (fun dy => (List.range r.w).any (fun dx => poisonedAt s g c j w (r.x + dx) (y0 + dy))) then 2 ^ 32
      else crcRegion crc r y0 y1 (composedAt s g c j w)
    | none => crc)

/-- The source blocks, or pieces of an asset, that a layer reads for the lines of a band. -/
def bandReads (s : State) (g : Generation) (c : CompositeSpec) (j : CompFrame) (top : Nat) (x : Layer) : List (Option Nat × Nat) :=
  let rows := (List.range 16).filterMap (fun k =>
    let dy := ((top + k : Nat) : Int) - x.dstY
    if top + k < c.height && 0 ≤ dy && dy < x.dstH then some dy.toNat else none)
  let asset (id width from_ : Nat) (at_ : Nat) : List (Option Nat × Nat) :=
    match assetOf g id with
    | some a => (rows.flatMap (fun dy => (List.range (min width a.width)).map (fun dx => (none, pixelByte a (at_ + dx) (from_ + dy) / 64)))).eraseDups
    | none => []
  if x.kind = 0 then
    match showOf j x with
    | some (.held b) =>
      let width := ((s.buffers.get b).map (·.width)).getD 0
      ((rows.flatMap (sourceLines x 0)).flatMap (fun y =>
        (List.range (ceilDiv (x.srcX + x.srcW) 16 - x.srcX / 16)).map (fun k => (some b, (samplePlace width 0 (16 * (x.srcX / 16 + k)) y).1)))).eraseDups
    | some .placeholder => asset x.placeholder x.dstW 0 0
    | _ => []
  else asset x.source x.srcW x.srcY x.srcX

/-- How many of them come back poisoned (POISON_FILLS). -/
def poisonFills (s : State) (g : Generation) (c : CompositeSpec) (j : CompFrame) (w : BandWork) : Nat :=
  ((drawnLayers g c j).map (fun x => ((bandReads s g c j (16 * j.sched.next) x).filter (fun r =>
    poisonedIn w x.z r.2 || r.1.any (fun b => blockPoisoned s b r.2))).length)).sum

/-- The blocks of a band are written (R169): Y' of each position, and for each 2 x 2 quad the mean of Cb and of Cr, with the edges repeated (R137). -/
def writeBand (s : State) (g : Generation) (c : CompositeSpec) (j : CompFrame) (w : BandWork) : State :=
  let band := j.sched.next
  let at_ (plane x y : Nat) : Nat :=
    if plane = 0 then (composedAt s g c j w x y).y
    else
      let p (dx dy : Nat) : Pixel := composedAt s g c j w (2 * x + dx) (2 * y + dy)
      if plane = 1 then quadMean (p 0 0).cb (p 1 0).cb (p 0 1).cb (p 1 1).cb else quadMean (p 0 0).cr (p 1 0).cr (p 0 1).cr (p 1 1).cr
  (List.range (blocksAlong c.width)).foldl (fun t bx =>
    writeBlock t j.buffer (band * blocksAlong c.width + bx) (pictureBlock c.width c.height bx band at_)) s

/-- VEIL_BAND_JOB: the next band of a composite's frame is composed. -/
def execVeilBandJob (i : Nat) (w : BandWork) (s : State) : Host.Outcome State Fault Refusal :=
  match s.composites.get i with
  | none => ok s
  | some c =>
    match c.job with
    | none => ok s
    | some j =>
      if !(inService s && j.sched.due s && decide (c.lateRun < 3) && inServiceEngine s 2 c.veil && !s.faults.resetting.contains (engineId 2 c.veil)) then ok s
      else if w.failed || w.writes.any (fun x => !writeAllowed s j.buffer x.1 x.2.length) then ok (veilFailure (withhold s i j false) c.veil)
      else
        let g := generationOf s j.generation
        let t := writeBand (bumpBy s Reg.VEIL.POISON_FILLS (poisonFills s g c.spec j w)) g c.spec j w
        let t := w.writes.foldl (fun t x => store t x.1 x.2) t
        let j := { j with crcs := bandCrcs s g c.spec j w, sched := j.sched.done }
        if j.sched.next = j.sched.total then ok (verdict t i c j)
        else ok (updComp t i (fun c => { c with job := some j }))

/-- VISOR_FAIL: VISOR_RUN has reached 3; the composite shows its slate from its next boundary. -/
def execVisorFail (i : Nat) (s : State) : Host.Outcome State Fault Refusal :=
  match s.composites.get i with
  | none => ok s
  | some c =>
    if inService s && c.state = .running && c.visorRun = 3 && !c.slateDue then
      ok (raise (bump (updComp s i (fun c => { c with slateDue := true })) Reg.VEIL.VISOR_FAILS) Reg.VEIL.VEIL_EVENTS_VISOR_FAIL)
    else ok s

/-! ### Tick boundaries and releases -/

/-- A composite's admission takes effect. -/
def activateComposite (s : State) (i : Nat) : State := updComp s i (fun c => if c.state = .admitted then { c with state := .idle } else c)

/-- Lateness of composites at the end of a tick of boundary count `n` (R62, R63). -/
def compositeLateness (s : State) (n : Nat) : State :=
  let late (c : Composite) : Nat := ((c.job.toList ++ c.queue).map (fun j => j.sched.lateCount n)).sum
  let counts := (List.range 16).map (fun v => (v, ((s.composites.filter (fun e => e.2.veil = v)).map (fun e => late e.2)).sum))
  let s := { s with composites := s.composites.all (fun _ (c : Composite) =>
    if 0 < late c then { c with lateRun := c.lateRun + 1, job := c.job.map (fun j => { j with sched := j.sched.moved }) } else { c with lateRun := 0 }) }
  counts.foldl (fun s e => lateJobs s (Reg.VEIL.OVERRUN.at e.1) e.2) s

/-- The release of a composite itself: no further frame begins. A set-layout that has not taken effect ends. -/
def drainComposite (s : State) (i : Nat) : State :=
  let s := match s.composites.get i with
    | some c => c.queue.foldl (fun s j => updBuffer s j.buffer (fun b => { b with state := .freeing })) s
    | none => s
  quietComposite (updComp s i (fun c => { c with state := .draining, queue := [], signed := none, slateDue := false })) i

/-- Draining composites whose last buffer is FREE become FREE, and their charges go. -/
def endComposites (s : State) : State :=
  (s.composites.filter (fun e => e.2.state = .draining && e.2.job.isNone && (buffersOf s (compStream e.1)).isEmpty)).foldl
    (fun s e => dropCharges { s with composites := s.composites.del e.1 } 4 e.1) s

end Sys2Proof.Machine
end

