-- ==== Sys2Proof/Machine/Motion.lean ====
section
/-!
DEFINITION. The encoder's source and references, motion search and mode decision (R178, R180, R191 to R195, R199). Samples are read from near memory; what the
codecs' standards define (interpolation, the bits of a vector, SATD) is in Config.
-/

namespace Sys2Proof.Machine

/-! ### Layers (R179, R180, R186) -/

/-- Spatial and temporal layers of a structure (R179). -/
def spatialLayers (structure_ : Nat) : Nat := bitsOf structure_ 3 0
def temporalLayers (structure_ : Nat) : Nat := bitsOf structure_ 7 4

/-- The size of spatial layer `k` of `n` in one direction (R180). -/
def layerSize (top n k : Nat) : Nat := max 16 (2 * ceilDiv top (2 * 2 ^ (n - 1 - k)))

/-- Job rows of a layer of a height: block rows, or superblock rows for AV1 (R186). -/
def jobRows (codec height : Nat) : Nat := if codec = 10 then ceilDiv height 64 else ceilDiv height 16

/-- Block rows of job row `r` of a layer. -/
def rowHeight (codec height r : Nat) : Nat := if codec = 10 then min 4 (ceilDiv height 16 - 4 * r) else 1

/-- Blocks of job row `r` of a layer. -/
def rowBlocks (codec width height r : Nat) : Nat := ceilDiv width 16 * rowHeight codec height r

/-! ### Source samples (R180) -/

/-- A sample of a plane, by its place. -/
abbrev Plane := Nat → Nat → Nat → Nat

/-- The size of a plane in one direction. -/
def planeSize (plane n : Nat) : Nat := if plane = 0 then n else ceilDiv n 2

/-- The samples of a buffer's picture, its edge samples repeated up to any size. A block that comes back poisoned reads as mid-value. -/
def sourcePlane (s : State) (b : Nat) : Plane := fun plane x y =>
  match s.buffers.get b with
  | some h => (sampleAt s b plane (min x (planeSize plane h.width - 1)) (min y (planeSize plane h.height - 1))).getD 512
  | none => 512

/-- Each lower layer takes the mean of 2 x 2 samples of the one above, halves rounded up; `sizes` are the width and height of the layers above, the
nearest first. -/
def layerPlane (top : Plane) : List (Nat × Nat) → Plane
  | [] => top
  | z :: zs => fun plane x y =>
    let up := layerPlane top zs
    let at_ (dx dy : Nat) : Nat := up plane (min (2 * x + dx) (planeSize plane z.1 - 1)) (min (2 * y + dy) (planeSize plane z.2 - 1))
    quadMean (at_ 0 0) (at_ 1 0) (at_ 0 1) (at_ 1 1)

/-- The samples that layer `k` of an encode stream codes, at the depth of its PROFILE. -/
def codedPlane (s : State) (e : EncodeStream) (b k : Nat) : Plane := fun plane x y =>
  let n := spatialLayers e.spec.structure_
  let above := ((List.range n).filter (fun m => decide (k < m))).map (fun m => (layerSize e.width n m, layerSize e.height n m))
  let v := layerPlane (sourcePlane s b) above plane x y
  if e.spec.codec = 10 && e.spec.profile = 1 then v else Config.toEightBits v

/-- The reconstruction in a reference buffer at the depth of the PROFILE; positions outside it read its edge samples. -/
def referencePlane (s : State) (e : EncodeStream) (b width height : Nat) (x y : Int) : Nat :=
  let v := (sampleAt s b 0 (min (width - 1) x.toNat) (min (height - 1) y.toNat)).getD 512
  if e.spec.codec = 10 && e.spec.profile = 1 then v else v / 4

/-! ### Vectors (R193) -/

/-- A vector in quarter-pel. -/
abbrev MotionVector := Int × Int

/-- A vector within the range of R193. -/
def clampVector (v : MotionVector) : MotionVector := (max (-8192) (min 8191 v.1), max (-2048) (min 2047 v.2))

/-- The final vector of a coded block: the vector, and the reference index, or -1 for intra. -/
abbrev FinalVector := Int × Int × Int

/-- What the search of a block knows: its place in blocks, the width of its layer in blocks, the final vectors of the layer so far and of the layer's previous
frame, in raster order, the vector field entry of the source picture, and that of the layer below. -/
structure SearchContext where
  bx : Nat
  by_ : Nat
  across : Nat
  sofar : List FinalVector
  previous : List FinalVector
  decoded : Option FinalVector
  below : Option FinalVector
  deriving DecidableEq, Repr

/-- The most frequent integer vector among final vectors, the first of those that appear equally often; zero if there is none (log 132). -/
def globalVector (l : List FinalVector) : MotionVector :=
  let whole := (l.filter (fun v => v.2.2 ≠ -1)).map (fun v => (4 * Config.roundPel v.1, 4 * Config.roundPel v.2.1))
  (leastBy (fun v => -((whole.filter (· = v)).length : Int)) whole).getD (0, 0)

/-- The vector of a neighbour that lies in the picture and has been coded. -/
def neighbour (c : SearchContext) (dx dy : Int) : Option MotionVector :=
  let x := (c.bx : Int) + dx
  let y := (c.by_ : Int) + dy
  if x < 0 || y < 0 || (c.across : Int) ≤ x then none
  else (c.sofar[y.toNat * c.across + x.toNat]?).map (fun v => (v.1, v.2.1))

/-- The candidates of a block in the order of the table, each clamped; an absent one is left out. `stats` says that the stream has STATS (R204). -/
def candidates (c : SearchContext) (stats reuse : Bool) : List MotionVector :=
  let last := if stats then c.previous else []
  let temporal := (last[c.by_ * c.across + c.bx]?).map (fun v => (v.1, v.2.1))
  let global := if last.isEmpty then (if stats then some (0, 0) else none) else some (globalVector last)
  let decoded := if reuse then c.decoded.bind (fun v => if v.2.2 = -1 then none else some (v.1, v.2.1)) else none
  let below := c.below.map (fun v => (2 * v.1, 2 * v.2.1))
  ([neighbour c (-1) 0, neighbour c 0 (-1), neighbour c 1 (-1), temporal, global, some (0, 0), decoded, below].filterMap id).map clampVector

/-! ### Costs (R194, R195) -/

/-- A cost: distortion, and bits that count with lambda. -/
abbrev Cost := Nat × Nat

/-- Whether distortion + lambda x bits of one cost is less than that of another, with lambda = 0.85 x 2^((q - 12) / 3): both sides of
lambda x (bits - bits') < distortion' - distortion cubed and cleared of fractions. -/
def costLess (q : Nat) (a b : Cost) : Bool :=
  let bits : Int := 17 * ((a.2 : Int) - b.2)
  let dist : Int := 20 * ((b.1 : Int) - a.1)
  decide (bits ^ 3 * 2 ^ q < dist ^ 3 * 2 ^ 12)

/-- The first least of a list by cost. -/
def cheapest {α : Type} (q : Nat) (f : α → Cost) : List α → Option α
  | [] => none
  | a :: l =>
    match cheapest q f l with
    | some b => if costLess q (f b) (f a) then some b else some a
    | none => some a

/-- What prediction from one reference needs: the source block's luma by place in the picture, the reference's luma, the codec, the QP, and the vector that
differences are taken from. -/
structure Matcher where
  source : Nat → Nat → Nat
  reference : Int → Int → Nat
  codec : Nat
  qp : Nat
  predictor : MotionVector

/-- The bits of a vector's difference. -/
def Matcher.bits (m : Matcher) (v : MotionVector) : Nat := Config.vectorBits m.codec (v.1 - m.predictor.1) (v.2 - m.predictor.2)

/-- The luma SAD of a square of `n` samples at (x, y) against the reference moved by whole samples. -/
def Matcher.sad (m : Matcher) (x y n : Nat) (dx dy : Int) : Nat :=
  ((List.range (n * n)).map (fun k => ((m.source (x + k % n) (y + k / n) : Int) - m.reference (x + (k % n : Nat) + dx) (y + (k / n : Nat) + dy)).natAbs)).sum

/-- The cost of a whole-pel vector. -/
def Matcher.wholeCost (m : Matcher) (x y : Nat) (v : MotionVector) : Cost := (m.sad x y 16 (v.1 / 4) (v.2 / 4), m.bits v)

/-- The predicted square of a vector in quarter-pel, interpolated from the samples around it. -/
def Matcher.predict (m : Matcher) (x y n : Nat) (v : MotionVector) : List Nat :=
  let w := n + 8
  let patch := (List.range (w * w)).map (fun k => m.reference (x + (k % w : Nat) - 4 + Int.fdiv v.1 4) (y + (k / w : Nat) - 4 + Int.fdiv v.2 4))
  Config.interpolated m.codec n (v.1 % 4).toNat (v.2 % 4).toNat patch

/-- The cost of a vector in quarter-pel: SATD and its bits. -/
def Matcher.fineCost (m : Matcher) (x y n : Nat) (v : MotionVector) : Cost :=
  (Config.satd n ((List.range (n * n)).map (fun k => m.source (x + k % n) (y + k / n))) (m.predict x y n v), m.bits v)

/-! ### The search (R194) -/

/-- One move of the diamond search, if a neighbour at distance 1 within 8 samples of the start is better. -/
def diamondMove (m : Matcher) (x y : Nat) (start v : MotionVector) : Option MotionVector :=
  let near := [(v.1 - 4, v.2), (v.1 + 4, v.2), (v.1, v.2 - 4), (v.1, v.2 + 4)].filter (fun (w : MotionVector) =>
    decide ((w.1 - start.1).natAbs ≤ 32) && decide ((w.2 - start.2).natAbs ≤ 32) && clampVector w = w)
  match cheapest m.qp (m.wholeCost x y) near with
  | some w => if costLess m.qp (m.wholeCost x y w) (m.wholeCost x y v) then some w else none
  | none => none

/-- The diamond search from a start, with at most `fuel` moves. -/
def diamond (m : Matcher) (x y : Nat) (start : MotionVector) : Nat → MotionVector → MotionVector
  | 0, v => v
  | fuel + 1, v =>
    match diamondMove m x y start v with
    | some w => diamond m x y start fuel w
    | none => v

/-- A vector and the eight around it at a distance in quarter-pel: the best, the vector itself where none is better. -/
def refineBy (m : Matcher) (x y n step : Nat) (v : MotionVector) : MotionVector :=
  let d : Int := step
  let around := [(-d, -d), (0, -d), (d, -d), (-d, 0), (d, 0), (-d, d), (0, d), (d, d)].map (fun (o : MotionVector) => clampVector (v.1 + o.1, v.2 + o.2))
  (cheapest m.qp (m.fineCost x y n) (v :: around)).getD v

/-- Half-pel, then quarter-pel. -/
def refineFine (m : Matcher) (x y n : Nat) (v : MotionVector) : MotionVector := refineBy m x y n 1 (refineBy m x y n 2 v)

/-- A vector rounded to whole samples. -/
def wholeVector (v : MotionVector) : MotionVector := clampVector (4 * Config.roundPel v.1, 4 * Config.roundPel v.2)

/-- The two cheapest distinct whole-pel candidates, ties in the order of the table. -/
def bestTwo (m : Matcher) (x y : Nat) (l : List MotionVector) : List MotionVector :=
  let whole := (l.map wholeVector).eraseDups
  match cheapest m.qp (m.wholeCost x y) whole with
  | some a => a :: (cheapest m.qp (m.wholeCost x y) (whole.erase a)).toList
  | none => []

/-- The vector that the search finds for a 16 x 16 block. -/
def searchBlock (m : Matcher) (x y : Nat) (l : List MotionVector) : MotionVector :=
  let found := (bestTwo m x y l).map (fun v => diamond m x y v 16 v)
  match cheapest m.qp (m.wholeCost x y) found with
  | some v => refineFine m x y 16 v
  | none => (0, 0)

/-- The vectors of the four quarters of a block, from the 16 x 16 result. -/
def searchQuarters (m : Matcher) (x y : Nat) (v : MotionVector) : List MotionVector :=
  [(0, 0), (8, 0), (0, 8), (8, 8)].map (fun (o : Nat × Nat) => refineFine m (x + o.1) (y + o.2) 8 v)

/-! ### Modes (R178, R195, R199) -/

/-- The intra modes of a codec: for H.264 four of 16 x 16 and then nine of 4 x 4, for AV1 DC, V, H, SMOOTH and PAETH at 16 x 16 and then at 8 x 8. -/
def intraModes (codec : Nat) : Nat := if codec = 10 then 10 else 13

/-- Intra DC. -/
def intraDc (codec : Nat) : Nat := if codec = 10 then 0 else 2

/-- Whether a block may be coded in a mode: in a keyframe intra, and in its higher spatial layers also from the layer below (R192); intra alone where its
inter candidates are invalid (R205). -/
def modeAllowed (codec layer : Nat) (key invalid : Bool) (mode : EncodeMode) : Bool :=
  match mode with
  | .intra k => decide (k < intraModes codec)
  | .interLayer => codec = 10 && decide (0 < layer) && !invalid
  | _ => !key && !invalid

/-- The mode of least distortion + lambda x estimated bits among those that the tools have evaluated. -/
def decideMode (codec layer q : Nat) (key invalid : Bool) (l : List ModeResult) : Option ModeResult :=
  cheapest q (fun (r : ModeResult) => (r.distortion, r.estimate)) (l.filter (fun r => modeAllowed codec layer key invalid r.mode))

/-- The mode of a block coded in austerity: skip, or intra DC in a keyframe or where skip prediction is too far from the source (R199). -/
def austereMode (codec : Nat) (key invalid : Bool) (sad : Nat) : EncodeMode :=
  if key || invalid || decide (32768 < sad) then .intra (intraDc codec) else .skip

/-- The vector that a mode leaves a block with: that of the prediction block covering luma sample (8, 8). -/
def modeVector (mode : EncodeMode) (skip whole : MotionVector) (quarters : List MotionVector) : FinalVector :=
  match mode with
  | .skip => (skip.1, skip.2, 0)
  | .inter16 => (whole.1, whole.2, 0)
  | .inter8 => let v := quarters.getD 3 whole; (v.1, v.2, 0)
  | .interLayer => (0, 0, 1)
  | .intra _ => (0, 0, -1)

end Sys2Proof.Machine
end

