-- ==== Sys2Proof/Machine/Encode.lean ====
section
/-!
DEFINITION. Video encode and rate control (chapter 07).
-/

namespace Sys2Proof.Machine

def updEncode (s : State) (i : Nat) (f : EncodeStream → EncodeStream) : State := { s with encodes := s.encodes.update i f }

/-- The stream number under which an encode stream holds buffers. -/
def encodeStream (i : Nat) : Nat := 131072 + i

/-- KEY_PENDING (R184). -/
def EncodeStream.keyPending (e : EncodeStream) : Bool := decide (e.keyServed < e.keyAsked)

/-- Blocks of a frame over its spatial layers (R182). -/
def frameBlocks (n width height : Nat) : Nat :=
  ((List.range n).map (fun k => ceilDiv (layerSize width n k) 16 * ceilDiv (layerSize height n k) 16)).sum

/-- The sixteenths of TARGET of layer `k` of `n` (R179): its field of LAYER_SHARE; the top layer takes what the layers below it leave of 16, so
that a single layer has all of them (R203's example). -/
def EncodeRate_share (r : EncodeRate) (n k : Nat) : Nat :=
  let own (j : Nat) : Nat := bitsOf r.layerShare (4 * j + 3) (4 * j)
  if k + 1 = n then 16 - ((List.range k).map own).sum else own k

/-- The VBV size B and the drain per frame of a layer (R196). -/
def vbvSize (r : EncodeRate) (n k : Nat) : Nat := r.target * EncodeRate_share r n k * r.vbvMs / 16000
def drainPer (r : EncodeRate) (rate n k : Nat) : Nat := r.target * EncodeRate_share r n k / (16 * max 1 rate)

/-- The temporal layer at a position of the pattern, and its weight (R191). -/
def temporalAt (layers position : Nat) : Nat :=
  if layers = 2 then position % 2 else if layers = 3 then [0, 2, 1, 2].getD (position % 4) 0 else 0
def temporalWeight (layers t : Nat) : Nat :=
  if layers = 2 then (if t = 0 then 21 else 11) else if layers = 3 then (if t = 0 then 32 else if t = 1 then 16 else 8) else 16

/-- Reference pictures that a layer keeps (R189), and whether a frame of a temporal layer is one (R191). -/
def referenceCount (layers : Nat) : Nat := if layers = 3 then 2 else 1
def isReference (layers t : Nat) : Bool := layers = 1 || decide (t + 1 < layers)

/-- round(6 x log2(bits / budget)), held within 6 either way (R198). -/
def qpStep (bits budget : Nat) : Int :=
  if bits = 0 then -6
  else if budget = 0 then 6
  else (((List.range 12).filter (fun k =>
    -- the step reaches k - 5 when (bits / budget) ^ 12 is at least 2 ^ (2 (k - 5) - 1)
    decide (budget ^ 12 * 2 ^ (2 * k) ≤ bits ^ 12 * 2 ^ 11))).length : Int) - 6

def clampQp (r : EncodeRate) (q : Int) : Nat := (min (r.qpMax : Int) (max (r.qpMin : Int) q)).toNat

/-- The last frame sent of a kind and temporal layer. -/
def pastOf (l : LayerRate) (key : Bool) (t : Nat) : Option PastFrame := l.past.find? (fun p => p.key == key && p.temporal = t)

/-- The picture that a frame of temporal layer `t` predicts from (R191): the most recent of a layer below, or for layer 0 of layer 0. -/
def referenceOf (l : LayerRate) (t : Nat) : Option Nat := ((l.refs.filter (fun r => decide (r.1 < t) || (t = 0 && r.1 = 0))).getLast?).map (fun r => r.2)

/-- The occupancy after a frame of `bits` (R196). -/
def fill (f bits base : Nat) : Nat := f + bits - base

/-- The cap of a frame: what the VBV has left, and the drain. -/
def capOf (b f base : Nat) : Nat := b + base - f

/-- What a layer's frame begins with (R197, R198). -/
def beginLayer (e : EncodeStream) (k : Nat) (l : LayerRate) (key : Bool) (t buffer rows : Nat) : LayerFrame :=
  let r := e.spec.rc
  let base := drainPer r e.spec.rate (spatialLayers e.spec.structure_) k
  let b := vbvSize r (spatialLayers e.spec.structure_) k
  let cap := capOf b l.fullness base
  let w := if key then 16 * r.keyWeight else temporalWeight (temporalLayers e.spec.structure_) t
  let n : Int := (base * w / 16 : Nat) + Int.fdiv ((b : Int) - 2 * l.fullness) 16
  let budget := max (min (n - l.debt) cap) ((base / 8 : Nat) : Int)
  let debt := max 0 ((l.debt : Int) - max 0 (n - budget))
  let past := pastOf l key t
  let q := match past with
    | some p => clampQp r (p.qp + qpStep p.bits budget.toNat)
    | none => clampQp r 32
  let weights := match past with
    | some p => if p.rowBits.length = rows && p.rowBits.sum ≠ 0 then p.rowBits else List.replicate rows 1
    | none => List.replicate rows 1
  { buffer := buffer, reference := if key then none else referenceOf l t, vectors := [], held := none, budget := budget.toNat, cap := cap, debtAfter := debt.toNat, qpStart := q, qp := q, rowWeights := weights, rowBits := [], austere := false,
    dropped := false, coded := [] }

/-- QP before a row after the first (R198): S against 1.1 C and 0.9 C, where C is the rows' part of the budget. -/
def stepQp (r : EncodeRate) (f : LayerFrame) : Nat :=
  let spent := f.rowBits.sum
  let part := f.budget * (f.rowWeights.take f.rowBits.length).sum
  let whole := f.rowWeights.sum
  if f.rowBits.isEmpty then f.qp
  else if 11 * part < 10 * spent * whole then clampQp r (f.qp + 1)
  else if 10 * spent * whole < 9 * part then clampQp r ((f.qp : Int) - 1)
  else f.qp

/-- The austerity allowance of the rows of a layer from row `r` on (R201). -/
def allowance (codec width height rows r : Nat) (key : Bool) : Nat :=
  ((List.range rows).filter (fun k => decide (r ≤ k))).foldl (fun n k => n + (if key then 24 else 4) * rowBlocks codec width height k + 64) 0

/-! ### Sending -/

/-- A byte string in pieces of at most `n` bytes. -/
def pieces (n : Nat) : Nat → List Byte → List (List Byte)
  | 0, _ => []
  | fuel + 1, l => if l.length ≤ n then [l] else l.take n :: pieces n fuel (l.drop n)

/-- A NAL unit in packets (R188, RFC 6184): alone where it fits MAX_PAYLOAD, else as FU-A fragments. -/
def nalPackets (max_ : Nat) (nal : List Byte) : List (List Byte) :=
  if nal.length ≤ max_ then [nal]
  else
    let h := nal.headD 0
    let parts := pieces (max_ - 2) nal.length (nal.drop 1)
    parts.mapIdx (fun k b => ((h &&& 0xE0) ||| 28) :: ((h &&& 0x1F) ||| BitVec.ofNat 8 (128 * b2n (k = 0) + 64 * b2n (k + 1 = parts.length))) :: b)

/-- A temporal unit's bytes in AV1 packets (R188). -/
def obuPackets (max_ : Nat) (key : Bool) (unit : List Byte) : List (List Byte) :=
  let parts := pieces (max_ - 1) (unit.length + 1) unit
  parts.mapIdx (fun k b => Config.aggregationHeader (k ≠ 0) (k + 1 ≠ parts.length) (key && k = 0) :: b)

/-- One coded layer of a frame: its spatial layer and its rows, or a skip frame. -/
abbrev CodedLayer := Nat × List (List Byte)

/-- The packets of one layer of a temporal unit with the first byte of the RTP header (R178, R188): the parameter sets precede a keyframe; a prefix NAL unit stands
before each slice of an H.264 stream with temporal layers; a dependency descriptor on every AV1 packet of a stream with more than one layer. -/
def layerPackets (i : Nat) (e : EncodeStream) (j : EncodeFrame) (c : CodedLayer) : List (Nat × List Byte) :=
  let max_ := e.spec.rc.maxPayload
  let tl := temporalLayers e.spec.structure_
  if e.spec.codec = 8 then
    let slices := if tl = 1 then c.2 else c.2.flatMap (fun b => [Config.prefixNal j.key j.temporal, b])
    (((if j.key then Config.parameterSets i else []) ++ slices).flatMap (nalPackets max_)).map (fun b => (0x80, b))
  else
    let packets := obuPackets max_ j.key (((if j.key && c.1 = 0 then Config.parameterSets i else []) ++ c.2).flatten)
    if spatialLayers e.spec.structure_ = 1 && tl = 1 then packets.map (fun b => (0x80, b))
    else packets.mapIdx (fun k b => (0x90, Config.dependencyDescriptor e.spec.structure_ c.1 j.temporal j.key (k = 0) (k + 1 = packets.length) ++ b))

/-- The coded layers that a leg sends: those within its LAYER_CAP (R181). -/
def layersFor (x : Leg) (temporal : Nat) (coded : List CodedLayer) : List CodedLayer :=
  coded.filter (fun c => c.1 ≤ opSpatial x.spec.layerCap && temporal ≤ opTemporal x.spec.layerCap)

/-- A temporal unit is queued for one leg, with the marker on its last packet (R188). -/
def sendUnit (s : State) (l : Nat) (timestamp : Nat) (packets : List (Nat × List Byte)) : State :=
  (packets.mapIdx (fun k p => (k, p))).foldl (fun s e => producePacket s l timestamp (e.1 + 1 = packets.length) e.2.1 e.2.2) s

/-- A temporal unit is packetised and queued for every PRODUCED leg of the stream. -/
def sendFrameOf (s : State) (i : Nat) (e : EncodeStream) (j : EncodeFrame) (coded : List CodedLayer) : State :=
  (legsOfProducer s (encodeProducer i)).foldl (fun s x =>
    let mine := layersFor x.2 j.temporal coded
    if mine.isEmpty then s else sendUnit s x.1 (j.stamp * 9 / 100000 % 2 ^ 32) (mine.flatMap (layerPackets i e j))) s

/-- What becomes of one layer at the end of a frame: its new rate control, the bytes it sends, and whether it sent a coded frame, sent a skip frame, or
would have broken the VBV. -/
structure LayerEnd where
  rate : LayerRate
  bytes : Option (List (List Byte))
  skip : Bool
  nothing : Bool
  deriving DecidableEq, Repr

/-- A layer whose frame is a skip frame (R202), or nothing at all where it has no reference picture (R201). -/
def skipLayer (i : Nat) (e : EncodeStream) (k rows : Nat) (l : LayerRate) : LayerEnd :=
  let base := drainPer e.spec.rc e.spec.rate (spatialLayers e.spec.structure_) k
  let bits := min (Config.skipBits i k e.frames) (64 * rows)
  if l.refs.isEmpty then { rate := { l with fullness := fill l.fullness 0 base }, bytes := none, skip := false, nothing := false }
  else if capOf (vbvSize e.spec.rc (spatialLayers e.spec.structure_) k) l.fullness base < bits then
    { rate := { l with fullness := fill l.fullness 0 base }, bytes := none, skip := false, nothing := true }
  else
    { rate := { l with fullness := fill l.fullness bits base },
      bytes := some [padTo (ceilDiv bits 8) (Config.encodedBytes (encodeProducer i) (4 * e.frames + k))], skip := true, nothing := false }

/-- A layer whose coded frame is sent (R196, R200). -/
def sentLayer (e : EncodeStream) (j : EncodeFrame) (k : Nat) (l : LayerRate) (f : LayerFrame) : LayerEnd :=
  let bits := f.rowBits.sum
  let layers := temporalLayers e.spec.structure_
  let refs := if !isReference layers j.temporal then l.refs
    else if j.temporal = 0 then [(0, f.buffer)]
    else l.refs.filter (fun r => r.1 < j.temporal) ++ [(j.temporal, f.buffer)]
  let last : PastFrame := { key := j.key, temporal := j.temporal, qp := f.qpStart, bits := bits, rowBits := f.rowBits }
  let field := if bitOf e.spec.flags 0 = 1 then f.vectors else []
  let rate : LayerRate :=
    { fullness := fill l.fullness bits (drainPer e.spec.rc e.spec.rate (spatialLayers e.spec.structure_) k), debt := f.debtAfter + (bits - f.budget),
      past := last :: l.past.filter (fun p => !(p.key == j.key && p.temporal = j.temporal)), refs := refs, field := field }
  { rate := rate, bytes := some f.coded, skip := false, nothing := false }

/-- Whether a name is among the reference buffers of a stream. -/
def refMark (e : EncodeStream) (b : Nat) : Option Nat := ((e.layers.flatMap (·.refs)).find? (fun r => r.2 = b)).map (·.1)

/-- The marks of an encode stream's pictures (R190). -/
def encodeMarks (s : State) (i : Nat) : State :=
  match s.encodes.get i with
  | none => s
  | some e =>
    sweepBuffers { s with buffers := s.buffers.all (fun n (b : Buffer) =>
      if b.stream ≠ encodeStream i || b.state = BufState.freeing then b
      else
        let m := refMark e n
        { b with shortTerm := e.spec.codec = 8 && m.isSome, slots := if e.spec.codec = 10 then (match m with
                                                                                          | some t => 2 ^ t
                                                                                          | none => 0) else 0,
                 current := decide (e.current = some n) }) }

/-- A draining stream without a frame: its marks go. -/
def quietEncode (s : State) (i : Nat) : State :=
  match s.encodes.get i with
  | none => s
  | some e => if e.state = .draining && e.job.isNone then clearMarks s (encodeStream i) else s

/-- A frame of a stream ends: what each layer sends, the counters, and the next rate control. `coded` says that its rows ran. -/
def finishFrame (s : State) (i : Nat) (e : EncodeStream) (j : EncodeFrame) (coded : Bool) : State :=
  let ends := e.layers.mapIdx (fun k l => match j.layers[k]? with
    | some f => if coded && !f.dropped then sentLayer e j k l f else skipLayer i e k (j.layerRows.getD k 0) l
    | none => skipLayer i e k (j.layerRows.getD k 0) l)
  let sends := (ends.mapIdx (fun k x => (k, x))).filterMap (fun x => x.2.bytes.map (fun b => (x.1, b)))
  let codedAny := ends.any (fun x => x.bytes.isSome && !x.skip)
  let keySent := j.key && codedAny && !((j.layers[0]?).map (·.dropped)).getD true
  let skipped := ends.any (·.skip)
  let nothing := (ends.filter (·.nothing)).length
  let top := (j.layers.getLast?).bind (fun f => if coded && !f.dropped then some f.buffer else none)
  let used := (j.layers.filter (fun f => coded && !f.dropped)).map (·.buffer)
  let s := { s with buffers := s.buffers.all (fun n (b : Buffer) =>
    if j.layers.any (fun f => f.buffer = n) then { b with state := if used.contains n then BufState.complete else BufState.freeing, completed := now s } else b) }
  let s := updEncode s i (fun e => { e with
    layers := ends.map (·.rate), frames := e.frames + b2n (!sends.isEmpty), keyframes := e.keyframes + b2n keySent, skipped := e.skipped + b2n skipped,
    sinceKey := if keySent then 0 else e.sinceKey + b2n (!sends.isEmpty), pattern := e.pattern + 1, lastSource := if codedAny then some (j.source, j.picture) else e.lastSource,
    current := match top with
      | some b => some b
      | none => e.current,
    keyServed := if keySent then j.keyUpTo else e.keyServed, job := none, lateRun := 0 })
  let s := sendFrameOf s i e j sends
  let s := if codedAny then bump s Reg.ENCODE.FRAMES_ENCODED else s
  let s := if keySent then clearKeyframe (bump s Reg.ENCODE.KEYFRAMES) (encodeProducer i) else s
  let s := if skipped then bump s Reg.ENCODE.SKIP_FRAMES else s
  let s := if nothing = 0 then s else raise (bumpBy s Reg.ENCODE.NOTHING_SENT nothing) Reg.ENCODE.ENCODE_EVENTS_NOTHING_SENT
  quietEncode (encodeMarks s i) i

/-! ### Frame starts (R183 to R185) -/

/-- A set-encode takes effect: F is capped at the new B (R203). -/
def adoptRate (e : EncodeStream) : EncodeStream :=
  match e.nextRate with
  | none => e
  | some r => { e with spec := { e.spec with rc := r }, nextRate := none,
                       layers := e.layers.mapIdx (fun k l => { l with fullness := min l.fullness (vbvSize r (spatialLayers e.spec.structure_) k) }) }

/-- CURRENT of a stream's source. -/
def sourceCurrent (s : State) (e : EncodeStream) : Option Nat :=
  if e.spec.sourceKind = 0 then (s.composites.get e.spec.source).bind (·.current) else (s.decodes.get e.spec.source).bind (·.current)

/-- The lowest FREE buffers of a pool, one for each layer. -/
def takeBuffers (s : State) (i : Nat) (e : EncodeStream) : Nat → State × List Nat
  | 0 => (s, [])
  | n + 1 =>
    match freeBuffer s e.spec.pool with
    | none => (s, [])
    | some b =>
      let x : Buffer :=
        { state := .decoding, shortTerm := false, longTerm := false, current := false, slots := 0, flags := 0, holders := 0, stream := encodeStream i,
          width := layerSize e.width (spatialLayers e.spec.structure_) (spatialLayers e.spec.structure_ - (n + 1)),
          height := layerSize e.height (spatialLayers e.spec.structure_) (spatialLayers e.spec.structure_ - (n + 1)), colour := 0, picture := e.pictures,
          completed := 0 }
      let r := takeBuffers (clearStatistics { s with buffers := s.buffers.put b x } b) i e n
      (r.1, b :: r.2)

/-- The job rows of the layers of a stream. -/
def streamRows (e : EncodeStream) : List Nat :=
  let n := spatialLayers e.spec.structure_
  (List.range n).map (fun k => jobRows e.spec.codec (layerSize e.height n k))

/-- The schedule of a frame that starts in the tick of boundary count `start`: its jobs spread over the coding window of R183. -/
def frameSchedule (e : EncodeStream) (start : Nat) : Schedule :=
  let p := 8000 / max 1 e.spec.rate
  Schedule.from start (if e.spec.sourceKind = 0 then p - p / 2 - 1 else p - 1) (streamRows e).sum 1

/-- A frame starts; `stamp` is the local time of the boundary that began its tick, and `sched` the schedule of its jobs. -/
def startEncode (s : State) (i : Nat) (stamp : Nat) (sched : Schedule) : State :=
  let s := updEncode s i adoptRate
  match s.encodes.get i with
  | none => s
  | some e =>
    match sourceCurrent s e with
    | none => updEncode s i (fun e => { e with state := if e.state = .running then .waiting else e.state })
    | some b =>
      let n := spatialLayers e.spec.structure_
      let tl := temporalLayers e.spec.structure_
      let picture := ((s.buffers.get b).map (·.picture)).getD 0
      let key := e.state = .waiting || e.keyframes = 0 || (decide (0 < e.spec.rc.keyInterval) && decide (e.spec.rc.keyInterval ≤ e.sinceKey))
        || decide (e.keyServed < e.keyKnown)
      let position := if key then 0 else e.pattern
      let rows := streamRows e
      let j : EncodeFrame :=
        { sched := sched, generation := s.trust.current.number, stamp := stamp, key := key, temporal := temporalAt tl position, source := b, picture := picture,
          layers := [], layerRows := rows, keyUpTo := e.keyKnown }
      let s := updEncode s i (fun e => { e with state := .running, pattern := position, pictures := e.pictures + 1 })
      let e : EncodeStream := { e with state := .running, pattern := position, pictures := e.pictures + 1 }
      if !key && decide (e.lastSource = some (b, picture)) then finishFrame (bump s Reg.ENCODE.REPEATS) i e j false
      else if e.reservedBuffers < (buffersOf s (encodeStream i)).length + n || poolFree s e.spec.pool < n then
        finishFrame (raise (bump s Reg.ENCODE.POOL_STARVED) Reg.ENCODE.ENCODE_EVENTS_POOL_STARVED) i e j false
      else
        let r := takeBuffers s i e n
        let layers := (e.layers.zip (r.2.zip rows)).mapIdx (fun k x => beginLayer e k x.1 key j.temporal x.2.1 x.2.2)
        updEncode (takeHold r.1 b) i (fun e => { e with job := some { j with layers := layers }, lateRun := 0 })

/-- Whether a frame of a stream starts in this tick. -/
def startsNow (s : State) (e : EncodeStream) : Bool :=
  if e.spec.sourceKind = 0 then
    match s.composites.get e.spec.source with
    | some c => frameDueBefore s c.spec.rate c.spec.phase (8000 / max 1 e.spec.rate / 2)
    | none => false
  else frameDue s e.spec.rate e.spec.phase

/-- ENCODE_FRAME_START: the tick in which a frame of the stream starts has begun. A frame that finds the one before still at work begins when that one
ends (R63). -/
def execEncodeFrameStart (i : Nat) (s : State) : Host.Outcome State Fault Refusal :=
  match s.encodes.get i with
  | none => ok s
  | some e =>
    if inService s && (e.state = .waiting || e.state = .running) && inServiceEngine s 1 e.cluster && startsNow s e && onceDue s (0x500000 + i) then
      let s := markOnce s (0x500000 + i)
      let sched := frameSchedule e s.time.boundaries
      if e.job.isSome then ok (updEncode s i (fun e => { e with startDue := e.startDue ++ [(s.time.boundaryAt, sched)] }))
      else ok (startEncode s i s.time.boundaryAt sched)
    else ok s

/-! ### Rows -/

/-- The frames that wait for the one before to end start, until one has jobs, at most `fuel` of them. -/
def startWaiting (s : State) (i : Nat) : Nat → State
  | 0 => s
  | fuel + 1 =>
    match s.encodes.get i with
    | none => s
    | some e =>
      if e.job.isSome || e.state = .draining then s
      else
        match e.startDue with
        | [] => s
        | w :: rest => startWaiting (startEncode (updEncode s i (fun e => { e with startDue := rest })) i w.1 w.2) i fuel

/-- The frame at work has ended; a frame that waited starts. -/
def endEncode (s : State) (i : Nat) (e : EncodeStream) (j : EncodeFrame) (coded : Bool) : State :=
  startWaiting (finishFrame (dropHold s j.source) i e j coded) i e.startDue.length

/-- The frame at work is dropped whole: a skip frame stands for it. `counted` says that R201 drops it (R205), and not lateness or a reset (R64). -/
def dropEncode (s : State) (i : Nat) (counted : Bool) : State :=
  match s.encodes.get i with
  | none => s
  | some e =>
    match e.job with
    | none => s
    | some j =>
      let s := if counted then raise (bump s Reg.ENCODE.FRAMES_DROPPED) Reg.ENCODE.ENCODE_EVENTS_FRAME_DROPPED else s
      endEncode s i e { j with layers := j.layers.map (fun f => { f with dropped := true }) } true

/-- An engine reset of an encode cluster cancels its frames in flight. -/
def resetEncode (s : State) (cluster : Nat) : State :=
  (s.encodes.filter (fun e => e.2.cluster = cluster && e.2.job.isSome)).foldl (fun s e => dropEncode s e.1 false) (engineRegs s 1 cluster)

/-- A failure of an encode cluster. -/
def encodeFailure (s : State) (cluster : Nat) : State :=
  let r := countFailure s 1 cluster
  if r.2 then resetEncode r.1 cluster else r.1

/-! ### Blocks and rows (R186, R187, R193 to R195, R199, R204, R205) -/

/-- Where a row job works: its layer, the layer's size, its first block row and its block rows. -/
structure JobPlace where
  layer : Nat
  width : Nat
  height : Nat
  first : Nat
  rows : Nat
  deriving DecidableEq, Repr

def jobPlace (e : EncodeStream) (j : EncodeFrame) (k : Nat) : JobPlace :=
  let n := spatialLayers e.spec.structure_
  let at_ := rowOf j.layerRows k
  let height := layerSize e.height n at_.1
  { layer := at_.1, width := layerSize e.width n at_.1, height := height, first := if e.spec.codec = 10 then 4 * at_.2 else at_.2,
    rows := rowHeight e.spec.codec height at_.2 }

/-- A block as it has been coded: its place in blocks, its mode and final vector, its result, and whether its reference came back poisoned. -/
structure CodedBlock where
  bx : Nat
  by_ : Nat
  result : ModeResult
  vector : FinalVector
  poisonedRef : Bool
  deriving DecidableEq, Repr

/-- What the search of a block knows. -/
def searchContext (s : State) (e : EncodeStream) (j : EncodeFrame) (p : JobPlace) (f : LayerFrame) (bx by_ : Nat) : SearchContext :=
  let n := spatialLayers e.spec.structure_
  let up := 2 ^ (n - 1 - p.layer)
  let across := blocksAlong p.width
  { bx := bx, by_ := by_, across := across, sofar := f.vectors, previous := ((e.layers[p.layer]?).map (fun l => l.field)).getD [],
    decoded := (s.buffers.get j.source).map (fun h => vectorAt s j.source (up * by_ * blocksAlong h.width + up * bx)),
    below := if p.layer = 0 || e.spec.codec ≠ 10 then none
      else (j.layers[p.layer - 1]?).bind (fun g => g.vectors[by_ / 2 * blocksAlong (layerSize e.width n (p.layer - 1)) + bx / 2]?) }

/-- Whether a reference's blocks around a vector of a block come back whole. -/
def referenceWhole (s : State) (b width height bx by_ : Nat) (v : MotionVector) : Bool :=
  let at_ (n : Nat) (k d : Int) : Nat := min (n - 1) (k + d).toNat
  let places := [(-4 : Int), 8, 19].flatMap (fun dy => [(-4 : Int), 8, 19].map (fun dx =>
    (samplePlace width 0 (at_ width (16 * bx + Int.fdiv v.1 4) dx) (at_ height (16 * by_ + Int.fdiv v.2 4) dy)).1))
  places.all (fun k => !blockPoisoned s b k)

/-- One block is coded: searched and decided, or as in austerity. -/
def codeBlock (s : State) (e : EncodeStream) (j : EncodeFrame) (p : JobPlace) (f : LayerFrame) (austere : Bool) (bx by_ : Nat) (w : EncodeBlock) : CodedBlock :=
  let c := searchContext s e j p f bx by_
  let stats := bitOf e.spec.flags 0 = 1
  let predictor := Config.vectorPredictor e.spec.codec (neighbour c (-1) 0) (neighbour c 0 (-1)) (neighbour c 1 (-1))
  let m : Matcher :=
    { source := codedPlane s e j.source p.layer 0, qp := f.qp, codec := e.spec.codec, predictor := predictor,
      reference := match f.reference with
        | some b => referencePlane s e b p.width p.height
        | none => fun _ _ => 0 }
  let x := 16 * bx
  let y := 16 * by_
  let austere := austere || w.poisonedSource || blockPoisoned s j.source (by_ * blocksAlong (((s.buffers.get j.source).map (·.width)).getD 0) + bx)
  let whole := if j.key || austere then (0, 0) else searchBlock m x y (candidates c stats (bitOf e.spec.flags 1 = 1))
  let quarters := if j.key || austere then [] else searchQuarters m x y whole
  let skip := if e.spec.codec = 8 then predictor else if austere && stats then globalVector c.previous else (0, 0)
  let broken := match f.reference with
    | some b => w.poisonedRef || !referenceWhole s b p.width p.height bx by_ whole
    | none => false
  let invalid := broken || (!j.key && f.reference.isNone)
  let results := if austere then w.austere else w.modes
  let far := ((m.predict x y 16 skip).zip ((List.range 256).map (fun k => m.source (x + k % 16) (y + k / 16)))).map (fun q => ((q.1 : Int) - q.2).natAbs)
  let chosen := if austere then results.find? (fun r => r.mode = austereMode e.spec.codec j.key invalid far.sum)
    else decideMode e.spec.codec p.layer f.qp j.key invalid results
  let r := chosen.getD { mode := .intra (intraDc e.spec.codec), distortion := 0, estimate := 0, bits := 0, samples := [], levels := 0 }
  { bx := bx, by_ := by_, result := r, vector := modeVector r.mode skip whole quarters, poisonedRef := broken && !j.key }

/-- The blocks of a row job in raster order; those from block `searched` on are coded as in austerity. -/
def codeBlocks (s : State) (e : EncodeStream) (j : EncodeFrame) (p : JobPlace) (f : LayerFrame) (austere : Bool) (searched : Nat) (l : List (Nat × EncodeBlock)) :
    LayerFrame × List CodedBlock :=
  let across := blocksAlong p.width
  l.foldl (fun r x =>
    let b := codeBlock s e j p r.1 (austere || decide (searched ≤ x.1)) (x.1 % across) (p.first + x.1 / across) x.2
    ({ r.1 with vectors := r.1.vectors ++ [b.vector] }, r.2 ++ [b])) (f, [])

/-- The samples of a reconstruction as they are stored (R137). -/
def storedBlock (e : EncodeStream) (samples : List Nat) : List Nat := if e.spec.codec = 10 && e.spec.profile = 1 then samples else samples.map (4 * ·)

/-- Whether a mode is an intra mode. -/
def EncodeMode_intra : EncodeMode → Bool
  | .intra _ => true
  | _ => false

/-- A coded block is written: its reconstruction, and with STATS its vector and its part of its row's entry (R204). -/
def writeCoded (e : EncodeStream) (p : JobPlace) (out : Nat) (s : State) (b : CodedBlock) : State :=
  let k := b.by_ * blocksAlong p.width + b.bx
  let s := writeBlock s out k (edgeRepeated p.width p.height b.bx b.by_ (storedBlock e b.result.samples))
  if bitOf e.spec.flags 0 = 1 then
    let intra := EncodeMode_intra b.result.mode
    let s := writeVector s out k (vectorEntry b.vector.1 b.vector.2.1 b.vector.2.2 false)
    addRow s out b.by_ (if intra then b.result.levels else 0) (if intra then 0 else b.result.levels) b.result.bits 0
  else s

/-- How many blocks are coded within some cycles. -/
def searchedWithin : Nat → List EncodeBlock → Nat
  | _, [] => 0
  | c, b :: l => if b.cycles ≤ c then searchedWithin (c - b.cycles) l + 1 else 0

/-- A row of a layer is coded, the first `searched` of its blocks with a search. -/
def rowCoded (s : State) (i : Nat) (e : EncodeStream) (j : EncodeFrame) (p : JobPlace) (f : LayerFrame) (w : EncodeWork) (searched : Nat) : State :=
  let rows := j.layerRows.getD p.layer 0
  let row := (rowOf j.layerRows j.sched.next).2
  let austere := f.austere || decide (f.budget ≤ f.rowBits.sum)
  let f := { f with qp := if austere then f.qp else stepQp e.spec.rc f, held := none }
  let none_ : EncodeBlock := { cycles := 0, modes := [], austere := [], poisonedSource := false, poisonedRef := false }
  let blocks := (List.range (blocksAlong p.width * p.rows)).map (fun k => (k, w.blocks.getD k none_))
  let r := codeBlocks s e j p f austere searched blocks
  let bits := w.overhead + (r.2.map (fun b => b.result.bits)).sum
  let s := r.2.foldl (writeCoded e p f.buffer) s
  let s := if bitOf e.spec.flags 0 = 1 then addRow s f.buffer p.first 0 0 w.overhead 0 else s
  let s := if austere then bump s Reg.ENCODE.AUSTERITY_ROWS else s
  let s := if austere && !j.layers.any (·.austere) then raise (bump s Reg.ENCODE.AUSTERITY_FRAMES) Reg.ENCODE.ENCODE_EVENTS_AUSTERITY else s
  let drifts := r.2.any (fun b => b.poisonedRef)
  let s := if drifts then updEncode s i (fun e => { e with keyAsked := e.keyAsked + 1 }) else s
  let e := if drifts then { e with keyAsked := e.keyAsked + 1 } else e
  let f := { r.1 with rowBits := f.rowBits ++ [bits], austere := austere, coded := f.coded ++ [w.coded] }
  let breaks := decide (f.cap < f.rowBits.sum + allowance e.spec.codec p.width p.height rows (row + 1) j.key)
  let layers := j.layers.mapIdx (fun k g => if k = p.layer then { f with dropped := breaks } else if breaks && decide (p.layer < k) then { g with dropped := true } else g)
  let j := { j with layers := layers, sched := j.sched.done }
  if breaks then
    endEncode (raise (bump s Reg.ENCODE.FRAMES_DROPPED) Reg.ENCODE.ENCODE_EVENTS_FRAME_DROPPED) i e j true
  else if j.sched.next = j.sched.total then endEncode s i e j true
  else updEncode s i (fun e => { e with job := some j })

/-- The writes of a job beyond those of its blocks: those outside its areas are suppressed and counted (R205). -/
def strayEncodeWrites (s : State) (out : Nat) (writes : List (Nat × List Byte)) : State × Bool :=
  let blocked := (writes.filter (fun w => !writeAllowed s out w.1 w.2.length)).length
  let s := (writes.filter (fun w => writeAllowed s out w.1 w.2.length)).foldl (fun s w => store s w.1 w.2) s
  if blocked = 0 then (s, false) else (raise (bumpBy s Reg.ENCODE.WRITE_BLOCKED blocked) Reg.ENCODE.ENCODE_EVENTS_WRITE_BLOCKED, true)

/-- A row job runs (R187): a job that reaches its cap is suspended once, and the second time it stops searching. -/
def runEncodeRow (s : State) (i : Nat) (e : EncodeStream) (j : EncodeFrame) (f : LayerFrame) (w : EncodeWork) : State :=
  let w := f.held.getD w
  let p := jobPlace e j j.sched.next
  let cap := rd s Reg.ENCODE.ENCODE_CONFIG_CAP_PER_BLOCK * (blocksAlong p.width * p.rows)
  let need := (w.blocks.map (fun b => b.cycles)).sum
  let r := strayEncodeWrites s f.buffer w.writes
  if r.2 || w.failed then encodeFailure (dropEncode r.1 i true) e.cluster
  else if need < cap || (j.sched.suspended && decide (need < 2 * cap)) then rowCoded r.1 i e j p f w w.blocks.length
  else if j.sched.suspended then
    rowCoded (raise (bump r.1 Reg.ENCODE.ROWS_CUT) Reg.ENCODE.ENCODE_EVENTS_ROW_CUT) i e j p f w (searchedWithin (2 * cap) w.blocks)
  else
    let c := { j.sched with suspended := true, carried := need - cap, resumeAt := s.time.boundaries + 1 }
    let layers := j.layers.mapIdx (fun k g => if k = p.layer then { g with held := some w } else g)
    updEncode s i (fun e => { e with job := some { j with sched := c, layers := layers } })

/-- ENCODE_ROW_JOB: the next row of a stream's frame is coded. -/
def execEncodeRowJob (i : Nat) (w : EncodeWork) (s : State) : Host.Outcome State Fault Refusal :=
  match s.encodes.get i with
  | none => ok s
  | some e =>
    match e.job with
    | none => ok s
    | some j =>
      if !(inService s && j.sched.due s && decide (e.lateRun < 3) && inServiceEngine s 1 e.cluster && !s.faults.resetting.contains (engineId 1 e.cluster)) then ok s
      else
        match j.layers[(jobPlace e j j.sched.next).layer]? with
        | none => ok s
        | some f => ok (runEncodeRow s i e j f w)

/-! ### Tick boundaries and releases -/

/-- An encode stream's admission takes effect. -/
def activateEncode (s : State) (i : Nat) : State := updEncode s i (fun e => if e.state = .admitted then { e with state := .waiting } else e)

/-- At a boundary the requests that have reached the encoder are known to the frame that it begins (R184). -/
def encodeTick (s : State) : State := { s with encodes := s.encodes.all (fun _ (e : EncodeStream) => { e with keyKnown := e.keyAsked }) }

/-- Lateness of encode streams at the end of a tick of boundary count `n` (R62, R63). -/
def encodeLateness (s : State) (n : Nat) : State :=
  let late (e : EncodeStream) : Nat := (e.job.toList.map (fun j => j.sched.lateCount n) ++ e.startDue.map (fun w => w.2.lateCount n)).sum
  let counts := (List.range 8).map (fun c => (c, ((s.encodes.filter (fun e => e.2.cluster = c)).map (fun e => late e.2)).sum))
  let s := { s with encodes := s.encodes.all (fun _ (e : EncodeStream) =>
    if 0 < late e then { e with lateRun := e.lateRun + 1, job := e.job.map (fun j => { j with sched := j.sched.moved }) } else { e with lateRun := 0 }) }
  counts.foldl (fun s e => lateJobs s (Reg.ENCODE.OVERRUN.at e.1) e.2) s

/-- The release of an encode stream itself: no further frame starts. -/
def drainEncode (s : State) (i : Nat) : State := quietEncode (updEncode s i (fun e => { e with state := .draining, startDue := [] })) i

/-- Draining encode streams whose last buffer is FREE become FREE, and their charges go. -/
def endEncodes (s : State) : State :=
  (s.encodes.filter (fun e => e.2.state = .draining && e.2.job.isNone && (buffersOf s (encodeStream e.1)).isEmpty)).foldl
    (fun s e => dropCharges { s with encodes := s.encodes.del e.1 } 5 e.1) s

end Sys2Proof.Machine
end

