-- ==== Sys2Proof/Machine/Cipher.lean ====
section
/-!
DEFINITION. Cipher clusters and the Palm (chapter 11): placement of keys, slots, misses, loads, pins, and the SRTP state of the legs. What the consumers
of completions do stands in Machine/Consumers.lean.
-/

namespace Sys2Proof.Machine

def withCipher (s : State) (f : CipherState → CipherState) : State := { s with cipher := f s.cipher }

/-! ### Placement (R309 to R311, R317, R319) -/

/-- A slot that holds nothing. -/
def PalmSlot.emptySlot : PalmSlot :=
  { state := .empty, pinned := false, entry := 0, version := 0, usage := 0, refs := 0, lastUse := 0, useOrder := 0, loadedAt := 0, shares := 0 }

def palmSlot (s : State) (k : Nat) : PalmSlot := (s.cipher.slots.get k).getD .emptySlot

/-- A slot set; an EMPTY slot is not listed. -/
def setSlot (s : State) (k : Nat) (x : PalmSlot) : State :=
  withCipher s (fun c => { c with slots := if x.state = .empty then c.slots.del k else c.slots.put k x })

/-- A cluster that takes keys: enabled and not retired. -/
def clusterStands (s : State) (k : Nat) : Bool := bitOf (enabledMask s 4) k = 1 && !s.faults.retired.contains (engineId 4 k)

/-- The home cluster of a class of entries: its own, or the next that is not retired (R310, R319). -/
def homeOf (s : State) (cls : Nat) : Nat :=
  (((List.range 8).map (fun j => (cls + j) % 8)).find? (clusterStands s)).getD (cls % 8)

/-- VERSION of an entry (R311). -/
def keyVersion (s : State) (entry : Nat) : Nat := (s.cipher.versions.get entry).getD 0

/-- The lowest free entry of a class. -/
def freeEntry (s : State) (cls : Nat) : Option Nat :=
  ((List.range ((structure_ s).part.keyEntries / 8)).map (fun j => 8 * j + cls % 8)).find? (fun k => (s.trust.keys.get k).isNone)

/-- The slots of a cluster. -/
def slotsOf (cluster : Nat) : List Nat := (List.range 128).map (fun j => 128 * cluster + j)

/-- Pins that the device reserves for itself in a class (R317). -/
def ownPins (cls : Nat) : Nat := if cls = 0 || cls = 4 then 4 else if cls = 7 then 1 else 0

/-- Slots that pinned tunnels, and the device's own pins, reserve in a cluster. -/
def pinsReserved (s : State) (cluster : Nat) : Nat :=
  ((List.range 8).filter (fun c => homeOf s c = cluster)).foldl (fun n c => n + ownPins c) 0
    + 2 * (s.gauntlet.tunnels.filter (fun t => t.2.pinned && homeOf s (t.1 % 8) = cluster)).length

/-- Slots reserved in all. -/
def pinsInAll (s : State) : Nat := 9 + 2 * (s.gauntlet.tunnels.filter (fun t => t.2.pinned)).length

/-- Whether one more pinned tunnel of an ID fits. -/
def pinFits (s : State) (tunnel : Nat) : Bool :=
  decide (pinsReserved s (homeOf s (tunnel % 8)) + 2 ≤ 32) && decide (pinsInAll s + 2 ≤ rd s Reg.CIPHER.CIPHER_CONFIG_PIN_LIMIT)

/-! ### Misses and loads (R312 to R315) -/

/-- The slot that a miss takes, if one can be had now: an EMPTY unpinned one, or the RESIDENT unpinned one without references that was used
least recently. -/
def slotForMiss (s : State) (cluster : Nat) : Option Nat :=
  match (slotsOf cluster).find? (fun k => (palmSlot s k).state = .empty) with
  | some k => some k
  | none =>
    leastBy (fun k => ((palmSlot s k).useOrder : Int))
      ((slotsOf cluster).filter (fun k => (palmSlot s k).state = .resident && !(palmSlot s k).pinned && (palmSlot s k).refs = 0))

/-- A slot begins to load a key. -/
def beginLoad (s : State) (k entry version usage refs : Nat) (pinned : Bool) : State :=
  let s := setSlot s k { state := .loading, pinned := pinned, entry := entry, version := version, usage := usage, refs := refs, lastUse := s.time.tickCount,
                         useOrder := s.cipher.order, loadedAt := 0, shares := 0 }
  bump (withCipher s (fun c => { c with loads := if pinned then c.loads else c.loads ++ [k],
                                        pinnedLoads := if pinned then c.pinnedLoads ++ [k] else c.pinnedLoads, order := c.order + 1 })) Reg.CIPHER.PALM_LOADS

/-- The usage of an entry. -/
def usageOf (s : State) (entry : Nat) : Nat := ((s.trust.keys.get entry).map (·.usage)).getD 0

/-- Misses that wait in a cluster take slots as long as there are any (R315). -/
def serveWaits (s : State) (cluster : Nat) : List WaitingMiss → State
  | [] => s
  | w :: rest =>
    if w.cluster ≠ cluster then serveWaits s cluster rest
    else
      match slotForMiss s cluster with
      | none => s
      | some k =>
        let mine (j : CipherJob) : Bool := j.cluster = cluster && j.entry = w.entry && j.version = w.version && j.slot.isNone
        let n := (s.cipher.jobs.filter mine).length
        let s := beginLoad s k w.entry w.version (usageOf s w.entry) n false
        serveWaits (withCipher s (fun c => { c with missWaits := c.missWaits.erase w,
                                                    jobs := c.jobs.map (fun j => if mine j then { j with slot := some k } else j) })) cluster rest

/-- A slot gives up one reference: a STALE one without references becomes EMPTY, and waiting misses look again. -/
def dropRef (s : State) (k : Nat) : State :=
  let x := palmSlot s k
  let x := { x with refs := x.refs - 1 }
  let s := setSlot s k (if x.state = .stale && x.refs = 0 then .emptySlot else x)
  serveWaits s (k / 128) s.cipher.missWaits

/-- Every slot of an entry's version becomes STALE (R316). -/
def staleEntry (s : State) (entry version : Nat) : State :=
  (s.cipher.slots.filter (fun e => e.2.entry = entry && e.2.version = version && e.2.state ≠ .empty && e.2.state ≠ .stale)).foldl (fun s e =>
    let s := withCipher s (fun c => { c with pinnedLoads := if e.2.refs = 0 then c.pinnedLoads.erase e.1 else c.pinnedLoads,
                                             loads := if e.2.refs = 0 then c.loads.erase e.1 else c.loads,
                                             pins := if c.pins.get entry = some e.1 then c.pins.del entry else c.pins })
    let s := setSlot s e.1 (if e.2.refs = 0 then .emptySlot else { e.2 with state := .stale, pinned := false })
    serveWaits s (e.1 / 128) s.cipher.missWaits) s

/-- An entry is pinned: it takes a slot of its home cluster and is loaded at once (R317). -/
def pinEntry (s : State) (entry : Nat) : State :=
  let free (k : Nat) : Bool :=
    let x := palmSlot s k
    x.state = .empty || (x.state = .resident && !x.pinned && x.refs = 0)
  match (slotsOf (homeOf s (entry % 8))).find? free with
  | none => s
  | some k =>
    beginLoad (withCipher s (fun c => { c with pins := c.pins.put entry k })) k entry (keyVersion s entry) (usageOf s entry) 0 true

/-- The 56 bytes that an entry holds: its key and salt under the Table KEK (R89). -/
def wrappedForm (s : State) (k : KeyEntry) : List Byte :=
  Config.aesWrap (toLE 32 (s.trust.tableKek.getD 0)) (toLE 32 k.key ++ toLE 12 k.salt ++ zeros 4)

/-- A key enters an entry of the wrapped key table. -/
def putKey (s : State) (entry : Nat) (k : KeyEntry) : State := { s with trust := { s.trust with keys := s.trust.keys.put entry k } }

/-- An entry becomes FREE: its slots become STALE. -/
def releaseKey (s : State) (entry : Nat) : State :=
  let s := staleEntry s entry (keyVersion s entry)
  withCipher { s with trust := { s.trust with keys := s.trust.keys.del entry } }
    (fun c => { c with pins := c.pins.del entry, versions := c.versions.put entry (keyVersion s entry + 1), replacing := c.replacing.filter (fun r => r.1 ≠ entry) })

/-- A key replaces the one of an entry at a tick boundary (R316); an archive sequence starts anew (R435). -/
def replaceKey (s : State) (entry : Nat) (k : KeyEntry) : State :=
  let pinned := (s.cipher.pins.get entry).isSome
  let s := putKey (staleEntry s entry (keyVersion s entry)) entry k
  let s := withCipher s (fun c => { c with versions := c.versions.put entry (keyVersion s entry + 1) })
  let s := { s with glove := { s.glove with sequences := s.glove.sequences.del entry } }
  if pinned then pinEntry s entry else s

/-- The replacements that wait for a boundary take effect. -/
def applyReplacements (s : State) : State :=
  let l := s.cipher.replacing
  l.foldl (fun s r => if (s.trust.keys.get r.1).isSome then replaceKey s r.1 r.2 else s) (withCipher s (fun c => { c with replacing := [] }))

/-! ### SRTP state (R306) -/

/-- The SRTP state of a leg, or of its RFC 4588 stream, which RFC 3711 gives a context of its own. -/
def srtpOf (s : State) (l : Nat) : SrtpState := (s.cipher.srtp.get l).getD .zero
def setSrtp (s : State) (l : Nat) (x : SrtpState) : State := withCipher s (fun c => { c with srtp := c.srtp.put l x })
def srtpCtx (s : State) (l : Nat) (rtx : Bool) : SrtpState := if rtx then (s.cipher.rtx.get l).getD .zero else srtpOf s l
def setSrtpCtx (s : State) (l : Nat) (rtx : Bool) (x : SrtpState) : State :=
  if rtx then withCipher s (fun c => { c with rtx := c.rtx.put l x }) else setSrtp s l x

/-- The rollover count that RFC 3711, section 3.3.1, estimates for a sequence number; -1 stands before the first. -/
def guessRoc (x : SrtpState) (seq : Nat) : Int :=
  if !x.started then 0
  else if x.highest < 32768 then (if x.highest + 32768 < seq then (x.roc : Int) - 1 else x.roc)
  else if seq + 32768 < x.highest then x.roc + 1 else x.roc

/-- The index of a packet, and the highest index accepted. -/
def srtpIndex (x : SrtpState) (seq : Nat) : Int := guessRoc x seq * 65536 + seq
def srtpHigh (x : SrtpState) : Int := (x.roc * 65536 + x.highest : Nat)

/-- Whether an index is old or already in a 64-packet window whose bit 0 is the highest index. -/
def windowHas (started : Bool) (high : Int) (window : Nat) (i : Int) : Bool :=
  decide (i < 0) || (started && (decide (i + 64 ≤ high) || (decide (i ≤ high) && bitOf window (high - i).toNat = 1)))

/-- A window after an index is accepted. -/
def windowPut (started : Bool) (high : Int) (window : Nat) (i : Int) : Nat :=
  if !started then 1
  else if high < i then (if 64 ≤ i - high then 1 else window * 2 ^ (i - high).toNat % 2 ^ 64 + 1)
  else setBit window (high - i).toNat

/-- A packet of a leg has been accepted under the index estimated before its decryption. -/
def acceptSrtp (x : SrtpState) (roc seq : Nat) : SrtpState :=
  let i : Int := (roc * 65536 + seq : Nat)
  let w := windowPut x.started (srtpHigh x) x.window i
  if !x.started || srtpHigh x < i then { x with roc := (i / 65536).toNat, highest := seq, window := w, started := true } else { x with window := w }

/-- The lowest-indexed leg of a participant, whose entry holds its SRTCP state. -/
def srtcpHolder (s : State) (p : Nat) : Option Nat := ((legsOfPart s p).map (·.1)).head?

/-- Whether an SRTCP index is old or seen, and the state after it is accepted. A state that has accepted none has an empty window. -/
def srtcpSeen (x : SrtpState) (i : Nat) : Bool := windowHas (decide (x.srtcpWindow ≠ 0)) x.srtcpIndex x.srtcpWindow i
def acceptSrtcp (x : SrtpState) (i : Nat) : SrtpState :=
  { x with srtcpWindow := windowPut (decide (x.srtcpWindow ≠ 0)) x.srtcpIndex x.srtcpWindow i,
           srtcpIndex := if x.srtcpWindow = 0 then i else max x.srtcpIndex i }

/-! ### Jobs (R296 to R303) -/

/-- A descriptor's 64 bytes as a cluster reads them (R299). -/
def readJobDesc (b : List Byte) : JobDesc :=
  let at_ (o n : Nat) : Nat := fromLE ((b.drop o).take n)
  let mode := at_ 1 1
  { op := at_ 0 1, mode := mode, ivBits := at_ 2 1, salted := bitOf (at_ 3 1) 0 = 1, page := bitOf (at_ 3 1) 1 = 1, pinned := bitOf (at_ 3 1) 2 = 1,
    reserved := decide (8 ≤ at_ 3 1) || at_ 0x1A 2 ≠ 0 || (mode ≠ 3 && at_ 0x14 4 ≠ 0), key := at_ 4 4, iv := at_ 8 (if mode = 3 then 16 else 12), aadLength := at_ 0x18 2,
    payloadLength := at_ 0x1C 4, aadAddr := at_ 0x20 8, srcAddr := at_ 0x28 8, dstAddr := at_ 0x30 8, completion := at_ 0x38 8 }

/-- The bytes of a descriptor. -/
def jobBytes (d : JobDesc) : List Byte :=
  toLE 1 d.op ++ toLE 1 d.mode ++ toLE 1 d.ivBits ++ toLE 1 (b2n d.salted + 2 * b2n d.page + 4 * b2n d.pinned + 8 * b2n d.reserved) ++ toLE 4 d.key
    ++ toLE 16 d.iv ++ toLE 2 d.aadLength ++ zeros 2 ++ toLE 4 d.payloadLength ++ toLE 8 d.aadAddr ++ toLE 8 d.srcAddr ++ toLE 8 d.dstAddr ++ toLE 8 d.completion

/-- A completion is written back to its port (R303): its 16 bytes. -/
def writeCompletion (s : State) (port completion status : Nat) (untrusted missed : Bool) (core stall : Nat) : State :=
  let b := toLE 8 completion ++ toLE 1 status ++ toLE 1 (b2n untrusted + 2 * b2n missed) ++ toLE 1 core ++ zeros 1 ++ toLE 4 (min stall (2 ^ 32 - 1))
  withCipher s (fun c => { c with delivered := c.delivered.put port b })

/-- The ports that may submit jobs (R300): ingress, forwarding and Band engines, Ethernet and PON port logic, and host and DMA ports for PAGE
jobs. -/
def maySubmit (port : Nat) (d : JobDesc) : Bool :=
  (List.range 8).any (fun i => port = enginePort 5 i || port = enginePort 6 i)
    || (List.range 4).any (fun i => port = enginePort 7 i)
    || ((List.range 4).any (fun i => port = enginePort 8 i) && d.mode = 3)
    || (isHostPort port && d.page)

/-- The bytes at the source and at the destination of a job. -/
def sourceBytes (d : JobDesc) : Nat := d.payloadLength + (if d.mode ≠ 3 && d.op = 1 then 16 else 0)
def destBytes (d : JobDesc) : Nat := d.payloadLength + (if d.mode ≠ 3 && d.op = 0 then 16 else 0)

/-- BAD_JOB (R302). -/
def badJob (d : JobDesc) : Bool :=
  d.reserved || decide (1 < d.op) || !(d.mode = 1 || d.mode = 2 || d.mode = 3)
    || (d.srcAddr ≠ d.dstAddr && decide (d.srcAddr < d.dstAddr + destBytes d) && decide (d.dstAddr < d.srcAddr + sourceBytes d))

/-- LENGTH (R297). -/
def badLength (d : JobDesc) : Bool :=
  if d.mode = 3 then d.ivBits ≠ 128 || d.aadLength ≠ 0 || d.page || decide (65535 < d.payloadLength)
  else d.ivBits ≠ 96 || decide (512 < d.aadLength) || (if d.page then d.payloadLength ≠ 4096 else decide (65535 < d.payloadLength))

/-- Whether a mode matches a usage (R296). -/
def modeMatches (mode usage : Nat) : Bool :=
  (mode = 1 && usage = 1) || (mode = 2 && (usage = 2 || usage = 3 || usage = 4 || usage = 18)) || (mode = 3 && (usage = 16 || usage = 17))

/-- The entry and the version that a descriptor's key names in a cluster, if they are usable there (R303, R310). -/
def jobKey (s : State) (cluster : Nat) (d : JobDesc) : Option (Nat × Nat) :=
  if d.pinned then
    let x := palmSlot s d.key
    if d.key / 128 = cluster && x.pinned && (x.state = .resident || x.state = .loading) then some (x.entry, x.version) else none
  else
    match s.trust.keys.get d.key with
    | some k => if homeOf s (d.key % 8) = cluster && decide (k.usableAt ≤ s.time.boundaries) then some (d.key, keyVersion s d.key) else none
    | none => none

/-- The first test of R303 that fails, or 0. -/
def jobStatus (s : State) (cluster : Nat) (d : JobDesc) : Nat :=
  if badJob d then 6
  else if badLength d then 1
  else
    match jobKey s cluster d with
    | none => 3
    | some k => if modeMatches d.mode (usageOf s k.1) then 0 else 2

/-- A job is accepted: a hit, a miss that takes a slot, or a miss that waits (R314, R315). -/
def acceptJob (s : State) (cluster port : Nat) (d : JobDesc) (purpose : JobPurpose) (entry version : Nat) : State :=
  let hit := (slotsOf cluster).find? (fun k => let x := palmSlot s k
    x.entry = entry && x.version = version && (x.state = .resident || x.state = .loading))
  let waits := s.cipher.missWaits.any (fun w => w.cluster = cluster && w.entry = entry && w.version = version)
  let job (missed : Bool) (slot : Option Nat) : CipherJob :=
    { id := s.cipher.nextId, missed := missed, cluster := cluster, port := port, desc := d, purpose := purpose, entry := entry, version := version, slot := slot }
  let add (s : State) (j : CipherJob) : State := withCipher s (fun c => { c with jobs := c.jobs ++ [j], nextId := c.nextId + 1 })
  match hit with
  | some k =>
    let x := palmSlot s k
    let s := setSlot s k { x with refs := x.refs + 1, lastUse := s.time.tickCount, useOrder := s.cipher.order }
    bump (withCipher (add s (job false (some k))) (fun c => { c with order := c.order + 1 })) Reg.CIPHER.PALM_HITS
  | none =>
    if waits then bump (add s (job false none)) Reg.CIPHER.PALM_HITS
    else
      let s := bump (bump s Reg.CIPHER.PALM_MISSES) (Reg.CIPHER.MISSES.at cluster)
      match slotForMiss s cluster with
      | some k => beginLoad (add s (job true (some k))) k entry version (usageOf s entry) 1 false
      | none =>
        let s := raise (bump s Reg.CIPHER.PALM_FULL) Reg.CIPHER.CIPHER_EVENTS_PALM_FULL
        withCipher (add s (job true none)) (fun c => { c with missWaits := c.missWaits ++ [{ cluster := cluster, entry := entry, version := version }] })

/-- The cycles that a job occupies its core (R298). -/
def coreCycles (d : JobDesc) : Nat :=
  if d.mode = 3 then max 1 (ceilDiv d.payloadLength 16) else ceilDiv d.aadLength 16 + ceilDiv d.payloadLength 16 + 1

/-- The first word of a job that the Crown refuses to its cluster: of its AAD, its source or its destination (R303). -/
def jobRefused (s : State) (j : CipherJob) : Option (Nat × CrownReply) :=
  let d := j.desc
  let port := enginePort 4 j.cluster
  ((rangeReply s port d.aadAddr d.aadLength).or (rangeReply s port d.srcAddr (sourceBytes d))).or (rangeReply s port d.dstAddr (destBytes d))

/-- The error response that a refused job meets. -/
def answerJob (s : State) (j : CipherJob) : State :=
  match jobRefused s j with
  | some e => answerCrown s (enginePort 4 j.cluster) e.1 e.2
  | none => s

/-- A payload under a job's key. -/
def underKey (op mode key iv : Nat) (source : List Byte) : List Byte := padTo source.length (Config.cipherOut op mode key iv source)

/-- The key of a job, and its IV with the key's salt (R299). -/
def jobSecret (s : State) (j : CipherJob) : Nat × Nat :=
  let k := s.trust.keys.get j.entry
  ((k.map (·.key)).getD 0, if j.desc.salted then j.desc.iv ^^^ (k.map (·.salt)).getD 0 else j.desc.iv)

/-- The AAD and the payload that a job reads. -/
def jobAad (s : State) (d : JobDesc) : List Byte := memRead s.mem d.aadAddr d.aadLength
def jobSource (s : State) (d : JobDesc) : List Byte := memRead s.mem d.srcAddr d.payloadLength

/-- What a completed job writes at its destination (R302, R304). -/
def jobOutput (s : State) (j : CipherJob) : State :=
  let d := j.desc
  let k := jobSecret s j
  let body := underKey d.op d.mode k.1 k.2 (jobSource s d)
  let tag := if d.op = 0 && d.mode ≠ 3 then padTo 16 (Config.gcmTag d.mode k.1 k.2 (jobAad s d) body) else []
  store s d.dstAddr (body ++ tag)

/-- The tag of a GCM decryption does not match the one at SRC_ADDR + P (R302, R304). -/
def tagDiffers (s : State) (j : CipherJob) : Bool :=
  let d := j.desc
  let k := jobSecret s j
  d.op = 1 && d.mode ≠ 3 && memRead s.mem (d.srcAddr + d.payloadLength) 16 ≠ padTo 16 (Config.gcmTag d.mode k.1 k.2 (jobAad s d) (jobSource s d))

/-- A job leaves its cluster and gives up its reference. -/
def removeJob (s : State) (j : CipherJob) : State :=
  let s := withCipher s (fun c => { c with jobs := c.jobs.filter (fun x => x.id ≠ j.id) })
  match j.slot with
  | some k => dropRef s k
  | none =>
    if s.cipher.jobs.any (fun x => x.cluster = j.cluster && x.entry = j.entry && x.version = j.version && x.slot.isNone) then s
    else withCipher s (fun c => { c with missWaits := c.missWaits.filter (fun w => !(w.cluster = j.cluster && w.entry = j.entry && w.version = j.version)) })

/-- The jobs that wait on a slot. -/
def jobsOnSlot (s : State) (k : Nat) : List CipherJob := s.cipher.jobs.filter (fun j => j.slot = some k)

/-! ### Loads and re-sharing (R307, R312, R313) -/

/-- The loads that the four ports work on: pinned slots first, then in order of arrival. -/
def loadsAtWork (s : State) : List Nat := (s.cipher.pinnedLoads ++ s.cipher.loads).take 4

/-- A load holds its port for 96 cycles: the port with the fewest busy cycles of this tick. -/
def countLoad (s : State) : State :=
  let p := (leastBy (fun p => (((s.cipher.portBusy.get p).getD 0 : Nat) : Int)) [0, 1, 2, 3]).getD 0
  withCipher s (fun c => { c with portBusy := c.portBusy.put p ((c.portBusy.get p).getD 0 + 96) })

/-- A load has ended. -/
def endLoad (s : State) (k : Nat) : State :=
  countLoad (withCipher s (fun c => { c with pinnedLoads := c.pinnedLoads.erase k, loads := c.loads.erase k }))

/-- A load delivers its shares: a slot that has become STALE in the meantime stays so. -/
def deliverShares (s : State) (k : Nat) : State :=
  let d := draw s
  let x := palmSlot d.1 k
  setSlot d.1 k { x with state := if x.state = .stale then .stale else .resident, loadedAt := s.time.boundaries, shares := d.2 }

/-- A load fails (R313); the jobs that wait on the slot are completed by the caller first. -/
def failLoad (s : State) (k entry : Nat) (free : Bool) : State :=
  let s := setSlot s k .emptySlot
  let s := fault (raise (bump s Reg.CIPHER.LOAD_FAILS) Reg.CIPHER.CIPHER_EVENTS_LOAD_FAIL) 0x60 12 (enginePort 4 (k / 128)) entry 0
  serveWaits (if free then releaseKey s entry else s) (k / 128) s.cipher.missWaits

/-- PALM_RESHARE: a RESIDENT slot takes a new mask every REFRESH_TICKS ticks. -/
def execPalmReshare (cluster slot : Nat) (s : State) : Host.Outcome State Fault Refusal :=
  let x := palmSlot s slot
  if inService s && slot / 128 = cluster && x.state = .resident && decide (rd s Reg.CIPHER.CIPHER_CONFIG_REFRESH_TICKS ≤ since s x.loadedAt) then
    let d := draw s
    ok (setSlot d.1 slot { x with loadedAt := s.time.boundaries, shares := d.2 })
  else ok s

/-! ### Tick boundaries -/

/-- The busy fraction over 1,024 ticks in units of 1/16,384. -/
def loadMean (s : State) (history : List Nat) : Nat := min 16383 (roundOf (history.sum * 16384) (1024 * tickCycles s))

/-- Core and port loads of the tick that has ended, and fresh masks for the next (R308, R321). -/
def cipherTick (s : State) : State :=
  let c := s.cipher
  let roll (busy : Table Nat) (h : Table (List Nat)) (n : Nat) : Table (List Nat) :=
    (List.range n).map (fun k => (k, (((busy.get k).getD 0) :: ((h.get k).getD [])).take 1024))
  let cores := roll c.coreBusy c.coreHistory 32
  let ports := roll c.portBusy c.portHistory 4
  let s := withCipher s (fun c => { c with coreLast := c.coreBusy, coreBusy := [], coreHistory := cores, portLast := c.portBusy, portBusy := [], portHistory := ports })
  let late := ((List.range 32).filter (fun k => clusterStands s (k / 4) && Config.maskLate s.trust.draws k)).length
  let s := { s with trust := { s.trust with draws := s.trust.draws + 32, generates := s.trust.generates + 32 } }
  if late = 0 then s else raise (bumpBy s Reg.CIPHER.MASK_STALLS late) Reg.CIPHER.CIPHER_EVENTS_MASK_STALL

end Sys2Proof.Machine
end

