-- ==== Sys2Proof/Machine/Classify.lean ====
section
/-!
DEFINITION. Parsing and classification of frames (chapter 10): the template path, the graph walker, the flow hash and the spread, and the lookup.
-/

namespace Sys2Proof.Machine

/-! ### Reading a frame -/

/-- Byte `i` of a frame's data, and the `n`-byte number in network order there. -/
def frameByte (b : List Byte) (i : Nat) : Nat := (b.getD i 0).toNat
def frameNum (b : List Byte) (i n : Nat) : Nat := fromBE ((b.drop i).take n)

/-- A packet as parsed (R276): its path, VLAN IDs, EtherType, L3 and L4 starts, cursor at ACCEPT, walker's template, whether the template path resolved an IP header, protocol, addresses (IPv6 or
IPv4-mapped form) and UDP ports, the start of the UDP payload and the end of the datagram, its fragmentation (identification, offset, more, start and
length of the fragment's data), and its tunnel ID. -/
structure Parsed where
  path : Nat
  outer : Nat
  inner : Nat
  etherType : Nat
  l3 : Option Nat
  l4 : Option Nat
  cursor : Option Nat
  template : Nat
  ip : Bool
  protocol : Nat
  source : Nat
  dest : Nat
  sourcePort : Nat
  destPort : Nat
  payload : Nat
  stop : Nat
  fragment : Option (Nat × Nat × Bool × Nat)
  tunnel : Nat
  walked : Bool
  deriving DecidableEq, Repr

/-- What parsing gives: a packet, a later fragment, a DROP node, or an exception of R280, on the template path or on a walk. -/
inductive ParseResult where
  | packet (p : Parsed)
  | laterFragment (p : Parsed)
  | drop
  | exception (reason : Nat)
  | walkException (reason : Nat)
  deriving DecidableEq, Repr

/-- Nothing parsed yet. -/
def Parsed.start : Parsed :=
  { path := 0, outer := 0, inner := 0, etherType := 0, l3 := none, l4 := none, cursor := none, template := 0, ip := false, protocol := 0, source := 0, dest := 0,
    sourcePort := 0, destPort := 0, payload := 0, stop := 0, fragment := none, tunnel := 0, walked := false }

/-! ### The graph walker (R278, R279) -/

/-- A read of the walker: none within reach, or the exception. -/
def walkRead (b : List Byte) (at_ n : Nat) : Nat ⊕ Nat :=
  if 512 < at_ + n then .inr 1 else if b.length < at_ + n then .inr 2 else .inl (frameNum b at_ n)

/-- The first match of a node for a selector value, or its default. -/
def matchOf (g : ParserGraph) (n : GraphNode) (v : Nat) : Nat :=
  match ((g.matches_.drop n.matchFirst).take n.matchCount).find? (fun m => m.1 = v) with
  | some m => m.2
  | none => n.defaultNext

/-- The walk from a node, with `hdrs` headers counted, at a cursor. -/
def walk (g : ParserGraph) (b : List Byte) : Nat → Nat → Nat → Nat → Parsed → ParseResult
  | 0, _, _, _, _ => .walkException 1
  | fuel + 1, node, hdrs, cursor, p =>
    match g.nodes[node]? with
    | none => .walkException 5
    | some n =>
      let p := if n.setsL3 then { p with l3 := some cursor } else p
      let p := if n.setsL4 then { p with l4 := some cursor } else p
      if n.kind = 1 then .packet { p with path := 4, template := n.result, cursor := some cursor }
      else if n.kind = 2 then .drop
      else if n.kind = 3 then .walkException 5
      else if 16 < hdrs + 1 then .walkException 1
      else
        match walkRead b (cursor + n.fieldOffset) n.fieldWidth, (if n.lenScale = 0 then .inl 0 else walkRead b (cursor + n.lenOffset) 1) with
        | .inr r, .inr r2 => .walkException (min r r2)
        | .inr r, .inl _ => .walkException r
        | .inl _, .inr r => .walkException r
        | .inl v, .inl len =>
          let nxt := matchOf g n v
          if nxt = 0xFFFF then .walkException 5
          else walk g b fuel nxt (hdrs + 1) (cursor + n.advance + (len &&& n.lenMask) * n.lenScale) p

/-- The walker starts at a start node, if there is one. -/
def startWalk (g : Option ParserGraph) (b : List Byte) (nextHeader : Bool) (hdrs cursor : Nat) (p : Parsed) : ParseResult :=
  match g with
  | none => .walkException 5
  | some g =>
    let node := if nextHeader then g.startNextHeader else g.startEtherType
    if node = 0xFFFF then .walkException 5 else walk g b 18 node hdrs cursor { p with walked := true }

/-! ### The template path (R276, R277) -/

/-- The UDP header at an offset, with `n` bytes of IP payload from there. A first fragment holds only part of its datagram. -/
def parseUdp (b : List Byte) (path at_ n : Nat) (p : Parsed) : ParseResult :=
  if b.length < at_ + 8 then .exception 2
  else
    let whole := match p.fragment with
      | some f => !f.2.2.1 && f.2.1 = 0
      | none => true
    if whole && frameNum b (at_ + 4) 2 ≠ n then .exception 2
    else .packet { p with path := path, l4 := some at_, sourcePort := frameNum b at_ 2, destPort := frameNum b (at_ + 2) 2, payload := at_ + 8, stop := at_ + n }

/-- Whether an IP length matches the bytes after the L2 header; a frame of exactly 64 bytes may carry more (R277). -/
def lengthOk (wire have_ named : Nat) : Bool := have_ = named || (wire = 64 && decide (named ≤ have_))

/-- IPv4 at `at_`. `wire` is the frame's length with its FCS. -/
def parseV4 (g : Option ParserGraph) (b : List Byte) (wire hdrs at_ : Nat) (p : Parsed) : ParseResult :=
  let ihl := frameByte b at_ % 16
  let total := frameNum b (at_ + 2) 2
  if b.length < at_ + 4 * ihl then .exception 2
  else if !lengthOk wire (b.length - at_) total || decide (total < 4 * ihl) then .exception 2
  else
    let field := frameNum b (at_ + 6) 2
    let more := decide (field / 8192 % 2 = 1)
    let offset := field % 8192 * 8
    let l4 := at_ + 4 * ihl
    let n := total - 4 * ihl
    let p := { p with l3 := some at_, ip := true, protocol := frameByte b (at_ + 9), source := 0xFFFF * 2 ^ 32 + frameNum b (at_ + 12) 4,
                      dest := 0xFFFF * 2 ^ 32 + frameNum b (at_ + 16) 4, payload := l4, stop := at_ + total,
                      fragment := if more || offset ≠ 0 then some (frameNum b (at_ + 4) 2, offset, more, n) else none }
    if offset ≠ 0 then .laterFragment p
    else if p.protocol = 17 then parseUdp b 2 l4 n p
    else startWalk g b true (hdrs + 1) l4 p

/-- IPv6 at `at_`. -/
def parseV6 (g : Option ParserGraph) (b : List Byte) (wire hdrs at_ : Nat) (p : Parsed) : ParseResult :=
  let n := frameNum b (at_ + 4) 2
  if b.length < at_ + 40 then .exception 2
  else if !lengthOk wire (b.length - at_) (n + 40) || n = 0 then .exception 2
  else
    let p := { p with l3 := some at_, ip := true, source := frameNum b (at_ + 8) 16, dest := frameNum b (at_ + 24) 16, stop := at_ + 40 + n }
    if frameByte b (at_ + 6) = 44 then
      if b.length < at_ + 48 || n < 8 then .exception 2
      else
        let field := frameNum b (at_ + 42) 2
        let more := decide (field % 2 = 1)
        let offset := field / 8 * 8
        let p := { p with protocol := frameByte b (at_ + 40), payload := at_ + 48,
                          fragment := if more || offset ≠ 0 then some (frameNum b (at_ + 44) 4, offset, more, n - 8) else none }
        if offset ≠ 0 then .laterFragment p
        else if p.protocol = 17 then parseUdp b 3 (at_ + 48) (n - 8) p
        else startWalk g b true (hdrs + 2) (at_ + 48) p
    else
      let p := { p with protocol := frameByte b (at_ + 6), payload := at_ + 40 }
      if p.protocol = 17 then parseUdp b 3 (at_ + 40) n p else startWalk g b true (hdrs + 1) (at_ + 40) p

/-- The header that the EtherType at `at_` names. -/
def parseNetwork (g : Option ParserGraph) (b : List Byte) (wire hdrs at_ : Nat) (p : Parsed) : ParseResult :=
  let e := frameNum b at_ 2
  let p := { p with etherType := e }
  let h := at_ + 2
  if b.length < h then .exception 2
  else if e = 0x88B5 then
    if b.length < h + 8 then .exception 2 else .packet { p with path := 1, l3 := some h, tunnel := frameNum b (h + 4) 4, payload := h, stop := b.length }
  else if e = 0x0800 then
    if b.length ≤ h then .exception 2
    else if frameByte b h / 16 = 4 && decide (5 ≤ frameByte b h % 16) then parseV4 g b wire hdrs h p
    else startWalk g b false hdrs at_ p
  else if e = 0x86DD then
    if b.length ≤ h then .exception 2
    else if frameByte b h / 16 = 6 then parseV6 g b wire hdrs h p
    else startWalk g b false hdrs at_ p
  else startWalk g b false hdrs at_ p

/-- A frame's data parsed under a graph. -/
def parseFrame (g : Option ParserGraph) (b : List Byte) (wire : Nat) : ParseResult :=
  if b.length < 14 then .exception 2
  else
    let t1 := frameNum b 12 2
    if t1 = 0x8100 || t1 = 0x88A8 then
      if b.length < 18 then .exception 2
      else
        let p := { Parsed.start with outer := frameNum b 14 2 % 4096 }
        if frameNum b 16 2 = 0x8100 then
          if b.length < 22 then .exception 2 else parseNetwork g b wire 3 20 { p with inner := frameNum b 18 2 % 4096 }
        else parseNetwork g b wire 2 16 p
    else parseNetwork g b wire 1 12 .start

/-! ### Spreading flows (R283, R284) -/

/-- The CRC-32C of a byte string. -/
def crc32c (l : List Byte) : Nat := crcFinal (l.foldl (fun c b => crcByte c b.toNat) 0xFFFFFFFF)

/-- The lower and the higher of two numbers of `n` bytes, as bytes. -/
def ordered (n a b : Nat) : List Byte := toBE n (min a b) ++ toBE n (max a b)

/-- A number, or zero where HASH_FIELDS leaves its field out. -/
def chosen (fields bit v : Nat) : Nat := if bitOf fields bit = 1 then v else 0

/-- The flow hash of a parsed frame. -/
def flowHash (fields : Nat) (b : List Byte) (p : Parsed) : Nat :=
  let macs := ordered 6 (chosen fields 1 (frameNum b 0 6)) (chosen fields 1 (frameNum b 6 6))
  let s : List Byte :=
    if p.ip then
      let ports := p.fragment.isNone
      let a := chosen fields 1 p.source * 65536 + (if ports then chosen fields 2 p.sourcePort else 0)
      let c := chosen fields 1 p.dest * 65536 + (if ports then chosen fields 2 p.destPort else 0)
      toBE 1 (chosen fields 0 p.protocol) ++ ordered 18 a c
    else if p.path = 1 then toBE 2 (chosen fields 0 p.etherType) ++ macs ++ toBE 4 (chosen fields 3 p.tunnel)
    else toBE 2 (chosen fields 0 p.etherType) ++ macs
  crc32c s % 512

/-- The flow hash of recirculated media. -/
def mediaHash (fields tunnel ssrc : Nat) : Nat := crc32c (toBE 4 (chosen fields 3 tunnel) ++ toBE 4 (chosen fields 3 ssrc)) % 512

/-- The ingress engine and the forwarding engine of an entry of the indirection table. -/
def indirection (s : State) (h : Nat) : Nat × Nat := s.ingress.indirection.getD h (h % 8, h / 8 % 8)

/-- The classify engine of a flow hash. -/
def classifyEngine (s : State) (h : Nat) : Nat :=
  if s.mode = .serving || s.mode = .holdover then h % 8 else (indirection s h).1

/-! ### The classification table (R285 to R288) -/

/-- The built-in keys. -/
def udpKey (protocol dest destPort source sourcePort : Nat) : List Byte := toBE 1 protocol ++ toBE 16 dest ++ toBE 2 destPort ++ toBE 16 source ++ toBE 2 sourcePort
def gauntletKey (outer inner tunnel : Nat) : List Byte := toBE 2 outer ++ toBE 2 inner ++ toBE 4 tunnel
def ssrcKey (kind index ssrc : Nat) : List Byte := toBE 1 kind ++ toBE 4 index ++ toBE 4 ssrc

/-- The generation's CLASSIFY templates and its graph. -/
def templatesOf (g : Generation) : List Template := ((g.tables.findSome? Record.classify?).map (·.templates)).getD []
def graphOf (g : Generation) : Option ParserGraph := g.programs.findSome? Record.parserGraph?

/-- Whether an entry serves packets of a generation now. -/
def entryServes (s : State) (gen : Nat) (e : ClassEntry) : Bool :=
  if e.anyGen then decide (e.activeAt ≤ s.time.boundaries)
  else decide (0 ≤ signedDiff 32 gen e.genFirst) && (e.genLast = 0xFFFFFFFF || decide (0 ≤ signedDiff 32 e.genLast gen))

/-- The entry that a key finds. -/
def lookup (s : State) (gen path template : Nat) (key : List Byte) : Option ClassEntry :=
  ((s.ingress.classify.find? (fun e => e.2.path = path && e.2.template = template && e.2.key = padTo 40 key && entryServes s gen e.2))).map (·.2)

/-- One extraction of a template, if its bytes can be read. -/
def extractField (b : List Byte) (p : Parsed) (x : Extraction) : Option (List Byte) :=
  let base := match x.base with
    | 0 => some 0
    | 1 => p.l3
    | 2 => p.l4
    | _ => if p.walked then p.cursor else none
  match base with
  | none => none
  | some o => if min b.length 512 < o + x.offset + x.width then none else some ((b.drop (o + x.offset)).take x.width)

/-- The key of a template. -/
def templateKey (b : List Byte) (p : Parsed) (t : Template) : Option (List Byte) :=
  t.extractions.foldl (fun k x => match k, extractField b p x with
    | some k, some y => some (k ++ y)
    | _, _ => none) (some [])

/-- The result of a packet of a generation: the first key that finds an entry (R288). -/
def classifyPacket (s : State) (g : Generation) (b : List Byte) (p : Parsed) : Option ClassEntry :=
  let builtin := if p.path = 1 then lookup s g.number 1 0 (gauntletKey p.outer p.inner p.tunnel)
    else if p.path = 2 || p.path = 3 then lookup s g.number p.path 0 (udpKey p.protocol p.dest p.destPort p.source p.sourcePort)
    else none
  let ts := if p.path = 4 then (templatesOf g).filter (fun t => t.path = 4 && t.id = p.template) else (templatesOf g).filter (fun t => t.path = p.path)
  match builtin with
  | some e => some e
  | none => ts.findSome? (fun t => (templateKey b p t).bind (lookup s g.number p.path t.id))

/-- Where an entry goes: a free slot of its bucket. -/
def freeSlot (s : State) (path template : Nat) (key : List Byte) : Option Nat :=
  let b := bucketOfKey (structure_ s).part.classifyEntries path template (padTo 40 key)
  if 8 ≤ bucketUse s b then none
  else ((List.range 8).map (fun k => 8 * b + k)).find? (fun k => (s.ingress.classify.get k).isNone)

def withIngress (s : State) (f : IngressState → IngressState) : State := { s with ingress := f s.ingress }

/-- An entry made by a directive that takes effect at the next boundary; none when its bucket is full. -/
def insertEntry (s : State) (path kind target : Nat) (key : List Byte) : Option State :=
  let e : ClassEntry :=
    { path := path, template := 0, resultKind := kind, target := target, arg := 0, genFirst := 0, key := padTo 40 key, genLast := 0xFFFFFFFF, anyGen := true,
      activeAt := s.time.boundaries + 1 }
  (freeSlot s path 0 key).map (fun k => withIngress s (fun i => { i with classify := i.classify.put k e }))

/-- The entries that a directive made for a result are removed. -/
def removeEntries (s : State) (kind target : Nat) : State :=
  withIngress s (fun i => { i with classify := i.classify.filter (fun e => !(e.2.anyGen && e.2.resultKind = kind && e.2.target = target)) })

/-- The rules of a new generation enter, those it drops end, and the reservations go (R288). -/
def adoptRules (s : State) (old new_ : List ClassRule) (gen : Nat) : State :=
  let dropped := old.filter (fun r => !new_.contains r)
  let ends (e : ClassEntry) : Bool := !e.anyGen && e.genLast = 0xFFFFFFFF
    && dropped.any (fun r => r.path = e.path && r.template = e.template && padTo 40 r.key = e.key && r.resultKind = e.resultKind && r.target = e.target && r.arg = e.arg)
  let s := withIngress s (fun i => { i with classify := i.classify.all (fun _ (e : ClassEntry) => if ends e then { e with genLast := gen - 1 } else e), reservedSlots := [] })
  (new_.filter (fun r => !old.contains r)).foldl (fun s r =>
    match freeSlot s r.path r.template r.key with
    | some k =>
      let e : ClassEntry :=
        { path := r.path, template := r.template, resultKind := r.resultKind, target := r.target, arg := r.arg, genFirst := gen, key := padTo 40 r.key,
          genLast := 0xFFFFFFFF, anyGen := false, activeAt := 0 }
      withIngress s (fun i => { i with classify := i.classify.put k e })
    | none => s) s

/-- Entries whose GEN_LAST precedes every live generation are freed (R288). -/
def freeOldRules (s : State) : State :=
  withIngress s (fun i => { i with classify := i.classify.filter (fun e =>
    e.2.anyGen || e.2.genLast = 0xFFFFFFFF || decide (0 ≤ signedDiff 32 e.2.genLast s.trust.current.number)) })

/-! ### Recirculation (R291) -/

/-- An inner packet reaches the recirculation queue of its engine. -/
def recirculate (s : State) (x : Recirculated) : State :=
  let fields := rd s Reg.INGRESS.INGRESS_CONFIG_HASH_FIELDS
  let h := if x.label = 1 then mediaHash fields x.tunnel (frameNum x.bytes 8 4)
    else match parseFrame (graphOf (generationOf s x.generation)) x.bytes (x.bytes.length + 4) with
      | .packet p => flowHash fields x.bytes p
      | .laterFragment p => flowHash fields x.bytes p
      | _ => flowHash fields x.bytes .start
  let e := classifyEngine s h
  let q := (s.ingress.recirc.get e).getD []
  if 512 ≤ q.length then raise (bump s Reg.INGRESS.RECIRC_DROPS) Reg.INGRESS.INGRESS_EVENTS_RECIRC_FULL
  else withIngress s (fun i => { i with recirc := i.recirc.put e (q ++ [x]) })

/-- A delivery of the ingress path to the host (R280). -/
def deliverIngress (s : State) (bytes : List Byte) (source reason port context stamp : Nat) : State :=
  match deliver s bytes source reason port context stamp with
  | some s => bump s Reg.INGRESS.HOST_DELIVERED
  | none => raise (bump (deliveryFailed s) Reg.INGRESS.HOST_DROPS) Reg.INGRESS.INGRESS_EVENTS_HOST_BACKLOG

end Sys2Proof.Machine
end

