-- ==== Sys2Proof/Machine/Gauntlet.lean ====
section
/-!
DEFINITION. Gauntlet site tunnels (chapter 12): frames and segments, sending, receiving, replay windows, epochs, up and down.
-/

namespace Sys2Proof.Machine

def updTunnel (s : State) (t : Nat) (f : Tunnel → Tunnel) : State := { s with gauntlet := { s.gauntlet with tunnels := s.gauntlet.tunnels.update t f } }

/-- The fields of the carrier: octets that the encapsulated frame adds to L (R324). -/
def carrierBytes (t : TunnelSpec) : Nat :=
  14 + (if t.vlanOuter = 0 then 0 else 4) + (if t.vlanInner = 0 then 0 else 4) + (if t.carrier = 1 then 28 else if t.carrier = 2 then 48 else 0) + 4

/-- The sequence floor of a tunnel ID (R323). -/
def floorOf (s : State) (t : Nat) : Nat := (s.gauntlet.floors.get t).getD 0
def setFloor (s : State) (t v : Nat) : State := { s with gauntlet := { s.gauntlet with floors := s.gauntlet.floors.put t v } }

/-- An admitted tunnel becomes ACTIVE (R323). -/
def activateTunnel (s : State) (t : Nat) : State :=
  updTunnel s t (fun x => if x.state = .admitted then
    { x with state := .active, sendSeq := max (now s) (floorOf s t), builtUntil := s.time.boundaries } else x)

/-! ### The tunnel's queue (R346) -/

/-- An item is queued on a tunnel, for a leg or for none; an overflow is dropped. -/
def queueTunnel (s : State) (t : Nat) (label : Nat) (leg : Option Nat) (bytes : List Byte) : State :=
  match s.gauntlet.tunnels.get t with
  | none => s
  | some x =>
    if x.state ≠ .active then s
    else if 4 * rd s Reg.BAND.BAND_LIMITS_LEG_QUEUE_PACKETS ≤ x.queue.length then bump s Reg.BAND.QUEUE_DROPS
    else updTunnel s t (fun x => { x with queue := x.queue ++ [{ label := label, bytes := bytes, queuedAt := s.time.boundaries, leg := leg }] })

/-! ### Segments (R329, R330) -/

/-- A segment: its header and its payload. -/
def segment (label : Nat) (first last : Bool) (payload : List Byte) : List Byte :=
  toBE 4 (label * 2 ^ 28 + b2n first * 2 ^ 27 + b2n last * 2 ^ 26 + payload.length) ++ payload

/-- As much of a packet as fits `room` bytes, and what is left of it. -/
def cutPiece (label : Nat) (first : Bool) (data : List Byte) (room : Nat) : List Byte × Option (Nat × List Byte) :=
  let n := min data.length (room - 4)
  (segment label first (n = data.length) (data.take n), if n = data.length then none else some (label, data.drop n))

/-- The items of a queue that may fill a frame: those queued before the boundary count `n`; messages first, then media and bulk, each in queue order. -/
def sendOrder (n : Nat) (q : List TunnelItem) : List TunnelItem :=
  let old := q.filter (fun i => decide (i.queuedAt < n))
  old.filter (fun i => i.label = 2 || i.label = 4) ++ old.filter (fun i => !(i.label = 2 || i.label = 4))

/-- Items fill `room` bytes: the segments, what is left of a split packet, and the items used up. -/
def fillItems : Nat → List TunnelItem → List Byte × Option (Nat × List Byte) × List TunnelItem
  | _, [] => ([], none, [])
  | room, i :: rest =>
    if room < 5 then ([], none, [])
    else
      let p := cutPiece i.label true i.bytes room
      match p.2 with
      | some left => (p.1, some left, [i])
      | none =>
        let r := fillItems (room - p.1.length) rest
        (p.1 ++ r.1, r.2.1, i :: r.2.2)

/-- A frame's segment area of `n` bytes, the split packet and the queue that it leaves, and whether it carries filler alone. -/
def fillTunnelFrame (n : Nat) (time : Option (List Byte)) (split : Option (Nat × List Byte)) (queue : List TunnelItem) (boundary : Nat) :
    List Byte × Option (Nat × List Byte) × List TunnelItem × Bool :=
  let a := match split with
    | some (label, data) => cutPiece label false data n
    | none => ([], none)
  let b := match time with
    | some t => if a.1.length + 28 ≤ n then segment 5 true true t else []
    | none => []
  let used := a.1 ++ b
  let r := if a.2.isSome then ([], a.2, []) else fillItems (n - used.length) (sendOrder boundary queue)
  let body := used ++ r.1
  let room := n - body.length
  (body ++ (if 4 ≤ room then segment 0 true true (zeros (room - 4)) else zeros room), r.2.1, r.2.2.foldl List.erase queue, body.isEmpty)

/-- The entry whose key a tunnel's epoch uses. -/
def epochKey (x : Tunnel) (epoch : Nat) : Option Nat :=
  if x.keyed && x.epochCurrent = epoch then some x.keyCurrent
  else if x.nextKeyed && x.epochNext = epoch then some x.keyNext
  else (x.oldEpoch.bind (fun o => if o.1 = epoch then some o.2 else none))

/-- The header of a frame (R327). -/
def tunnelHeader (t : Nat) (x : Tunnel) (b : BuiltFrame) : List Byte :=
  let h := toBE 1 (16 + 2 * b2n b.up + x.spec.role % 2) ++ toBE 1 0 ++ toBE 2 b.epoch ++ toBE 4 t ++ toBE 8 b.sequence ++ toBE 2 x.spec.frameLength ++ toBE 2 0
  h ++ toBE 4 (crc32c h)

/-- One frame is built for the slot at local time `slot` (R330, R346). A frame without a key for its epoch cannot be encrypted. -/
def buildFrame (s : State) (t : Nat) (slot : Nat) (probe : Bool) : State :=
  match s.gauntlet.tunnels.get t with
  | none => s
  | some x =>
    let time := if probe then
        let e := x.echo.getD (0, slot)
        some (toBE 8 slot ++ toBE 8 e.1 ++ toBE 8 (slot - e.2))
      else none
    let f := fillTunnelFrame (x.spec.frameLength - 40) time x.sending x.queue s.time.boundaries
    let b : BuiltFrame := { sequence := x.sendSeq, slot := slot, epoch := x.sendEpoch, up := x.up, area := f.1, filler := f.2.2.2, sealed_ := false }
    let next := (x.sendSeq + 1) % 2 ^ 64
    let s := setFloor s t next
    if (epochKey x x.sendEpoch).isSome then
      let used := (sendOrder s.time.boundaries x.queue).filter (fun i => !f.2.2.1.contains i)
      let leg := if f.2.1.isNone then none else match used.getLast? with
        | some i => i.leg
        | none => x.sendingLeg
      let s := updTunnel s t (fun x => { x with sendSeq := next, sending := f.2.1, sendingLeg := leg, queue := f.2.2.1, built := x.built ++ [b] })
      withCipher s (fun c => { c with submitted := c.submitted ++ [.gauntletOut t b.epoch (tunnelHeader t x b ++ b.area)] })
    else bump (updTunnel s t (fun x => { x with sendSeq := next })) Reg.BAND.CIPHER_DROPS

/-- The frames of one tick that begins at local time `tr`, `k` ticks from now. -/
def buildTick (s : State) (t tr k : Nat) : State :=
  match s.gauntlet.tunnels.get t with
  | none => s
  | some x =>
    let f := x.spec.framesPerTick
    let probe := (s.time.tickCount + k) % 2 ^ 32 % max 1 (rd s Reg.GAUNTLET.GAUNTLET_CONFIG_TIME_PROBE_TICKS) = 0
    (List.range f).foldl (fun s i => buildFrame s t (tr + k * Config.tickNs + (i * 125 / max 1 f + x.spec.phase) * 1000) (probe && i = 0)) s

/-- A release builds the frames of `n` ticks from now on, as one run; a tick is never built twice. -/
def releaseTunnel (s : State) (t tr n : Nat) : State :=
  match s.gauntlet.tunnels.get t with
  | none => s
  | some x =>
    let s := (List.range n).foldl (fun s k => if x.builtUntil ≤ s.time.boundaries + k then buildTick s t tr k else s) s
    updTunnel s t (fun x => { x with builtUntil := max x.builtUntil (s.time.boundaries + n) })

/-- The encryption of the frame of a sequence has ended: its area and tag stand for its slot, or it is dropped (R344). -/
def sealFrame (s : State) (t seq : Nat) (done : Bool) (sealedArea : List Byte) : State :=
  match (s.gauntlet.tunnels.get t).bind (fun x => x.built.find? (fun b => !b.sealed_ && b.sequence = seq)) with
  | none => s
  | some _ =>
    if done then updTunnel s t (fun x => { x with built := x.built.map (fun y => if y.sequence = seq then { y with sealed_ := true, area := sealedArea } else y) })
    else bump (updTunnel s t (fun x => { x with built := x.built.filter (fun y => y.sequence ≠ seq) })) Reg.BAND.CIPHER_DROPS

/-- A frame enters its class queue at its slot: its header, its encrypted segment area and its tag. -/
def sendTunnelFrame (s : State) (t : Nat) (x : Tunnel) (b : BuiltFrame) : State :=
  let s := enqueueClass s x.spec.egress x.spec.cls
    { agg := 16384 + t, length := max 64 (x.spec.frameLength + carrierBytes x.spec), bytes := tunnelHeader t x b ++ b.area, stamp := nowNs s, finish := 0,
      tunnel := true, waited := false, headSince := none, fragment := false, leg := none, rtcp := false }
  let s := updTunnel s t (fun x => { x with built := x.built.filter (fun y => y.sequence ≠ b.sequence), framesSent := min (x.framesSent + 1) (2 ^ 32 - 1) })
  let s := bump s Reg.GAUNTLET.FRAMES_SENT
  if b.filler then bump s Reg.GAUNTLET.FILLER_FRAMES else s

/-- TUNNEL_FRAME_SLOT: the slot of the tunnel's next frame begins. A frame whose encryption has not ended waits for it. -/
def execTunnelFrameSlot (t : Nat) (s : State) : Host.Outcome State Fault Refusal :=
  match s.gauntlet.tunnels.get t with
  | none => ok s
  | some x =>
    match x.built with
    | [] => ok s
    | b :: _ =>
      if !(inService s && b.sealed_) then ok s
      else
        match reach s b.slot with
        | some s => ok (sendTunnelFrame s t x b)
        | none => ok s

/-! ### Receiving (R331, R332) -/

/-- Where a sequence stands against the replay window: 0 acceptable, 1 REPLAYED, 2 REPLAY_OLD. -/
def windowCheck (x : Tunnel) (seq : Nat) : Nat :=
  let d := signedDiff 64 seq x.rxHigh
  if !x.rxAny then 0 else if d ≤ -4096 then 2 else if d ≤ 0 && x.window.contains seq then 1 else 0

/-- The window after a sequence is accepted. -/
def windowAccept (x : Tunnel) (seq : Nat) : Tunnel :=
  let high := if !x.rxAny || 0 < signedDiff 64 seq x.rxHigh then seq else x.rxHigh
  { x with rxAny := true, rxHigh := high, window := (seq :: x.window).filter (fun q => decide (-4096 < signedDiff 64 q high)) }

/-- Whether an epoch is acceptable (R333). -/
def epochOk (s : State) (x : Tunnel) (epoch : Nat) : Bool :=
  (x.keyed && x.epochCurrent = epoch) || (x.nextKeyed && x.epochNext = epoch)
    || (match x.oldEpoch with
        | some o => o.1 = epoch && decide (s.time.boundaries < x.oldUntil)
        | none => false)

/-- A frame is rejected. -/
def rejectFrame (s : State) (t : Nat) (f : Fld) : State :=
  bump (updTunnel s t (fun x => { x with framesRejected := min (x.framesRejected + 1) (2 ^ 32 - 1) })) f

/-- The header of a received frame (R327): its fields, whether a reserved field is not zero, and whether HEADER_CRC holds. -/
structure TunnelHeader where
  version : Nat
  reserved : Bool
  up : Bool
  role : Nat
  epoch : Nat
  tunnelId : Nat
  sequence : Nat
  length : Nat
  crcOk : Bool
  deriving DecidableEq, Repr

/-- The header that a frame's first 24 bytes spell. -/
def readTunnelHeader (b : List Byte) : TunnelHeader :=
  let flags := frameByte b 0
  { version := flags / 16, reserved := flags / 4 % 4 ≠ 0 || frameByte b 1 ≠ 0 || frameNum b 18 2 ≠ 0, up := bitOf flags 1 = 1, role := flags % 2,
    epoch := frameNum b 2 2, tunnelId := frameNum b 4 4, sequence := frameNum b 8 8, length := frameNum b 16 2,
    crcOk := frameNum b 20 4 = crc32c (b.take 20) }

/-- Step 1 of R331. -/
def headerFits (a : TunnelArrival) (x : Tunnel) : Bool :=
  let h := readTunnelHeader a.frame
  h.version = 1 && !h.reserved && h.length = x.spec.frameLength && a.frame.length = x.spec.frameLength && h.crcOk && h.tunnelId = a.tunnel
    && h.role ≠ x.spec.role % 2

/-- The Gauntlet block takes the frame that arrived first: the checks before decryption, in order (R331). -/
def takeArrival (s : State) (a : TunnelArrival) (x : Tunnel) : State :=
  let h := readTunnelHeader a.frame
  if !headerFits a x then rejectFrame s a.tunnel Reg.GAUNTLET.HEADER_BAD
  else if x.state ≠ .active then rejectFrame s a.tunnel Reg.GAUNTLET.NOT_ACTIVE
  else if !epochOk s x h.epoch then rejectFrame s a.tunnel Reg.GAUNTLET.EPOCH_UNKNOWN
  else
    match windowCheck x h.sequence with
    | 0 => withCipher s (fun c => { c with submitted := c.submitted
        ++ [.gauntletIn a.tunnel h.epoch h.sequence h.up a.stamp a.boundary a.port a.generation a.frame] })
    | 1 => rejectFrame s a.tunnel Reg.GAUNTLET.REPLAYED
    | _ => rejectFrame s a.tunnel Reg.GAUNTLET.REPLAY_OLD

/-- GAUNTLET_FRAME_RX: the oldest TUNNEL_END frame reaches the Gauntlet block. -/
def execGauntletFrameRx (port stamp : Nat) (frame : List Byte) (s : State) : Host.Outcome State Fault Refusal :=
  match s.gauntlet.arrivals with
  | [] => ok s
  | a :: rest =>
    if !(inService s && a.port = port && a.stamp = stamp && a.frame = frame) then ok s
    else
      let s := { s with gauntlet := { s.gauntlet with arrivals := rest } }
      match s.gauntlet.tunnels.get a.tunnel with
      | none => ok s
      | some x => ok (takeArrival s a x)

/-! ### Segments received (R335, R336) -/

/-- A segment as parsed: its label, BEGIN, END and its payload. -/
structure Segment where
  label : Nat
  first : Bool
  last : Bool
  payload : List Byte
  deriving DecidableEq, Repr

/-- The segments of an area, and whether parsing met a bad one. -/
def parseSegments : Nat → List Byte → List Segment × Bool
  | 0, _ => ([], false)
  | fuel + 1, b =>
    if b.length < 4 then ([], false)
    else
      let h := fromBE (b.take 4)
      let n := h % 65536
      if h / 65536 % 1024 ≠ 0 || b.length < 4 + n then ([], true)
      else
        let r := parseSegments fuel (b.drop (4 + n))
        ({ label := h / 2 ^ 28, first := bitOf h 27 = 1, last := bitOf h 26 = 1, payload := (b.drop 4).take n } :: r.1, r.2)

/-- A whole inner packet is delivered by its label (R329). -/
def deliverInner (s : State) (t label stamp port gen : Nat) (bytes : List Byte) : State :=
  if label = 1 || label = 3 then recirculate s { label := label, tunnel := t, generation := gen, stamp := stamp, port := port, bytes := bytes }
  else
    match deliver s bytes (if label = 2 then 3 else 4) 0 port t stamp with
    | some s => s
    | none => raise (bump (deliveryFailed s) Reg.INGRESS.HOST_DROPS) Reg.INGRESS.INGRESS_EVENTS_HOST_BACKLOG

/-- A number held within 32 bits, and within 32 signed bits. -/
def clamp32 (n : Int) : Nat := (max 0 (min n (2 ^ 32 - 1))).toNat
def clampS32 (n : Int) : Int := max (-(2 ^ 31)) (min n (2 ^ 31 - 1))

/-- A TIME segment is consumed (R336). -/
def takeProbe (s : State) (t rx : Nat) (b : List Byte) : State :=
  if b.length ≠ 24 then s
  else
    let sent := fromBE (b.take 8)
    let echo := fromBE ((b.drop 8).take 8)
    let hold := fromBE (b.drop 16)
    updTunnel s t (fun x =>
      let x := { x with echo := some (sent, rx) }
      if echo = 0 then x
      else
        let rtt : Int := (rx : Int) - echo - hold
        { x with rtt := (clamp32 rtt : Nat), offset := clampS32 ((sent : Int) + Int.fdiv rtt 2 - rx) })

/-- The partial packet of a tunnel is discarded. -/
def losePartial (s : State) (t : Nat) : State :=
  match (s.gauntlet.tunnels.get t).bind (·.reassembly) with
  | some _ => bump (updTunnel s t (fun x => { x with reassembly := none })) Reg.GAUNTLET.REASSEMBLY_LOST
  | none => s

/-- One segment; `follows` says that its frame follows the last one in sequence. -/
def takeSegment (t stamp port gen : Nat) (follows : Bool) (s : State) (g : Segment) : State :=
  if g.label = 0 then s
  else if g.label = 5 then takeProbe s t stamp g.payload
  else if 6 ≤ g.label then bump s Reg.GAUNTLET.LABEL_RESERVED
  else
    let held := (s.gauntlet.tunnels.get t).bind (·.reassembly)
    let continues := match held with
      | some p => follows && p.label = g.label && !g.first
      | none => false
    if !continues && !g.first then
      match held with
      | some _ => losePartial s t
      | none => bump s Reg.GAUNTLET.REASSEMBLY_LOST
    else
      let before := if continues then (held.map (·.bytes)).getD [] else []
      let s := if continues then updTunnel s t (fun x => { x with reassembly := none }) else losePartial s t
      let whole := before ++ g.payload
      if 9212 < whole.length then bump s Reg.GAUNTLET.OVERSIZE_INNER
      else if g.last then (if whole.isEmpty then s else deliverInner s t g.label stamp port gen whole)
      else updTunnel s t (fun x => { x with reassembly := some { label := g.label, bytes := whole } })

/-- The segments of a frame in order. A partial packet goes on from frame to frame; within a frame the next piece follows the last. -/
def takeSegments (s : State) (t stamp port gen : Nat) (follows : Bool) : List Segment → State
  | [] => s
  | g :: l => takeSegments (takeSegment t stamp port gen follows s g) t stamp port gen follows l

/-! ### Valid frames (R331 to R334) -/

/-- The first valid frame of the next epoch promotes it. -/
def promote (s : State) (t : Nat) (x : Tunnel) : State :=
  raise (updTunnel s t (fun y => { y with
    oldEpoch := some (x.epochCurrent, x.keyCurrent), oldUntil := s.time.boundaries + rd s Reg.GAUNTLET.GAUNTLET_CONFIG_OLD_EPOCH_TICKS,
    epochCurrent := x.epochNext, keyCurrent := x.keyNext, nextKeyed := false })) Reg.GAUNTLET.GAUNTLET_EVENTS_EPOCH_PROMOTED

/-- A frame is valid: it updates the entry. `boundary` is the boundary count of the tick that held its stamp. -/
def validFrame (s : State) (t : Nat) (x : Tunnel) (epoch seq : Nat) (peerUp : Bool) (stamp boundary : Nat) : State :=
  let s := updTunnel s t (fun y =>
    let y := windowAccept y seq
    { y with lastValid := stamp, lastValidBoundary := boundary, framesReceived := min (y.framesReceived + 1) (2 ^ 32 - 1), up := true, peerUp := peerUp,
             peerDownRaised := !peerUp })
  let s := bump s Reg.GAUNTLET.FRAMES_ACCEPTED
  let s := if x.up then s else raise s Reg.GAUNTLET.GAUNTLET_EVENTS_TUNNEL_UP
  let s := if !peerUp && !x.peerDownRaised then raise s Reg.GAUNTLET.GAUNTLET_EVENTS_PEER_DOWN else s
  if x.nextKeyed && x.epochNext = epoch then promote s t x else s

/-- The decryption of a frame has completed trusted: steps 6 and 7 of R331. -/
def acceptTunnelFrame (s : State) (t epoch seq : Nat) (peerUp : Bool) (stamp boundary port gen : Nat) (area : List Byte) : State :=
  match s.gauntlet.tunnels.get t with
  | none => s
  | some x =>
    if windowCheck x seq ≠ 0 then rejectFrame s t Reg.GAUNTLET.REPLAYED
    else
      let s := validFrame s t x epoch seq peerUp stamp boundary
      let r := parseSegments (area.length + 1) area
      let s := takeSegments s t stamp port gen (x.rxAny && seq = (x.rxHigh + 1) % 2 ^ 64) r.1
      if r.2 then raise (rejectFrame s t Reg.GAUNTLET.SEGMENT_BAD) Reg.GAUNTLET.GAUNTLET_EVENTS_SEGMENT_BAD else s

/-- TUNNEL_DOWN: 64 ticks after the tick of the last valid frame have passed without one. -/
def execTunnelDown (t : Nat) (s : State) : Host.Outcome State Fault Refusal :=
  match s.gauntlet.tunnels.get t with
  | none => ok s
  | some x =>
    if inService s && x.up && decide (x.lastValidBoundary + 65 ≤ s.time.boundaries) then
      ok (raise (updTunnel s t (fun x => { x with up := false, downCount := x.downCount + 1, peerDownRaised := false })) Reg.GAUNTLET.GAUNTLET_EVENTS_TUNNEL_DOWN)
    else ok s

/-! ### Keys and epochs (R333) -/

/-- A tunnel's key for an epoch is installed in an entry of its class. -/
def installEpoch (s : State) (t : Nat) (k : KeyEntry) (entry : Nat) : State :=
  let s := updTunnel (putKey s entry k) t (fun x =>
    if x.keyed then { x with nextKeyed := true, epochNext := k.epoch, keyNext := entry }
    else { x with keyed := true, epochCurrent := k.epoch, sendEpoch := k.epoch, keyCurrent := entry })
  if ((s.gauntlet.tunnels.get t).map (·.pinned)).getD false then pinEntry s entry else s

/-- The old key may go: it is neither retained nor the send epoch. -/
def oldKeyFree (s : State) (x : Tunnel) : Option Nat :=
  match x.oldEpoch with
  | some o => if x.oldUntil ≤ s.time.boundaries && x.sendEpoch ≠ o.1 then some o.2 else none
  | none => none

/-- The tokens that a tunnel holds back end: accepted, or refused with the reason in DETAIL (R93, R333). -/
def endTokens (s : State) (t status detail result : Nat) : State :=
  (s.host.deferred.filter (fun d => d.opcode = 0x30 && d.key = t)).foldl (fun s d =>
    let s := if status = 0 then bump s Reg.TRUST.TOKEN_ACCEPTED else if status = 16 then bump s Reg.TRUST.TOKEN_REFUSED else s
    finish s d status detail result) s

/-- OLD_EPOCH_EXPIRY: the old key of a tunnel is released, and a token that waited for it is installed, usable from the boundary after. -/
def execOldEpochExpiry (t : Nat) (s : State) : Host.Outcome State Fault Refusal :=
  match s.gauntlet.tunnels.get t with
  | none => ok s
  | some x =>
    match oldKeyFree s x with
    | none => ok s
    | some old =>
      let s := releaseKey (updTunnel s t (fun x => { x with oldEpoch := none, heldKey := none })) old
      match x.heldKey with
      | some k =>
        match freeEntry s t with
        | some e => ok (endTokens (installEpoch s t { k with usableAt := s.time.boundaries + 1 } e) t 0 0 e)
        | none => ok (endTokens s t 5 0 0)
      | none => ok s

/-! ### Release (R326) -/

/-- A released tunnel sends nothing from the next boundary on. -/
def stopTunnels (s : State) : State :=
  { s with gauntlet := { s.gauntlet with tunnels := s.gauntlet.tunnels.all (fun _ (x : Tunnel) =>
    if x.state = TunnelState.draining then { x with built := [], queue := [], sending := none, sendingLeg := none } else x) } }

/-- Whether a frame of a tunnel has yet to leave. -/
def tunnelBusy (s : State) (t : Nat) (x : Tunnel) : Bool :=
  !x.built.isEmpty || s.band.classQueues.any (fun e => e.2.packets.any (fun p => p.tunnel && p.agg = 16384 + t))

/-- The keys of a tunnel. -/
def tunnelKeys (x : Tunnel) : List Nat :=
  (if x.keyed then [x.keyCurrent] else []) ++ (if x.nextKeyed then [x.keyNext] else []) ++ (x.oldEpoch.map (·.2)).toList

/-- A DRAINING tunnel becomes FREE. -/
def freeTunnel (s : State) (t : Nat) (x : Tunnel) : State :=
  let s := removeEntries ((tunnelKeys x).foldl releaseKey s) 2 t
  let s := endTokens s t 16 4 0
  dropCharges { s with gauntlet := { s.gauntlet with tunnels := s.gauntlet.tunnels.del t } } 7 t

end Sys2Proof.Machine
end

