-- ==== Sys2Proof/Machine/Ingress.lean ====
section
/-!
DEFINITION. Ingress (chapter 10): the Cuffs, the parse engines, exceptions, fragments, participants' packets and recirculation.
-/

namespace Sys2Proof.Machine

/-! ### The Cuff (R267 to R273) -/

/-- A Cuff that has carried nothing. -/
def Cuff.fresh : Cuff :=
  { words := [], waiting := [], bank := false, filled := 0, stalled := false, sequence := 0, resync := false, gathered := [], poisoned := false, marked := false }

def cuffOf (s : State) (m : Nat) : Cuff := (s.ingress.cuffs.get m).getD .fresh
def withCuff (s : State) (m : Nat) (c : Cuff) : State := withIngress s (fun i => { i with cuffs := i.cuffs.put m c })

/-- Words of a bank of a Cuff (R271). -/
def bankWords (s : State) (m : Nat) : Nat := 32 * 2 ^ rd s (Reg.INGRESS.CUFF_CONFIG_BANK_SIZE.at m)

/-- The writer writes its waiting words: it fills its bank and moves to the other one once that is released, or it stalls. -/
def fillCuff (words : Nat) : Cuff → List CuffWord → Cuff
  | c, [] => { c with waiting := [], stalled := false }
  | c, w :: l =>
    if c.filled < words then fillCuff words { c with words := c.words ++ [(c.bank, w)], filled := c.filled + 1 } l
    else if c.words.all (fun x => x.1 = c.bank) then fillCuff words { c with bank := !c.bank, filled := 1, words := c.words ++ [(!c.bank, w)] } l
    else { c with waiting := w :: l, stalled := true }

/-- The data of a frame in words of 64 bytes; the last is tagged LAST. -/
def dataWords : Nat → List Byte → List CuffWord
  | 0, _ => []
  | fuel + 1, b =>
    if b.length ≤ 64 then [{ data := b, preface := false, last := true, boundary := 0 }] else { data := b.take 64, preface := false, last := false, boundary := 0 } :: dataWords fuel (b.drop 64)

/-- The 64 bytes of a preface (R269). -/
def prefaceBytes (p : Preface) : List Byte :=
  padTo 64 (toLE 4 p.length ++ toLE 1 p.port ++ toLE 1 p.queue ++ toLE 1 (b2n p.fcsBad + 2 * b2n p.ptpEvent) ++ zeros 1 ++ toLE 8 p.stamp ++ toLE 2 p.xgemPort
    ++ zeros 2 ++ toLE 4 p.sequence)

/-- A preface as the parse engine reads it. -/
def readPreface (b : List Byte) : Preface :=
  let at_ (o n : Nat) : Nat := fromLE ((b.drop o).take n)
  { length := at_ 0 4, port := at_ 4 1, queue := at_ 5 1, fcsBad := bitOf (at_ 6 1) 0 = 1, ptpEvent := bitOf (at_ 6 1) 1 = 1, stamp := at_ 8 8,
    xgemPort := at_ 16 2, sequence := at_ 20 4 }

/-- The boundary count of the tick that holds a stamp of now. -/
def boundaryOf (s : State) (stamp : Nat) : Nat :=
  if s.time.boundaryAt ≤ stamp then s.time.boundaries else s.time.boundaries - ceilDiv (s.time.boundaryAt - stamp) Config.tickNs

/-- A frame is written behind its preface. `b` is its data without FCS. -/
def writeCuff (s : State) (m : Nat) (p : Preface) (b : List Byte) : State :=
  let c := cuffOf s m
  let w : CuffWord := { data := prefaceBytes { p with sequence := c.sequence }, preface := true, last := false, boundary := boundaryOf s p.stamp }
  let c := { c with sequence := (c.sequence + 1) % 2 ^ 32 }
  let ws := w :: dataWords (b.length + 1) b
  withCuff s m (if c.stalled then { c with waiting := c.waiting ++ ws } else fillCuff (bankWords s m) c ws)

/-- CUFF_BANK_SWITCH: a stalled writer moves to the other bank, every word of which has been released. -/
def execCuffBankSwitch (m : Nat) (s : State) : Host.Outcome State Fault Refusal :=
  let c := cuffOf s m
  if c.stalled && c.words.all (fun x => x.1 = c.bank) then ok (withCuff s m (fillCuff (bankWords s m) { c with stalled := false } c.waiting)) else ok s

/-- The words of a frame up to its last, and what follows. -/
def splitFrame : List (Bool × CuffWord) → Option (List (Bool × CuffWord) × List (Bool × CuffWord))
  | [] => none
  | w :: l => if w.2.last then some ([w], l) else (splitFrame l).map (fun r => (w :: r.1, r.2))

/-- Corrected words are counted for the bank that holds them (R270). An error is a word's position and 0 corrected, 1 an uncorrectable word, 2 an
uncorrectable tag. -/
def countCorrected (s : State) (m : Nat) (ws : List (Bool × CuffWord)) (errors : List (Nat × Nat)) : State :=
  errors.foldl (fun s e => match ws[e.1]? with
    | some w => if e.2 = 0 then bump s (Reg.INGRESS.CUFF_CORRECTED.at (2 * m + b2n w.1)) else s
    | none => s) s

/-- Whether the words hold an uncorrectable data word, and whether they hold an uncorrectable tag or preface. -/
def badData (ws : List (Bool × CuffWord)) (errors : List (Nat × Nat)) : Bool :=
  errors.any (fun e => e.2 = 1 && ((ws[e.1]?).map (fun w => !w.2.preface)).getD false)
def badTag (ws : List (Bool × CuffWord)) (errors : List (Nat × Nat)) : Bool :=
  errors.any (fun e => (ws[e.1]?).isSome && (e.2 = 2 || (e.2 = 1 && ((ws[e.1]?).map (fun w => w.2.preface)).getD false)))

/-- The parse engine of a Cuff (R274): its own, or the next that is not retired. -/
def parseEngine (s : State) (m : Nat) : Nat :=
  let k := if m < 16 then m / 2 else if m = 16 then 3 else 7
  (((List.range 8).map (fun j => (k + j) % 8)).find? (fun e => !s.faults.retired.contains (engineId 5 e))).getD k

/-- Whether the parse engine is in a frame of a Cuff. -/
def Cuff.inFrame (c : Cuff) : Bool := c.marked || !c.gathered.isEmpty

/-- The Cuff that a parse engine serves next: the one whose frame it is in, else round-robin the next that holds a word (R274). -/
def nextCuff (s : State) (engine : Nat) : Option Nat :=
  let mine := (List.range 18).filter (fun m => parseEngine s m = engine)
  match mine.find? (fun m => (cuffOf s m).inFrame) with
  | some m => some m
  | none =>
    let last := (s.ingress.lastCuff.get engine).getD 17
    leastBy (fun m => ((m + 17 - last) % 18 : Nat)) (mine.filter (fun m => !(cuffOf s m).words.isEmpty))

/-! ### Exceptions (R280) -/

/-- What a packet carries through the parse engine: its bytes, its wire length, its port, its stamp and the boundary count of the tick that held it, its
generation, its class, the tunnel it came out of, and whether its read of a classification bucket came back poisoned. -/
structure PacketContext where
  bytes : List Byte
  wire : Nat
  port : Nat
  stamp : Nat
  boundary : Nat
  generation : Nat
  management : Bool
  nested : Option Nat
  poisoned : Bool
  deriving DecidableEq, Repr

/-- The counter of a reason. -/
def reasonCounter (r : Nat) : Fld :=
  if r = 1 then Reg.INGRESS.EXC_DEPTH else if r = 2 then Reg.INGRESS.EXC_LENGTH else if r = 3 then Reg.INGRESS.EXC_FRAGMENT
  else if r = 4 then Reg.INGRESS.EXC_NO_MATCH else if r = 5 then Reg.INGRESS.EXC_GRAPH_END else Reg.INGRESS.EXC_NESTED

/-- A frame takes an exception. -/
def takeException (s : State) (x : PacketContext) (reason : Nat) : State :=
  let s := bump s (reasonCounter reason)
  if x.management then deliverIngress s x.bytes 1 reason x.port 0 x.stamp else bump s Reg.INGRESS.MEDIA_EXC_DROPS

/-! ### Participants' packets (R289, R306) -/

/-- The leg that an SSRC of a participant (kind 0) or a tunnel (kind 1) names, if it is ACTIVE. -/
def legOfSsrc (s : State) (gen kind index ssrc : Nat) : Option Nat :=
  match lookup s gen 5 0 (ssrcKey kind index ssrc) with
  | some e => if e.resultKind = 1 && legActive s e.target then some e.target else none
  | none => none

/-- A job is submitted for a consumer. -/
def submitFor (s : State) (p : JobPurpose) : State := withCipher s (fun c => { c with submitted := c.submitted ++ [p] })

/-- Whether an SSRC is that of a leg's RFC 4588 stream. -/
def rtxOf (s : State) (l ssrc : Nat) : Bool := ((s.legs.get l).map (fun x => x.spec.rtx && decide (x.spec.rtxSsrc = ssrc) && decide (x.spec.ssrc ≠ ssrc))).getD false

/-- An RTP packet `u` of a leg: policed, tested for replay under its estimated index, and sent for decryption. `n` is the length of its datagram. -/
def takeRtp (s : State) (l n stamp gen : Nat) (u : List Byte) : State :=
  let r := police s l stamp n
  if !r.2 then r.1
  else
    let seq := frameNum u 2 2
    let rtx := rtxOf r.1 l (frameNum u 8 4)
    let st := srtpCtx r.1 l rtx
    if windowHas st.started (srtpHigh st) st.window (srtpIndex st seq) then bump r.1 Reg.CIPHER.SRTP_REPLAYED
    else submitFor r.1 (.srtpIn l seq (guessRoc st seq).toNat rtx stamp n gen u)

/-- The lowest-indexed ACTIVE RECEIVE leg of a participant. -/
def feedbackLeg (s : State) (p : Nat) : Option Nat := ((legsOfPart s p).find? (fun e => e.2.state = .active && e.2.spec.kind = 0)).map (·.1)

/-- The SRTCP index that a packet ends with (RFC 7714). -/
def srtcpIndexOf (u : List Byte) : Nat := frameNum u (u.length - 4) 4 % 2 ^ 31

/-- An SRTCP packet `u` of a participant: policed, tested for replay, and sent for decryption. -/
def takeRtcp (s : State) (p n stamp : Nat) (u : List Byte) : State :=
  let index := srtcpIndexOf u
  match feedbackLeg s p with
  | none => bump s Reg.INGRESS.NO_LEG
  | some l =>
    let r := police s l stamp n
    if !r.2 then r.1
    else if srtcpSeen (srtpOf r.1 ((srtcpHolder r.1 p).getD l)) index then bump r.1 Reg.CIPHER.SRTP_REPLAYED
    else submitFor r.1 (.srtcpIn p index stamp u)

/-- Whether a UDP payload is SRTCP (R289). -/
def isRtcp (u : List Byte) : Bool := 128 ≤ frameByte u 0 && frameByte u 0 ≤ 191 && 192 ≤ frameByte u 1 && frameByte u 1 ≤ 223

/-- The UDP payload `u` of a participant's datagram of `n` bytes. -/
def takeParticipant (s : State) (x : PacketContext) (p : Nat) (u : List Byte) (n : Nat) : State :=
  let first := frameByte u 0
  if first ≤ 3 then deliverIngress s x.bytes 2 0 x.port p x.stamp
  else if 128 ≤ first && first ≤ 191 then
    if isRtcp u then takeRtcp s p n x.stamp u
    else
      match legOfSsrc s x.generation 0 p (frameNum u 8 4) with
      | some l => takeRtp s l n x.stamp x.generation u
      | none => bump s Reg.INGRESS.NO_LEG
  else bump s Reg.INGRESS.DEMUX_DROPS

/-! ### Results (R286) -/

/-- The UDP payload of a parsed packet, and the length of its IP datagram. -/
def udpPayload (b : List Byte) (p : Parsed) : List Byte := (b.take p.stop).drop p.payload
def datagramLength (p : Parsed) : Nat := p.stop - p.l3.getD 0

/-- A frame is on its way to the Gauntlet block (R291). -/
def arriveTunnel (s : State) (x : PacketContext) (t : Nat) (frame : List Byte) : State :=
  { s with gauntlet := { s.gauntlet with arrivals := s.gauntlet.arrivals
    ++ [{ tunnel := t, frame := frame, stamp := x.stamp, boundary := x.boundary, port := x.port, generation := x.generation }] } }

/-- What the result of a lookup does. A TIME frame goes to the PTP engine: its own command follows. -/
def takeResult (s : State) (x : PacketContext) (p : Parsed) (e : ClassEntry) : State :=
  match e.resultKind with
  | 0 => takeParticipant s x e.target (udpPayload x.bytes p) (datagramLength p)
  | 2 => if x.nested.isSome then takeException s x 6 else arriveTunnel s x e.target (udpPayload x.bytes p)
  | 3 => queueTunnel s e.target (e.arg % 16) none x.bytes
  | 4 => sendSystem s e.target (e.arg % 8) x.bytes (nowNs s)
  | 5 => deliverIngress s x.bytes 7 0 x.port 0 x.stamp
  | _ => s

/-! ### IP fragments (R281, R282) -/

/-- The fragment entry of a datagram. -/
def fragmentOf (s : State) (p : Parsed) (id : Nat) : Option (Nat × FragEntry) :=
  s.ingress.fragments.find? (fun e => !e.2.closed && e.2.protocol = p.protocol && e.2.id = id && e.2.source = p.source && e.2.dest = p.dest)

def withFragment (s : State) (k : Nat) (e : FragEntry) : State := withIngress s (fun i => { i with fragments := i.fragments.put k e })

/-- An entry is closed without delivery. -/
def closeFragment (s : State) (k : Nat) (e : FragEntry) (f : Fld) : State := bump (withFragment s k { e with closed := true }) f

/-- The end of the window of an entry. -/
def fragmentEnd (s : State) (e : FragEntry) : Nat := e.first + rd s Reg.INGRESS.INGRESS_CONFIG_FRAG_TIMEOUT * Config.tickNs

/-- The reassembly area of a fragment entry (R281, R408). -/
def fragmentArea (s : State) (k : Nat) : Nat := (((structure_ s).map.regions.find? (fun r => r.code = 7)).map (·.base)).getD 0 + 9216 * k

/-- The datagram of an entry's area. -/
def gatheredBytes (s : State) (k : Nat) (e : FragEntry) : List Byte := memRead s.mem (fragmentArea s k) (e.total.getD 0)

/-- A complete datagram goes on as an unfragmented packet of its leg or of its tunnel (R281, R324); `x` is its last fragment. -/
def deliverDatagram (s : State) (k : Nat) (e : FragEntry) (x : PacketContext) : State :=
  let b := gatheredBytes s k e
  let u := b.drop 8
  match e.leg, e.tunnel with
  | some l, _ =>
    let n := (if isMapped e.source then 20 else 40) + b.length
    if isRtcp u then takeRtcp s e.participant n x.stamp u
    else if !legActive s l then bump s Reg.INGRESS.NO_LEG else takeRtp s l n x.stamp e.generation u
  | none, some t => arriveTunnel s { x with generation := e.generation } t u
  | none, none => s

/-- A fragment joins its entry. -/
def addFragment (s : State) (k : Nat) (e : FragEntry) (offset : Nat) (more : Bool) (data : List Byte) (x : PacketContext) : State :=
  if 0 ≤ signedDiff 64 x.stamp (fragmentEnd s e) then closeFragment s k e Reg.INGRESS.FRAG_TIMEOUTS
  else if e.parts.any (fun q => decide (q.1 < offset + data.length) && decide (offset < q.1 + q.2)) then closeFragment s k e Reg.INGRESS.FRAG_OVERLAPS
  else if 9216 < offset + data.length then closeFragment s k e Reg.INGRESS.FRAG_TOO_LONG
  else
    let e := { e with parts := e.parts ++ [(offset, data.length)], total := if more then e.total else some (offset + data.length) }
    let s := store s (fragmentArea s k + offset) data
    if e.total = some ((e.parts.map (·.2)).sum) then deliverDatagram (withFragment s k { e with closed := true }) k e x
    else withFragment s k e

/-- The decision of a first fragment: a leg, or none. -/
def fragmentDecision (s : State) (x : PacketContext) (p : Parsed) (e : ClassEntry) : Option Nat :=
  let u := udpPayload x.bytes p
  if e.resultKind = 0 && isRtcp u then feedbackLeg s e.target
  else if e.resultKind = 0 && 128 ≤ frameByte u 0 && frameByte u 0 ≤ 191 then legOfSsrc s x.generation 0 e.target (frameNum u 8 4) else none

/-- A first fragment that has been classified takes an entry of its engine. -/
def firstFragment (s : State) (x : PacketContext) (p : Parsed) (f : Nat × Nat × Bool × Nat) (c : ClassEntry) : State :=
  let data := (x.bytes.drop (p.payload - (if p.l4.isSome && p.protocol = 17 then 8 else 0))).take f.2.2.2
  match fragmentOf s p f.1 with
  | some (k, e) => addFragment s k e 0 f.2.2.1 data x
  | none =>
    let engine := classifyEngine s (flowHash (rd s Reg.INGRESS.INGRESS_CONFIG_HASH_FIELDS) x.bytes p)
    match ((List.range 1024).map (fun j => 1024 * engine + j)).find? (fun k => (s.ingress.fragments.get k).isNone) with
    | none => raise (bump s Reg.INGRESS.FRAG_TABLE_FULL) Reg.INGRESS.INGRESS_EVENTS_FRAG_TABLE_FULL
    | some k =>
      let leg := fragmentDecision s x p c
      let s := if leg.isNone && c.resultKind ≠ 2 then bump s Reg.INGRESS.NO_LEG else s
      let e : FragEntry :=
        { closed := false, engine := engine, protocol := p.protocol, id := f.1, source := p.source, dest := p.dest, first := x.stamp, parts := [], total := none,
          leg := leg, tunnel := if c.resultKind = 2 then some c.target else none, generation := x.generation, participant := c.target }
      addFragment s k e 0 f.2.2.1 data x

/-- FRAG_TIMEOUT: an entry is incomplete at the end of its window. -/
def execFragTimeout (k : Nat) (s : State) : Host.Outcome State Fault Refusal :=
  match s.ingress.fragments.get k with
  | some e =>
    if e.closed || !inService s then ok s
    else
      match reach s (fragmentEnd s e) with
      | some s => ok (closeFragment s k e Reg.INGRESS.FRAG_TIMEOUTS)
      | none => ok s
  | none => ok s

/-! ### The parse engine (R275) -/

/-- A frame or an inner packet is parsed and classified under a generation. -/
def parsePacket (s : State) (x : PacketContext) (g : Generation) : State :=
  let r := parseFrame (graphOf g) x.bytes x.wire
  let walked := match r with
    | .packet p => p.walked
    | .laterFragment _ => false
    | .drop => true
    | .exception _ => false
    | .walkException _ => true
  let s := if walked then bump s Reg.INGRESS.GRAPH_WALKS else bump s Reg.INGRESS.TEMPLATE_PATHS
  match r with
  | .drop => bump s Reg.INGRESS.GRAPH_DROPS
  | .exception n => takeException s x n
  | .walkException n => takeException s x n
  | .laterFragment p =>
    if x.management then takeException s x 3
    else
      match p.fragment with
      | none => s
      | some f =>
        match fragmentOf s p f.1 with
        | some (k, e) => addFragment s k e f.2.1 f.2.2.1 ((x.bytes.drop p.payload).take f.2.2.2) x
        | none => bump s Reg.INGRESS.FRAG_ORPHANS
  | .packet p =>
    if p.fragment.isSome && x.management then takeException s x 3
    else
      match if x.poisoned then none else classifyPacket s g x.bytes p with
      | none => if x.poisoned && x.management then bump s Reg.INGRESS.EXC_NO_MATCH else takeException s x 4
      | some e =>
        match p.fragment with
        | some f => if e.resultKind = 2 && x.nested.isSome then takeException s x 6 else firstFragment s x p f e
        | none => takeResult s x p e

/-- A frame that has been read from a Cuff. -/
def parseRead (s : State) (p : Preface) (boundary : Nat) (b : List Byte) (poisoned : Bool) : State :=
  let s := bump s Reg.INGRESS.FRAMES_PARSED
  let cls := bitsOf (rd s Reg.INGRESS.INGRESS_CONFIG_QUEUE_CLASS) (2 * p.queue + 1) (2 * p.queue)
  if p.fcsBad then bump s Reg.INGRESS.FCS_DROPS
  else if cls = 2 then s
  else parsePacket s { bytes := b, wire := p.length, port := p.port, stamp := p.stamp, boundary := boundary, generation := s.trust.current.number, management := cls = 1, nested := none,
                          poisoned := poisoned }
    s.trust.current

/-- A word's error loses its frame: the reader looks for the next preface. -/
def resyncCuff (s : State) (m : Nat) (c : Cuff) : State :=
  raise (bump (withCuff s m c) Reg.INGRESS.CUFF_RESYNC) Reg.INGRESS.INGRESS_EVENTS_CUFF_ERROR

/-- FRAME_PARSE: the parse engine of a Cuff takes its next frame. A frame that is not whole is marked, or streams on while the writer stalls. -/
def execFrameParse (m : Nat) (r : ParseReads) (s : State) : Host.Outcome State Fault Refusal :=
  let engine := parseEngine s m
  if !(inService s && decide (m < 18) && inServiceEngine s 5 engine && !s.faults.resetting.contains (engineId 5 engine)
        && ((s.ingress.recirc.get engine).getD []).isEmpty && nextCuff s engine = some m) then ok s
  else
    let c := cuffOf s m
    let served (s : State) : State := withIngress s (fun i => { i with lastCuff := i.lastCuff.put engine m })
    let c := if c.resync then { c with words := c.words.dropWhile (fun w => !w.2.preface), resync := false, gathered := [], poisoned := false } else c
    match splitFrame c.words with
    | none =>
      if !c.stalled then ok (withCuff s m { c with marked := !c.words.isEmpty })
      else
        let s := countCorrected s m c.words r.errors
        if badTag c.words r.errors then ok (resyncCuff s m { c with words := [], resync := true, gathered := [], poisoned := false, marked := false })
        else ok (withCuff s m { c with words := [], gathered := c.gathered ++ c.words.map (·.2), poisoned := c.poisoned || badData c.words r.errors, marked := false })
    | some (ws, rest) =>
      let s := served (countCorrected s m ws r.errors)
      let next := { c with words := rest, gathered := [], poisoned := false, marked := false }
      if badTag ws r.errors then ok (resyncCuff s m next)
      else if c.poisoned || badData ws r.errors then
        ok (raise (bump (withCuff s m next) Reg.INGRESS.CUFF_UNCORRECTABLE) Reg.INGRESS.INGRESS_EVENTS_CUFF_ERROR)
      else
        let all_ := c.gathered ++ ws.map (·.2)
        let head := all_.find? (·.preface)
        ok (parseRead (withCuff s m next) (readPreface ((head.map (·.data)).getD [])) ((head.map (·.boundary)).getD 0)
          ((all_.filter (fun w => !w.preface)).flatMap (·.data)) r.bucketPoisoned)

/-! ### Recirculation (R291, R292) -/

/-- The original packet in an RFC 4588 retransmission: its sequence number stands in the first two bytes of the payload (R117, R118). -/
def restoreOriginal (rtx : Bool) (p : MediaPacket) : MediaPacket :=
  let n := MediaPacket.headerRest p
  if rtx then { p with seq := frameNum p.payload n 2, payload := p.payload.take n ++ p.payload.drop (n + 2) } else p

/-- The bytes of an RTP packet's header with its CSRCs and extension: the AAD of its job (RFC 7714). -/
def rtpHeader (u : List Byte) : Nat :=
  let n := 12 + 4 * (frameByte u 0 % 16)
  if bitOf (frameByte u 0) 4 = 1 then n + 4 + 4 * frameNum u (n + 2) 2 else n

/-- An RTP packet as its bytes spell it; `layers` is what its codec's headers say of its layers. -/
def mediaOf (layers : MediaPacket) (u : List Byte) : MediaPacket :=
  { layers with head := frameByte u 0, seq := frameNum u 2 2, timestamp := frameNum u 4 4, marker := frameByte u 1 / 128 = 1, payload := u.drop 12 }

/-- A media packet out of a tunnel: its leg's bucket, and the forwarding engine. -/
def takeTunnelMedia (s : State) (x : Recirculated) (layers : MediaPacket) : State :=
  let ssrc := frameNum x.bytes 8 4
  match legOfSsrc s x.generation 1 x.tunnel ssrc with
  | none => bump s Reg.INGRESS.NO_LEG
  | some l =>
    let r := police s l x.stamp x.bytes.length
    if !r.2 then r.1
    else
      acceptMedia r.1 l (restoreOriginal (rtxOf s l ssrc) (mediaOf layers x.bytes)) x.bytes.length x.stamp

/-- RECIRCULATED: a parse engine takes the next inner packet of its recirculation queue. `layers` is what its codec's headers say of its layers. -/
def execRecirculated (engine : Nat) (r : InnerReads) (s : State) : Host.Outcome State Fault Refusal :=
  match (s.ingress.recirc.get engine).getD [] with
  | [] => ok s
  | x :: rest =>
    if !(inService s && inServiceEngine s 5 engine && !s.faults.resetting.contains (engineId 5 engine)) then ok s
    else
      let s := bump (withIngress s (fun i => { i with recirc := i.recirc.put engine rest })) Reg.INGRESS.RECIRCULATED
      let live := x.generation = s.trust.current.number || (s.trust.old.map (fun o => decide (o.number = x.generation))).getD false
      if !live then ok (bump s Reg.TRUST.GEN_DRAIN_DROP)
      else if x.label = 1 then
        ok (if r.bucketPoisoned then bump (bump s Reg.INGRESS.EXC_NO_MATCH) Reg.INGRESS.MEDIA_EXC_DROPS else takeTunnelMedia s x r.layers)
      else ok (parsePacket s { bytes := x.bytes, wire := x.bytes.length + 4, port := x.port, stamp := x.stamp, boundary := 0, generation := x.generation, management := false,
                               nested := some x.tunnel, poisoned := r.bucketPoisoned } (generationOf s x.generation))

/-! ### Engine resets and tick boundaries -/

/-- An engine reset of an ingress engine, or its retirement (R293). -/
def resetIngress (s : State) (engine : Nat) : State :=
  let n := ((s.ingress.recirc.get engine).getD []).length
  let mine := (List.range 18).filter (fun m => parseEngine s m = engine)
  let s := engineRegs s 5 engine
  let s := bumpBy s Reg.INGRESS.RECIRC_DROPS n
  withIngress s (fun i => { i with
    recirc := i.recirc.del engine, fragments := i.fragments.filter (fun e => e.2.engine ≠ engine),
    cuffs := i.cuffs.all (fun m (c : Cuff) => if mine.contains m && (c.marked || !c.gathered.isEmpty) then
      { c with resync := true, gathered := [], marked := false, poisoned := false } else c) })

/-- Closed fragment entries are FREE at a boundary. -/
def ingressTick (s : State) : State := withIngress s (fun i => { i with fragments := i.fragments.filter (fun e => !e.2.closed) })

end Sys2Proof.Machine
end

