-- ==== Sys2Proof/Machine/Consumers.lean ====
section
/-!
DEFINITION. The acceptance and the completion of cipher jobs (R300 to R305), and what each consumer does with a completion.
-/

namespace Sys2Proof.Machine

/-! ### Consumers (R305, R344) -/

/-- A packet of a send leg comes back from its cipher job: it enters its class queue as protected, its tag at its end, or it is dropped. -/
def srtpSent (s : State) (l : Nat) (done : Bool) (protected_ : List Byte) : State :=
  match s.band.released.find? (fun r => r.leg = l) with
  | none => s
  | some r =>
    let s := { s with band := { s.band with released := s.band.released.erase r } }
    if done then enqueueLegPacket s l protected_ r.packet else bump (dropFrom s (participantOf s l)) Reg.BAND.CIPHER_DROPS

/-- A received media packet has been decrypted trusted. -/
def srtpAccepted (s : State) (l roc : Nat) (rtx : Bool) (bytes stamp : Nat) (p : MediaPacket) : State :=
  acceptMedia (setSrtpCtx s l rtx (acceptSrtp (srtpCtx s l rtx) roc p.seq)) l (restoreOriginal rtx p) bytes stamp

/-- An SRTCP packet in clear: what its E bit says was encrypted has been replaced. -/
def rtcpPlain (u out : List Byte) : List Byte :=
  if frameByte u (u.length - 4) / 128 = 1 then u.take 8 ++ out else u.take (u.length - 20)

/-- What a consumer does with a completion: `status` of R303, `untrusted`, what the core wrote, and what the codec's headers say of the layers. -/
def consume (s : State) (p : JobPurpose) (status : Nat) (untrusted : Bool) (out : List Byte) (layers : MediaPacket) : State :=
  match p with
  | .srtpIn l _ roc rtx stamp bytes _ u =>
    if status ≠ 0 then s
    else if untrusted then bump s Reg.CIPHER.UNTRUSTED_SRTP
    else srtpAccepted s l roc rtx bytes stamp (mediaOf layers (u.take (rtpHeader u) ++ out))
  | .srtcpIn part index _ u =>
    if status ≠ 0 then s
    else if untrusted then bump s Reg.CIPHER.UNTRUSTED_SRTCP
    else
      match srtcpHolder s part with
      | some l => arriveFeedback (setSrtp s l (acceptSrtcp (srtpOf s l) index)) part (rtcpPlain u out)
      | none => s
  | .srtpOut l index rtcp u =>
    srtpSent s l (status = 0) (if rtcp then u.take 8 ++ out ++ toBE 4 (2 ^ 31 + index) else u.take (rtpHeader u) ++ out)
  | .gauntletIn t epoch seq up stamp boundary port gen _ =>
    if status ≠ 0 then updTunnel s t (fun x => { x with framesRejected := min (x.framesRejected + 1) (2 ^ 32 - 1) })
    else if untrusted then bump (rejectFrame s t Reg.CIPHER.UNTRUSTED_GAUNTLET) Reg.INGRESS.UNTRUSTED_DROPS
    else acceptTunnelFrame s t epoch seq up stamp boundary port gen out
  | .gauntletOut t _ f => sealFrame s t (frameNum f 8 8) (status = 0) out
  | .page _ => s
  | .pon _ => s

/-- The counters of a status. -/
def countStatus (s : State) (status : Nat) : State :=
  match status with
  | 0 => bump s Reg.CIPHER.JOBS_DONE
  | 1 => raise (bump s Reg.CIPHER.LENGTH_ERRORS) Reg.CIPHER.CIPHER_EVENTS_LENGTH_ERROR
  | 2 => bump s Reg.CIPHER.MODE_ERRORS
  | 3 => bump s Reg.CIPHER.KEY_ABSENT
  | 6 => bump s Reg.CIPHER.MODE_ERRORS
  | 7 => bump s Reg.CIPHER.JOBS_ABORTED
  | _ => s

/-- No layers. -/
def noLayers : MediaPacket :=
  { head := 0, seq := 0, timestamp := 0, marker := false, payload := [], frameStart := false, keyframe := false, spatial := 0, temporal := 0, switchTo := [],
    unitStart := false, nested := false }

/-- The consumer of a job that gave no result. -/
def consumeNone (s : State) (p : JobPurpose) (status : Nat) : State := consume s p status false [] noLayers

/-- A job that never ran, or that ends without a result: its completion names the cluster's first core. -/
def failJob (s : State) (j : CipherJob) (status : Nat) : State :=
  consumeNone (writeCompletion (countStatus (removeJob s j) status) j.port j.desc.completion status false j.missed (4 * j.cluster) 0) j.purpose status

/-- Every job of a list ends with a status. -/
def failJobs (s : State) (status : Nat) (l : List CipherJob) : State := l.foldl (fun s j => failJob s j status) s

/-! ### Acceptance (R300, R301, R303, R314) -/

/-- What a submitter asks of a cluster: OP, the key's entry, the IV before the salt, the AAD, and the payload with the tag that a decryption reads. -/
structure JobPlan where
  op : Nat
  entry : Nat
  iv : List Byte
  aad : List Byte
  body : List Byte
  deriving DecidableEq, Repr

/-- The IV of RFC 7714 for SRTP: two zero bytes, SSRC, ROC and sequence number (R299). -/
def srtpIv (roc : Nat) (u : List Byte) : List Byte := zeros 2 ++ (u.drop 8).take 4 ++ toBE 4 roc ++ (u.drop 2).take 2

/-- That of SRTCP: two zero bytes, SSRC, two zero bytes and the index. -/
def srtcpIv (index : Nat) (u : List Byte) : List Byte := zeros 2 ++ (u.drop 4).take 4 ++ zeros 2 ++ toBE 4 index

/-- The Gauntlet IV: ROLE, one zero byte, EPOCH and SEQUENCE (R328). -/
def gauntletIv (frame : List Byte) : List Byte := toBE 1 (frameByte frame 0 % 2) ++ zeros 1 ++ (frame.drop 2).take 2 ++ (frame.drop 8).take 8

/-- The key entry of a participant, and that of an epoch of a tunnel. -/
def partKey (s : State) (p : Nat) : Nat := ((s.participants.get p).map (fun x => x.keyEntry)).getD 0xFFFFFFFF
def tunnelKey (s : State) (t epoch : Nat) : Nat := ((s.gauntlet.tunnels.get t).bind (fun x => epochKey x epoch)).getD 0xFFFFFFFF

/-- The job that a purpose asks for (R299, R328); pages and PON payloads are described by their ports. -/
def jobPlan (s : State) : JobPurpose → Option JobPlan
  | .srtpIn l _ roc _ _ _ _ u =>
    some { op := 1, entry := partKey s (participantOf s l), iv := srtpIv roc u, aad := u.take (rtpHeader u), body := u.drop (rtpHeader u) }
  | .srtcpIn p index _ u =>
    let tail := u.drop (u.length - 4)
    let inner := (u.take (u.length - 4)).drop 8
    -- the E bit says whether the packet is encrypted or only authenticated
    some (if frameByte tail 0 / 128 = 1 then { op := 1, entry := partKey s p, iv := srtcpIv index u, aad := u.take 8 ++ tail, body := inner }
          else { op := 1, entry := partKey s p, iv := srtcpIv index u, aad := u.take (u.length - 20) ++ tail, body := inner.drop (inner.length - 16) })
  | .srtpOut l index true u =>
    some { op := 0, entry := partKey s (participantOf s l), iv := srtcpIv index u, aad := u.take 8 ++ toBE 4 (2 ^ 31 + index), body := u.drop 8 }
  | .srtpOut l roc false u =>
    some { op := 0, entry := partKey s (participantOf s l), iv := srtpIv roc u, aad := u.take (rtpHeader u), body := u.drop (rtpHeader u) }
  | .gauntletIn t epoch _ _ _ _ _ _ f =>
    some { op := 1, entry := tunnelKey s t epoch, iv := gauntletIv f, aad := f.take 24, body := f.drop 24 }
  | .gauntletOut t epoch f =>
    some { op := 0, entry := tunnelKey s t epoch, iv := gauntletIv f, aad := f.take 24, body := f.drop 24 }
  | .page _ => none
  | .pon _ => none

/-- The entry that a descriptor names, by itself or by its pinned slot. -/
def namedEntry (s : State) (d : JobDesc) : Nat := if d.pinned then (palmSlot s d.key).entry else d.key

/-- Whether a descriptor is the one that its submitter makes for a plan; its addresses and COMPLETION are the submitter's own. -/
def planned (s : State) (d : JobDesc) (q : JobPlan) : Bool :=
  d.op = q.op && namedEntry s d = q.entry && (usageOf s q.entry = 0 || modeMatches d.mode (usageOf s q.entry)) && d.ivBits = 96 && d.salted && !d.page
    && d.iv = fromLE q.iv && d.aadLength = q.aad.length && d.payloadLength = q.body.length - (if q.op = 1 then 16 else 0)

/-- Whether a packet that waits for its job stands first in its engine's order for its cluster (R344). -/
def firstOfRun (s : State) (l : Nat) (p : JobPurpose) : Bool :=
  let run (m : Nat) : Nat × Nat := (egressEngine s (((aggOf s (participantOf s m)).map (fun a => a.spec.egress)).getD 0), homeOf s (partKey s (participantOf s m) % 8))
  s.cipher.submitted.find? (fun q => match q with
    | .srtpOut m _ _ _ => run m = run l
    | _ => false) = some p

/-- Whether an engine of the device asks for a job of this purpose with this descriptor now. -/
def wanted (s : State) (p : JobPurpose) (d : JobDesc) : Bool :=
  match jobPlan s p with
  | none => true
  | some q => s.cipher.submitted.contains p && planned s d q
      && (match p with
          | .srtpOut l _ _ _ => firstOfRun s l p
          | _ => true)

/-- The submitter has placed what a job reads at the addresses of its descriptor. -/
def placeJob (s : State) (d : JobDesc) (p : JobPurpose) : State :=
  match jobPlan s p with
  | none => s
  | some q => store (store s d.aadAddr q.aad) d.srcAddr q.body

/-- A job's purpose is submitted no more. -/
def unsubmit (s : State) (p : JobPurpose) : State := withCipher s (fun c => { c with submitted := c.submitted.erase p })

/-- A job fails a test at acceptance: its completion is written at once (R303). -/
def refuseJob (s : State) (cluster port : Nat) (d : JobDesc) (p : JobPurpose) (status : Nat) : State :=
  consumeNone (writeCompletion (countStatus s status) port d.completion status false false (4 * cluster) 0) p status

/-- CIPHER_JOB_ACCEPT: a descriptor reaches a cluster. A descriptor that reaches a full queue waits in the Crown. -/
def execCipherJobAccept (cluster port : Nat) (b : List Byte) (p : JobPurpose) (s : State) : Host.Outcome State Fault Refusal :=
  let d := readJobDesc b
  if !(inService s && !s.trust.zeroizing && decide (cluster < 8) && wanted s p d) then ok s
  else if !maySubmit port d then ok (denied s port d.srcAddr)
  else if !inServiceEngine s 4 cluster || portReply s port (enginePort 4 cluster) ≠ .pass then ok (consumeNone (portOff (unsubmit s p) port) p 4)
  else if 256 ≤ (s.cipher.jobs.filter (fun j => j.cluster = cluster)).length then ok s
  else
    let s := unsubmit s p
    let status := jobStatus s cluster d
    match jobKey s cluster d with
    | some k => if status = 0 then ok (acceptJob (placeJob s d p) cluster port d p k.1 k.2) else ok (refuseJob s cluster port d p status)
    | none => ok (refuseJob s cluster port d p status)

/-! ### Completion (R301 to R305, R319) -/

/-- The slots of a cluster are erased and its jobs aborted; its pinned keys are loaded again first (R319). -/
def resetCipher (s : State) (cluster : Nat) : State :=
  let s := engineRegs s 4 cluster
  let jobs := s.cipher.jobs.filter (fun j => j.cluster = cluster)
  let pins := s.cipher.pins.filter (fun e => e.2 / 128 = cluster)
  let s := failJobs s 7 jobs
  let s := withCipher s (fun c => { c with
    slots := c.slots.filter (fun e => e.1 / 128 ≠ cluster), pinnedLoads := c.pinnedLoads.filter (fun k => k / 128 ≠ cluster),
    loads := c.loads.filter (fun k => k / 128 ≠ cluster), missWaits := c.missWaits.filter (fun w => w.cluster ≠ cluster) })
  pins.foldl (fun s e => beginLoad s e.2 e.1 (keyVersion s e.1) (usageOf s e.1) 0 true) s

/-- A failure of a cipher cluster. -/
def cipherFailure (s : State) (cluster : Nat) : State :=
  let r := countFailure s 4 cluster
  if r.2 then resetCipher r.1 cluster else r.1

/-- Whether a job may complete now: its slot holds its key, and no job on the same key was accepted before it. -/
def mayComplete (s : State) (j : CipherJob) : Bool :=
  (match j.slot with
   | some k => (palmSlot s k).state = .resident || ((palmSlot s k).state = .stale && !(s.cipher.loads ++ s.cipher.pinnedLoads).contains k)
   | none => false)
    && !s.cipher.jobs.any (fun i => decide (i.id < j.id) && i.cluster = j.cluster && i.entry = j.entry && i.version = j.version)

/-- The core of a job is busy with it, and with its wait for the key. -/
def countCore (s : State) (core n : Nat) : State := withCipher s (fun c => { c with coreBusy := c.coreBusy.put core (min ((c.coreBusy.get core).getD 0 + n) (2 ^ 18 - 1)) })

/-- Whether the AAD or the source of a job holds a poisoned word. -/
def sourcePoisoned (s : State) (d : JobDesc) : Bool := rangePoisoned s d.aadAddr d.aadLength || rangePoisoned s d.srcAddr (sourceBytes d)

/-- A job that has run writes its result and its completion, and its consumer acts on them (R302 to R305). -/
def completeJob (s : State) (j : CipherJob) (r : JobResult) : State :=
  let untrusted := tagDiffers s j
  let s := jobOutput s j
  let out := memRead s.mem j.desc.dstAddr (destBytes j.desc)
  let s := if untrusted then bump s Reg.CIPHER.UNTRUSTED_TOTAL else s
  let s := writeCompletion (countStatus (removeJob s j) 0) j.port j.desc.completion 0 untrusted j.missed r.core r.stall
  consume s j.purpose 0 untrusted out r.layers

/-- CIPHER_COMPLETION: a running job completes, and its consumer acts on it. -/
def execCipherCompletion (id : Nat) (r : JobResult) (s : State) : Host.Outcome State Fault Refusal :=
  match s.cipher.jobs.find? (fun j => j.id = id) with
  | none => ok s
  | some j =>
    if !(inService s && mayComplete s j && r.core / 4 = j.cluster) then ok s
    else
      let s := countCore s r.core (coreCycles j.desc + r.stall)
      if r.failed then ok (cipherFailure (failJob s j 7) j.cluster)
      else if r.addrError then ok (failJob s j 4)
      else if (jobRefused s j).isSome then ok (failJob (answerJob s j) j 4)
      else if r.poisoned || sourcePoisoned s j.desc then ok (failJob s j 5)
      else ok (completeJob s j r)

/-- KEY_LOAD: a load port has unwrapped a key for a slot, or it fails (R312, R313). Its shares leave a Kuthastan port, the first flit under that
port's credit if one is free (R21). -/
def execKeyLoad (cluster slot : Nat) (unwraps : Bool) (s : State) : Host.Outcome State Fault Refusal :=
  if !(inService s && !s.trust.zeroizing && slot / 128 = cluster && (loadsAtWork s).contains slot) then ok s
  else
    let x := palmSlot s slot
    let port := if creditFree s 73 then 73 else 89
    let s := flitServed (endLoad s slot) port (enginePort 4 cluster)
    if !pathOpen s port (enginePort 4 cluster) then ok (failLoad (failJobs (portOff s port) 3 (jobsOnSlot s slot)) slot x.entry false) else
    match s.trust.keys.get x.entry with
    | some k =>
      if unwraps && !k.corrupt then ok (deliverShares s slot)
      else ok (failLoad (failJobs s 3 (jobsOnSlot s slot)) slot x.entry true)
    | none => ok (failLoad (failJobs s 3 (jobsOnSlot s slot)) slot x.entry false)

end Sys2Proof.Machine
end

