-- ==== Sys2Proof/Machine/Ethernet.lean ====
section
/-!
DEFINITION. Ethernet ports (chapter 14): received frames and filters, link state and low power idle.
-/

namespace Sys2Proof.Machine

/-- A port that has just come up. -/
def EthPort.fresh : EthPort := { idleSince := 0, wakeUntil := 0, downAt := none, degradedSecond := none }

def ethOf (s : State) (m : Nat) : EthPort := (s.eth.get m).getD .fresh
def withEth (s : State) (m : Nat) (p : EthPort) : State := { s with eth := s.eth.put m p }

/-- Whether a MAC exists under the running PORT_MODES. -/
def macValid (s : State) (m : Nat) : Bool := decide (m < 16) && rd s (Reg.ETH.PORT_STATUS_VALID.on m) = 1
def linkUp (s : State) (m : Nat) : Bool := rd s (Reg.ETH.PORT_STATUS_LINK.on m) = 1

/-! ### Filters (R370, R371) -/

/-- The tags, EtherType and L3 start of a frame, as R276 recognises them. -/
structure FrameTags where
  tags : Nat
  outer : Nat
  pcp : Nat
  inner : Nat
  etherType : Nat
  next : Nat
  deriving DecidableEq, Repr

def frameTags (b : List Byte) : FrameTags :=
  let t := frameNum b 12 2
  if t = 0x8100 || t = 0x88A8 then
    let c := frameNum b 14 2
    if frameNum b 16 2 = 0x8100 then
      { tags := 2, outer := c % 4096, pcp := c / 8192, inner := frameNum b 18 2 % 4096, etherType := frameNum b 20 2, next := 22 }
    else { tags := 1, outer := c % 4096, pcp := c / 8192, inner := 0, etherType := frameNum b 16 2, next := 18 }
  else { tags := 0, outer := 0, pcp := 0, inner := 0, etherType := t, next := 14 }

/-- Where the PTP message of a frame begins, if the recogniser of R373 marks it. -/
def ptpAt (b : List Byte) : Option Nat :=
  let t := frameTags b
  let udp (at_ : Nat) : Option Nat := if frameNum b (at_ + 2) 2 = 319 || frameNum b (at_ + 2) 2 = 320 then some (at_ + 8) else none
  if t.etherType = 0x88F7 then some t.next
  else if t.etherType = 0x0800 && frameByte b (t.next + 9) = 17 then udp (t.next + 4 * (frameByte b t.next % 16))
  else if t.etherType = 0x86DD && frameByte b (t.next + 6) = 17 then udp (t.next + 40)
  else none

/-- PTP_EVENT: Sync, Delay_Req, Pdelay_Req or Pdelay_Resp. -/
def ptpEvent (b : List Byte) : Bool :=
  match ptpAt b with
  | some k => decide (frameByte b k % 16 ≤ 3)
  | none => false

/-- Whether a filter entry matches a frame. -/
def filterMatches (f : FilterEntry) (b : List Byte) : Bool :=
  let t := frameTags b
  (bitOf f.match_ 0 = 0 || t.etherType = f.etherType) && (bitOf f.match_ 1 = 0 || (decide (0 < t.tags) && t.outer = f.outerVid))
    && (bitOf f.match_ 2 = 0 || (t.tags = 2 && t.inner = f.innerVid)) && (bitOf f.match_ 3 = 0 || (decide (0 < t.tags) && t.pcp = f.outerPcp))
    && (bitOf f.match_ 4 = 0 || t.tags = 0) && (bitOf f.match_ 5 = 0 || (ptpAt b).isSome)

/-- The filter entry that decides a frame of a port: the matching one of lowest INDEX. -/
def filterOf (s : State) (m : Nat) (b : List Byte) : Option FilterEntry :=
  let l := (s.trust.current.tables.findSome? Record.filters?).getD []
  leastBy (fun f => (f.index : Int)) (l.filter (fun f => f.port = m && filterMatches f b))

/-! ### Reception (R367 to R369, R273) -/

/-- The receive buffer of a MAC, with those of the MACs that it absorbs. -/
def rxBuffer (s : State) (m : Nat) : Nat :=
  let q := rd s (Reg.ETH.PORT_CONFIG_QUAD_MODE.on m)
  if q = 6 then 65536 else if q = 5 then 32768 else 16384

/-- The bytes that a MAC's receive buffer holds: what its Cuff has not taken yet. -/
def rxUsed (s : State) (m : Nat) : Nat := (((cuffOf s m).waiting.filter (fun w => !w.preface)).map (fun w => w.data.length)).sum

/-- RS codewords (R365, R375). -/
def countFec (s : State) (m : Nat) (f : MacFrame) : State :=
  let s := bumpBy (bumpBy s (Reg.ETH.FEC_CORRECTED.on m) f.fecCorrected) (Reg.ETH.FEC_UNCORRECTABLE.on m) f.fecUncorrectable
  let second := nowNs s / 1000000000
  if f.fecUncorrectable = 0 || (ethOf s m).degradedSecond = some second then s
  else raise (withEth s m { ethOf s m with degradedSecond := some second }) (Reg.ETH.PORT_EVENTS_FEC_DEGRADED.on m)

/-- A frame is written into its Cuff. -/
def storeFrame (s : State) (m : Nat) (f : MacFrame) (queue : Nat) : State :=
  let b := f.bytes.take (f.length - 4)
  writeCuff s m { length := f.length, port := m, queue := queue, fcsBad := f.fcsBad, ptpEvent := ptpEvent b, stamp := f.stamp, xgemPort := 0, sequence := 0 } b

/-- The outcome of a frame (R368). -/
def frameOutcome (s : State) (m : Nat) (f : MacFrame) : State :=
  if f.length ≤ 63 then bump s (Reg.ETH.RUNT.on m)
  else if rd s (Reg.ETH.PORT_CONFIG_MAX_FRAME.on m) < f.length then bump s (Reg.ETH.OVERSIZE.on m)
  else if f.codeError || f.fecUncorrectable ≠ 0 then bump s (Reg.ETH.CODE_ERRORS.on m)
  else if (frameTags f.bytes).etherType = 0x8808 then bump s (Reg.ETH.CONTROL_FRAMES.on m)
  else
    let filter := filterOf s m f.bytes
    let s := match filter with
      | some e => bump s ((Reg.ETH.FILTER_HITS.at e.index).on m)
      | none => s
    let queue := match filter with
      | some e => e.queue
      | none => rd s (Reg.ETH.PORT_CONFIG_DEFAULT_QUEUE.on m)
    if (filter.map (·.drop)).getD false then bump s (Reg.ETH.FILTER_DROPS.on m)
    else if f.fcsBad then storeFrame (bump s (Reg.ETH.FCS_ERRORS.on m)) m f queue
    else storeFrame (bumpBy (bump s (Reg.ETH.FRAMES_RX_OK.on m)) (Reg.ETH.BYTES_RX_OK.on m) f.length) m f queue

/-- FRAME_RECEIVED: a MAC has received the last byte of a frame. One that arrives while the receive buffer is full is dropped whole. -/
def execFrameReceived (m : Nat) (f : MacFrame) (s : State) : Host.Outcome State Fault Refusal :=
  if !(inService s && macValid s m && linkUp s m) then ok s
  else
    let s := countFec s m f
    if rxBuffer s m < rxUsed s m + min f.length (rd s (Reg.ETH.PORT_CONFIG_MAX_FRAME.on m)) then
      ok (raise (bump s (Reg.ETH.RX_OVERFLOW.on m)) (Reg.ETH.PORT_EVENTS_RX_OVERFLOW.on m))
    else ok (frameOutcome s m f)

/-! ### Link state (R365) -/

/-- LINK_UP: the locks of a port have held for 10 ms, with training complete where it is set. -/
def execLinkUp (m : Nat) (s : State) : Host.Outcome State Fault Refusal :=
  if !(inService s && macValid s m && !linkUp s m) then ok s
  else
    let due := match (ethOf s m).downAt with
      | some t => t + 10000000
      | none => 0
    match reach s due with
    | none => ok s
    | some s =>
      let s := wrAll s [(Reg.ETH.PORT_STATUS_LINK.on m, 1), (Reg.ETH.PORT_STATUS_TRAINED.on m, rd s (Reg.ETH.PORT_CONFIG_TRAINING.on m))]
      let s := withEth s m { ethOf s m with idleSince := nowNs s, wakeUntil := 0, downAt := none }
      ok (raise s (Reg.ETH.PORT_EVENTS_LINK_UP.on m))

/-- The link of a port goes down. -/
def loseLink (s : State) (m : Nat) : State :=
  let s := cutFrame s m
  let s := wrAll s [(Reg.ETH.PORT_STATUS_LINK.on m, 0), (Reg.ETH.PORT_STATUS_TRAINED.on m, 0), (Reg.ETH.PORT_STATUS_LPI_TX.on m, 0),
                    (Reg.ETH.PORT_STATUS_LPI_RX.on m, 0)]
  bump (withEth s m { ethOf s m with downAt := some (nowNs s) }) (Reg.ETH.LINK_DOWN_COUNT.on m)

/-- LINK_DOWN: a lock of a port is lost. `receiving` says that a frame is being received. -/
def execLinkDown (m : Nat) (receiving : Bool) (s : State) : Host.Outcome State Fault Refusal :=
  if !(macValid s m && linkUp s m) then ok s
  else
    let s := loseLink s m
    let s := if receiving then bump s (Reg.ETH.CODE_ERRORS.on m) else s
    ok (raise s (Reg.ETH.PORT_EVENTS_LINK_DOWN.on m))

/-! ### Low power idle (R366) -/

/-- Whether a port carries a gate list. -/
def hasGates (s : State) (m : Nat) : Bool := (gateOf s m).isSome

/-- Whether a port may use low power idle. -/
def lpiAllowed (s : State) (m : Nat) : Bool :=
  rd s (Reg.ETH.PORT_CONFIG_LPI_ENABLE.on m) = 1 && decide (0 < rd s (Reg.ETH.LPI_CONFIG_TX_TW.on m))
    && bitOf (rd s Reg.TIME.TIME_CONFIG_PTP_PORTS) m = 0 && !hasGates s m

/-- The class queues of a port are empty. -/
def portEmpty (s : State) (m : Nat) : Bool := (List.range 8).all (fun c => (classOf s m c).packets.isEmpty)

/-- LPI_ENTER: the class queues of a port have been empty for LPI_IDLE. -/
def execLpiEnter (m : Nat) (s : State) : Host.Outcome State Fault Refusal :=
  if !(inService s && macValid s m && linkUp s m && lpiAllowed s m && portEmpty s m && rd s (Reg.ETH.PORT_STATUS_LPI_TX.on m) = 0) then ok s
  else
    match reach s (max (ethOf s m).idleSince (((s.band.freeAt.get m).getD 0) / 1000) + rd s (Reg.ETH.LPI_CONFIG_LPI_IDLE.on m) * 1000) with
    | none => ok s
    | some s => ok (emit (bump (wr s (Reg.ETH.PORT_STATUS_LPI_TX.on m) 1) (Reg.ETH.LPI_TX_ENTRIES.on m)) (.lpi m 1))

/-- LPI_WAKE: a frame has reached a class queue of a sleeping port, or the port may sleep no more: it signals wake and is busy for TX_TW. -/
def execLpiWake (m : Nat) (s : State) : Host.Outcome State Fault Refusal :=
  if macValid s m && rd s (Reg.ETH.PORT_STATUS_LPI_TX.on m) = 1 && (!portEmpty s m || !lpiAllowed s m) then
    let s := wr s (Reg.ETH.PORT_STATUS_LPI_TX.on m) 0
    ok (emit (withEth s m { ethOf s m with wakeUntil := nowNs s + rd s (Reg.ETH.LPI_CONFIG_TX_TW.on m) * 1000 }) (.lpi m 0))
  else ok s

/-- PARTNER_LPI_SIGNAL: the partner begins or ends low power idle. -/
def execPartnerLpiSignal (m : Nat) (on : Bool) (s : State) : Host.Outcome State Fault Refusal :=
  if macValid s m && linkUp s m then ok (wr s (Reg.ETH.PORT_STATUS_LPI_RX.on m) (b2n on)) else ok s

end Sys2Proof.Machine
end

