-- ==== Sys2Proof/Machine/Pon.lean ====
section
/-!
DEFINITION. The PON terminal (chapter 15): the PSync hunt, downstream frames, activation, PLOAM, bursts and their watchdog, OMCI,
time of day and the protected pair.
-/

namespace Sys2Proof.Machine

/-! ### Ports and the protected pair (R376, R399) -/

def ponPort (s : State) (p : Nat) : PonPort := if p = 0 then s.pon.portA else s.pon.portB

/-- A port that PORT_MODES enables. -/
def ponEnabled (s : State) (p : Nat) : Bool := decide (p < 2) && decide (rd s (Reg.PON.PON_CONFIG_MODE.on p) ≠ 0)

/-- Whether the two ports form one ONU. -/
def ponPaired (s : State) : Bool := rd s (Reg.PON.PON_CONFIG_PROTECTED.on 0) = 1

/-- The port that holds what a port shares with the other of a pair: its activation state, ONU-ID, Alloc-IDs, Port-IDs, class map and keys. -/
def ponOwner (s : State) (p : Nat) : Nat := if ponPaired s then 0 else p

/-- Whether a port is active: it activates and transmits. -/
def ponActive (s : State) (p : Nat) : Bool := !ponPaired s || (if p = 0 then !s.pon.activeB else s.pon.activeB)

/-- The activation state (R384) of a port or of its pair. -/
def ponState (s : State) (p : Nat) : Nat := rd s (Reg.PON.PON_STATUS_STATE.on (ponOwner s p))
def ponSync (s : State) (p : Nat) : Bool := rd s (Reg.PON.PON_STATUS_SYNC.on p) = 1

/-- Bits of a downstream frame (R376, R379). -/
def downBits (s : State) (p : Nat) : Nat := if rd s (Reg.PON.PON_CONFIG_MODE.on p) = 1 then 1244160 else 6220800

/-- The upstream line rate in kbit/s (R376, R377). -/
def upRate (s : State) (p : Nat) : Nat :=
  if rd s (Reg.PON.PON_CONFIG_MODE.on p) = 1 then 9953280
  else if rd s (Reg.PON.PON_CONFIG_UP_RATE.on p) = 0 then 12441600
  else if rd s (Reg.PON.PON_CONFIG_UP_RATE.on p) = 1 then 24883200
  else 49766400

/-- The time of a number of upstream bits, in ns. -/
def upNs (s : State) (p bits : Nat) : Nat := roundOf (bits * 1000000) (upRate s p)

/-- The serial number of a port. -/
def ponSerial (s : State) (p : Nat) : List Byte := (if p = 0 then (structure_ s).ports.ponA else (structure_ s).ports.ponB).serial

/-! ### Keys (R392) -/

/-- The key of an index, for unicast or multicast traffic. -/
def ponKey (s : State) (o index : Nat) (broadcast : Bool) : Option PonKey :=
  (ponPort s o).keys.find? (fun k => k.index = index && k.broadcast = broadcast)

/-- A key is installed in its pinned slot; it replaces the one of its index and kind. -/
def installPonKey (s : State) (o index : Nat) (broadcast : Bool) (key : Nat) : State :=
  let e : KeyEntry := { usage := if broadcast then 17 else 16, target := o, epoch := 0, counter := 0, key := key, salt := 0, usableAt := 0, corrupt := false }
  match ponKey s o index broadcast with
  | some k => replaceKey s k.key e
  | none =>
    match freeEntry s (4 * o) with
    | none => s
    | some n => withPon (pinEntry (putKey s n e) n) o (fun x => { x with keys := x.keys ++ [{ index := index, broadcast := broadcast, key := n }] })

/-- The KEK of a port, from its master session key. -/
def ponKek (s : State) (o : Nat) : Nat := Config.ponKek (((ponPort s o).msk).getD Config.defaultMsk) (ponSerial s o)

/-- The port logic submits one CTR_128 job on a key, and has its result in the same step. It is none where the key's pinned slot does not stand in a
cluster in service (R300, R303). -/
def ponCrypt (s : State) (k : PonKey) (op iv : Nat) (source : List Byte) : State × Option (List Byte) :=
  match s.cipher.pins.get k.key, s.trust.keys.get k.key with
  | some slot, some e =>
    let x := palmSlot s slot
    if inServiceEngine s 4 (slot / 128) && (x.state = .resident || x.state = .loading) then
      let s := setSlot s slot { x with lastUse := s.time.tickCount, useOrder := s.cipher.order }
      let s := withCipher s (fun c => { c with order := c.order + 1 })
      (bump (bump s Reg.CIPHER.PALM_HITS) Reg.CIPHER.JOBS_DONE, some (underKey op 3 e.key iv source))
    else (bump s Reg.CIPHER.KEY_ABSENT, none)
  | _, _ => (bump s Reg.CIPHER.KEY_ABSENT, none)

/-- Every key of a port is released: its slots become STALE. -/
def dropPonKeys (s : State) (o : Nat) : State :=
  withPon ((ponPort s o).keys.foldl (fun s k => releaseKey s k.key) s) o (fun x => { x with keys := [] })

/-! ### Activation (R384, R385) -/

/-- BURST_EN of an ONU goes low, where it leaves the states that transmit or its ports change roles (R400). -/
def cutBursts (s : State) (o : Nat) : State :=
  (List.range 2).foldl (fun s p => if ponOwner s p = o && (ponPort s p).burstEn then emit (withPon s p (fun x => { x with burstEn := false })) (.pin (burstPin p) 0) else s) s

/-- The activation state moves, raising O5_LEFT or O5_ENTERED with the events in a list. A time-of-day source is disqualified on
leaving O5 (R398). -/
def ponMove (s : State) (o st : Nat) (events : List Fld) : State :=
  let old := rd s (Reg.PON.PON_STATUS_STATE.on o)
  let s := wr s (Reg.PON.PON_STATUS_STATE.on o) st
  let s := if st = 2 || st = 3 || st = 4 then s else cutBursts s o
  let s := if old = 4 && st ≠ 4 && (sourceGet s.time (todSource o)).qualified then
      wr (disqualify s (todSource o) false) (Reg.PON.PON_STATUS_TOD_QUALIFIED.on o) 0 else s
  raiseAll s ((if old = 4 && st ≠ 4 then [Reg.PON.PON_EVENTS_O5_LEFT.on o] else [])
    ++ (if old ≠ 4 && st = 4 then [Reg.PON.PON_EVENTS_O5_ENTERED.on o] else []) ++ events)

/-- What a port discards on leaving its registration: ONU-ID, equalisation delay, Alloc-IDs, Port-IDs, class map and keys. -/
def ponDiscard (s : State) (o : Nat) : State :=
  let s := wrAll s [(Reg.PON.PON_STATUS_ONU_ID.on o, 0), (Reg.PON.EQD.on o, 0), (Reg.PON.PON_STATUS_UP_KEY_INDEX.on o, 0)]
  withPon (dropPonKeys s o) o (fun x =>
    { x with nextEqd := none, allocs := [], classMap := [], portIds := [], ploamQueue := [], fragments := [], assembling := [], omciQueue := [] })

/-- The port learns or hunts no longer: with sync, a burst profile and TX_PERMIT it goes from O1 to O2_3, and TO1 starts. -/
def ponAdvance (s : State) (o : Nat) : State :=
  let p := if ponPaired s && s.pon.activeB then 1 else o
  if rd s (Reg.PON.PON_STATUS_STATE.on o) = 1 && ponSync s p && rd s (Reg.PON.PON_STATUS_TX_PERMIT.on o) = 1 && !(ponPort s o).profiles.isEmpty then
    ponMove (withPon s o (fun x => { x with to1 := some (nowNs s + 10000000000) })) o 2 []
  else s

/-- O1 is entered. From O4, O5 or O6 the registration is discarded and DEACTIVATED raised. -/
def ponToO1 (s : State) (o : Nat) : State :=
  let old := rd s (Reg.PON.PON_STATUS_STATE.on o)
  let s := withPon s o (fun x => { x with to1 := none, to2 := none, lossSince := none })
  let left := old = 3 || old = 4 || old = 5
  ponAdvance (ponMove (if left then ponDiscard s o else s) o 1 (if left then [Reg.PON.PON_EVENTS_DEACTIVATED.on o] else [])) o

/-- O7 is entered: the emergency stop. -/
def ponStop (s : State) (o : Nat) : State :=
  if rd s (Reg.PON.PON_STATUS_STATE.on o) = 6 then s
  else
    let s := withPon s o (fun x => { x with to1 := none, to2 := none, lossSince := none })
    ponMove (ponDiscard s o) o 6 [Reg.PON.PON_EVENTS_EMERGENCY_STOP.on o]

/-- O7 is left. -/
def ponUnstop (s : State) (o : Nat) : State :=
  if rd s (Reg.PON.PON_STATUS_STATE.on o) ≠ 6 then s else ponAdvance (ponMove s o 1 [Reg.PON.PON_EVENTS_EMERGENCY_STOP.on o]) o

/-- The active port meets a loss of sync. -/
def ponLoss (s : State) (o : Nat) : State :=
  match rd s (Reg.PON.PON_STATUS_STATE.on o) with
  | 4 => ponMove (withPon s o (fun x => { x with to2 := some (nowNs s + 100000000), lossSince := some (nowNs s) })) o 5 []
  | 2 => ponToO1 s o
  | 3 => ponToO1 s o
  | _ => s

/-- The active port has sync again. -/
def ponRegain (s : State) (o : Nat) : State :=
  if rd s (Reg.PON.PON_STATUS_STATE.on o) = 5 then ponMove (withPon s o (fun x => { x with to2 := none, lossSince := none })) o 4 []
  else ponAdvance s o

/-- A port loses its sync, and hunts again with no candidate (R380). -/
def loseSync (s : State) (p : Nat) : State :=
  let s := withPon (wr s (Reg.PON.PON_STATUS_SYNC.on p) 0) p (fun x => { x with candidates := [], missRun := 0 })
  let s := raise (bump s (Reg.PON.SYNC_LOST_COUNT.on p)) (Reg.PON.PON_EVENTS_SYNC_LOST.on p)
  if ponActive s p then ponLoss s (ponOwner s p) else s

/-- TO1_EXPIRY: 10 s in O2_3 and O4 have passed. -/
def execTo1Expiry (p : Nat) (s : State) : Host.Outcome State Fault Refusal :=
  let o := ponOwner s p
  match (ponPort s o).to1 with
  | none => ok s
  | some t =>
    if decide (p < 2) && (ponState s p = 2 || ponState s p = 3) then
      match reach s t with
      | none => ok s
      | some s => ok (ponToO1 s o)
    else ok s

/-- TO2_EXPIRY: 100 ms in O6 have passed. -/
def execTo2Expiry (p : Nat) (s : State) : Host.Outcome State Fault Refusal :=
  let o := ponOwner s p
  match (ponPort s o).to2 with
  | none => ok s
  | some t =>
    if decide (p < 2) && ponState s p = 5 then
      match reach s t with
      | none => ok s
      | some s => ok (ponToO1 s o)
    else ok s

/-! ### The hunt (R379) -/

/-- One comparison of the hunt at a bit position: the candidates that stay, whether one is confirmed, and whether a match found the table full. A
candidate whose next position has passed without a reported match has missed. -/
def huntStep (cs : List Candidate) (frame matches_ position : Nat) (hit : Bool) : List Candidate × Bool × Bool :=
  let cs := cs.filter (fun c => decide (position ≤ c.next))
  match cs.find? (fun c => c.next = position) with
  | some c =>
    if !hit then (cs.filter (fun x => x.next ≠ position), false, false)
    else if matches_ ≤ c.matches_ + 1 then ([], true, false)
    else (cs.map (fun x => if x.next = position then { next := position + frame, matches_ := c.matches_ + 1 } else x), false, false)
  | none =>
    if !hit then (cs, false, false)
    else if 8 ≤ cs.length then (cs, false, true)
    else (cs ++ [{ next := position + frame, matches_ := 1 }], false, false)

/-- A comparison with PSync matches (R379, R380). -/
def psyncMatches (s : State) (p : Nat) (high : Bool) (errors : Nat) : Bool := decide (errors ≤ rd s (Reg.PON.PON_CONFIG_PSYNC_TOLERANCE.on p)) && !high

/-- PSYNC_HUNT: the PSync is compared with the bits at a position, from which it differs in `errors` bits, at a level of PON_x_RX_LOS. -/
def execPsyncHunt (p position : Nat) (r : PsyncRead) (s : State) : Host.Outcome State Fault Refusal :=
  if !(inService s && ponEnabled s p && !ponSync s p) then ok s
  else
    let s := takeLos s p r.rxLos
    let hit := psyncMatches s p r.rxLos r.errors
    let r := huntStep (ponPort s p).candidates (downBits s p) (rd s (Reg.PON.PON_CONFIG_SYNC_MATCHES.on p)) position hit
    let s := withPon s p (fun x => { x with candidates := r.1, missRun := 0 })
    let s := if r.2.2 then bump s (Reg.PON.HUNT_SATURATED.on p) else s
    if r.2.1 then
      let s := wr s (Reg.PON.PON_STATUS_SYNC.on p) 1
      ok (if ponActive s p then ponRegain s (ponOwner s p) else s)
    else ok s

/-- SYNC_LOST: four consecutive PSyncs have been missed. -/
def execSyncLost (p : Nat) (s : State) : Host.Outcome State Fault Refusal :=
  if decide (p < 2) && ponSync s p && decide (4 ≤ (ponPort s p).missRun) then ok (loseSync s p) else ok s

/-! ### Bursts (R387, R388, R400, R401) -/

/-- Whether a port may drive BURST_EN high. -/
def ponMayTransmit (s : State) (p : Nat) : Bool :=
  inService s && ponEnabled s p && ponActive s p && (ponState s p = 2 || ponState s p = 3 || ponState s p = 4)
    && rd s (Reg.PON.PON_STATUS_TX_PERMIT.on (ponOwner s p)) = 1 && rd s (Reg.PON.PON_STATUS_TX_LOCKED.on p) = 0
    && rd s (Reg.PON.PON_STATUS_WATCHDOG_PERMANENT.on p) = 0

/-- Windows that have passed end; the watchdog's copy of a window is kept for a millisecond more. -/
def closeBursts (s : State) (p : Nat) : State :=
  let x := ponPort s p
  let open_ := x.bursts.any (fun b => b.sent && decide (nowNs s < b.off))
  let s := withPon s p (fun x => { x with bursts := x.bursts.filter (fun b => decide (nowNs s < b.off + 1000000)), burstEn := x.burstEn && open_ })
  if x.burstEn && !open_ then emit s (.pin (burstPin p) 0) else s

/-- Whether an allocation is one of the port's. -/
def allocOurs (s : State) (o a : Nat) : Bool :=
  match rd s (Reg.PON.PON_STATUS_STATE.on o) with
  | 2 => a = Config.serialAlloc (rd s (Reg.PON.PON_CONFIG_MODE.on o)) (rd s (Reg.PON.PON_CONFIG_UP_RATE.on o))
  | 3 => (ponPort s o).allocs.contains (some a)
  | 4 => (ponPort s o).allocs.contains (some a)
  | _ => false

/-- A BWmap as it is read: the state with its counts, the intervals kept, and the bursts, newest first. -/
structure BwReading where
  st : State
  kept : List (Nat × Nat)
  bursts : List Burst
  deriving DecidableEq, Repr

/-- One allocation of a BWmap (R388). `t0` is the start of the upstream frame in ns and `delay` the bits that the equalisation delay and, in
O2_3, the random delay add. -/
def readAlloc (p o t0 delay superframe : Nat) (r : BwReading) (a : BwAlloc) : BwReading :=
  let s := r.st
  if !allocOurs s o a.allocId then r
  else
    match (ponPort s o).profiles.find? (fun f => f.index = a.profile) with
    | none => { r with st := bump s (Reg.PON.PROFILE_MISSING.on p) }
    | some f =>
      if r.kept.any (fun k => decide (a.start < k.2) && decide (k.1 < a.stop)) then { r with st := bump s (Reg.PON.BWMAP_CONFLICTS.on p) }
      else
        let g : Grant := { allocId := a.allocId, superframe := superframe, start := a.start, bits := a.stop - a.start, ploamU := a.ploamU, dbru := a.dbru, filled := false }
        let on := t0 + upNs s o (delay + a.start) - upNs s o f.preamble
        let off := t0 + upNs s o (delay + a.stop + f.trailer)
        let bursts := match r.bursts with
          | b :: rest => if a.opens then { on := on, off := off, grants := [g], sent := false } :: b :: rest
                         else { b with off := off, grants := b.grants ++ [g] } :: rest
          | [] => [{ on := on, off := off, grants := [g], sent := false }]
        { r with kept := (a.start, a.stop) :: r.kept, bursts := bursts }

/-- The BWmap of a downstream frame: a new equalisation delay takes effect first (R387). -/
def readBwmap (s : State) (p stamp superframe : Nat) (m : List BwAlloc) : State :=
  let o := ponOwner s p
  let s := match (ponPort s o).nextEqd with
    | some d => withPon (wr s (Reg.PON.EQD.on o) d) o (fun x => { x with nextEqd := none })
    | none => s
  let r := if ponState s p = 2 then draw s else (s, 0)
  let s := r.1
  let delay := rd s (Reg.PON.EQD.on o) + (if ponState s p = 2 then Config.serialDelay r.2 else 0)
  let b := m.foldl (readAlloc p o (stamp + 34900 + Config.ponResponse superframe % 201) delay superframe) { st := s, kept := [], bursts := [] }
  withPon b.st p (fun x => { x with bursts := x.bursts ++ b.bursts.reverse })

/-- The PLOAM message at the head of the queue leaves in a grant. -/
def sendPloam (s : State) (p o : Nat) : State :=
  match (ponPort s o).ploamQueue with
  | [] => s
  | m :: rest => emit (withPon s o (fun x => { x with ploamQueue := rest })) (.ploam p m.kind m.values)

/-- An upstream PLOAM message waits in the queue of 8. -/
def queuePloam (s : State) (o kind : Nat) (values : List Nat) : State :=
  withPon s o (fun x => if x.ploamQueue.length < 8 then { x with ploamQueue := x.ploamQueue ++ [{ kind := kind, values := values }] } else x)

/-- The upstream PLOAM messages of the standards: Serial_Number_ONU, Registration, Key_Report, Acknowledge. -/
def ploamSerial : Nat := 1
def ploamRegistration : Nat := 2
def ploamKeyReport : Nat := 3
def ploamAck : Nat := 4

/-- BURST_WINDOW: the next burst window opens, and the port raises BURST_EN and sends its burst. -/
def execBurstWindow (p : Nat) (s : State) : Host.Outcome State Fault Refusal :=
  if !ponMayTransmit s p then ok s
  else
    match (ponPort s p).bursts.find? (fun b => !b.sent && decide (nowNs s < b.off)) with
    | none => ok s
    | some b =>
      match reach s b.on with
      | none => ok s
      | some s =>
        let s := closeBursts s p
        let s := withPon s p (fun x => { x with burstEn := true, bursts := replaceFirst x.bursts b { b with sent := true } })
        let s := emit (emit (bump s (Reg.PON.BURSTS.on p)) (.pin (burstPin p) 1)) (.burst p [b.on, b.off])
        if ponState s p = 2 then ok (emit s (.ploam p ploamSerial ((ponSerial s p).map (·.toNat))))
        else ok ((b.grants.filter (·.ploamU)).foldl (fun s _ => sendPloam s p (ponOwner s p)) s)

/-- WATCHDOG_TRIP: BURST_EN is seen to rise at `rise`, and still to be high at `instant`. -/
def execWatchdogTrip (p rise instant : Nat) (s : State) : Host.Outcome State Fault Refusal :=
  if 2 ≤ p then ok s
  else
    let good := (ponPort s p).bursts.any (fun b => decide (b.on ≤ rise) && decide (rise < b.off) && decide (instant < b.off + 64))
    if good then ok s
    else
      let n := (ponPort s p).trips + 1
      let s := emit (withPon s p (fun x => { x with burstEn := false, trips := n })) (.pin (burstPin p) 0)
      let s := wr s (if 3 ≤ n then Reg.PON.PON_STATUS_WATCHDOG_PERMANENT.on p else Reg.PON.PON_STATUS_TX_LOCKED.on p) 1
      let s := raise (bump s (Reg.PON.WATCHDOG_TRIPS.on p)) (Reg.PON.PON_EVENTS_WATCHDOG_TRIP.on p)
      ok (fault s 0x70 16 (enginePort 8 (2 * p)) p 0)

/-! ### Downstream frames and XGEM (R381 to R383, R392) -/

/-- The Port-ID entry that receives a Port-ID. -/
def portIdDown (s : State) (o portId : Nat) : Option (Nat × PonPortId) :=
  (ponPort s o).portIds.find? (fun e => e.2.portId = portId && (e.2.direction = 1 || e.2.direction = 3 || e.2.direction = 4))

/-- An XGEM frame counts in its Port-ID entry. -/
def countXgem (s : State) (o index : Nat) : State :=
  withPon s o (fun x => { x with portIds := x.portIds.update index (fun (e : PonPortId) => { e with frames := min (e.frames + 1) (2 ^ 32 - 1) }) })

/-- The bytes that a PON port's receive buffer holds. -/
def ponRxUsed (s : State) (o : Nat) : Nat := (((cuffOf s (16 + o)).waiting.filter (fun w => !w.preface)).map (fun w => w.data.length)).sum

/-- A reassembled Ethernet frame, FCS included, takes the first outcome that applies (R383). -/
def ponFrame (s : State) (p o : Nat) (e : PonPortId) (b : List Byte) (stamp : Nat) : State :=
  let n := b.length
  let fcsBad := frameFcs (b.take (n - 4)) ≠ b.drop (n - 4)
  let store (s : State) : State :=
    writeCuff s (16 + o) { length := n, port := 16 + o, queue := e.queue, fcsBad := fcsBad, ptpEvent := false, stamp := stamp, xgemPort := e.portId, sequence := 0 }
      (b.take (n - 4))
  if n ≤ 63 then bump s (Reg.PON.RUNT.on p)
  else if rd s (Reg.PON.PON_LIMITS_MAX_FRAME.on p) < n then bump s (Reg.PON.OVERSIZE.on p)
  else if 16384 < ponRxUsed s o + n then raise (bump s (Reg.PON.RX_OVERFLOW.on p)) (Reg.PON.PON_EVENTS_RX_OVERFLOW.on p)
  else if fcsBad then store (bump s (Reg.PON.FCS_ERRORS.on p))
  else store (bumpBy (bump s (Reg.PON.FRAMES_RX_OK.on p)) (Reg.PON.BYTES_RX_OK.on p) n)

/-- An XGEM payload joins the frame that its Port-ID assembles, if it keeps the sequence. -/
def assemble (s : State) (p o : Nat) (e : PonPortId) (f : XgemFrame) : State :=
  let held := (ponPort s o).assembling.get f.portId
  let broken := f.gap || f.isFirst = held.isSome
  let s := if broken then bump (withPon s o (fun x => { x with assembling := x.assembling.del f.portId })) (Reg.PON.REASSEMBLY_ERRORS.on p) else s
  let part : Option (List Byte × Nat) :=
    if f.isFirst then some (f.payload, f.stamp)
    else if broken then none
    else held.map (fun h => (h.1 ++ f.payload, h.2))
  match part with
  | none => s
  | some (b, t) =>
    if f.isLast then ponFrame (withPon s o (fun x => { x with assembling := x.assembling.del f.portId })) p o e b t
    else withPon s o (fun x => { x with assembling := x.assembling.put f.portId (b, t) })

/-- One XGEM frame at a position of its downstream frame: its Port-ID and its key are looked up, its payload is decrypted, and an OMCI payload is left to
R394. A payload whose job does not complete is dropped. -/
def xgemFrame (s : State) (p o position : Nat) (f : XgemFrame) : State :=
  if f.idle then s
  else
    match portIdDown s o f.portId with
    | none => bump s (Reg.PON.PORTID_UNKNOWN.on p)
    | some (k, e) =>
      let encrypted := bitOf e.flags 0 = 1
      let own (s : State) (f : XgemFrame) : State := if bitOf e.flags 1 = 1 then s else assemble s p o e f
      if f.keyIndex = 0 then if encrypted then bump s (Reg.PON.KEY_INDEX_DROPS.on p) else own (countXgem s o k) f
      else
        match if f.keyIndex = 3 then none else ponKey s o f.keyIndex (e.direction = 4) with
        | none => bump s (Reg.PON.KEY_INDEX_DROPS.on p)
        | some key =>
          match ponCrypt (countXgem s o k) key 1 (Config.ponCounter false (ponPort s p).superframe position) f.payload with
          | (s, some plain) => own s { f with payload := plain }
          | (s, none) => s

/-- The space that a payload of `n` bytes takes as one XGEM frame: a header of 8 bytes, and a payload in units of 4 bytes. -/
def xgemSpace (n : Nat) : Nat := 8 + 4 * ceilDiv n 4

/-- The XGEM frames of a payload, from a position, up to the first whose header fails. -/
def xgemFrames (s : State) (p o position : Nat) : List XgemFrame → State
  | [] => s
  | f :: fs =>
    if f.hecBad then bump s (Reg.PON.HEC_ERRORS.on p) else xgemFrames (xgemFrame s p o position f) p o (position + xgemSpace f.payload.length) fs

/-- The PSync at its expected position: a hit ends a run of misses, a miss is counted. -/
def checkPsync (s : State) (p : Nat) (hit : Bool) : State :=
  if hit then withPon s p (fun x => { x with missRun := 0 })
  else bump (withPon s p (fun x => { x with missRun := x.missRun + 1 })) (Reg.PON.PSYNC_MISSES.on p)

/-- The upstream key index moves at the switch that the OLT signals. -/
def switchUpKey (s : State) (o : Nat) (k : Option Nat) : State :=
  match k with
  | some i => if (ponKey s o i false).isSome then wr s (Reg.PON.PON_STATUS_UP_KEY_INDEX.on o) i else s
  | none => s

/-- PON_DOWNSTREAM_FRAME: a frame in sync is decoded. The standby port of a pair keeps its sync and its counts only. -/
def execPonDownstreamFrame (p : Nat) (f : DownFrame) (s : State) : Host.Outcome State Fault Refusal :=
  if !(inService s && ponEnabled s p && ponSync s p && decide ((ponPort s p).missRun < 4)) then ok s
  else
    let o := ponOwner s p
    let hit := psyncMatches s p f.rxLos f.psyncErrors
    let s := closeBursts (checkPsync (takeLos s p f.rxLos) p hit) p
    let s := bumpBy (bumpBy s (Reg.PON.FEC_CORRECTED.on p) f.fecCorrected) (Reg.PON.FEC_UNCORRECTABLE.on p) f.fecUncorrectable
    let s := withPon s p (fun x => { x with superframe := f.superframe, stamps := ((f.superframe, f.stamp) :: x.stamps).take 8192 })
    if !ponActive s p then ok s
    else
      let s := if hit && ponState s p = 5 then ponRegain s o else s
      if f.headerBad then ok (bump s (Reg.PON.HEC_ERRORS.on p))
      else ok (xgemFrames (switchUpKey (readBwmap s p f.stamp f.superframe f.bwmap) o f.upKey) p o 0 f.xgem)

/-! ### PLOAM (R386) -/

/-- Whether a port hears a downstream PLOAM message. -/
def ponHears (s : State) (p : Nat) (m : Ploam) : Bool :=
  inService s && ponEnabled s p && ponSync s p && ponActive s p
    && (match m.onuId with
        | none => true
        | some i => (ponState s p = 3 || ponState s p = 4) && rd s (Reg.PON.PON_STATUS_ONU_ID.on (ponOwner s p)) = i)

/-- A PLOAM message is received, and acted on if its MIC holds. -/
def ploamIn (s : State) (p : Nat) (m : Ploam) (act : State → State) : Host.Outcome State Fault Refusal :=
  if !ponHears s p m then ok s
  else
    let s := bump s (Reg.PON.PLOAM_RX.on p)
    if m.micOk then ok (act s) else ok (raise (bump s (Reg.PON.PLOAM_MIC_FAIL.on p)) (Reg.PON.PON_EVENTS_PLOAM_MIC_FAIL.on (ponOwner s p)))

/-- A burst profile is stored by its index, among at most four; one of another rate is ignored (R376). -/
def storeProfile (l : List BurstProfile) (f : BurstProfile) : List BurstProfile :=
  if l.any (fun g => g.index = f.index) then l.map (fun g => if g.index = f.index then f else g)
  else if l.length < 4 then l ++ [f] else l

/-- BURST_PROFILE. -/
def execBurstProfile (p : Nat) (m : Ploam) (f : BurstProfile) (s : State) : Host.Outcome State Fault Refusal :=
  let o := ponOwner s p
  ploamIn s p m (fun s =>
    if f.rate ≠ rd s (Reg.PON.PON_CONFIG_UP_RATE.on p) then s
    else ponAdvance (withPon s o (fun x => { x with profiles := storeProfile x.profiles f })) o)

/-- The registration ID waits to be sent. -/
def sendRegistration (s : State) (o : Nat) : State := queuePloam s o ploamRegistration ((ponPort s o).registration.map (·.toNat))

/-- The ONU-ID is taken: the OMCI Port-ID and the default Alloc-ID equal it. -/
def takeOnuId (s : State) (o id : Nat) : State :=
  let s := wr s (Reg.PON.PON_STATUS_ONU_ID.on o) id
  let k := (lowest 1024 (fun k => ((ponPort s o).portIds.get k).isNone)).getD 0
  withPon s o (fun x => { x with portIds := x.portIds.put k { portId := id, direction := 3, queue := rd s (Reg.PON.PON_CONFIG_DEFAULT_QUEUE.on o), flags := 2, frames := 0 },
                                 allocs := [some id] })

/-- ASSIGN_ONU_ID: with a matching serial number, from O2_3 to O4. -/
def execAssignOnuId (p : Nat) (m : Ploam) (serial : List Byte) (id : Nat) (s : State) : Host.Outcome State Fault Refusal :=
  let o := ponOwner s p
  ploamIn s p m (fun s =>
    if ponState s p = 2 && serial = ponSerial s p then sendRegistration (ponMove (takeOnuId s o (id % 1024)) o 3 []) o else s)

/-- RANGING_TIME: the equalisation delay is set, absolutely or by a difference; O4 goes to O5. -/
def execRangingTime (p : Nat) (m : Ploam) (relative : Bool) (delay : Int) (s : State) : Host.Outcome State Fault Refusal :=
  let o := ponOwner s p
  ploamIn s p m (fun s =>
    if ponState s p = 3 || ponState s p = 4 then
      let old := ((ponPort s o).nextEqd).getD (rd s (Reg.PON.EQD.on o))
      let new_ := ((if relative then (old : Int) else 0) + delay).toNat
      let s := withPon s o (fun x => { x with nextEqd := some new_, to1 := none })
      if ponState s p = 3 then ponMove s o 4 [] else s
    else s)

/-- REQUEST_REGISTRATION. -/
def execRequestRegistration (p : Nat) (m : Ploam) (s : State) : Host.Outcome State Fault Refusal :=
  ploamIn s p m (fun s => sendRegistration s (ponOwner s p))

/-- An Alloc-ID takes the first free of 32 entries; the answer says whether it found one. -/
def putAlloc (l : List (Option Nat)) (a : Nat) : List (Option Nat) × Bool :=
  if l.contains (some a) then (l, true)
  else
    match l.findIdx? (· = none) with
    | some i => (updateAt l i (fun _ => some a), true)
    | none => if l.length < 32 then (l ++ [some a], true) else (l, false)

/-- ASSIGN_ALLOC_ID. Its Acknowledge carries 0, or 1 for the standard's error code. The default Alloc-ID is not released. -/
def execAssignAllocId (p : Nat) (m : Ploam) (a : Nat) (release : Bool) (s : State) : Host.Outcome State Fault Refusal :=
  let o := ponOwner s p
  ploamIn s p m (fun s =>
    if ponState s p ≠ 3 && ponState s p ≠ 4 then s
    else
      let l := (ponPort s o).allocs
      let r := if release then (l.mapIdx (fun i x => if i ≠ 0 && x = some (a % 16384) then none else x), true) else putAlloc l (a % 16384)
      queuePloam (withPon s o (fun x => { x with allocs := r.1 })) o ploamAck [b2n (!r.2)])

/-- KEY_CONTROL: a new unicast key is drawn, installed and reported. -/
def execKeyControl (p : Nat) (m : Ploam) (index : Nat) (s : State) : Host.Outcome State Fault Refusal :=
  let o := ponOwner s p
  ploamIn s p m (fun s =>
    if index ≠ 1 && index ≠ 2 then s
    else
      let r := draw s
      let key := Config.drbg r.2 % 2 ^ 128
      let s := installPonKey r.1 o index false key
      raise (queuePloam s o ploamKeyReport [index, Config.ponWrap (ponKek s o) key]) (Reg.PON.PON_EVENTS_KEY_CHANGED.on o))

/-- DEACTIVATE_ONU_ID. -/
def execDeactivateOnuId (p : Nat) (m : Ploam) (s : State) : Host.Outcome State Fault Refusal :=
  ploamIn s p m (fun s => if 2 ≤ ponState s p && ponState s p ≤ 5 then ponToO1 s (ponOwner s p) else s)

/-- DISABLE_SERIAL_NUMBER: for one serial number or for all. -/
def execDisableSerialNumber (p : Nat) (m : Ploam) (serial : Option (List Byte)) (disable : Bool) (s : State) : Host.Outcome State Fault Refusal :=
  ploamIn s p m (fun s =>
    if serial = none || serial = some (ponSerial s p) then
      if disable then ponStop s (ponOwner s p) else ponUnstop s (ponOwner s p)
    else s)

/-- SLEEP_ALLOW is acknowledged and never acted on (R376). -/
def execSleepAllow (p : Nat) (m : Ploam) (s : State) : Host.Outcome State Fault Refusal :=
  ploamIn s p m (fun s => queuePloam s (ponOwner s p) ploamAck [0])

/-- PLOAM_UNSUPPORTED: any other message is acknowledged as not supported. -/
def execPloamUnsupported (p : Nat) (m : Ploam) (kind : Nat) (s : State) : Host.Outcome State Fault Refusal :=
  ploamIn s p m (fun s => queuePloam s (ponOwner s p) ploamAck [2, kind])

/-! ### Grants (R354, R389 to R391) -/

/-- At a grant, classes and fragments of released Alloc-IDs return to the default (R390). -/
def settleAllocs (s : State) (p o : Nat) : State :=
  let x := ponPort s o
  let live (a : Nat) : Bool := x.allocs.contains (some a)
  let gone := (x.fragments.filter (fun f => !live f.allocId)).length
  bumpBy (withPon s o (fun x => { x with fragments := x.fragments.filter (fun f => live f.allocId),
                                         classMap := x.classMap.map (fun c => if (c.map live).getD true then c else none) })) (Reg.PON.PORTID_DROPS.on p) gone

/-- The default Alloc-ID. -/
def defaultAlloc (s : State) (o : Nat) : Option Nat := ((ponPort s o).allocs.head?).join

/-- The classes that an Alloc-ID carries, highest first. -/
def classesOfAlloc (s : State) (o a : Nat) : List Nat :=
  classOrder.filter (fun c => (((ponPort s o).classMap.getD c none).orElse (fun _ => defaultAlloc s o)) = some a)

/-- The bytes held for an Alloc-ID, the remainder of a fragment included. -/
def heldBytes (s : State) (o a : Nat) : Nat :=
  ((classesOfAlloc s o a).map (fun c => ((classOf s (16 + o) c).packets.map (·.length)).sum)).sum
    + (((ponPort s o).fragments.filter (fun f => f.allocId = a)).map (·.data.length)).sum

/-- The Port-ID entry that a frame of an aggregate is sent on (R391). -/
def portIdUp (s : State) (o agg : Nat) : Option (Nat × PonPortId) :=
  let sends (e : PonPortId) : Bool := e.direction = 2 || e.direction = 3
  if agg < 16384 then
    (ponPort s o).portIds.find? (fun e => e.2.portId = ((aggOf s agg).map (fun a => a.spec.nextHop)).getD 0 % 65536 && sends e.2)
  else (ponPort s o).portIds.find? (fun e => bitOf e.2.flags 2 = 1 && sends e.2)

/-- A frame starts upstream: it is counted, charged and leaves its class queue. -/
def ponStart (s : State) (p o c : Nat) (x : ClassPacket) : State :=
  let s := countSent s (16 + o) c x
  let s := bumpBy (bump s (Reg.PON.FRAMES_TX.on p)) (Reg.PON.BYTES_TX.on p) x.length
  chargeShaper (chargeShaper s (16 + o) c (nowNs s) x.length) (16 + o) 8 (nowNs s) x.length

/-- Where the next XGEM frame of a grant stands in the upstream frame, in bytes, when `space` of its `total` bytes are left. -/
def placeIn (g : Grant) (total space : Nat) : Nat := g.start / 8 + (total - space)

/-- One XGEM frame leaves on a Port-ID entry, encrypted where the entry asks for it (R392). Without a key in use, or where the job does not complete, it
is dropped, and PORTID_DROPS counts it. -/
def sendXgem (s : State) (p o k : Nat) (e : PonPortId) (g : Grant) (position : Nat) (last : Bool) (payload : List Byte) : State :=
  let index := rd s (Reg.PON.PON_STATUS_UP_KEY_INDEX.on o)
  if bitOf e.flags 0 = 0 then emit (countXgem s o k) (.xgem p e.portId 0 last payload)
  else
    match (ponKey s o index false).map (fun key => ponCrypt s key 0 (Config.ponCounter true g.superframe position) payload) with
    | some (s, some out) => emit (countXgem s o k) (.xgem p e.portId index last out)
    | some (s, none) => bump s (Reg.PON.PORTID_DROPS.on p)
    | none => bump s (Reg.PON.PORTID_DROPS.on p)

/-- The remainder of a fragment is sent first. Answers the space left. -/
def sendRemainder (s : State) (p o a : Nat) (g : Grant) (total space : Nat) : State × Nat :=
  match (ponPort s o).fragments.find? (fun f => f.allocId = a) with
  | none => (s, space)
  | some f =>
    if space < 12 then (s, space)
    else
      match (ponPort s o).portIds.find? (fun e => e.2.portId = f.portId && (e.2.direction = 2 || e.2.direction = 3)) with
      | none => (bump (withPon s o (fun x => { x with fragments := x.fragments.erase f })) (Reg.PON.PORTID_DROPS.on p), space)
      | some (k, e) =>
        let s := bump s Reg.BAND.PON_FRAGMENTS
        if xgemSpace f.data.length ≤ space then
          (sendXgem (withPon s o (fun x => { x with fragments := x.fragments.erase f })) p o k e g (placeIn g total space) true f.data, space - xgemSpace f.data.length)
        else
          (sendXgem (withPon s o (fun x => { x with fragments := replaceFirst x.fragments f { f with data := f.data.drop (space - 8) } })) p o k e g
            (placeIn g total space) false (f.data.take (space - 8)), 0)

/-- An OMCI message with the device's MIC over its MIC field, its last four bytes (R395). -/
def withMic (s : State) (o : Nat) (m : List Byte) : List Byte :=
  let body := m.take (m.length - 4)
  body ++ padTo 4 (Config.omciMic (Config.omciKey (((ponPort s o).msk).getD Config.defaultMsk) (ponSerial s o)) body)

/-- The OMCI messages that wait are sent on the OMCI Port-ID under the default Alloc-ID, in order, as far as they fit. -/
def sendOmciQueue (s : State) (p o : Nat) (g : Grant) (total space : Nat) : List (List Byte) → State × Nat
  | [] => (s, space)
  | m :: ms =>
    if xgemSpace m.length ≤ space then
      let s := withPon s o (fun x => { x with omciQueue := ms })
      let s := match (ponPort s o).portIds.find? (fun e => bitOf e.2.flags 1 = 1) with
        | some (k, e) => sendXgem s p o k e g (placeIn g total space) true (withMic s o m)
        | none => bump s (Reg.PON.PORTID_DROPS.on p)
      sendOmciQueue s p o g total (space - xgemSpace m.length) ms
    else (s, space)

/-- The first class of a list with an eligible head packet. -/
def ponHead (s : State) (e : Nat) : List Nat → Option (Nat × ClassPacket)
  | [] => none
  | c :: cs =>
    match headOf (classOf s e c) with
    | some x => if shaperLets s e c (nowNs s) && shaperLets s e 8 (nowNs s) then some (c, x) else ponHead s e cs
    | none => ponHead s e cs

/-- The classes of an Alloc-ID fill the space of a grant, at most `fuel` packets. -/
def fillGrant (s : State) (p o a : Nat) (g : Grant) (total space : Nat) : Nat → State × Nat
  | 0 => (s, space)
  | fuel + 1 =>
    if space < 12 then (s, space)
    else
      let cs := classesOfAlloc s o a
      let s := cs.foldl (fun s c => dropStaleHeads s (16 + o) c (classOf s (16 + o) c).packets.length) s
      match ponHead s (16 + o) cs with
      | none => (s, space)
      | some (c, x) =>
        match portIdUp s o x.agg with
        | none => fillGrant (bump (removePacket s (16 + o) c x) (Reg.PON.PORTID_DROPS.on p)) p o a g total space fuel
        | some (k, e) =>
          if rd s (Reg.PON.PON_LIMITS_MAX_FRAME.on p) < x.length then
            fillGrant (bump (removePacket s (16 + o) c x) (Reg.PON.TX_OVERSIZE.on p)) p o a g total space fuel
          else
            let data := onWire (frameData s x)
            let s := ponStart s p o c x
            if xgemSpace data.length ≤ space then
              fillGrant (sendXgem s p o k e g (placeIn g total space) true data) p o a g total (space - xgemSpace data.length) fuel
            else
              (sendXgem (withPon s o (fun y => { y with fragments := y.fragments ++ [{ allocId := a, cls := c, data := data.drop (space - 8), portId := e.portId }] }))
                p o k e g (placeIn g total space) false (data.take (space - 8)), 0)

/-- PON_GRANT: in an open burst window the Band fills the grant of an Alloc-ID. -/
def execPonGrant (p a : Nat) (s : State) : Host.Outcome State Fault Refusal :=
  let o := ponOwner s p
  let fits (b : Burst) : Bool := b.sent && decide (b.on ≤ nowNs s) && decide (nowNs s < b.off) && b.grants.any (fun g => g.allocId = a && !g.filled)
  if !(ponMayTransmit s p && ponState s p ≠ 2 && (ponPort s p).burstEn) then ok s
  else
    match (ponPort s p).bursts.find? fits with
    | none => ok s
    | some b =>
      match b.grants.find? (fun g => g.allocId = a && !g.filled) with
      | none => ok s
      | some g =>
        let s := withPon s p (fun x => { x with bursts := x.bursts.map (fun y =>
          if y = b then { y with grants := updateAt y.grants (y.grants.findIdx (fun h => h = g)) (fun h => { h with filled := true }) } else y) })
        let s := settleAllocs s p o
        let held := heldBytes s o a
        let space := Config.grantSpace (rd s (Reg.PON.PON_CONFIG_MODE.on p)) g.bits g.ploamU g.dbru
        if ponState s p = 3 then ok (bumpBy s (Reg.PON.IDLE_XGEM.on p) (Config.idleFrames space))
        else
          let r := sendRemainder s p o a g space space
          let r := if defaultAlloc s o = some a then sendOmciQueue r.1 p o g space r.2 (ponPort r.1 o).omciQueue else r
          let n := ((classesOfAlloc r.1 o a).map (fun c => (classOf r.1 (16 + o) c).packets.length)).sum
          let r := fillGrant r.1 p o a g space r.2 n
          let s := bumpBy r.1 (Reg.PON.IDLE_XGEM.on p) (if r.2 = 0 then 0 else Config.idleFrames r.2)
          ok (if g.dbru then emit s (.burst p [a, held]) else s)

/-! ### OMCI (R394 to R397) -/

/-- The OMCI_LIMITS in force (R396, R397). -/
def omciLimits (s : State) : OmciLimits := (s.trust.current.policy.findSome? Record.omciLimits?).getD .absent

/-- A delivery of OMCI to the host. OMCI_RX counts the messages delivered unchanged (R394). -/
def deliverOmci (s : State) (p source reason : Nat) (b : List Byte) (stamp : Nat) (counted : Bool) : State :=
  match deliver s b source reason (16 + ponOwner s p) 0 stamp with
  | some s => if counted then bump s (Reg.PON.OMCI_RX.on p) else s
  | none => bump (deliveryFailed s) (Reg.PON.OMCI_DROPS.on p)

/-- The message type of an OMCI message: its third byte. -/
def omciType (b : List Byte) : Nat := ((b.drop 2).head?.map (·.toNat)).getD 0

/-- The pre-shared key of the mutual authentication: the first 16 bytes of customer KEK PSK_INDEX (R392). -/
def ponPsk (s : State) (p : Nat) : Nat :=
  let x := if p = 0 then (structure_ s).ports.ponA else (structure_ s).ports.ponB
  ((s.trust.keks.find? (fun k => k.1 = x.pskIndex)).map (·.2)).getD 0 % 2 ^ 128

/-- A message of the mutual authentication: its answer waits for a grant, and a master session key that it gives is taken (R392, R394). -/
def authenticate (s : State) (o : Nat) (m : List Byte) : State :=
  let r := Config.ponAuth (ponPsk s o) (ponSerial s o) (ponPort s o).auth m
  withPon s o (fun x => { x with omciQueue := x.omciQueue ++ [r.1], auth := r.2.1, msk := r.2.2.or x.msk })

/-- OMCI_MESSAGE: a message on the OMCI Port-ID is checked, and answered, installed or delivered. -/
def execOmciMessage (p : Nat) (m : OmciMessage) (s : State) : Host.Outcome State Fault Refusal :=
  if !(inService s && ponEnabled s p && ponSync s p && ponActive s p && (ponState s p = 3 || ponState s p = 4)) then ok s
  else if !m.micOk then ok (bump s (Reg.PON.OMCI_MIC_FAIL.on p))
  else
    match m.kind with
    | .mutualAuth =>
      if rd s (Reg.PON.PON_CONFIG_ENHANCED_SECURITY.on p) = 1 then
        ok (deliverOmci (authenticate s (ponOwner s p) m.bytes) p 6 (omciType m.bytes) [] m.stamp false)
      else ok (deliverOmci s p 5 0 m.bytes m.stamp true)
    | .broadcastKey index at_ n =>
      let s := installPonKey s (ponOwner s p) index true (Config.ponUnwrap (ponKek s (ponOwner s p)) ((m.bytes.drop at_).take n))
      ok (deliverOmci s p 5 0 (m.bytes.take at_ ++ zeros (min n (m.bytes.length - at_)) ++ m.bytes.drop (at_ + n)) m.stamp false)
    | .other => ok (deliverOmci s p 5 0 m.bytes m.stamp true)

/-! ### Time of day (R398) -/

/-- The stamp of a superframe among those kept. -/
def psyncStamp (s : State) (p superframe : Nat) : Option Nat := ((ponPort s p).stamps.find? (fun x => x.1 = superframe)).map (·.2)

/-- The measured offset of a binding, in ns: the OLT's time, the downstream delay, TOD_TRIM and the stamp. -/
def todOffset (s : State) (o stamp time : Nat) : Int :=
  (4 * ((time : Int) + Config.ponDownstreamDelay (rd s (Reg.PON.EQD.on o)) - stamp) - toSigned 16 (rd s (Reg.PON.PON_LIMITS_TOD_TRIM.on o))) / 4

/-- One measurement of a PON source; it qualifies the source in O5. -/
def measureTod (s : State) (o stamp time : Nat) : State :=
  let s := measure s (todSource o) (todOffset s o stamp time) (decide (rd s (Reg.PON.PON_STATUS_STATE.on o) = 4))
  wr s (Reg.PON.PON_STATUS_TOD_QUALIFIED.on o) (b2n (sourceGet s.time (todSource o)).qualified)

/-- The port of a pair that receives. -/
def livePort (s : State) (o : Nat) : Nat := if ponPaired s && s.pon.activeB then 1 else o

/-- TOD_MEASUREMENT: the PSync of a superframe that a directive named has arrived. -/
def execTodMeasurement (p : Nat) (s : State) : Host.Outcome State Fault Refusal :=
  let o := ponOwner s p
  match (ponPort s o).tod.find? (fun b => (psyncStamp s (livePort s o) b.superframe).isSome) with
  | none => ok s
  | some b =>
    if inService s && decide (p < 2) then
      ok (measureTod (withPon s o (fun x => { x with tod := x.tod.erase b })) o ((psyncStamp s (livePort s o) b.superframe).getD 0) b.time)
    else ok s

/-! ### The protected pair (R399) -/

/-- Which port of a pair shows ACTIVE. -/
def showActive (s : State) : State :=
  wrAll s [(Reg.PON.PON_STATUS_ACTIVE.on 0, b2n (ponEnabled s 0 && ponActive s 0)), (Reg.PON.PON_STATUS_ACTIVE.on 1, b2n (ponEnabled s 1 && ponActive s 1))]

/-- The roles swap: the new active port enters O6 with every value kept, unless the pair is not registered. -/
def swapRoles (s : State) (events : List Fld) : State :=
  let s := cutBursts s 0
  let s := showActive { s with pon := { s.pon with activeB := !s.pon.activeB, switchRequested := false } }
  let st := rd s (Reg.PON.PON_STATUS_STATE.on 0)
  if st = 4 || st = 5 then
    ponMove (withPon s 0 (fun x => { x with to2 := some (nowNs s + 100000000), lossSince := some (nowNs s) })) 0 5 events
  else raiseAll s events

/-- The earlier of two instants. -/
def earlierOf (a b : Option Nat) : Option Nat :=
  match a, b with
  | some x, some y => some (min x y)
  | _, _ => a.or b

/-- When the active port's loss, or the high level of its PON_x_RX_LOS, has lasted PROTECT_HOLD, or at once on a request. -/
def swapDue (s : State) : Option Nat :=
  if s.pon.switchRequested then some (nowNs s)
  else (earlierOf s.pon.portA.lossSince (ponPort s (livePort s 0)).losSince).map (fun t => t + rd s (Reg.PON.PON_CONFIG_PROTECT_HOLD.on 0) * 1000000)

/-- PROTECT_SWITCH: the roles swap at the next downstream frame boundary of the standby. -/
def execProtectSwitch (s : State) : Host.Outcome State Fault Refusal :=
  if !(inService s && ponPaired s) then ok s
  else
    let standby := if s.pon.activeB then 0 else 1
    match swapDue s with
    | none => ok s
    | some due =>
      if !ponSync s standby then ok { s with pon := { s.pon with switchRequested := false } }
      else
        let last := (((ponPort s standby).stamps.head?).map (·.2)).getD due
        let t := if due ≤ last then last else last + ceilDiv (due - last) Config.tickNs * Config.tickNs
        match reach s t with
        | none => ok s
        | some s => ok (swapRoles s [Reg.PON.PON_EVENTS_PROTECT_SWITCH.on 0])

/-! ### Effects of the PON directives, entry to service and engine resets -/

/-- enable-pon takes effect (R385). -/
def enablePonEffect (s : State) (p disabled : Nat) (registration : List Byte) : State :=
  let s := withPon s p (fun x => { x with registration := padTo 36 registration })
  let s := wr s (Reg.PON.PON_STATUS_TX_PERMIT.on p) 1
  let s := if ponPaired s then wrAll s [(Reg.PON.PON_STATUS_TX_LOCKED.on 0, 0), (Reg.PON.PON_STATUS_TX_LOCKED.on 1, 0)]
    else wr s (Reg.PON.PON_STATUS_TX_LOCKED.on p) 0
  let s := if ponPaired s && s.pon.activeB then swapRoles s [] else s
  if disabled = 1 then ponStop s p else ponAdvance s p

/-- A port's charge to its cipher cluster (R378). -/
def ponCharge (s : State) (p : Nat) : Nat :=
  if rd s (Reg.PON.PON_CONFIG_MODE.on p) = 1 then 311040
  else if rd s (Reg.PON.PON_CONFIG_UP_RATE.on p) = 0 then 972000
  else if rd s (Reg.PON.PON_CONFIG_UP_RATE.on p) = 1 then 1166400
  else 1555200

/-- At an entry to Serving, every enabled port is charged and hunts in O1. -/
def ponEntry (s : State) : State :=
  let s := showActive ((List.range 2).foldl (fun s p => if ponEnabled s p && ponOwner s p = p then wr s (Reg.PON.PON_STATUS_STATE.on p) 1 else s) s)
  (List.range 2).foldl (fun s p =>
    if ponEnabled s p && ponOwner s p = p then
      { s with ledger := s.ledger ++ [{ kind := 9, index := p, code := 7, unit := homeOf s (4 * p), amount := ponCharge s p * one, released := false }] }
    else s) s

/-- An engine reset of port logic `k` (R481): PON_A with k = 0 and PON_B with k = 2 count a loss of sync, and frames in flight are lost. -/
def resetPon (s : State) (k : Nat) : State :=
  if k % 2 = 0 && ponEnabled s (k / 2) && ponSync s (k / 2) then
    let o := ponOwner s (k / 2)
    closeBursts (loseSync (withPon (withPon s o (fun x => { x with assembling := [] })) (k / 2) (fun x => { x with bursts := [] })) (k / 2)) (k / 2)
  else s

end Sys2Proof.Machine
end

