-- ==== Sys2Proof/Machine/BandRelease.lean ====
section
/-!
DEFINITION. The release of participants and tunnels at a tick boundary (R343 to R346), and its lateness.
-/

namespace Sys2Proof.Machine

/-- BATCH_WINDOW in ticks. -/
def batchWindow (s : State) : Nat := max 1 (rd s Reg.BAND.BAND_CONFIG_BATCH_WINDOW)

/-- Whether an index is released at the present boundary, under a window of `w` ticks. -/
def releasedNow (s : State) (i w : Nat) : Bool := s.band.releaseAll || decide ((s.band.batchCount + i) % w = 0)

/-- A media packet taken from a leg at a release counts in the leg, whatever becomes of it then (log 120). -/
def countPacket (s : State) (l : Nat) (p : LegPacket) : State :=
  let s := bump s Reg.BAND.PACKETS_RELEASED
  if p.rtcp then s else updLeg s l (fun x => { x with packets := (x.packets + 1) % 2 ^ 64, bytes := (x.bytes + p.rtpLength) % 2 ^ 64 })

/-- A released packet of an SRTP participant: to its key's cluster, or dropped for want of a key. -/
def submitPacket (s : State) (i l : Nat) (x : Participant) (p : LegPacket) : State :=
  let s := countPacket s l p
  if x.keyEntry = 0xFFFFFFFF then bump (dropFrom s i) Reg.BAND.NO_KEY_DROPS
  else
    let r : Released := { engine := egressEngine s (((aggOf s i).map (fun a => a.spec.egress)).getD 0), leg := l, cluster := homeOf s (x.keyEntry % 8), packet := p }
    submitFor { s with band := { s.band with released := s.band.released ++ [r] } } (.srtpOut l p.roc p.rtcp p.bytes)

/-- The legs of a participant, in ascending index: a RECEIVE leg's queue holds RTCP alone. -/
def sendLegs (s : State) (i : Nat) : List Nat := (legsOfPart s i).map (·.1)

/-- One participant at a boundary at local time `tr`. -/
def releaseParticipant (s : State) (tr i : Nat) (x : Participant) : State :=
  if x.spec.transport = 2 then
    (sendLegs s i).foldl (fun s l =>
      let r := drainLeg s l tr 1
      r.2.foldl (fun s p => queueTunnel (countPacket s l p) x.spec.tunnelId 1 (some l) p.bytes) r.1) s
  else if releasedNow s i (batchWindow s) then
    (sendLegs s i).foldl (fun s l =>
      let r := drainLeg s l tr (batchWindow s)
      r.2.foldl (fun s p => submitPacket s i l x p) r.1) s
  else s

/-- One tunnel at a boundary: a pinned one builds the frames of the tick that begins, an unpinned one those of its window. -/
def releaseTunnelNow (s : State) (tr t : Nat) (x : Tunnel) : State :=
  let w := batchWindow s
  if x.state ≠ .active then s
  else if x.pinned then releaseTunnel s t tr 1
  else if releasedNow s t w || decide (x.builtUntil ≤ s.time.boundaries) then releaseTunnel s t tr (w - (s.band.batchCount + t) % w)
  else s

/-- BAND_RELEASE: at the present boundary, once. Participants come in ascending index, then the tunnels. -/
def execBandRelease (s : State) : Host.Outcome State Fault Refusal :=
  if inService s && onceDue s 1 then
    let tr := s.time.boundaryAt
    let s := s.participants.foldl (fun s e => releaseParticipant s tr e.1 e.2) (markOnce s 1)
    let s := s.gauntlet.tunnels.foldl (fun s e => releaseTunnelNow s tr e.1 e.2) s
    ok { s with band := { s.band with releaseAll := false } }
  else ok s

/-- Packets that a Band engine released and that have not come back by the end of the tick are late jobs of it (R62). -/
def bandLateness (s : State) : State :=
  (List.range 4).foldl (fun s k => lateJobs s (Reg.BAND.OVERRUN.at k) (s.band.released.filter (fun r => r.engine = k)).length) s

end Sys2Proof.Machine
end

