-- ==== Sys2Proof/Machine/Admission.lean ====
section
/-!
DEFINITION. What admission checks and charges (R58 to R61, R123, R124, R132, R155, R182, R228, R325, R524): charges against budgets over
several holders at once, and the charges of each kind of work. Holders are named by a kind and an index: 0 room, 1 participant, 2 leg,
3 decode stream, 4 composite, 5 encode stream, 6 mix, 7 tunnel, 8 Mitten thread, 9 PON port.
-/

namespace Sys2Proof.Machine

/-- How the own rules of a directive end (R461): a refusal, an outcome that is final at once, or an effect whose completion comes later or
has been written already, or, for a directive that its rules pace, no ending yet (R458). -/
inductive Ruling where
  | refuse (status detail : Nat)
  | done (s : State) (detail result : Nat)
  | silent (s : State)
  | hold

def stBadField : Nat := 2
def stInUse : Nat := 3
def stNotAdmitted : Nat := 4
def stLimit : Nat := 5
def stOverBudget : Nat := 6
def stPolicyDenied : Nat := 7
def stNotPermitted : Nat := 8
def stExportDenied : Nat := 9
def stNoKey : Nat := 10
def stBusy : Nat := 11
def stWrongMode : Nat := 13
def stAuthFail : Nat := 14
def stImageRefused : Nat := 15
def stTokenRefused : Nat := 16
def stSuperseded : Nat := 17
def stEntropyFail : Nat := 19

/-- Refused with NOT_ADMITTED (R107). -/
def Ruling.notAdmitted : Ruling := .refuse stNotAdmitted 0

/-- New charges of a holder. -/
structure NewCharges where
  kind : Nat
  index : Nat
  charges : List Charge

/-- A charge that has not been released. -/
def chargeAt (kind index code unit num den : Nat) : Charge :=
  { kind := kind, index := index, code := code, unit := unit, amount := chargeOf num den, released := false }

/-- What the holders of some changes hold in a budget. -/
def oldOf (s : State) (xs : List NewCharges) (code : Nat) : Nat := (xs.map (fun x => sumCode (chargesOf s x.kind x.index) code)).sum

/-- What they would hold. -/
def newOf (xs : List NewCharges) (code : Nat) : Nat := (xs.map (fun x => sumCode x.charges code)).sum

/-- The part of a list of charges that falls on a unit. -/
def onUnit (cs : List Charge) (unit : Nat) : List Charge := cs.filter (fun c => c.unit = unit)

/-- Whether a budget breaks device-wide: the change raises its total above the limit (R59, R61). -/
def breaksDevice (s : State) (xs : List NewCharges) (code : Nat) : Bool :=
  decide (oldOf s xs code < newOf xs code) && decide (budgetLimit s code * one < admitted s code - oldOf s xs code + newOf xs code)

/-- Whether a budget breaks on a unit that the new charges name (R524). -/
def breaksUnit (s : State) (xs : List NewCharges) (code : Nat) : Bool :=
  let units := (xs.flatMap (fun x => (x.charges.filter (fun c => c.code = code)).map (·.unit))).eraseDups
  decide (code ≠ 8) && decide (code ≠ 10) && units.any (fun u =>
    !unitTakes s code u ((xs.map (fun x => sumCode (onUnit (chargesOf s x.kind x.index) u) code)).sum)
      ((xs.map (fun x => sumCode (onUnit x.charges u) code)).sum))

/-- The lowest-coded budget that a change of charges breaks (R60). -/
def overBudget (s : State) (xs : List NewCharges) : Option Nat :=
  [1, 2, 3, 4, 5, 6, 7, 8, 9, 10].find? (fun code => breaksDevice s xs code || breaksUnit s xs code)

/-- The charges of a change are committed. -/
def commit (s : State) (xs : List NewCharges) : State := xs.foldl (fun s x => setCharges s x.kind x.index x.charges) s

/-! ### Units -/

/-- The cipher cluster of a participant's legs (R318). -/
def cipherUnit (s : State) (p : Nat) (x : PartSpec) : Nat := homeOf s ((if x.transport = 2 then x.tunnelId else p) % 8)

/-- The egress point of a participant: its own, or its tunnel's (R340). -/
def egressOf (s : State) (p : Nat) (x : PartSpec) : Nat :=
  if x.transport = 2 then ((s.gauntlet.tunnels.get x.tunnelId).map (fun t => t.spec.egress)).getD 0
  else ((aggOf s p).map (fun a => a.spec.egress)).getD 0

/-- The unit with the most uncharged capacity of those that can take an amount; ties go to a unit of the preferred quarter and then to the
lower number (R133). `perQuarter` is the number of units in a quarter. -/
def placeBy (s : State) (code amount perQuarter : Nat) (quarter : Option Nat) (units : List Nat) : Option Nat :=
  leastBy (fun u => -2 * unitRoom s code u (admitLimit s) + (if quarter = some (u / perQuarter) then 0 else 1))
    (units.filter (fun u => decide ((amount : Int) ≤ unitRoom s code u (admitLimit s))))

/-- The quarter whose stacks hold a pool. -/
def poolQuarter (s : State) (pool : Nat) : Option Nat := (poolOf s pool).map (fun p => nearStack p.base / 2)

/-! ### Legs (R123) -/

/-- The fields of a leg with the set-leg directives that take effect at the next boundary. -/
def futureSpec (s : State) (l : Nat) (x : LegSpec) : LegSpec :=
  s.effects.foldl (fun x e =>
    match e.directive with
    | .setLeg i c => if i = l then
        { x with cls := c.cls, flags := c.flags, rate := c.rate, burst := c.burst, packetSize := if x.kind = 0 || x.kind = 2 then c.packetSize else x.packetSize,
                 layerCap := c.layerCap }
      else x
    | _ => x) x

/-- The PACKET_SIZE that a leg's charges use: a FORWARDED leg follows its source (R525). -/
def packetSizeOf (s : State) (x : LegSpec) : Nat :=
  if x.kind = 1 then ((s.legs.get x.source).map (fun y => (futureSpec s x.source y.spec).packetSize)).getD x.packetSize else x.packetSize

/-- The lane cycles of a bridge for a codec (R228). -/
def bridgeCycles (codec : Nat) : Nat := if codec = 3 then 384 else if codec = 1 || codec = 2 then 576 else 0

/-- The charges of a leg; `cluster` is the audio cluster of its source. -/
def legCharges (s : State) (l : Nat) (x : LegSpec) (pt : PartSpec) (cluster : Nat) : List Charge :=
  let ps := 64000 * packetSizeOf s x
  let c (code unit num den : Nat) := chargeAt 2 l code unit num den
  let cu := cipherUnit s x.participant pt
  if x.kind = 0 then
    [c 8 0 (40 * x.rate) ps, c 10 0 x.rate 64000]
      ++ (if pt.transport = 2 then [] else [c 7 cu x.rate 64000])
      ++ (if x.media = 0 then [c 4 cluster 1 1, c 6 cluster (64 + bridgeCycles x.codec) 8] else [])
  else
    [c 8 0 (20 * x.rate) ps, c 9 (egressEngine s (egressOf s x.participant pt)) (30 * x.rate) ps, c 7 cu x.rate 64000,
     c 10 0 ((if x.kind = 2 then 2 else 1) * x.rate) 64000]

/-- A sum of two fractions. -/
def addFrac (a b : Nat × Nat) : Nat × Nat := (a.1 * b.2 + b.1 * a.2, a.2 * b.2)

/-- The packets per tick of some legs. -/
def packetRates (s : State) (xs : List LegSpec) : Nat × Nat :=
  xs.foldl (fun a x => addFrac a (x.rate, 64000 * max 1 (packetSizeOf s x))) (0, 1)

/-- The charges of a participant: the expected key loads of its legs, under a batching window `w` (R123). -/
def loadCharges (s : State) (w p : Nat) (pt : PartSpec) (legs : List LegSpec) : List Charge :=
  if pt.transport = 2 then []
  else
    let rx := packetRates s (legs.filter (fun x => x.kind = 0))
    let tx := packetRates s (legs.filter (fun x => x.kind ≠ 0))
    let capped := if tx.1 * w < tx.2 then tx else (1, w)
    let f := addFrac rx capped
    [chargeAt 1 p 7 (cipherUnit s p pt) (12288 * f.1) f.2]

/-- The legs of a participant as its charges count them, without leg `but`. -/
def chargedLegs (s : State) (p but : Nat) : List LegSpec :=
  ((legsOfPart s p).filter (fun e => e.1 ≠ but)).map (fun e => futureSpec s e.1 e.2.spec)

/-! ### Other work -/

/-- The sum of two charges' amounts in units of 1/8,000 of a tick. -/
def perTick (kind index code unit amount rate : Nat) : Charge := chargeAt kind index code unit (amount * rate) 8000

/-- The charges of a decode stream of `n` blocks a frame (R132). -/
def decodeCharges (i cluster n : Nat) (d : DecodeSpec) : List Charge :=
  [perTick 3 i 1 cluster n d.rate, perTick 3 i 10 0 (n * (if bitOf d.flags 0 = 1 then 1544 else 1536)) d.rate]

/-- The charges of an encode stream of `n` blocks a frame (R182). -/
def encodeCharges (i cluster n : Nat) (e : EncodeSpec) : List Charge :=
  [perTick 5 i 2 cluster n e.rate, perTick 5 i 10 0 (n * (if bitOf e.flags 1 = 1 then 2064 else 2056)) e.rate]

/-- The blocks of a picture. -/
def blocksOf (w h : Nat) : Nat := ceilDiv w 16 * ceilDiv h 16

/-- The source blocks that the crop of a layer covers. -/
def cropBlocks (x : Layer) : Nat :=
  (ceilDiv (x.srcX + x.srcW) 16 - x.srcX / 16) * (ceilDiv (x.srcY + x.srcH) 16 - x.srcY / 16)

/-- The bytes that a display list reads in a frame: source blocks and the graphic assets drawn (R155). -/
def listBytes (g : Generation) (l : DisplayList) : Nat :=
  512 * ((l.layers.filter (fun x => x.kind = 0)).map cropBlocks).sum
    + ((l.layers.filter (fun x => x.kind ≠ 0 && !x.hidden)).map (fun x => ((assetOf g x.source).map Asset.size).getD 0)).sum

/-- The charges of a composite under a display list, if it has one (R155). -/
def compositeCharges (s : State) (i veil : Nat) (c : CompositeSpec) (l : Option DisplayList) : List Charge :=
  let nb := ceilDiv c.height 16
  [perTick 4 i 3 veil (c.width * 16 * nb) c.rate,
   perTick 4 i 10 0 (512 * blocksOf c.width c.height + (l.map (listBytes s.trust.current)).getD 0) c.rate]

/-- The charges of a mix: the mix itself, and the encode instances of each format (R123, R228). -/
def mixCharges (r home maxTalkers : Nat) (formats : List (Option MixFormat)) : List Charge :=
  let c (code num den : Nat) := chargeAt 6 r code home num den
  c 6 (256 + 12 * maxTalkers) 8
    :: (formats.filterMap id).flatMap (fun f =>
      [c 5 (maxTalkers + 1) 1, c 6 ((maxTalkers + 1) * (172 + bridgeCycles f.codec)) 8])

/-- The charges of a tunnel under a batching window `w` (R325). -/
def tunnelCharges (s : State) (w i : Nat) (t : TunnelSpec) : List Charge :=
  let f := t.framesPerTick
  let c (code unit n : Nat) := chargeAt 7 i code unit n 1
  [c 7 (homeOf s (i % 8)) (2 * f * (t.frameLength - 40)), c 9 (egressEngine s t.egress) (30 * f), c 8 0 (40 * f), c 10 0 (2 * f * t.frameLength)]
    ++ (if t.pinned then [] else [chargeAt 7 i 7 (homeOf s (i % 8)) (12288 * (f * w + 1)) w])

/-- Every total that the batching window W enters is computed anew (R124). -/
def rechargeWindow (s : State) : State :=
  let w := batchWindow s
  let s := s.participants.foldl (fun s e => setCharges s 1 e.1 (loadCharges s w e.1 e.2.spec (chargedLegs s e.1 (2 ^ 32)))) s
  s.gauntlet.tunnels.foldl (fun s e => setCharges s 7 e.1 (tunnelCharges s w e.1 e.2.spec)) s

/-! ### Pools (R138, R141, R157, R189) -/

/-- The buffers that a stream or composite reserves. -/
def decodeReserve (s : State) (d : DecodeSpec) : Nat := d.refs + 1 + rd s Reg.DECODE.DECODE_CONFIG_HOLD_SLACK
def compositeReserve (s : State) : Nat := 2 + rd s Reg.VEIL.VEIL_CONFIG_COMPOSITE_SLACK
def encodeReserve (s : State) (e : EncodeSpec) : Nat :=
  spatialLayers e.structure_ * (referenceCount (temporalLayers e.structure_) + 1 + rd s Reg.ENCODE.ENCODE_CONFIG_HOLD_SLACK)

/-- The buffers of a pool that are reserved. -/
def reservedIn (s : State) (pool : Nat) : Nat :=
  ((s.decodes.filter (fun e => e.2.spec.pool = pool)).map (fun e => decodeReserve s e.2.spec)).sum
    + (s.composites.filter (fun e => e.2.spec.pool = pool)).length * compositeReserve s
    + ((s.encodes.filter (fun e => e.2.spec.pool = pool)).map (fun e => e.2.reservedBuffers)).sum

/-- Whether a pool may serve a kind: 0 decode streams, 1 composites, 2 encode streams (R157, R189). -/
def poolServes (s : State) (pool kind : Nat) : Bool :=
  (kind = 0 || !s.decodes.any (fun e => e.2.spec.pool = pool)) && (kind = 1 || !s.composites.any (fun e => e.2.spec.pool = pool))
    && (kind = 2 || !s.encodes.any (fun e => e.2.spec.pool = pool))

/-- Whether a pool exists with buffers of at least `n` blocks. -/
def poolHolds (s : State) (pool n : Nat) : Bool := ((poolOf s pool).map (fun p => decide (n ≤ p.blocks))).getD false

/-- Whether a pool can meet a reservation. -/
def poolMeets (s : State) (pool n : Nat) : Bool := decide (reservedIn s pool + n ≤ ((poolOf s pool).map (·.count)).getD 0)

end Sys2Proof.Machine
end

