-- ==== Sys2Proof/Machine/Rooms.lean ====
section
/-!
DEFINITION. Admission, change and release of rooms, participants and legs (R102 to R109, R118, R122, R211, R212, R286, R525), and what becomes
of them at a tick boundary.
-/

namespace Sys2Proof.Machine

def legEntries (s : State) : Nat := rd s Reg.LEGS.LEGS_CONFIG_LEG_UNITS * 65536

def roomActive (s : State) (r : Nat) : Bool := ((s.rooms.get r).map (fun x => decide (x.state = .active))).getD false
def partActive (s : State) (p : Nat) : Bool := ((s.participants.get p).map (fun x => decide (x.state = .active))).getD false

/-- A leg that an admission may name: neither FREE nor DRAINING (R107). -/
def legLive (s : State) (l : Nat) : Bool := ((s.legs.get l).map (fun x => decide (x.state ≠ .free) && decide (x.state ≠ .draining))).getD false

def partsOfRoom (s : State) (r : Nat) : List Nat := (s.participants.filter (fun e => e.2.spec.room = r)).map (·.1)
def legsOfRoom (s : State) (r : Nat) : List Nat := (s.legs.filter (fun e => e.2.spec.room = r)).map (·.1)

/-! ### Rooms -/

def admitRoomFields (index maxParticipants : Nat) : List (Bool × Nat) :=
  [(decide (4096 ≤ index), 0x10), (maxParticipants = 0 || decide (16384 < maxParticipants), 0x12)]

def admitRoomRule (index maxParticipants : Nat) (s : State) : Ruling :=
  if (s.rooms.get index).isSome then .refuse stInUse 0
  else .done { s with rooms := s.rooms.put index { state := .active, maxTalkers := 0, mix := false, maxParticipants := maxParticipants } } 0 0

/-! ### Participants -/

/-- The first failing field of an admit-participant: entry bytes in the extension block, then the aggregate bytes at 0x80. -/
def admitParticipantFields (s : State) (index : Nat) (p : PartSpec) (a : AggSpec) : List (Bool × Nat) :=
  let srtp : Bool := p.transport ≠ 2
  let pon : Bool := a.egress = 16 || a.egress = 17
  [(decide (16384 ≤ index), 0x10), (decide (2 < p.transport), 0x10001), (decide (4096 ≤ p.room), 0x10002),
   (!srtp && decide (4096 ≤ p.tunnelId), 0x10008), (decide (p.minRate < 32) || decide (p.maxRate < p.minRate), 0x10010),
   (decide (400000 < p.maxRate), 0x10014), (srtp && isMapped p.remoteIp != isMapped p.localIp, 0x10040),
   (srtp && !egressValid s a.egress, 0x10080), (srtp && (a.weight = 0 || decide (255 < a.weight)), 0x10081),
   (srtp && pon && decide (65536 ≤ a.nextHop), 0x10083), (srtp && decide (4096 ≤ a.vlanOuter), 0x10089),
   (srtp && (decide (4096 ≤ a.vlanInner) || (a.vlanOuter = 0 && a.vlanInner ≠ 0)), 0x1008B)]

/-- A participant just admitted (R103, R114, R116). -/
def Participant.fresh (s : State) (p : PartSpec) : Participant :=
  { state := .active, spec := p, keyEntry := 0xFFFFFFFF, rtcpSent := 0, feedback := [], reportTime := 2 ^ 32, estimate := if p.transport = 2 then p.maxRate else p.minRate, receivedRate := 0,
    delayState := 0, loss := 0, lastFeedback := 0, estD := p.minRate * 1000, estL := p.minRate * 1000, nextEstimate := none, lastCut := none,
    overuseRun := 0, groups := [], received := [], reported := [], sent := [], staleAt := nowNs s + 500000000, tickBytes := 0 }

/-- Why the tunnel of a TUNNEL participant does not serve, if it does not (R107, R317). -/
def tunnelRefusal (s : State) (p : PartSpec) : Option Nat :=
  if p.transport ≠ 2 then none
  else
    match s.gauntlet.tunnels.get p.tunnelId with
    | none => some stNotAdmitted
    | some t => if t.state = .draining || t.state = .free then some stNotAdmitted else if t.pinned then none else some stLimit

/-- The classification entry of an SRTP participant (R285, R286). -/
def participantEntry (s : State) (index : Nat) (p : PartSpec) : Option State :=
  if p.transport = 2 then some s
  else insertEntry s (if isMapped p.localIp then 2 else 3) 0 index (udpKey 17 p.localIp p.localPort p.remoteIp p.remotePort)

def admitParticipantRule (index : Nat) (p : PartSpec) (a : AggSpec) (s : State) : Ruling :=
  if (s.participants.get index).isSome then .refuse stInUse 0
  else
    match s.rooms.get p.room with
    | none => .notAdmitted
    | some r =>
      if r.state ≠ .active then .notAdmitted
      else if r.maxParticipants ≤ (partsOfRoom s p.room).length then .refuse stLimit 0
      else
        match tunnelRefusal s p with
        | some st => .refuse st 0
        | none =>
          match participantEntry s index p with
          | none => .refuse stLimit 0
          | some s =>
            let g : Aggregate :=
              { spec := if p.transport = 2 then { egress := 0, weight := 0, nextHop := 0, vlanOuter := 0, vlanInner := 0 } else a,
                finish := List.replicate 8 0, bytesSent := 0, packetsSent := 0, drops := 0 }
            .done { s with participants := s.participants.put index (.fresh s p),
                           band := { s.band with aggregates := s.band.aggregates.put index g } } 0 0

def setParticipantFields (s : State) (index minRate maxRate weight : Nat) : List (Bool × Nat) :=
  let tunnel : Bool := ((s.participants.get index).map (fun x => decide (x.spec.transport = 2))).getD false
  [(decide (16384 ≤ index), 0x10), (decide (minRate < 32) || decide (maxRate < minRate), 0x12), (decide (400000 < maxRate), 0x16),
   (!tunnel && (weight = 0 || decide (255 < weight)), 0x1A)]

/-- Put off an effect to the next tick boundary (R60, R109). -/
def later (s : State) (d : Directive) (info : List Nat) : State := { s with effects := s.effects ++ [{ directive := d, info := info }] }

def setParticipantRule (index minRate maxRate weight : Nat) (s : State) : Ruling :=
  if partActive s index then .done (later s (.setParticipant index minRate maxRate weight) []) 0 0 else .notAdmitted

/-- The effect of set-participant at its boundary: E of a TUNNEL participant is MAX_RATE, and its WEIGHT is ignored (R116, R339). -/
def applySetParticipant (s : State) (index minRate maxRate weight : Nat) : State :=
  let s := updPart s index (fun x =>
    let p : PartSpec := { x.spec with minRate := minRate, maxRate := maxRate }
    { x with spec := p, estimate := if x.spec.transport = 2 then maxRate else x.estimate })
  { s with band := { s.band with aggregates := s.band.aggregates.update index (fun a =>
      if ((s.participants.get index).map (fun x => x.spec.transport)) = some 2 then a else { a with spec := { a.spec with weight := weight } }) } }

/-! ### RTX areas (R107, R118) -/

/-- The bytes of RTX region that a leg takes. -/
def rtxNeed (x : LegSpec) : Nat := if !x.rtx then 0 else if x.kind = 1 then 2048 else rtxAreaBytes x.rate

/-- The ranges of the RTX region in use by other legs, in 64-byte units. -/
def rtxUsed (s : State) (l : Nat) : List (Nat × Nat) :=
  (s.legs.filter (fun e => e.1 ≠ l && e.2.rtxSize ≠ 0)).map (fun e => (e.2.rtxArea, ceilDiv e.2.rtxSize 64))
    ++ s.effects.filterMap (fun e =>
      match e.directive with
      | .setLeg i _ => if i ≠ l && e.info.getD 1 0 ≠ 0 then some (e.info.getD 0 0, ceilDiv (e.info.getD 1 0) 64) else none
      | _ => none)

/-- The lowest place for `n` units among used ranges in rising order, from `at_` on. -/
def firstFit (n at_ : Nat) : List (Nat × Nat) → Nat
  | [] => at_
  | r :: rs => if at_ + n ≤ r.1 then at_ else firstFit n (max at_ (r.1 + r.2)) rs

/-- The area for a leg, in 64-byte units: none where the region has no range large enough. -/
def placeRtx (s : State) (l : Nat) (x : LegSpec) : Option Nat :=
  if rtxNeed x = 0 then some 0
  else
    let n := ceilDiv (rtxNeed x) 64
    let a := firstFit n 0 (sortBy (fun r => (r.1 : Int)) (rtxUsed s l))
    if a + n ≤ rd s Reg.LEGS.LEGS_CONFIG_RTX_REGION * 16384 then some a else none

/-! ### Legs -/

/-- The name of what a RECEIVE leg's SSRC entries hang on: its participant, or its tunnel (R285). -/
def ssrcHolder (p : Nat) (x : PartSpec) : Nat × Nat := if x.transport = 2 then (1, x.tunnelId) else (0, p)

/-- The SSRCs that the RECEIVE legs of a holder expect, `but` one leg. -/
def ssrcsOf (s : State) (holder : Nat × Nat) (but : Nat) : List Nat :=
  (s.legs.filter (fun e => e.1 ≠ but && e.2.spec.kind = 0
      && ((s.participants.get e.2.spec.participant).map (fun a => decide (ssrcHolder e.2.spec.participant a.spec = holder))).getD false)).flatMap
    (fun e => let x := futureSpec s e.1 e.2.spec
              e.2.spec.ssrc :: (if x.rtx || e.2.spec.rtx then [e.2.spec.rtxSsrc] else []))

/-- Whether a leg's SOURCE is a producer ID (R181, R210). -/
def isProducer (v : Nat) : Bool :=
  (decide (0x10000000 ≤ v) && decide (v < 0x10001000)) || (decide (0x20000000 ≤ v) && decide (v < 0x20001000))

def isMixId (v : Nat) : Bool := decide (0x20000000 ≤ v)

def codecOk (media codec : Nat) : Bool := if media = 0 then decide (codec ≤ 3) else decide (8 ≤ codec) && decide (codec ≤ 10)

/-- The fields of an admit-leg: entry byte `b` stands at 0x13 + `b`. -/
def admitLegFields (s : State) (index : Nat) (x : LegSpec) : List (Bool × Nat) :=
  [(decide (legEntries s ≤ index), 0x10), (decide (2 < x.kind), 0x14), (decide (1 < x.media), 0x15), (!codecOk x.media x.codec, 0x16),
   (decide (16384 ≤ x.participant), 0x17), (decide (4096 ≤ x.room), 0x19),
   ((x.kind = 0 && x.source ≠ 0xFFFFFFFF) || (x.kind = 1 && decide (legEntries s ≤ x.source)) || (x.kind = 2 && !isProducer x.source), 0x1B),
   (decide (64 ≤ x.cls), 0x29), (decide (16 ≤ x.flags), 0x2A),
   (if x.kind = 0 then decide (x.burst < 1500) || decide (1048576 < x.burst) else x.burst ≠ 0, 0x2F),
   (x.kind ≠ 1 && (decide (x.packetSize < 64) || decide (1500 < x.packetSize)), 0x33)]

/-- Why a leg's SOURCE does not serve (R107, R181, R525): its status and detail. -/
def sourceRefusal (s : State) (x : LegSpec) : Option (Nat × Nat) :=
  if x.kind = 1 then
    match s.legs.get x.source with
    | none => some (stNotAdmitted, 0)
    | some y =>
      if !legLive s x.source then some (stNotAdmitted, 0)
      else if y.spec.kind ≠ 0 || y.spec.media ≠ x.media || y.spec.codec ≠ x.codec then some (stBadField, 0x1B) else none
  else if x.kind = 2 then
    if isMixId x.source then
      match s.mixes.get (x.source - 0x20000000) with
      | none => some (stNotAdmitted, 0)
      | some m =>
        if m.state = .draining then some (stNotAdmitted, 0)
        else if x.source ≠ mixProducer x.room then some (stBadField, 0x1B)
        else if x.media ≠ 0 then some (stBadField, 0x16) else none
    else
      match s.encodes.get (x.source - 0x10000000) with
      | none => some (stNotAdmitted, 0)
      | some e => if e.state = .draining then some (stNotAdmitted, 0) else if e.spec.codec ≠ x.codec then some (stBadField, 0x16) else none
  else none

/-- The formats of a mix with one more codec and rate; none when all four are taken (R211). -/
def addFormat (formats : List (Option MixFormat)) (codec rate : Nat) : Option (List (Option MixFormat)) :=
  if formats.any (fun f => f = some { codec := codec, rate := rate }) then some formats
  else (formats.findIdx? (·.isNone)).map (fun k => formats.set k (some { codec := codec, rate := rate }))

/-- The mix that a PRODUCED leg names. -/
def mixOfLeg (s : State) (x : LegSpec) : Option (Nat × Mix) :=
  if x.kind = 2 && isMixId x.source then (s.mixes.get (x.source - 0x20000000)).map (fun m => (x.source - 0x20000000, m)) else none

/-- Whether a room's mix bars a further audio RECEIVE leg of a participant (R212). -/
def mixBars (s : State) (x : LegSpec) : Bool :=
  x.kind = 0 && x.media = 0 && ((s.rooms.get x.room).map (·.mix)).getD false
    && (legsOfPart s x.participant).any (fun e => e.2.spec.kind = 0 && e.2.spec.media = 0)

/-- The audio clusters that a source may go to, in the order of R213: most free decode slots, then the room's HOME_CLUSTER, then the lower number. -/
def audioCandidates (s : State) (room : Nat) : List Nat :=
  let home := (s.mixes.get room).map (·.home)
  sortBy (fun c => -2 * unitRoom s 4 c 256 + (if home = some c then 0 else 1)) (enginesOf s 3)

/-- A leg just admitted (R104, R122). -/
def Leg.fresh (s : State) (x : LegSpec) (area : Nat) : Leg :=
  { state := .admitted, spec := x, layerCurrent := 0, layerTarget := 0, bucket := x.burst * bucketByte, bucketStamp := nowNs s, seqNext := 0,
    seqLastIn := none, rtxArea := area, rtxSize := rtxNeed x, keyframe := { last := none, pending := false, fir := false, firs := 0 }, packets := 0, bytes := 0,
    policeDrops := 0, rtxSent := 0, rtxMiss := 0, layerSwitches := 0, paused := false, started := false, raiseSince := none, raiseAsked := false, nested := true, maskDue := false, offsets := [], cache := [],
    sentMap := [], gaps := [], layerRates := [] }

/-- The classification entries of a RECEIVE leg (R286). -/
def legEntriesOf (s : State) (l : Nat) (holder : Nat × Nat) : List Nat → Option State
  | [] => some s
  | ssrc :: more => (insertEntry s 5 1 l (ssrcKey holder.1 holder.2 ssrc)).bind (fun s => legEntriesOf s l holder more)

/-- The charges that change when a leg is admitted with its source on an audio cluster. -/
def admitLegCharges (s : State) (l : Nat) (x : LegSpec) (pt : PartSpec) (formats : Option (Nat × Mix × List (Option MixFormat))) (cluster : Nat) :
    List NewCharges :=
  [{ kind := 2, index := l, charges := legCharges s l x pt cluster },
   { kind := 1, index := x.participant, charges := loadCharges s (batchWindow s) x.participant pt (chargedLegs s x.participant l ++ [x]) }]
    ++ (match formats with
      | some (r, m, fs) => [{ kind := 6, index := r, charges := mixCharges r m.home m.spec.maxTalkers fs }]
      | none => [])

/-- The leg enters the table with its area, its charges and its audio source. -/
def insertLeg (s : State) (l : Nat) (x : LegSpec) (area : Nat) (cs : List NewCharges) (formats : Option (Nat × Mix × List (Option MixFormat)))
    (cluster : Nat) : State :=
  let s := commit { s with legs := s.legs.put l (.fresh s x area) } cs
  let s := match formats with
    | some (r, _, fs) => updMix s r (fun m => { m with formats := fs })
    | none => s
  if x.kind = 0 && x.media = 0 then { s with audio := s.audio.put l (.fresh s cluster) } else s

/-- The lowest of some budget codes; AUDIO_DECODE where no cluster is in service (R209). -/
def lowestCode (codes : List Nat) : Nat := (leastBy (fun (n : Nat) => (n : Int)) codes).getD 4

def admitLegRule (l : Nat) (x : LegSpec) (s : State) : Ruling :=
  if (s.legs.get l).isSome then .refuse stInUse 0
  else
    match s.participants.get x.participant with
    | none => .notAdmitted
    | some a =>
      if a.state ≠ .active then .notAdmitted
      else if x.room ≠ a.spec.room then .refuse stBadField 0x19
      else
        match sourceRefusal s x with
        | some r => .refuse r.1 r.2
        | none =>
          let x := { x with packetSize := packetSizeOf s x }
          let holder := ssrcHolder x.participant a.spec
          let ssrcs := if x.kind = 0 then x.ssrc :: (if x.rtx then [x.rtxSsrc] else []) else []
          let taken := ssrcsOf s holder l
          if 256 ≤ (legsOfPart s x.participant).length || mixBars s x then .refuse stLimit 0
          else if ssrcs.any taken.contains || (x.kind = 0 && x.rtx && x.ssrc = x.rtxSsrc) then .refuse stInUse 0
          else
            let fm := (mixOfLeg s x).map (fun rm => (rm.1, rm.2, addFormat rm.2.formats x.codec x.rate))
            if (fm.map (fun f => f.2.2.isNone)) = some true then .refuse stLimit 0
            else
              let formats := fm.map (fun f => (f.1, f.2.1, f.2.2.getD []))
              match placeRtx s l x with
              | none => .refuse stLimit 0
              | some area =>
                let charges := admitLegCharges s l x a.spec formats
                let clusters := if x.kind = 0 && x.media = 0 then audioCandidates s x.room else [0]
                match clusters.find? (fun c => (overBudget s (charges c)).isNone) with
                | none => .refuse stOverBudget (lowestCode (clusters.filterMap (fun c => overBudget s (charges c))))
                | some c =>
                  match legEntriesOf s l holder ssrcs with
                  | none => .refuse stLimit 0
                  | some s => .done (insertLeg s l x area (charges c) formats c) 0 0

/-! ### Set-leg -/

def setLegFields (s : State) (l : Nat) (c : LegChange) : List (Bool × Nat) :=
  let kind := (s.legs.get l).map (fun x => x.spec.kind)
  [(decide (legEntries s ≤ l), 0x10), (decide (64 ≤ c.cls), 0x14), (decide (16 ≤ c.flags), 0x15),
   (match kind with
    | none => false
    | some k => if k = 0 then decide (c.burst < 1500) || decide (1048576 < c.burst) else decide (c.burst ≠ 0), 0x1A),
   (match kind with
    | none => false
    | some k => decide (k ≠ 1) && (decide (c.packetSize < 64) || decide (1500 < c.packetSize)), 0x1E)]

/-- The charges that a set-leg changes, in the state that holds it as an effect to come: those of the leg, of the FORWARDED legs that follow its
PACKET_SIZE, of the participants of all of them (R525), and of the mix of a PRODUCED leg. -/
def setLegCharges (s : State) (l : Nat) (x : LegSpec) (formats : Option (Nat × Mix × List (Option MixFormat))) : List NewCharges :=
  let legs := (l, x) :: (if x.kind = 0 then (legsOfSource s l).map (fun e => (e.1, e.2.spec)) else [])
  let parts := (legs.map (fun e => e.2.participant)).eraseDups
  let spec (p : Nat) : PartSpec :=
    ((s.participants.get p).map (·.spec)).getD
      { transport := 0, room := 0, tunnelId := 0, minRate := 0, maxRate := 0, remoteIp := 0, localIp := 0, remotePort := 0, localPort := 0 }
  legs.map (fun e => { kind := 2, index := e.1,
                       charges := legCharges s e.1 (futureSpec s e.1 e.2) (spec e.2.participant) (((s.audio.get e.1).map (·.cluster)).getD 0) })
    ++ parts.map (fun p => { kind := 1, index := p, charges := loadCharges s (batchWindow s) p (spec p) (chargedLegs s p (2 ^ 32)) })
    ++ (match formats with
      | some (r, m, fs) => [{ kind := 6, index := r, charges := mixCharges r m.home m.spec.maxTalkers fs }]
      | none => [])

def setLegRule (l : Nat) (c : LegChange) (s : State) : Ruling :=
  match s.legs.get l with
  | none => .notAdmitted
  | some x =>
    if !legLive s l then .notAdmitted
    else
      let was := futureSpec s l x.spec
      let next := futureSpec (later s (.setLeg l c) []) l x.spec
      let holder := ssrcHolder x.spec.participant (((s.participants.get x.spec.participant).map (·.spec)).getD
        { transport := 0, room := 0, tunnelId := 0, minRate := 0, maxRate := 0, remoteIp := 0, localIp := 0, remotePort := 0, localPort := 0 })
      let rtxOn : Bool := x.spec.kind = 0 && next.rtx && !was.rtx
      if rtxOn && (x.spec.ssrc = x.spec.rtxSsrc || (ssrcsOf s holder l).contains x.spec.rtxSsrc) then .refuse stInUse 0
      else
        let fm := (mixOfLeg s next).map (fun rm => (rm.1, rm.2, addFormat rm.2.formats next.codec next.rate))
        if (fm.map (fun f => f.2.2.isNone)) = some true then .refuse stLimit 0
        else
          let formats := fm.map (fun f => (f.1, f.2.1, f.2.2.getD []))
          let area := if rtxNeed next = x.rtxSize then some x.rtxArea else placeRtx s l next
          match area with
          | none => .refuse stLimit 0
          | some area =>
            let s' := later s (.setLeg l c) [area, rtxNeed next]
            let cs := setLegCharges s' l x.spec formats
            match overBudget s cs with
            | some code => .refuse stOverBudget code
            | none =>
              match (if rtxOn && !x.spec.rtx then legEntriesOf s' l holder [x.spec.rtxSsrc] else some s') with
              | none => .refuse stLimit 0
              | some s =>
                let s := match formats with
                  | some (r, _, fs) => updMix s r (fun m => { m with formats := fs })
                  | none => s
                .done (commit s cs) 0 0

/-- The bucket of a leg brought up to date at its present rate (R121). -/
def Leg.filled (x : Leg) (t : Nat) : Leg :=
  if t ≤ x.bucketStamp then x
  else { x with bucket := min (x.spec.burst * bucketByte) (x.bucket + x.spec.rate * (t - x.bucketStamp)), bucketStamp := t }

/-- The effect of set-leg at its boundary (R109, R122, R525). -/
def applySetLeg (s : State) (l : Nat) (c : LegChange) (area size : Nat) : State :=
  match s.legs.get l with
  | none => s
  | some x =>
    let y := x.filled (nowNs s)
    let spec : LegSpec :=
      { y.spec with cls := c.cls, flags := c.flags, rate := c.rate, burst := c.burst, packetSize := if y.spec.kind = 1 then y.spec.packetSize else c.packetSize,
                    layerCap := c.layerCap }
    let y : Leg := { y with spec := spec, bucket := min y.bucket (c.burst * bucketByte), rtxArea := if size = 0 then 0 else area, rtxSize := size,
                            cache := if spec.rtx then fitNewest size y.cache else [], sentMap := if spec.rtx then y.sentMap else [] }
    let s := { s with legs := s.legs.put l y }
    let s := if spec.rtx && decide (y.cache.length < x.cache.length) then raise s Reg.LEGS.LEGS_EVENTS_RTX_FULL else s
    if x.spec.kind ≠ 0 then s
    else
      let s := { s with legs := s.legs.all (fun _ (z : Leg) =>
        if z.spec.kind = 1 && z.spec.source = l then { z with spec := { z.spec with packetSize := c.packetSize } } else z) }
      if x.spec.rtx && !spec.rtx then
        match s.participants.get x.spec.participant with
        | none => s
        | some a =>
          let h := ssrcHolder x.spec.participant a.spec
          withIngress s (fun i => { i with classify := i.classify.filter (fun e =>
            !(e.2.anyGen && e.2.resultKind = 1 && e.2.target = l && e.2.key = padTo 40 (ssrcKey h.1 h.2 x.spec.rtxSsrc))) })
      else s

/-! ### Request-keyframe (R120) -/

def requestKeyframeFields (s : State) (sender : Nat) : List (Bool × Nat) :=
  [(!isProducer sender && (decide (legEntries s ≤ sender) || ((s.legs.get sender).map (fun x => decide (x.spec.kind ≠ 0))).getD false), 0x10)]

def requestKeyframeRule (sender : Nat) (s : State) : Ruling :=
  let live : Bool :=
    if isMixId sender then ((s.mixes.get (sender - 0x20000000)).map (fun m => decide (m.state ≠ .draining))).getD false
    else if 0x10000000 ≤ sender then ((s.encodes.get (sender - 0x10000000)).map (fun e => decide (e.state ≠ .draining))).getD false
    else legLive s sender
  if live then .done (later s (.requestKeyframe sender) []) 0 0 else .notAdmitted

/-! ### Release (R105, R106) -/

/-- Legs become DRAINING, and with them the FORWARDED legs that name them; the number of legs reached. -/
def drainLegs (s : State) (ls : List Nat) : State × Nat :=
  let own := (ls.eraseDups).filter (legLive s)
  let more := ((s.legs.filter (fun e => e.2.spec.kind = 1 && own.contains e.2.spec.source && !own.contains e.1)).map (·.1)).filter (legLive s)
  let gone := own ++ more
  let s := gone.foldl (fun s l => updSource (updLeg s l (fun x => { x with state := .draining, paused := false })) l (fun a => { a with state := .draining })) s
  (s, gone.length)

/-- Participants become DRAINING with their legs. -/
def drainParts (s : State) (ps : List Nat) : State × Nat :=
  let ps := ps.filter (partActive s)
  let s := ps.foldl (fun s p => updPart s p (fun a => { a with state := .draining })) s
  drainLegs s (ps.flatMap (fun p => (legsOfPart s p).map (·.1)))

/-- The mix of a room becomes DRAINING: MIX is cleared and its PRODUCED legs are released (R210). -/
def drainMix (s : State) (r : Nat) : State × Nat :=
  let s := updMix { s with rooms := s.rooms.update r (fun x => { x with mix := false }) } r (fun m => { m with state := .draining })
  drainLegs s ((legsOfProducer s (mixProducer r)).map (·.1))

/-- An encode stream becomes DRAINING with its PRODUCED legs (R181). -/
def drainEncodeAll (s : State) (i : Nat) : State × Nat :=
  drainLegs (drainEncode s i) ((legsOfProducer s (encodeProducer i)).map (·.1))

/-- Several releases one after the other, their legs summed. -/
def drainEach (f : State → Nat → State × Nat) (s : State) : List Nat → State × Nat
  | [] => (s, 0)
  | i :: is =>
    let a := f s i
    let b := drainEach f a.1 is
    (b.1, a.2 + b.2)

/-- The encode streams that name a source and are not DRAINING (R181): kind 0 composites, 1 decode streams. -/
def encodesOf (s : State) (kind i : Nat) : List Nat :=
  (s.encodes.filter (fun e => e.2.spec.sourceKind = kind && e.2.spec.source = i && e.2.state ≠ .draining)).map (·.1)

/-- A decode stream becomes DRAINING with the encode streams that name it. -/
def drainDecodeAll (s : State) (i : Nat) : State × Nat := drainEach drainEncodeAll (drainDecode s i) (encodesOf s 1 i)

/-- A set-layout that has not taken effect when its composite is released is refused (R161). -/
def endLayout (s : State) (i : Nat) : State :=
  match deferredOf s 0x13 i with
  | some d => finish s d stNotAdmitted 0 0
  | none => s

/-- A composite becomes DRAINING with the encode streams that name it. -/
def drainCompositeAll (s : State) (i : Nat) : State × Nat :=
  drainEach drainEncodeAll (updComp (endLayout (drainComposite s i) i) i (fun c => { c with awaiting := none })) (encodesOf s 0 i)

/-- The decode streams of legs that are DRAINING follow them (R130). -/
def drainFollowers (s : State) : State × Nat :=
  drainEach drainDecodeAll s
    ((s.decodes.filter (fun e => e.2.state ≠ .draining && !legLive s e.2.spec.leg)).map (·.1))

/-- A tunnel becomes DRAINING with its TUNNEL participants (R326). -/
def drainTunnel (s : State) (t : Nat) : State × Nat :=
  let r := drainParts s ((s.participants.filter (fun e => e.2.spec.transport = 2 && e.2.spec.tunnelId = t)).map (·.1))
  (updTunnel r.1 t (fun x => { x with state := .draining }), r.2)

/-- A room becomes DRAINING with its participants and its mix. -/
def drainRoom (s : State) (r : Nat) : State × Nat :=
  let s := { s with rooms := s.rooms.update r (fun x => { x with state := .draining }) }
  let a := drainParts s (partsOfRoom s r)
  if (a.1.mixes.get r).isSome then
    let b := drainMix a.1 r
    (b.1, a.2 + b.2)
  else a

/-- Whether the entry that a release names is in use and not DRAINING. -/
def releasable (s : State) (kind i : Nat) : Bool :=
  match kind with
  | 0 => roomActive s i
  | 1 => partActive s i
  | 2 => legLive s i
  | 3 => ((s.decodes.get i).map (fun d => decide (d.state ≠ .draining))).getD false
  | 4 => ((s.composites.get i).map (fun c => decide (c.state ≠ .draining))).getD false
  | 5 => ((s.encodes.get i).map (fun e => decide (e.state ≠ .draining))).getD false
  | 6 => ((s.mixes.get i).map (fun m => decide (m.state ≠ .draining))).getD false
  | _ => ((s.gauntlet.tunnels.get i).map (fun t => decide (t.state ≠ .draining))).getD false

/-- The release of one entry, and the number of legs it reaches. -/
def releaseEntry (s : State) (kind i : Nat) : State × Nat :=
  let r := match kind with
    | 0 => drainRoom s i
    | 1 => drainParts s [i]
    | 2 => drainLegs s [i]
    | 3 => drainDecodeAll s i
    | 4 => drainCompositeAll s i
    | 5 => drainEncodeAll s i
    | 6 => drainMix s i
    | _ => drainTunnel s i
  let f := drainFollowers r.1
  let n := r.2 + f.2
  (if (if kind = 2 then 1 else 0) < n then raise f.1 Reg.LEGS.LEGS_EVENTS_CASCADE else f.1, n)

/-- The number of entries of the table that a KIND names. -/
def releaseLimit (s : State) (kind : Nat) : Nat :=
  match kind with
  | 0 => 4096
  | 1 => 16384
  | 2 => legEntries s
  | 3 => 8192
  | 4 => 2048
  | _ => 4096

def releaseFields (s : State) (kind i : Nat) : List (Bool × Nat) :=
  [(decide (7 < kind), 0x10), (decide (kind ≤ 7) && decide (releaseLimit s kind ≤ i), 0x11)]

def releaseRule (kind i : Nat) (s : State) : Ruling :=
  if releasable s kind i then
    let r := releaseEntry s kind i
    .done r.1 0 r.2
  else .notAdmitted

/-! ### At a tick boundary (R105, R111) -/

/-- Admitted legs become ACTIVE; a FORWARDED video leg asks for a keyframe of its source. -/
def activateLeg (s : State) (l : Nat) : State :=
  match s.legs.get l with
  | some x =>
    if x.state = .admitted then
      let s := updSource (updLeg s l (fun x => { x with state := .active })) l (fun a => if a.state = .admitted then { a with state := .active } else a)
      if x.spec.kind = 1 && x.spec.media = 1 then requestKeyframe s x.spec.source false else s
    else s
  | none => s

def activateLegs (s : State) : State := (s.legs.map (·.1)).foldl activateLeg s

/-- A DRAINING leg with nothing left in its queue. -/
def legDone (s : State) (l : Nat) : Bool := ((s.legs.get l).map (fun x => decide (x.state = .draining))).getD false && !legQueued s l

/-- A leg becomes FREE: its entries, charges and working state go. -/
def freeLeg (s : State) (l : Nat) : State :=
  let s := removeEntries { s with legs := s.legs.del l } 1 l
  let s := withCipher s (fun c => { c with srtp := c.srtp.del l, rtx := c.rtx.del l })
  dropCharges { s with band := { s.band with legQueues := s.band.legQueues.del l }, effects := s.effects.filter (fun e =>
    match e.directive with
    | .setLeg i _ => decide (i ≠ l)
    | _ => true) } 2 l

/-- A participant becomes FREE: its classification entry and its key go (R286, R316). -/
def freeParticipant (s : State) (p : Nat) : State :=
  let key := ((s.participants.get p).map (·.keyEntry)).getD 0xFFFFFFFF
  let s := removeEntries (if key = 0xFFFFFFFF then s else releaseKey s key) 0 p
  dropCharges { s with participants := s.participants.del p, band := { s.band with aggregates := s.band.aggregates.del p } } 1 p

/-- The entries whose last member is gone become FREE: legs, then participants, then rooms. -/
def endLegs (s : State) : State :=
  let done := (s.legs.map (·.1)).filter (legDone s)
  let parts := (done.filterMap (fun l => (s.legs.get l).map (fun x => x.spec.participant))).eraseDups
  let s := done.foldl freeLeg s
  let s := parts.foldl (fun s p =>
    match s.participants.get p with
    | some a => setCharges s 1 p (loadCharges s (batchWindow s) p a.spec (chargedLegs s p (2 ^ 32)))
    | none => s) s
  let ps := (s.participants.filter (fun e => e.2.state = .draining && (legsOfPart s e.1).isEmpty)).map (·.1)
  let s := ps.foldl freeParticipant s
  let s := { s with rooms := s.rooms.filter (fun e => !(e.2.state = .draining && (partsOfRoom s e.1).isEmpty)) }
  endFormats s

/-- Formats that have ended give their charges back, and a DRAINING mix without legs becomes FREE. -/
def endMixes (s : State) : State :=
  let gone := (s.mixes.filter (fun e => e.2.state = .draining && (legsOfProducer s (mixProducer e.1)).isEmpty)).map (·.1)
  let s := gone.foldl (fun s r => dropCharges { s with mixes := s.mixes.del r } 6 r) s
  s.mixes.foldl (fun s e => setCharges s 6 e.1 (mixCharges e.1 e.2.home e.2.spec.maxTalkers e.2.formats)) s

end Sys2Proof.Machine
end

