-- ==== Sys2Proof/Machine/Media.lean ====
section
/-!
DEFINITION. Admission and change of decode streams (R129 to R133), composites and display lists (R154 to R161), encode streams (R179 to R182, R203),
mixes and routes (R210 to R213, R226, R229) and tunnels (R322 to R326, R346), and the exports of statistics and levels (R152, R204, R229).
-/

namespace Sys2Proof.Machine

/-- The least offset of the fields that fail. -/
def hasFailed (xs : List (Bool × Nat)) : Option Nat := leastBy (fun (n : Nat) => (n : Int)) ((xs.filter (·.1)).map (·.2))

/-- An admission that places work on a unit: the unit, or the lowest budget code that fails (R60, R133). -/
def placeWork (s : State) (code amount perQuarter : Nat) (quarter : Option Nat) (units : List Nat) (charges : Nat → List NewCharges) : Nat ⊕ Nat :=
  match placeBy s code amount perQuarter quarter units with
  | none => .inl (lowestCode (code :: (overBudget s (charges 0)).toList))
  | some u =>
    match overBudget s (charges u) with
    | some c => .inl c
    | none => .inr u

/-! ### Decode streams -/

/-- The blocks of a frame over the spatial layers that an operating point decodes (R132); only AV1 has several. -/
def decodeBlocks (d : DecodeSpec) : Nat :=
  let n := if d.codec = 10 then opSpatial d.opPoint + 1 else 1
  ((List.range n).map (fun k => blocksOf (layerSize d.maxWidth n k) (layerSize d.maxHeight n k))).sum

/-- Whether a picture size at a rate is within the limits of R129. -/
def sizeAllowed (codec w h rate : Nat) : Bool :=
  decide (blocksOf w h ≤ 36864) && (if codec = 8 then decide (blocksOf w h * rate ≤ 983040) else decide (w * h * rate ≤ 534773760))

def evenWithin (v lo hi : Nat) : Bool := v % 2 = 0 && decide (lo ≤ v) && decide (v ≤ hi)

/-- The fields of an admit-decode: entry byte `b` stands at 0x11 + `b`. -/
def admitDecodeFields (s : State) (i : Nat) (d : DecodeSpec) : List (Bool × Nat) :=
  let w := evenWithin d.maxWidth 16 4096
  let h := evenWithin d.maxHeight 16 4096
  [(decide (8192 ≤ i), 0x10), (decide (d.codec < 8) || decide (10 < d.codec), 0x12),
   (!poolHolds s d.pool (decodeBlocks d) || !poolServes s d.pool 0, 0x13), (decide (legEntries s ≤ d.leg), 0x15), (!w, 0x19), (!h, 0x1B),
   (d.rate = 0 || decide (120 < d.rate) || (w && h && !sizeAllowed d.codec d.maxWidth d.maxHeight d.rate), 0x1D),
   (d.refs = 0 || decide (16 < d.refs), 0x1E), (d.codec = 9 && d.opPoint ≠ 0, 0x1F), (decide (2 ≤ d.flags), 0x20),
   (decide (d.bitstreamKib < 256) || decide (16384 < d.bitstreamKib), 0x21)]

/-- Whether the BITSTREAM region has room for a buffer of some KiB (R408). -/
def bitstreamFits (s : State) (kib : Nat) : Bool :=
  let used := (s.decodes.map (fun e => e.2.spec.bitstreamKib)).sum
  decide ((used + kib) * 1024 ≤ (((structure_ s).map.regions.find? (fun r => r.code = 13)).map (·.length)).getD 0)

def DecodeStream.fresh (d : DecodeSpec) (cluster : Nat) : DecodeStream :=
  { state := .admitted, spec := d, cluster := cluster, current := none, frames := 0, concealed := 0, lost := 0, blocked := false,
    pictures := 0, sequence := none, noRasl := false, assembly := [], takenStamp := none, takenLast := none, job := none, ready := [], lateRun := 0 }

def admitDecodeRule (i : Nat) (d : DecodeSpec) (s : State) : Ruling :=
  if (s.decodes.get i).isSome then .refuse stInUse 0
  else
    match s.legs.get d.leg with
    | none => .notAdmitted
    | some x =>
      if !legLive s d.leg then .notAdmitted
      else if x.spec.kind ≠ 0 || x.spec.media ≠ 1 then .refuse stBadField 0x15
      else if x.spec.codec ≠ d.codec then .refuse stBadField 0x12
      else if !poolMeets s d.pool (decodeReserve s d) || !bitstreamFits s d.bitstreamKib then .refuse stLimit 0
      else
        let n := decodeBlocks d
        let cs (u : Nat) : List NewCharges := [{ kind := 3, index := i, charges := decodeCharges i u n d }]
        match placeWork s 1 (chargeOf (n * d.rate) 8000) 4 (poolQuarter s d.pool) (enginesOf s 0) cs with
        | .inl code => .refuse stOverBudget code
        | .inr u => .done (commit { s with decodes := s.decodes.put i (.fresh d u) } (cs u)) 0 0

/-! ### Statistics (R152, R204) -/

def readStatisticsFields (kind i what : Nat) : List (Bool × Nat) :=
  [(decide (1 < kind), 0x10), (decide (kind ≤ 1) && decide ((if kind = 0 then 8192 else 4096) ≤ i), 0x11), (decide (4 ≤ what), 0x13)]

/-- The areas of a picture that a read-statistics names, as address and length: its vector field, its row entries, or both. -/
def statisticsAreas (s : State) (b what : Nat) : List (Nat × Nat) :=
  match s.buffers.get b, bufferPlace s b with
  | some x, some p =>
    (if bitOf what 0 = 1 then [((vectorArea p).1, 8 * blocksOf x.width x.height)] else [])
      ++ (if bitOf what 1 = 1 then [((rowArea p).1, 16 * ceilDiv x.height 16)] else [])
  | _, _ => []

/-- The next piece of a copy: 64 KiB of what the areas hold from byte `from_` on (R152). -/
def statisticsPiece (s : State) (b what from_ : Nat) : List Byte :=
  (((statisticsAreas s b what).flatMap (fun a => memRead s.mem a.1 a.2)).drop from_).take 65536

/-- Whether the current generation's EXPORT record allows what a copy names: bit 0 for vector fields, bit 1 for row entries (R96, R152). -/
def exportAllows (s : State) (what : Nat) : Bool := bitsOf what 1 0 &&& bitsOf (exportBits s) 1 0 = what

/-- A copy has ended: what it has gathered is delivered, or discarded with EXPORT_DENIED, and its hold is released. -/
def endCopy (s : State) (c : StatCopy) (allowed : Bool) : State :=
  let s := dropHold { s with host := { s.host with copies := s.host.copies.erase c } } c.buffer
  if allowed then finish (exchangeWrite s c.dest c.done) c.work 0 0 c.total else finish s c.work stExportDenied 0 0

/-- A copy goes on at a tick boundary by 64 KiB, after the check of R152. -/
def stepCopy (s : State) (c : StatCopy) : State :=
  if !exportAllows s c.what then endCopy s c false
  else
    let n := { c with done := c.done ++ statisticsPiece s c.buffer c.what c.done.length }
    let s := { s with host := { s.host with copies := s.host.copies.map (fun x => if x = c then n else x) } }
    if c.total ≤ n.done.length then endCopy s n true else s

/-- All copies go on. -/
def stepCopies (s : State) : State := s.host.copies.foldl stepCopy s

/-- The buffer whose statistics a stream would export: none where the stream is not admitted, no buffer where it has no picture yet. -/
def statisticsBuffer (s : State) (kind i : Nat) : Option (Option Nat) :=
  if kind = 0 then (s.decodes.get i).bind (fun d => if d.state = .draining then none else some d.current)
  else (s.encodes.get i).bind (fun e => if e.state = .draining then none else some e.current)

/-- The bytes that read-statistics copies. -/
def statisticsLength (s : State) (kind i what : Nat) : Nat :=
  match statisticsBuffer s kind i with
  | some (some b) => ((statisticsAreas s b what).map (·.2)).sum
  | _ => 0

/-- Read-statistics takes a hold and copies the first 64 KiB; a longer copy goes on at the boundaries that follow (log 129). -/
def readStatisticsRule (w : Deferred) (kind i what dest : Nat) (s : State) : Ruling :=
  match statisticsBuffer s kind i with
  | none => .notAdmitted
  | some c =>
    if !exportAllows s what then .refuse stExportDenied 0
    else
      match c with
      | none => .done s 0 0
      | some b =>
        let bytes := statisticsPiece s b what 0
        let total := ((statisticsAreas s b what).map (·.2)).sum
        if total ≤ 65536 then .done (exchangeWrite (dropHold (takeHold s b) b) dest bytes) 0 total
        else
          let s := defer (takeHold s b) w
          .silent { s with host := { s.host with copies := s.host.copies ++ [{ work := w, buffer := b, what := what, dest := dest, total := total, done := bytes }] } }

/-! ### Composites -/

def admitCompositeFields (s : State) (i : Nat) (c : CompositeSpec) : List (Bool × Nat) :=
  let size : Bool := evenWithin c.width 64 4096 && evenWithin c.height 64 2304
  [(decide (2048 ≤ i), 0x10), ((size && !poolHolds s c.pool (blocksOf c.width c.height)) || !poolServes s c.pool 1 || (poolOf s c.pool).isNone, 0x12),
   (c.rate = 0 || decide (60 < c.rate), 0x13), (!evenWithin c.width 64 4096, 0x14), (!evenWithin c.height 64 2304, 0x16),
   (c.rate ≠ 0 && decide (8000 / c.rate ≤ c.phase), 0x18)]

def Composite.fresh (c : CompositeSpec) (veil : Nat) : Composite :=
  { state := .admitted, spec := c, veil := veil, visorRun := 0, current := none, frames := 0, withheld := 0, skipped := 0, listCount := 0,
    inForce := none, awaiting := none, signed := none, listReadyAt := 0, shows := [], placeholderRun := [], slateDue := false, job := none,
    pictures := 0, queue := [], lateRun := 0 }

def admitCompositeRule (i : Nat) (c : CompositeSpec) (s : State) : Ruling :=
  if (s.composites.get i).isSome then .refuse stInUse 0
  else if !poolMeets s c.pool (compositeReserve s) then .refuse stLimit 0
  else
    let cs (u : Nat) : List NewCharges := [{ kind := 4, index := i, charges := compositeCharges s i u c none }]
    match placeWork s 3 (chargeOf (c.width * 16 * ceilDiv c.height 16 * c.rate) 8000) 4 (poolQuarter s c.pool) (enginesOf s 2) cs with
    | .inl code => .refuse stOverBudget code
    | .inr u => .done (commit { s with composites := s.composites.put i (.fresh c u) } (cs u)) 0 0

/-- Set-layout (R161): the list is copied and validated; its completion waits for the signatures. -/
def setLayoutRule (w : Deferred) (i : Nat) (l : DisplayList) (length : Nat) (s : State) : Ruling :=
  match s.composites.get i with
  | none => .notAdmitted
  | some c =>
    if c.state = .draining then .notAdmitted
    else
      let detail := layoutDetail s c.spec l length true
      if detail ≠ 0 then .refuse stBadField detail
      else
        let cs : List NewCharges := [{ kind := 4, index := i, charges := compositeCharges s i c.veil c.spec (some l) }]
        match overBudget s cs with
        | some code => .refuse stOverBudget code
        | none =>
          let s := match deferredOf s 0x13 i with
            | some d => finish s d stSuperseded 0 0
            | none => s
          let s := updComp (commit s cs) i (fun c => { c with awaiting := some l, signed := none, listReadyAt := s.time.boundaries + 1 })
          .silent (defer s { w with key := i })

/-! ### Encode streams -/

/-- The size of an encode stream's source: a composite's, or the maximum of a decode stream (R180). -/
def sourceSize (s : State) (kind i : Nat) : Option (Nat × Nat) :=
  if kind = 0 then (s.composites.get i).map (fun c => (c.spec.width, c.spec.height)) else (s.decodes.get i).map (fun d => (d.spec.maxWidth, d.spec.maxHeight))

def sourceDraining (s : State) (kind i : Nat) : Bool :=
  if kind = 0 then ((s.composites.get i).map (fun c => decide (c.state = .draining))).getD false
  else ((s.decodes.get i).map (fun d => decide (d.state = .draining))).getD false

/-- Whether a layer's VBV has at least 128 bits for each of its block rows, of 16 lines whatever the codec (R180). -/
def vbvHolds (structure_ height : Nat) (r : EncodeRate) : Bool :=
  let n := spatialLayers structure_
  (List.range n).all (fun k => decide (128 * ceilDiv (layerSize height n k) 16 ≤ vbvSize r n k))

/-- The rate fields, which stand in the directive from offset `o` on (R179). -/
def encodeRateFields (o : Nat) (r : EncodeRate) (mtu : Bool) : List (Bool × Nat) :=
  let share (k : Nat) : Nat := bitsOf r.layerShare (4 * k + 3) (4 * k)
  [(decide (r.target < 64000) || decide (50000000 < r.target), o), (decide (r.vbvMs < 100) || decide (2000 < r.vbvMs), o + 4),
   (decide (r.qpMax < r.qpMin), o + 8), (decide (51 < r.qpMax), o + 9), (r.keyWeight = 0 || decide (16 < r.keyWeight), o + 10),
   (mtu && (decide (r.maxPayload < 600) || decide (1400 < r.maxPayload)), o + 12),
   (decide (4096 ≤ r.layerShare) || decide (share 0 + share 1 + share 2 ≠ 16), o + 14)]

/-- The fields of an admit-encode: entry byte `b` stands at 0x11 + `b`, and PHASE at 0x31 (R179, R180, R189). -/
def admitEncodeFields (s : State) (i : Nat) (e : EncodeSpec) : List (Bool × Nat) :=
  let n := spatialLayers e.structure_
  let t := temporalLayers e.structure_
  let size := sourceSize s e.sourceKind e.source
  let shape : Bool := decide (1 ≤ n) && decide (n ≤ 3) && decide (1 ≤ t) && decide (t ≤ 3) && (e.codec ≠ 8 || n = 1)
  let fits : Bool := match size with
    | some x => (List.range n).all (fun k => sizeAllowed e.codec (layerSize x.1 n k) (layerSize x.2 n k) e.rate)
    | none => true
  let vbv : Bool := match size with
    | some x => vbvHolds e.structure_ x.2 e.rc
    | none => true
  let big := (size.map (fun x => blocksOf x.1 x.2)).getD 0
  let noVectors : Bool := e.sourceKind = 0 || ((s.decodes.get e.source).map (fun d => decide (bitOf d.spec.flags 0 = 0))).getD false
  let ratesDiffer : Bool := e.sourceKind = 0 && ((s.composites.get e.source).map (fun c => decide (c.spec.rate ≠ e.rate))).getD false
  [(decide (4096 ≤ i), 0x10), (e.codec ≠ 8 && e.codec ≠ 10, 0x12), (!poolHolds s e.pool big || !poolServes s e.pool 2, 0x13),
   (decide (1 < e.sourceKind), 0x15), (!shape, 0x16), (decide (1 < e.profile), 0x17), (decide (4 ≤ e.flags) || (bitOf e.flags 1 = 1 && noVectors), 0x18),
   ((e.sourceKind ≤ 1 && decide ((if e.sourceKind = 0 then 2048 else 8192) ≤ e.source)) || size.isNone, 0x19),
   (e.rate = 0 || decide (60 < e.rate) || ratesDiffer || (shape && !fits), 0x1F), (shape && !vbv, 0x25)]
    ++ encodeRateFields 0x21 e.rc true
    ++ [(if e.sourceKind = 0 then decide (e.phase ≠ 0) else e.rate ≠ 0 && decide (8000 / e.rate ≤ e.phase), 0x31)]

/-- An encode stream just admitted. -/
def EncodeStream.fresh (s : State) (e : EncodeSpec) (cluster : Nat) (size : Nat × Nat) : EncodeStream :=
  { state := .admitted, spec := e, cluster := cluster, width := size.1, height := size.2, reservedBuffers := encodeReserve s e, keyAsked := 0, keyKnown := 0,
    keyServed := 0, keyframe := { last := none, pending := false, fir := false, firs := 0 },
    layers := List.replicate (spatialLayers e.structure_) { fullness := 0, debt := 0, past := [], refs := [], field := [] }, frames := 0, keyframes := 0, skipped := 0,
    sinceKey := 0, pattern := 0, nextRate := none, lastSource := none, startDue := [], pictures := 0, current := none, job := none, lateRun := 0 }

def admitEncodeRule (i : Nat) (e : EncodeSpec) (s : State) : Ruling :=
  if (s.encodes.get i).isSome then .refuse stInUse 0
  else if sourceDraining s e.sourceKind e.source then .notAdmitted
  else
    match sourceSize s e.sourceKind e.source with
    | none => .refuse stBadField 0x19
    | some size =>
      if !poolMeets s e.pool (encodeReserve s e) then .refuse stLimit 0
      else
        let n := frameBlocks (spatialLayers e.structure_) size.1 size.2
        let cs (u : Nat) : List NewCharges := [{ kind := 5, index := i, charges := encodeCharges i u n e }]
        match placeWork s 2 (chargeOf (n * e.rate) 8000) 2 (poolQuarter s e.pool) (enginesOf s 1) cs with
        | .inl code => .refuse stOverBudget code
        | .inr u => .done (commit { s with encodes := s.encodes.put i (.fresh s e u size) } (cs u)) 0 0

/-- The fields of a set-encode: the rate fields from 0x12 on, MAX_PAYLOAD ignored (R203, R464). -/
def setEncodeFields (s : State) (i : Nat) (r : EncodeRate) : List (Bool × Nat) :=
  let vbv : Bool := match s.encodes.get i with
    | some e => vbvHolds e.spec.structure_ e.height r
    | none => true
  (decide (4096 ≤ i), 0x10) :: (!vbv, 0x16) :: encodeRateFields 0x12 r false

def setEncodeRule (i : Nat) (r : EncodeRate) (s : State) : Ruling :=
  match s.encodes.get i with
  | none => .notAdmitted
  | some e =>
    if e.state = .draining then .notAdmitted
    else .done (later s (.setEncode i { r with maxPayload := e.spec.rc.maxPayload }) []) 0 0

/-! ### Mixes -/

def orZero (v d : Int) : Int := if v = 0 then d else v

/-- The fields of an admit-mix; zero stands for a default (R210). -/
def admitMixFields (r : Nat) (m : MixSpec) : List (Bool × Nat) :=
  [(decide (4096 ≤ r), 0x10), (m.maxTalkers = 0 || decide (16 < m.maxTalkers), 0x12), (!([10, 20, 40, 60].contains m.frameMs), 0x13),
   (m.threshold ≠ 0 && (decide (m.threshold < -60) || decide (-20 < m.threshold)), 0x14), (decide (20 < m.margin), 0x15), (decide (100 < m.hold), 0x16)]

def Mix.fresh (home : Nat) (m : MixSpec) : Mix :=
  { state := .admitted, home := home,
    spec := { m with threshold := orZero m.threshold (-50), margin := if m.margin = 0 then 6 else m.margin, hold := if m.hold = 0 then 20 else m.hold },
    formats := [none, none, none, none], encoded := 0, slots := List.replicate m.maxTalkers none, gains := [], sums := [], changed := [], legSlots := [],
    recordAt := none, recordWritten := 0, recordDirty := false, recordTick := 0, instances := [], periods := [],
    frameFirst := none, due := [], dueFirst := 0, dueSlots := [], dueChanged := [], dueSince := 0, dueGeneration := 0, lateRun := 0, lost := false }

/-- Whether some participant of a room has two audio RECEIVE legs (R212). -/
def doubledVoices (s : State) (r : Nat) : Bool :=
  (partsOfRoom s r).any (fun p => decide (2 ≤ ((legsOfPart s p).filter (fun e => e.2.spec.kind = 0 && e.2.spec.media = 0)).length))

def admitMixRule (r : Nat) (m : MixSpec) (s : State) : Ruling :=
  if !roomActive s r then .notAdmitted
  else if (s.mixes.get r).isSome then .refuse stInUse 0
  else if doubledVoices s r then .refuse stLimit 0
  else
    let cs (u : Nat) : List NewCharges := [{ kind := 6, index := r, charges := mixCharges r u m.maxTalkers [] }]
    let units := sortBy (fun c => -unitRoom s 5 c 256) (enginesOf s 3)
    match units.find? (fun u => (overBudget s (cs u)).isNone) with
    | none => .refuse stOverBudget (lowestCode (units.filterMap (fun u => overBudget s (cs u))))
    | some u =>
      let s := { s with rooms := s.rooms.update r (fun x => { x with mix := true, maxTalkers := m.maxTalkers }) }
      .done (commit { s with mixes := s.mixes.put r (.fresh u m) } (cs u)) 0 0

/-! ### Routes and levels -/

def setRouteFields (s : State) (l mode : Nat) (gain : Int) : List (Bool × Nat) :=
  [(decide (legEntries s ≤ l) || ((s.legs.get l).map (fun x => decide (x.spec.kind ≠ 0 || x.spec.media ≠ 0))).getD false, 0x10), (decide (2 < mode), 0x14),
   (decide (gain < -120) || decide (24 < gain), 0x15)]

/-- The MODE that a source will have once the routes given to it have taken effect. -/
def futureMode (s : State) (l : Nat) (x : AudioSource) : Nat :=
  s.effects.foldl (fun m e =>
    match e.directive with
    | .setRoute i mode _ => if i = l then mode else m
    | _ => m) ((x.nextRoute.map (·.1)).getD x.mode)

/-- The FORCED sources of a room but one. -/
def forcedIn (s : State) (room but : Nat) : Nat :=
  ((sourcesOf s room).filter (fun e => e.1 ≠ but && futureMode s e.1 e.2 = 1)).length

def setRouteRule (l mode : Nat) (gain : Int) (s : State) : Ruling :=
  match s.legs.get l with
  | none => .notAdmitted
  | some x =>
    if !legLive s l then .notAdmitted
    else
      let limit := (s.rooms.get x.spec.room).bind (fun r => if r.mix then some r.maxTalkers else none)
      if mode = 1 && (limit.map (fun n => decide (n < forcedIn s x.spec.room l + 1))).getD false then .refuse stLimit 0
      else .done (later s (.setRoute l mode gain) []) 0 0

/-- The levels of a room's sources for its last complete mix period (R229). -/
def levelsOf (s : State) (room : Nat) : List Byte := (sourcesOf s room).flatMap (fun e => Config.levelRecord e.1 e.2.rms e.2.peak e.2.heldPeak)

def readLevelsRule (room dest : Nat) (s : State) : Ruling :=
  if !roomActive s room then .notAdmitted
  else if bitOf (exportBits s) 2 = 0 then .refuse stExportDenied 0
  else
    .done (exchangeWrite s dest (levelsOf s room)) 0 (sourcesOf s room).length

def enableTalkerExportRule (room : Nat) (record : Option Nat) (s : State) : Ruling :=
  match s.mixes.get room with
  | none => .notAdmitted
  | some m =>
    if m.state = .draining then .notAdmitted
    else if record.isSome && bitOf (exportBits s) 3 = 0 then .refuse stExportDenied 0
    else .done (later s (.enableTalkerExport room record) []) 0 0

/-- The effect of enable-talker-export. -/
def applyTalkerExport (s : State) (room : Nat) (record : Option Nat) : State :=
  updMix s room (fun m => { m with recordAt := record, recordDirty := record.isSome, recordTick := s.time.tickCount })

/-- A generation that clears EXPORT bit 3 ends the talker exports (R229). -/
def endExports (s : State) : State :=
  if bitOf (exportBits s) 3 = 1 then s else { s with mixes := s.mixes.all (fun _ (m : Mix) => { m with recordAt := none, recordDirty := false }) }

/-! ### Tunnels -/

/-- The largest frame that an egress point takes (R324, R391). -/
def maxFrameOf (s : State) (e : Nat) : Nat :=
  if e < 16 then rd s (Reg.ETH.PORT_CONFIG_MAX_FRAME.on e) else rd s (Reg.PON.PON_LIMITS_MAX_FRAME.on (e - 16))

/-- The fields of an admit-tunnel, which stand in its extension block (R322, R324). -/
def admitTunnelFields (s : State) (i : Nat) (t : TunnelSpec) : List (Bool × Nat) :=
  let family (a : Nat) : Bool := (t.carrier = 1 && !isMapped a) || (t.carrier = 2 && isMapped a)
  let length : Bool := decide (512 ≤ t.frameLength) && decide (t.frameLength ≤ 8192) && t.frameLength % 16 = 0
  [(decide (4096 ≤ i), 0x10), (decide (2 < t.carrier) || (t.carrier = 0 && decide (16 ≤ t.egress)), 0x10001), (!egressValid s t.egress, 0x10003),
   (decide (8 ≤ t.cls), 0x10004), (t.framesPerTick = 0 || decide (512 < t.framesPerTick), 0x10006),
   (!length || (egressValid s t.egress && decide (maxFrameOf s t.egress < t.frameLength + carrierBytes t)), 0x10008), (decide (124 < t.phase), 0x1000A),
   (decide (4096 ≤ t.vlanOuter), 0x10016), (decide (4096 ≤ t.vlanInner) || (t.vlanOuter = 0 && t.vlanInner ≠ 0), 0x10018),
   (family t.remoteIp, 0x10028), (family t.localIp, 0x10038)]

def Tunnel.fresh (t : TunnelSpec) : Tunnel :=
  { state := .admitted, spec := t, pinned := t.pinned, up := false, peerUp := false, keyed := false, nextKeyed := false, epochCurrent := 0, epochNext := 0,
    sendEpoch := 0, nextSendEpoch := none, keyCurrent := 0, keyNext := 0, oldEpoch := none, oldUntil := 0, heldKey := none, sendSeq := 0,
    rxHigh := 0, rxAny := false, window := [], lastValid := 0, lastValidBoundary := 0, peerDownRaised := false, rtt := 0, offset := 0, framesSent := 0,
    framesReceived := 0, framesRejected := 0, downCount := 0, queue := [], sending := none, sendingLeg := none, reassembly := none, echo := none, built := [], builtUntil := 0 }

/-- The TUNNEL_END entry of a tunnel (R323). -/
def tunnelEntry (s : State) (i : Nat) (t : TunnelSpec) : Option State :=
  if t.carrier = 0 then insertEntry s 1 2 i (gauntletKey t.vlanOuter t.vlanInner i)
  else insertEntry s (if t.carrier = 1 then 2 else 3) 2 i (udpKey 17 t.localIp t.localPort t.remoteIp t.remotePort)

def admitTunnelRule (i : Nat) (t : TunnelSpec) (s : State) : Ruling :=
  if (s.gauntlet.tunnels.get i).isSome then .refuse stInUse 0
  else if (structure_ s).part.tunnelQueues ≤ s.gauntlet.tunnels.length || (t.pinned && !pinFits s i) then .refuse stLimit 0
  else
    let cs : List NewCharges := [{ kind := 7, index := i, charges := tunnelCharges s (batchWindow s) i t }]
    match overBudget s cs with
    | some code => .refuse stOverBudget code
    | none =>
      match tunnelEntry s i t with
      | none => .refuse stLimit 0
      | some s => .done (commit { s with gauntlet := { s.gauntlet with tunnels := s.gauntlet.tunnels.put i (.fresh t) } } cs) 0 0

/-- Whether a tunnel is admitted or active. -/
def tunnelLive (s : State) (t : Nat) : Bool :=
  ((s.gauntlet.tunnels.get t).map (fun x => decide (x.state = .admitted) || decide (x.state = .active))).getD false

def switchEpochRule (t epoch : Nat) (s : State) : Ruling :=
  match s.gauntlet.tunnels.get t with
  | none => .notAdmitted
  | some x =>
    if !tunnelLive s t then .notAdmitted
    else if !x.nextKeyed then .refuse stNoKey 0
    else if epoch ≠ x.epochNext then .refuse stBadField 0x12
    else .done (updTunnel s t (fun x => { x with nextSendEpoch := some epoch })) 0 0

/-- The send epochs that take effect at a tick boundary (R333). -/
def switchEpochs (s : State) : State :=
  { s with gauntlet := { s.gauntlet with tunnels := s.gauntlet.tunnels.all (fun _ (x : Tunnel) =>
      match x.nextSendEpoch with
      | some e => { x with sendEpoch := e, nextSendEpoch := none }
      | none => x) } }

end Sys2Proof.Machine
end

