-- ==== Sys2Proof/Machine/DirRules.lean ====
section
/-!
DEFINITION. The own rules (step 8 of R461) and the field ranges of the directives for threads, keys, sites, egress, the PON, time, memory, trust
and the device as a whole. Parameters stand from byte 0x10 of the entry on, packed (R457).
-/

namespace Sys2Proof.Machine

/-- Outcomes whose effect comes at the next tick boundary. -/
def Ruling.atBoundary (s : State) (d : Directive) (info : List Nat) (result : Nat) : Ruling := .done (later s d info) 0 result

/-! ### Threads (R263) -/

/-- The threads that wait for the next boundary to be created. -/
def threadsDue (s : State) : List Nat :=
  s.effects.flatMap (fun e => match e.directive with
    | .startThread _ _ _ => e.info.take 1
    | _ => [])

def startThreadFields (s : State) (entry cluster : Nat) : List (Bool × Nat) :=
  let open_ : Bool := ((entryOf s.trust.current entry).map (fun e => e.hostStart && !e.privileged)).getD false
  [(!open_, 0x10), (decide (8 ≤ cluster) && decide (cluster ≠ 255), 0x12)]

def startThreadRule (entry cluster arg : Nat) (s : State) : Ruling :=
  match entryOf s.trust.current entry with
  | none => .refuse stBadField 0x10
  | some e =>
    if cluster ≠ 255 && !inServiceEngine s 3 cluster then .notAdmitted
    else
      match lowest 8192 (fun t => (s.mitten.threads.get t).isNone && !(threadsDue s).contains t) with
      | none => .refuse stLimit 0
      | some t =>
        let cs (u : Nat) : List NewCharges := [{ kind := 8, index := t, charges := [chargeAt 8 t 6 u e.cost 1] }]
        match placeWork s 6 (chargeOf e.cost 1) 2 none (if cluster = 255 then enginesOf s 3 else [cluster]) cs with
        | .inl code => .refuse stOverBudget code
        | .inr u => .atBoundary (commit s (cs u)) (.startThread entry cluster arg) [t, u] t

def stopThreadFields (t : Nat) : List (Bool × Nat) := [(decide (8192 ≤ t), 0x10)]

def stopThreadRule (t : Nat) (s : State) : Ruling :=
  if (threadOf s t).isNone then .notAdmitted else .atBoundary s (.stopThread t) [] 0

/-! ### Key tokens (R90 to R94, R310, R316, R333) -/

/-- LENGTH is the size of a token of its KIND; a token of an invalid KIND has no size. -/
def tokenFields (token : List Byte) (length : Nat) : List (Bool × Nat) :=
  [(length = 0 || (leAt token 5 1 = 1 && length ≠ 1772) || (leAt token 5 1 = 2 && length ≠ 104), 0x14)]

/-- The second of local time in which tokens are counted (R94). -/
def secondOf (s : State) : Nat := nowNs s / 1000000000

/-- A token beyond the core's rate waits. -/
def tokenWaits (s : State) (kind : Nat) : Bool :=
  (kind = 1 && s.trust.hybridSecond = secondOf s && decide (4000 ≤ s.trust.hybridCount))
    || (kind = 2 && s.trust.wrappedSecond = secondOf s && decide (250000 ≤ s.trust.wrappedCount))

/-- A token taken up counts toward the rate. -/
def countToken (s : State) (kind : Nat) : State :=
  let t := s.trust
  let n := secondOf s
  if kind = 1 then
    { s with trust := { t with hybridSecond := n, hybridCount := if t.hybridSecond = n then t.hybridCount + 1 else 1 } }
  else if kind = 2 then
    { s with trust := { t with wrappedSecond := n, wrappedCount := if t.wrappedSecond = n then t.wrappedCount + 1 else 1 } }
  else s

/-- The last counter accepted for a usage and target. -/
def lastCounter (s : State) (usage target : Nat) : Option Nat :=
  if usage = 3 then s.gauntlet.counters.get target
  else (s.trust.counters.find? (fun c => c.1 = usage && c.2.1 = target)).map (·.2.2)

def setCounter (s : State) (usage target counter : Nat) : State :=
  if usage = 3 then { s with gauntlet := { s.gauntlet with counters := s.gauntlet.counters.put target counter } }
  else
    { s with trust := { s.trust with
        counters := (usage, target, counter) :: s.trust.counters.filter (fun c => !(c.1 = usage && c.2.1 = target)) } }

/-- The target is admitted and of the usage's kind; a keyed tunnel takes the epoch after its current one alone. -/
def targetOk (s : State) (t : KeyToken) : Bool :=
  if t.usage = 1 || t.usage = 2 then
    partActive s t.target && ((s.participants.get t.target).map (fun p => decide (p.spec.transport + 1 = t.usage))).getD false
  else if t.usage = 3 then
    tunnelLive s t.target
      && ((s.gauntlet.tunnels.get t.target).map (fun x => !x.keyed || decide (t.epoch = (x.epochCurrent + 1) % 65536))).getD false
  else if t.usage = 4 then decide (t.target = 0)
  else decide (t.target ≤ 15)

/-- The reason for which a token is refused (R93), 0 for none. -/
def tokenReason (s : State) (t : KeyToken) : Nat :=
  if rd s Reg.TRUST.ENTROPY_STATUS = 1 then 6
  else if !t.formatOk || (t.kind ≠ 1 && t.kind ≠ 2) || t.usage = 0 || decide (6 ≤ t.usage) || (t.usage = 5 && t.kind ≠ 1) then 1
  else if t.kind = 2 && !s.trust.keks.any (fun k => k.1 = t.kekIndex) then 5
  else if !t.unwraps then 2
  else if !targetOk s t then 4
  else if ((lastCounter s t.usage t.target).map (fun c => decide (t.counter ≤ c))).getD false then 3
  else 0

/-- The entry of the wrapped key table that a token makes, usable from the next tick boundary. -/
def tokenEntry (s : State) (t : KeyToken) : KeyEntry :=
  { usage := t.usage, target := t.target, epoch := t.epoch, counter := t.counter, key := t.key, salt := t.salt, usableAt := s.time.boundaries + 1,
    corrupt := false }

/-- A key waits to replace the one of an entry at the next boundary. -/
def awaitReplacement (s : State) (entry : Nat) (k : KeyEntry) : State :=
  withCipher s (fun c => { c with replacing := c.replacing.filter (fun r => r.1 ≠ entry) ++ [(entry, k)] })

/-- A token is accepted. -/
def tokenAccepted (s : State) (t : KeyToken) (entry : Nat) : Ruling :=
  .done (bump (setCounter s t.usage t.target t.counter) Reg.TRUST.TOKEN_ACCEPTED) 0 entry

/-- A key goes to a free entry of its target's class (R310). -/
def installKey (s : State) (t : KeyToken) (put : Nat → State) : Ruling :=
  match freeEntry s t.target with
  | none => .refuse stLimit 0
  | some e => tokenAccepted (put e) t e

/-- The entry whose key a token replaces (R316). -/
def replacedBy (s : State) (t : KeyToken) : Option Nat :=
  if t.usage = 1 || t.usage = 2 then
    (s.participants.get t.target).bind (fun p => if p.keyEntry = 0xFFFFFFFF then none else some p.keyEntry)
  else if t.usage = 3 then (s.gauntlet.tunnels.get t.target).bind (fun x => if x.nextKeyed then some x.keyNext else none)
  else (s.trust.keys.find? (fun e => e.2.usage = 4 && e.2.epoch = t.epoch)).map (·.1)

/-- Whether a tunnel still keeps its old epoch, so that a token for the following one waits (R333). -/
def tunnelHolds (s : State) (t : Nat) : Bool := ((s.gauntlet.tunnels.get t).map (fun x => x.oldEpoch.isSome)).getD false

def deliverKeyTokenRule (w : Deferred) (token : List Byte) (length : Nat) (s : State) : Ruling :=
  let t := readToken s.trust.keks token
  if tokenWaits s t.kind then .hold
  else
    let s := countToken s t.kind
    let r := tokenReason s t
    if r ≠ 0 then .refuse stTokenRefused r
    else if t.usage = 5 then tokenAccepted (later s (.deliverKeyToken token length) []) t 0
    else
      let k := tokenEntry s t
      match replacedBy s t with
      | some e => tokenAccepted (awaitReplacement s e k) t e
      | none =>
        if t.usage = 3 then
          if tunnelHolds s t.target then
            .silent (defer (updTunnel (setCounter s 3 t.target t.counter) t.target (fun x => { x with heldKey := some k })) { w with key := t.target })
          else installKey s t (installEpoch s t.target k)
        else if t.usage = 4 then installKey s t (fun e => putKey s e k)
        else installKey s t (fun e => updPart (putKey s e k) t.target (fun p => { p with keyEntry := e }))

/-! ### Site messages and frames (R329, R347, R355, R366) -/

def sendTunnelMessageFields (t label : Nat) (data : List Byte) : List (Bool × Nat) :=
  [(decide (4096 ≤ t), 0x10), (label ≠ 2 && label ≠ 4, 0x12), (data.isEmpty || decide (1024 < data.length), 0x13)]

def sendTunnelMessageRule (t label : Nat) (data : List Byte) (s : State) : Ruling :=
  if !tunnelLive s t then .notAdmitted else .atBoundary s (.sendTunnelMessage t label data) [] 0

def sendFrameFields (s : State) (e c : Nat) (frame : List Byte) : List (Bool × Nat) :=
  [(!egressValid s e, 0x10), (decide (8 ≤ c), 0x11), (decide (frame.length < 14) || decide (9212 < frame.length), 0x12)]

def sendFrameRule (e c : Nat) (frame : List Byte) (s : State) : Ruling := .atBoundary s (.sendFrame e c frame) [] 0

def setShaperFields (s : State) (e c burst : Nat) : List (Bool × Nat) :=
  [(!egressValid s e, 0x10), (decide (8 ≤ c) && decide (c ≠ 255), 0x11), (decide (burst < 1522) || decide (1048576 < burst), 0x16)]

def setShaperRule (e c rate burst : Nat) (s : State) : Ruling := .atBoundary s (.setShaper e c rate burst) [] 0

def setPortLpiFields (s : State) (m tw : Nat) : List (Bool × Nat) := [(!macValid s m, 0x10), (decide (1024 ≤ tw), 0x11)]

def setPortLpiRule (m tw : Nat) (s : State) : Ruling := .atBoundary s (.setPortLpi m tw) [] 0

/-! ### The PON (R382, R385, R389, R395 to R399) -/

/-- A PON port that a directive may name: enabled, and for a protected pair PON_A. -/
def ponNamed (s : State) (p : Nat) : Bool := ponEnabled s p && decide (ponOwner s p = p)

def enablePonFields (p disabled : Nat) (registration : List Byte) : List (Bool × Nat) :=
  [(decide (2 ≤ p), 0x10), (decide (2 ≤ disabled), 0x11), (decide (36 < registration.length), 0x12)]

def enablePonRule (p disabled : Nat) (registration : List Byte) (s : State) : Ruling :=
  if !ponNamed s p then .notAdmitted else .atBoundary s (.enablePon p disabled registration) [] 0

/-- A Port-ID table after a set-pon-port. -/
def putPortId (t : Table PonPortId) (index portId direction queue flags : Nat) : Table PonPortId :=
  if direction = 0 then t.del index
  else t.put index { portId := portId, direction := direction, queue := queue, flags := flags, frames := ((t.get index).map (·.frames)).getD 0 }

/-- The Port-ID table with the directives that wait for the next boundary. -/
def portIdsDue (s : State) (p : Nat) : Table PonPortId :=
  s.effects.foldl (fun t e => match e.directive with
    | .setPonPort q i a b c f => if q = p then putPortId t i a b c f else t
    | _ => t) (ponPort s p).portIds

def setPonPortFields (p index direction queue flags : Nat) : List (Bool × Nat) :=
  [(decide (2 ≤ p), 0x10), (decide (1024 ≤ index), 0x11), (decide (5 ≤ direction), 0x15), (decide (8 ≤ queue), 0x16), (decide (8 ≤ flags), 0x17)]

/-- The entry that the device wrote at Assign_ONU-ID: the OMCI Port-ID, equal to the ONU-ID, while the port is registered (R382). -/
def deviceEntry (s : State) (p : Nat) (e : PonPortId) : Bool :=
  bitOf e.flags 1 = 1 && e.portId = rd s (Reg.PON.PON_STATUS_ONU_ID.on p) && decide (3 ≤ ponState s p) && decide (ponState s p ≤ 5)

/-- Whether an entry exceeds the OMCI limits (R396, R397); `n` counts the entries that the host would hold. -/
def portIdDenied (o : OmciLimits) (n direction queue flags : Nat) : Bool :=
  let clear := bitOf flags 0 = 0
  decide (o.maxPortIds < n) || bitOf o.queueMask queue = 0 || ((direction = 1 || direction = 3) && clear && bitOf o.flags 0 = 0)
    || (direction = 4 && bitOf o.flags 1 = 0) || (direction = 2 && clear && bitOf o.flags 4 = 0)

def setPonPortRule (p index portId direction queue flags : Nat) (s : State) : Ruling :=
  let t := portIdsDue s p
  let others := t.del index
  if !ponNamed s p then .notAdmitted
  else if ((t.get index).map (deviceEntry s p)).getD false then .refuse stInUse 0
  else if direction = 0 then .atBoundary s (.setPonPort p index portId direction queue flags) [] 0
  else if portIdDenied (omciLimits s) ((others.filter (fun e => !deviceEntry s p e.2)).length + 1) direction queue flags then .refuse stPolicyDenied 0
  else if others.any (fun e => e.2.portId = portId) || (bitOf flags 2 = 1 && others.any (fun e => bitOf e.2.flags 2 = 1)) then .refuse stInUse 0
  else .atBoundary s (.setPonPort p index portId direction queue flags) [] 0

/-- A class map after a set-pon-map. -/
def putClass (m : List (Option Nat)) (c allocId : Nat) : List (Option Nat) :=
  (List.range 8).map (fun k => if k = c then (if allocId = 0xFFFF then none else some allocId) else m.getD k none)

/-- The class map with the directives that wait for the next boundary. -/
def classMapDue (s : State) (p : Nat) : List (Option Nat) :=
  s.effects.foldl (fun m e => match e.directive with
    | .setPonMap q c a => if q = p then putClass m c a else m
    | _ => m) (ponPort s p).classMap

def setPonMapFields (p c : Nat) : List (Bool × Nat) := [(decide (2 ≤ p), 0x10), (decide (8 ≤ c), 0x11)]

def setPonMapRule (p c allocId : Nat) (s : State) : Ruling :=
  let used := ((putClass (classMapDue s p) c allocId).filterMap id).filter (fun a => some a ≠ defaultAlloc s p)
  if !ponNamed s p then .notAdmitted
  else if allocId ≠ 0xFFFF && !(ponPort s p).allocs.contains (some allocId) then .notAdmitted
  else if decide ((omciLimits s).maxAllocMap < used.eraseDups.length) then .refuse stPolicyDenied 0
  else .atBoundary s (.setPonMap p c allocId) [] 0

def sendOmciFields (p : Nat) (message : List Byte) : List (Bool × Nat) := [(decide (2 ≤ p), 0x10), (message.isEmpty, 0x11)]

/-- The OMCI messages of the last second. -/
def omciRecent (s : State) (p : Nat) : List Nat := (ponPort s p).omciTimes.filter (fun t => decide (nowNs s < t + 1000000000))

def sendOmciRule (p : Nat) (message : List Byte) (s : State) : Ruling :=
  if !ponNamed s p || ponState s p ≠ 4 then .notAdmitted
  else if (omciLimits s).rate ≤ (omciRecent s p).length then .refuse stPolicyDenied 0
  else .atBoundary (withPon s p (fun x => { x with omciTimes := nowNs s :: omciRecent s p })) (.sendOmci p message) [] 0

def ponTimeOfDayFields (s : State) (p superframe nanoseconds : Nat) : List (Bool × Nat) :=
  let ahead := (superframe : Int) - ((ponPort s p).superframe : Int)
  let known := (psyncStamp s (livePort s p) superframe).isSome
  [(decide (2 ≤ p), 0x10), (!known && !(decide (0 < ahead) && decide (ahead ≤ 8192)), 0x11), (decide (1000000000 ≤ nanoseconds), 0x1F)]

def ponTimeOfDayRule (p superframe seconds nanoseconds : Nat) (s : State) : Ruling :=
  let time := seconds * 1000000000 + nanoseconds
  if !ponNamed s p then .notAdmitted
  else if bitOf (omciLimits s).flags 2 = 0 then .refuse stPolicyDenied 0
  else
    match psyncStamp s (livePort s p) superframe with
    | some stamp => .done (measureTod s p stamp time) 0 0
    | none =>
      let b : TodBinding := { superframe := superframe, time := time }
      .done (withPon s p (fun x => { x with tod := x.tod.filter (fun y => y.superframe ≠ superframe) ++ [b] })) 0 0

def switchPonRule (s : State) : Ruling :=
  if !ponPaired s then .notAdmitted
  else if bitOf (omciLimits s).flags 3 = 0 then .refuse stPolicyDenied 0
  else .atBoundary s .switchPon [] 0

/-! ### Time (R44, R52) -/

def stepFields (source : Nat) : List (Bool × Nat) := [(source = 0 || decide (6 ≤ source), 0x10)]

/-- Whether a source meets its qualification rule of R43 to R45 but for its refused measurements: PTP a selected master and 16 measurements, PON its
port in O5, PPS its frequency and a run of four edges none of which is missing. -/
def otherwiseMeets (s : State) (c : Nat) : Bool :=
  let x := sourceGet s.time c
  if c = 1 then s.time.engine.selected.isSome && decide (16 ≤ x.count)
  else if c = 4 then
    s.time.ppsFrequency && decide (4 ≤ x.count) && (s.time.lastEdge.any (fun t => decide (nowNs s ≤ t + 1000001000)))
  else rd s (Reg.PON.PON_STATUS_STATE.on (c - 2)) = 5

/-- A source disqualified by refusals alone that would otherwise qualify and whose latest measurement is no older than 2 s (R52). -/
def stepEligible (s : State) (c : Nat) : Bool :=
  let x := sourceGet s.time c
  !x.qualified && x.jumpOnly && otherwiseMeets s c && decide (nowNs s ≤ x.measuredAt + 2000000000)

def stepRule (source : Nat) (s : State) : Ruling :=
  let x := sourceGet s.time source
  match x.offset with
  | none => .notAdmitted
  | some o =>
    if !measuring source || !(slots s).contains source || !(x.qualified || stepEligible s source) then .notAdmitted
    else if s.time.pendingStep.isSome then .refuse stBusy 0
    else .done { s with time := { s.time with pendingStep := some o } } 0 0

def setSecondsRule (seconds : Nat) (s : State) : Ruling :=
  if everLocked s then .notAdmitted else .atBoundary s (.setSeconds seconds) [] 0

/-! ### Memory (R419, R435) -/

def setMemoryRateFields (point : Nat) : List (Bool × Nat) := [(decide (3 ≤ point), 0x10)]

def setMemoryRateRule (w : Deferred) (point : Nat) (s : State) : Ruling :=
  if s.near.change.isSome || s.host.deferred.any (fun d => d.opcode = 0x52) then .refuse stBusy 0
  else .silent (later (defer s w) (.setMemoryRate point) [])

def archivePagesFields (s : State) (first count keyEntry : Nat) : List (Bool × Nat) :=
  let pages := rd s Reg.GLOVEBOX.GLOVEBOX_CONFIG
  [(decide (pages ≤ first), 0x10), (decide (65536 < count) || decide (pages < first + count), 0x18),
   (decide ((structure_ s).part.keyEntries ≤ keyEntry), 0x1C)]

def archivePagesRule (w : Deferred) (first count keyEntry dest : Nat) (s : State) : Ruling :=
  match s.trust.keys.get keyEntry with
  | none => .refuse stNoKey 0
  | some k =>
    if k.usage ≠ 4 || decide (s.time.boundaries < k.usableAt) then .refuse stNoKey 0
    else .silent (later (defer s w) (.archivePages first count keyEntry dest) [w.sequence])

/-! ### Trust (R81, R82, R88, R95) -/

def attestRule (w : Deferred) (nonce dest : Nat) (s : State) : Ruling :=
  if rd s Reg.TRUST.ENTROPY_STATUS = 1 then .refuse stEntropyFail 0
  else if 16 ≤ s.trust.attest.length then .refuse stBusy 0
  else
    let r : AttestRequest := { sequence := w.sequence, nonce := nonce, dest := dest }
    .silent { defer s { w with key := w.sequence } with trust := { s.trust with attest := s.trust.attest ++ [r] } }

/-- A verification joins the queue of the core. -/
def verify (s : State) (why : VerifyPurpose) (i : Image) : State :=
  { s with trust := { s.trust with verifying := s.trust.verifying ++ [(why, i)] } }

def pushImageRule (w : Deferred) (image : List Byte) (s : State) : Ruling :=
  let i := Image.ofBytes image
  if s.mode = .proving && i.kind = 1 then .refuse stWrongMode 1 else .silent (verify (defer s w) (.pushed s.trust.pendingPartial.isSome) i)

def flashProgramFields (slot : Nat) : List (Bool × Nat) := [(decide (2 ≤ slot), 0x18)]

def flashProgramRule (w : Deferred) (image : List Byte) (slot : Nat) (s : State) : Ruling :=
  .silent (verify (defer s { w with info := [slot] }) (.flashProgram slot image) (Image.ofBytes image))

/-! ### The device as a whole (R463, R469, R480, R503) -/

def snapshotCountersFields (blocks clear : Nat) : List (Bool × Nat) := [(decide (2 ^ 22 ≤ blocks), 0x10), (decide (2 ≤ clear), 0x18)]

def snapshotCountersRule (w : Deferred) (blocks dest clear : Nat) (s : State) : Ruling :=
  .silent (later (defer s w) (.snapshotCounters blocks dest clear) [w.sequence])

/-- The engines of each KIND (R6, R464). -/
def enginesOfKind (kind : Nat) : Nat := [16, 8, 16, 8, 8, 8, 8, 4, 4, 4, 1].getD kind 0

def engineResetFields (kind index : Nat) : List (Bool × Nat) :=
  [(decide (11 ≤ kind), 0x10), (decide (enginesOfKind kind ≤ index), 0x11)]

def engineResetRule (kind index : Nat) (s : State) : Ruling :=
  if !inServiceEngine s kind index then .notAdmitted
  else if s.faults.resetting.contains (engineId kind index) then .refuse stBusy 0
  else .atBoundary s (.engineReset kind index) [] 0

/-- The completion is written before the reset. -/
def warmResetRule (w : Deferred) (s : State) : Ruling := .silent (warmResetFor (complete s (w.final 0 0 0)) 9)

/-- No completion follows the trigger. -/
def zeroizeRule (s : State) : Ruling := .silent (zeroizeTrigger s 7 0)

def retireRule (s : State) : Ruling := .silent (zeroizeTrigger s 9 0)

end Sys2Proof.Machine
end

