-- ==== Sys2Proof/Machine/Recovery.lean ====
section
/-!
DEFINITION. Engine resets, engine failures, retirement and re-placement, Crown link faults and automatic warm resets (R480 to R488). Engines are
named by KIND and index of the engine-reset directive.
-/

namespace Sys2Proof.Machine

/-! ### Engine resets (R480, R481) -/

/-- An engine reset of port logic `k`: its MACs lose link, its PON port counts a loss of sync, and its Cuffs resume at the next preface. -/
def resetPortLogic (s : State) (k : Nat) : State :=
  let macs := (List.range 4).map (fun j => 4 * k + j)
  let s := (macs.filter (fun m => macValid s m && linkUp s m)).foldl (fun s m => raise (loseLink s m) (Reg.ETH.PORT_EVENTS_LINK_DOWN.on m)) s
  let cuffs := macs ++ (if k = 0 then [16] else if k = 2 then [17] else [])
  let s := withIngress s (fun i => { i with cuffs := i.cuffs.all (fun m (c : Cuff) =>
    if cuffs.contains m then { c with waiting := [], resync := true, gathered := [], marked := false, poisoned := false } else c) })
  resetPon s k

/-- What an engine's own chapter says of its reset. -/
def resetWork (s : State) (kind index : Nat) : State :=
  match kind with
  | 0 => resetDecode s index
  | 1 => resetEncode s index
  | 2 => resetVeil s index
  | 3 => resetAudio s index
  | 4 => resetCipher s index
  | 5 => resetIngress s index
  | 6 => engineRegs s 6 index
  | 7 => dropReleased (engineRegs s 7 index) index
  | 8 => resetPortLogic (engineRegs s 8 index) index
  | 9 => dmaHaltAll (engineRegs s 9 index) (fun ch => ch / 16 = index) 6
  | 10 => stopMarch s
  | _ => s

/-- The effects of an engine reset. An unlock of the monitor ends with any reset (R507). -/
def resetEngine (s : State) (kind index : Nat) : State := endUnlock (resetWork s kind index)

/-- An engine reset by directive: the engine resets until ENGINE_RESET_DONE. -/
def beginReset (s : State) (kind index : Nat) : State :=
  let id := engineId kind index
  let f := s.faults
  resetEngine { s with faults := { f with resetting := if f.resetting.contains id then f.resetting else f.resetting ++ [id] } } kind index

/-- Whether the modes that power engines are on. -/
def enginesPowered (s : State) : Bool := inService s || s.mode = .proving

/-- An uncorrectable error in a memory of a cluster's Mitten lanes is also counted in LANE_ERRORS (R234). -/
def countLaneError (s : State) (kind index : Nat) : State :=
  if kind = 3 && canFail s kind index then raise (bump s Reg.MITTEN.LANE_ERRORS) Reg.MITTEN.MITTEN_EVENTS_LANE_ERROR else s

/-- ENGINE_FAILURE: the engine is reset at once, unless it is resetting already, and the failure counts toward retirement.
`laneMemory` says that the failure is an uncorrectable error in a memory of a Mitten lane. -/
def execEngineFailure (kind index : Nat) (laneMemory : Bool) (s : State) : Host.Outcome State Fault Refusal :=
  if enginesPowered s then
    let s := if laneMemory then countLaneError s kind index else s
    let r := countFailure s kind index
    ok (if r.2 then resetEngine r.1 kind index else r.1)
  else ok s

/-- ENGINE_RESET_DONE: the engine resumes work. -/
def execEngineResetDone (kind index : Nat) (s : State) : Host.Outcome State Fault Refusal :=
  ok { s with faults := { s.faults with resetting := s.faults.resetting.filter (fun e => e ≠ engineId kind index) } }

/-! ### Re-placement (R484) -/

/-- ADMIT_LIMIT itself, which re-placement keeps in Mending. -/
def fullLimit (s : State) : Nat := rd s Reg.TIME.ADMIT_CONFIG

/-- The unit of a kind with the most room for an amount, as R133 breaks ties. -/
def roomiest (s : State) (code amount perQuarter : Nat) (quarter : Option Nat) (units : List Nat) : Option Nat :=
  leastBy (fun u => -2 * unitRoom s code u (fullLimit s) + (if quarter = some (u / perQuarter) then 0 else 1))
    (units.filter (fun u => decide ((amount : Int) ≤ unitRoom s code u (fullLimit s))))

/-- What a holder charges of a code on a unit. -/
def chargeOn (s : State) (kind i code unit : Nat) : Nat := sumCode (onUnit (chargesOf s kind i) unit) code

/-- A holder's charges of a code move to another unit. -/
def moveCharges (s : State) (kind i code old new_ : Nat) : State :=
  { s with ledger := s.ledger.map (fun c => if c.kind = kind && c.index = i && c.code = code && c.unit = old then { c with unit := new_ } else c) }

/-- The block number that a fault entry of an engine names. -/
def engineBlock (kind : Nat) : Nat := [6, 8, 7, 9, 12, 11, 5, 14, 15, 19, 20].getD kind 255

/-- Work of a retired engine that fits no other is released, with a WORK_RELEASED entry. -/
def releaseWork (s : State) (kind index table i : Nat) : State :=
  fault (releaseEntry s table i).1 0x42 (engineBlock kind) (enginePort kind index) (table + 256 * i) 0

/-- One piece of work is placed again: on the unit found, or nowhere. -/
def placeAgain (s : State) (kind index table code i : Nat) (unit : Option Nat) (move : State → Nat → State) : State :=
  match unit with
  | some u => move (moveCharges s table i code index u) u
  | none => releaseWork s kind index table i

def replaceDecodes (s : State) (index : Nat) : State :=
  (s.decodes.filter (fun e => e.2.cluster = index)).foldl (fun s e =>
    placeAgain s 0 index 3 1 e.1 (roomiest s 1 (chargeOn s 3 e.1 1 index) 4 (poolQuarter s e.2.spec.pool) (enginesOf s 0))
      (fun s u => updDecode s e.1 (fun d => { d with cluster := u }))) s

def replaceEncodes (s : State) (index : Nat) : State :=
  (s.encodes.filter (fun e => e.2.cluster = index)).foldl (fun s e =>
    placeAgain s 1 index 5 2 e.1 (roomiest s 2 (chargeOn s 5 e.1 2 index) 2 (poolQuarter s e.2.spec.pool) (enginesOf s 1))
      (fun s u => updEncode s e.1 (fun d => { d with cluster := u }))) s

def replaceComposites (s : State) (index : Nat) : State :=
  (s.composites.filter (fun e => e.2.veil = index)).foldl (fun s e =>
    placeAgain s 2 index 4 3 e.1 (roomiest s 3 (chargeOn s 4 e.1 3 index) 4 (poolQuarter s e.2.spec.pool) (enginesOf s 2))
      (fun s u => updComp s e.1 (fun c => { c with veil := u }))) s

/-- The clusters with room for a charge of slots and of lane cycles. -/
def audioUnits (s : State) (code slots cycles : Nat) : List Nat :=
  (enginesOf s 3).filter (fun u => decide ((slots : Int) ≤ unitRoom s code u (fullLimit s)) && decide ((cycles : Int) ≤ unitRoom s 6 u (fullLimit s)))

/-- Audio sources and mixes of a retired cluster (R213). -/
def replaceAudio (s : State) (index : Nat) : State :=
  let s := (s.audio.filter (fun e => e.2.cluster = index)).foldl (fun s e =>
    let home := ((s.legs.get e.1).bind (fun l => s.mixes.get l.spec.room)).map (·.home)
    let u := leastBy (fun u => -2 * unitRoom s 4 u 256 + (if home = some u then 0 else 1))
      (audioUnits s 4 (chargeOn s 2 e.1 4 index) (chargeOn s 2 e.1 6 index))
    placeAgain s 3 index 2 4 e.1 u (fun s u => updSource (moveCharges s 2 e.1 6 index u) e.1 (fun x => { x with cluster := u }))) s
  (s.mixes.filter (fun e => e.2.home = index)).foldl (fun s e =>
    let u := leastBy (fun u => -unitRoom s 5 u 256) (audioUnits s 5 (chargeOn s 6 e.1 5 index) (chargeOn s 6 e.1 6 index))
    placeAgain s 3 index 6 5 e.1 u (fun s u => updMix (moveCharges s 6 e.1 6 index u) e.1 (fun m => { m with home := u, changed := allInstances m }))) s

/-- The threads of a retired audio cluster end; host-started ones write WORK_RELEASED. -/
def endThreads (s : State) (index : Nat) : State :=
  let s := (s.mitten.threads.filter (fun e => e.2.cluster = index)).foldl (fun s e =>
    let s := freeThread s e.1
    if e.2.hostStarted then fault s 0x42 (engineBlock 3) (enginePort 3 index) (8 + 256 * e.1) 0 else s) s
  (List.range 8).foldl (fun s k => withLane s (8 * index + k) .zero) s

/-- The home cluster that a class had while the retired cluster `index` still stood. -/
def homeBefore (s : State) (index cls : Nat) : Nat :=
  homeOf { s with faults := { s.faults with retired := s.faults.retired.filter (· ≠ engineId 4 index) } } cls

/-- A pinned tunnel that finds no room at its new home becomes unpinned, and its TUNNEL participants are released (R319, R484). -/
def unpinTunnel (s : State) (index t : Nat) : State :=
  let s := updTunnel s t (fun x => { x with pinned := false })
  (s.participants.filter (fun p => p.2.spec.transport = 2 && p.2.spec.tunnelId = t)).foldl (fun s p => releaseWork s 4 index 1 p.1) s

/-- The pinned tunnels of a retired cluster move to their new home in ascending tunnel ID while the pins reserved there stay within 32 slots; the
count is of the tunnels that stood there already and those placed so far. -/
def movePinnedTunnels (s : State) (index : Nat) : State :=
  let moving := (s.gauntlet.tunnels.filter (fun t => t.2.pinned && homeBefore s index (t.1 % 8) = index)).map (·.1)
  let one (a : State × List Nat) (t : Nat) : State × List Nat :=
    let left := a.2.filter (· ≠ t)
    if pinsReserved a.1 (homeOf a.1 (t % 8)) ≤ 32 + 2 * left.length then (a.1, left) else (unpinTunnel a.1 index t, left)
  (moving.foldl one (s, moving)).1

/-- The keys pinned in a retired cipher cluster move to their new home if room allows, and are loaded there. -/
def movePins (s : State) (index : Nat) : State :=
  let moved := (s.cipher.pins.filter (fun e => e.2 / 128 = index)).map (·.1)
  let s := withCipher s (fun c => { c with pins := c.pins.filter (fun e => e.2 / 128 ≠ index) })
  let s := movePinnedTunnels s index
  let lost (e : Nat) : Bool := s.gauntlet.tunnels.any (fun t => !t.2.pinned && (tunnelKeys t.2).contains e)
  moved.foldl (fun s e => if lost e then s else pinEntry s e) s

/-- The work of a retired cipher cluster: its keys' home is the next cluster that stands, whose limit each charge must meet. -/
def replaceCipher (s : State) (index : Nat) : State :=
  let s := withCipher s (fun c => { c with
    slots := c.slots.filter (fun e => e.1 / 128 ≠ index), pinnedLoads := c.pinnedLoads.filter (fun k => k / 128 ≠ index),
    loads := c.loads.filter (fun k => k / 128 ≠ index) })
  let s := movePins s index
  let home := homeOf s index
  let one (s : State) (table i : Nat) : State :=
    let n := chargeOn s table i 7 index
    if n = 0 then s
    else if (n : Int) ≤ unitRoom s 7 home (fullLimit s) || table = 9 then moveCharges s table i 7 index home
    else releaseWork s 4 index table i
  let s := [0, 1].foldl (fun s p => one s 9 p) s
  let s := (s.participants.map (·.1)).foldl (fun s p => one s 1 p) s
  let s := (s.legs.map (·.1)).foldl (fun s l => one s 2 l) s
  (s.gauntlet.tunnels.map (·.1)).foldl (fun s t => one s 7 t) s

/-- The entries of the indirection table that name a retired engine go to the survivors, round-robin (R284). -/
def respread (s : State) (kind index : Nat) : State :=
  let live := enginesOf s kind
  let table := if s.ingress.indirection.isEmpty then (List.range 512).map (fun e => (e % 8, e / 8 % 8)) else s.ingress.indirection
  let pick (n : Nat) : Nat := live.getD (n % max 1 live.length) 0
  let r := table.foldl (fun (acc : List (Nat × Nat) × Nat) e =>
    if kind = 5 && e.1 = index then (acc.1 ++ [(pick acc.2, e.2)], acc.2 + 1)
    else if kind = 6 && e.2 = index then (acc.1 ++ [(e.1, pick acc.2)], acc.2 + 1)
    else (acc.1 ++ [e], acc.2)) ([], 0)
  withIngress s (fun i => { i with indirection := r.1 })

/-- A Band engine's charges go to the engine that its egress points pass to (R338). -/
def replaceBand (s : State) (index : Nat) : State :=
  let next := (((List.range 4).map (fun k => (index + k) % 4)).find? (fun k => !s.faults.retired.contains (engineId 7 k))).getD index
  let one (s : State) (table i : Nat) : State :=
    let n := chargeOn s table i 9 index
    if n = 0 then s
    else if (n : Int) ≤ unitRoom s 9 next (fullLimit s) then moveCharges s table i 9 index next
    else releaseWork s 7 index table i
  let s := (s.legs.map (·.1)).foldl (fun s l => one s 2 l) s
  (s.gauntlet.tunnels.map (·.1)).foldl (fun s t => one s 7 t) s

/-- The work of one retired engine is placed again. -/
def replaceWork (s : State) (kind index : Nat) : State :=
  match kind with
  | 0 => replaceDecodes s index
  | 1 => replaceEncodes s index
  | 2 => replaceComposites s index
  | 3 => replaceAudio (endThreads s index) index
  | 4 => replaceCipher s index
  | 5 => respread s 5 index
  | 6 => respread s 6 index
  | _ => replaceBand s index

/-! ### Retirement (R483) -/

/-- A retirement that R483 performs: of a kind that can be retired, and not of the last engine of its kind in service. -/
def canRetire (s : State) (kind index : Nat) : Bool := decide (kind ≤ 7) && (enginesOf s kind).any (fun e => e ≠ index)

/-- The retired field of a kind's block. -/
def retiredField (kind : Nat) : List Fld :=
  match kind with
  | 0 => [Reg.DECODE.DECODE_STATUS_CLUSTERS_RETIRED]
  | 1 => [Reg.ENCODE.ENCODE_STATUS_CLUSTERS_RETIRED]
  | 2 => [Reg.VEIL.VEIL_STATUS_VEILS_RETIRED]
  | 3 => [Reg.AUDIO.AUDIO_STATUS_CLUSTERS_RETIRED, Reg.MITTEN.MITTEN_STATUS_CLUSTERS_RETIRED]
  | 4 => [Reg.CIPHER.CIPHER_STATUS_CLUSTERS_RETIRED]
  | 5 => [Reg.INGRESS.INGRESS_STATUS_ENGINES_RETIRED]
  | 7 => [Reg.BAND.BAND_STATUS_ENGINES_RETIRED]
  | _ => []

/-- An engine leaves service: it is retired, its jobs end, and its domain goes off with the last engine in it. -/
def retireEngine (s : State) (kind index : Nat) : State :=
  let s := resetEngine s kind index
  let id := engineId kind index
  let f := s.faults
  let s := { s with faults := { f with retired := f.retired ++ [id], retiring := f.retiring.erase id, resetting := f.resetting.erase id } }
  let s := (retiredField kind).foldl (fun s r => wr s r (setBit (rd s r) index)) s
  let s := bump (bump s Reg.FAULTLOG.RETIREMENTS) Reg.FAULTLOG.MENDING_STATUS_ENGINES_RETIRED
  let s := fault s 0x41 (engineBlock kind) (enginePort kind index) (kind + 256 * index) 0
  match engineDomain kind index with
  | some d => if domainOn s d && !domainWanted s d then domainOff s d else s
  | none => s

/-- The engines whose retirement is due, in ascending Crown port order (R478). -/
def retirementsDue (s : State) : List (Nat × Nat) :=
  sortBy (fun e => (enginePort e.1 e.2 : Int)) (s.faults.retiring.map (fun id => (id / 256, id % 256)))

/-- The retirements of a boundary, and then all re-placement. An engine that the retirements before it leave last of its kind stays due. -/
def performRetirements (s : State) : State :=
  let r := (retirementsDue s).foldl (fun (acc : State × List (Nat × Nat)) e =>
    if canRetire acc.1 e.1 e.2 then (retireEngine acc.1 e.1 e.2, acc.2 ++ [e]) else acc) (s, [])
  let s := r.2.foldl (fun s e => replaceWork s e.1 e.2) r.1
  if r.2.isEmpty || !inService s then s else requestMode s .mending 6

/-! ### Automatic warm resets (R488) -/

/-- The code that would cause an automatic warm reset now: a retirement not performed, or a lasting Crown link fault. -/
def autoCause (s : State) : Option Nat :=
  if s.faults.linkPending ≠ [] then some 0x50
  else if (retirementsDue s).any (fun e => !canRetire s e.1 e.2) then some 0x40
  else none

/-- The automatic warm resets of the last 3,600 s, by boundary count. -/
def autoRecent (s : State) : List Nat := s.faults.autoResets.filter (fun b => decide (s.time.boundaries < b + 28800000))

/-- An automatic warm reset: its entry is written first. After the third within 3,600 s the device stays in Proving, PROVING_FAILED written. -/
def autoReset (s : State) (code : Nat) : State :=
  let recent := s.time.boundaries :: autoRecent s
  let s := fault s 0x82 21 0xFFFF code 0
  let s := bump { s with faults := { s.faults with autoResets := recent } } Reg.FAULTLOG.AUTO_RESETS
  let s := wr s Reg.FAULTLOG.MENDING_STATUS_AUTO_RESETS_HOUR (min 3 recent.length)
  let s := warmResetFor s 11
  if recent.length < 3 then s
  else
    let s := { s with faults := { s.faults with autoExhausted := true }, proving := { s.proving with failed := true } }
    fault s 0x81 21 0xFFFF (Config.itemCode 0x82) 0

/-- With AUTO_RESET clear, or three automatic warm resets in the last hour: engines that are not retired and links are fenced, and a fenced link enters Mending. -/
def fenceAll (s : State) : State :=
  let stuck := (retirementsDue s).filter (fun e => !canRetire s e.1 e.2)
  let ids := stuck.map (fun e => engineId e.1 e.2)
  let links := s.faults.linkPending
  let f := s.faults
  let s := { s with faults := { f with fenced := f.fenced ++ ids, retiring := f.retiring.filter (fun i => !ids.contains i),
                                       linksFaulted := f.linksFaulted ++ links, linkPending := [] } }
  if links.isEmpty then s else requestMode s .mending 14

/-- What a boundary does about device faults (R488). -/
def deviceFaults (s : State) : State :=
  match autoCause s with
  | none => s
  | some code =>
    if rd s Reg.FAULTLOG.FAULT_CONFIG_AUTO_RESET = 1 && decide ((autoRecent s).length < 3) then autoReset s code else fenceAll s

end Sys2Proof.Machine
end

