-- ==== Sys2Proof/Machine/Copies.lean ====
section
/-!
DEFINITION. The entries of the device's tables as the bytes that QUERY_DATA shows (R102 to R104, R130, R139, R154, R160, R179, R209, R210, R251,
R285, R294, R321, R322, R339, R361, R382, R420), little-endian (R10), each padded with zeros to its size. An entry that is not in use is all zeros.
-/

namespace Sys2Proof.Machine

/-- The codes of the states of the entries. -/
def Life.code : Life → Nat
  | .free => 0
  | .admitted => 0
  | .active => 1
  | .draining => 2

def LegState.code : LegState → Nat
  | .free => 0
  | .admitted => 1
  | .active => 2
  | .draining => 3
  | .faulted => 4

def StreamState.code : StreamState → Nat
  | .free => 0
  | .admitted => 0
  | .waiting => 1
  | .running => 2
  | .draining => 3

def BufState.code : BufState → Nat
  | .free => 0
  | .decoding => 1
  | .complete => 2
  | .freeing => 3

def CompState.code : CompState → Nat
  | .free => 0
  | .admitted => 0
  | .idle => 1
  | .running => 2
  | .slate => 3
  | .draining => 4

def ThreadState.code : ThreadState → Nat
  | .free => 0
  | .ready => 1
  | .running => 2
  | .waiting => 3
  | .delayed => 4
  | .faulted => 5

def SlotState.code : SlotState → Nat
  | .empty => 0
  | .loading => 1
  | .resident => 2
  | .stale => 3

def TunnelState.code : TunnelState → Nat
  | .free => 0
  | .admitted => 1
  | .active => 2
  | .draining => 3

/-- A room entry (R102). -/
def roomBytes (s : State) (r : Nat) (x : Room) : List Byte :=
  toLE 1 x.state.code ++ toLE 1 x.maxTalkers ++ toLE 2 (b2n x.mix) ++ toLE 2 (partsOfRoom s r).length ++ toLE 2 x.maxParticipants
    ++ toLE 4 (legsOfRoom s r).length

/-- A participant entry (R103). -/
def participantBytes (s : State) (p : Nat) (x : Participant) : List Byte :=
  toLE 1 x.state.code ++ toLE 1 x.spec.transport ++ toLE 2 x.spec.room ++ toLE 2 (legsOfPart s p).length ++ zeros 2 ++ toLE 4 x.spec.tunnelId
    ++ toLE 4 x.keyEntry ++ toLE 4 x.spec.minRate ++ toLE 4 x.spec.maxRate ++ toLE 4 x.estimate ++ toLE 4 x.receivedRate ++ toLE 1 x.delayState
    ++ zeros 3 ++ toLE 4 x.loss ++ toLE 8 x.lastFeedback ++ toLE 16 x.spec.remoteIp ++ toLE 16 x.spec.localIp ++ toLE 2 x.spec.remotePort
    ++ toLE 2 x.spec.localPort

/-- A leg entry (R104). -/
def legBytes (x : Leg) : List Byte :=
  toLE 1 x.state.code ++ toLE 1 x.spec.kind ++ toLE 1 x.spec.media ++ toLE 1 x.spec.codec ++ toLE 2 x.spec.participant ++ toLE 2 x.spec.room
    ++ toLE 4 x.spec.source ++ toLE 4 x.spec.ssrc ++ toLE 4 x.spec.rtxSsrc ++ toLE 1 x.spec.pt ++ toLE 1 x.spec.rtxPt ++ toLE 1 x.spec.cls
    ++ toLE 1 x.spec.flags ++ toLE 4 x.spec.rate ++ toLE 4 x.spec.burst ++ toLE 2 x.spec.packetSize ++ toLE 1 x.spec.layerCap
    ++ toLE 1 x.layerCurrent ++ toLE 1 x.layerTarget ++ zeros 3 ++ toLE 4 (x.bucket / bucketByte) ++ zeros 4 ++ toLE 8 x.bucketStamp
    ++ toLE 2 x.seqNext ++ toLE 2 (x.seqLastIn.getD 0) ++ toLE 4 x.rtxArea ++ toLE 4 x.rtxSize ++ zeros 4 ++ toLE 8 (x.keyframe.last.getD 0)
    ++ toLE 8 x.packets ++ toLE 8 x.bytes ++ toLE 4 x.policeDrops ++ toLE 4 x.rtxSent ++ toLE 4 x.rtxMiss ++ toLE 4 x.layerSwitches

/-- The index of a buffer within its pool, as an entry gives it. -/
def currentIndex (b : Option Nat) : Nat := (b.map (fun k => k % 2 ^ 20)).getD 0xFFFFFFFF

/-- A decode stream entry (R130). -/
def decodeBytes (x : DecodeStream) : List Byte :=
  toLE 1 x.state.code ++ toLE 1 x.spec.codec ++ toLE 1 x.spec.pool ++ toLE 1 x.cluster ++ toLE 4 x.spec.leg ++ toLE 2 x.spec.maxWidth
    ++ toLE 2 x.spec.maxHeight ++ toLE 1 x.spec.rate ++ toLE 1 x.spec.refs ++ toLE 1 x.spec.opPoint ++ toLE 1 x.spec.flags
    ++ toLE 4 x.spec.bitstreamKib ++ toLE 4 (currentIndex x.current) ++ toLE 4 x.frames ++ toLE 4 x.concealed ++ toLE 4 x.lost

/-- A buffer header (R139). -/
def bufferBytes (b : Buffer) : List Byte :=
  toLE 1 b.state.code ++ toLE 1 (b2n b.shortTerm + 2 * b2n b.longTerm + 4 * b2n b.current) ++ toLE 1 b.slots ++ toLE 1 b.flags ++ toLE 2 b.holders
    ++ toLE 2 b.stream ++ toLE 2 b.width ++ toLE 2 b.height ++ toLE 4 b.colour ++ toLE 4 b.picture ++ zeros 4 ++ toLE 8 b.completed

/-- A composite entry (R154). -/
def compositeBytes (x : Composite) : List Byte :=
  toLE 1 x.state.code ++ toLE 1 x.veil ++ toLE 1 x.spec.pool ++ toLE 1 x.spec.rate ++ toLE 2 x.spec.width ++ toLE 2 x.spec.height
    ++ toLE 2 x.spec.phase ++ toLE 1 ((x.inForce.map (fun l => l.list.outputFormat)).getD 0) ++ toLE 1 x.visorRun ++ toLE 4 (currentIndex x.current)
    ++ toLE 4 x.frames ++ toLE 4 x.withheld ++ toLE 4 x.skipped ++ toLE 4 x.listCount ++ toLE 4 ((x.inForce.map (·.generation)).getD 0)

/-- Region `k` of the display list in force (R160) with the signature that the device has filled in (R172). -/
def regionBytes (x : Composite) (k : Nat) : Option (List Byte) :=
  match x.inForce with
  | none => none
  | some l => (l.list.regions[k]?).map (fun r =>
      toLE 1 r.guardZ ++ zeros 1 ++ toLE 2 r.x ++ toLE 2 r.y ++ toLE 2 r.w ++ toLE 2 r.h ++ zeros 2 ++ toLE 4 (l.signatures.getD k 0))

/-- An encode stream entry (R179). -/
def encodeBytes (x : EncodeStream) : List Byte :=
  let r := x.spec.rc
  toLE 1 x.state.code ++ toLE 1 x.spec.codec ++ toLE 1 x.spec.pool ++ toLE 1 x.cluster ++ toLE 1 x.spec.sourceKind ++ toLE 1 x.spec.structure_
    ++ toLE 1 x.spec.profile ++ toLE 1 (x.spec.flags % 4 + 4 * b2n x.keyPending) ++ toLE 2 x.spec.source ++ toLE 2 x.width ++ toLE 2 x.height
    ++ toLE 1 x.spec.rate ++ toLE 1 x.reservedBuffers ++ toLE 4 r.target ++ toLE 2 r.vbvMs ++ toLE 2 r.keyInterval ++ toLE 1 r.qpMin ++ toLE 1 r.qpMax
    ++ toLE 1 r.keyWeight ++ zeros 1 ++ toLE 2 r.maxPayload ++ toLE 2 r.layerShare
    ++ [0, 1, 2].flatMap (fun k => toLE 4 ((x.layers[k]?.map (·.fullness)).getD 0))
    ++ toLE 4 ((x.layers.map (·.debt)).sum) ++ toLE 4 x.frames ++ toLE 4 x.keyframes ++ toLE 4 x.skipped ++ toLE 2 x.spec.phase

/-- An audio source entry (R209). -/
def sourceEntryBytes (l : Nat) (x : AudioSource) : List Byte :=
  toLE 1 x.state.code ++ toLE 1 x.cluster ++ toLE 1 x.mode ++ toLE 1 (ofSigned 8 x.gain) ++ toLE 4 l ++ toLE 2 x.jbTarget ++ toLE 2 x.jbCurrent
    ++ toLE 4 x.frames ++ toLE 4 x.concealedMs ++ toLE 4 x.noiseMs ++ toLE 4 x.late

/-- The PRODUCED legs of a room that use a format. -/
def formatLegs (s : State) (room : Nat) (f : MixFormat) : Nat :=
  ((mixLegs s room).filter (fun e => e.2.spec.codec = f.codec && e.2.spec.rate = f.rate)).length

/-- A mix entry (R210). -/
def mixBytes (s : State) (r : Nat) (x : Mix) : List Byte :=
  toLE 1 x.state.code ++ toLE 1 x.home ++ toLE 1 x.spec.frameMs ++ toLE 1 (x.formats.filter (·.isSome)).length ++ toLE 1 (ofSigned 8 x.spec.threshold)
    ++ toLE 1 x.spec.margin ++ toLE 1 x.spec.hold ++ zeros 1
    ++ [0, 1, 2, 3].flatMap (fun k => match (x.formats[k]?).join with
      | some f => toLE 1 f.codec ++ zeros 1 ++ toLE 2 (formatLegs s r f) ++ toLE 4 f.rate
      | none => zeros 8)
    ++ toLE 4 x.encoded

/-- A thread entry (R251). -/
def threadBytes (x : Thread) : List Byte :=
  toLE 1 x.state.code ++ toLE 1 x.priority ++ toLE 1 x.cluster ++ toLE 1 (x.lastLane.getD 0xFF) ++ toLE 2 x.entry
    ++ toLE 1 (b2n x.privileged + 2 * x.slot + 4 * b2n x.deadline.isSome + 8 * b2n x.hostStarted) ++ toLE 1 x.fault ++ toLE 4 x.pc ++ toLE 4 x.arg
    ++ toLE 4 x.generation ++ toLE 4 x.wake ++ toLE 4 (x.deadline.getD 0) ++ toLE 1 x.lateRun

/-- A classification entry (R285). -/
def classBytes (x : ClassEntry) : List Byte :=
  toLE 1 1 ++ toLE 1 x.path ++ toLE 1 x.template ++ toLE 1 x.resultKind ++ toLE 4 x.target ++ toLE 4 x.arg ++ toLE 4 x.genFirst ++ padTo 40 x.key
    ++ toLE 4 x.genLast ++ toLE 1 (b2n x.anyGen)

/-- A fragment entry (R294). -/
def fragmentBytes (x : FragEntry) : List Byte :=
  toLE 1 (if x.closed then 2 else 1) ++ toLE 1 x.protocol ++ zeros 2 ++ toLE 4 x.id ++ toLE 16 x.source ++ toLE 16 x.dest ++ toLE 4 (x.leg.getD 0xFFFFFFFF)
    ++ toLE 2 (x.total.getD 0) ++ toLE 2 ((x.parts.map (fun q => q.2)).sum) ++ toLE 8 x.first

/-- A slot description (R321). -/
def slotBytes (x : PalmSlot) : List Byte :=
  toLE 1 x.state.code ++ toLE 1 (b2n x.pinned) ++ toLE 1 x.usage ++ zeros 1 ++ toLE 4 x.entry ++ toLE 4 x.refs ++ toLE 4 x.lastUse

/-- A tunnel entry (R322). -/
def tunnelBytes (x : Tunnel) : List Byte :=
  let t := x.spec
  toLE 1 x.state.code ++ toLE 1 t.carrier
    ++ toLE 1 (b2n x.pinned + 2 * b2n x.up + 4 * b2n x.peerUp + 8 * b2n x.keyed + 16 * b2n x.nextKeyed + 32 * (t.role % 2))
    ++ toLE 1 t.egress ++ toLE 1 t.cls ++ zeros 1 ++ toLE 2 t.framesPerTick ++ toLE 2 t.frameLength ++ toLE 2 t.phase ++ zeros 4
    ++ toLE 2 x.epochCurrent ++ toLE 2 x.epochNext ++ toLE 2 x.sendEpoch ++ toLE 2 t.vlanOuter ++ toLE 2 t.vlanInner ++ toLE 6 t.remoteMac ++ zeros 8
    ++ toLE 16 t.remoteIp ++ toLE 16 t.localIp ++ toLE 2 t.remotePort ++ toLE 2 t.localPort ++ zeros 4 ++ toLE 8 x.sendSeq ++ toLE 8 x.rxHigh
    ++ toLE 8 x.lastValid ++ toLE 4 (ofSigned 32 x.rtt) ++ toLE 4 (ofSigned 32 x.offset) ++ toLE 4 x.framesSent ++ toLE 4 x.framesReceived
    ++ toLE 4 x.framesRejected ++ toLE 4 x.downCount

/-- An aggregate entry (R339); of a TUNNEL participant it holds only STATE. -/
def aggregateBytes (p : Participant) (a : Option Aggregate) : List Byte :=
  match a with
  | none => toLE 1 p.state.code
  | some a =>
    toLE 1 p.state.code ++ toLE 1 a.spec.egress ++ toLE 1 a.spec.weight ++ zeros 1 ++ toLE 6 a.spec.nextHop ++ toLE 2 a.spec.vlanOuter
      ++ toLE 2 a.spec.vlanInner ++ zeros 2 ++ (List.range 8).flatMap (fun c => toLE 4 (a.finish.getD c 0)) ++ toLE 8 a.bytesSent ++ toLE 4 a.packetsSent
      ++ toLE 4 a.drops

/-- A leg-queue copy (R361). -/
def legQueueBytes (q : LegQueue) : List Byte :=
  toLE 2 q.packets.length ++ zeros 2 ++ toLE 4 ((q.packets.map LegPacket.rtpLength).sum) ++ toLE 8 q.nextEligible

/-- A shaper copy (R361): CREDIT in bytes, signed and saturating. -/
def shaperBytes (h : Shaper) : List Byte :=
  toLE 4 h.rate ++ toLE 4 h.burst ++ toLE 4 (ofSigned 32 (max (-(2147483648 : Int)) (min 2147483647 (h.credit / 8000000)))) ++ zeros 4

/-- A Port-ID entry (R382). -/
def portIdBytes (x : PonPortId) : List Byte :=
  toLE 2 x.portId ++ toLE 1 x.direction ++ toLE 1 x.queue ++ toLE 1 x.flags ++ zeros 3 ++ toLE 4 x.frames

/-- A spare-row entry (R420). -/
def spareBytes (x : SpareRow) : List Byte := toLE 1 1 ++ zeros 3 ++ toLE 4 x.row ++ toLE 4 x.tick ++ toLE 4 x.corrected

/-- A bank state (R420). -/
def bankStateBytes (s : State) (b : MemBank) : List Byte :=
  toLE 1 b.debt ++ toLE 1 (b2n b.open_.isSome) ++ zeros 2 ++ toLE 4 (b.open_.getD 0)
    ++ toLE 4 (windowCount s.time.boundaries (authoriseOf s).remapWindow b.buckets) ++ toLE 1 (4 - b.spares.length)

/-! ### Queries -/

/-- The registers of one query: where GO stands, DONE, INVALID, the register of INDEX, QUERY_DATA's offset and its size in bytes. -/
structure Query where
  done : Fld
  invalid : Fld
  data : Fld
  bytes : Nat

/-- The queries by number: one for each block that has query registers; 16 and 17 are the PON ports, 24 to 31 the stacks. -/
def queryOf (q : Nat) : Query :=
  match q with
  | 5 => ⟨Reg.LEGS.QUERY_CONTROL_DONE, Reg.LEGS.QUERY_CONTROL_INVALID, Reg.LEGS.QUERY_DATA, 128⟩
  | 6 => ⟨Reg.DECODE.QUERY_CONTROL_DONE, Reg.DECODE.QUERY_CONTROL_INVALID, Reg.DECODE.QUERY_DATA, 64⟩
  | 7 => ⟨Reg.VEIL.QUERY_CONTROL_DONE, Reg.VEIL.QUERY_CONTROL_INVALID, Reg.VEIL.QUERY_DATA, 64⟩
  | 8 => ⟨Reg.ENCODE.QUERY_CONTROL_DONE, Reg.ENCODE.QUERY_CONTROL_INVALID, Reg.ENCODE.QUERY_DATA, 64⟩
  | 9 => ⟨Reg.AUDIO.QUERY_CONTROL_DONE, Reg.AUDIO.QUERY_CONTROL_INVALID, Reg.AUDIO.QUERY_DATA, 64⟩
  | 10 => ⟨Reg.MITTEN.QUERY_CONTROL_DONE, Reg.MITTEN.QUERY_CONTROL_INVALID, Reg.MITTEN.QUERY_DATA, 32⟩
  | 11 => ⟨Reg.INGRESS.QUERY_CONTROL_DONE, Reg.INGRESS.QUERY_CONTROL_INVALID, Reg.INGRESS.QUERY_DATA, 64⟩
  | 12 => ⟨Reg.CIPHER.QUERY_CONTROL_DONE, Reg.CIPHER.QUERY_CONTROL_INVALID, Reg.CIPHER.QUERY_DATA, 16⟩
  | 13 => ⟨Reg.GAUNTLET.QUERY_CONTROL_DONE, Reg.GAUNTLET.QUERY_CONTROL_INVALID, Reg.GAUNTLET.QUERY_DATA, 128⟩
  | 14 => ⟨Reg.BAND.QUERY_CONTROL_DONE, Reg.BAND.QUERY_CONTROL_INVALID, Reg.BAND.QUERY_DATA, 64⟩
  | 16 => ⟨Reg.PON.QUERY_CONTROL_DONE, Reg.PON.QUERY_CONTROL_INVALID, Reg.PON.QUERY_DATA, 16⟩
  | 17 => ⟨Reg.PON.QUERY_CONTROL_DONE.on 1, Reg.PON.QUERY_CONTROL_INVALID.on 1, Reg.PON.QUERY_DATA.on 1, 16⟩
  | q => ⟨Reg.NEARMEM.QUERY_CONTROL_DONE.on (q - 24), Reg.NEARMEM.QUERY_CONTROL_INVALID.on (q - 24), Reg.NEARMEM.QUERY_DATA.on (q - 24), 16⟩

/-- The entry of a table at an index below its size: zeros where none is listed. -/
def tableCopy {α : Type} (t : Table α) (size i : Nat) (bytes : α → List Byte) : Option (List Byte) :=
  if size ≤ i then none else some (((t.get i).map bytes).getD [])

/-- What a query copies, by the value `v` that was written to its QUERY_CONTROL: none where the index is out of range or names nothing, as its
table says. -/
def queryCopy (s : State) (q v : Nat) : Option (List Byte) :=
  match q with
  | 5 =>
    let i := bitsOf v 19 0
    match bitsOf v 21 20 with
    | 0 => tableCopy s.legs (legEntries s) i legBytes
    | 1 => tableCopy s.participants 16384 i (participantBytes s i)
    | _ => tableCopy s.rooms 4096 i (roomBytes s i)
  | 6 =>
    let i := bitsOf v 19 0
    let pool := bitsOf v 23 20
    if bitOf v 24 = 0 then tableCopy s.decodes 8192 i decodeBytes
    else if ((poolOf s pool).map (·.count)).getD 0 ≤ i then none
    else some (((s.buffers.get (bufName pool i)).map bufferBytes).getD [])
  | 7 =>
    let i := bitsOf v 14 0
    if bitOf v 15 = 0 then tableCopy s.composites 2048 i compositeBytes
    else (s.composites.get (i / 16)).bind (fun c => regionBytes c (i % 16))
  | 8 => tableCopy s.encodes 4096 (bitsOf v 11 0) encodeBytes
  | 9 =>
    let i := bitsOf v 19 0
    if bitOf v 20 = 0 then (s.audio.get i).map (sourceEntryBytes i) else (s.mixes.get i).map (mixBytes s i)
  | 10 => tableCopy s.mitten.threads 8192 (bitsOf v 12 0) threadBytes
  | 11 =>
    let i := bitsOf v 19 0
    if bitOf v 20 = 0 then tableCopy s.ingress.classify (structure_ s).part.classifyEntries i classBytes
    else tableCopy s.ingress.fragments 8192 i fragmentBytes
  | 12 =>
    let i := bitsOf v 9 0
    if clusterStands s (i / 128) then tableCopy s.cipher.slots 1024 i slotBytes else none
  | 13 => tableCopy s.gauntlet.tunnels 4096 (bitsOf v 11 0) tunnelBytes
  | 14 =>
    let i := bitsOf v 19 0
    match bitsOf v 21 20 with
    | 0 => tableCopy s.participants 16384 i (fun p => aggregateBytes p (aggOf s i))
    | 1 => tableCopy s.band.legQueues (legEntries s) i legQueueBytes
    | _ => tableCopy s.band.shapers 162 i (fun h => shaperBytes (h.upTo (nowNs s)))
  | 16 => tableCopy (ponPort s (ponOwner s 0)).portIds 1024 (bitsOf v 9 0) portIdBytes
  | 17 => tableCopy (ponPort s (ponOwner s 1)).portIds 1024 (bitsOf v 9 0) portIdBytes
  | q =>
    let k := q - 24
    let i := bitsOf v 10 0
    if !stackOn s k then none
    else if bitOf v 11 = 0 then some ((((bankOf s k (i / 128) (i / 4 % 32)).spares[i % 4]?).map spareBytes).getD [])
    else if 512 ≤ i then none
    else some (bankStateBytes s (bankOf s k (i / 32) (i % 32)))

/-- A query in progress ends at a tick boundary: its copy is taken and DONE is set; with nothing to copy INVALID is set too. -/
def endQuery (s : State) (g : Nat × Nat) : State :=
  match queryCopy s g.1 g.2 with
  | none => wrAll s [((queryOf g.1).done, 1), ((queryOf g.1).invalid, 1)]
  | some b =>
    let s := { s with host := { s.host with queryData := s.host.queryData.put g.1 (padTo (queryOf g.1).bytes b) } }
    wr s (queryOf g.1).done 1

/-- All queries in progress end. -/
def endQueries (s : State) : State :=
  let s := s.host.queries.foldl endQuery s
  { s with host := { s.host with queries := [] } }

/-- GO is written with the rest of QUERY_CONTROL: unless a copy is in progress, one starts. -/
def startQuery (s : State) (q v : Nat) : State :=
  if s.host.queries.any (fun g => g.1 = q) then s
  else
    let s := wrAll s [((queryOf q).done, 0), ((queryOf q).invalid, 0)]
    { s with host := { s.host with queries := s.host.queries ++ [(q, v)] } }

end Sys2Proof.Machine
end

