-- ==== Sys2Proof/Machine/HostRegs.lean ====
section
/-!
DEFINITION. The host's accesses to the registers of BAR 0 (R11 to R13, R446 to R456): the registers that are computed from the state, reads,
writes, ring control and indices, queries, the MSI-X table, the heartbeat, moderation and the copies of snapshot-counters.
-/

namespace Sys2Proof.Machine

/-! ### Registers computed from the state -/

/-- Word `k` of a value of several registers. -/
def wordOf (v k : Nat) : Nat := v / 2 ^ (32 * k) % 2 ^ 32

/-- A fault-log entry as its 32 bytes (R493). -/
def faultBytes (e : FaultEntry) : List Byte :=
  toLE 2 e.code ++ toLE 1 e.cls ++ toLE 1 e.block ++ toLE 2 e.port ++ toLE 1 e.mode ++ zeros 1 ++ toLE 8 e.stamp ++ toLE 4 e.tick ++ toLE 4 e.detail
    ++ toLE 4 e.sequence ++ toLE 4 e.address

/-- The lowest sequence that the fault log still holds. -/
def oldestSequence (s : State) : Nat :=
  ((leastBy (fun (n : Nat) => (n : Int)) (s.faults.log.map (fun e => e.2.sequence))).getD s.faults.nextSeq) % 2 ^ 32

/-- The gate list of an egress point as GATE_STATUS shows it (R361): the classes open now, the entry in force, whether a list governs. -/
def gateStatus (s : State) (e : Nat) : Nat × Nat × Bool :=
  match gateOf s e with
  | none => (0xFF, 0, false)
  | some g =>
    let r := gateEntryAt g.entries (cycleOffset g (nowNs s))
    (r.2.1, r.1, true)

/-- Whether a shaper of an egress point is in debt. -/
def inDebt (s : State) (e : Nat) : Bool :=
  (List.range 9).any (fun c => ((s.band.shapers.get (9 * e + c)).map (fun h => decide ((h.upTo (nowNs s)).credit < 0))).getD false)

/-- Entry `k` of a port's ALLOC registers (R389, R402): Alloc-ID, VALID, DEFAULT and the mask of its classes. -/
def allocStatus (s : State) (p k : Nat) : Nat × Nat × Nat × Nat :=
  let o := ponOwner s p
  match ((ponPort s o).allocs[k]?).join with
  | none => (0, 0, 0, 0)
  | some a => (a, 1, b2n (decide (k = 0)), (classesOfAlloc s o a).foldl setBit 0)

/-- AUTH_NONCE (R463, R473): a draw of the DRBG. -/
def authNonce (s : State) : Nat := Config.drbg s.host.nonceDraw

/-- The value of a field that is computed from the state, by its register's offset and its lowest bit; none where the register file holds it. -/
def computed (s : State) (off lo : Nat) : Option Nat :=
  let o := off % 0x10000
  match blockOf off with
  | 0 =>
    let f := s.trust.fuses
    if off = 0 then some (if lo = 0 then b2n f.is8832 else if lo = 2 then b2n f.gradeI else if lo = 3 then b2n f.dv else f.lifecycle)
    else if off = 4 then some s.mode.code
    else none
  | 1 => if o = 0x64 && timeState s = 3 then some ((nowNs s - s.time.holdoverSince) / 1000000000) else none
  | 2 =>
    let f := s.trust.fuses
    if o = 0 then some (if lo = 0 then f.lifecycle else if lo = 2 then b2n f.anchor.isSome else f.rollback)
    else if o = 0x10 then some ((s.trust.old.map (·.number)).getD 0)
    else if 0x100 ≤ o && o < 0x130 then some (wordOf Config.nymrehalAnchor ((o - 0x100) / 4))
    else if 0x130 ≤ o && o < 0x160 then some (wordOf (f.anchor.getD 0) ((o - 0x130) / 4))
    else if 0x160 ≤ o && o < 0x170 then some (wordOf Config.deviceId ((o - 0x160) / 4))
    else none
  | 3 => if 0x80 ≤ o && o < 0xA0 then some (wordOf (authNonce s) ((o - 0x80) / 4)) else none
  | 5 =>
    if o = 4 then some s.rooms.length
    else if o = 8 then some s.participants.length
    else if o = 0xC then some s.legs.length
    else if 0x20 ≤ o && o < 0x48 then some (admitted s ((o - 0x20) / 4 + 1) / one)
    else none
  | 6 =>
    if o = 8 then some s.decodes.length
    else if 0x100 ≤ o && o < 0x140 then some (if inService s then poolFree s ((o - 0x100) / 4) else 0)
    else none
  | 7 =>
    if o = 8 then some (if lo = 0 then s.composites.length else (s.composites.filter (fun e => e.2.state = .slate)).length) else none
  | 8 => if o = 8 then some s.encodes.length else none
  | 9 => if o = 8 then some s.audio.length else if o = 0xC then some s.mixes.length else none
  | 10 => if o = 8 then some (if lo = 0 then (threadCounts s).1 else (threadCounts s).2) else none
  | 11 =>
    if o = 4 && lo = 0 then some (b2n (decide (s.mode ≠ .serving) && decide (s.mode ≠ .holdover)))
    else if 0x100 ≤ o && o < 0x148 && lo = 2 then some (parseEngine s ((o - 0x100) / 4))
    else if 0x200 ≤ o && o < 0x248 then
      let c := cuffOf s ((o - 0x200) / 4)
      some (if lo = 0 then c.words.length else if lo = 10 then b2n c.marked else b2n c.stalled)
    else if 0x400 ≤ o && o < 0x600 then
      some ((List.range 4).foldl (fun n i =>
        let e := indirection s (4 * ((o - 0x400) / 4) + i)
        n + (e.1 % 8 + 8 * (e.2 % 8)) * 2 ^ (8 * i)) 0)
    else none
  | 12 =>
    let c := s.cipher
    if o = 8 then
      some (if lo = 0 then (c.slots.filter (fun e => e.2.state = .resident)).length
        else if lo = 11 then (c.slots.filter (fun e => e.2.pinned)).length
        else min 4095 ((c.pinnedLoads ++ c.loads).length - (loadsAtWork s).length))
    else if 0x100 ≤ o && o < 0x180 then
      let k := (o - 0x100) / 4
      some (if lo = 0 then min ((c.coreLast.get k).getD 0) (2 ^ 18 - 1) else loadMean s ((c.coreHistory.get k).getD []))
    else if 0x180 ≤ o && o < 0x190 then
      let k := (o - 0x180) / 4
      some (if lo = 0 then min ((c.portLast.get k).getD 0) (2 ^ 18 - 1) else loadMean s ((c.portHistory.get k).getD []))
    else none
  | 13 =>
    if o = 4 then
      some (if lo = 0 then s.gauntlet.tunnels.length else (s.gauntlet.tunnels.filter (fun e => e.2.up)).length)
    else none
  | 14 =>
    if off = Reg.BAND.BAND_STATUS_SAMPLE_PERIOD.off && lo = 8 then some (legEntries s / 4096)
    else if 0x100 ≤ o && o < 0x148 then
      let e := (o - 0x100) / 4
      let g := gateStatus s e
      some (if lo = 0 then g.1 else if lo = 8 then g.2.1 else if lo = 16 then b2n g.2.2 else b2n (inDebt s e))
    else none
  | 16 =>
    let p := off % 0x100000 / 0x40000
    if 0x100 ≤ off % 0x40000 && off % 0x40000 < 0x180 then
      let a := allocStatus s p ((off % 0x40000 - 0x100) / 4)
      some (if lo = 0 then a.1 else if lo = 14 then a.2.1 else if lo = 15 then a.2.2.1 else a.2.2.2)
    else none
  | 17 =>
    let k := off % 0x100000 / 0x10000
    if o = 4 && lo = 4 then some (b2n ((s.near.retraining && stackOn s k) || s.near.channels.any (fun e => e.1 / 16 = k && stepping s e.2))) else none
  | 20 => if o = 0x44 then some (s.power.gpioIn % 65536) else none
  | 21 =>
    if o = 0 && off % 0x100000 = 0 then some (s.faults.nextSeq % 2 ^ 32)
    else if o = 4 then some (oldestSequence s)
    else if o = 0x10 && lo = 0 then some (min 255 (faultedChannels s))
    else if o = 0x10 && lo = 16 then some (min 3 (autoRecent s).length)
    else if 0x8000 ≤ o then
      some ((s.faults.log.get ((o - 0x8000) / 32)).map (fun e => fromLE (((faultBytes e).drop (o % 32)).take 4)) |>.getD 0)
    else none
  | _ => none

/-- QUERY_DATA: the query whose data stand at an offset, and the word of them. -/
def queryWord (off : Nat) : Option (Nat × Nat) :=
  ([5, 6, 7, 8, 9, 10, 11, 12, 13, 14, 16, 17, 24, 25, 26, 27, 28, 29, 30, 31].find? (fun q =>
    decide ((queryOf q).data.off ≤ off) && decide (off < (queryOf q).data.off + (queryOf q).bytes))).map (fun q => (q, (off - (queryOf q).data.off) / 4))

/-- The value of a field as a read gives it (R12, R450): WO fields read zero, and in Sealed so does a field that does not survive it. -/
def fieldValue (s : State) (f : Fld) : Nat :=
  if f.acc = .wo || (s.mode = .sealed && !f.keep.contains .sealed) then 0
  else
    match queryWord f.off with
    | some (q, k) => fromLE ((((s.host.queryData.get q).getD []).drop (4 * k)).take 4)
    | none => ((computed s f.off f.lo).getD (rd s f)) % 2 ^ f.width

/-! ### The MSI-X table (R448) -/

/-- Whether an offset lies in the MSI-X table, or in the pending-bit array. -/
def inMsix (off : Nat) : Bool := decide (0x8000 ≤ off) && decide (off < 0x8400)
def inPending (off : Nat) : Bool := decide (0x9000 ≤ off) && decide (off < 0x9008)

/-- A word of the MSI-X table: after reset the vectors are masked and the rest is zero. -/
def msixWord (s : State) (k : Nat) : Nat := (s.host.msix.get k).getD (if k % 4 = 3 then 1 else 0)

/-- A word of the MSI-X table is written. Unmasking a vector that is pending sends it. -/
def writeMsix (s : State) (k v : Nat) : State :=
  let v := if k % 4 = 3 then v % 2 else if k % 4 = 0 then v / 4 * 4 else v
  let s := { s with host := { s.host with msix := s.host.msix.put k v } }
  if k % 4 = 3 && v = 0 && bitOf s.host.msixPending (k / 4) = 1 then
    emit { s with host := { s.host with msixPending := clearBit s.host.msixPending (k / 4) } } (.msix (k / 4))
  else s

/-! ### Reads -/

/-- The 32 bits that stand at an aligned offset. -/
def regRead (s : State) (off : Nat) : Nat :=
  if inMsix off then (if s.mode = .sealed then 0 else msixWord s ((off - 0x8000) / 4))
  else if inPending off then (if s.mode = .sealed then 0 else wordOf s.host.msixPending ((off - 0x9000) / 4))
  else (fieldsAt off).foldl (fun n f => n + fieldValue s f * 2 ^ f.lo) 0

/-- What a read leaves: its RC fields are cleared (R12), unless Sealed hides them. -/
def clearRead (s : State) (off : Nat) : State :=
  (fieldsAt off).foldl (fun s f =>
    if f.acc = .rc && !(s.mode = .sealed && !f.keep.contains .sealed) then wr s f 0 else s) s

/-! ### Rings (R453, R455) -/

/-- The ring whose registers stand at `base` in its block. -/
structure RingAt where
  ring : Ring
  baseLo : Fld
  baseHi : Fld
  hostOwns : Bool

/-- Rings by number: 0 directive, 1 completion, 2 event, 3 statistics, 4 delivery. The host owns the producer index of the directive and the
delivery ring, and the consumer index of the others. -/
def ringAt (k : Nat) : RingAt :=
  match k with
  | 0 => ⟨dirRing, Reg.DIRECTIVE.DIR_BASE_LO, Reg.DIRECTIVE.DIR_BASE_HI, true⟩
  | 1 => ⟨cplRing, Reg.DIRECTIVE.CPL_BASE_LO, Reg.DIRECTIVE.CPL_BASE_HI, false⟩
  | 2 => ⟨evtRing, Reg.EVENT.EVT_BASE_LO, Reg.EVENT.EVT_BASE_HI, false⟩
  | 3 => ⟨statsRing, Reg.EVENT.STATS_BASE_LO, Reg.EVENT.STATS_BASE_HI, false⟩
  | _ => ⟨dlvRing, Reg.EVENT.DLV_BASE_LO, Reg.EVENT.DLV_BASE_HI, true⟩

/-- The index register of a ring that the host writes. -/
def RingAt.index (r : RingAt) : Fld := if r.hostOwns then r.ring.tail else r.ring.head

/-- Moderation begins anew. -/
def restartModeration (s : State) (k : Nat) : State :=
  let h := s.host
  if k = 1 then { s with host := { h with cplSince := 0, cplFirst := none } }
  else if k = 2 then { s with host := { h with evtSince := 0, evtFirst := none } }
  else if k = 3 then { s with host := { h with statsSince := 0, statsFirst := none } }
  else s

/-- A CONTROL register takes a value. SIZE_LOG2 is locked while ENABLE is 1. Setting ENABLE zeroes both indices; completions that wait are then
written. -/
def ringControl (s : State) (k v : Nat) : State :=
  let r := (ringAt k).ring
  let was := rd s r.enable
  let fs := (fieldsAt r.enable.off).filter (fun f => f.lo ≠ r.size.lo || was = 0)
  let s := fs.foldl (fun s f => wr s f (bitsOf v f.hi f.lo)) s
  if was = 0 && rd s r.enable = 1 then flush (restartModeration (wr (wr s r.tail 0) r.head 0) k) else s

/-- The host's index of a ring takes a value, or the write is ignored and counted because it moves the index backwards or beyond the other
(R453). -/
def ringIndex (s : State) (k v : Nat) : State :=
  let r := ringAt k
  let good := if r.hostOwns then decide (0 ≤ signedDiff 32 v (rd s r.ring.tail)) && decide (signedDiff 32 v (rd s r.ring.head) ≤ 2 ^ rd s r.ring.size)
    else decide (0 ≤ signedDiff 32 v (rd s r.ring.head)) && decide (0 ≤ signedDiff 32 (rd s r.ring.tail) v)
  if good then flush (wr s r.index v) else accessError s

/-! ### Writes (R11 to R13, R450) -/

/-- Whether a field's access code lets the host write it. -/
def Fld.writable (f : Fld) : Bool := f.acc = .rw || f.acc = .w1c || f.acc = .wo

/-- Whether a write of `v` breaks R450: no field permits writes, a bit outside every field is set, or a writable field gets a reserved
encoding. -/
def badWrite (fs : List Fld) (v : Nat) : Bool :=
  !fs.any Fld.writable
    || (List.range 32).any (fun b => decide (bitOf v b = 1) && !fs.any (fun f => decide (f.lo ≤ b) && decide (b ≤ f.hi)))
    || fs.any (fun f => f.writable && !f.legal (bitsOf v f.hi f.lo))

/-- The writable fields of a register take a value: RW fields are set, W1C bits that are written one are cleared. -/
def putFields (s : State) (fs : List Fld) (v : Nat) : State :=
  fs.foldl (fun s f =>
    match f.acc with
    | .rw => wr s f (bitsOf v f.hi f.lo)
    | .w1c => if bitsOf v f.hi f.lo = 1 then wr s f 0 else s
    | _ => s) s

/-- The query whose QUERY_CONTROL stands at an offset, with the bit of its GO. -/
def queryControl (off : Nat) : Option (Nat × Nat) :=
  if off = 0x100100 then some (5, 22) else if off = 0x200200 then some (6, 25) else if off = 0x300200 then some (7, 16)
  else if off = 0x400200 then some (8, 16) else if off = 0x500200 then some (9, 21) else if off = 0x601000 then some (10, 16)
  else if off = 0x700800 then some (11, 21) else if off = 0x800200 then some (12, 16) else if off = 0x900200 then some (13, 16)
  else if off = 0xA00200 then some (14, 22) else if off = 0xC00200 then some (16, 16) else if off = 0xC40200 then some (17, 16)
  else if blockOf off = 17 && off % 0x10000 = 0x200 && off % 0x100000 / 0x10000 < 8 then some (24 + off % 0x100000 / 0x10000, 12)
  else none

/-- The ring whose CONTROL, whose host-written index or whose base stands at an offset. -/
def ringControlAt (off : Nat) : Option Nat := [0, 1, 2, 3, 4].find? (fun k => (ringAt k).ring.enable.off = off)
def ringIndexAt (off : Nat) : Option Nat := [0, 1, 2, 3, 4].find? (fun k => (ringAt k).index.off = off)
def ringBaseAt (off : Nat) : Option Nat := [0, 1, 2, 3, 4].find? (fun k => (ringAt k).baseLo.off = off || (ringAt k).baseHi.off = off)

/-- The GPIO pins that a change of GPIO_OUT drives anew: those enabled whose level or enable differs from before (R509). -/
def gpioDrives (was s : State) : State :=
  (List.range 16).foldl (fun t n =>
    if bitOf (rd s Reg.POWER.GPIO_OUT_ENABLE) n = 1
        && !(bitOf (rd was Reg.POWER.GPIO_OUT_ENABLE) n = 1 && bitOf (rd was Reg.POWER.GPIO_OUT_LEVEL) n = bitOf (rd s Reg.POWER.GPIO_OUT_LEVEL) n)
    then emit t (.pin ("GPIO_" ++ toString n) (bitOf (rd s Reg.POWER.GPIO_OUT_LEVEL) n)) else t) s

/-- The effect of a write that R450 lets through, by register. -/
def writeEffect (s : State) (off v : Nat) (fs : List Fld) : State :=
  match ringControlAt off with
  | some k => ringControl s k v
  | none =>
  match ringIndexAt off with
  | some k => ringIndex s k v
  | none =>
  match ringBaseAt off with
  | some k => if rd s (ringAt k).ring.enable = 1 then s else putFields s fs v
  | none =>
  match queryControl off with
  | some (q, go) => if bitOf v go = 1 then (if s.host.queries.any (fun g => g.1 = q) then s else startQuery (putFields s fs v) q v) else putFields s fs v
  | none =>
    if off = Reg.TIME.SNAPSHOT_CONTROL.off then (if bitOf v 0 = 1 then capture s else s)
    else if off = Reg.LINING.MARCH_CONTROL_GO.off then (if bitOf v 8 = 1 then marchGo s (bitsOf v 6 0) (bitOf v 7) else putFields s fs v)
    else if off = Reg.POWER.CLOCK_CONTROL_REQUEST.off then
      clockRequest (putFields s (fs.filter (fun f => f.acc = .w1c)) v) (bitsOf v 1 0)
    else if off = Reg.POWER.GPIO_OUT_LEVEL.off then gpioDrives s (putFields s fs v)
    else if blockOf off = 19 && 0x1000 ≤ off % 0x100000 && off % 0x100000 < 0x2000 then
      let ch := (off % 0x1000) / 64
      if off % 64 = 8 then
        let s := if bitOf v 0 = 1 then dmaGo s ch else s
        if bitOf v 1 = 1 then dmaAbort s ch else s
      else if (off % 64 = 0 || off % 64 = 4) && dmaRunning s ch then s
      else putFields s fs v
    else putFields s fs v

/-- An aligned 32-bit write. In Sealed every write is ignored. A write to an unlisted offset is ignored and not counted. -/
def regWrite (s : State) (off v : Nat) : State :=
  if s.mode = .sealed then s
  else if inMsix off then writeMsix s ((off - 0x8000) / 4) v
  else if inPending off then accessError s
  else
    let fs := fieldsAt off
    if fs.isEmpty then s
    else if badWrite fs v then accessError s
    else writeEffect s off v fs

/-- A write narrower than 32 bits to a listed register is ignored and counted. -/
def narrowWrite (s : State) (off : Nat) : State :=
  if s.mode = .sealed then s
  else if inMsix off || inPending off || !(fieldsAt (off / 4 * 4)).isEmpty then accessError s
  else s

/-- A host write of `width` bytes. A 64-bit access is two 32-bit ones in ascending order. -/
def hostWrite (s : State) (off width v : Nat) : State :=
  if width = 4 && off % 4 = 0 then regWrite s off v
  else if width = 8 && off % 4 = 0 then regWrite (regWrite s off (v % 2 ^ 32)) (off + 4) (v / 2 ^ 32)
  else narrowWrite s off

/-- The aligned words that an access of `width` bytes touches. -/
def wordsOf (off width : Nat) : List Nat := (List.range ((off % 4 + width + 3) / 4)).map (fun k => off / 4 * 4 + 4 * k)

/-- The host reaches BAR 0 (R447). -/
def hostReads (s : State) : Bool := s.host.linkUp && s.mode ≠ .dormant

/-- Whether an access of `width` bytes lies within the 64 MiB of BAR 0 (R446). -/
def inBar0 (off width : Nat) : Bool := decide (off + width ≤ 0x4000000)

/-- REGISTER_WRITE: a host write of 1, 2, 4 or 8 bytes. -/
def execRegisterWrite (off width value : Nat) (s : State) : Host.Outcome State Fault Refusal :=
  if !inBar0 off width then .fault (.outsideBar0 off)
  else if hostReads s && decide (value < 2 ^ (8 * width)) then ok (hostWrite s off width value)
  else ok s

/-- REGISTER_READ_CLEAR: a host read of 1, 2, 4 or 8 bytes answers them, and clears the RC fields of the registers it touches. -/
def execRegisterReadClear (off width : Nat) (s : State) : Host.Outcome State Fault Refusal :=
  if !inBar0 off width then .fault (.outsideBar0 off)
  else if hostReads s then
    let bytes := (wordsOf off width).flatMap (fun w => toLE 4 (regRead s w))
    ok ((wordsOf off width).foldl clearRead (emit s (.readData off (fromLE ((bytes.drop (off % 4)).take width)))))
  else ok s

/-- RING_ENABLE: the CONTROL register of a ring is written. -/
def execRingEnable (ring value : Nat) (s : State) : Host.Outcome State Fault Refusal :=
  if hostReads s && decide (ring < 5) && decide (value < 2 ^ 32) then ok (regWrite s (ringAt ring).ring.enable.off value) else ok s

/-- RING_INDEX_WRITE: the host-owned index of a ring is written. -/
def execRingIndexWrite (ring value : Nat) (s : State) : Host.Outcome State Fault Refusal :=
  if hostReads s && decide (ring < 5) && decide (value < 2 ^ 32) then ok (regWrite s (ringAt ring).index.off value) else ok s

/-! ### Queries -/

/-- GO is written to a QUERY_CONTROL with an index below `2 ^ bits` and the other fields' bits. -/
def goQuery (s : State) (off index bits rest : Nat) : Host.Outcome State Fault Refusal :=
  if hostReads s && decide (index < 2 ^ bits) then ok (regWrite s off (index + rest)) else ok s

/-- LEGS_QUERY: KIND 0 leg, 1 participant, 2 room. -/
def execLegsQuery (kind index : Nat) (s : State) : Host.Outcome State Fault Refusal :=
  goQuery s 0x100100 index 20 (kind % 4 * 2 ^ 20 + 2 ^ 22)

/-- DECODE_QUERY: `kind` is KIND in bit 0 and POOL above it. -/
def execDecodeQuery (kind index : Nat) (s : State) : Host.Outcome State Fault Refusal :=
  goQuery s 0x200200 index 20 (kind / 2 % 16 * 2 ^ 20 + kind % 2 * 2 ^ 24 + 2 ^ 25)

/-- VEIL_QUERY. -/
def execVeilQuery (kind index : Nat) (s : State) : Host.Outcome State Fault Refusal :=
  goQuery s 0x300200 index 15 (kind % 2 * 2 ^ 15 + 2 ^ 16)

/-- ENCODE_QUERY. -/
def execEncodeQuery (index : Nat) (s : State) : Host.Outcome State Fault Refusal := goQuery s 0x400200 index 12 (2 ^ 16)

/-- AUDIO_QUERY. -/
def execAudioQuery (kind index : Nat) (s : State) : Host.Outcome State Fault Refusal :=
  goQuery s 0x500200 index 20 (kind % 2 * 2 ^ 20 + 2 ^ 21)

/-- MITTEN_QUERY. -/
def execMittenQuery (index : Nat) (s : State) : Host.Outcome State Fault Refusal := goQuery s 0x601000 index 13 (2 ^ 16)

/-- INGRESS_QUERY. -/
def execIngressQuery (kind index : Nat) (s : State) : Host.Outcome State Fault Refusal :=
  goQuery s 0x700800 index 20 (kind % 2 * 2 ^ 20 + 2 ^ 21)

/-- CIPHER_QUERY. -/
def execCipherQuery (index : Nat) (s : State) : Host.Outcome State Fault Refusal := goQuery s 0x800200 index 10 (2 ^ 16)

/-- GAUNTLET_QUERY. -/
def execGauntletQuery (index : Nat) (s : State) : Host.Outcome State Fault Refusal := goQuery s 0x900200 index 12 (2 ^ 16)

/-- BAND_QUERY. -/
def execBandQuery (kind index : Nat) (s : State) : Host.Outcome State Fault Refusal :=
  goQuery s 0xA00200 index 20 (kind % 4 * 2 ^ 20 + 2 ^ 22)

/-- PON_QUERY. -/
def execPonQuery (port index : Nat) (s : State) : Host.Outcome State Fault Refusal :=
  if port < 2 then goQuery s (0xC00200 + port * 0x40000) index 10 (2 ^ 16) else ok s

/-- NEARMEM_QUERY. -/
def execNearmemQuery (stack kind index : Nat) (s : State) : Host.Outcome State Fault Refusal :=
  if stack < 8 then goQuery s (0xD00200 + stack * 0x10000) index 11 (kind % 2 * 2 ^ 11 + 2 ^ 12) else ok s

/-! ### The heartbeat and moderation (R456, R469) -/

/-- The host address of the heartbeat. -/
def heartbeatAddress (s : State) : Nat := rd s Reg.GLOBAL.HEARTBEAT_ADDRESS_LO + rd s Reg.GLOBAL.HEARTBEAT_ADDRESS_HI * 2 ^ 32

/-- Whether the tick boundary that has last passed owes a heartbeat. -/
def heartbeatDue (s : State) : Bool :=
  decide (heartbeatAddress s ≠ 0) && s.host.linkUp && decide (0 < s.time.boundaries)
    && decide (s.time.tickCount % max 1 (rd s Reg.GLOBAL.HEARTBEAT_TICKS) = 0) && onceDue s 0

/-- HEARTBEAT: the 16 bytes are written, once at its boundary. -/
def execHeartbeat (s : State) : Host.Outcome State Fault Refusal :=
  if heartbeatDue s then
    ok (emit (markOnce s 0) (.heartbeat (heartbeatAddress s) (heartbeatBytes s.time.tickCount s.mode.code (timeState s) (now s))))
  else ok s

/-- The first unsignalled entry of a device-produced ring, its MOD_TIME in us and its vector. -/
def moderation (s : State) (k : Nat) : Option Nat × Nat × Nat :=
  match k with
  | 1 => (s.host.cplFirst, rd s Reg.DIRECTIVE.CPL_CONTROL_MOD_TIME, rd s Reg.DIRECTIVE.CPL_CONTROL_VECTOR)
  | 2 => (s.host.evtFirst, rd s Reg.EVENT.EVT_CONTROL_MOD_TIME, rd s Reg.EVENT.EVT_CONTROL_VECTOR)
  | 3 => (s.host.statsFirst, rd s Reg.EVENT.STATS_CONTROL_MOD_TIME, rd s Reg.EVENT.STATS_CONTROL_VECTOR)
  | _ => (none, 0, 0)

/-- MOD_TIME_EXPIRY: MOD_TIME us after the first entry since its last signal, a ring signals. -/
def execModTimeExpiry (ring : Nat) (s : State) : Host.Outcome State Fault Refusal :=
  match (moderation s ring).1 with
  | none => ok s
  | some t =>
    if !s.host.linkUp then ok s
    else
      match reach s (t + (moderation s ring).2.1 * 1000) with
      | none => ok s
      | some s => ok (signal (restartModeration s ring) (moderation s ring).2.2)

/-! ### snapshot-counters (R469) -/

/-- The first offset of a block (R449). -/
def blockBase (b : Nat) : Nat := if b < 5 then b * 0x10000 else (b - 4) * 0x100000

/-- The instances of a block, and the bytes between two of them. -/
def blockInstances (b : Nat) : Nat × Nat :=
  match b with
  | 15 => (16, 0x10000)
  | 16 => (2, 0x40000)
  | 17 => (8, 0x10000)
  | _ => (1, 0)

/-- The first offsets of the spans of 4,096 bytes that a snapshot of the blocks of a mask copies, in order. -/
def snapshotSpans (blocks : Nat) : List Nat :=
  ((List.range 22).filter (fun b => bitOf blocks b = 1)).flatMap (fun b =>
    (List.range (blockInstances b).1).map (fun i => blockBase b + i * (blockInstances b).2))

/-- Bytes 0x0000 to 0x0FFF of a span. -/
def spanBytes (s : State) (base : Nat) : List Byte := (List.range 1024).flatMap (fun w => toLE 4 (regRead s (base + 4 * w)))

/-- The RC fields of the spans are cleared; the reset value of each is zero. -/
def clearSpans (s : State) (spans : List Nat) : State :=
  { s with regs := s.regs.filter (fun e =>
      !(spans.any (fun b => decide (b * 32 ≤ e.1) && decide (e.1 < (b + 0x1000) * 32))
        && (match keyField e.1 with
            | some f => f.acc = .rc
            | none => false))) }

/-- A snapshot taken at a tick boundary ends: its bytes are copied to the exchange region, and the completion gives their number. -/
def takeSnapshot (s : State) (d : Deferred) (blocks dest clear : Nat) : State :=
  let spans := snapshotSpans blocks
  let bytes := spans.flatMap (spanBytes s)
  let s := exchangeWrite s dest bytes
  let s := if clear = 1 then clearSpans s spans else s
  finish s d 0 0 bytes.length

end Sys2Proof.Machine
end

