-- ==== Sys2Proof/Machine/Trust.lean ====
section
/-!
DEFINITION. Images, generations and the Kuthastan core (chapter 03): verification and its outcome, loading in Proving, partial images, the old
generation's users, the DRBG and attestation.
-/

namespace Sys2Proof.Machine

/-! ### Acceptance of an image (R76 to R84) -/

/-- IMAGE_STATUS shows the reason of the last verification, and a refusal raises IMAGE_REFUSED. -/
def showReason (s : State) (r : Nat) : State :=
  let s := wr s Reg.TRUST.IMAGE_STATUS_LAST_REASON r
  if r = 0 then s else raise s Reg.TRUST.TRUST_EVENTS_IMAGE_REFUSED

/-- A PROVISIONING image that verifies fuses the SHA-384 of its pair as the anchor, and moves a BLANK part to PRODUCTION (R78). -/
def fuseAnchor (s : State) (i : Image) : State :=
  if i.kind ≠ 2 || s.trust.fuses.anchor.isSome then s
  else
    let f := s.trust.fuses
    { s with trust := { s.trust with fuses :=
        { f with anchor := some i.customerAnchor, lifecycle := if f.lifecycle = 1 then 1 else 2 } } }

/-- A FULL or PROVISIONING image governs this Proving: its fields are loaded and its domains asked for; the march, the training, the link
test and the boot steps follow (R477, R504). The domains are switched at the next boundary (R499). -/
def acceptImage (s : State) (i : Image) (source : Nat) : State :=
  let s := loadImage (fuseAnchor s i) i source
  { s with proving := { ProvingState.reset with flashTried := 2 }, power := { s.power with imageDue := true } }

/-- The reason that verification gives an image in a boot slot: in Proving no Structure runs that a PARTIAL image could match. -/
def bootReason (s : State) (i : Image) : Nat := verifyImage { s with trust := { s.trust with full := none, pendingPartial := none } } i

/-- Whether Proving still looks for an image: none has been accepted in it, and no automatic reset has given up. -/
def seeksImage (s : State) : Bool := s.mode = .proving && !imageRuns s && !s.proving.failed && !s.trust.zeroizing

/-- The content of a slot: what the device has written to it or read from it before, else what the flash gives now. -/
def slotContent (s : State) (slot : Nat) (content : List Byte) : List Byte := (s.trust.fuses.flash.get slot).getD content

/-- A slot of the boot flash takes a content. -/
def setFlash (s : State) (slot : Nat) (content : List Byte) : State :=
  { s with trust := { s.trust with fuses := { s.trust.fuses with flash := s.trust.fuses.flash.put slot content } } }

/-- The image of a boot slot has been verified with a reason: it governs, or the next slot is due. When both slots are refused the device stays
in Proving. -/
def slotVerified (s : State) (slot : Nat) (i : Image) (r : Nat) : State :=
  let s := showReason s r
  let s := if slot = 0 then wr s Reg.TRUST.IMAGE_STATUS_PRIMARY_REASON r else s
  let s := { s with proving := { s.proving with flashTried := slot + 1 } }
  if r = 0 then
    let s := acceptImage s i (slot + 1)
    if slot = 1 then raise s Reg.TRUST.TRUST_EVENTS_FALLBACK_USED else s
  else if slot = 1 then provingFailed s (Config.itemCode 1)
  else s

/-- FLASH_SLOT_VERIFY: the primary slot is read and verified, and after it the fallback slot. An erased slot has a bad format. -/
def execFlashSlotVerify (slot : Nat) (content : List Byte) (s : State) : Host.Outcome State Fault Refusal :=
  if !(seeksImage s && decide (slot < 2) && decide (slot = s.proving.flashTried)) then ok s
  else
    let b := slotContent s slot content
    let i := Image.ofBytes b
    ok (slotVerified (setFlash s slot b) slot i (bootReason s i))

/-- The oldest unfinished directive of an opcode that `which` picks. -/
def oldestOf (s : State) (opcode : Nat) (which : Deferred → Bool) : Option Deferred :=
  s.host.deferred.find? (fun d => d.opcode = opcode && which d)

/-- The reason that verification gives a pushed image: BUSY also where a PARTIAL image was pending when it arrived (R83). -/
def pushedReason (s : State) (busy : Bool) (i : Image) : Nat :=
  verifyImage (if busy then { s with trust := { s.trust with pendingPartial := some i } } else s) i

/-! ### The halves of program memory (R233) -/

/-- Whether a partial image brings new thread code: its Programs differ from the current ones by their digest. -/
def newCode (s : State) (i : Image) : Bool := i.has 2 && i.digestOf 2 ≠ s.trust.current.digests.getD 0 0

/-- The idle halves begin to take the pending image's code, once no live generation uses them. -/
def writeCode (s : State) : State :=
  match s.trust.pendingPartial with
  | some i =>
    if newCode s i && s.trust.codeSince.isNone && (s.trust.old.map (fun o => decide (o.half = s.trust.current.half))).getD true then
      { s with trust := { s.trust with codeSince := some s.time.boundaries } }
    else s
  | none => s

/-- Whether the pending image's code stands in its half. -/
def codeWritten (s : State) (i : Image) : Bool :=
  !newCode s i || (s.trust.codeSince.map (fun b => decide (b + Config.codeWriteTicks (i.digestOf 2) ≤ s.time.boundaries))).getD false

/-- A pushed image has been verified. In Proving it governs at once; in service a FULL image takes effect through a warm reset and a PARTIAL one
is pending until a boundary, its classification slots reserved (R82, R84, R288). A PROVISIONING image fuses its anchor at once (R78). -/
def pushedVerified (s : State) (busy : Bool) (i : Image) : State :=
  let r := pushedReason s busy i
  let s := showReason s r
  let d := oldestOf s 0x55 (fun _ => true)
  let done (s : State) (status detail : Nat) : State :=
    match d with
    | some d => finish s d status detail 0
    | none => s
  if r ≠ 0 then done s 15 r
  else if i.kind = 1 then
    let entries := (structure_ s).part.classifyEntries
    let slots := (newRules s i).map (fun c => bucketOfKey entries c.path c.template (padTo 40 c.key))
    let s := { s with trust := { s.trust with pendingPartial := some i }, ingress := { s.ingress with reservedSlots := slots } }
    done (writeCode (wr s Reg.TRUST.IMAGE_STATUS_PENDING 1)) 0 0
  else if s.mode = .proving then done (acceptImage s i 3) 0 0
  else
    let s := done (fuseAnchor s i) 0 0
    warmResetFor { s with trust := { s.trust with held := some i } } 10

/-- The image of a flash-program directive has been verified: the slot is erased and written, or the directive is refused (R81). -/
def flashVerified (s : State) (slot : Nat) (bytes : List Byte) (i : Image) : State :=
  let open_ (s : State) (d : Deferred) : State :=
    { s with host := { s.host with deferred := s.host.deferred.map (fun e => if e = d then { e with key := 1 } else e) },
             trust := { s.trust with flashWrites := s.trust.flashWrites ++ [(slot, bytes)] } }
  let r := bootReason s i
  let s := showReason s r
  match oldestOf s 0x56 (fun d => d.key = 0) with
  | none => s
  | some d =>
    if r ≠ 0 then finish s d 15 r 0
    else emit (setFlash (open_ s d) slot []) (.flashErase slot)

/-- IMAGE_VERIFIED: the oldest verification of the core ends. -/
def execImageVerified (s : State) : Host.Outcome State Fault Refusal :=
  match s.trust.verifying with
  | [] => ok s
  | (why, i) :: l =>
    if s.trust.zeroizing || s.mode = .sealed || s.mode = .dormant then ok s
    else
      let s := { s with trust := { s.trust with verifying := l } }
      match why with
      | .pushed busy => ok (pushedVerified s busy i)
      | .flashProgram slot bytes => ok (flashVerified s slot bytes i)

/-- The oldest image whose slot has been erased is written to it. -/
def writeFlash (s : State) : State :=
  match s.trust.flashWrites with
  | [] => s
  | (slot, b) :: l => emit (setFlash { s with trust := { s.trust with flashWrites := l } } slot b) (.flashWrite slot b)

/-- FLASH_PROGRAM_WRITTEN: erasing and writing a slot ends. -/
def execFlashProgramWritten (s : State) : Host.Outcome State Fault Refusal :=
  match oldestOf s 0x56 (fun d => d.key = 1) with
  | none => ok s
  | some d => if s.trust.zeroizing then ok s else ok (finish (writeFlash s) d 0 0 0)

/-! ### Generations (R83 to R86) -/

/-- The generation that an inbound job's packet carries. -/
def purposeGeneration : JobPurpose → Option Nat
  | .srtpIn _ _ _ _ _ _ g _ => some g
  | .gauntletIn _ _ _ _ _ _ _ g _ => some g
  | _ => none

/-- Whether a generation still has users: packets in the ingress path, jobs of engines, and running threads (R85). -/
def hasUsers (s : State) (g : Nat) : Bool :=
  s.ingress.recirc.any (fun e => e.2.any (fun x => x.generation = g))
    || s.ingress.fragments.any (fun e => !e.2.closed && e.2.generation = g)
    || s.gauntlet.arrivals.any (fun a => a.generation = g)
    || s.cipher.jobs.any (fun j => purposeGeneration j.purpose = some g)
    || s.cipher.submitted.any (fun p => purposeGeneration p = some g)
    || s.decodes.any (fun e => e.2.job.any (fun j => j.buffer.isSome && j.generation = g))
    || s.composites.any (fun e => e.2.job.any (fun j => j.generation = g) || e.2.queue.any (fun j => j.generation = g))
    || s.encodes.any (fun e => e.2.job.any (fun j => j.generation = g))
    || s.mixes.any (fun e => !e.2.due.isEmpty && e.2.dueGeneration = g)
    || s.mitten.threads.any (fun e => e.2.state = .running && e.2.generation = g)

/-- The old generation is no longer live; its classification entries go (R84, R288). -/
def retireOld (s : State) : State :=
  freeOldRules (wr { s with trust := { s.trust with old := none } } Reg.TRUST.IMAGE_STATUS_OLD_LIVE 0)

/-- The packets of the old generation are dropped and counted in GEN_DRAIN_DROP (R86). -/
def dropPackets (s : State) (g : Nat) : State :=
  let n := (s.ingress.recirc.map (fun e => (e.2.filter (fun x => x.generation = g)).length)).sum
    + (s.ingress.fragments.filter (fun e => !e.2.closed && e.2.generation = g)).length
    + (s.gauntlet.arrivals.filter (fun a => a.generation = g)).length
    + (s.cipher.submitted.filter (fun p => purposeGeneration p = some g)).length
    + (s.cipher.jobs.filter (fun j => purposeGeneration j.purpose = some g)).length
  let s := withIngress s (fun i => { i with
    recirc := i.recirc.all (fun _ (q : List Recirculated) => q.filter (fun x => x.generation ≠ g)),
    fragments := i.fragments.filter (fun e => e.2.closed || e.2.generation ≠ g) })
  let s := { s with gauntlet := { s.gauntlet with arrivals := s.gauntlet.arrivals.filter (fun a => a.generation ≠ g) } }
  let s := (s.cipher.jobs.filter (fun j => purposeGeneration j.purpose = some g)).foldl removeJob s
  let s := withCipher s (fun c => { c with submitted := c.submitted.filter (fun p => purposeGeneration p ≠ some g) })
  bumpBy s Reg.TRUST.GEN_DRAIN_DROP n

/-- The jobs of the old generation are cancelled, as R64 treats a dropped frame. -/
def cancelJobs (s : State) (g : Nat) : State :=
  let s := (s.decodes.filter (fun e => e.2.job.any (fun j => j.buffer.isSome && j.generation = g))).foldl (fun s e => dropDecodeFrame s e.1) s
  let s := (s.composites.map (·.1)).foldl (fun s i => dropWaiting s i g) s
  let s := (s.composites.filter (fun e => e.2.job.any (fun j => j.generation = g))).foldl (fun s e => dropComposite s e.1) s
  let s := (s.mixes.filter (fun e => !e.2.due.isEmpty && e.2.dueGeneration = g)).foldl (fun s e => cancelFrames s e.1) s
  (s.encodes.filter (fun e => e.2.job.any (fun j => j.generation = g))).foldl (fun s e => dropEncode s e.1 false) s

/-- The old generation is retired by force: its packets are dropped, its jobs cancelled and its threads moved (R86). -/
def forceOld (s : State) (g : Nat) : State :=
  let s := cancelJobs (dropPackets s g) g
  raise (moveThreads (retireOld s)) Reg.TRUST.TRUST_EVENTS_GEN_FORCED

/-- Whether the old generation's users hold it beyond GEN_DRAIN_LIMIT at a boundary, and whether they have drained. -/
def forcedDue (s : State) : Bool :=
  match s.trust.old with
  | some o => hasUsers s o.number && decide (rd s Reg.TRUST.GEN_CONFIG < since s s.trust.current.since)
  | none => false

def retireDueOld (s : State) : Bool :=
  match s.trust.old with
  | some o => !hasUsers s o.number
  | none => false

/-- A PARTIAL image takes effect (R83, R84): the sections it omits are carried over, and what its Tables and Policy govern is loaded. -/
def adoptPartial (s : State) (i : Image) : State :=
  let c := s.trust.current
  let pick (kind : Nat) (old : List Record) : List Record := if i.has kind then i.recordsOf kind else old
  let digest (kind k : Nat) : Nat := if i.has kind then i.digestOf kind else c.digests.getD k 0
  let g : Generation :=
    { number := (c.number + 1) % 2 ^ 32, programs := pick 2 c.programs, tables := pick 3 c.tables, policy := pick 4 c.policy,
      digests := [digest 2 0, digest 3 1, digest 4 2], since := s.time.boundaries,
      half := if newCode s i then 1 - c.half else c.half }
  let rules (t : List Record) : List ClassRule := ((t.findSome? Record.classify?).map (·.rules)).getD []
  let s := { s with trust := { s.trust with current := g, old := some c, pendingPartial := none, codeSince := none } }
  let s := wrAll s ([(Reg.TRUST.GENERATION_CURRENT, g.number), (Reg.TRUST.IMAGE_STATUS_PENDING, 0), (Reg.TRUST.IMAGE_STATUS_OLD_LIVE, 1)]
    ++ generationFields g.tables g.policy)
  let s := adoptRules s (rules c.tables) (rules g.tables) g.number
  let s := loadGates s (((g.tables.findSome? Record.gateLists?).map (·.lists)).getD []) false
  raise (recodeFaulted s) Reg.TRUST.TRUST_EVENTS_GENERATION_CHANGED

/-- The old generation retires, drained or by force; the half that it frees takes the code that waits for it. -/
def retireStep (s : State) : State :=
  writeCode (match s.trust.old with
    | some o => if !hasUsers s o.number then retireOld s else if forcedDue s then forceOld s o.number else s
    | none => s)

/-- Whether the pending partial image takes effect now: one generation is live, and its code stands in the idle half (R84, R233). -/
def takesEffect (s : State) : Bool := s.trust.old.isNone && inService s && s.trust.pendingPartial.any (codeWritten s)

/-- Step 4 of R55: the old generation retires, drained or by force, and then a pending partial image takes effect. -/
def stepGeneration (s : State) : State :=
  let s := retireStep s
  match s.trust.pendingPartial with
  | some i => if takesEffect s then adoptPartial s i else s
  | none => s

/-- Whether a partial image takes effect at the next boundary. -/
def changeDue (s : State) : Bool := takesEffect (retireStep { s with time := { s.time with boundaries := s.time.boundaries + 1 } })

/-! ### The DRBG (R87, R88) -/

/-- Whether the Kuthastan core has power: in every mode but a Dormant with PWR_GOOD low. -/
def corePowered (s : State) : Bool := s.mode ≠ .dormant || s.power.pwrGood

/-- DRBG_RESEED: the DRBG takes fresh entropy. While FAILED is set it goes on until the reseed that is due, one second or 2^20 requests after
the last, and then the device zeroizes. -/
def execDrbgReseed (s : State) : Host.Outcome State Fault Refusal :=
  if !corePowered s then ok s
  else if s.trust.startupPassed then ok (reseed s)
  else if 2 ^ 20 ≤ s.trust.generates then ok (zeroizeTrigger s 8 0)
  else
    match reach s (s.trust.reseededAt + 1000000000) with
    | none => ok s
    | some s => ok (zeroizeTrigger s 8 0)

/-- ENTROPY_HEALTH_FAIL: FAILED is set and the start-up tests begin again. -/
def execEntropyHealthFail (s : State) : Host.Outcome State Fault Refusal :=
  if !corePowered s then ok s
  else
    let s := wr { s with trust := { s.trust with startupPassed := false } } Reg.TRUST.ENTROPY_STATUS 1
    ok (raise s Reg.TRUST.TRUST_EVENTS_ENTROPY_ALARM)

/-- ENTROPY_STARTUP_PASSED: FAILED is cleared. -/
def execEntropyStartupPassed (s : State) : Host.Outcome State Fault Refusal :=
  if !corePowered s then ok s
  else ok (wr { s with trust := { s.trust with startupPassed := true } } Reg.TRUST.ENTROPY_STATUS 0)

/-! ### Attestation (R95) -/

/-- A live generation in a report: its number and the DIGEST fields of its Programs, Tables and Policy. -/
def generationValues (g : Generation) : List Nat := g.number :: g.digests

/-- The live generations: the current one once an image has taken effect, and the old one. -/
def liveGenerations (s : State) : List Generation :=
  (if imageRuns s && s.trust.current.number ≠ 0 then [s.trust.current] else []) ++ s.trust.old.toList

/-- The keys of a customer block are those of the fused anchor, where one is fused (R75, R78). -/
def anchorHolds (s : State) (block : List Byte) : Bool :=
  match s.trust.fuses.anchor with
  | none => true
  | some a => decide (Config.sha384 (signatureKeys block 0) = a)

/-- The values of a report, in the order of R95. -/
def reportValues (s : State) (nonce : Nat) : List Nat :=
  let f := s.trust.fuses
  let digest (kind : Nat) : Nat := (s.trust.full.map (fun i => i.digestOf kind)).getD 0
  [b2n f.is8832, b2n f.gradeI, f.lifecycle, Config.deviceId, f.rollback, Config.nymrehalAnchor, f.anchor.getD 0, digest 1, digest 5]
    ++ (liveGenerations s).flatMap generationValues
    ++ [s.mode.code, timeState s, now s, s.time.tickCount, rd s Reg.TRUST.ZEROIZE_COUNT, nonce]

/-- A report with its signatures by the device identity pair. -/
def signedReport (s : State) (nonce : Nat) : List Byte :=
  let b := Config.attestReport (reportValues s nonce) s.trust.fuses.certificate
  b ++ Config.mldsaSign identityPair.1 b (ascii "PSIXIS-ATT") ++ Config.ecdsaSign identityPair.1 (sha384 b)

/-- ATTESTATION_REPORT_SIGNED: the oldest report is signed and written, at most 1,000 in a second. -/
def execAttestationReportSigned (s : State) : Host.Outcome State Fault Refusal :=
  match s.trust.attest with
  | [] => ok s
  | r :: l =>
    let n := if s.trust.attestSecond = secondOf s then s.trust.attestDone else 0
    if s.trust.zeroizing || decide (1000 ≤ n) then ok s
    else
      let s := { s with trust := { s.trust with attest := l, attestSecond := secondOf s, attestDone := n + 1 } }
      let s := bump (exchangeWrite s r.dest (signedReport s r.nonce)) Reg.TRUST.ATTEST_COUNT
      match deferredOf s 0x54 r.sequence with
      | some d => ok (finish s d 0 0 0)
      | none => ok s

end Sys2Proof.Machine
end

