-- ==== Sys2Proof/Machine/Boot.lean ====
section
/-!
DEFINITION. The boot steps of Proving (R505).
-/

namespace Sys2Proof.Machine

/-- The boot steps of the running image. -/
def bootSteps (s : State) : List BootStep := (s.trust.current.programs.findSome? Record.bootSteps?).getD []

/-- The boot steps may run: the work before them in R504 is done, and nothing has failed. -/
def bootReady (s : State) : Bool :=
  s.mode = .proving && imageRuns s && s.proving.marchDone && s.proving.trained && s.proving.linksTested && !s.proving.bootDone
    && !s.proving.failed && !s.trust.zeroizing

/-- What the device waits for becomes `w`. -/
def bootWaits (s : State) (w : BootWaitFor) : State := { s with proving := { s.proving with bootWait := w } }

/-- The present step ends and the next one follows. -/
def bootNext (s : State) : State :=
  bootWaits { s with proving := { s.proving with bootIndex := s.proving.bootIndex + 1 } } .none

/-- The present step fails: PROVING_FAILED carries its index. -/
def bootFails (s : State) : State := provingFailed (bootWaits s .none) s.proving.bootIndex

/-- The parts of an I2C step (R505). -/
def bootDevice (b : BootStep) : Nat := bitsOf b.address 6 0
def bootRegister (b : BootStep) : Nat := bitsOf b.address 15 8
def bootSpeed (b : BootStep) : Nat := bitOf b.address 7
def bootLimit (b : BootStep) : Nat := bitsOf b.value 31 16 * 1000000

/-- A bit of a field takes a value. -/
def putBit (s : State) (f : Fld) (n v : Nat) : State := wr s f (if v = 1 then setBit (rd s f) n else clearBit (rd s f) n)

/-- A boot step gives a GPIO pin its level and its direction: an output with VALUE [1] set, and otherwise an input (log 161). -/
def gpioSet (s : State) (pin value : Nat) : State :=
  gpioDrives s (putBit (putBit s Reg.POWER.GPIO_OUT_LEVEL (pin % 16) (bitOf value 0)) Reg.POWER.GPIO_OUT_ENABLE (pin % 16) (bitOf value 1))

/-- The present step begins. -/
def bootBegin (s : State) (b : BootStep) : State :=
  if b.op = 1 then bootNext (gpioSet s b.pin b.value)
  else if b.op = 2 then bootWaits s (.delay (nowNs s + b.value * 1000))
  else if b.op = 3 then bootWaits (emit s (.i2cWrite b.pin (bootDevice b) (bootRegister b) (bitsOf b.value 7 0) (bootSpeed b))) .ack
  else if b.op = 4 then bootWaits (emit s (.i2cRead b.pin (bootDevice b) (bootRegister b) (bootSpeed b))) (.poll (nowNs s))
  else bootWaits s (.gpio (nowNs s))

/-- The boot steps end: the device releases the I2C buses. -/
def bootEnds (s : State) : State :=
  emit { s with proving := { s.proving with bootDone := true } } .i2cRelease

/-- BOOT_STEP: the next step begins, or the steps end. -/
def execBootStep (s : State) : Host.Outcome State Fault Refusal :=
  if bootReady s && s.proving.bootWait = .none then
    match (bootSteps s)[s.proving.bootIndex]? with
    | none => ok (bootEnds s)
    | some b => ok (bootBegin s b)
  else ok s

/-- BOOT_WAIT: the delay of a WAIT step passes. -/
def execBootWait (s : State) : Host.Outcome State Fault Refusal :=
  match s.proving.bootWait with
  | .delay t => if bootReady s then ok ((reach s t).elim s bootNext) else ok s
  | _ => ok s

/-- I2C_WRITE: the byte of an I2C_WRITE step has been sent, acknowledged or not. -/
def execI2cWrite (ack : Bool) (s : State) : Host.Outcome State Fault Refusal :=
  if bootReady s && s.proving.bootWait = .ack then ok (if ack then bootNext s else bootFails s) else ok s

/-- The present step when its wait has gone on for some ns and it finds what it waits for, or not; what comes at the end of the wait comes too
late (R15). -/
def bootFinds (s : State) (b : BootStep) (elapsed : Nat) (found : Bool) : State :=
  if bootLimit b ≤ elapsed then bootFails s else if found then bootNext s else s

/-- I2C_POLL: a read of the register ends, `elapsed` ns after its step began, with its byte or unacknowledged. -/
def execI2cPoll (elapsed : Nat) (reply : Option Nat) (s : State) : Host.Outcome State Fault Refusal :=
  match s.proving.bootWait, (bootSteps s)[s.proving.bootIndex]? with
  | .poll t, some b =>
    if bootReady s then
      match reach s (t + elapsed) with
      | none => ok s
      | some s =>
        match reply with
        | none => ok (bootFails s)
        | some v => ok (bootFinds s b elapsed (decide ((v % 256) &&& bitsOf b.value 15 8 = bitsOf b.value 7 0)))
    else ok s
  | _, _ => ok s

/-- The level that a pin of a GPIO_WAIT step shows. -/
def takeLevel (s : State) (pin level : Nat) : State :=
  if pin < 16 then { s with power := { s.power with gpioIn := if level = 1 then setBit s.power.gpioIn pin else clearBit s.power.gpioIn pin } }
  else takeLos s (pin - 16) (decide (level = 1))

/-- GPIO_WAIT: the pin of a GPIO_WAIT step shows a level, `elapsed` ns after the step began. -/
def execGpioWait (elapsed level : Nat) (s : State) : Host.Outcome State Fault Refusal :=
  match s.proving.bootWait, (bootSteps s)[s.proving.bootIndex]? with
  | .gpio t, some b =>
    if bootReady s && decide (level < 2) then
      match reach s (t + elapsed) with
      | none => ok s
      | some s => ok (bootFinds (takeLevel s b.pin level) b elapsed (decide (level = bitOf b.value 0)))
    else ok s
  | _, _ => ok s

end Sys2Proof.Machine
end

