-- ==== Sys2Proof/Machine/Monitor.lean ====
section
/-!
DEFINITION. The Abaset monitor (R506 to R508). A reply is its last line and the numbers that the lines before it give.
-/

namespace Sys2Proof.Machine

/-- A reply. -/
def reply (s : State) (line : String) (values : List Nat) : State := emit s (.monitor line values)

def replyOk (s : State) (values : List Nat) : State := reply s "OK" values
def replySyntax (s : State) : State := reply s "ERR SYNTAX" []
def replyDenied (s : State) : State := reply s "ERR DENIED" []
def replyLocked (s : State) : State := reply s "ERR LOCKED" []
def replyUnavailable (s : State) : State := reply s "ERR UNAVAILABLE" []

/-- The DEBUG record of the running image (R508). -/
def debugRec (s : State) : Option DebugRec := s.trust.current.policy.findSome? Record.debug?

/-- The lifecycle states (R77). -/
def blank (s : State) : Bool := s.trust.fuses.lifecycle = 0
def development (s : State) : Bool := s.trust.fuses.lifecycle = 1
def production (s : State) : Bool := s.trust.fuses.lifecycle = 2

/-- The monitor only reads: in RETIRED, and in Sealed whatever the lifecycle. -/
def monitorReadOnly (s : State) : Bool := s.trust.fuses.lifecycle = 3 || s.mode = .sealed

/-- The monitor answers while the device has power. -/
def monitorUp (s : State) : Bool := s.power.pwrGood

/-- A word of a field of every register that it stands in. -/
def fieldWords (s : State) (f : Fld) : List Nat :=
  (List.range f.insts).flatMap (fun i => (List.range f.cnt).map (fun k => fieldValue s ((f.on i).at k)))

/-- IDENT: PART_INFO, DEVICE_ID, the anchors, ANTI_ROLLBACK. -/
def execIdent (s : State) : Host.Outcome State Fault Refusal :=
  if monitorUp s then
    ok (replyOk s (regRead s Reg.GLOBAL.PART_INFO_PART.off :: fieldWords s Reg.TRUST.DEVICE_ID ++ fieldWords s Reg.TRUST.NYMREHAL_ANCHOR
      ++ fieldWords s Reg.TRUST.CUSTOMER_ANCHOR ++ [s.trust.fuses.rollback]))
  else ok s

/-- STATUS: the mode, MODE_REASON, TIME_STATUS, POWER_STATUS. -/
def execStatus (s : State) : Host.Outcome State Fault Refusal :=
  if monitorUp s then
    ok (replyOk s [s.mode.code, rd s Reg.FAULTLOG.MODE_REASON, regRead s Reg.TIME.TIME_STATUS_STATE.off, regRead s Reg.POWER.POWER_STATUS_VDD_CORE.off])
  else ok s

/-- The entries of the fault log with sequence numbers from `first` on, by sequence. -/
def logFrom (s : State) (first count : Nat) : List FaultEntry :=
  (sortBy (fun (e : FaultEntry) => (e.sequence : Int)) ((s.faults.log.map (·.2)).filter (fun e =>
    decide (first ≤ e.sequence) && decide (e.sequence < first + count))))

/-- LOG: at most 64 fault-log entries by sequence. -/
def execLog (first count : Nat) (s : State) : Host.Outcome State Fault Refusal :=
  if monitorUp s then
    ok (replyOk s ((logFrom s first (min count 64)).flatMap (fun e => (faultBytes e).map (·.toNat))))
  else ok s

/-- COUNTERS: the counters of a block of R449, in register order, read without clearing. -/
def execCounters (block : Nat) (s : State) : Host.Outcome State Fault Refusal :=
  if !monitorUp s then ok s
  else if 22 ≤ block then ok (replySyntax s)
  else if blank s then ok (replyDenied s)
  else if s.mode = .dormant || s.mode = .sealed then ok (replyUnavailable s)
  else ok (replyOk s (((Reg.blockFields block).filter (fun f => f.acc = .rc)).flatMap (fieldWords s)))

/-- CHALLENGE and UNLOCK are allowed. -/
def mayUnlock (s : State) : Bool :=
  production s && !monitorReadOnly s && ((debugRec s).map (·.allowUnlock)).getD false

/-- A fresh nonce replaces the present one. -/
def freshNonce (s : State) : State :=
  let r := draw s
  { r.1 with power := { r.1.power with challenge := some r.2 } }

/-- CHALLENGE: the present nonce, refused for 10 s after a failed UNLOCK. -/
def execChallenge (s : State) : Host.Outcome State Fault Refusal :=
  if !monitorUp s then ok s
  else if !mayUnlock s || decide (nowNs s < s.power.challengeAt) then ok (replyDenied s)
  else
    let s := if s.power.challenge.isNone then freshNonce s else s
    ok (replyOk s [Config.drbg (s.power.challenge.getD 0)])

/-- How long an unlock lasts, in ns. -/
def unlockNs (d : DebugRec) : Nat := orDefault d.unlockMinutes 30 * 60000000000

/-- An UNLOCK's customer signature block verifies over DEVICE_ID and the nonce given last (R507). -/
def unlockVerifies (s : State) (block : List Byte) : Bool :=
  match s.power.challenge with
  | none => false
  | some n =>
    signatureFormat block 0 2 && blockVerifies block 0 (sha384 (toLE 16 Config.deviceId ++ toLE 32 (Config.drbg n))) (ascii "PSIXIS-MON")
      && anchorHolds s block

/-- UNLOCK: the nonce is replaced whether or not its block verifies. A line whose hex digits spell no bytes is no UNLOCK. -/
def execUnlock (block : List Byte) (spelt : Bool) (s : State) : Host.Outcome State Fault Refusal :=
  if !monitorUp s then ok s
  else if !spelt then ok (replySyntax s)
  else if !mayUnlock s then ok (replyDenied s)
  else
    let good := unlockVerifies s block
    let s := freshNonce s
    if good then
      let t := nowNs s + ((debugRec s).map unlockNs).getD 0
      ok (replyOk { s with power := { s.power with unlockUntil := some t } } [])
    else ok (replyDenied { s with power := { s.power with challengeAt := nowNs s + 10000000000 } })

/-- The monitor grants PEEK and POKE: unlocked, or in DEVELOPMENT. -/
def unlocked (s : State) : Bool := development s || (production s && s.power.unlockUntil.isSome)

/-- Whether a mask of the DEBUG record holds the block of an offset; a -DV part in DEVELOPMENT ignores the masks (R2). -/
def maskHolds (s : State) (mask : DebugRec → Nat) (off : Nat) : Bool :=
  (development s && s.trust.fuses.dv) || decide (bitOf (((debugRec s).map mask).getD 0) (blockOf off) = 1)

/-- Whether an offset names a register of BAR 0. -/
def peekable (off : Nat) : Bool := decide (off % 4 = 0) && inBar0 off 4

/-- PEEK: a register of BAR 0, read as the host reads it. -/
def execPeek (off : Nat) (s : State) : Host.Outcome State Fault Refusal :=
  if !monitorUp s then ok s
  else if !peekable off then ok (replySyntax s)
  else if blank s then ok (replyDenied s)
  else if !unlocked s then ok (replyLocked s)
  else if !maskHolds s DebugRec.peekBlocks off then ok (replyDenied s)
  else ok (clearRead (replyOk s [regRead s off]) off)

/-- POKE: a register of BAR 0, written as the host writes it; never in Sealed. -/
def execPoke (off value : Nat) (s : State) : Host.Outcome State Fault Refusal :=
  if !monitorUp s then ok s
  else if !peekable off || decide (2 ^ 32 ≤ value) then ok (replySyntax s)
  else if blank s || monitorReadOnly s then ok (replyDenied s)
  else if !unlocked s then ok (replyLocked s)
  else if !maskHolds s DebugRec.pokeBlocks off then ok (replyDenied s)
  else ok (replyOk (hostWrite s off 4 value) [])

/-- LOCK: ends an unlock. -/
def execLock (s : State) : Host.Outcome State Fault Refusal :=
  if !monitorUp s then ok s
  else if blank s then ok (replyDenied s)
  else ok (replyOk (endUnlock s) [])

/-- UNLOCK_EXPIRY: UNLOCK_MINUTES have passed. -/
def execUnlockExpiry (s : State) : Host.Outcome State Fault Refusal :=
  match s.power.unlockUntil with
  | none => ok s
  | some t => ok ((reach s t).elim s endUnlock)

end Sys2Proof.Machine
end

