-- ==== Sys2Proof/Machine/Entry.lean ====
section
/-!
DEFINITION. The bytes of a directive (R457, R464), the exchange offsets it names (R451), and the authorisation block that signs it (R463).
Every field is little-endian (R10).
-/

namespace Sys2Proof.Machine

/-- The OPCODE of a directive (R464). -/
def opcodeOf : Directive → Nat
  | .admitRoom _ _ => 0x01
  | .admitParticipant _ _ _ => 0x02
  | .admitLeg _ _ => 0x03
  | .setLeg _ _ => 0x04
  | .setParticipant _ _ _ _ => 0x05
  | .release _ _ => 0x06
  | .requestKeyframe _ => 0x07
  | .admitDecode _ _ => 0x10
  | .readStatistics _ _ _ _ => 0x11
  | .admitComposite _ _ => 0x12
  | .setLayout _ _ _ => 0x13
  | .admitEncode _ _ => 0x14
  | .setEncode _ _ => 0x15
  | .admitMix _ _ => 0x20
  | .setRoute _ _ _ => 0x21
  | .readLevels _ _ => 0x22
  | .enableTalkerExport _ _ => 0x23
  | .startThread _ _ _ => 0x24
  | .stopThread _ => 0x25
  | .deliverKeyToken _ _ => 0x30
  | .admitTunnel _ _ => 0x31
  | .switchEpoch _ _ => 0x32
  | .sendTunnelMessage _ _ _ => 0x33
  | .sendFrame _ _ _ => 0x34
  | .setShaper _ _ _ _ => 0x35
  | .setPortLpi _ _ => 0x36
  | .enablePon _ _ _ => 0x40
  | .setPonPort _ _ _ _ _ _ => 0x41
  | .setPonMap _ _ _ => 0x42
  | .sendOmci _ _ => 0x43
  | .ponTimeOfDay _ _ _ _ => 0x44
  | .switchPon => 0x45
  | .step _ => 0x50
  | .setSeconds _ => 0x51
  | .setMemoryRate _ => 0x52
  | .archivePages _ _ _ _ => 0x53
  | .attest _ _ => 0x54
  | .pushImage _ => 0x55
  | .flashProgram _ _ => 0x56
  | .snapshotCounters _ _ _ => 0x57
  | .engineReset _ _ => 0x58
  | .warmReset => 0x59
  | .zeroize => 0x5A
  | .retire => 0x5B
  | .unknown n => n

/-! ### The bytes of a directive (R457, R464) -/

/-- Leg entry bytes 0x16 to 0x22 (R104). -/
def legChangeBytes (l : LegChange) : List Byte :=
  toLE 1 l.cls ++ toLE 1 l.flags ++ toLE 4 l.rate ++ toLE 4 l.burst ++ toLE 2 l.packetSize ++ toLE 1 l.layerCap

/-- Leg entry bytes 0x01 to 0x22 (R104). -/
def legSpecBytes (l : LegSpec) : List Byte :=
  toLE 1 l.kind ++ toLE 1 l.media ++ toLE 1 l.codec ++ toLE 2 l.participant ++ toLE 2 l.room ++ toLE 4 l.source ++ toLE 4 l.ssrc ++ toLE 4 l.rtxSsrc
    ++ toLE 1 l.pt ++ toLE 1 l.rtxPt
    ++ legChangeBytes { cls := l.cls, flags := l.flags, rate := l.rate, burst := l.burst, packetSize := l.packetSize, layerCap := l.layerCap }

/-- Stream entry bytes 0x01 to 0x13 (R130). -/
def decodeSpecBytes (d : DecodeSpec) : List Byte :=
  toLE 1 d.codec ++ toLE 1 d.pool ++ zeros 1 ++ toLE 4 d.leg ++ toLE 2 d.maxWidth ++ toLE 2 d.maxHeight ++ toLE 1 d.rate ++ toLE 1 d.refs
    ++ toLE 1 d.opPoint ++ toLE 1 d.flags ++ toLE 4 d.bitstreamKib

/-- Encode entry bytes 0x10 to 0x1F (R179). -/
def encodeRateBytes (r : EncodeRate) : List Byte :=
  toLE 4 r.target ++ toLE 2 r.vbvMs ++ toLE 2 r.keyInterval ++ toLE 1 r.qpMin ++ toLE 1 r.qpMax ++ toLE 1 r.keyWeight ++ zeros 1 ++ toLE 2 r.maxPayload
    ++ toLE 2 r.layerShare

/-- Encode entry bytes 0x01 to 0x1F (R179). -/
def encodeSpecBytes (e : EncodeSpec) : List Byte :=
  toLE 1 e.codec ++ toLE 1 e.pool ++ zeros 1 ++ toLE 1 e.sourceKind ++ toLE 1 e.structure_ ++ toLE 1 e.profile ++ toLE 1 e.flags ++ toLE 2 e.source
    ++ zeros 4 ++ toLE 1 e.rate ++ zeros 1 ++ encodeRateBytes e.rc

/-- The extension of admit-participant: a participant entry (R103), aggregate entry bytes 0x01 to 0x0F (R339) and a zero byte. -/
def participantExt (p : PartSpec) (a : AggSpec) : List Byte :=
  zeros 1 ++ toLE 1 p.transport ++ toLE 2 p.room ++ zeros 4 ++ toLE 4 p.tunnelId ++ zeros 4 ++ toLE 4 p.minRate ++ toLE 4 p.maxRate ++ zeros 24
    ++ toLE 16 p.remoteIp ++ toLE 16 p.localIp ++ toLE 2 p.remotePort ++ toLE 2 p.localPort ++ zeros 44
    ++ toLE 1 a.egress ++ toLE 1 a.weight ++ zeros 1 ++ toLE 6 a.nextHop ++ toLE 2 a.vlanOuter ++ toLE 2 a.vlanInner ++ zeros 3

/-- The extension of admit-tunnel: a tunnel entry (R322). -/
def tunnelExt (t : TunnelSpec) : List Byte :=
  zeros 1 ++ toLE 1 t.carrier ++ toLE 1 (b2n t.pinned + 32 * t.role) ++ toLE 1 t.egress ++ toLE 1 t.cls ++ zeros 1 ++ toLE 2 t.framesPerTick
    ++ toLE 2 t.frameLength ++ toLE 2 t.phase ++ zeros 10 ++ toLE 2 t.vlanOuter ++ toLE 2 t.vlanInner ++ toLE 6 t.remoteMac ++ zeros 8
    ++ toLE 16 t.remoteIp ++ toLE 16 t.localIp ++ toLE 2 t.remotePort ++ toLE 2 t.localPort ++ zeros 52

/-- The extension block of a directive; the others have none. -/
def extBytes : Directive → List Byte
  | .admitParticipant _ p a => participantExt p a
  | .admitTunnel _ t => tunnelExt t
  | _ => []

/-- The PARAMETERS of a directive in catalogue order; `at_` is the exchange offset of the buffer that it reads. -/
def paramBytes (at_ : Nat) : Directive → List Byte
  | .admitRoom index maxParticipants => toLE 2 index ++ toLE 2 maxParticipants
  | .admitParticipant index _ _ => toLE 2 index
  | .admitLeg index l => toLE 4 index ++ legSpecBytes l
  | .setLeg index l => toLE 4 index ++ legChangeBytes l
  | .setParticipant index minRate maxRate weight => toLE 2 index ++ toLE 4 minRate ++ toLE 4 maxRate ++ toLE 1 weight
  | .release kind index => toLE 1 kind ++ toLE 4 index
  | .requestKeyframe sender => toLE 4 sender
  | .admitDecode index d => toLE 2 index ++ decodeSpecBytes d
  | .readStatistics kind index what dest => toLE 1 kind ++ toLE 2 index ++ toLE 1 what ++ toLE 4 dest
  | .admitComposite index c => toLE 2 index ++ toLE 1 c.pool ++ toLE 1 c.rate ++ toLE 2 c.width ++ toLE 2 c.height ++ toLE 2 c.phase
  | .setLayout index _ length => toLE 2 index ++ toLE 4 at_ ++ toLE 2 length
  | .admitEncode index e => toLE 2 index ++ encodeSpecBytes e ++ toLE 2 e.phase
  | .setEncode index r => toLE 2 index ++ encodeRateBytes r
  | .admitMix room m =>
    toLE 2 room ++ toLE 1 m.maxTalkers ++ toLE 1 m.frameMs ++ toLE 1 (ofSigned 8 m.threshold) ++ toLE 1 m.margin ++ toLE 1 m.hold
  | .setRoute leg mode gain => toLE 4 leg ++ toLE 1 mode ++ toLE 1 (ofSigned 8 gain)
  | .readLevels room dest => toLE 2 room ++ toLE 4 dest
  | .enableTalkerExport room record => toLE 2 room ++ toLE 4 (record.getD 0xFFFFFFFF)
  | .startThread entry cluster arg => toLE 2 entry ++ toLE 1 cluster ++ toLE 4 arg
  | .stopThread thread => toLE 2 thread
  | .deliverKeyToken _ length => toLE 4 at_ ++ toLE 2 length
  | .admitTunnel index _ => toLE 2 index
  | .switchEpoch tunnel epoch => toLE 2 tunnel ++ toLE 2 epoch
  | .sendTunnelMessage tunnel label data => toLE 2 tunnel ++ toLE 1 label ++ toLE 2 data.length ++ toLE 4 at_
  | .sendFrame egress cls frame => toLE 1 egress ++ toLE 1 cls ++ toLE 2 frame.length ++ toLE 4 at_
  | .setShaper egress cls rate burst => toLE 1 egress ++ toLE 1 cls ++ toLE 4 rate ++ toLE 4 burst
  | .setPortLpi mac tw => toLE 1 mac ++ toLE 2 tw
  | .enablePon port disabled registration => toLE 1 port ++ toLE 1 disabled ++ padTo 36 registration
  | .setPonPort port index portId direction queue flags =>
    toLE 1 port ++ toLE 2 index ++ toLE 2 portId ++ toLE 1 direction ++ toLE 1 queue ++ toLE 1 flags
  | .setPonMap port cls allocId => toLE 1 port ++ toLE 1 cls ++ toLE 2 allocId
  | .sendOmci port message => toLE 1 port ++ toLE 2 message.length ++ toLE 4 at_
  | .ponTimeOfDay port superframe seconds nanoseconds => toLE 1 port ++ toLE 8 superframe ++ toLE 6 seconds ++ toLE 4 nanoseconds
  | .switchPon => []
  | .step source => toLE 1 source
  | .setSeconds seconds => toLE 6 seconds
  | .setMemoryRate point => toLE 1 point
  | .archivePages first count keyEntry dest => toLE 8 first ++ toLE 4 count ++ toLE 4 keyEntry ++ toLE 8 dest
  | .attest nonce dest => toLE 32 nonce ++ toLE 4 dest
  | .pushImage image => toLE 4 at_ ++ toLE 4 image.length
  | .flashProgram image slot => toLE 4 at_ ++ toLE 4 image.length ++ toLE 1 slot
  | .snapshotCounters blocks dest clear => toLE 4 blocks ++ toLE 4 dest ++ toLE 1 clear
  | .engineReset kind index => toLE 1 kind ++ toLE 1 index
  | .warmReset => []
  | .zeroize => []
  | .retire => []
  | .unknown _ => []

/-- A byte of the entry with the reserved bits that are written non-zero there. -/
def withReserved (h : DirHeader) (i : Nat) (b : Byte) : Byte := h.reserved.foldl (fun (x : Byte) e => if e.1 = i then x ||| e.2 else x) b

/-- The 64-byte entry of a directive (R457), with AUTH given apart: the signed message takes it as zero. -/
def entryBytes (h : DirHeader) (auth : Nat) (d : Directive) : List Byte :=
  let b := toLE 2 (opcodeOf d) ++ toLE 1 (b2n h.interrupt) ++ zeros 1 ++ toLE 4 h.tag ++ toLE 4 auth ++ toLE 4 h.extAt ++ padTo 48 (paramBytes h.bufferAt d)
  (List.range 64).map (fun i => withReserved h i (b.getD i 0))

/-! ### Exchange offsets (R451) -/

/-- The exchange offset that means none. -/
def noOffset : Nat := 0xFFFFFFFF

/-- A buffer of `n` bytes may lie at an exchange offset. -/
def exchangeOk (at_ n : Nat) : Bool := at_ % 64 = 0 && decide (at_ + n ≤ 2 ^ 32)

/-- The bytes of an exchange buffer that a directive names in its PARAMETERS, and the offset of the field that names it. -/
def namedBuffer (s : State) (h : DirHeader) : Directive → Option (Nat × Nat × Nat)
  | .readStatistics kind index what dest => some (dest, statisticsLength s kind index what, 0x14)
  | .setLayout _ _ length => some (h.bufferAt, length, 0x12)
  | .readLevels room dest => some (dest, (levelsOf s room).length, 0x12)
  | .enableTalkerExport _ record => record.map (fun (at_ : Nat) => (at_, 64, 0x12))
  | .deliverKeyToken _ length => some (h.bufferAt, length, 0x10)
  | .sendTunnelMessage _ _ data => some (h.bufferAt, data.length, 0x15)
  | .sendFrame _ _ frame => some (h.bufferAt, frame.length, 0x14)
  | .sendOmci _ message => some (h.bufferAt, message.length, 0x13)
  | .attest nonce dest => some (dest, (signedReport s nonce).length, 0x30)
  | .pushImage image => some (h.bufferAt, image.length, 0x10)
  | .flashProgram image _ => some (h.bufferAt, image.length, 0x10)
  | .snapshotCounters blocks dest _ => some (dest, 4096 * (snapshotSpans blocks).length, 0x14)
  | _ => none

/-- Whether a directive must have an extension block. -/
def needsExt (d : Directive) : Bool := !(extBytes d).isEmpty

/-- The exchange offsets of a directive that break R451, with the offsets of the fields that give them. An extension that the directive needs may
not be none. -/
def exchangeFields (s : State) (h : DirHeader) (d : Directive) : List (Bool × Nat) :=
  [(h.authAt ≠ noOffset && !exchangeOk h.authAt signatureBytes, 0x08),
   (if h.extAt = noOffset then needsExt d else !exchangeOk h.extAt (extBytes d).length, 0x0C)]
    ++ ((namedBuffer s h d).map (fun x => (!exchangeOk x.1 x.2.1, x.2.2))).toList

/-! ### Authorisation (R463) -/

/-- What the signer of a directive signs: the SHA-384 of the entry with AUTH zero, DEVICE_ID, and the AUTH_NONCE shown. -/
def authMessage (s : State) (h : DirHeader) (d : Directive) : List Byte :=
  sha384 (entryBytes h 0 d ++ toLE 16 Config.deviceId ++ toLE 32 (authNonce s))

/-- A directive carries a valid authorisation block. An AUTH that is none, or no exchange offset, names no block (log 160). -/
def authValid (s : State) (h : DirHeader) (d : Directive) : Bool :=
  exchangeOk h.authAt signatureBytes && signatureFormat h.authBlock 0 2 && blockVerifies h.authBlock 0 (authMessage s h d) (ascii "PSIXIS-DIR")
    && anchorHolds s h.authBlock

end Sys2Proof.Machine
end

