-- ==== Sys2Proof/Machine/Directives.lean ====
section
/-!
DEFINITION. The evaluation of directives (R458, R460 to R464): the entry at the head of the directive ring is checked in the order of R461,
its own rules are applied, and its completion is written when its outcome is final. A command that gives a directive acts when the
directive ring holds an entry to evaluate; the command says what that entry holds.
-/

namespace Sys2Proof.Machine

/-- The ranges of the fields of a directive (step 7 of R461): whether each fails, and its offset. -/
def fieldsOf (s : State) : Directive → List (Bool × Nat)
  | .admitRoom index maxParticipants => admitRoomFields index maxParticipants
  | .admitParticipant index p a => admitParticipantFields s index p a
  | .admitLeg index l => admitLegFields s index l
  | .setLeg index l => setLegFields s index l
  | .setParticipant index minRate maxRate weight => setParticipantFields s index minRate maxRate weight
  | .release kind index => releaseFields s kind index
  | .requestKeyframe sender => requestKeyframeFields s sender
  | .admitDecode index d => admitDecodeFields s index d
  | .readStatistics kind index what _ => readStatisticsFields kind index what
  | .admitComposite index c => admitCompositeFields s index c
  | .setLayout index _ _ => [(decide (2048 ≤ index), 0x10)]
  | .admitEncode index e => admitEncodeFields s index e
  | .setEncode index e => setEncodeFields s index e
  | .admitMix room m => admitMixFields room m
  | .setRoute leg mode gain => setRouteFields s leg mode gain
  | .readLevels room _ => [(decide (4096 ≤ room), 0x10)]
  | .enableTalkerExport room _ => [(decide (4096 ≤ room), 0x10)]
  | .startThread entry cluster _ => startThreadFields s entry cluster
  | .stopThread thread => stopThreadFields thread
  | .deliverKeyToken t length => tokenFields t length
  | .admitTunnel index t => admitTunnelFields s index t
  | .switchEpoch tunnel _ => [(decide (4096 ≤ tunnel), 0x10)]
  | .sendTunnelMessage tunnel label data => sendTunnelMessageFields tunnel label data
  | .sendFrame egress cls frame => sendFrameFields s egress cls frame
  | .setShaper egress cls _ burst => setShaperFields s egress cls burst
  | .setPortLpi mac tw => setPortLpiFields s mac tw
  | .enablePon port disabled registration => enablePonFields port disabled registration
  | .setPonPort port index _ direction queue flags => setPonPortFields port index direction queue flags
  | .setPonMap port cls _ => setPonMapFields port cls
  | .sendOmci port message => sendOmciFields port message
  | .ponTimeOfDay port superframe _ nanoseconds => ponTimeOfDayFields s port superframe nanoseconds
  | .switchPon => []
  | .step source => stepFields source
  | .setSeconds _ => []
  | .setMemoryRate point => setMemoryRateFields point
  | .archivePages first count keyEntry _ => archivePagesFields s first count keyEntry
  | .attest _ _ => []
  | .pushImage _ => []
  | .flashProgram _ slot => flashProgramFields slot
  | .snapshotCounters blocks _ clear => snapshotCountersFields blocks clear
  | .engineReset kind index => engineResetFields kind index
  | .warmReset => []
  | .zeroize => []
  | .retire => []
  | .unknown _ => []

/-- The own rules of a directive (step 8 of R461). -/
def ruleOf (w : Deferred) (s : State) : Directive → Ruling
  | .admitRoom index maxParticipants => admitRoomRule index maxParticipants s
  | .admitParticipant index p a => admitParticipantRule index p a s
  | .admitLeg index l => admitLegRule index l s
  | .setLeg index l => setLegRule index l s
  | .setParticipant index minRate maxRate weight => setParticipantRule index minRate maxRate weight s
  | .release kind index => releaseRule kind index s
  | .requestKeyframe sender => requestKeyframeRule sender s
  | .admitDecode index d => admitDecodeRule index d s
  | .readStatistics kind index what dest => readStatisticsRule w kind index what dest s
  | .admitComposite index c => admitCompositeRule index c s
  | .setLayout index list length => setLayoutRule w index (readList (list.take length)) (list.take length).length s
  | .admitEncode index e => admitEncodeRule index e s
  | .setEncode index e => setEncodeRule index e s
  | .admitMix room m => admitMixRule room m s
  | .setRoute leg mode gain => setRouteRule leg mode gain s
  | .readLevels room dest => readLevelsRule room dest s
  | .enableTalkerExport room record => enableTalkerExportRule room record s
  | .startThread entry cluster arg => startThreadRule entry cluster arg s
  | .stopThread thread => stopThreadRule thread s
  | .deliverKeyToken t length => deliverKeyTokenRule w t length s
  | .admitTunnel index t => admitTunnelRule index t s
  | .switchEpoch tunnel epoch => switchEpochRule tunnel epoch s
  | .sendTunnelMessage tunnel label data => sendTunnelMessageRule tunnel label data s
  | .sendFrame egress cls frame => sendFrameRule egress cls frame s
  | .setShaper egress cls rate burst => setShaperRule egress cls rate burst s
  | .setPortLpi mac tw => setPortLpiRule mac tw s
  | .enablePon port disabled registration => enablePonRule port disabled registration s
  | .setPonPort port index portId direction queue flags => setPonPortRule port index portId direction queue flags s
  | .setPonMap port cls allocId => setPonMapRule port cls allocId s
  | .sendOmci port message => sendOmciRule port message s
  | .ponTimeOfDay port superframe seconds nanoseconds => ponTimeOfDayRule port superframe seconds nanoseconds s
  | .switchPon => switchPonRule s
  | .step source => stepRule source s
  | .setSeconds seconds => setSecondsRule seconds s
  | .setMemoryRate point => setMemoryRateRule w point s
  | .archivePages first count keyEntry dest => archivePagesRule w first count keyEntry dest s
  | .attest nonce dest => attestRule w nonce dest s
  | .pushImage image => pushImageRule w image s
  | .flashProgram image slot => flashProgramRule w image slot s
  | .snapshotCounters blocks dest clear => snapshotCountersRule w blocks dest clear s
  | .engineReset kind index => engineResetRule kind index s
  | .warmReset => warmResetRule w s
  | .zeroize => zeroizeRule s
  | .retire => retireRule s
  | .unknown _ => .refuse 1 0

/-! ### Policy, authorisation and RATE (R462, R463) -/

/-- MODE and RATE of an opcode: 0 FORBIDDEN, 1 HOST, 2 AUTHORISED. While no image has been accepted since the cold reset there is no Policy. -/
def dirPolicy (s : State) (op : Nat) : Nat × Nat :=
  if !s.trust.accepted then (1, 0)
  else
    let l := ((s.trust.current.policy.findSome? Record.directiveLimits?).getD []).find? (fun (d : DirLimit) => d.opcode = op)
    let a := authoriseOf s
    let mode := if op = 0x50 then a.stepMode else if op = 0x53 then a.archiveMode else if op = 0x5A then a.zeroizeMode
      else if op = 0x5B then a.retireMode else (l.map (·.mode)).getD 1
    (mode, (l.map (·.rate)).getD 0)

/-- The directives that Proving accepts. -/
def provingAllows (op : Nat) : Bool := op = 0x54 || op = 0x55 || op = 0x57 || op = 0x59 || op = 0x5A

/-- The core has verified its 100 authorisations of this second of local time. -/
def authBusy (s : State) : Bool := decide (s.host.authSecond = secondOf s) && decide (100 ≤ s.host.authCount)

/-- One authorisation is verified. -/
def countAuth (s : State) : State :=
  let n := if s.host.authSecond = secondOf s then s.host.authCount else 0
  { s with host := { s.host with authSecond := secondOf s, authCount := n + 1 } }

/-- AUTH_NONCE is replaced from the DRBG. -/
def newNonce (s : State) : State :=
  let r := draw s
  { r.1 with host := { r.1.host with nonceDraw := r.2 } }

/-- The directives of an opcode that counted in the window of 8,000 ticks that ends with this one. -/
def rateUsed (s : State) (op : Nat) : Nat := (s.host.rateLog.filter (fun e => e.1 = op && decide (s.time.boundaries < e.2 + 8000))).length

/-- A directive counts toward its RATE. -/
def countRate (s : State) (op : Nat) : State := { s with host := { s.host with rateLog := (op, s.time.boundaries) :: s.host.rateLog } }

/-- How steps 1 to 7 of R461 end: the directive waits in ring order, is refused, or passes. -/
inductive Verdict where
  | wait
  | refused (s : State) (status detail : Nat)
  | passed (s : State)

/-- Steps 6 and 7 of R461. -/
def checkRate (s : State) (h : DirHeader) (d : Directive) (rate : Nat) : Verdict :=
  if rate ≠ 0 && decide (rate ≤ rateUsed s (opcodeOf d)) then .refused s stPolicyDenied 0
  else
    let s := countRate s (opcodeOf d)
    match hasFailed (h.reserved.map (fun e => (true, e.1)) ++ exchangeFields s h d ++ fieldsOf s d) with
    | some o => .refused s stBadField o
    | none => .passed s

/-- Steps 4 to 7 of R461. -/
def checkPolicy (s : State) (h : DirHeader) (d : Directive) : Verdict :=
  let p := dirPolicy s (opcodeOf d)
  if p.1 = 0 then .refused s (if opcodeOf d = 0x50 then stNotPermitted else stPolicyDenied) 0
  else if p.1 = 1 then checkRate s h d p.2
  else if h.authAt ≠ noOffset && authBusy s then .wait
  else
    let c := if h.authAt ≠ noOffset then countAuth s else s
    if authValid s h d then checkRate (newNonce c) h d p.2
    else .refused (raise (bump c Reg.DIRECTIVE.AUTH_FAILS) Reg.DIRECTIVE.DIRECTIVE_EVENTS_AUTH_FAIL) stAuthFail 0

/-- Whether an opcode is in the catalogue. -/
def known : Directive → Bool
  | .unknown _ => false
  | _ => true

/-- Steps 1 to 7 of R461. -/
def check (s : State) (h : DirHeader) (d : Directive) : Verdict :=
  if s.mode = .sealed || s.trust.zeroizing then .refused s 12 0
  else if !known d then .refused s 1 0
  else if s.mode = .proving && !provingAllows (opcodeOf d) then .refused s stWrongMode Mode.proving.code
  else checkPolicy s h d

/-! ### Evaluation (R458, R459) -/

/-- The directive ring holds an entry that may be evaluated in this tick: the link is up, both rings are enabled, and a warm reset is not in
progress. -/
def dirReady (s : State) : Bool :=
  s.host.linkUp && rd s dirRing.enable = 1 && rd s cplRing.enable = 1 && !Ring.empty s dirRing && decide (s.host.fetched < 1024) && !s.warming

/-- The completion ring has space for the outcome. -/
def cplReady (s : State) : Bool := cplOpen s && s.host.waiting.isEmpty

/-- The directive as its completion will name it: SEQUENCE is its index in the ring, and the generation the one current now. -/
def entryAt (s : State) (h : DirHeader) (d : Directive) : Deferred :=
  { tag := h.tag, opcode := opcodeOf d, interrupt := h.interrupt, generation := s.trust.current.number, sequence := rd s dirRing.head, key := 0, info := [] }

/-- The entry at the head of the ring is taken. -/
def takeHead (s : State) : State :=
  let s := wr s dirRing.head ((rd s dirRing.head + 1) % 2 ^ 32)
  bump { s with host := { s.host with fetched := s.host.fetched + 1 } } Reg.DIRECTIVE.EVALUATED

/-- A directive is refused; a refused token is counted too. -/
def refuse (s : State) (w : Deferred) (status detail : Nat) : State :=
  let s := bump s Reg.DIRECTIVE.REFUSED
  complete (if status = stTokenRefused then bump s Reg.TRUST.TOKEN_REFUSED else s) (w.final status detail 0)

/-- The entry at the head of the ring is evaluated; none where it waits. -/
def evaluateHead (s : State) (h : DirHeader) (d : Directive) : Option State :=
  let w := entryAt s h d
  match check (takeHead s) h d with
  | .wait => none
  | .refused s status detail => some (refuse s w status detail)
  | .passed s =>
    match ruleOf w s d with
    | .hold => none
    | .refuse status detail => some (refuse s w status detail)
    | .done s detail result => some (complete s (w.final 0 detail result))
    | .silent s => some s

/-- Evaluation stops while the completion ring is full. -/
def stalled (s : State) : State := raise s Reg.DIRECTIVE.DIRECTIVE_EVENTS_CPL_FULL

/-- One directive is evaluated, if the ring holds one that may be; whether those behind it may follow. -/
def evaluateOne (s : State) (h : DirHeader) (d : Directive) : State × Bool :=
  if !dirReady s then (s, false)
  else if !cplReady s then (stalled s, false)
  else
    match evaluateHead s h d with
    | none => (s, false)
    | some t => (t, true)

/-- The directive at the head of the ring is this one. -/
def evaluate (h : DirHeader) (d : Directive) (s : State) : Host.Outcome State Fault Refusal := ok (evaluateOne s h d).1

/-- The directives at the head of the ring are these, in ring order. -/
def evaluateAll (s : State) : List (DirHeader × Directive) → State
  | [] => s
  | e :: l =>
    let r := evaluateOne s e.1 e.2
    if r.2 then evaluateAll r.1 l else r.1

/-- A read of the directive ring fails; the fetch is retried at the next tick (R473). -/
def fetchFails (s : State) : State :=
  let s := raise (bump s Reg.DIRECTIVE.FETCH_ERRORS) Reg.DIRECTIVE.DIRECTIVE_EVENTS_FETCH_ERROR
  { s with host := { s.host with fetched := 1024 } }

/-- DIRECTIVE_FETCH: entries of the directive ring are fetched and evaluated in ring order. A fetch that brings nothing where entries wait
is a read that failed. -/
def execDirectiveFetch (entries : List (DirHeader × Directive)) (s : State) : Host.Outcome State Fault Refusal :=
  if entries.isEmpty then (if dirReady s then ok (fetchFails s) else ok s)
  else ok (evaluateAll s entries)

/-! ### The directives -/


/-- admit-room (0x0001). -/
def execAdmitRoom (h : DirHeader) (index maxParticipants : Nat) (s : State) : Host.Outcome State Fault Refusal := evaluate h (.admitRoom index maxParticipants) s

/-- admit-participant (0x0002). -/
def execAdmitParticipant (h : DirHeader) (index : Nat) (p : PartSpec) (a : AggSpec) (s : State) : Host.Outcome State Fault Refusal := evaluate h (.admitParticipant index p a) s

/-- admit-leg (0x0003). -/
def execAdmitLeg (h : DirHeader) (index : Nat) (l : LegSpec) (s : State) : Host.Outcome State Fault Refusal := evaluate h (.admitLeg index l) s

/-- set-leg (0x0004). -/
def execSetLeg (h : DirHeader) (index : Nat) (l : LegChange) (s : State) : Host.Outcome State Fault Refusal := evaluate h (.setLeg index l) s

/-- set-participant (0x0005). -/
def execSetParticipant (h : DirHeader) (index minRate maxRate weight : Nat) (s : State) : Host.Outcome State Fault Refusal := evaluate h (.setParticipant index minRate maxRate weight) s

/-- release (0x0006). -/
def execRelease (h : DirHeader) (kind index : Nat) (s : State) : Host.Outcome State Fault Refusal := evaluate h (.release kind index) s

/-- request-keyframe (0x0007). -/
def execRequestKeyframe (h : DirHeader) (sender : Nat) (s : State) : Host.Outcome State Fault Refusal := evaluate h (.requestKeyframe sender) s

/-- admit-decode (0x0010). -/
def execAdmitDecode (h : DirHeader) (index : Nat) (d : DecodeSpec) (s : State) : Host.Outcome State Fault Refusal := evaluate h (.admitDecode index d) s

/-- read-statistics (0x0011). -/
def execReadStatistics (h : DirHeader) (kind index what dest : Nat) (s : State) : Host.Outcome State Fault Refusal := evaluate h (.readStatistics kind index what dest) s

/-- admit-composite (0x0012). -/
def execAdmitComposite (h : DirHeader) (index : Nat) (c : CompositeSpec) (s : State) : Host.Outcome State Fault Refusal := evaluate h (.admitComposite index c) s

/-- set-layout (0x0013). -/
def execSetLayout (h : DirHeader) (index : Nat) (list : List Byte) (length : Nat) (s : State) : Host.Outcome State Fault Refusal := evaluate h (.setLayout index list length) s

/-- admit-encode (0x0014). -/
def execAdmitEncode (h : DirHeader) (index : Nat) (e : EncodeSpec) (s : State) : Host.Outcome State Fault Refusal := evaluate h (.admitEncode index e) s

/-- set-encode (0x0015). -/
def execSetEncode (h : DirHeader) (index : Nat) (e : EncodeRate) (s : State) : Host.Outcome State Fault Refusal := evaluate h (.setEncode index e) s

/-- admit-mix (0x0020). -/
def execAdmitMix (h : DirHeader) (room : Nat) (m : MixSpec) (s : State) : Host.Outcome State Fault Refusal := evaluate h (.admitMix room m) s

/-- set-route (0x0021). -/
def execSetRoute (h : DirHeader) (leg mode : Nat) (gain : Int) (s : State) : Host.Outcome State Fault Refusal := evaluate h (.setRoute leg mode gain) s

/-- read-levels (0x0022). -/
def execReadLevels (h : DirHeader) (room dest : Nat) (s : State) : Host.Outcome State Fault Refusal := evaluate h (.readLevels room dest) s

/-- enable-talker-export (0x0023). -/
def execEnableTalkerExport (h : DirHeader) (room : Nat) (record : Option Nat) (s : State) : Host.Outcome State Fault Refusal := evaluate h (.enableTalkerExport room record) s

/-- start-thread (0x0024). -/
def execStartThread (h : DirHeader) (entry cluster arg : Nat) (s : State) : Host.Outcome State Fault Refusal := evaluate h (.startThread entry cluster arg) s

/-- stop-thread (0x0025). -/
def execStopThread (h : DirHeader) (thread : Nat) (s : State) : Host.Outcome State Fault Refusal := evaluate h (.stopThread thread) s

/-- deliver-key-token (0x0030). -/
def execDeliverKeyToken (h : DirHeader) (token : List Byte) (length : Nat) (s : State) : Host.Outcome State Fault Refusal := evaluate h (.deliverKeyToken token length) s

/-- admit-tunnel (0x0031). -/
def execAdmitTunnel (h : DirHeader) (index : Nat) (t : TunnelSpec) (s : State) : Host.Outcome State Fault Refusal := evaluate h (.admitTunnel index t) s

/-- switch-epoch (0x0032). -/
def execSwitchEpoch (h : DirHeader) (tunnel epoch : Nat) (s : State) : Host.Outcome State Fault Refusal := evaluate h (.switchEpoch tunnel epoch) s

/-- send-tunnel-message (0x0033). -/
def execSendTunnelMessage (h : DirHeader) (tunnel label : Nat) (data : List (BitVec 8)) (s : State) : Host.Outcome State Fault Refusal := evaluate h (.sendTunnelMessage tunnel label data) s

/-- send-frame (0x0034). -/
def execSendFrame (h : DirHeader) (egress cls : Nat) (frame : List (BitVec 8)) (s : State) : Host.Outcome State Fault Refusal := evaluate h (.sendFrame egress cls frame) s

/-- set-shaper (0x0035). -/
def execSetShaper (h : DirHeader) (egress cls rate burst : Nat) (s : State) : Host.Outcome State Fault Refusal := evaluate h (.setShaper egress cls rate burst) s

/-- set-port-lpi (0x0036). -/
def execSetPortLpi (h : DirHeader) (mac tw : Nat) (s : State) : Host.Outcome State Fault Refusal := evaluate h (.setPortLpi mac tw) s

/-- enable-pon (0x0040). -/
def execEnablePon (h : DirHeader) (port disabled : Nat) (registration : List (BitVec 8)) (s : State) : Host.Outcome State Fault Refusal := evaluate h (.enablePon port disabled registration) s

/-- set-pon-port (0x0041). -/
def execSetPonPort (h : DirHeader) (port index portId direction queue flags : Nat) (s : State) : Host.Outcome State Fault Refusal := evaluate h (.setPonPort port index portId direction queue flags) s

/-- set-pon-map (0x0042). -/
def execSetPonMap (h : DirHeader) (port cls allocId : Nat) (s : State) : Host.Outcome State Fault Refusal := evaluate h (.setPonMap port cls allocId) s

/-- send-omci (0x0043). -/
def execSendOmci (h : DirHeader) (port : Nat) (message : List (BitVec 8)) (s : State) : Host.Outcome State Fault Refusal := evaluate h (.sendOmci port message) s

/-- pon-time-of-day (0x0044). -/
def execPonTimeOfDay (h : DirHeader) (port superframe seconds nanoseconds : Nat) (s : State) : Host.Outcome State Fault Refusal := evaluate h (.ponTimeOfDay port superframe seconds nanoseconds) s

/-- switch-pon (0x0045). -/
def execSwitchPon (h : DirHeader) (s : State) : Host.Outcome State Fault Refusal := evaluate h .switchPon s

/-- step (0x0050). -/
def execStep (h : DirHeader) (source : Nat) (s : State) : Host.Outcome State Fault Refusal := evaluate h (.step source) s

/-- set-seconds (0x0051). -/
def execSetSeconds (h : DirHeader) (seconds : Nat) (s : State) : Host.Outcome State Fault Refusal := evaluate h (.setSeconds seconds) s

/-- set-memory-rate (0x0052). -/
def execSetMemoryRate (h : DirHeader) (point : Nat) (s : State) : Host.Outcome State Fault Refusal := evaluate h (.setMemoryRate point) s

/-- archive-pages (0x0053). -/
def execArchivePages (h : DirHeader) (first count keyEntry dest : Nat) (s : State) : Host.Outcome State Fault Refusal := evaluate h (.archivePages first count keyEntry dest) s

/-- attest (0x0054). -/
def execAttest (h : DirHeader) (nonce dest : Nat) (s : State) : Host.Outcome State Fault Refusal := evaluate h (.attest nonce dest) s

/-- push-image (0x0055). -/
def execPushImage (h : DirHeader) (image : List Byte) (s : State) : Host.Outcome State Fault Refusal := evaluate h (.pushImage image) s

/-- flash-program (0x0056). -/
def execFlashProgram (h : DirHeader) (image : List Byte) (slot : Nat) (s : State) : Host.Outcome State Fault Refusal := evaluate h (.flashProgram image slot) s

/-- snapshot-counters (0x0057). -/
def execSnapshotCounters (h : DirHeader) (blocks dest clear : Nat) (s : State) : Host.Outcome State Fault Refusal := evaluate h (.snapshotCounters blocks dest clear) s

/-- engine-reset (0x0058). -/
def execEngineReset (h : DirHeader) (kind index : Nat) (s : State) : Host.Outcome State Fault Refusal := evaluate h (.engineReset kind index) s

/-- warm-reset (0x0059). -/
def execWarmReset (h : DirHeader) (s : State) : Host.Outcome State Fault Refusal := evaluate h .warmReset s

/-- zeroize (0x005A). -/
def execZeroize (h : DirHeader) (s : State) : Host.Outcome State Fault Refusal := evaluate h .zeroize s

/-- retire (0x005B). -/
def execRetire (h : DirHeader) (s : State) : Host.Outcome State Fault Refusal := evaluate h .retire s

end Sys2Proof.Machine
end

