-- ==== Sys2Proof/Machine/Operands.lean ====
section
/-!
DEFINITION. The operands of a Mitten word (R236, R237, R241, R242, R247, R248): rotating registers, quads and pairs, control registers, pointers
with their updates, and local memory; and the fields a word can encode.
-/

namespace Sys2Proof

/-- The fields of an A slot fit their bits. -/
def AArgs.wf (x : AArgs) : Bool := x.dst < 32 && x.src1 < 32 && x.src2 < 32 && x.satw < 4 && x.shift < 64

/-- The fields of an L slot fit their bits. -/
def LArgs.wf (x : LArgs) : Bool := x.reg < 32 && x.ptr < 8 && x.upd < 4 && decide (-8192 ≤ x.offset) && decide (x.offset < 8192)

/-- The fields of an LDXY fit their bits; a quad is named by its number, 0 to 7. -/
def XYArgs.wf (x : XYArgs) : Bool := x.quadX < 8 && x.quadY < 8 && x.ptrX < 8 && x.ptrY < 8 && x.updX < 4 && x.updY < 4

/-- The fields of an L slot of any kind fit their bits. -/
def LSlot.wf : LSlot → Bool
  | .nop => true
  | .mem _ x => x.wf
  | .ldxy x => x.wf

/-- The fields of a CONTROL word fit their bits. -/
def Control.wf : Control → Bool
  | .br c o => c < 16 && decide (-8388608 ≤ o) && decide (o < 8388608)
  | .call c o => c < 16 && decide (-8388608 ≤ o) && decide (o < 8388608)
  | .ret => true
  | .loop level _ isReg count body => level < 2 && (if isReg then count < 32 else count < 65536) && 1 ≤ body && body ≤ 4096
  | .wait mode value => mode < 4 && value < 65536
  | .signal cluster event => cluster < 8 && event < 64
  | .spawn e a r => e < 32 && a < 32 && r < 32
  | .fetch l p w => l < 32 && p < 32 && 1 ≤ w && w ≤ 64
  | .put l p w => l < 32 && p < 32 && 1 ≤ w && w ≤ 64
  | .fence => true

/-- The fields of a word fit their bits. -/
def MWord.wf : MWord → Bool
  | .pair a l => a.x.wf && l.wf
  | .long _ dst imm => dst < 32 && imm < 4294967296
  | .control c => c.wf

/-- The opcode of an A-slot operation (R249). -/
def AOp.code : AOp → Nat
  | .nop => 0 | .add => 1 | .sub => 2 | .adds => 3 | .subs => 4 | .and => 5 | .or => 6 | .xor => 7 | .shl => 8 | .shr => 9 | .asr => 10
  | .min => 11 | .max => 12 | .abs => 13 | .mul => 14 | .mov => 15 | .mac => 16 | .msu => 17 | .dot4 => 18 | .vmac4 => 19 | .aclr => 20
  | .aext => 21 | .ald => 22 | .aadd => 23 | .dstep => 24 | .dfix => 25 | .movcTo => 32 | .movcFrom => 33 | .cmp => 34

/-- The opcode of an L-slot operation (R249). -/
def LOp.code : LOp → Nat
  | .ld8s => 1 | .ld16s => 2 | .ld32 => 3 | .ld64 => 4 | .ldq => 5 | .st8 => 6 | .st16 => 7 | .st32 => 8 | .st64 => 9 | .stq => 10
  | .pset => 12 | .pget => 13

end Sys2Proof

namespace Sys2Proof.Machine

/-! ### Registers -/

/-- The physical register that a register name stands for (R237). -/
def physReg (rot r : Nat) : Nat := if r < 16 then r else 16 + (r - 16 + rot) % 16

/-- A data register. -/
def Bank.dreg (b : Bank) (r : Nat) : Word := b.d.getD (physReg b.rot r) 0

/-- An accumulator. -/
def Bank.acc (b : Bank) (k : Nat) : Int := b.a.getD k 0

/-- The FLAGS register (R236). -/
def Bank.flags (b : Bank) : Nat :=
  b2n b.z + 2 * b2n b.n + 4 * b2n b.c + 8 * b2n b.v + 16 * b2n b.aov + 32 * b2n b.dq + 64 * b2n b.resumedHere

/-- A control register of a bank whose thread is `t` of generation `gen`, on lane `l` (R236). -/
def controlReg (s : State) (l : Nat) (b : Bank) (t gen c : Nat) : Nat :=
  match c with
  | 0 => b.flags
  | 1 => b.rot
  | 2 => b.lc0
  | 3 => b.ls0
  | 4 => b.le0
  | 5 => b.lc1
  | 6 => b.ls1
  | 7 => b.le1
  | 8 => t
  | 9 => b.wake
  | 10 => l
  | 11 => s.time.tickCount
  | 12 => s.time.mixIndex % 2 ^ 32
  | 13 => gen
  | 14 => b2n b.farError
  | _ => b.link

/-- A control register written; the read-only ones keep their value. -/
def Bank.setControl (b : Bank) (c v : Nat) : Bank :=
  match c with
  | 0 => { b with z := bitOf v 0 = 1, n := bitOf v 1 = 1, c := bitOf v 2 = 1, v := bitOf v 3 = 1, aov := bitOf v 4 = 1, dq := bitOf v 5 = 1 }
  | 1 => { b with rot := v % 16 }
  | 2 => { b with lc0 := v }
  | 3 => { b with ls0 := v }
  | 4 => { b with le0 := v }
  | 5 => { b with lc1 := v }
  | 6 => { b with ls1 := v }
  | 7 => { b with le1 := v }
  | 15 => { b with link := v }
  | _ => b

/-! ### Pointers (R242) -/

/-- The number whose `k` bits are those of `n` in reverse order. -/
def revBits (k n : Nat) : Nat := (List.range k).foldl (fun acc i => 2 * acc + n / 2 ^ i % 2) 0

/-- `n` as a power of two from 2 to 16,384: its exponent. -/
def log2Of (n : Nat) : Option Nat := ((List.range 15).drop 1).find? (fun k => 2 ^ k = n)

/-- A pointer after an access; none where the update is illegal. -/
def updatePtr (upd p base len : Nat) (step : Int) : Option Nat :=
  match upd with
  | 0 => some p
  | 1 => some (ofSigned 32 ((p : Int) + step))
  | 2 => if len = 0 then none else some (ofSigned 32 ((base : Int) + (((p : Int) - (base : Int) + step) % (len : Int))))
  | _ =>
    match log2Of len with
    | none => none
    | some k =>
      let o := ofSigned k ((p : Int) - (base : Int))
      some ((base + revBits k ((revBits k o + revBits k (ofSigned k step)) % 2 ^ k)) % 2 ^ 32)

/-- The pointer of a bank after an access through it. -/
def Bank.nextPtr (b : Bank) (ptr upd : Nat) : Option Nat :=
  updatePtr upd (b.p.getD ptr 0) (b.b.getD ptr 0) (b.l.getD ptr 0) (b.s.getD ptr 0)

/-- The address of an access through a pointer. -/
def Bank.address (b : Bank) (ptr : Nat) (offset : Int) : Nat := ofSigned 32 ((b.p.getD ptr 0 : Int) + offset)

/-! ### Local memory (R241) -/

/-- Whether an access of `n` bytes stays in local memory, out of the privileged reserve for a normal bank, and a quad is aligned. -/
def localOk (k : BankId) (a n : Nat) : Bool :=
  decide (a + n ≤ 16384) && (k ≠ .normal || decide (a + n ≤ 14336)) && (decide (n ≠ 16) || a % 16 = 0)

/-- The 32-bit word at a local address. -/
def localWord (m : List Host.Cell) (a : Nat) : Word := BitVec.ofNat 32 (fromLE (memRead m a 4))

/-- The bytes of a data register. -/
def wordBytes (w : Word) : List Byte := toLE 4 w.toNat

end Sys2Proof.Machine
end

