-- ==== Sys2Proof/Machine/Flags.lean ====
section
/-!
DEFINITION. The arithmetic of the A slot (R238 to R240): results, flags, accumulation, division, conditions.
-/

namespace Sys2Proof.Machine

/-- What an A slot writes: data registers by physical number, accumulators, a control register, the flags, AOV and DQ. -/
structure AEffect where
  d : List (Nat × Word)
  a : List (Nat × Int)
  ctl : Option (Nat × Nat)
  flags : Option (Bool × Bool × Bool × Bool)
  aov : Bool
  dq : Option Bool
  deriving DecidableEq, Repr

/-- An A slot that writes nothing. -/
def AEffect.none : AEffect := { d := [], a := [], ctl := .none, flags := .none, aov := false, dq := .none }

/-- Saturation to a signed range of `w` bits; whether it changed the value. -/
def satTo (w : Nat) (v : Int) : Int × Bool :=
  if v < -(2 ^ (w - 1) : Int) then (-(2 ^ (w - 1) : Int), true)
  else if (2 ^ (w - 1) : Int) ≤ v then ((2 ^ (w - 1) : Int) - 1, true)
  else (v, false)

/-- An accumulation (R239): saturated to 72 bits, then as SATW says; whether it saturated. -/
def accumulate (satw : Nat) (v : Int) : Int × Bool :=
  let r := satTo 72 v
  let q := if satw = 1 then satTo 40 r.1 else if satw = 2 then satTo 32 r.1 else (r.1, false)
  (q.1, r.2 || q.2)

/-- A factor of a product, signed or unsigned. -/
def factor (uns : Bool) (w : Word) : Int := if uns then (w.toNat : Int) else w.toInt

/-- Z and N of a result. -/
def zn (r : Word) : Bool × Bool := (r = 0, r.msb)

/-- The 32-bit operations that write a data register: the result. Shifts by 32 or more and the absolute value of the most negative
number are open. -/
def alu (op : AOp) (x y : Word) : Word :=
  match op with
  | .add => x + y
  | .sub => x - y
  | .adds => BitVec.ofInt 32 (satTo 32 (x.toInt + y.toInt)).1
  | .subs => BitVec.ofInt 32 (satTo 32 (x.toInt - y.toInt)).1
  | .and => x &&& y
  | .or => x ||| y
  | .xor => x ^^^ y
  | .shl => if y.toNat < 32 then x <<< y.toNat else BitVec.ofNat 32 (Config.shiftOver 8 x.toNat y.toNat)
  | .shr => if y.toNat < 32 then x >>> y.toNat else BitVec.ofNat 32 (Config.shiftOver 9 x.toNat y.toNat)
  | .asr => if y.toNat < 32 then x.sshiftRight y.toNat else BitVec.ofNat 32 (Config.shiftOver 10 x.toNat y.toNat)
  | .min => if x.toInt ≤ y.toInt then x else y
  | .max => if y.toInt ≤ x.toInt then x else y
  | .abs => if x = BitVec.ofNat 32 (2 ^ 31) then BitVec.ofNat 32 Config.absMin else if x.msb then -x else x
  | .mul => x * y
  | _ => x - y

/-- C of an operation: the carry of ADD; open for the others. -/
def carryFlag (op : AOp) (x y : Word) : Bool :=
  if op = .add then decide (2 ^ 32 ≤ x.toNat + y.toNat) else Config.carryOf op.code x.toNat y.toNat

/-- V of an operation: the signed overflow of ADD, SUB and CMP; open for the others. -/
def overflowFlag (op : AOp) (x y : Word) : Bool :=
  if op = .add then (satTo 32 (x.toInt + y.toInt)).2
  else if op = .sub || op = .cmp then (satTo 32 (x.toInt - y.toInt)).2
  else Config.overflowOf op.code x.toNat y.toNat

/-- The flags of an operation with a result. -/
def aluFlags (op : AOp) (x y r : Word) : Bool × Bool × Bool × Bool := ((zn r).1, (zn r).2, carryFlag op x y, overflowFlag op x y)

/-- One step of non-restoring division (R240) on an accumulator: its new value and DQ. -/
def divStep (a : Int) (d : Nat) (dq : Bool) : Int × Bool :=
  let low : Nat := (a % 2 ^ 32).toNat
  let rem : Int := a / 2 ^ 32
  let shifted : Int := 2 * rem + ((low / 2 ^ 31 : Nat) : Int)
  let rem : Int := if dq then shifted - (d : Int) else shifted + (d : Int)
  let rem : Int := toSigned 40 (ofSigned 40 rem)
  let q := decide (0 ≤ rem)
  (rem * 2 ^ 32 + ((low * 2 % 2 ^ 32 + b2n q : Nat) : Int), q)

/-- DFIX: the remainder is made exact. -/
def divFix (a : Int) (d : Nat) : Int :=
  let low : Int := a % 2 ^ 32
  let rem : Int := a / 2 ^ 32
  toSigned 40 (ofSigned 40 (if rem < 0 then rem + (d : Int) else rem)) * 2 ^ 32 + low

/-- AEXT: round(a / 2^SHIFT), halves upward, saturated to 32 bits (R239). -/
def extract (a : Int) (shift : Nat) : Word :=
  BitVec.ofInt 32 (satTo 32 (if shift = 0 then a else (a + 2 ^ (shift - 1)) / 2 ^ shift)).1

/-- The four registers of a quad. -/
def Bank.quad (b : Bank) (r : Nat) : List Word := (List.range 4).map (fun k => b.dreg (r + k))

/-- A condition (R249): 0 always, then the flags and their complements, then the signed comparisons; 13 to 15 are reserved. -/
def condHolds (b : Bank) (c : Nat) : Option Bool :=
  match c with
  | 0 => some true
  | 1 => some b.z
  | 2 => some (!b.z)
  | 3 => some b.n
  | 4 => some (!b.n)
  | 5 => some b.c
  | 6 => some (!b.c)
  | 7 => some b.v
  | 8 => some (!b.v)
  | 9 => some (b.n != b.v)
  | 10 => some (b.n == b.v)
  | 11 => some (!b.z && (b.n == b.v))
  | 12 => some (b.z || (b.n != b.v))
  | _ => none

end Sys2Proof.Machine
end

