-- ==== Sys2Proof/Machine/LaneWord.lean ====
section
/-!
DEFINITION. The instruction words of the Mitten lanes as 64 bits (R247 to R249): what a word spells, and the word that spells it.
-/

namespace Sys2Proof

/-- The operations of the A slot and of the L slot. -/
def AOp.all : List AOp :=
  [.nop, .add, .sub, .adds, .subs, .and, .or, .xor, .shl, .shr, .asr, .min, .max, .abs, .mul, .mov, .mac, .msu, .dot4, .vmac4, .aclr, .aext, .ald, .aadd,
   .dstep, .dfix, .movcTo, .movcFrom, .cmp]
def LOp.all : List LOp := [.ld8s, .ld16s, .ld32, .ld64, .ldq, .st8, .st16, .st32, .st64, .stq, .pset, .pget]

/-- The A slot of a NOP. -/
def ASlot.idle : ASlot := { op := .nop, x := { dst := 0, src1 := 0, src2 := 0, satw := 0, uns := false, shift := 0 } }

/-- An A slot of 31 bits (R248); none where its opcode is reserved. -/
def ASlot.ofBits (v : Nat) : Option ASlot :=
  (AOp.all.find? (fun o => o.code = bitsOf v 30 24)).map (fun o =>
    if o = .nop then .idle
    else { op := o, x := { dst := bitsOf v 23 19, src1 := bitsOf v 18 14, src2 := bitsOf v 13 9, satw := bitsOf v 8 7, uns := bitOf v 6 = 1, shift := bitsOf v 5 0 } })

/-- An L slot of 31 bits (R248); none where its opcode is reserved or a reserved field is not zero. -/
def LSlot.ofBits (v : Nat) : Option LSlot :=
  let code := bitsOf v 30 26
  if code = 0 then some .nop
  else if code = 11 then
    if bitsOf v 9 0 ≠ 0 then none
    else some (.ldxy { quadX := bitsOf v 25 23, quadY := bitsOf v 22 20, ptrX := bitsOf v 19 17, ptrY := bitsOf v 16 14, updX := bitsOf v 13 12, updY := bitsOf v 11 10 })
  else if bitsOf v 15 14 ≠ 0 then none
  else (LOp.all.find? (fun o => o.code = code)).map (fun o =>
    .mem o { reg := bitsOf v 25 21, ptr := bitsOf v 20 18, upd := bitsOf v 17 16, offset := toSigned 14 (bitsOf v 13 0) })

/-- A CONTROL word's operands (R249); none where its opcode is reserved. -/
def Control.ofBits (v : Nat) : Option Control :=
  match bitsOf v 61 56 with
  | 1 => some (.br (bitsOf v 55 52) (toSigned 24 (bitsOf v 23 0)))
  | 2 => some (.call (bitsOf v 55 52) (toSigned 24 (bitsOf v 23 0)))
  | 3 => some .ret
  | 4 => some (.loop (bitOf v 55) (bitOf v 54 = 1) (bitOf v 53 = 1) (if bitOf v 53 = 1 then bitsOf v 52 48 else bitsOf v 52 37) (bitsOf v 11 0 + 1))
  | 5 => some (.wait (bitsOf v 55 54) (bitsOf v 15 0))
  | 6 => some (.signal (bitsOf v 55 53) (bitsOf v 5 0))
  | 7 => some (.spawn (bitsOf v 55 51) (bitsOf v 50 46) (bitsOf v 45 41))
  | 8 => some (.fetch (bitsOf v 55 51) (bitsOf v 50 46) (bitsOf v 45 40 + 1))
  | 9 => some (.put (bitsOf v 55 51) (bitsOf v 50 46) (bitsOf v 45 40 + 1))
  | 10 => some .fence
  | _ => none

/-- What a word of 64 bits spells (R247); none where its format or an opcode is reserved, or a reserved field is not zero. -/
def MWord.ofBits (v : Nat) : Option MWord :=
  match bitsOf v 63 62 with
  | 0 =>
    match ASlot.ofBits (bitsOf v 61 31), LSlot.ofBits (bitsOf v 30 0) with
    | some a, some l => some (.pair a l)
    | _, _ => none
  | 1 =>
    if bitsOf v 49 32 ≠ 0 then none
    else (AOp.all.find? (fun o => o.code = bitsOf v 61 55)).map (fun o =>
      if o = .nop then .pair .idle .nop else .long o (bitsOf v 54 50) (bitsOf v 31 0))
  | 2 => (Control.ofBits v).map .control
  | _ => none

/-- The bits of an A slot. -/
def ASlot.bits (a : ASlot) : Nat :=
  a.op.code * 2 ^ 24 + a.x.dst * 2 ^ 19 + a.x.src1 * 2 ^ 14 + a.x.src2 * 2 ^ 9 + a.x.satw * 2 ^ 7 + b2n a.x.uns * 2 ^ 6 + a.x.shift

/-- The bits of an L slot. -/
def LSlot.bits : LSlot → Nat
  | .nop => 0
  | .mem o x => o.code * 2 ^ 26 + x.reg * 2 ^ 21 + x.ptr * 2 ^ 18 + x.upd * 2 ^ 16 + ofSigned 14 x.offset
  | .ldxy x => 11 * 2 ^ 26 + x.quadX * 2 ^ 23 + x.quadY * 2 ^ 20 + x.ptrX * 2 ^ 17 + x.ptrY * 2 ^ 14 + x.updX * 2 ^ 12 + x.updY * 2 ^ 10

/-- The bits of a CONTROL word below its format. -/
def Control.bits : Control → Nat
  | .br c o => 1 * 2 ^ 56 + c * 2 ^ 52 + ofSigned 24 o
  | .call c o => 2 * 2 ^ 56 + c * 2 ^ 52 + ofSigned 24 o
  | .ret => 3 * 2 ^ 56
  | .loop level rotate isReg count body =>
    4 * 2 ^ 56 + level * 2 ^ 55 + b2n rotate * 2 ^ 54 + b2n isReg * 2 ^ 53 + (if isReg then count * 2 ^ 48 else count * 2 ^ 37) + (body - 1)
  | .wait mode value => 5 * 2 ^ 56 + mode * 2 ^ 54 + value
  | .signal cluster event => 6 * 2 ^ 56 + cluster * 2 ^ 53 + event
  | .spawn e a r => 7 * 2 ^ 56 + e * 2 ^ 51 + a * 2 ^ 46 + r * 2 ^ 41
  | .fetch l p w => 8 * 2 ^ 56 + l * 2 ^ 51 + p * 2 ^ 46 + (w - 1) * 2 ^ 40
  | .put l p w => 9 * 2 ^ 56 + l * 2 ^ 51 + p * 2 ^ 46 + (w - 1) * 2 ^ 40
  | .fence => 10 * 2 ^ 56

/-- The 64 bits of a word. -/
def MWord.bits : MWord → Nat
  | .pair a l => a.bits * 2 ^ 31 + l.bits
  | .long o dst imm => 2 ^ 62 + o.code * 2 ^ 55 + dst * 2 ^ 50 + imm
  | .control c => 2 ^ 63 + c.bits

end Sys2Proof
end

