-- ==== Sys2Proof/Machine/MittenWords.lean ====
section
/-!
DEFINITION. The instruction words of the Mitten lanes (R235 to R250) and the events of the Hatstand that have rows of their own
(R243, R255, R256, R258, R260).
-/

namespace Sys2Proof

/-- The operands of an A slot as a word gives them: in a LONG word the immediate replaces SRC2 and the other fields are not there. -/
structure AIn where
  dst : Nat
  src1 : Nat
  src2 : Nat
  satw : Nat
  uns : Bool
  shift : Nat
  imm : Option Nat
  deriving DecidableEq, Repr

/-- The operands of a PAIR's A slot. -/
def AArgs.toIn (x : AArgs) : AIn := { dst := x.dst, src1 := x.src1, src2 := x.src2, satw := x.satw, uns := x.uns, shift := x.shift, imm := none }

/-- The operands of a LONG word. -/
def longIn (dst imm : Nat) : AIn := { dst := dst, src1 := 0, src2 := 0, satw := 0, uns := false, shift := 0, imm := some imm }

/-- The bytes that a memory operation moves. -/
def LOp.size : LOp → Nat
  | .ld8s => 1 | .st8 => 1 | .ld16s => 2 | .st16 => 2 | .ld32 => 4 | .st32 => 4 | .ld64 => 8 | .st64 => 8 | _ => 16

/-- Whether a memory operation names its registers legally: an even pair, a quad at a multiple of 4. -/
def LOp.regOk (op : LOp) (r : Nat) : Bool :=
  match op with
  | .ld64 => r % 2 = 0
  | .st64 => r % 2 = 0
  | .ldq => r % 4 = 0
  | .stq => r % 4 = 0
  | _ => true

/-- Whether an operation stores. -/
def LOp.stores : LOp → Bool
  | .st8 => true | .st16 => true | .st32 => true | .st64 => true | .stq => true | _ => false

end Sys2Proof

namespace Sys2Proof.Machine

/-! ### The A slot -/

/-- The value of SRC1. -/
def aInX (i : AIn) (op : AOp) (b : Bank) : Word :=
  match i.imm with
  | none => b.dreg i.src1
  | some _ => BitVec.ofNat 32 (Config.longSrc1 op.code i.dst)

/-- The value of SRC2, or the immediate. -/
def aInY (i : AIn) (b : Bank) : Word :=
  match i.imm with
  | none => b.dreg i.src2
  | some v => BitVec.ofNat 32 v

/-- The single source of an operation that takes one: SRC1, or the immediate. -/
def aInSingle (i : AIn) (b : Bank) : Word :=
  match i.imm with
  | none => b.dreg i.src1
  | some v => BitVec.ofNat 32 v

/-- The products of the quads of DOT4 and VMAC4; none where a quad is misaligned. -/
def aInQuads (i : AIn) (op : AOp) (b : Bank) : Option (List Int) :=
  match i.imm with
  | none =>
    if i.src1 % 4 = 0 && i.src2 % 4 = 0 then
      some (((b.quad i.src1).zip (b.quad i.src2)).map (fun p => factor i.uns p.1 * factor i.uns p.2))
    else none
  | some v => some ((List.range 4).map (fun k => toSigned 64 (Config.longQuad op.code v k)))

/-- A result in a data register, with its flags. -/
def writeReg (b : Bank) (dst : Nat) (r : Word) (fl : Option (Bool × Bool × Bool × Bool)) : AEffect :=
  { AEffect.none with d := [(physReg b.rot dst, r)], flags := fl }

/-- A result in an accumulator. -/
def writeAcc (dst satw : Nat) (v : Int) : AEffect :=
  { AEffect.none with a := [(dst, (accumulate satw v).1)], aov := (accumulate satw v).2 }

/-- What an A slot writes; none where it is illegal. `ctlOf` reads the control registers. -/
def aSlot (b : Bank) (ctlOf : Nat → Nat) (op : AOp) (i : AIn) : Option AEffect :=
  match op with
  | .nop => some .none
  | .mov => some (writeReg b i.dst (aInSingle i b) none)
  | .abs => some (writeReg b i.dst (alu .abs (aInSingle i b) 0) (some (aluFlags .abs (aInSingle i b) 0 (alu .abs (aInSingle i b) 0))))
  | .cmp => some { AEffect.none with flags := some (aluFlags .cmp (aInX i .cmp b) (aInY i b) (alu .cmp (aInX i .cmp b) (aInY i b))) }
  | .mac => if i.dst < 8 && i.satw < 3 then some (writeAcc i.dst i.satw (b.acc i.dst + factor i.uns (aInX i .mac b) * factor i.uns (aInY i b))) else none
  | .msu => if i.dst < 8 && i.satw < 3 then some (writeAcc i.dst i.satw (b.acc i.dst - factor i.uns (aInX i .msu b) * factor i.uns (aInY i b))) else none
  | .dot4 =>
    match aInQuads i .dot4 b with
    | some ps => if i.dst < 8 && i.satw < 3 then some (writeAcc i.dst i.satw (b.acc i.dst + ps.sum)) else none
    | none => none
  | .vmac4 =>
    match aInQuads i .vmac4 b with
    | some ps =>
      if (i.dst = 0 || i.dst = 4) && i.satw < 3 then
        let rs := ps.mapIdx (fun k p => (i.dst + k, accumulate i.satw (b.acc (i.dst + k) + p)))
        some { AEffect.none with a := rs.map (fun r => (r.1, r.2.1)), aov := rs.any (fun r => r.2.2) }
      else none
    | none => none
  | .aclr => if i.dst < 8 then some { AEffect.none with a := [(i.dst, 0)] } else none
  | .aext =>
    match i.imm with
    | none => if i.src1 < 8 then some (writeReg b i.dst (extract (b.acc i.src1) i.shift) none) else none
    | some _ => some (writeReg b i.dst (extract (b.acc (Config.longSrc1 21 i.dst % 8)) 0) none)
  | .ald => if i.dst < 8 && i.satw < 3 then some (writeAcc i.dst i.satw (factor i.uns (aInSingle i b) * 2 ^ i.shift)) else none
  | .aadd =>
    match i.imm with
    | none => if i.dst < 8 && i.src1 < 8 && i.src2 < 8 && i.satw < 3 then some (writeAcc i.dst i.satw (b.acc i.src1 + b.acc i.src2)) else none
    | some v => if i.dst < 8 then some (writeAcc i.dst 0 (b.acc (Config.longSrc1 23 i.dst % 8) + (BitVec.ofNat 32 v).toInt)) else none
  | .dstep =>
    if i.dst < 8 then
      let r := divStep (b.acc i.dst) (aInSingle i b).toNat b.dq
      some { AEffect.none with a := [(i.dst, r.1)], dq := some r.2 }
    else none
  | .dfix => if i.dst < 8 then some { AEffect.none with a := [(i.dst, divFix (b.acc i.dst) (aInSingle i b).toNat)] } else none
  | .movcTo => if i.dst < 16 then some { AEffect.none with ctl := some (i.dst, (aInSingle i b).toNat) } else none
  | .movcFrom =>
    match i.imm with
    | none => if i.src1 < 16 then some (writeReg b i.dst (BitVec.ofNat 32 (ctlOf i.src1)) none) else none
    | some _ => some (writeReg b i.dst (BitVec.ofNat 32 (ctlOf (Config.longSrc1 33 i.dst % 16))) none)
  | op => some (writeReg b i.dst (alu op (aInX i op b) (aInY i b)) (some (aluFlags op (aInX i op b) (aInY i b) (alu op (aInX i op b) (aInY i b)))))

/-! ### The L slot -/

/-- What an L slot writes: data registers, pointers, steps, bases, lengths, and memory. `extra` is a second cycle. -/
structure LEffect where
  d : List (Nat × Word)
  p : List (Nat × Nat)
  s : List (Nat × Int)
  b : List (Nat × Nat)
  l : List (Nat × Nat)
  mem : List (Nat × List Byte)
  extra : Nat
  deriving DecidableEq, Repr

/-- An L slot that writes nothing. -/
def LEffect.none : LEffect := { d := [], p := [], s := [], b := [], l := [], mem := [], extra := 0 }

/-- How an L slot ends: with its writes, illegal, or with an ACCESS fault. -/
inductive LResult where
  | done (e : LEffect)
  | illegal
  | access
  deriving DecidableEq, Repr

/-- The data registers that a load writes. -/
def loadRegs (b : Bank) (m : List Host.Cell) (op : LOp) (r a : Nat) : List (Nat × Word) :=
  match op with
  | .ld8s => [(physReg b.rot r, BitVec.ofInt 32 (toSigned 8 (fromLE (memRead m a 1))))]
  | .ld16s => [(physReg b.rot r, BitVec.ofInt 32 (toSigned 16 (fromLE (memRead m a 2))))]
  | op => (List.range (op.size / 4)).map (fun k => (physReg b.rot (r + k), localWord m (a + 4 * k)))

/-- The bytes that a store writes. -/
def storeBytes (b : Bank) (op : LOp) (r : Nat) : List Byte :=
  ((List.range 4).flatMap (fun k => wordBytes (b.dreg (r + k)))).take op.size

/-- A pointer, step, base or length register moved to or from a data register. -/
def pointerMove (b : Bank) (toReg : Bool) (x : LArgs) : LEffect :=
  let v := (b.dreg x.reg).toNat
  match (x.offset % 4).toNat, toReg with
  | 0, false => { LEffect.none with p := [(x.ptr, v)] }
  | 1, false => { LEffect.none with s := [(x.ptr, toSigned 16 v)] }
  | 2, false => { LEffect.none with b := [(x.ptr, v % 65536)] }
  | _, false => { LEffect.none with l := [(x.ptr, v % 65536)] }
  | 0, true => { LEffect.none with d := [(physReg b.rot x.reg, BitVec.ofNat 32 (b.p.getD x.ptr 0))] }
  | 1, true => { LEffect.none with d := [(physReg b.rot x.reg, BitVec.ofInt 32 (b.s.getD x.ptr 0))] }
  | 2, true => { LEffect.none with d := [(physReg b.rot x.reg, BitVec.ofNat 32 (b.b.getD x.ptr 0))] }
  | _, true => { LEffect.none with d := [(physReg b.rot x.reg, BitVec.ofNat 32 (b.l.getD x.ptr 0))] }

/-- A memory operation, PSET or PGET. -/
def memSlot (k : BankId) (b : Bank) (m : List Host.Cell) (op : LOp) (x : LArgs) : LResult :=
  match op with
  | .pset => .done (pointerMove b false x)
  | .pget => .done (pointerMove b true x)
  | op =>
    match b.nextPtr x.ptr x.upd with
    | none => .illegal
    | some p =>
      if !op.regOk x.reg then .illegal
      else
        let a := b.address x.ptr x.offset
        if !localOk k a op.size then .access
        else
          let e := { LEffect.none with p := if x.upd = 0 then [] else [(x.ptr, p)] }
          .done (if op.stores then { e with mem := [(a, storeBytes b op x.reg)] } else { e with d := loadRegs b m op x.reg a })

/-- LDXY: a quad from each of two pointers, in two cycles if both lie in one bank. -/
def xySlot (k : BankId) (b : Bank) (m : List Host.Cell) (x : XYArgs) : LResult :=
  match b.nextPtr x.ptrX x.updX, b.nextPtr x.ptrY x.updY with
  | some px, some py =>
    let ax := b.address x.ptrX 0
    let ay := b.address x.ptrY 0
    if !localOk k ax 16 || !localOk k ay 16 then .access
    else
      let dx := loadRegs b m .ldq (4 * x.quadX) ax
      let dy := loadRegs b m .ldq (4 * x.quadY) ay
      let wx := if x.updX = 0 then [] else [(x.ptrX, px)]
      let wy := if x.updY = 0 then [] else [(x.ptrY, py)]
      .done { LEffect.none with d := if Config.ldxyXLast then dy ++ dx else dx ++ dy, p := if Config.ldxyXLast then wy ++ wx else wx ++ wy,
                                extra := if ax / 8192 = ay / 8192 then 1 else 0 }
  | _, _ => .illegal

/-- An L slot. -/
def lSlot (k : BankId) (b : Bank) (m : List Host.Cell) : LSlot → LResult
  | .nop => .done .none
  | .mem op x => memSlot k b m op x
  | .ldxy x => xySlot k b m x

/-! ### Writing back -/

/-- A list of registers with some of them written, the last write standing. -/
def putAll {α : Type} (l : List α) (ws : List (Nat × α)) : List α := ws.foldl (fun l w => updateAt l w.1 (fun _ => w.2)) l

/-- Whether the two slots of a word write one register. -/
def clash (a : AEffect) (l : LEffect) : Bool := a.d.any (fun w => l.d.any (fun v => v.1 = w.1))

/-- The bank after both slots have written. -/
def Bank.write (b : Bank) (a : AEffect) (l : LEffect) : Bank :=
  let b := { b with d := putAll (putAll b.d a.d) l.d, a := putAll b.a a.a, p := putAll b.p l.p, s := putAll b.s l.s, b := putAll b.b l.b, l := putAll b.l l.l,
                    aov := b.aov || a.aov, dq := a.dq.getD b.dq }
  let b := match a.flags with
    | some f => { b with z := f.1, n := f.2.1, c := f.2.2.1, v := f.2.2.2 }
    | none => b
  match a.ctl with
  | some w => b.setControl w.1 w.2
  | none => b

/-- Memory after the stores of a word. -/
def writeLocal (m : List Host.Cell) (ws : List (Nat × List Byte)) : List Host.Cell := ws.foldl (fun m w => memWrite m w.1 w.2) m

/-! ### The program counter and the loops (R237, R245, R246) -/

/-- A branch: a level whose body it leaves becomes inactive, and level 0 with level 1. -/
def Bank.branch (b : Bank) (target : Nat) : Bank :=
  let out1 := b.lc1 ≠ 0 && (decide (target < b.ls1) || decide (b.le1 < target))
  let out0 := b.lc0 ≠ 0 && (decide (target < b.ls0) || decide (b.le0 < target))
  { b with lc1 := if out1 then 0 else b.lc1, lc0 := if out0 || out1 then 0 else b.lc0, pc := target }

/-- The address of the last word of a loop body of `n` words that follows the word at `pc`. -/
def bodyEnd (pc n : Nat) : Nat := pc + 8 * n

/-- LOOP; none where it is illegal. A count of zero leaves LC at 0, so that the level stays inactive, and skips the body. -/
def loopWord (b : Bank) (codeLen level : Nat) (rotate : Bool) (count body : Nat) : Option Bank :=
  let start := b.pc + 8
  let stop := bodyEnd b.pc body
  let otherRotates := if level = 0 then b.lc1 ≠ 0 && b.rot1 else b.lc0 ≠ 0 && b.rot0
  if 65535 < count || codeLen ≤ stop || (level = 0 && b.lc0 ≠ 0) || (level = 1 && (b.lc1 ≠ 0 || b.lc0 ≠ 0)) || (rotate && otherRotates) then none
  else
    let next := if count = 0 then stop + 8 else start
    if level = 0 then some { b with lc0 := count, ls0 := start, le0 := stop, rot0 := rotate, pc := next }
    else some { b with lc1 := count, ls1 := start, le1 := stop, rot1 := rotate, pc := next }

/-- The target of a branch; none beyond the code. -/
def branchTarget (b : Bank) (codeLen : Nat) (offset : Int) : Option Nat :=
  let t : Int := (b.pc : Int) + (if Config.branchFromNext then 8 else 0) + 8 * offset
  if 0 ≤ t && decide (t < (codeLen : Int)) then some t.toNat else none

/-! ### Issuing a word -/

/-- The word at an address of the program memory's half that a thread's generation uses (R233); none beyond the code. -/
def codeWord (s : State) (x : Thread) (pc : Nat) : Option Nat :=
  if pc % 8 = 0 then ((codeOf (generationOf s x.generation)).code[pc / 8]?).map BitVec.toNat else none

/-- A lane that can issue a word: the bank that runs and its thread. A normal thread is preempted before its next word by a READY privileged
one (R255), and a bank that waits for its transfers issues nothing (R243). -/
def issuing (s : State) (l : Nat) : Option (BankId × Nat × Thread) :=
  let lane := laneOf s l
  if !(inService s && decide (l < 64) && inServiceEngine s 3 (l / 8) && !s.faults.resetting.contains (engineId 3 (l / 8))) then none
  else
    match lane.active with
    | none => none
    | some k =>
      if (lane.bank k).fenced || (k = .normal && (readyPrivOf s l).isSome) then none
      else
        match lane.threadIn k with
        | none => none
        | some t => (threadOf s t).map (fun x => (k, t, x))

/-- The code length of a thread's generation, in bytes. -/
def codeLength (s : State) (x : Thread) : Nat := 8 * (codeOf (generationOf s x.generation)).code.length

/-- A fault of the thread in a bank; one of a restarting entry is a failure of the cluster (R260). -/
def threadFault (s : State) (l : Nat) (k : BankId) (code : Nat) : State :=
  let r := faultThread s l k code
  if r.2 then audioFailure r.1 (l / 8) else r.1

/-- The lane with the bank of a word replaced, and its cycles counted. -/
def putBank (s : State) (l : Nat) (k : BankId) (b : Bank) (cycles : Nat) : State := withLane s l (((laneOf s l).withBank k b).ran k cycles)

/-- A PAIR or LONG word: both slots read before either writes. -/
def runSlots (s : State) (l : Nat) (k : BankId) (t : Nat) (x : Thread) (op : AOp) (i : AIn) (ls : LSlot) : State :=
  let lane := laneOf s l
  let b := lane.bank k
  match aSlot b (controlReg s l b t x.generation) op i with
  | none => threadFault s l k 1
  | some a =>
    match lSlot k b lane.mem ls with
    | .illegal => threadFault s l k 1
    | .access => threadFault s l k 2
    | .done e =>
      if clash a e then threadFault s l k 1
      else
        let s := withLane s l { lane with mem := writeLocal lane.mem e.mem }
        putBank s l k (b.write a e).advance (1 + e.extra)

/-- FETCH and PUT (R243): a ninth transfer stalls the lane. -/
def transferWord (s : State) (l : Nat) (k : BankId) (isPut : Bool) (localReg pair words : Nat) : State :=
  let b := (laneOf s l).bank k
  if pair % 2 ≠ 0 then threadFault s l k 1
  else
    let a := (b.dreg localReg).toNat
    let g := ((b.dreg pair).toNat + (b.dreg (pair + 1)).toNat * 2 ^ 32) % 2 ^ 48
    if a % 64 ≠ 0 || g % 64 ≠ 0 || !decide (a + 64 * words ≤ 16384) || (k = .normal && decide (14336 < a + 64 * words)) then threadFault s l k 2
    else if 8 ≤ b.transfers.length then s
    else
      let x : Transfer := { isPut := isPut, localAddr := a, address := g, words := words }
      putBank s l k ({ b with transfers := b.transfers ++ [x] }).advance 1

/-- SPAWN (R263): the index of the new thread, or all ones. -/
def spawnThread (s : State) (x : Thread) (entry arg : Nat) : State × Nat :=
  match entryOf (generationOf s x.generation) entry with
  | none => (s, 2 ^ 32 - 1)
  | some e =>
    if e.privileged || e.cost ≠ 0 then (s, 2 ^ 32 - 1)
    else
      match freeIndex s with
      | none => (s, 2 ^ 32 - 1)
      | some t => (createThread s t entry x.cluster 0 arg e false, t)

/-- A CONTROL word. -/
def runControl (s : State) (l : Nat) (k : BankId) (x : Thread) (c : Control) : State :=
  let b := (laneOf s l).bank k
  match c with
  | .br cond off =>
    match condHolds b cond, branchTarget b (codeLength s x) off with
    | some true, some t => putBank s l k (b.branch t) 3
    | some false, _ => putBank s l k b.advance 1
    | _, _ => threadFault s l k 1
  | .call cond off =>
    match condHolds b cond, branchTarget b (codeLength s x) off with
    | some true, some t => putBank s l k ({ b with link := b.pc + 8 }.branch t) 3
    | some false, _ => putBank s l k b.advance 1
    | _, _ => threadFault s l k 1
  | .ret => if b.link % 8 = 0 && decide (b.link < codeLength s x) then putBank s l k (b.branch b.link) 3 else threadFault s l k 1
  | .loop level rotate isReg count body =>
    match loopWord b (codeLength s x) level rotate (if isReg then (b.dreg count).toNat else count) body with
    | some b => putBank s l k b 1
    | none => threadFault s l k 1
  | .wait mode value =>
    if mode = 2 && 63 < value then threadFault s l k 1
    else if b.transfers.isEmpty then doWait (putBank s l k b 1) l k mode value
    else putBank s l k { b with fenced := true, waitNext := some (mode, value) } 1
  | .signal cluster event => if event < 16 then threadFault s l k 1 else signalEvent (putBank s l k b.advance 1) cluster event
  | .spawn entry arg result =>
    let r := spawnThread s x (b.dreg entry).toNat (b.dreg arg).toNat
    let s := putBank r.1 l k ({ b with d := updateAt b.d (physReg b.rot result) (fun _ => BitVec.ofNat 32 r.2) }).advance 1
    schedule s x.cluster
  | .fetch localReg pair words => transferWord s l k false localReg pair words
  | .put localReg pair words => transferWord s l k true localReg pair words
  | .fence => putBank s l k ({ b with fenced := !b.transfers.isEmpty }).advance 1

/-- A lane executes a word of its thread. -/
def runWord (s : State) (l : Nat) (k : BankId) (t : Nat) (x : Thread) (w : MWord) : State :=
  match w with
  | .pair a ls => runSlots s l k t x a.op a.x.toIn ls
  | .long op dst imm => runSlots s l k t x op (longIn dst imm) .nop
  | .control c => runControl s l k x c

/-- What the word at a lane's PC spells, for a lane that can issue one. -/
def nextWord (s : State) (l : Nat) : Option MWord :=
  match issuing s l with
  | some (k, _, x) => (codeWord s x ((laneOf s l).bank k).pc).bind MWord.ofBits
  | none => none

/-- A lane issues a word, if it is the word at its PC. A word there that spells none, or the end of the code, is ILLEGAL (R250). -/
def issue (s : State) (l : Nat) (w : MWord) : State :=
  match issuing s l with
  | none => s
  | some (k, t, x) =>
    match (codeWord s x ((laneOf s l).bank k).pc).bind MWord.ofBits with
    | none => threadFault s l k 1
    | some v => if v = w then runWord s l k t x w else s

/-- The word of an A-slot command. -/
def AForm.word (f : AForm) (op : AOp) : MWord :=
  match f with
  | .pair x ls => .pair { op := op, x := x } ls
  | .long dst imm => .long op dst imm

/-- An A-slot command. -/
def issueA (op : AOp) (w : LaneA) (s : State) : Host.Outcome State Fault Refusal := ok (issue s w.lane (AForm.word w.form op))

/-- An L-slot command. -/
def issueL (op : LOp) (w : LaneL) (s : State) : Host.Outcome State Fault Refusal := ok (issue s w.lane (.pair w.beside (.mem op w.x)))

/-- A CONTROL command. -/
def issueC (l : Nat) (c : Control) (s : State) : Host.Outcome State Fault Refusal := ok (issue s l (.control c))

/-- NOP in both slots: a word of all zeros. -/
def execNop (l : Nat) (s : State) : Host.Outcome State Fault Refusal :=
  ok (issue s l (.pair .idle .nop))

/-- ADD: addition. -/
def execAdd (w : LaneA) (s : State) : Host.Outcome State Fault Refusal := issueA .add w s
/-- SUB: subtraction. -/
def execSub (w : LaneA) (s : State) : Host.Outcome State Fault Refusal := issueA .sub w s
/-- ADDS: addition with saturation. -/
def execAdds (w : LaneA) (s : State) : Host.Outcome State Fault Refusal := issueA .adds w s
/-- SUBS: subtraction with saturation. -/
def execSubs (w : LaneA) (s : State) : Host.Outcome State Fault Refusal := issueA .subs w s
/-- AND: bitwise and. -/
def execAnd (w : LaneA) (s : State) : Host.Outcome State Fault Refusal := issueA .and w s
/-- OR: bitwise or. -/
def execOr (w : LaneA) (s : State) : Host.Outcome State Fault Refusal := issueA .or w s
/-- XOR: bitwise exclusive or. -/
def execXor (w : LaneA) (s : State) : Host.Outcome State Fault Refusal := issueA .xor w s
/-- SHL: shift left. -/
def execShl (w : LaneA) (s : State) : Host.Outcome State Fault Refusal := issueA .shl w s
/-- SHR: shift right. -/
def execShr (w : LaneA) (s : State) : Host.Outcome State Fault Refusal := issueA .shr w s
/-- ASR: arithmetic shift right. -/
def execAsr (w : LaneA) (s : State) : Host.Outcome State Fault Refusal := issueA .asr w s
/-- MIN: signed minimum. -/
def execMin (w : LaneA) (s : State) : Host.Outcome State Fault Refusal := issueA .min w s
/-- MAX: signed maximum. -/
def execMax (w : LaneA) (s : State) : Host.Outcome State Fault Refusal := issueA .max w s
/-- ABS: absolute value. -/
def execAbs (w : LaneA) (s : State) : Host.Outcome State Fault Refusal := issueA .abs w s
/-- MUL: product, low 32 bits. -/
def execMul (w : LaneA) (s : State) : Host.Outcome State Fault Refusal := issueA .mul w s
/-- MOV: register move. -/
def execMov (w : LaneA) (s : State) : Host.Outcome State Fault Refusal := issueA .mov w s
/-- MAC: multiply and accumulate (R238, R239). -/
def execMac (w : LaneA) (s : State) : Host.Outcome State Fault Refusal := issueA .mac w s
/-- MSU: multiply and subtract (R238, R239). -/
def execMsu (w : LaneA) (s : State) : Host.Outcome State Fault Refusal := issueA .msu w s
/-- DOT4: the sum of four products into one accumulator (R238). -/
def execDot4 (w : LaneA) (s : State) : Host.Outcome State Fault Refusal := issueA .dot4 w s
/-- VMAC4: four products into four accumulators (R238). -/
def execVmac4 (w : LaneA) (s : State) : Host.Outcome State Fault Refusal := issueA .vmac4 w s
/-- ACLR: an accumulator cleared. -/
def execAclr (w : LaneA) (s : State) : Host.Outcome State Fault Refusal := issueA .aclr w s
/-- AEXT: an accumulator extracted (R239). -/
def execAext (w : LaneA) (s : State) : Host.Outcome State Fault Refusal := issueA .aext w s
/-- ALD: an accumulator loaded. -/
def execAld (w : LaneA) (s : State) : Host.Outcome State Fault Refusal := issueA .ald w s
/-- AADD: accumulators added. -/
def execAadd (w : LaneA) (s : State) : Host.Outcome State Fault Refusal := issueA .aadd w s
/-- DSTEP: one step of division (R240). -/
def execDstep (w : LaneA) (s : State) : Host.Outcome State Fault Refusal := issueA .dstep w s
/-- DFIX: the remainder made exact (R240). -/
def execDfix (w : LaneA) (s : State) : Host.Outcome State Fault Refusal := issueA .dfix w s
/-- MOVCTO: a control register written (R236). -/
def execMovcTo (w : LaneA) (s : State) : Host.Outcome State Fault Refusal := issueA .movcTo w s
/-- MOVCFROM: a control register read (R236). -/
def execMovcFrom (w : LaneA) (s : State) : Host.Outcome State Fault Refusal := issueA .movcFrom w s
/-- CMP: comparison. -/
def execCmp (w : LaneA) (s : State) : Host.Outcome State Fault Refusal := issueA .cmp w s
/-- LD8S: a signed byte loaded. -/
def execLd8s (w : LaneL) (s : State) : Host.Outcome State Fault Refusal := issueL .ld8s w s
/-- LD16S: a signed half loaded. -/
def execLd16s (w : LaneL) (s : State) : Host.Outcome State Fault Refusal := issueL .ld16s w s
/-- LD32: a word loaded. -/
def execLd32 (w : LaneL) (s : State) : Host.Outcome State Fault Refusal := issueL .ld32 w s
/-- LD64: an even pair loaded. -/
def execLd64 (w : LaneL) (s : State) : Host.Outcome State Fault Refusal := issueL .ld64 w s
/-- LDQ: a quad loaded. -/
def execLdq (w : LaneL) (s : State) : Host.Outcome State Fault Refusal := issueL .ldq w s
/-- ST8: a byte stored. -/
def execSt8 (w : LaneL) (s : State) : Host.Outcome State Fault Refusal := issueL .st8 w s
/-- ST16: a half stored. -/
def execSt16 (w : LaneL) (s : State) : Host.Outcome State Fault Refusal := issueL .st16 w s
/-- ST32: a word stored. -/
def execSt32 (w : LaneL) (s : State) : Host.Outcome State Fault Refusal := issueL .st32 w s
/-- ST64: an even pair stored. -/
def execSt64 (w : LaneL) (s : State) : Host.Outcome State Fault Refusal := issueL .st64 w s
/-- STQ: a quad stored. -/
def execStq (w : LaneL) (s : State) : Host.Outcome State Fault Refusal := issueL .stq w s
/-- PSET: a pointer register written. -/
def execPset (w : LaneL) (s : State) : Host.Outcome State Fault Refusal := issueL .pset w s
/-- PGET: a pointer register read. -/
def execPget (w : LaneL) (s : State) : Host.Outcome State Fault Refusal := issueL .pget w s
/-- LDXY. -/
def execLdxy (l : Nat) (x : XYArgs) (beside : ASlot) (s : State) : Host.Outcome State Fault Refusal := ok (issue s l (.pair beside (.ldxy x)))

/-- BR (R249). -/
def execBr (l cond : Nat) (offset : Int) (s : State) : Host.Outcome State Fault Refusal := issueC l (.br cond offset) s
/-- CALL: LINK takes the address of the next word. -/
def execCall (l cond : Nat) (offset : Int) (s : State) : Host.Outcome State Fault Refusal := issueC l (.call cond offset) s
/-- RET (R250). -/
def execRet (l : Nat) (s : State) : Host.Outcome State Fault Refusal := issueC l .ret s
/-- LOOP (R245, R246). -/
def execLoop (l level : Nat) (rotate isReg : Bool) (count body : Nat) (s : State) : Host.Outcome State Fault Refusal :=
  issueC l (.loop level rotate isReg count body) s
/-- WAIT (R252). -/
def execWait (l mode value : Nat) (s : State) : Host.Outcome State Fault Refusal := issueC l (.wait mode value) s
/-- SIGNAL (R258). -/
def execSignal (l cluster event : Nat) (s : State) : Host.Outcome State Fault Refusal := issueC l (.signal cluster event) s
/-- SPAWN (R263). -/
def execSpawn (l entry arg result : Nat) (s : State) : Host.Outcome State Fault Refusal := issueC l (.spawn entry arg result) s
/-- FETCH (R243). -/
def execFetch (l localReg pair words : Nat) (s : State) : Host.Outcome State Fault Refusal := issueC l (.fetch localReg pair words) s
/-- PUT (R243). -/
def execPut (l localReg pair words : Nat) (s : State) : Host.Outcome State Fault Refusal := issueC l (.put localReg pair words) s
/-- FENCE (R243). -/
def execFence (l : Nat) (s : State) : Host.Outcome State Fault Refusal := issueC l .fence s

/-! ### Transfers, preemption, expiries -/

/-- The bank that a number names: 0 the normal one, 1 and 2 the privileged ones. -/
def bankOfNumber (n : Nat) : BankId := if n = 0 then .normal else if n = 1 then .slot0 else .slot1

/-- Whether word `k` of a FETCH comes back poisoned. -/
def wordPoisoned (s : State) (x : Transfer) (r : TransferResult) (k : Nat) : Bool := isPoisoned s (x.address / 64 + k) || r.poisoned.contains k

/-- The data of a FETCH with its poisoned words zeroed. -/
def fetchedBytes (s : State) (x : Transfer) (r : TransferResult) : List Byte :=
  (List.range x.words).flatMap (fun k => if wordPoisoned s x r k then zeros 64 else memRead s.mem (x.address + 64 * k) 64)

/-- The oldest transfer of a bank completes. -/
def endTransfer (s : State) (l : Nat) (k : BankId) (x : Transfer) (r : TransferResult) : State :=
  let lane := laneOf s l
  let b := lane.bank k
  let b := { b with transfers := b.transfers.drop 1, farError := b.farError || (!x.isPut && (List.range x.words).any (wordPoisoned s x r)) }
  let lane := { lane.withBank k b with mem := if x.isPut then lane.mem else memWrite lane.mem x.localAddr (fetchedBytes s x r) }
  let s := withLane s l lane
  let s := if x.isPut then store s x.address (memRead lane.mem x.localAddr (64 * x.words)) else s
  if b.fenced && b.transfers.isEmpty then
    match b.waitNext with
    | some (mode, value) => doWait (withLane s l (lane.withBank k { b with fenced := false, waitNext := none })) l k mode value
    | none => withLane s l (lane.withBank k { b with fenced := false })
  else s

/-- TRANSFER_DONE. An error response, and a transfer that the Crown refuses, is an ADDR fault of the thread (R243, R244). -/
def execTransferDone (l bank : Nat) (r : TransferResult) (s : State) : Host.Outcome State Fault Refusal :=
  let k := bankOfNumber bank
  let lane := laneOf s l
  match (lane.bank k).transfers, lane.threadIn k with
  | x :: _, some _ =>
    if !inService s then ok s
    else if r.error then ok (threadFault s l k 3)
    else
      let port := enginePort 3 (l / 8)
      match rangeReply s port x.address (64 * x.words) with
      | some e => ok (threadFault (answerCrown s port e.1 e.2) l k 3)
      | none => ok (endTransfer s l k x r)
  | _, _ => ok s

/-- PREEMPT: a READY privileged thread takes its lane from the normal thread that runs there. -/
def execPreempt (t : Nat) (s : State) : Host.Outcome State Fault Refusal :=
  match threadOf s t with
  | none => ok s
  | some x =>
    let l := 8 * x.cluster + x.lane
    if inService s && x.privileged && x.state = .ready && (laneOf s l).active = some .normal && readyPrivOf s l = some t then
      let s := adopt s t
      match threadOf s t with
      | none => ok s
      | some x => ok (dispatchPriv (bump s Reg.MITTEN.PREEMPTIONS) l t x)
    else ok s

/-- AFFINITY_EXPIRY: 2 us after a thread became READY any lane of its cluster may take it. -/
def execAffinityExpiry (t : Nat) (s : State) : Host.Outcome State Fault Refusal :=
  match threadOf s t with
  | none => ok s
  | some x =>
    if !inService s || x.state ≠ .ready || !x.affinity then ok s
    else
      match reach s (x.readyAt / Config.fracUnit + 2000) with
      | none => ok s
      | some s => ok (schedule (updThread s t (fun y => { y with affinity := false })) x.cluster)

/-- RUNAWAY: a thread has run RUN_LIMIT cycles since its dispatch. -/
def execRunaway (l : Nat) (s : State) : Host.Outcome State Fault Refusal :=
  let lane := laneOf s l
  match lane.active with
  | none => ok s
  | some k =>
    let run := match k with
      | .normal => lane.run
      | _ => lane.runPriv
    if inService s && decide (rd s Reg.MITTEN.MITTEN_CONFIG ≤ run) && (lane.threadIn k).isSome then ok (threadFault s l k 4) else ok s

end Sys2Proof.Machine
end

