-- ==== Sys2Proof/Machine/Effects.lean ====
section
/-!
DEFINITION. The effects of admitted directives at the next tick boundary (R60), the lateness of jobs at the end of a tick (R62 to R64), and
what leaves the tables at a boundary (R61, R106, R141).
-/

namespace Sys2Proof.Machine

/-! ### Effects (R60) -/

/-- The unfinished directive of an opcode with a SEQUENCE. -/
def deferredAt (s : State) (opcode sequence : Nat) : Option Deferred :=
  s.host.deferred.find? (fun d => d.opcode = opcode && d.sequence = sequence)

/-- A start-thread takes effect; an entry that the generation of the boundary does not give makes no thread. -/
def startThreadEffect (s : State) (t u entry arg : Nat) : State :=
  match entryOf s.trust.current entry with
  | some e => createThread s t entry u 0 arg e true
  | none => dropCharges s 8 t

/-- A set-memory-rate takes effect: with valid sets its completion reports RATE_CHANGED, and otherwise the stacks train (R419). -/
def memoryRateEffect (s : State) (point : Nat) : State :=
  match s.host.deferred.find? (fun d => d.opcode = 0x52) with
  | none => s
  | some d =>
    let s := beginPointChange s d point
    if s.near.retraining then s
    else
      let s := { s with near := { s.near with change := none } }
      finish ((poweredStacks s).foldl (fun s k => raise s (Reg.NEARMEM.MEM_EVENTS_RATE_CHANGED.on k)) s) d 0 0 0

/-- An archive-pages begins (R435). -/
def archiveEffect (s : State) (sequence first count key dest : Nat) : State :=
  match deferredAt s 0x53 sequence with
  | none => s
  | some d =>
    let j : ArchiveJob := { who := d, next := first, left := count, written := 0, key := key, dest := dest }
    runArchives { s with glove := { s.glove with archive := s.glove.archive ++ [j] } }

/-- What an admitted directive does at the boundary at which it takes effect. The number of set-seconds is that of the first edge of TIME_PPS_IN after
this boundary, and each further edge is one second later (log 107). -/
def applyEffect (s : State) (e : Effect) : State :=
  match e.directive with
  | .setLeg l c => applySetLeg s l c (e.info.getD 0 0) (e.info.getD 1 0)
  | .setParticipant i lo hi w => applySetParticipant s i lo hi w
  | .requestKeyframe sender => requestKeyframe s sender false
  | .setEncode i r => updEncode s i (fun x => { x with nextRate := some r })
  | .setRoute l mode gain => updSource s l (fun a => { a with nextRoute := some (mode, gain) })
  | .enableTalkerExport room record => applyTalkerExport s room record
  | .startThread entry _ arg => startThreadEffect s (e.info.getD 0 0) (e.info.getD 1 0) entry arg
  | .stopThread t => stopThread s t
  | .deliverKeyToken b _ => let t := readToken s.trust.keks b
    { s with trust := { s.trust with keks := (t.target, t.key) :: s.trust.keks.filter (fun k => k.1 ≠ t.target) } }
  | .sendTunnelMessage t label data => queueTunnel s t label none data
  | .sendFrame g c frame => sendSystem s g c frame (nowNs s)
  | .setShaper g c rate burst => setShaper s g (if c = 255 then 8 else c) rate burst
  | .setPortLpi m tw => wr s (Reg.ETH.LPI_CONFIG_TX_TW.on m) tw
  | .enablePon p disabled registration => enablePonEffect s p disabled registration
  | .setPonPort p i portId direction queue flags => withPon s p (fun x => { x with portIds := putPortId x.portIds i portId direction queue flags })
  | .setPonMap p c a => withPon s p (fun x => { x with classMap := putClass x.classMap c a })
  | .sendOmci p m => withPon s p (fun x => { x with omciQueue := x.omciQueue ++ [m] })
  | .switchPon => { s with pon := { s.pon with switchRequested := true } }
  | .setSeconds n => { s with time := { s.time with nextSecond := some n } }
  | .setMemoryRate point => memoryRateEffect s point
  | .archivePages first count key dest => archiveEffect s (e.info.getD 0 0) first count key dest
  | .snapshotCounters blocks dest clear =>
    (match deferredAt s 0x57 (e.info.getD 0 0) with
    | some d => takeSnapshot s d blocks dest clear
    | none => s)
  | .engineReset kind index => beginReset s kind index
  | _ => s

/-- The effects of the previous tick's directives, in the order of their evaluation. -/
def applyEffects (s : State) : State := s.effects.foldl applyEffect { s with effects := [] }

/-- Admitted entries take effect. -/
def activateAll (s : State) : State :=
  let s := activateLegs s
  let s := (s.decodes.map (fun e => e.1)).foldl activateDecode s
  let s := (s.composites.map (fun e => e.1)).foldl activateComposite s
  let s := (s.encodes.map (·.1)).foldl activateEncode s
  let s := { s with mixes := s.mixes.all (fun _ (m : Mix) => if m.state = Life.admitted then { m with state := .active } else m) }
  switchEpochs ((s.gauntlet.tunnels.map (·.1)).foldl activateTunnel s)

/-! ### Releases (R61, R106, R326) -/

/-- DRAINING tunnels with nothing left to send become FREE. -/
def freeTunnels (s : State) : State :=
  (s.gauntlet.tunnels.filter (fun e => e.2.state = .draining && !tunnelBusy s e.1 e.2)).foldl (fun s e => freeTunnel s e.1 e.2) s

/-- The entries whose work has drained become FREE, and their charges go. -/
def freeAll (s : State) : State :=
  let s := freeBuffers s
  let s := endDecodes (endEncodes (endComposites s))
  freeTunnels (stopTunnels (endMixes (endLegs s)))

/-! ### Lateness (R62 to R64) -/

/-- The jobs that the tick that ends leaves late are counted, and their streams' later jobs move. -/
def latenessAll (s : State) : State :=
  let n := s.time.boundaries
  let s := encodeLateness (compositeLateness (decodeLateness s n) n) n
  bandLateness (mittenLateness s s.time.tickCount)

/-- Whether a stream has been late in three consecutive ticks. The kinds of streams are those of charges: 2 audio source, 3 decode, 4 composite,
5 encode, 6 mix, 8 Mitten thread. -/
def lateThrice (s : State) (kind i : Nat) : Bool :=
  match kind with
  | 2 => ((s.audio.get i).map (fun x => decide (3 ≤ x.lateRun))).getD false
  | 3 => ((s.decodes.get i).map (fun d => decide (3 ≤ d.lateRun))).getD false
  | 4 => ((s.composites.get i).map (fun c => decide (3 ≤ c.lateRun))).getD false
  | 5 => ((s.encodes.get i).map (fun e => decide (3 ≤ e.lateRun))).getD false
  | 6 => ((s.mixes.get i).map (fun m => decide (3 ≤ m.lateRun))).getD false
  | 8 => ((threadOf s i).map (fun t => decide (3 ≤ t.lateRun))).getD false
  | _ => false

/-- The streams whose jobs count by the boundary; those of mixes count by the mix period. -/
def streams (s : State) : List (Nat × Nat) :=
  s.decodes.map (fun e => (3, e.1)) ++ s.composites.map (fun e => (4, e.1)) ++ s.encodes.map (fun e => (5, e.1))
    ++ s.mitten.threads.map (fun e => (8, e.1))

/-- A stream drops its current frame: its unfinished jobs are cancelled. -/
def lateDrop (s : State) (kind i : Nat) : State :=
  let s := bump s Reg.TIME.LATE_DROP_TOTAL
  match kind with
  | 2 => dropSource s i
  | 3 => dropDecodeFrame s i
  | 4 => dropComposite s i
  | 5 => dropEncode s i false
  | 6 => (match s.mixes.get i with
    | some m => dropMix s i m
    | none => s)
  | _ => cancelJob s i

/-- Every one of them that has been late in three consecutive ticks drops its frame. -/
def lateDrops (s : State) : State := (streams s).foldl (fun s e => if lateThrice s e.1 e.2 then lateDrop s e.1 e.2 else s) s

/-- A short tick moves the schedule of every frame in progress one tick later (R56). -/
def moveSchedules (s : State) : State :=
  { s with
    decodes := s.decodes.all (fun _ (d : DecodeStream) =>
      { d with job := d.job.map (fun j => { j with sched := j.sched.moved }), ready := d.ready.map (fun j => { j with sched := j.sched.moved }) }),
    composites := s.composites.all (fun _ (c : Composite) =>
      { c with job := c.job.map (fun j => { j with sched := j.sched.moved }), queue := c.queue.map (fun j => { j with sched := j.sched.moved }) }),
    encodes := s.encodes.all (fun _ (e : EncodeStream) =>
      { e with job := e.job.map (fun j => { j with sched := j.sched.moved }), startDue := e.startDue.map (fun w => (w.1, w.2.moved)) }) }

end Sys2Proof.Machine
end

