-- ==== Sys2Proof/Machine/Tick.lean ====
section
/-!
DEFINITION. The tick boundary (R55, R56) with the transitions of mode that take effect there (R475 to R478), and the time that passes with no
command waiting.
-/

namespace Sys2Proof.Machine

/-! ### Entry to Proving (R504) -/

/-- Entry to Proving: the boot domains are asked for, the indirection table takes its default, and a FULL image that was pushed governs. -/
def enterProving (s : State) (reason : Nat) : State :=
  let s := changeMode { s with warming := false } .proving reason
  let s := askDomains (withIngress s (fun i => { i with indirection := [] })) bootDomains
  match s.trust.held with
  | some i => if s.proving.failed then s else acceptImage { s with trust := { s.trust with held := none } } i 3
  | none => s

/-! ### Entry to Serving (R475, R477) -/

/-- Every condition of R477 holds, and the image's domains are on (log 92). -/
def provingDone (s : State) : Bool :=
  s.mode = .proving && imageRuns s && s.proving.marchDone && s.proving.trained && s.proving.linksTested && s.proving.bootDone && !s.proving.failed
    && s.power.ramping.isEmpty && s.power.rampQueue.isEmpty && !s.power.imageDue && !s.trust.zeroizing && !s.warming && !s.power.resetHeld && s.modeRequests.isEmpty

/-- The Glovebox page key takes an entry of class 7 with its own usage, and a pinned slot of cluster 7 (R296, R317). -/
def pinPageKey (s : State) (key salt : Nat) : State :=
  let e : KeyEntry := { usage := 18, target := 0, epoch := 0, counter := 0, key := key, salt := salt, usableAt := 0, corrupt := false }
  match freeEntry s 7 with
  | none => s
  | some n => pinEntry (putKey s n e) n

/-- The Table KEK, the page key, AUTH_NONCE and the dither seeds are drawn, and the pages of the run before are lost. -/
def drawKeys (s : State) : State :=
  let a := draw s
  let b := draw a.1
  let c := draw b.1
  let key := Config.drbg b.2 % 2 ^ 256
  let salt := Config.drbg c.2 % 2 ^ 96
  let s := { c.1 with trust := { c.1.trust with tableKek := some (Config.drbg a.2 % 2 ^ 256), pageKey := some (key, salt) }, glove := { c.1.glove with versions := [] } }
  newNonce ((List.range 64).foldl (fun s l =>
    let d := draw s
    { d.1 with dither := d.1.dither.put l d.2 }) (pinPageKey s key salt))

/-- The anti-rollback count is fused up to the image's value (R79). -/
def fuseRollback (s : State) : State :=
  let n := rd s Reg.TRUST.IMAGE_STATUS_IMAGE_ARB
  { s with trust := { s.trust with fuses := { s.trust.fuses with rollback := max s.trust.fuses.rollback (min 128 n) } } }

/-- The source of time at an entry to Serving (R41, R45): none has been evaluated since the reset. With EVER_LOCKED set and only FREE_RUN listed the
state is HOLDOVER: row 0 of R46 and R45 differ, and R45 is followed (log 106). -/
def timeEntry (s : State) : State :=
  if everLocked s then
    if timeState s = 3 then requestClockMode s .holdover 4 else sourceLost s
  else selectFree s

/-- The actions tied to entry to Serving (R475). -/
def enterService (s : State) (m : Mode) (reason : Nat) : State :=
  let s := changeMode s m reason
  let point := rd s Reg.POWER.POWER_CONFIG_ECLK_INITIAL
  let s := if eclk s = point then s else loadIncrement (passTo s point)
  let s := fuseRollback (drawKeys (placeLining s))
  let g := s.trust.current
  let s := { s with trust := { s.trust with current := { g with since := s.time.boundaries } } }
  let s := adoptRules s [] (((g.tables.findSome? Record.classify?).map (·.rules)).getD []) g.number
  let s := loadGates s (((g.tables.findSome? Record.gateLists?).map (·.lists)).getD []) true
  let s := { s with band := { s.band with shapers := [], batchCount := 0 } }
  timeEntry (createStatics (ponEntry s))

/-! ### Transitions at a boundary (R475, R478) -/

/-- The request that prevails among those of a boundary: a warm reset or the end of Dormant, then Mending, then the last of the others. -/
def prevailing (l : List (Mode × Nat)) : Option (Mode × Nat) :=
  match l.find? (fun r => r.1 = .proving) with
  | some r => some r
  | none =>
    match l.find? (fun r => r.1 = .mending) with
    | some r => some r
    | none => l.getLast?

/-- RESET_N no longer holds the device: the pin has risen, and 1 us has passed since it fell (R503). -/
def resetOver (s : State) : Bool := !s.power.resetHeld && ((s.power.resetLow.map (fun t => decide (t + 1000 ≤ nowNs s))).getD true)

/-- One transition. Mending is left to Proving alone, and Proving by no request but to itself. -/
def transition (s : State) (r : Mode × Nat) : State :=
  if r.1 = .proving then enterProving s r.2
  else if r.1 = s.mode || !inService s || s.mode = .mending then s
  else changeMode s r.1 r.2

/-- Whether flows are spread by their hash (Serving, Holdover) or by the indirection table (R284). -/
def symmetric (s : State) : Bool := s.mode = .serving || s.mode = .holdover

/-- The transition of a boundary. -/
def modeStep (s : State) : State :=
  let was := symmetric s
  let t :=
    if s.trust.zeroizing || s.mode = .sealed then s
    else if provingDone s then
      if s.faults.retired.isEmpty then enterService s .serving 3 else enterService s .mending 6
    else
      match prevailing s.modeRequests with
      | none => s
      | some r => if resetOver s then transition { s with modeRequests := [], power := { s.power with resetLow := none } } r else s
  if was = symmetric t then t else raise t Reg.INGRESS.INGRESS_EVENTS_SPREAD_CHANGED

/-! ### The boundary (R53, R55) -/

/-- The clock runs to the first cycle at or beyond the next multiple of 125,000 ns. -/
def toBoundary (s : State) : State := s.withClock (clockAt s (nextMultiple s))

/-- The end of a tick: lateness is assessed, but not at the end of a short one (R56). -/
def endTick (s : State) : State := if inService s && !s.time.shortTick then latenessAll s else s

/-- Steps 1 to 3 of R55: a pending step, INCREMENT, TICK_COUNT. No frame began in a short tick, so that what fell due there is due in the tick that begins
(R56). -/
def startTick (s : State) : State :=
  let short := s.time.shortTick
  let s := applyStep { s with time := { s.time with shortTick := false } }
  let s := loadIncrement (duePoint s)
  let t := s.time
  let mix := decide (tickOf (nowNs s) % 8 = 0)
  let s := { s with
    time := { t with tickCount := tickOf (nowNs s), boundaries := t.boundaries + 1, boundaryPrev := if short then t.boundaryPrev else t.boundaryAt, boundaryAt := nowNs s,
                     mixCount := if mix then t.mixCount + 1 else t.mixCount, mixIndex := if mix then nowNs s / 1000000 else t.mixIndex },
    band := { s.band with batchCount := (s.band.batchCount + 1) % 2 ^ 32 },
    host := { s.host with fetched := 0, rateLog := s.host.rateLog.filter (fun e => decide (t.boundaries + 1 < e.2 + 8000)) } }
  if s.time.shortTick then moveSchedules s else s

/-- Step 4 of R55: the generation, with the window of R343 and the exports that it governs. -/
def generationStep (s : State) : State :=
  let w := batchWindow s
  let s := stepCopies (endExports (stepGeneration s))
  if batchWindow s = w then s else rechargeWindow s

/-- Step 5 of R55: admissions and other directives take effect, releases free their charges, and engines retire. -/
def admissionStep (s : State) : State :=
  let s := applyReplacements (applyEffects (activateAll s))
  deviceFaults (performRetirements (freeAll s))

/-- The sources and mixes that have been late in three consecutive ticks drop their period and frames. -/
def mixDrops (s : State) : State :=
  ((s.audio.map (fun x => (2, x.1)) ++ s.mixes.map (fun x => (6, x.1)) : List (Nat × Nat))).foldl (fun s e => if lateThrice s e.1 e.2 then lateDrop s e.1 e.2 else s) s

/-- Step 6 of R55 in service: work lists, loads and samples. -/
def serviceStep (s : State) : State :=
  let mix := decide (s.time.tickCount % 8 = 0)
  let s := markReady (legsTick (encodeTick (cipherTick (ingressTick s))))
  let s := if mix then audioPeriod s else s
  sampleQueues (hatstandTick s mix)

/-- A tick boundary. Streams late for the third time drop their frames in the tick that begins (R64). -/
def tickBoundary (s : State) : State :=
  let short := s.time.shortTick
  let s := startTick (endTick (toBoundary s))
  let s := if inService s && !short then mixDrops (audioLateness (lateDrops s)) else s
  let s := powerStep (modeStep (admissionStep (generationStep s)))
  endQueries (tickPulse (if inService s then serviceStep s else s))

/-- TICK_BOUNDARY: the clock runs to the next boundary, and the device acts as R55 states. -/
def execTickBoundary (s : State) : Host.Outcome State Fault Refusal :=
  if s.power.pwrGood then ok (tickBoundary s) else ok s

/-- The boundary comes if what is said to happen there is due. -/
def boundaryIf (due : Bool) (s : State) : Host.Outcome State Fault Refusal :=
  if s.power.pwrGood && due then ok (tickBoundary s) else ok s

/-! ### What happens at a boundary and has a command of its own -/

/-- Whether a stream's third late tick ends at the next boundary. -/
def lateDropDue (s : State) (kind i : Nat) : Bool :=
  inService s && !s.time.shortTick &&
    (if kind = 2 || kind = 6 then
      (let t := startTick (endTick (toBoundary s))
       if kind = 2 then ((t.audio.get i).map (fun x => sourceLate t x && decide (2 ≤ x.lateRun))).getD false
       else ((t.mixes.get i).map (fun m => mixLate t m && decide (2 ≤ m.lateRun))).getD false)
     else lateThrice (latenessAll (toBoundary s)) kind i)

/-- LATE_DROP. -/
def execLateDrop (kind stream : Nat) (s : State) : Host.Outcome State Fault Refusal := boundaryIf (lateDropDue s kind stream) s

/-- GENERATION_CHANGED: a pending partial image takes effect. -/
def execGenerationChanged (s : State) : Host.Outcome State Fault Refusal := boundaryIf (changeDue s) s

/-- GENERATION_RETIRED: the old generation has no users left. -/
def execGenerationRetired (s : State) : Host.Outcome State Fault Refusal := boundaryIf (retireDueOld s) s

/-- GEN_FORCED: the old generation's users are forced out at the end of GEN_DRAIN_LIMIT. -/
def execGenForced (s : State) : Host.Outcome State Fault Refusal :=
  boundaryIf (forcedDue { s with time := { s.time with boundaries := s.time.boundaries + 1 } }) s

/-- ENTRY_TO_SERVING. -/
def execEntryToServing (s : State) : Host.Outcome State Fault Refusal := boundaryIf (provingDone s) s

/-- The entry of a kind (0 room, 1 participant, 2 leg) whose last member is gone at the next boundary. -/
def drainedDue (s : State) (kind i : Nat) : Bool :=
  let partDone (p : Nat) : Bool := ((s.participants.get p).map (fun a => decide (a.state = .draining))).getD false
    && (legsOfPart s p).all (fun e => legDone s e.1)
  match kind with
  | 0 => ((s.rooms.get i).map (fun r => decide (r.state = .draining))).getD false && (partsOfRoom s i).all partDone
  | 1 => partDone i
  | 2 => legDone s i
  | _ => false

/-- LEG_DRAINED: a DRAINING leg, participant or room becomes FREE. -/
def execLegDrained (kind index : Nat) (s : State) : Host.Outcome State Fault Refusal := boundaryIf (drainedDue s kind index) s

/-- THREAD_DELAY_EXPIRY: a DELAYED thread's count reaches zero. -/
def execThreadDelayExpiry (s : State) : Host.Outcome State Fault Refusal :=
  boundaryIf (s.mitten.threads.any (fun e => e.2.state = .delayed && decide (e.2.wake ≤ 1))) s

/-- TUNNEL_FREED: a DRAINING tunnel whose last frame has left becomes FREE. -/
def execTunnelFreed (tunnel : Nat) (s : State) : Host.Outcome State Fault Refusal :=
  boundaryIf ((s.gauntlet.tunnels.get tunnel).any (fun x => decide (x.state = .draining) && !tunnelBusy (stopTunnels s) tunnel { x with built := [] })) s

/-- RETIREMENT: an engine counted out by R482 leaves service. -/
def execRetirement (kind index : Nat) (s : State) : Host.Outcome State Fault Refusal :=
  boundaryIf (s.faults.retiring.contains (engineId kind index) && canRetire s kind index) s

/-- AUTO_WARM_RESET: a device fault ends service, with AUTO_RESET set (R488). -/
def execAutoWarmReset (s : State) : Host.Outcome State Fault Refusal :=
  boundaryIf ((autoCause s).isSome && decide (rd s Reg.FAULTLOG.FAULT_CONFIG_AUTO_RESET = 1) && decide ((autoRecent s).length < 3)) s

/-- SET_POINT_CHANGE: ECLK passes to another set point: one that was asked for and is ready, or a protective step-down. -/
def execSetPointChange (s : State) : Host.Outcome State Fault Refusal :=
  boundaryIf (s.power.protectivePending || s.power.pendingPoint.any (fun p => decide (p.2 ≤ nowNs (toBoundary s)))) s

/-- CROWN_LINK_FAULT: an error of a Crown link, router + 256 x direction (R22). One that is corrected or replayed is counted. A lasting one is met in
service at the next boundary (R486, R488); in Proving its test fails (R477). -/
def execCrownLinkFault (met : LinkMeeting) (s : State) : Host.Outcome State Fault Refusal :=
  let link := met.link
  let r := linkMeets s link met.error
  let s := r.1
  if !r.2 || s.trust.zeroizing then ok s
  else if inService s then
    let s := fault s 0x50 21 0xFFFF (link % 2 ^ 16) 0
    ok { s with faults := { s.faults with linkPending := s.faults.linkPending ++ [linkOf link] } }
  else if s.mode = .proving then ok (provingFailed (fault s 0x50 21 0xFFFF (link % 2 ^ 16) 0) (Config.itemCode 3))
  else ok s

/-! ### Time with no command waiting -/

/-- One ECLK cycle of the clock (R38). A cycle that would reach the next multiple of 125,000 ns is the tick boundary. -/
def idleCycle (s : State) : State :=
  if !s.power.pwrGood then s
  else if s.time.clock + s.time.increment < nextMultiple s then s.withClock (s.time.clock + s.time.increment)
  else tickBoundary s

end Sys2Proof.Machine
end

