-- ==== Sys2Proof/Machine/Dispatch.lean ====
section
/-!
DEFINITION. The dispatch: one arm for each command, a direct call of its meaning.
-/

namespace Sys2Proof.Machine

/-- The effect of a command on everything but the queue. -/
def exec (i : Instr) (s : State) : Host.Outcome State Fault Refusal :=
  match i with
  | .admitRoom h index maxParticipants => Sys2Proof.Machine.execAdmitRoom h index maxParticipants s
  | .admitParticipant h index p a => Sys2Proof.Machine.execAdmitParticipant h index p a s
  | .admitLeg h index l => Sys2Proof.Machine.execAdmitLeg h index l s
  | .setLeg h index l => Sys2Proof.Machine.execSetLeg h index l s
  | .setParticipant h index minRate maxRate weight => Sys2Proof.Machine.execSetParticipant h index minRate maxRate weight s
  | .release h kind index => Sys2Proof.Machine.execRelease h kind index s
  | .requestKeyframe h sender => Sys2Proof.Machine.execRequestKeyframe h sender s
  | .admitDecode h index d => Sys2Proof.Machine.execAdmitDecode h index d s
  | .readStatistics h kind index what dest => Sys2Proof.Machine.execReadStatistics h kind index what dest s
  | .admitComposite h index c => Sys2Proof.Machine.execAdmitComposite h index c s
  | .setLayout h index list length => Sys2Proof.Machine.execSetLayout h index list length s
  | .admitEncode h index e => Sys2Proof.Machine.execAdmitEncode h index e s
  | .setEncode h index e => Sys2Proof.Machine.execSetEncode h index e s
  | .admitMix h room m => Sys2Proof.Machine.execAdmitMix h room m s
  | .setRoute h leg mode gain => Sys2Proof.Machine.execSetRoute h leg mode gain s
  | .readLevels h room dest => Sys2Proof.Machine.execReadLevels h room dest s
  | .enableTalkerExport h room record => Sys2Proof.Machine.execEnableTalkerExport h room record s
  | .startThread h entry cluster arg => Sys2Proof.Machine.execStartThread h entry cluster arg s
  | .stopThread h thread => Sys2Proof.Machine.execStopThread h thread s
  | .deliverKeyToken h t length => Sys2Proof.Machine.execDeliverKeyToken h t length s
  | .admitTunnel h index t => Sys2Proof.Machine.execAdmitTunnel h index t s
  | .switchEpoch h tunnel epoch => Sys2Proof.Machine.execSwitchEpoch h tunnel epoch s
  | .sendTunnelMessage h tunnel label data => Sys2Proof.Machine.execSendTunnelMessage h tunnel label data s
  | .sendFrame h egress cls frame => Sys2Proof.Machine.execSendFrame h egress cls frame s
  | .setShaper h egress cls rate burst => Sys2Proof.Machine.execSetShaper h egress cls rate burst s
  | .setPortLpi h mac tw => Sys2Proof.Machine.execSetPortLpi h mac tw s
  | .enablePon h port disabled registration => Sys2Proof.Machine.execEnablePon h port disabled registration s
  | .setPonPort h port index portId direction queue flags => Sys2Proof.Machine.execSetPonPort h port index portId direction queue flags s
  | .setPonMap h port cls allocId => Sys2Proof.Machine.execSetPonMap h port cls allocId s
  | .sendOmci h port message => Sys2Proof.Machine.execSendOmci h port message s
  | .ponTimeOfDay h port superframe seconds nanoseconds => Sys2Proof.Machine.execPonTimeOfDay h port superframe seconds nanoseconds s
  | .switchPon h => Sys2Proof.Machine.execSwitchPon h s
  | .step h source => Sys2Proof.Machine.execStep h source s
  | .setSeconds h seconds => Sys2Proof.Machine.execSetSeconds h seconds s
  | .setMemoryRate h point => Sys2Proof.Machine.execSetMemoryRate h point s
  | .archivePages h first count keyEntry dest => Sys2Proof.Machine.execArchivePages h first count keyEntry dest s
  | .attest h nonce dest => Sys2Proof.Machine.execAttest h nonce dest s
  | .pushImage h image => Sys2Proof.Machine.execPushImage h image s
  | .flashProgram h image slot => Sys2Proof.Machine.execFlashProgram h image slot s
  | .snapshotCounters h blocks dest clear => Sys2Proof.Machine.execSnapshotCounters h blocks dest clear s
  | .engineReset h kind index => Sys2Proof.Machine.execEngineReset h kind index s
  | .warmReset h => Sys2Proof.Machine.execWarmReset h s
  | .zeroize h => Sys2Proof.Machine.execZeroize h s
  | .retire h => Sys2Proof.Machine.execRetire h s
  | .directiveFetch entries => Sys2Proof.Machine.execDirectiveFetch entries s
  | .ringEnable ring value => Sys2Proof.Machine.execRingEnable ring value s
  | .ringIndexWrite ring value => Sys2Proof.Machine.execRingIndexWrite ring value s
  | .registerWrite offset width value => Sys2Proof.Machine.execRegisterWrite offset width value s
  | .registerReadClear offset width => Sys2Proof.Machine.execRegisterReadClear offset width s
  | .snapshotCapture => Sys2Proof.Machine.execSnapshotCapture s
  | .legsQuery kind index => Sys2Proof.Machine.execLegsQuery kind index s
  | .decodeQuery kind index => Sys2Proof.Machine.execDecodeQuery kind index s
  | .veilQuery kind index => Sys2Proof.Machine.execVeilQuery kind index s
  | .encodeQuery index => Sys2Proof.Machine.execEncodeQuery index s
  | .audioQuery kind index => Sys2Proof.Machine.execAudioQuery kind index s
  | .mittenQuery index => Sys2Proof.Machine.execMittenQuery index s
  | .ingressQuery kind index => Sys2Proof.Machine.execIngressQuery kind index s
  | .cipherQuery index => Sys2Proof.Machine.execCipherQuery index s
  | .gauntletQuery index => Sys2Proof.Machine.execGauntletQuery index s
  | .bandQuery kind index => Sys2Proof.Machine.execBandQuery kind index s
  | .ponQuery port index => Sys2Proof.Machine.execPonQuery port index s
  | .nearmemQuery stack kind index => Sys2Proof.Machine.execNearmemQuery stack kind index s
  | .marchGo group form => Sys2Proof.Machine.execMarchGo group form s
  | .marchDone failing again => Sys2Proof.Machine.execMarchDone failing again s
  | .dmaGo channel => Sys2Proof.Machine.execDmaGo channel s
  | .dmaAbort channel => Sys2Proof.Machine.execDmaAbort channel s
  | .chainHeadWrite channel address => Sys2Proof.Machine.execChainHeadWrite channel address s
  | .clockRequest point => Sys2Proof.Machine.execClockRequest point s
  | .descriptorFetched channel bytes => Sys2Proof.Machine.execDescriptorFetched channel bytes s
  | .dmaAccessComplete channel succeeded data => Sys2Proof.Machine.execDmaAccessComplete channel succeeded data s
  | .ident => Sys2Proof.Machine.execIdent s
  | .status => Sys2Proof.Machine.execStatus s
  | .log first count => Sys2Proof.Machine.execLog first count s
  | .counters block => Sys2Proof.Machine.execCounters block s
  | .challenge => Sys2Proof.Machine.execChallenge s
  | .unlock block spelt => Sys2Proof.Machine.execUnlock block spelt s
  | .peek offset => Sys2Proof.Machine.execPeek offset s
  | .poke offset value => Sys2Proof.Machine.execPoke offset value s
  | .lock => Sys2Proof.Machine.execLock s
  | .unlockExpiry => Sys2Proof.Machine.execUnlockExpiry s
  | .pwrGoodFall => Sys2Proof.Machine.execPwrGoodFall s
  | .pwrGoodRise => Sys2Proof.Machine.execPwrGoodRise s
  | .selfTestDone passed => Sys2Proof.Machine.execSelfTestDone passed s
  | .resetNLow duration => Sys2Proof.Machine.execResetNLow duration s
  | .resetNRise => Sys2Proof.Machine.execResetNRise s
  | .perstN => Sys2Proof.Machine.execPerstN s
  | .functionLevelReset => Sys2Proof.Machine.execFunctionLevelReset s
  | .pcieLinkLoss => Sys2Proof.Machine.execPcieLinkLoss s
  | .knitBreach => Sys2Proof.Machine.execKnitBreach s
  | .railOutOfRange millivolts => Sys2Proof.Machine.execRailOutOfRange millivolts s
  | .temperatureTrigger celsius => Sys2Proof.Machine.execTemperatureTrigger celsius s
  | .clockTrigger deviation => Sys2Proof.Machine.execClockTrigger deviation s
  | .tamperIn input duration => Sys2Proof.Machine.execTamperIn input duration s
  | .zeroizePin duration => Sys2Proof.Machine.execZeroizePin duration s
  | .zeroizeScrubDone => Sys2Proof.Machine.execZeroizeScrubDone s
  | .entryToServing => Sys2Proof.Machine.execEntryToServing s
  | .flashSlotVerify slot image => Sys2Proof.Machine.execFlashSlotVerify slot image s
  | .imageVerified => Sys2Proof.Machine.execImageVerified s
  | .bootStep => Sys2Proof.Machine.execBootStep s
  | .bootWait => Sys2Proof.Machine.execBootWait s
  | .i2cWrite ack => Sys2Proof.Machine.execI2cWrite ack s
  | .i2cPoll elapsed reply => Sys2Proof.Machine.execI2cPoll elapsed reply s
  | .gpioWait elapsed level => Sys2Proof.Machine.execGpioWait elapsed level s
  | .domainRampDone domain => Sys2Proof.Machine.execDomainRampDone domain s
  | .tickBoundary => Sys2Proof.Machine.execTickBoundary s
  | .lateDrop kind stream => Sys2Proof.Machine.execLateDrop kind stream s
  | .generationChanged => Sys2Proof.Machine.execGenerationChanged s
  | .generationRetired => Sys2Proof.Machine.execGenerationRetired s
  | .genForced => Sys2Proof.Machine.execGenForced s
  | .ptpMessage port arrival m => Sys2Proof.Machine.execPtpMessage port arrival m s
  | .sourceDisqualified => Sys2Proof.Machine.execSourceDisqualified s
  | .restoreWaitExpiry source => Sys2Proof.Machine.execRestoreWaitExpiry source s
  | .delayReqSend => Sys2Proof.Machine.execDelayReqSend s
  | .announceTimeout identity => Sys2Proof.Machine.execAnnounceTimeout identity s
  | .ppsEdge stamp frequencyOk => Sys2Proof.Machine.execPpsEdge stamp frequencyOk s
  | .ppsMissing => Sys2Proof.Machine.execPpsMissing s
  | .todTimeout port => Sys2Proof.Machine.execTodTimeout port s
  | .ppsOut => Sys2Proof.Machine.execPpsOut s
  | .pulseWidthEnd output => Sys2Proof.Machine.execPulseWidthEnd output s
  | .heartbeat => Sys2Proof.Machine.execHeartbeat s
  | .modTimeExpiry ring => Sys2Proof.Machine.execModTimeExpiry ring s
  | .drbgReseed => Sys2Proof.Machine.execDrbgReseed s
  | .entropyHealthFail => Sys2Proof.Machine.execEntropyHealthFail s
  | .frameReceived mac frame => Sys2Proof.Machine.execFrameReceived mac frame s
  | .cuffBankSwitch cuff => Sys2Proof.Machine.execCuffBankSwitch cuff s
  | .frameParse cuff reads => Sys2Proof.Machine.execFrameParse cuff reads s
  | .fragTimeout entry => Sys2Proof.Machine.execFragTimeout entry s
  | .recirculated engine reads => Sys2Proof.Machine.execRecirculated engine reads s
  | .cipherJobAccept cluster port d purpose => Sys2Proof.Machine.execCipherJobAccept cluster port d purpose s
  | .keyLoad cluster slot unwraps => Sys2Proof.Machine.execKeyLoad cluster slot unwraps s
  | .cipherCompletion job r => Sys2Proof.Machine.execCipherCompletion job r s
  | .layerRaiseWait leg => Sys2Proof.Machine.execLayerRaiseWait leg s
  | .palmReshare cluster slot => Sys2Proof.Machine.execPalmReshare cluster slot s
  | .feedbackReport participant items => Sys2Proof.Machine.execFeedbackReport participant items s
  | .feedbackStale participant => Sys2Proof.Machine.execFeedbackStale participant s
  | .nackUpTimer leg => Sys2Proof.Machine.execNackUpTimer leg s
  | .nackReceived leg seqs => Sys2Proof.Machine.execNackReceived leg seqs s
  | .keyframeRequest leg fir => Sys2Proof.Machine.execKeyframeRequest leg fir s
  | .keyframePendingExpiry sender => Sys2Proof.Machine.execKeyframePendingExpiry sender s
  | .legDrained kind index => Sys2Proof.Machine.execLegDrained kind index s
  | .frameReady stream frame => Sys2Proof.Machine.execFrameReady stream frame s
  | .decodeRowJob stream work => Sys2Proof.Machine.execDecodeRowJob stream work s
  | .engineFailure kind index laneMemory => Sys2Proof.Machine.execEngineFailure kind index laneMemory s
  | .compositeFrameBoundary composite => Sys2Proof.Machine.execCompositeFrameBoundary composite s
  | .signaturesComputed composite veil => Sys2Proof.Machine.execSignaturesComputed composite veil s
  | .veilBandJob composite work => Sys2Proof.Machine.execVeilBandJob composite work s
  | .visorFail composite => Sys2Proof.Machine.execVisorFail composite s
  | .encodeFrameStart stream => Sys2Proof.Machine.execEncodeFrameStart stream s
  | .encodeRowJob stream work => Sys2Proof.Machine.execEncodeRowJob stream work s
  | .audioPacket leg sequence => Sys2Proof.Machine.execAudioPacket leg sequence s
  | .jbRecompute leg => Sys2Proof.Machine.execJbRecompute leg s
  | .mixPeriod room cluster => Sys2Proof.Machine.execMixPeriod room cluster s
  | .comfortNoise leg => Sys2Proof.Machine.execComfortNoise leg s
  | .codecBatchDone cluster frames => Sys2Proof.Machine.execCodecBatchDone cluster frames s
  | .talkerExportWrite room => Sys2Proof.Machine.execTalkerExportWrite room s
  | .preempt thread => Sys2Proof.Machine.execPreempt thread s
  | .affinityExpiry thread => Sys2Proof.Machine.execAffinityExpiry thread s
  | .threadDelayExpiry => Sys2Proof.Machine.execThreadDelayExpiry s
  | .runaway lane => Sys2Proof.Machine.execRunaway lane s
  | .nop lane => Sys2Proof.Machine.execNop lane s
  | .add w => Sys2Proof.Machine.execAdd w s
  | .sub w => Sys2Proof.Machine.execSub w s
  | .adds w => Sys2Proof.Machine.execAdds w s
  | .subs w => Sys2Proof.Machine.execSubs w s
  | .and w => Sys2Proof.Machine.execAnd w s
  | .or w => Sys2Proof.Machine.execOr w s
  | .xor w => Sys2Proof.Machine.execXor w s
  | .shl w => Sys2Proof.Machine.execShl w s
  | .shr w => Sys2Proof.Machine.execShr w s
  | .asr w => Sys2Proof.Machine.execAsr w s
  | .min w => Sys2Proof.Machine.execMin w s
  | .max w => Sys2Proof.Machine.execMax w s
  | .abs w => Sys2Proof.Machine.execAbs w s
  | .mul w => Sys2Proof.Machine.execMul w s
  | .mov w => Sys2Proof.Machine.execMov w s
  | .mac w => Sys2Proof.Machine.execMac w s
  | .msu w => Sys2Proof.Machine.execMsu w s
  | .dot4 w => Sys2Proof.Machine.execDot4 w s
  | .vmac4 w => Sys2Proof.Machine.execVmac4 w s
  | .aclr w => Sys2Proof.Machine.execAclr w s
  | .aext w => Sys2Proof.Machine.execAext w s
  | .ald w => Sys2Proof.Machine.execAld w s
  | .aadd w => Sys2Proof.Machine.execAadd w s
  | .dstep w => Sys2Proof.Machine.execDstep w s
  | .dfix w => Sys2Proof.Machine.execDfix w s
  | .movcTo w => Sys2Proof.Machine.execMovcTo w s
  | .movcFrom w => Sys2Proof.Machine.execMovcFrom w s
  | .cmp w => Sys2Proof.Machine.execCmp w s
  | .ld8s w => Sys2Proof.Machine.execLd8s w s
  | .ld16s w => Sys2Proof.Machine.execLd16s w s
  | .ld32 w => Sys2Proof.Machine.execLd32 w s
  | .ld64 w => Sys2Proof.Machine.execLd64 w s
  | .ldq w => Sys2Proof.Machine.execLdq w s
  | .st8 w => Sys2Proof.Machine.execSt8 w s
  | .st16 w => Sys2Proof.Machine.execSt16 w s
  | .st32 w => Sys2Proof.Machine.execSt32 w s
  | .st64 w => Sys2Proof.Machine.execSt64 w s
  | .stq w => Sys2Proof.Machine.execStq w s
  | .ldxy lane x beside => Sys2Proof.Machine.execLdxy lane x beside s
  | .pset w => Sys2Proof.Machine.execPset w s
  | .pget w => Sys2Proof.Machine.execPget w s
  | .br lane cond offset => Sys2Proof.Machine.execBr lane cond offset s
  | .call lane cond offset => Sys2Proof.Machine.execCall lane cond offset s
  | .ret lane => Sys2Proof.Machine.execRet lane s
  | .loop lane level rotate isReg count body => Sys2Proof.Machine.execLoop lane level rotate isReg count body s
  | .wait lane mode value => Sys2Proof.Machine.execWait lane mode value s
  | .signal lane cluster event => Sys2Proof.Machine.execSignal lane cluster event s
  | .spawn lane entry arg result => Sys2Proof.Machine.execSpawn lane entry arg result s
  | .fetch lane localReg pair words => Sys2Proof.Machine.execFetch lane localReg pair words s
  | .put lane localReg pair words => Sys2Proof.Machine.execPut lane localReg pair words s
  | .fence lane => Sys2Proof.Machine.execFence lane s
  | .transferDone lane bank r => Sys2Proof.Machine.execTransferDone lane bank r s
  | .gauntletFrameRx port stamp frame => Sys2Proof.Machine.execGauntletFrameRx port stamp frame s
  | .oldEpochExpiry tunnel => Sys2Proof.Machine.execOldEpochExpiry tunnel s
  | .tunnelFrameSlot tunnel => Sys2Proof.Machine.execTunnelFrameSlot tunnel s
  | .tunnelDown tunnel => Sys2Proof.Machine.execTunnelDown tunnel s
  | .tunnelFreed tunnel => Sys2Proof.Machine.execTunnelFreed tunnel s
  | .bandRelease => Sys2Proof.Machine.execBandRelease s
  | .pacingSlot => Sys2Proof.Machine.execPacingSlot s
  | .egressFree egress => Sys2Proof.Machine.execEgressFree egress s
  | .gateEntryChange egress => Sys2Proof.Machine.execGateEntryChange egress s
  | .gateListChanged egress => Sys2Proof.Machine.execGateListChanged egress s
  | .ponGrant port allocId => Sys2Proof.Machine.execPonGrant port allocId s
  | .linkUp mac => Sys2Proof.Machine.execLinkUp mac s
  | .linkDown mac receiving => Sys2Proof.Machine.execLinkDown mac receiving s
  | .lpiEnter mac => Sys2Proof.Machine.execLpiEnter mac s
  | .lpiWake mac => Sys2Proof.Machine.execLpiWake mac s
  | .psyncHunt port position found => Sys2Proof.Machine.execPsyncHunt port position found s
  | .syncLost port => Sys2Proof.Machine.execSyncLost port s
  | .ponDownstreamFrame port frame => Sys2Proof.Machine.execPonDownstreamFrame port frame s
  | .burstProfile port m p => Sys2Proof.Machine.execBurstProfile port m p s
  | .assignOnuId port m serial onuId => Sys2Proof.Machine.execAssignOnuId port m serial onuId s
  | .rangingTime port m relative delay => Sys2Proof.Machine.execRangingTime port m relative delay s
  | .requestRegistration port m => Sys2Proof.Machine.execRequestRegistration port m s
  | .assignAllocId port m allocId release => Sys2Proof.Machine.execAssignAllocId port m allocId release s
  | .keyControl port m index => Sys2Proof.Machine.execKeyControl port m index s
  | .deactivateOnuId port m => Sys2Proof.Machine.execDeactivateOnuId port m s
  | .disableSerialNumber port m serial disable => Sys2Proof.Machine.execDisableSerialNumber port m serial disable s
  | .sleepAllow port m => Sys2Proof.Machine.execSleepAllow port m s
  | .ploamUnsupported port m kind => Sys2Proof.Machine.execPloamUnsupported port m kind s
  | .to1Expiry port => Sys2Proof.Machine.execTo1Expiry port s
  | .to2Expiry port => Sys2Proof.Machine.execTo2Expiry port s
  | .burstWindow port => Sys2Proof.Machine.execBurstWindow port s
  | .watchdogTrip port rise instant => Sys2Proof.Machine.execWatchdogTrip port rise instant s
  | .omciMessage port m => Sys2Proof.Machine.execOmciMessage port m s
  | .protectSwitch => Sys2Proof.Machine.execProtectSwitch s
  | .todMeasurement port => Sys2Proof.Machine.execTodMeasurement port s
  | .memoryRequest stack channel request ecc => Sys2Proof.Machine.execMemoryRequest stack channel request ecc s
  | .refreshDue stack channel bank => Sys2Proof.Machine.execRefreshDue stack channel bank s
  | .temperatureReading stack celsius => Sys2Proof.Machine.execTemperatureReading stack celsius s
  | .catchupEnd stack => Sys2Proof.Machine.execCatchupEnd stack s
  | .rowRemap stack channel copy => Sys2Proof.Machine.execRowRemap stack channel copy s
  | .scrubRead stack channel ecc => Sys2Proof.Machine.execScrubRead stack channel ecc s
  | .trackingStep stack channel inRange trains => Sys2Proof.Machine.execTrackingStep stack channel inRange trains s
  | .channelFault stack channel => Sys2Proof.Machine.execChannelFault stack channel s
  | .liningAccess group requests => Sys2Proof.Machine.execLiningAccess group requests s
  | .rowSpare group copy => Sys2Proof.Machine.execRowSpare group copy s
  | .gloveboxAccess request => Sys2Proof.Machine.execGloveboxAccess request s
  | .pageFetchDone page r => Sys2Proof.Machine.execPageFetchDone page r s
  | .crownLinkFault met => Sys2Proof.Machine.execCrownLinkFault met s
  | .retirement kind index => Sys2Proof.Machine.execRetirement kind index s
  | .autoWarmReset => Sys2Proof.Machine.execAutoWarmReset s
  | .setPointChange => Sys2Proof.Machine.execSetPointChange s
  | .junctionReading celsius => Sys2Proof.Machine.execJunctionReading celsius s
  | .agingCheck slack => Sys2Proof.Machine.execAgingCheck slack s
  | .pcieLinkUp => Sys2Proof.Machine.execPcieLinkUp s
  | .engineResetDone kind index => Sys2Proof.Machine.execEngineResetDone kind index s
  | .entropyStartupPassed => Sys2Proof.Machine.execEntropyStartupPassed s
  | .trainingSetExpiry stack point => Sys2Proof.Machine.execTrainingSetExpiry stack point s
  | .memoryRetrainingDone failed => Sys2Proof.Machine.execMemoryRetrainingDone failed s
  | .attestationReportSigned => Sys2Proof.Machine.execAttestationReportSigned s
  | .flashProgramWritten => Sys2Proof.Machine.execFlashProgramWritten s
  | .partnerLpiSignal mac on => Sys2Proof.Machine.execPartnerLpiSignal mac on s

end Sys2Proof.Machine
end

