-- ==== Sys2Proof/Machine/Step.lean ====
section
/-!
DEFINITION. One step of the device: it takes the command at the front of its queue; with an empty queue the clock runs for one
ECLK cycle.
-/

namespace Sys2Proof.Machine

/-- The state with the queue replaced. -/
def State.withQueue (s : State) (q : List Instr) : State := { s with pending := q }

/-- One step: the front command with the rest of the queue, or one ECLK cycle of the clock (R38, R55). -/
def step (s : State) : Host.Outcome State Fault Refusal :=
  match s.pending with
  | [] => .next (idleCycle s)
  | c :: rest => exec c (s.withQueue rest)

/-- The state with the command that a word spells in front of the queue; no row of the table gives bits, so no word spells
one. -/
def State.withFetchWord (s : State) (nbits w : Nat) : State :=
  match Sys2Proof.decodeTableWord nbits w with
  | none => s
  | some c => { s with pending := c :: s.pending }

end Sys2Proof.Machine
end

