-- ==== Sys2Proof/WellFormed.lean ====
section
/-!
DEFINITION. Well-formed commands: every operand fits the field that carries it. A command that is not well formed is no command that the
device can be given; exec is total on it all the same.
-/

namespace Sys2Proof

/-- A number fits a field of some bits. -/
def fits (bits n : Nat) : Bool := decide (n < 2 ^ bits)

/-- A signed number fits a field of 8 bits. -/
def fitsS8 (n : Int) : Bool := decide (-128 ≤ n) && decide (n < 128)

/-- R457. -/
def DirHeader.wf (h : DirHeader) : Bool :=
  fits 32 h.tag && fits 32 h.authAt && fits 32 h.extAt && fits 32 h.bufferAt && decide (h.authBlock.length ≤ 7420) && h.reserved.all (fun e => fits 17 e.1 && e.2 ≠ 0)

/-- R104. -/
def LegSpec.wf (x : LegSpec) : Bool :=
  fits 8 x.kind && fits 8 x.media && fits 8 x.codec && fits 16 x.participant && fits 16 x.room && fits 32 x.source && fits 32 x.ssrc
    && fits 32 x.rtxSsrc && fits 8 x.pt && fits 8 x.rtxPt && fits 8 x.cls && fits 8 x.flags && fits 32 x.rate && fits 32 x.burst
    && fits 16 x.packetSize && fits 8 x.layerCap

/-- R104, R464. -/
def LegChange.wf (x : LegChange) : Bool :=
  fits 8 x.cls && fits 8 x.flags && fits 32 x.rate && fits 32 x.burst && fits 16 x.packetSize && fits 8 x.layerCap

/-- R103. -/
def PartSpec.wf (x : PartSpec) : Bool :=
  fits 8 x.transport && fits 16 x.room && fits 16 x.tunnelId && fits 32 x.minRate && fits 32 x.maxRate && fits 128 x.remoteIp && fits 128 x.localIp
    && fits 16 x.remotePort && fits 16 x.localPort

/-- R339. -/
def AggSpec.wf (x : AggSpec) : Bool := fits 8 x.egress && fits 8 x.weight && fits 48 x.nextHop && fits 16 x.vlanOuter && fits 16 x.vlanInner

/-- R130. -/
def DecodeSpec.wf (x : DecodeSpec) : Bool :=
  fits 8 x.codec && fits 8 x.pool && fits 32 x.leg && fits 16 x.maxWidth && fits 16 x.maxHeight && fits 8 x.rate && fits 8 x.refs && fits 8 x.opPoint
    && fits 8 x.flags && fits 32 x.bitstreamKib

/-- R154. -/
def CompositeSpec.wf (x : CompositeSpec) : Bool := fits 8 x.pool && fits 8 x.rate && fits 16 x.width && fits 16 x.height && fits 16 x.phase

/-- R179. -/
def EncodeRate.wf (x : EncodeRate) : Bool :=
  fits 32 x.target && fits 16 x.vbvMs && fits 16 x.keyInterval && fits 8 x.qpMin && fits 8 x.qpMax && fits 8 x.keyWeight && fits 16 x.maxPayload
    && fits 16 x.layerShare

/-- R179. -/
def EncodeSpec.wf (x : EncodeSpec) : Bool :=
  fits 8 x.codec && fits 8 x.pool && fits 8 x.sourceKind && fits 8 x.structure_ && fits 8 x.profile && fits 8 x.flags && fits 16 x.source && fits 8 x.rate
    && x.rc.wf && fits 16 x.phase

/-- R210, R464. -/
def MixSpec.wf (x : MixSpec) : Bool := fits 8 x.maxTalkers && fits 8 x.frameMs && fitsS8 x.threshold && fits 8 x.margin && fits 8 x.hold

/-- R322. -/
def TunnelSpec.wf (x : TunnelSpec) : Bool :=
  fits 8 x.carrier && fits 8 x.role && fits 8 x.egress && fits 8 x.cls && fits 16 x.framesPerTick && fits 16 x.frameLength && fits 8 x.phase
    && fits 16 x.vlanOuter && fits 16 x.vlanInner && fits 48 x.remoteMac && fits 128 x.remoteIp && fits 128 x.localIp && fits 16 x.remotePort
    && fits 16 x.localPort

/-- What a page fetch reads: a page and its tag (R429). -/
def FetchResult.wf : FetchResult → Bool
  | .read c t => c.length = 4096 && t.length = 16
  | .hostError => true

/-- R16, R22. -/
def MemRequest.wf (x : MemRequest) : Bool := fits 48 x.address && fits 8 x.port

/-- The parameters of a directive fit their fields (R464); an unknown opcode is one that the catalogue does not give. -/
def Directive.wf : Directive → Bool
  | .admitRoom i n => fits 16 i && fits 16 n
  | .admitParticipant i p a => fits 16 i && p.wf && a.wf
  | .admitLeg i l => fits 32 i && l.wf
  | .setLeg i l => fits 32 i && l.wf
  | .setParticipant i a b w => fits 16 i && fits 32 a && fits 32 b && fits 8 w
  | .release k i => fits 8 k && fits 32 i
  | .requestKeyframe n => fits 32 n
  | .admitDecode i d => fits 16 i && d.wf
  | .readStatistics k i w d => fits 8 k && fits 16 i && fits 8 w && fits 32 d
  | .admitComposite i c => fits 16 i && c.wf
  | .setLayout i _ n => fits 16 i && fits 16 n
  | .admitEncode i e => fits 16 i && e.wf
  | .setEncode i e => fits 16 i && e.wf
  | .admitMix r m => fits 16 r && m.wf
  | .setRoute l m g => fits 32 l && fits 8 m && fitsS8 g
  | .readLevels r d => fits 16 r && fits 32 d
  | .enableTalkerExport r x => fits 16 r && (match x with | some v => fits 32 v | none => true)
  | .startThread e c a => fits 16 e && fits 8 c && fits 32 a
  | .stopThread t => fits 16 t
  | .deliverKeyToken _ n => fits 16 n
  | .admitTunnel i t => fits 16 i && t.wf
  | .switchEpoch t e => fits 16 t && fits 16 e
  | .sendTunnelMessage t l d => fits 16 t && fits 8 l && fits 16 d.length
  | .sendFrame e c f => fits 8 e && fits 8 c && fits 16 f.length
  | .setShaper e c r b => fits 8 e && fits 8 c && fits 32 r && fits 32 b
  | .setPortLpi m t => fits 8 m && fits 16 t
  | .enablePon p d r => fits 8 p && fits 8 d && decide (r.length ≤ 36)
  | .setPonPort p i n d q f => fits 8 p && fits 16 i && fits 16 n && fits 8 d && fits 8 q && fits 8 f
  | .setPonMap p c a => fits 8 p && fits 8 c && fits 16 a
  | .sendOmci p m => fits 8 p && fits 16 m.length
  | .ponTimeOfDay p f x n => fits 8 p && fits 64 f && fits 48 x && fits 32 n
  | .switchPon => true
  | .step c => fits 8 c
  | .setSeconds x => fits 48 x
  | .setMemoryRate p => fits 8 p
  | .archivePages f c k d => fits 64 f && fits 32 c && fits 32 k && fits 64 d
  | .attest n d => fits 256 n && fits 32 d
  | .pushImage i => fits 32 i.length
  | .flashProgram i k => fits 32 i.length && fits 8 k
  | .snapshotCounters b d c => fits 32 b && fits 32 d && fits 8 c
  | .engineReset k i => fits 8 k && fits 8 i
  | .warmReset => true
  | .zeroize => true
  | .retire => true
  | .unknown n => fits 16 n

/-- The word form of an A-slot command fits its fields (R247, R248). -/
def LaneA.wf (w : LaneA) : Bool :=
  decide (w.lane < 64) && (match w.form with
    | .pair x l => x.wf && l.wf
    | .long dst imm => decide (dst < 32) && fits 32 imm)

/-- The word form of an L-slot command fits its fields. -/
def LaneL.wf (w : LaneL) : Bool := decide (w.lane < 64) && w.x.wf && w.beside.x.wf

/-- A host access of 1, 2, 4 or 8 bytes, aligned to its width. -/
def accessOk (offset width : Nat) : Bool := [1, 2, 4, 8].contains width && decide (offset % width = 0) && fits 32 offset

/-- A command that the device can be given. -/
def Instr.wf : Instr → Bool
  | .admitRoom h index maxParticipants => h.wf && Directive.wf (.admitRoom index maxParticipants)
  | .admitParticipant h index p a => h.wf && Directive.wf (.admitParticipant index p a)
  | .admitLeg h index l => h.wf && Directive.wf (.admitLeg index l)
  | .setLeg h index l => h.wf && Directive.wf (.setLeg index l)
  | .setParticipant h index minRate maxRate weight => h.wf && Directive.wf (.setParticipant index minRate maxRate weight)
  | .release h kind index => h.wf && Directive.wf (.release kind index)
  | .requestKeyframe h sender => h.wf && Directive.wf (.requestKeyframe sender)
  | .admitDecode h index d => h.wf && Directive.wf (.admitDecode index d)
  | .readStatistics h kind index what dest => h.wf && Directive.wf (.readStatistics kind index what dest)
  | .admitComposite h index c => h.wf && Directive.wf (.admitComposite index c)
  | .setLayout h index l length => h.wf && Directive.wf (.setLayout index l length)
  | .admitEncode h index e => h.wf && Directive.wf (.admitEncode index e)
  | .setEncode h index e => h.wf && Directive.wf (.setEncode index e)
  | .admitMix h room m => h.wf && Directive.wf (.admitMix room m)
  | .setRoute h leg mode gain => h.wf && Directive.wf (.setRoute leg mode gain)
  | .readLevels h room dest => h.wf && Directive.wf (.readLevels room dest)
  | .enableTalkerExport h room record => h.wf && Directive.wf (.enableTalkerExport room record)
  | .startThread h entry cluster arg => h.wf && Directive.wf (.startThread entry cluster arg)
  | .stopThread h thread => h.wf && Directive.wf (.stopThread thread)
  | .deliverKeyToken h t length => h.wf && Directive.wf (.deliverKeyToken t length)
  | .admitTunnel h index t => h.wf && Directive.wf (.admitTunnel index t)
  | .switchEpoch h tunnel epoch => h.wf && Directive.wf (.switchEpoch tunnel epoch)
  | .sendTunnelMessage h tunnel label data => h.wf && Directive.wf (.sendTunnelMessage tunnel label data)
  | .sendFrame h egress cls frame => h.wf && Directive.wf (.sendFrame egress cls frame)
  | .setShaper h egress cls rate burst => h.wf && Directive.wf (.setShaper egress cls rate burst)
  | .setPortLpi h macNo tw => h.wf && Directive.wf (.setPortLpi macNo tw)
  | .enablePon h port disabled registration => h.wf && Directive.wf (.enablePon port disabled registration)
  | .setPonPort h port index portId direction queue flags => h.wf && Directive.wf (.setPonPort port index portId direction queue flags)
  | .setPonMap h port cls allocId => h.wf && Directive.wf (.setPonMap port cls allocId)
  | .sendOmci h port message => h.wf && Directive.wf (.sendOmci port message)
  | .ponTimeOfDay h port superframe seconds nanoseconds => h.wf && Directive.wf (.ponTimeOfDay port superframe seconds nanoseconds)
  | .switchPon h => h.wf && Directive.wf .switchPon
  | .step h source => h.wf && Directive.wf (.step source)
  | .setSeconds h seconds => h.wf && Directive.wf (.setSeconds seconds)
  | .setMemoryRate h point => h.wf && Directive.wf (.setMemoryRate point)
  | .archivePages h first count keyEntry dest => h.wf && Directive.wf (.archivePages first count keyEntry dest)
  | .attest h nonce dest => h.wf && Directive.wf (.attest nonce dest)
  | .pushImage h image => h.wf && Directive.wf (.pushImage image)
  | .flashProgram h image slot => h.wf && Directive.wf (.flashProgram image slot)
  | .snapshotCounters h blocks dest clear => h.wf && Directive.wf (.snapshotCounters blocks dest clear)
  | .engineReset h kind index => h.wf && Directive.wf (.engineReset kind index)
  | .warmReset h => h.wf && Directive.wf .warmReset
  | .zeroize h => h.wf && Directive.wf .zeroize
  | .retire h => h.wf && Directive.wf .retire
  | .directiveFetch entries => entries.all (fun e => e.1.wf && e.2.wf)
  | .ringEnable ring value => decide (ring < 5) && fits 32 value
  | .ringIndexWrite ring value => decide (ring < 5) && fits 32 value
  | .registerWrite offset width value => accessOk offset width && fits (8 * width) value
  | .registerReadClear offset width => accessOk offset width
  | .snapshotCapture => true
  | .legsQuery kind index => fits 8 kind && fits 22 index
  | .decodeQuery kind index => fits 8 kind && fits 24 index
  | .veilQuery kind index => fits 8 kind && fits 24 index
  | .encodeQuery index => fits 12 index
  | .audioQuery kind index => fits 8 kind && fits 22 index
  | .mittenQuery index => fits 13 index
  | .ingressQuery kind index => fits 8 kind && fits 24 index
  | .cipherQuery index => fits 10 index
  | .gauntletQuery index => fits 12 index
  | .bandQuery kind index => fits 8 kind && fits 24 index
  | .ponQuery port index => decide (port < 2) && fits 10 index
  | .nearmemQuery stack kind index => decide (stack < 8) && fits 8 kind && fits 24 index
  | .marchGo group form => decide (group < 80) && decide (form < 2)
  | .marchDone failing again => (failing ++ again).all (fun w => decide (w < 80 * 8192))
  | .dmaGo channel => decide (channel < 64)
  | .dmaAbort channel => decide (channel < 64)
  | .chainHeadWrite channel address => decide (channel < 64) && fits 64 address
  | .clockRequest point => fits 2 point
  | .descriptorFetched channel d => decide (channel < 64) && d.all (fun x => x.length = 32)
  | .dmaAccessComplete channel _ data => decide (channel < 64) && decide (data.length ≤ 4096)
  | .ident => true
  | .status => true
  | .log first count => fits 32 first && fits 32 count
  | .counters block => fits 32 block
  | .challenge => true
  | .unlock block spelt => !spelt || decide (block.length = 7420)
  | .peek offset => fits 32 offset
  | .poke offset value => fits 32 offset && fits 32 value
  | .lock => true
  | .unlockExpiry => true
  | .pwrGoodFall => true
  | .pwrGoodRise => true
  | .selfTestDone _ => true
  | .resetNLow _ => true
  | .resetNRise => true
  | .perstN => true
  | .functionLevelReset => true
  | .pcieLinkLoss => true
  | .knitBreach => true
  | .railOutOfRange _ => true
  | .temperatureTrigger _ => true
  | .clockTrigger _ => true
  | .tamperIn input _ => decide (input < 4)
  | .zeroizePin _ => true
  | .zeroizeScrubDone => true
  | .entryToServing => true
  | .flashSlotVerify slot content => decide (slot < 2) && decide (content.length ≤ 33554432)
  | .imageVerified => true
  | .bootStep => true
  | .bootWait => true
  | .i2cWrite _ => true
  | .i2cPoll _ reply => reply.all (fun v => fits 8 v)
  | .gpioWait _ level => decide (level < 2)
  | .domainRampDone domain => decide (domain < 64)
  | .tickBoundary => true
  | .lateDrop kind _ => [2, 3, 4, 5, 6, 8].contains kind
  | .generationChanged => true
  | .generationRetired => true
  | .genForced => true
  | .ptpMessage port a _ => decide (port < 18) && fits 64 a.stamp && fits 8 a.via.domain && decide (a.via.transport < 3)
  | .sourceDisqualified => true
  | .restoreWaitExpiry source => decide (1 ≤ source) && decide (source ≤ 4)
  | .delayReqSend => true
  | .announceTimeout _ => true
  | .ppsEdge stamp _ => fits 64 stamp
  | .ppsMissing => true
  | .todTimeout port => decide (port < 2)
  | .ppsOut => true
  | .pulseWidthEnd output => decide (output < 2)
  | .heartbeat => true
  | .modTimeExpiry ring => decide (ring < 5)
  | .drbgReseed => true
  | .entropyHealthFail => true
  | .frameReceived macNo frame => decide (macNo < 16) && fits 64 frame.stamp && decide (frame.bytes.length ≤ frame.length)
  | .cuffBankSwitch cuff => decide (cuff < 18)
  | .frameParse cuff _ => decide (cuff < 18)
  | .fragTimeout entry => decide (entry < 8192)
  | .recirculated engine _ => decide (engine < 8)
  | .cipherJobAccept cluster port d _ => decide (cluster < 8) && decide (port < 128) && d.length = 64
  | .keyLoad cluster slot _ => decide (cluster < 8) && decide (slot < 1024)
  | .cipherCompletion _ r => decide (r.core < 32)
  | .layerRaiseWait _ => true
  | .palmReshare cluster slot => decide (cluster < 8) && decide (slot < 1024)
  | .feedbackReport participant items => fits 16 participant && items.all (fun i => fits 32 i.ssrc && fits 16 i.seq)
  | .feedbackStale _ => true
  | .nackUpTimer _ => true
  | .nackReceived _ seqs => seqs.all (fun q => fits 16 q)
  | .keyframeRequest _ _ => true
  | .keyframePendingExpiry _ => true
  | .legDrained kind _ => decide (kind < 3)
  | .frameReady _ _ => true
  | .decodeRowJob _ _ => true
  | .engineFailure kind index _ => decide (kind < 11) && decide (index < 16)
  | .compositeFrameBoundary _ => true
  | .signaturesComputed _ veil => decide (veil < 16)
  | .veilBandJob _ _ => true
  | .visorFail _ => true
  | .encodeFrameStart _ => true
  | .encodeRowJob _ _ => true
  | .audioPacket _ sequence => fits 16 sequence
  | .jbRecompute _ => true
  | .mixPeriod _ cluster => decide (cluster < 8)
  | .comfortNoise _ => true
  | .codecBatchDone cluster _ => decide (cluster < 8)
  | .talkerExportWrite _ => true
  | .preempt _ => true
  | .affinityExpiry _ => true
  | .threadDelayExpiry => true
  | .runaway lane => decide (lane < 64)
  | .nop lane => decide (lane < 64)
  | .add w => w.wf
  | .sub w => w.wf
  | .adds w => w.wf
  | .subs w => w.wf
  | .and w => w.wf
  | .or w => w.wf
  | .xor w => w.wf
  | .shl w => w.wf
  | .shr w => w.wf
  | .asr w => w.wf
  | .min w => w.wf
  | .max w => w.wf
  | .abs w => w.wf
  | .mul w => w.wf
  | .mov w => w.wf
  | .mac w => w.wf
  | .msu w => w.wf
  | .dot4 w => w.wf
  | .vmac4 w => w.wf
  | .aclr w => w.wf
  | .aext w => w.wf
  | .ald w => w.wf
  | .aadd w => w.wf
  | .dstep w => w.wf
  | .dfix w => w.wf
  | .movcTo w => w.wf
  | .movcFrom w => w.wf
  | .cmp w => w.wf
  | .ld8s w => w.wf
  | .ld16s w => w.wf
  | .ld32 w => w.wf
  | .ld64 w => w.wf
  | .ldq w => w.wf
  | .st8 w => w.wf
  | .st16 w => w.wf
  | .st32 w => w.wf
  | .st64 w => w.wf
  | .stq w => w.wf
  | .ldxy lane x beside => decide (lane < 64) && x.wf && beside.x.wf
  | .pset w => w.wf
  | .pget w => w.wf
  | .br lane cond offset => decide (lane < 64) && Control.wf (.br cond offset)
  | .call lane cond offset => decide (lane < 64) && Control.wf (.call cond offset)
  | .ret lane => decide (lane < 64)
  | .loop lane level rotate isReg count body => decide (lane < 64) && Control.wf (.loop level rotate isReg count body)
  | .wait lane mode value => decide (lane < 64) && Control.wf (.wait mode value)
  | .signal lane cluster event => decide (lane < 64) && Control.wf (.signal cluster event)
  | .spawn lane entry arg result => decide (lane < 64) && Control.wf (.spawn entry arg result)
  | .fetch lane localReg pair words => decide (lane < 64) && Control.wf (.fetch localReg pair words)
  | .put lane localReg pair words => decide (lane < 64) && Control.wf (.put localReg pair words)
  | .fence lane => decide (lane < 64)
  | .transferDone lane bank _ => decide (lane < 64) && decide (bank < 3)
  | .gauntletFrameRx port stamp _ => decide (port < 18) && fits 64 stamp
  | .oldEpochExpiry _ => true
  | .tunnelFrameSlot _ => true
  | .tunnelDown _ => true
  | .tunnelFreed _ => true
  | .bandRelease => true
  | .pacingSlot => true
  | .egressFree egress => decide (egress < 18)
  | .gateEntryChange egress => decide (egress < 18)
  | .gateListChanged egress => decide (egress < 18)
  | .ponGrant port allocId => decide (port < 2) && fits 14 allocId
  | .linkUp macNo => decide (macNo < 16)
  | .linkDown macNo _ => decide (macNo < 16)
  | .lpiEnter macNo => decide (macNo < 16)
  | .lpiWake macNo => decide (macNo < 16)
  | .psyncHunt port _ r => decide (port < 2) && decide (r.errors ≤ 64)
  | .syncLost port => decide (port < 2)
  | .ponDownstreamFrame port frame => decide (port < 2) && fits 64 frame.stamp && frame.bwmap.all (fun a => fits 14 a.allocId)
  | .burstProfile port _ p => decide (port < 2) && fits 2 p.index
  | .assignOnuId port _ _ onuId => decide (port < 2) && fits 10 onuId
  | .rangingTime port _ _ _ => decide (port < 2)
  | .requestRegistration port _ => decide (port < 2)
  | .assignAllocId port _ allocId _ => decide (port < 2) && fits 14 allocId
  | .keyControl port _ index => decide (port < 2) && fits 2 index
  | .deactivateOnuId port _ => decide (port < 2)
  | .disableSerialNumber port _ _ _ => decide (port < 2)
  | .sleepAllow port _ => decide (port < 2)
  | .ploamUnsupported port _ kind => decide (port < 2) && fits 8 kind
  | .to1Expiry port => decide (port < 2)
  | .to2Expiry port => decide (port < 2)
  | .burstWindow port => decide (port < 2)
  | .watchdogTrip port _ _ => decide (port < 2)
  | .omciMessage port _ => decide (port < 2)
  | .protectSwitch => true
  | .todMeasurement port => decide (port < 2)
  | .memoryRequest stack channel request _ => decide (stack < 8) && decide (channel < 16) && request.all (fun q => q.wf)
  | .refreshDue stack channel bank => decide (stack < 8) && decide (channel < 16) && decide (bank < 32)
  | .temperatureReading stack celsius => decide (stack < 8) && fitsS8 celsius
  | .catchupEnd stack => decide (stack < 8)
  | .rowRemap stack channel r => r.uncorrectable.all (fun k => decide (k < 16)) && decide (stack < 8) && decide (channel < 16) && decide (r.bank < 32)
  | .scrubRead stack channel _ => decide (stack < 8) && decide (channel < 16)
  | .trackingStep stack channel _ _ => decide (stack < 8) && decide (channel < 16)
  | .channelFault stack channel => decide (stack < 8) && decide (channel < 16)
  | .liningAccess group requests => decide (group < 80) && requests.all (fun q => q.request.wf)
  | .rowSpare group r => r.uncorrectable.all (fun k => decide (k < 8)) && decide (group < 80) && decide (r.bank < 64)
  | .gloveboxAccess request => request.wf
  | .pageFetchDone _ r => r.wf
  | .crownLinkFault met => fits 16 met.link
  | .retirement kind index => decide (kind < 8) && decide (index < 16)
  | .autoWarmReset => true
  | .setPointChange => true
  | .junctionReading celsius => fitsS8 celsius
  | .agingCheck _ => true
  | .pcieLinkUp => true
  | .engineResetDone kind index => decide (kind < 11) && decide (index < 16)
  | .entropyStartupPassed => true
  | .trainingSetExpiry stack point => decide (stack < 8) && decide (point < 3)
  | .memoryRetrainingDone _ => true
  | .attestationReportSigned => true
  | .flashProgramWritten => true
  | .partnerLpiSignal macNo _ => decide (macNo < 16)

end Sys2Proof
end

