-- ==== Sys2Proof/Safety.lean ====
section
/-!
DEFINITION. What a safe run is: every command of the queue is well formed, no step ends in a fault or a refusal, and the tables and
memories of the state keep their canonical form. With it stand the words that the statements about the commands use.
-/

namespace Sys2Proof.Machine

/-- A command completes: the device has a next state. -/
def Completes (c : Instr) (s : State) : Prop := ∃ t, exec c s = .next t

/-- A step completes. -/
def StepCompletes (s : State) : Prop := ∃ t, step s = .next t

/-- Every command that waits is one that the device can be given. -/
def State.queueWf (s : State) : Bool := s.pending.all Instr.wf

/-- Internal memory, the local memories of the lanes and the page frames are in canonical form. -/
def State.memoryWf (s : State) : Bool :=
  Memory.wf s.mem && List.all s.mitten.lanes (fun e => Memory.wf e.2.mem) && List.all s.glove.frames (fun e => Memory.wf e.2.data)

/-- `k` steps without a fault or a refusal. -/
def SafeFor : Nat → State → Prop
  | 0, _ => True
  | k + 1, s => ∃ t, step s = .next t ∧ SafeFor k t

/-! ### Words for directives -/

/-- Whether a verdict lets the directive's own rules apply. -/
def Verdict.isPassed : Verdict → Bool
  | .passed _ => true
  | _ => false

/-- The directive stands at the head of a ring that is evaluated now, and steps 1 to 7 of R461 pass it. -/
def passes (s : State) (h : DirHeader) (d : Directive) : Bool := dirReady s && cplReady s && (check (takeHead s) h d).isPassed

/-- The state in which the own rules of a directive that passes apply (step 8 of R461). -/
def checked (s : State) (h : DirHeader) (d : Directive) : State :=
  match check (takeHead s) h d with
  | .passed p => p
  | _ => s

/-- The state after a directive whose own rules succeed at once in `p`: its completion is final, with STATUS 0. -/
def answered (s : State) (h : DirHeader) (d : Directive) (p : State) (detail result : Nat) : State :=
  complete p ((entryAt s h d).final 0 detail result)

/-- The state after a directive that succeeds and whose effect comes at the next tick boundary. -/
def putOff (s : State) (h : DirHeader) (d : Directive) (info : List Nat) : State := answered s h d (later (checked s h d) d info) 0 0

/-! ### When the own rules of a directive let it act (R105 to R107, R133, R141, R155, R182, R210 to R213, R263, R322, R382, R395) -/

/-- The room of a new participant is ACTIVE and has space. -/
def roomTakes (s : State) (room : Nat) : Bool :=
  ((s.rooms.get room).map (fun r => decide (r.state = .active) && decide ((partsOfRoom s room).length < r.maxParticipants))).getD false

/-- Admit-participant: its entry is free, its room takes it, its tunnel serves where it has one, and the classification table has space. -/
def participantAdmissible (s : State) (i : Nat) (p : PartSpec) : Bool :=
  (s.participants.get i).isNone && roomTakes s p.room && (tunnelRefusal s p).isNone && (participantEntry s i p).isSome

/-- The format of a PRODUCED leg fits its mix (R211). -/
def formatFits (s : State) (x : LegSpec) : Bool := ((mixOfLeg s x).map (fun rm => (addFormat rm.2.formats x.codec x.rate).isSome)).getD true

/-- The formats of the mix of a PRODUCED leg, with that of the leg. -/
def formatsOf (s : State) (x : LegSpec) : Option (Nat × Mix × List (Option MixFormat)) :=
  (mixOfLeg s x).map (fun rm => (rm.1, rm.2, (addFormat rm.2.formats x.codec x.rate).getD []))

/-- The SSRCs that a RECEIVE leg expects. -/
def expectedSsrcs (x : LegSpec) : List Nat := if x.kind = 0 then x.ssrc :: (if x.rtx then [x.rtxSsrc] else []) else []

/-- The clusters that a leg may be placed on. -/
def legClusters (s : State) (x : LegSpec) : List Nat := if x.kind = 0 && x.media = 0 then audioCandidates s x.room else [0]

/-- The tables, the RTX region and the budgets have room for a leg of a participant. -/
def legFits (s : State) (l : Nat) (x : LegSpec) (a : PartSpec) : Bool :=
  decide ((legsOfPart s x.participant).length < 256) && !mixBars s x && !(expectedSsrcs x).any (ssrcsOf s (ssrcHolder x.participant a) l).contains
    && !(decide (x.kind = 0) && x.rtx && decide (x.ssrc = x.rtxSsrc)) && formatFits s x && (placeRtx s l x).isSome
    && (legClusters s x).any (fun c => (overBudget s (admitLegCharges s l x a (formatsOf s x) c)).isNone)
    && (legEntriesOf s l (ssrcHolder x.participant a) (expectedSsrcs x)).isSome

/-- Admit-leg: its entry is free, its participant is ACTIVE and of its room, its SOURCE serves, and there is room for it. -/
def legAdmissible (s : State) (l : Nat) (x : LegSpec) : Bool :=
  (s.legs.get l).isNone && (sourceRefusal s x).isNone
    && ((s.participants.get x.participant).map (fun a => decide (a.state = .active) && decide (x.room = a.spec.room)
      && legFits s l { x with packetSize := packetSizeOf s x } a.spec)).getD false

/-- The leg as a set-leg will leave it. -/
def legNext (s : State) (l : Nat) (c : LegChange) (x : LegSpec) : LegSpec := futureSpec (later s (.setLeg l c) []) l x

/-- The area that a leg has after a set-leg. -/
def areaNext (s : State) (l : Nat) (c : LegChange) (x : Leg) : Option Nat :=
  if rtxNeed (legNext s l c x.spec) = x.rtxSize then some x.rtxArea else placeRtx s l (legNext s l c x.spec)

/-- Set-leg on a leg whose RTX does not change: the leg is live, its format and its RTX area fit, and the budgets hold its charges. -/
def legChangeable (s : State) (l : Nat) (c : LegChange) : Bool :=
  legLive s l && ((s.legs.get l).map (fun x =>
    decide ((legNext s l c x.spec).rtx = (futureSpec s l x.spec).rtx) && formatFits s (legNext s l c x.spec)
      && ((areaNext s l c x).map (fun a => (overBudget s (setLegCharges (later s (.setLeg l c) [a, rtxNeed (legNext s l c x.spec)]) l x.spec
        (formatsOf s (legNext s l c x.spec)))).isNone)).getD false)).getD false

/-- The charges of a decode stream on a cluster. -/
def decodeCost (i : Nat) (d : DecodeSpec) (u : Nat) : List NewCharges := [{ kind := 3, index := i, charges := decodeCharges i u (decodeBlocks d) d }]

/-- The cluster that a decode stream is placed on, if one has room (R133). -/
def decodePlace (s : State) (i : Nat) (d : DecodeSpec) : Option Nat :=
  (placeWork s 1 (chargeOf (decodeBlocks d * d.rate) 8000) 4 (poolQuarter s d.pool) (enginesOf s 0) (decodeCost i d)).getRight?

/-- Admit-decode: its entry is free, it names a live video RECEIVE leg of its codec, its pool and the bitstream region serve, and a cluster has room. -/
def decodeAdmissible (s : State) (i : Nat) (d : DecodeSpec) : Bool :=
  (s.decodes.get i).isNone && legLive s d.leg
    && ((s.legs.get d.leg).map (fun x => decide (x.spec.kind = 0) && decide (x.spec.media = 1) && decide (x.spec.codec = d.codec))).getD false
    && poolMeets s d.pool (decodeReserve s d) && bitstreamFits s d.bitstreamKib && (decodePlace s i d).isSome

/-- The charges of a composite on a Veil. -/
def compositeCost (s : State) (i : Nat) (c : CompositeSpec) (u : Nat) : List NewCharges :=
  [{ kind := 4, index := i, charges := compositeCharges s i u c none }]

/-- The Veil that a composite is placed on. -/
def compositePlace (s : State) (i : Nat) (c : CompositeSpec) : Option Nat :=
  (placeWork s 3 (chargeOf (c.width * 16 * ceilDiv c.height 16 * c.rate) 8000) 4 (poolQuarter s c.pool) (enginesOf s 2) (compositeCost s i c)).getRight?

/-- Admit-composite: its entry is free, its pool serves, and a Veil has room. -/
def compositeAdmissible (s : State) (i : Nat) (c : CompositeSpec) : Bool :=
  (s.composites.get i).isNone && poolMeets s c.pool (compositeReserve s) && (compositePlace s i c).isSome

/-- The charges of an encode stream of a picture size on a cluster. -/
def encodeCost (i : Nat) (e : EncodeSpec) (size : Nat × Nat) (u : Nat) : List NewCharges :=
  [{ kind := 5, index := i, charges := encodeCharges i u (frameBlocks (spatialLayers e.structure_) size.1 size.2) e }]

/-- The cluster that an encode stream is placed on. -/
def encodePlace (s : State) (i : Nat) (e : EncodeSpec) (size : Nat × Nat) : Option Nat :=
  (placeWork s 2 (chargeOf (frameBlocks (spatialLayers e.structure_) size.1 size.2 * e.rate) 8000) 2 (poolQuarter s e.pool) (enginesOf s 1)
    (encodeCost i e size)).getRight?

/-- Admit-encode from a source that gives pictures of a size: its entry is free, the source serves, its pool serves, and a cluster has room. -/
def encodeAdmissible (s : State) (i : Nat) (e : EncodeSpec) (size : Nat × Nat) : Bool :=
  (s.encodes.get i).isNone && !sourceDraining s e.sourceKind e.source && decide (sourceSize s e.sourceKind e.source = some size)
    && poolMeets s e.pool (encodeReserve s e) && (encodePlace s i e size).isSome

/-- The charges of a mix on a cluster. -/
def mixCost (r : Nat) (m : MixSpec) (u : Nat) : List NewCharges := [{ kind := 6, index := r, charges := mixCharges r u m.maxTalkers [] }]

/-- Admit-mix: its room is ACTIVE and has no mix, no participant of it sends two voices, and a cluster has room. -/
def mixAdmissible (s : State) (r : Nat) (m : MixSpec) : Bool :=
  roomActive s r && (s.mixes.get r).isNone && !doubledVoices s r && (enginesOf s 3).any (fun u => (overBudget s (mixCost r m u)).isNone)

/-- Admit-tunnel: its entry is free, a tunnel queue and, if pinned, the pins are there, and the budgets and the classification table have room. -/
def tunnelAdmissible (s : State) (i : Nat) (t : TunnelSpec) : Bool :=
  (s.gauntlet.tunnels.get i).isNone && decide (s.gauntlet.tunnels.length < (structure_ s).part.tunnelQueues) && (!t.pinned || pinFits s i)
    && (overBudget s [{ kind := 7, index := i, charges := tunnelCharges s (batchWindow s) i t }]).isNone && (tunnelEntry s i t).isSome

/-- The thread that a start-thread would take: the lowest that is free. -/
def nextThread (s : State) : Option Nat := lowest 8192 (fun t => (s.mitten.threads.get t).isNone && !(threadsDue s).contains t)

/-- The charges of a thread on a cluster. -/
def threadCost (t cost u : Nat) : List NewCharges := [{ kind := 8, index := t, charges := [chargeAt 8 t 6 u cost 1] }]

/-- The cluster that a thread is placed on. -/
def threadPlace (s : State) (t cost cluster : Nat) : Option Nat :=
  (placeWork s 6 (chargeOf cost 1) 2 none (if cluster = 255 then enginesOf s 3 else [cluster]) (threadCost t cost)).getRight?

/-- Set-pon-port: the port may be named, and the entry is one that the host holds and, when it is set, within the limits of the OMCI record, with a
Port-ID that no other entry has and the only OMCI entry. -/
def ponEntryAdmissible (s : State) (p index portId direction queue flags : Nat) : Bool :=
  let t := portIdsDue s p
  let others := t.del index
  ponNamed s p && !((t.get index).map (fun e => decide (bitOf e.flags 1 = 1))).getD false
    && (decide (direction = 0)
      || (!portIdDenied (omciLimits s) ((others.filter (fun e => bitOf e.2.flags 1 = 0)).length + 1) direction queue flags
        && !others.any (fun e => decide (e.2.portId = portId)) && !(decide (bitOf flags 2 = 1) && others.any (fun e => decide (bitOf e.2.flags 2 = 1)))))

/-- Send-omci: the port may be named and is in O5, and the rate of the OMCI record is not used up. -/
def omciAdmissible (s : State) (p : Nat) : Bool := ponNamed s p && decide (ponState s p = 4) && decide ((omciRecent s p).length < (omciLimits s).rate)

/-- Pon-time-of-day: the port may be named, and the OMCI record lets the host bind times. -/
def todAdmissible (s : State) (p : Nat) : Bool := ponNamed s p && decide (bitOf (omciLimits s).flags 2 = 1)

/-- Set-pon-map: the port may be named, the Alloc-ID is the port's, and its class map names no more of them than it may. -/
def ponMapAdmissible (s : State) (p c allocId : Nat) : Bool :=
  ponNamed s p && (decide (allocId = 0xFFFF) || (ponPort s p).allocs.contains (some allocId))
    && decide ((((putClass (classMapDue s p) c allocId).filterMap id).filter (fun a => some a ≠ defaultAlloc s p)).eraseDups.length ≤ (omciLimits s).maxAllocMap)

/-- Set-layout on a composite: the list is valid, and the budgets hold the charges it brings. -/
def layoutAdmissible (s : State) (i : Nat) (c : Composite) (l : DisplayList) (length : Nat) : Bool :=
  decide (c.state ≠ .draining) && decide (layoutDetail s c.spec l length true = 0)
    && (overBudget s [{ kind := 4, index := i, charges := compositeCharges s i c.veil c.spec (some l) }]).isNone

/-- What a token is worth once it is taken up: it is accepted, and its key has a place or waits for one. -/
def tokenTaken (s : State) (t : KeyToken) : Bool :=
  decide (tokenReason s t = 0) && (decide (t.usage = 5) || (replacedBy s t).isSome || (decide (t.usage = 3) && tunnelHolds s t.target)
    || (freeEntry s t.target).isSome)

/-- A producer or leg that request-keyframe may name is live. -/
def senderLive (s : State) (sender : Nat) : Bool :=
  if isMixId sender then ((s.mixes.get (sender - 0x20000000)).map (fun m => decide (m.state ≠ .draining))).getD false
  else if 0x10000000 ≤ sender then ((s.encodes.get (sender - 0x10000000)).map (fun e => decide (e.state ≠ .draining))).getD false
  else legLive s sender

/-- A FORCED route finds a place among MAX_TALKERS of its room's mix. -/
def routeFits (s : State) (l mode : Nat) : Bool :=
  decide (mode ≠ 1) || ((s.legs.get l).map (fun x =>
    (((s.rooms.get x.spec.room).bind (fun r => if r.mix then some r.maxTalkers else none)).map
      (fun n => decide (forcedIn s x.spec.room l < n))).getD true)).getD false

/-! ### Words for the engines' rows -/

/-- A decode row of a stream's job is due: in service, at its turn, before a third late tick, on a cluster that works. -/
def decodeRowDue (s : State) (d : DecodeStream) (j : DecodeFrame) : Bool :=
  inService s && j.sched.due s && decide (d.lateRun < 3) && inServiceEngine s 0 d.cluster && !s.faults.resetting.contains (engineId 0 d.cluster)

/-- An encode row of a stream's job is due. -/
def encodeRowDue (s : State) (e : EncodeStream) (j : EncodeFrame) : Bool :=
  inService s && j.sched.due s && decide (e.lateRun < 3) && inServiceEngine s 1 e.cluster && !s.faults.resetting.contains (engineId 1 e.cluster)

/-- The cycles that the row of an encode job that is next may take in a tick (R187). -/
def encodeRowCap (s : State) (e : EncodeStream) (j : EncodeFrame) : Nat :=
  rd s Reg.ENCODE.ENCODE_CONFIG_CAP_PER_BLOCK * (blocksAlong (jobPlace e j j.sched.next).width * (jobPlace e j j.sched.next).rows)

/-- The cycles that the work of an encode row takes. -/
def encodeRowNeed (w : EncodeWork) : Nat := (w.blocks.map (·.cycles)).sum

/-- The blocks of the decode row that is next, as its work gives them. -/
def decodeRowBlocks (j : DecodeFrame) (w : RowWork) : List BlockWork :=
  (List.range (rowPlace j.frame j.sched.next).blocks).map (fun k => w.blocks.getD k missingBlock)

/-- The cycles that the work of a decode row takes, and the cycles that it may take in a tick (R136). -/
def decodeRowNeed (j : DecodeFrame) (w : RowWork) : Nat := ((decodeRowBlocks j w).map (·.cycles)).sum

@[inherit_doc decodeRowNeed]
def decodeRowCap (s : State) (j : DecodeFrame) : Nat := rd s Reg.DECODE.DECODE_CONFIG_CAP_PER_BLOCK * (rowPlace j.frame j.sched.next).blocks

/-- The work of a decode row writes only where it may, and its engine does not fail (R143, R150). -/
def decodeRowWorks (s : State) (out : Nat) (w : RowWork) : Bool := !((strayWrites s out w.writes).2 || w.failed)

/-- The work of an encode row writes only where it may, and its engine does not fail. -/
def encodeRowWorks (s : State) (out : Nat) (w : EncodeWork) : Bool := !((strayEncodeWrites s out w.writes).2 || w.failed)

/-- The work of a band writes only where it may, and its engine does not fail. -/
def bandWorks (s : State) (j : CompFrame) (w : BandWork) : Bool :=
  !(w.failed || w.writes.any (fun x => !writeAllowed s j.buffer x.1 x.2.length))

/-- The frame of a composite once its band has been composed: its region checks have run on and the band is counted. -/
def bandFrame (s : State) (c : Composite) (j : CompFrame) (w : BandWork) : CompFrame :=
  { j with crcs := bandCrcs s (generationOf s j.generation) c.spec j w, sched := j.sched.done }

/-- The state once a band has been composed: the samples stand in the frame's buffer, and the poisoned blocks drawn as FILL are counted. -/
def bandWritten (s : State) (c : Composite) (j : CompFrame) (w : BandWork) : State :=
  let g := generationOf s j.generation
  w.writes.foldl (fun t x => store t x.1 x.2) (writeBand (bumpBy s Reg.VEIL.POISON_FILLS (poisonFills s g c.spec j w)) g c.spec j w)

/-- A band of a composite's job is due: in service, at its turn, before a third late tick, on a Veil that works. -/
def bandDue (s : State) (c : Composite) (j : CompFrame) : Bool :=
  inService s && j.sched.due s && decide (c.lateRun < 3) && inServiceEngine s 2 c.veil && !s.faults.resetting.contains (engineId 2 c.veil)

/-! ### Words for the Mitten lanes -/

/-- The operands of an A-slot word. -/
def operandsOf : AForm → AIn
  | .pair x _ => x.toIn
  | .long dst imm => longIn dst imm

/-- The L slot beside an A-slot word. -/
def besideOf : AForm → LSlot
  | .pair _ l => l
  | .long _ _ => .nop

/-- What the A slot of a word writes on a lane; none where it is illegal. -/
def aOutcome (s : State) (l : Nat) (k : BankId) (t : Nat) (x : Thread) (op : AOp) (i : AIn) : Option AEffect :=
  aSlot ((laneOf s l).bank k) (controlReg s l ((laneOf s l).bank k) t x.generation) op i

/-- The fields of an A slot are legal for its operation: an accumulator, a control register, aligned quads, a saturation width (R239, R247, R249). -/
def aLegal (op : AOp) (i : AIn) : Bool :=
  let narrow := decide (i.satw < 3)
  let quads := i.imm.isSome || (decide (i.src1 % 4 = 0) && decide (i.src2 % 4 = 0))
  match op with
  | .mac => decide (i.dst < 8) && narrow
  | .msu => decide (i.dst < 8) && narrow
  | .ald => decide (i.dst < 8) && narrow
  | .dot4 => quads && decide (i.dst < 8) && narrow
  | .vmac4 => quads && (decide (i.dst = 0) || decide (i.dst = 4)) && narrow
  | .aclr => decide (i.dst < 8)
  | .dstep => decide (i.dst < 8)
  | .dfix => decide (i.dst < 8)
  | .aext => i.imm.isSome || decide (i.src1 < 8)
  | .aadd => decide (i.dst < 8) && (i.imm.isSome || (decide (i.src1 < 8) && decide (i.src2 < 8) && narrow))
  | .movcTo => decide (i.dst < 16)
  | .movcFrom => i.imm.isSome || decide (i.src1 < 16)
  | _ => true

/-- The pointer update and the registers of an L slot are legal in a bank (R241, R242). -/
def lLegal (b : Bank) : LSlot → Bool
  | .nop => true
  | .mem op x => decide (op = .pset) || decide (op = .pget) || ((b.nextPtr x.ptr x.upd).isSome && op.regOk x.reg)
  | .ldxy x => (b.nextPtr x.ptrX x.updX).isSome && (b.nextPtr x.ptrY x.updY).isSome

/-- The accesses of an L slot stay in the local memory that its bank may use, aligned as they must be. -/
def lReaches (k : BankId) (b : Bank) : LSlot → Bool
  | .nop => true
  | .mem op x => decide (op = .pset) || decide (op = .pget) || localOk k (b.address x.ptr x.offset) op.size
  | .ldxy x => localOk k (b.address x.ptrX 0) 16 && localOk k (b.address x.ptrY 0) 16

/-- The data register that an A slot writes. -/
def aDest (op : AOp) (i : AIn) : Option Nat :=
  if op ∈ [.nop, .cmp, .mac, .msu, .dot4, .vmac4, .aclr, .ald, .aadd, .dstep, .dfix, .movcTo] then none else some i.dst

/-- The data registers that an L slot writes. -/
def lDests : LSlot → List Nat
  | .nop => []
  | .mem op x => if op = .pset || op.stores then [] else if op = .pget then [x.reg] else (List.range (max 1 (op.size / 4))).map (x.reg + ·)
  | .ldxy x => (List.range 4).map (4 * x.quadX + ·) ++ (List.range 4).map (4 * x.quadY + ·)

/-- The two slots of a word write no data register in common. -/
def slotsApart (b : Bank) (op : AOp) (i : AIn) (ls : LSlot) : Bool :=
  !(aDest op i).any (fun r => (lDests ls).any (fun q => decide (physReg b.rot q = physReg b.rot r)))

/-- A LOOP is legal (R245, R246): its count fits 16 bits, its body ends within the code, its level is free, and one level at most rotates. -/
def loopLegal (b : Bank) (codeLen level : Nat) (rotate : Bool) (count body : Nat) : Bool :=
  !(decide (65535 < count) || decide (codeLen ≤ b.pc + 8 * body) || (decide (level = 0) && decide (b.lc0 ≠ 0))
    || (decide (level = 1) && (decide (b.lc1 ≠ 0) || decide (b.lc0 ≠ 0)))
    || (rotate && (if level = 0 then decide (b.lc1 ≠ 0) && b.rot1 else decide (b.lc0 ≠ 0) && b.rot0)))

/-- Where a branch goes: OFFSET words from the word, or from the one after it (`Config.branchFromNext`). -/
def branchAddress (b : Bank) (off : Int) : Int := (b.pc : Int) + (if Config.branchFromNext then 8 else 0) + 8 * off

/-- What the L slot of a word writes on a lane. -/
def lOutcome (s : State) (l : Nat) (k : BankId) (ls : LSlot) : LResult := lSlot k ((laneOf s l).bank k) (laneOf s l).mem ls

/-- The state after a word whose two slots have written: its stores, its registers, its program counter, its cycles. -/
def wordDone (s : State) (l : Nat) (k : BankId) (a : AEffect) (e : LEffect) : State :=
  putBank (withLane s l { laneOf s l with mem := writeLocal (laneOf s l).mem e.mem }) l k (((laneOf s l).bank k).write a e).advance (1 + e.extra)

/-- The state after a CONTROL word that leaves `b` in its bank after `n` cycles. -/
def controlDone (s : State) (l : Nat) (k : BankId) (b : Bank) (n : Nat) : State := putBank s l k b n

/-- The local and the internal address of FETCH and PUT, and the transfer that they queue. -/
def transferOf (b : Bank) (isPut : Bool) (r pair words : Nat) : Transfer :=
  { isPut := isPut, localAddr := (b.dreg r).toNat, address := ((b.dreg pair).toNat + (b.dreg (pair + 1)).toNat * 2 ^ 32) % 2 ^ 48, words := words }

/-- Both addresses of a transfer are aligned to 64 bytes, and its local part lies in the memory that its bank may use. -/
def transferFits (k : BankId) (b : Bank) (r pair words : Nat) : Bool :=
  let x := transferOf b false r pair words
  decide (x.localAddr % 64 = 0) && decide (x.address % 64 = 0) && decide (x.localAddr + 64 * words ≤ 16384)
    && (decide (k ≠ .normal) || decide (x.localAddr + 64 * words ≤ 14336))

/-- `n` steps of DSTEP by one divisor, on an accumulator with a value of DQ. -/
def divSteps : Nat → Nat → Int → Bool → Int
  | 0, _, a, _ => a
  | n + 1, d, a, dq => divSteps n d (divStep a d dq).1 (divStep a d dq).2

end Sys2Proof.Machine
end

