-- ==== Sys2Proof/Certificates/Slice0/Obligations.lean ====
section
/-!
DEFINITION. The statements about the model, for the provers. A statement about an effect names the function of the model that gives it and
the conditions under which the command has it; the rules of the spec that it rests on are in OBLIGATIONS.json.
-/

open Sys2Proof Sys2Proof.Machine

/-- For every command, state and queue: a step of a state whose queue begins with the command is exec of the command on the state with the rest
of the queue; with an empty queue the step is one cycle of the clock (log entry 2). Nothing else is done around exec. -/
def Obligations.StepTakesTheFrontCommand : Prop :=
  (∀ (c : Instr) (rest : List Instr) (s : State), s.pending = c :: rest → step s = exec c (s.withQueue rest)) ∧
  (∀ s : State, s.pending = [] → step s = .next (idleCycle s)) ∧
  (∀ (s : State) (q : List Instr), (s.withQueue q).pending = q)

/-- For every command and every state, exec answers a next state, except that REGISTER_WRITE and REGISTER_READ_CLEAR with bytes beyond the 64
MiB of BAR 0 end in the fault outsideBar0. No command is ever refused. (That a command is turned away or waits is its effect; the statements
by family say what each does.) -/
def Obligations.EveryCommandCompletes : Prop :=
  (∀ (c : Instr) (s : State), (∃ t, exec c s = .next t) ∨ ∃ off, exec c s = .fault (.outsideBar0 off)) ∧
  (∀ (c : Instr) (s : State) (r : Refusal), exec c s ≠ .refused r) ∧
  (∀ (c : Instr) (s : State) (f : Fault), exec c s = .fault f →
    (∃ off width value, c = .registerWrite off width value ∧ inBar0 off width = false) ∨
    (∃ off width, c = .registerReadClear off width ∧ inBar0 off width = false))

/-- The state after reset: mode Dormant with PWR_GOOD low, no link, an empty queue of commands, empty rings, an empty fault log, internal memory
with nothing listed (every byte reads zero: a choice of the model, see the assumption log), no rooms, legs or threads, no image accepted.
The fuses are those of a factory part, which is the model's choice of a part (assumption log). -/
def Obligations.ResetLeavesTheSpecifiedState : Prop :=
  State.reset.mode = .dormant ∧ State.reset.power.pwrGood = false ∧ State.reset.host.linkUp = false ∧ State.reset.pending = [] ∧
  State.reset.regs = [] ∧ State.reset.mem = [] ∧ State.reset.faults.log = [] ∧ State.reset.faults.nextSeq = 0 ∧
  State.reset.rooms = [] ∧ State.reset.participants = [] ∧ State.reset.legs = [] ∧ State.reset.mitten.threads = [] ∧
  State.reset.trust.accepted = false ∧ State.reset.out = [] ∧
  (∀ k ∈ [0, 1, 2, 3, 4], Ring.empty State.reset (ringAt k).ring = true ∧ rd State.reset (ringAt k).ring.enable = 0)

/-- For every state, whatever command stands at the front of its queue (or none): a step that answers a next state leaves the identity that the
fuses fix, the part (PSX-8840 or PSX-8832), the grade and the development variant, as it was. No image, directive, reset or fault changes
it. -/
def Obligations.PartIdentityNeverChanges : Prop :=
  ∀ s t : State, step s = .next t →
    t.trust.fuses.is8832 = s.trust.fuses.is8832 ∧ t.trust.fuses.gradeI = s.trust.fuses.gradeI ∧ t.trust.fuses.dv = s.trust.fuses.dv

/-- For every command and state: if exec answers a next state, the queue of that state is the queue it was given. With StepTakesTheFrontCommand,
each step shortens the queue by exactly the command it ran. -/
def Obligations.CommandsLeaveTheQueue : Prop :=
  (∀ (c : Instr) (s t : State), exec c s = .next t → t.pending = s.pending) ∧
  (∀ (c : Instr) (rest : List Instr) (s t : State), s.pending = c :: rest → step s = .next t → t.pending = rest) ∧
  (∀ s t : State, s.pending = [] → step s = .next t → t.pending = [])

/-- For every state whose internal memory, local memories of the lanes and page frames of the Glovebox are in canonical form (addresses strictly
rising, no zero byte listed): a step that answers a next state leaves them all in canonical form, whatever command it ran. Equal memories
are therefore equal data. -/
def Obligations.InternalMemoryStaysCanonical : Prop :=
  ∀ s t : State, s.memoryWf = true → step s = .next t → t.memoryWf = true

/-- Internal memory, the lanes' memories and the page frames after the cold reset are in canonical form, and every address reads as zero (what
an unwritten byte reads as is the model's choice, see the assumption log). -/
def Obligations.ResetMemoryIsCanonical : Prop :=
  State.reset.memoryWf = true ∧ ∀ a : Nat, memByte State.reset.mem a = 0

/-- For every memory, address and list of bytes: in a canonical memory, after the bytes are written from the address on, reading as many bytes
from there gives them back; every address below the first or beyond the last reads as before; and the write keeps the canonical form. Two
canonical memories that read alike everywhere are equal, and writes to ranges that do not meet may be exchanged. The first and the last two
clauses are about memories in canonical form. -/
def Obligations.MemoryReadsBackWhatWasWritten : Prop :=
  (∀ (m : List Host.Cell) (a : Nat) (bs : List Byte), Memory.wf m = true → memRead (memWrite m a bs) a bs.length = bs) ∧
  (∀ (m : List Host.Cell) (a : Nat) (bs : List Byte) (x : Nat), x < a ∨ a + bs.length ≤ x → memByte (memWrite m a bs) x = memByte m x) ∧
  (∀ (m : List Host.Cell) (a : Nat) (bs : List Byte), Memory.wf m = true → Memory.wf (memWrite m a bs) = true) ∧
  (∀ (m n : List Host.Cell), Memory.wf m = true → Memory.wf n = true → (∀ a, memByte m a = memByte n a) → m = n) ∧
  (∀ (m : List Host.Cell) (a b : Nat) (x y : List Byte), Memory.wf m = true → a + x.length ≤ b → memWrite (memWrite m a x) b y = memWrite (memWrite m b y) a x)

/-- For every state, field and value: after the field is written it reads as the value modulo 2 to its width; every field with another key reads
as before; the mode, memory, rings of outputs, tables and queue are untouched. A counter that is bumped saturates at all ones. A write keeps
the table of the register file in index order. -/
def Obligations.RegisterFileReadsBackWhatWasWritten : Prop :=
  (∀ (s : State) (f : Fld) (v : Nat), rd (wr s f v) f = v % 2 ^ f.width) ∧
  (∀ (s : State) (f g : Fld) (v : Nat), g.key ≠ f.key → rd (wr s f v) g = rd s g) ∧
  (∀ (s : State) (f : Fld) (v : Nat), Table.wf s.regs = true → Table.wf (wr s f v).regs = true) ∧
  (∀ (s : State) (f : Fld) (v : Nat), { wr s f v with regs := s.regs } = s) ∧
  (∀ (s : State) (f : Fld) (n : Nat), rd (bumpBy s f n) f = min (rd s f + n) (2 ^ f.width - 1))

/-- For set-participant, request-keyframe, set-encode, set-route, enable-talker-export, stop-thread, send-tunnel-message, send-frame, set-
shaper, set-port-lpi, enable-pon, set-pon-map, switch-pon, set-seconds and engine-reset: where the directive stands at the head of a ring
that is evaluated now, steps 1 to 7 of R461 pass it and its own rule finds what it names, exec answers the state in which the effect waits
for the next boundary and the completion with STATUS 0 is final. -/
def Obligations.LateDirectivesComplete : Prop :=
  (∀ (s : State) (h : DirHeader) (index minRate maxRate weight : Nat), passes s h (.setParticipant index minRate maxRate weight) = true →
      partActive (checked s h (.setParticipant index minRate maxRate weight)) index = true →
      exec (.setParticipant h index minRate maxRate weight) s = .next (putOff s h (.setParticipant index minRate maxRate weight) [])) ∧
  (∀ (s : State) (h : DirHeader) (sender : Nat), passes s h (.requestKeyframe sender) = true →
      senderLive (checked s h (.requestKeyframe sender)) sender = true →
      exec (.requestKeyframe h sender) s = .next (putOff s h (.requestKeyframe sender) [])) ∧
  (∀ (s : State) (h : DirHeader) (i : Nat) (r : EncodeRate) (e : EncodeStream), passes s h (.setEncode i r) = true →
      (checked s h (.setEncode i r)).encodes.get i = some e → e.state ≠ .draining →
      exec (.setEncode h i r) s = .next (answered s h (.setEncode i r)
        (later (checked s h (.setEncode i r)) (.setEncode i { r with maxPayload := e.spec.rc.maxPayload }) []) 0 0)) ∧
  (∀ (s : State) (h : DirHeader) (l mode : Nat) (gain : Int), passes s h (.setRoute l mode gain) = true →
      legLive (checked s h (.setRoute l mode gain)) l = true → routeFits (checked s h (.setRoute l mode gain)) l mode = true →
      exec (.setRoute h l mode gain) s = .next (putOff s h (.setRoute l mode gain) [])) ∧
  (∀ (s : State) (h : DirHeader) (room : Nat) (m : Mix), passes s h (.enableTalkerExport room none) = true →
      (checked s h (.enableTalkerExport room none)).mixes.get room = some m → m.state ≠ .draining →
      exec (.enableTalkerExport h room none) s = .next (putOff s h (.enableTalkerExport room none) [])) ∧
  (∀ (s : State) (h : DirHeader) (room at_ : Nat) (m : Mix), passes s h (.enableTalkerExport room (some at_)) = true →
      (checked s h (.enableTalkerExport room (some at_))).mixes.get room = some m → m.state ≠ .draining →
      bitOf (exportBits (checked s h (.enableTalkerExport room (some at_)))) 3 = 1 →
      exec (.enableTalkerExport h room (some at_)) s = .next (putOff s h (.enableTalkerExport room (some at_)) [])) ∧
  (∀ (s : State) (h : DirHeader) (t : Nat), passes s h (.stopThread t) = true →
      (threadOf (checked s h (.stopThread t)) t).isSome = true →
      exec (.stopThread h t) s = .next (putOff s h (.stopThread t) [])) ∧
  (∀ (s : State) (h : DirHeader) (t label : Nat) (data : List Byte), passes s h (.sendTunnelMessage t label data) = true →
      tunnelLive (checked s h (.sendTunnelMessage t label data)) t = true →
      exec (.sendTunnelMessage h t label data) s = .next (putOff s h (.sendTunnelMessage t label data) [])) ∧
  (∀ (s : State) (h : DirHeader) (e c : Nat) (frame : List Byte), passes s h (.sendFrame e c frame) = true →
      exec (.sendFrame h e c frame) s = .next (putOff s h (.sendFrame e c frame) [])) ∧
  (∀ (s : State) (h : DirHeader) (e c rate burst : Nat), passes s h (.setShaper e c rate burst) = true →
      exec (.setShaper h e c rate burst) s = .next (putOff s h (.setShaper e c rate burst) [])) ∧
  (∀ (s : State) (h : DirHeader) (m tw : Nat), passes s h (.setPortLpi m tw) = true →
      exec (.setPortLpi h m tw) s = .next (putOff s h (.setPortLpi m tw) [])) ∧
  (∀ (s : State) (h : DirHeader) (p disabled : Nat) (registration : List Byte), passes s h (.enablePon p disabled registration) = true →
      ponNamed (checked s h (.enablePon p disabled registration)) p = true →
      exec (.enablePon h p disabled registration) s = .next (putOff s h (.enablePon p disabled registration) [])) ∧
  (∀ (s : State) (h : DirHeader) (p c allocId : Nat), passes s h (.setPonMap p c allocId) = true →
      ponMapAdmissible (checked s h (.setPonMap p c allocId)) p c allocId = true →
      exec (.setPonMap h p c allocId) s = .next (putOff s h (.setPonMap p c allocId) [])) ∧
  (∀ (s : State) (h : DirHeader) (p index portId direction queue flags : Nat), passes s h (.setPonPort p index portId direction queue flags) = true →
      ponEntryAdmissible (checked s h (.setPonPort p index portId direction queue flags)) p index portId direction queue flags = true →
      exec (.setPonPort h p index portId direction queue flags) s = .next (putOff s h (.setPonPort p index portId direction queue flags) [])) ∧
  (∀ (s : State) (h : DirHeader), passes s h .switchPon = true →
      ponPaired (checked s h .switchPon) = true → bitOf (omciLimits (checked s h .switchPon)).flags 3 = 1 →
      exec (.switchPon h) s = .next (putOff s h .switchPon [])) ∧
  (∀ (s : State) (h : DirHeader) (n : Nat), passes s h (.setSeconds n) = true →
      everLocked (checked s h (.setSeconds n)) = false →
      exec (.setSeconds h n) s = .next (putOff s h (.setSeconds n) [])) ∧
  (∀ (s : State) (h : DirHeader) (kind index : Nat), passes s h (.engineReset kind index) = true →
      inServiceEngine (checked s h (.engineReset kind index)) kind index = true →
      (checked s h (.engineReset kind index)).faults.resetting.contains (engineId kind index) = false →
      exec (.engineReset h kind index) s = .next (putOff s h (.engineReset kind index) []))

/-- A directive passes steps 1 to 7 of R461 and leaves the state p. Where its entry is free, what it names serves, and tables, pools and budgets
of R58 have room (the Bool conditions named ...Admissible say which), exec answers the state with the entry made, its charges held and the
completion of STATUS 0 final: admit-participant, -leg, -decode, -composite, -encode, -mix and -tunnel, set-leg, start-thread, send-omci,
pon-time-of-day. Read-statistics of a live stream that EXPORT allows copies what its buffer holds (a copy of more than 64 KiB goes on with
the completion to come). A key token that the core may take up is accepted, with its key where R310, R316 or R333 puts it, or refused with
TOKEN_REFUSED or LIMIT: which one, the token's bytes decide, through the free functions of the algorithms. Whatever the conditions, an own
rule that ends well gives the state that exec answers. -/
def Obligations.AdmissionDirectivesComplete : Prop :=
  (∀ (s p : State) (h : DirHeader) (i : Nat) (x : PartSpec) (a : AggSpec), passes s h (.admitParticipant i x a) = true → p = checked s h (.admitParticipant i x a) →
      participantAdmissible p i x = true →
      ∃ t e, admitParticipantRule i x a p = .done t 0 0 ∧ t.participants.get i = some e ∧ e.state = .active ∧ e.spec = x ∧ exec (.admitParticipant h i x a) s = .next (answered s h (.admitParticipant i x a) t 0 0)) ∧
  (∀ (s p : State) (h : DirHeader) (l : Nat) (x : LegSpec), passes s h (.admitLeg l x) = true → p = checked s h (.admitLeg l x) →
      legAdmissible p l x = true →
      ∃ t e, admitLegRule l x p = .done t 0 0 ∧ t.legs.get l = some e ∧ e.state = .admitted ∧
        e.spec = { x with packetSize := packetSizeOf p x } ∧ exec (.admitLeg h l x) s = .next (answered s h (.admitLeg l x) t 0 0)) ∧
  (∀ (s p : State) (h : DirHeader) (l : Nat) (c : LegChange), passes s h (.setLeg l c) = true → p = checked s h (.setLeg l c) →
      legChangeable p l c = true →
      ∃ t, setLegRule l c p = .done t 0 0 ∧ t.effects.length = p.effects.length + 1 ∧ exec (.setLeg h l c) s = .next (answered s h (.setLeg l c) t 0 0)) ∧
  (∀ (s p : State) (h : DirHeader) (i : Nat) (d : DecodeSpec), passes s h (.admitDecode i d) = true → p = checked s h (.admitDecode i d) →
      decodeAdmissible p i d = true →
      ∃ u, decodePlace p i d = some u ∧
        exec (.admitDecode h i d) s = .next (answered s h (.admitDecode i d) (commit { p with decodes := p.decodes.put i (.fresh d u) } (decodeCost i d u)) 0 0)) ∧
  (∀ (s p : State) (h : DirHeader) (i : Nat) (c : CompositeSpec), passes s h (.admitComposite i c) = true → p = checked s h (.admitComposite i c) →
      compositeAdmissible p i c = true →
      ∃ u, compositePlace p i c = some u ∧
        exec (.admitComposite h i c) s = .next (answered s h (.admitComposite i c) (commit { p with composites := p.composites.put i (.fresh c u) } (compositeCost p i c u)) 0 0)) ∧
  (∀ (s p : State) (h : DirHeader) (i : Nat) (e : EncodeSpec) (size : Nat × Nat), passes s h (.admitEncode i e) = true → p = checked s h (.admitEncode i e) →
      encodeAdmissible p i e size = true →
      ∃ u, encodePlace p i e size = some u ∧
        exec (.admitEncode h i e) s = .next (answered s h (.admitEncode i e) (commit { p with encodes := p.encodes.put i (.fresh p e u size) } (encodeCost i e size u)) 0 0)) ∧
  (∀ (s p : State) (h : DirHeader) (r : Nat) (m : MixSpec), passes s h (.admitMix r m) = true → p = checked s h (.admitMix r m) →
      mixAdmissible p r m = true →
      ∃ u, u ∈ enginesOf p 3 ∧ overBudget p (mixCost r m u) = none ∧ exec (.admitMix h r m) s = .next (answered s h (.admitMix r m) (commit { p with
          rooms := p.rooms.update r (fun x => { x with mix := true, maxTalkers := m.maxTalkers }), mixes := p.mixes.put r (.fresh u m) }
        (mixCost r m u)) 0 0)) ∧
  (∀ (s p : State) (h : DirHeader) (i : Nat) (u : TunnelSpec), passes s h (.admitTunnel i u) = true → p = checked s h (.admitTunnel i u) →
      tunnelAdmissible p i u = true →
      ∃ t, tunnelEntry p i u = some t ∧
        exec (.admitTunnel h i u) s = .next (answered s h (.admitTunnel i u) (commit { t with gauntlet := { t.gauntlet with tunnels := t.gauntlet.tunnels.put i (.fresh u) } }
          [{ kind := 7, index := i, charges := tunnelCharges p (batchWindow p) i u }]) 0 0)) ∧
  (∀ (s p : State) (h : DirHeader) (entry cluster arg t u : Nat) (e : CodeEntry), passes s h (.startThread entry cluster arg) = true → p = checked s h (.startThread entry cluster arg) →
      entryOf p.trust.current entry = some e → (cluster = 255 ∨ inServiceEngine p 3 cluster = true) →
      nextThread p = some t → threadPlace p t e.cost cluster = some u →
      exec (.startThread h entry cluster arg) s = .next (answered s h (.startThread entry cluster arg) (later (commit p (threadCost t e.cost u)) (.startThread entry cluster arg) [t, u]) 0 t)) ∧
  (∀ (s p : State) (h : DirHeader) (port : Nat) (message : List Byte), passes s h (.sendOmci port message) = true → p = checked s h (.sendOmci port message) →
      omciAdmissible p port = true →
      exec (.sendOmci h port message) s = .next (answered s h (.sendOmci port message) (later (withPon p port (fun x => { x with omciTimes := nowNs p :: omciRecent p port })) (.sendOmci port message) []) 0 0)) ∧
  (∀ (s p : State) (h : DirHeader) (port superframe seconds nanoseconds : Nat), passes s h (.ponTimeOfDay port superframe seconds nanoseconds) = true → p = checked s h (.ponTimeOfDay port superframe seconds nanoseconds) →
      todAdmissible p port = true →
      ∃ t, ponTimeOfDayRule port superframe seconds nanoseconds p = .done t 0 0 ∧ exec (.ponTimeOfDay h port superframe seconds nanoseconds) s = .next (answered s h (.ponTimeOfDay port superframe seconds nanoseconds) t 0 0)) ∧
  (∀ (s p : State) (h : DirHeader) (kind i what dest : Nat), passes s h (.readStatistics kind i what dest) = true → p = checked s h (.readStatistics kind i what dest) →
      exportAllows p what = true → statisticsBuffer p kind i = some none →
      exec (.readStatistics h kind i what dest) s = .next (answered s h (.readStatistics kind i what dest) p 0 0)) ∧
  (∀ (s p : State) (h : DirHeader) (kind i what dest b : Nat), passes s h (.readStatistics kind i what dest) = true → p = checked s h (.readStatistics kind i what dest) →
      exportAllows p what = true → statisticsBuffer p kind i = some (some b) → statisticsLength p kind i what ≤ 65536 →
      exec (.readStatistics h kind i what dest) s = .next (answered s h (.readStatistics kind i what dest) (exchangeWrite (dropHold (takeHold p b) b) dest (statisticsPiece p b what 0)) 0 (statisticsLength p kind i what))) ∧
  (∀ (s p : State) (h : DirHeader) (kind i what dest b : Nat), passes s h (.readStatistics kind i what dest) = true → p = checked s h (.readStatistics kind i what dest) →
      exportAllows p what = true → statisticsBuffer p kind i = some (some b) → 65536 < statisticsLength p kind i what →
      ∃ t, exec (.readStatistics h kind i what dest) s = .next t ∧ t.host.deferred = (takeHold p b).host.deferred ++ [entryAt s h (.readStatistics kind i what dest)] ∧
        t.host.copies.length = (takeHold p b).host.copies.length + 1) ∧
  (∀ (s p : State) (h : DirHeader) (token : List Byte) (length : Nat) (k : KeyToken), passes s h (.deliverKeyToken token length) = true → p = checked s h (.deliverKeyToken token length) →
      k = readToken p.trust.keks token → tokenWaits p k.kind = false →
      if tokenReason (countToken p k.kind) k ≠ 0 then
        exec (.deliverKeyToken h token length) s = .next (refuse p (entryAt s h (.deliverKeyToken token length)) stTokenRefused (tokenReason (countToken p k.kind) k))
      else if tokenTaken (countToken p k.kind) k = true ∧ (k.usage ≠ 3 ∨ tunnelHolds (countToken p k.kind) k.target = false) then
        ∃ t x, exec (.deliverKeyToken h token length) s = .next (answered s h (.deliverKeyToken token length) (bump t Reg.TRUST.TOKEN_ACCEPTED) 0 x)
      else ∃ t, exec (.deliverKeyToken h token length) s = .next t) ∧
  (∀ (s : State) (h : DirHeader) (l : Nat) (c : LegChange) (t : State) (d1 d2 : Nat), passes s h (.setLeg l c) = true →
      setLegRule l c (checked s h (.setLeg l c)) = .done t d1 d2 →
      exec (.setLeg h l c) s = .next (answered s h (.setLeg l c) t d1 d2)) ∧
  (∀ (s : State) (h : DirHeader) (l : Nat) (x : LegSpec) (t : State) (d1 d2 : Nat), passes s h (.admitLeg l x) = true →
      admitLegRule l x (checked s h (.admitLeg l x)) = .done t d1 d2 →
      exec (.admitLeg h l x) s = .next (answered s h (.admitLeg l x) t d1 d2)) ∧
  (∀ (s : State) (h : DirHeader) (p index portId direction queue flags : Nat) (t : State) (d1 d2 : Nat), passes s h (.setPonPort p index portId direction queue flags) = true →
      setPonPortRule p index portId direction queue flags (checked s h (.setPonPort p index portId direction queue flags)) = .done t d1 d2 →
      exec (.setPonPort h p index portId direction queue flags) s = .next (answered s h (.setPonPort p index portId direction queue flags) t d1 d2)) ∧
  (∀ (s : State) (h : DirHeader) (token : List Byte) (length : Nat), passes s h (.deliverKeyToken token length) = true →
      exec (.deliverKeyToken h token length) s = .next
        (match deliverKeyTokenRule (entryAt s h (.deliverKeyToken token length)) token length (checked s h (.deliverKeyToken token length)) with
        | .hold => s
        | .refuse a b => refuse (checked s h (.deliverKeyToken token length)) (entryAt s h (.deliverKeyToken token length)) a b
        | .done t d1 d2 => answered s h (.deliverKeyToken token length) t d1 d2
        | .silent t => t))

/-- For admit-room, release, read-levels, switch-epoch, step, set-layout, set-memory-rate, archive-pages, attest, push-image, flash-program,
snapshot-counters, warm-reset, zeroize and retire: where the directive passes steps 1 to 7 of R461 and its own rule lets it act, exec
answers the state that the rule gives: a table entry made, a record written to the exchange region, a verification, report or effect queued
with its completion still to come, a warm reset begun after the completion, or the zeroize trigger without a completion. -/
def Obligations.ImmediateDirectivesComplete : Prop :=
  (∀ (s : State) (h : DirHeader) (i n : Nat), passes s h (.admitRoom i n) = true → (checked s h (.admitRoom i n)).rooms.get i = none →
      exec (.admitRoom h i n) s = .next (answered s h (.admitRoom i n)
        { checked s h (.admitRoom i n) with
          rooms := (checked s h (.admitRoom i n)).rooms.put i { state := .active, maxTalkers := 0, mix := false, maxParticipants := n } } 0 0)) ∧
  (∀ (s : State) (h : DirHeader) (kind i : Nat), passes s h (.release kind i) = true → releasable (checked s h (.release kind i)) kind i = true →
      exec (.release h kind i) s = .next (answered s h (.release kind i) (releaseEntry (checked s h (.release kind i)) kind i).1 0
        (releaseEntry (checked s h (.release kind i)) kind i).2)) ∧
  (∀ (s : State) (h : DirHeader) (room dest : Nat), passes s h (.readLevels room dest) = true → roomActive (checked s h (.readLevels room dest)) room = true →
      bitOf (exportBits (checked s h (.readLevels room dest))) 2 = 1 →
      exec (.readLevels h room dest) s = .next (answered s h (.readLevels room dest)
        (exchangeWrite (checked s h (.readLevels room dest)) dest (levelsOf (checked s h (.readLevels room dest)) room)) 0
        (sourcesOf (checked s h (.readLevels room dest)) room).length)) ∧
  (∀ (s : State) (h : DirHeader) (t epoch : Nat) (x : Tunnel), passes s h (.switchEpoch t epoch) = true → (checked s h (.switchEpoch t epoch)).gauntlet.tunnels.get t = some x →
      tunnelLive (checked s h (.switchEpoch t epoch)) t = true → x.nextKeyed = true → x.epochNext = epoch →
      exec (.switchEpoch h t epoch) s = .next (answered s h (.switchEpoch t epoch)
        (updTunnel (checked s h (.switchEpoch t epoch)) t (fun x => { x with nextSendEpoch := some epoch })) 0 0)) ∧
  (∀ (s : State) (h : DirHeader) (source : Nat) (o : Int), passes s h (.step source) = true → (sourceGet (checked s h (.step source)).time source).offset = some o →
      measuring source = true → (slots (checked s h (.step source))).contains source = true →
      (sourceGet (checked s h (.step source)).time source).qualified = true → (checked s h (.step source)).time.pendingStep = none →
      exec (.step h source) s = .next (answered s h (.step source)
        { checked s h (.step source) with time := { (checked s h (.step source)).time with pendingStep := some o } } 0 0)) ∧
  (∀ (s p : State) (h : DirHeader) (i : Nat) (bytes : List Byte) (n : Nat) (c : Composite), passes s h (.setLayout i bytes n) = true →
      p = checked s h (.setLayout i bytes n) → p.composites.get i = some c →
      layoutAdmissible p i c (readList (bytes.take n)) (bytes.take n).length = true → ∃ t, exec (.setLayout h i bytes n) s = .next t ∧
        (∃ z, t.composites.get i = some z ∧ z.awaiting = some (readList (bytes.take n)) ∧ z.signed = none) ∧
        { entryAt s h (.setLayout i bytes n) with key := i } ∈ t.host.deferred) ∧
  (∀ (s : State) (h : DirHeader) (point : Nat), passes s h (.setMemoryRate point) = true → (checked s h (.setMemoryRate point)).near.change = none →
      (checked s h (.setMemoryRate point)).host.deferred.any (fun d => d.opcode = 0x52) = false →
      exec (.setMemoryRate h point) s = .next
        (later (defer (checked s h (.setMemoryRate point)) (entryAt s h (.setMemoryRate point))) (.setMemoryRate point) [])) ∧
  (∀ (s : State) (h : DirHeader) (first count key dest : Nat) (k : KeyEntry), passes s h (.archivePages first count key dest) = true →
      (checked s h (.archivePages first count key dest)).trust.keys.get key = some k → k.usage = 4 →
      k.usableAt ≤ (checked s h (.archivePages first count key dest)).time.boundaries →
      exec (.archivePages h first count key dest) s = .next
        (later (defer (checked s h (.archivePages first count key dest)) (entryAt s h (.archivePages first count key dest)))
          (.archivePages first count key dest) [rd s dirRing.head])) ∧
  (∀ (s : State) (h : DirHeader) (nonce dest : Nat), dirReady s = true → cplReady s = true →
      ∃ t, exec (.attest h nonce dest) s = .next t ∧
        (passes s h (.attest nonce dest) = true ∧ rd (checked s h (.attest nonce dest)) Reg.TRUST.ENTROPY_STATUS = 0 ∧
            (checked s h (.attest nonce dest)).trust.attest.length < 16 →
          t.trust.attest = (checked s h (.attest nonce dest)).trust.attest ++ [{ sequence := rd s dirRing.head, nonce := nonce, dest := dest }] ∧
          t.host.deferred = (checked s h (.attest nonce dest)).host.deferred ++ [{ entryAt s h (.attest nonce dest) with key := rd s dirRing.head }])) ∧
  (∀ (s p : State) (h : DirHeader) (b : List Byte), passes s h (.pushImage b) = true → p = checked s h (.pushImage b) →
      (p.mode ≠ .proving ∨ (Image.ofBytes b).kind ≠ 1) →
      exec (.pushImage h b) s = .next (verify (defer p (entryAt s h (.pushImage b))) (.pushed p.trust.pendingPartial.isSome) (Image.ofBytes b))) ∧
  (∀ (s p : State) (h : DirHeader) (b : List Byte) (slot : Nat), passes s h (.flashProgram b slot) = true → p = checked s h (.flashProgram b slot) →
      exec (.flashProgram h b slot) s = .next
        (verify (defer p { entryAt s h (.flashProgram b slot) with info := [slot] }) (.flashProgram slot b) (Image.ofBytes b))) ∧
  (∀ (s : State) (h : DirHeader) (blocks dest clear : Nat), passes s h (.snapshotCounters blocks dest clear) = true →
      exec (.snapshotCounters h blocks dest clear) s = .next
        (later (defer (checked s h (.snapshotCounters blocks dest clear)) (entryAt s h (.snapshotCounters blocks dest clear)))
          (.snapshotCounters blocks dest clear) [rd s dirRing.head])) ∧
  (∀ (s : State) (h : DirHeader), passes s h .warmReset = true →
      exec (.warmReset h) s = .next (warmResetFor (answered s h .warmReset (checked s h .warmReset) 0 0) 9)) ∧
  (∀ (s : State) (h : DirHeader), passes s h .zeroize = true → exec (.zeroize h) s = .next (zeroizeTrigger (checked s h .zeroize) 7 0)) ∧
  (∀ (s : State) (h : DirHeader), passes s h .retire = true → exec (.retire h) s = .next (zeroizeTrigger (checked s h .retire) 9 0))

/-- For every directive d: with the link down, a ring disabled, the directive ring empty, 1,024 entries fetched in this tick or a warm reset in
progress, nothing changes; with no room for its completion only CPL_FULL is raised; and where a check of steps 1 to 7 of R461 refuses it
with a STATUS and a DETAIL in a state p, its completion carries them, and REFUSED counts one more. A fetch that reads nothing from a ring
that holds entries is counted, raises FETCH_ERROR and ends the fetches of the tick; an empty fetch otherwise does nothing. A fetch of one
entry is that directive. A directive whose Policy is AUTHORISED and that names no valid authorisation block is refused with AUTH_FAIL,
counted and raised; with a valid one, AUTH_NONCE is drawn anew before step 6. -/
def Obligations.DirectivesThatWaitOrAreRefused : Prop :=
  (∀ (s : State) (h : DirHeader) (d : Directive), dirReady s = false → evaluate h d s = .next s) ∧
  (∀ (s : State) (h : DirHeader) (d : Directive), dirReady s = true → cplReady s = false → evaluate h d s = .next (stalled s)) ∧
  (∀ (s p : State) (h : DirHeader) (d : Directive) (status detail : Nat), dirReady s = true → cplReady s = true →
      check (takeHead s) h d = .refused p status detail → status ≠ stTokenRefused →
      evaluate h d s = .next (complete (bump p Reg.DIRECTIVE.REFUSED) ((entryAt s h d).final status detail 0))) ∧
  (∀ (s : State) (h : DirHeader) (d : Directive), exec (.directiveFetch [(h, d)]) s = evaluate h d s) ∧
  (∀ (s : State) (h : DirHeader) (d : Directive) (l : List (DirHeader × Directive)) (t : State), evaluateOne s h d = (t, true) →
      l ≠ [] → exec (.directiveFetch ((h, d) :: l)) s = exec (.directiveFetch l) t) ∧
  (∀ s : State, dirReady s = false → exec (.directiveFetch []) s = .next s) ∧
  (∀ s : State, dirReady s = true → exec (.directiveFetch []) s = .next (fetchFails s)) ∧
  (∀ s : State, (fetchFails s).host.fetched = 1024) ∧
  (∀ (s : State) (h : DirHeader) (d : Directive) (rate : Nat), dirPolicy s (opcodeOf d) = (2, rate) → h.authAt = noOffset →
      checkPolicy s h d = .refused (raise (bump s Reg.DIRECTIVE.AUTH_FAILS) Reg.DIRECTIVE.DIRECTIVE_EVENTS_AUTH_FAIL) stAuthFail 0) ∧
  (∀ (s : State) (h : DirHeader) (d : Directive) (rate : Nat), dirPolicy s (opcodeOf d) = (2, rate) → h.authAt ≠ noOffset → authBusy s = false →
      checkPolicy s h d = if authValid s h d then checkRate (newNonce (countAuth s)) h d rate else
        .refused (raise (bump (countAuth s) Reg.DIRECTIVE.AUTH_FAILS) Reg.DIRECTIVE.DIRECTIVE_EVENTS_AUTH_FAIL) stAuthFail 0)

/-- For every directive: the entry at the head is taken by moving DIR_HEAD on by one modulo 2^32; the state in which a completion becomes final
with room in its ring has CPL_TAIL one further, and where the ring has no room the completion waits behind those that already wait, none
lost. -/
def Obligations.EveryDirectiveIsAnsweredOnce : Prop :=
  (∀ s : State, rd (takeHead s) dirRing.head = (rd s dirRing.head + 1) % 2 ^ 32) ∧
  (∀ (s : State) (c : Completion), cplOpen s = true → s.host.waiting = [] →
      rd (complete s c) cplRing.tail = (rd s cplRing.tail + 1) % 2 ^ 32 ∧ (complete s c).host.waiting = []) ∧
  (∀ (s : State) (c : Completion), cplOpen s = false → (complete s c).host.waiting = s.host.waiting ++ [c]) ∧
  (∀ (s : State) (c : Completion), s.host.waiting ≠ [] → (complete s c).host.waiting = s.host.waiting ++ [c])

/-- For every state and operands: where the own rule of an admission succeeds, the entry it names was free before and now holds the entry just
admitted, with the parameters given: a participant (with its aggregate) in state ACTIVE, and a decode stream, composite, encode stream, mix
and tunnel in state ADMITTED on some engine. No other entry of that table changes. -/
def Obligations.AdmissionsEnterTheirTables : Prop :=
  (∀ (i : Nat) (p : PartSpec) (a : AggSpec) (s t : State) (x y : Nat), admitParticipantRule i p a s = .done t x y → s.participants.get i = none ∧
      (∃ e, t.participants.get i = some e ∧ e.state = .active ∧ e.spec = p) ∧
      ∀ j, j ≠ i → t.participants.get j = s.participants.get j) ∧
  (∀ (i : Nat) (d : DecodeSpec) (s t : State) (x y : Nat), admitDecodeRule i d s = .done t x y →
      s.decodes.get i = none ∧ (∃ u, t.decodes.get i = some (.fresh d u)) ∧ ∀ j, j ≠ i → t.decodes.get j = s.decodes.get j) ∧
  (∀ (i : Nat) (c : CompositeSpec) (s t : State) (x y : Nat), admitCompositeRule i c s = .done t x y →
      s.composites.get i = none ∧ (∃ u, t.composites.get i = some (.fresh c u)) ∧ ∀ j, j ≠ i → t.composites.get j = s.composites.get j) ∧
  (∀ (i : Nat) (e : EncodeSpec) (s t : State) (x y : Nat), admitEncodeRule i e s = .done t x y →
      s.encodes.get i = none ∧ (∃ z, t.encodes.get i = some z ∧ z.state = .admitted ∧ z.spec = e) ∧
      ∀ j, j ≠ i → t.encodes.get j = s.encodes.get j) ∧
  (∀ (r : Nat) (m : MixSpec) (s t : State) (x y : Nat), admitMixRule r m s = .done t x y →
      s.mixes.get r = none ∧ (∃ z, t.mixes.get r = some z ∧ z.state = .admitted ∧ z.spec.maxTalkers = m.maxTalkers) ∧
      ∀ j, j ≠ r → t.mixes.get j = s.mixes.get j) ∧
  (∀ (i : Nat) (u : TunnelSpec) (s t : State) (x y : Nat), admitTunnelRule i u s = .done t x y →
      s.gauntlet.tunnels.get i = none ∧ t.gauntlet.tunnels.get i = some (.fresh u) ∧
      ∀ j, j ≠ i → t.gauntlet.tunnels.get j = s.gauntlet.tunnels.get j)

/-- With the link up and the device outside Dormant: a write of 4 bytes at an aligned offset acts as the register file says; one of 8 bytes is
the two 32-bit writes in ascending order; a narrower or unaligned write acts as narrowWrite says; a read answers the bytes of the words it
touches and clears their RC fields; RING_ENABLE writes a ring's CONTROL register and RING_INDEX_WRITE the index register that the host owns. -/
def Obligations.HostAccessesComplete : Prop :=
  (∀ (s : State) (off value : Nat), hostReads s = true → off % 4 = 0 → off + 4 ≤ 0x4000000 → value < 2 ^ 32 →
      exec (.registerWrite off 4 value) s = .next (regWrite s off value)) ∧
  (∀ (s : State) (off value : Nat), hostReads s = true → off % 4 = 0 → off + 8 ≤ 0x4000000 → value < 2 ^ 64 →
      exec (.registerWrite off 8 value) s = .next (regWrite (regWrite s off (value % 2 ^ 32)) (off + 4) (value / 2 ^ 32))) ∧
  (∀ (s : State) (off width value : Nat), hostReads s = true → width < 4 → off + width ≤ 0x4000000 → value < 2 ^ (8 * width) →
      exec (.registerWrite off width value) s = .next (narrowWrite s off)) ∧
  (∀ (s : State) (off : Nat), hostReads s = true → off % 4 = 0 → off + 4 ≤ 0x4000000 → regRead s off < 2 ^ 32 →
      exec (.registerReadClear off 4) s = .next (clearRead (emit s (.readData off (regRead s off))) off)) ∧
  (∀ (s : State) (ring value : Nat), hostReads s = true → ring < 5 → value < 2 ^ 32 →
      exec (.ringEnable ring value) s = .next (regWrite s (ringAt ring).ring.enable.off value)) ∧
  (∀ (s : State) (ring value : Nat), hostReads s = true → ring < 5 → value < 2 ^ 32 →
      exec (.ringIndexWrite ring value) s = .next (regWrite s (ringAt ring).index.off value))

/-- BAR 0 is 64 MiB (R446): a REGISTER_WRITE or REGISTER_READ_CLEAR whose last byte lies beyond it ends in outsideBar0 with its offset; one
whose last byte is the last byte of BAR 0 does not. (That such an access is a fault of the run is the model's reading of what a host cannot
send: assumption log.) -/
def Obligations.AccessBeyondBar0Faults : Prop :=
  (∀ (s : State) (off width value : Nat), 0x4000000 < off + width → exec (.registerWrite off width value) s = .fault (.outsideBar0 off)) ∧
  (∀ (s : State) (off width : Nat), 0x4000000 < off + width → exec (.registerReadClear off width) s = .fault (.outsideBar0 off)) ∧
  (∀ (s : State) (off width value : Nat), off + width ≤ 0x4000000 → ∃ t, exec (.registerWrite off width value) s = .next t) ∧
  (∀ (s : State) (off width : Nat), off + width ≤ 0x4000000 → ∃ t, exec (.registerReadClear off width) s = .next t)

/-- For every state outside Sealed and every listed offset outside the MSI-X table and its pending bits: a write that breaks R450 (no field
takes writes, a bit outside every field is set, or a writable field gets a reserved encoding) changes nothing but ACCESS_ERRORS and the
ACCESS_ERROR event; a write to an offset with no register changes nothing at all, and in Sealed no write does. putFields sets an RW field to
its bits of the value, clears a W1C field where its bit is 1, and leaves RO, IM, RC and WO fields as they were. -/
def Obligations.RegisterAccessCodes : Prop :=
  (∀ (s : State) (off v : Nat), s.mode ≠ .sealed → inMsix off = false → inPending off = false → fieldsAt off ≠ [] →
      badWrite (fieldsAt off) v = true → regWrite s off v = accessError s) ∧
  (∀ (s : State) (off v : Nat), inMsix off = false → inPending off = false → fieldsAt off = [] → regWrite s off v = s) ∧
  (∀ (s : State) (off v : Nat), s.mode = .sealed → regWrite s off v = s) ∧
  (∀ (s : State) (f : Fld) (v : Nat), f.acc = .rw → putFields s [f] v = wr s f (bitsOf v f.hi f.lo)) ∧
  (∀ (s : State) (f : Fld) (v : Nat), f.acc = .w1c → bitsOf v f.hi f.lo = 1 → putFields s [f] v = wr s f 0) ∧
  (∀ (s : State) (f : Fld) (v : Nat), f.acc = .w1c → bitsOf v f.hi f.lo ≠ 1 → putFields s [f] v = s) ∧
  (∀ (s : State) (f : Fld) (v : Nat), f.acc ≠ .rw → f.acc ≠ .w1c → putFields s [f] v = s) ∧
  (∀ (s : State) (f g : Fld) (fs : List Fld) (v : Nat), putFields s (f :: g :: fs) v = putFields (putFields s [f] v) (g :: fs) v) ∧
  (∀ (fs : List Fld) (v : Nat), (∀ f ∈ fs, f.acc = .ro ∨ f.acc = .im ∨ f.acc = .rc) → badWrite fs v = true)

/-- With the link up, outside Dormant, and the index within its field: each of the twelve query commands is the 32-bit write of its index, KIND
and GO to its QUERY_CONTROL register. The write starts the query where none of its block is at work: DONE and INVALID of that query are then
0 and the query is among those at work; a second GO meanwhile does nothing. -/
def Obligations.QueriesComplete : Prop :=
  (∀ (s : State) (kind index : Nat), hostReads s = true → index < 2 ^ 20 →
      exec (.legsQuery kind index) s = .next (regWrite s 0x100100 (index + (kind % 4 * 2 ^ 20 + 2 ^ 22)))) ∧
  (∀ (s : State) (kind index : Nat), hostReads s = true → index < 2 ^ 20 →
      exec (.decodeQuery kind index) s = .next (regWrite s 0x200200 (index + (kind / 2 % 16 * 2 ^ 20 + kind % 2 * 2 ^ 24 + 2 ^ 25)))) ∧
  (∀ (s : State) (kind index : Nat), hostReads s = true → index < 2 ^ 15 →
      exec (.veilQuery kind index) s = .next (regWrite s 0x300200 (index + (kind % 2 * 2 ^ 15 + 2 ^ 16)))) ∧
  (∀ (s : State) (index : Nat), hostReads s = true → index < 2 ^ 12 →
      exec (.encodeQuery index) s = .next (regWrite s 0x400200 (index + 2 ^ 16))) ∧
  (∀ (s : State) (kind index : Nat), hostReads s = true → index < 2 ^ 20 →
      exec (.audioQuery kind index) s = .next (regWrite s 0x500200 (index + (kind % 2 * 2 ^ 20 + 2 ^ 21)))) ∧
  (∀ (s : State) (index : Nat), hostReads s = true → index < 2 ^ 13 →
      exec (.mittenQuery index) s = .next (regWrite s 0x601000 (index + 2 ^ 16))) ∧
  (∀ (s : State) (kind index : Nat), hostReads s = true → index < 2 ^ 20 →
      exec (.ingressQuery kind index) s = .next (regWrite s 0x700800 (index + (kind % 2 * 2 ^ 20 + 2 ^ 21)))) ∧
  (∀ (s : State) (index : Nat), hostReads s = true → index < 2 ^ 10 →
      exec (.cipherQuery index) s = .next (regWrite s 0x800200 (index + 2 ^ 16))) ∧
  (∀ (s : State) (index : Nat), hostReads s = true → index < 2 ^ 12 →
      exec (.gauntletQuery index) s = .next (regWrite s 0x900200 (index + 2 ^ 16))) ∧
  (∀ (s : State) (kind index : Nat), hostReads s = true → index < 2 ^ 20 →
      exec (.bandQuery kind index) s = .next (regWrite s 0xA00200 (index + (kind % 4 * 2 ^ 20 + 2 ^ 22)))) ∧
  (∀ (s : State) (port index : Nat), hostReads s = true → port < 2 → index < 2 ^ 10 →
      exec (.ponQuery port index) s = .next (regWrite s (0xC00200 + port * 0x40000) (index + 2 ^ 16))) ∧
  (∀ (s : State) (stack kind index : Nat), hostReads s = true → stack < 8 → index < 2 ^ 11 →
      exec (.nearmemQuery stack kind index) s = .next (regWrite s (0xD00200 + stack * 0x10000) (index + (kind % 2 * 2 ^ 11 + 2 ^ 12)))) ∧
  (∀ (s : State) (q v : Nat), s.host.queries.any (fun g => g.1 = q) = false → (startQuery s q v).host.queries = s.host.queries ++ [(q, v)]) ∧
  (∀ (s : State) (q v : Nat), s.host.queries.any (fun g => g.1 = q) = true → startQuery s q v = s)

/-- With the link up and the device outside Dormant and Sealed, a capture ends with NS_LO and NS_HI holding the two halves of the local time in
ns, TICK the tick count, and SEC_LO, SEC_HI and NSEC the same instant in seconds and nanoseconds, or 0 where FORMAT is 0. The clock and all
state outside the registers are unchanged. -/
def Obligations.SnapshotShowsTheTime : Prop :=
  ∀ s : State, s.host.linkUp = true → s.mode ≠ .dormant → s.mode ≠ .sealed → ∃ t, exec .snapshotCapture s = .next t ∧
    rd t Reg.TIME.NS_LO = nowNs s % 2 ^ 32 ∧ rd t Reg.TIME.NS_HI = nowNs s / 2 ^ 32 % 2 ^ 32 ∧ rd t Reg.TIME.TICK = s.time.tickCount % 2 ^ 32 ∧
    (rd s Reg.TIME.TIME_CONFIG_FORMAT = 1 → rd t Reg.TIME.NSEC = nowNs s % 1000000000 ∧ rd t Reg.TIME.SEC_LO = nowNs s / 1000000000 % 2 ^ 32) ∧
    (rd s Reg.TIME.TIME_CONFIG_FORMAT ≠ 1 → rd t Reg.TIME.NSEC = 0 ∧ rd t Reg.TIME.SEC_LO = 0) ∧ { t with regs := s.regs } = s

/-- With power: IDENT, STATUS, LOG, COUNTERS and PEEK answer OK with the values the rules name where they may (COUNTERS of a listed block
outside BLANK, Dormant and Sealed; PEEK of a peekable offset, unlocked and with its block in PEEK_BLOCKS, which also clears RC fields as a
read does); a block of 22 and above or an offset that is not peekable answers ERR SYNTAX; a BLANK part answers ERR DENIED; a locked PEEK
answers ERR LOCKED. None of the replies changes anything else. -/
def Obligations.MonitorRepliesToReads : Prop :=
  (∀ s : State, monitorUp s = true → exec .ident s = .next (replyOk s (regRead s Reg.GLOBAL.PART_INFO_PART.off ::
      fieldWords s Reg.TRUST.DEVICE_ID ++ fieldWords s Reg.TRUST.NYMREHAL_ANCHOR ++ fieldWords s Reg.TRUST.CUSTOMER_ANCHOR ++ [s.trust.fuses.rollback]))) ∧
  (∀ s : State, monitorUp s = true → exec .status s = .next (replyOk s [s.mode.code, rd s Reg.FAULTLOG.MODE_REASON,
      regRead s Reg.TIME.TIME_STATUS_STATE.off, regRead s Reg.POWER.POWER_STATUS_VDD_CORE.off])) ∧
  (∀ (s : State) (first count : Nat), monitorUp s = true →
      exec (.log first count) s = .next (replyOk s ((logFrom s first (min count 64)).flatMap (fun e => (faultBytes e).map (·.toNat))))) ∧
  (∀ (s : State) (block : Nat), monitorUp s = true → block < 22 → blank s = false → s.mode ≠ .dormant → s.mode ≠ .sealed →
      exec (.counters block) s = .next (replyOk s (((Reg.blockFields block).filter (fun f => f.acc = .rc)).flatMap (fieldWords s)))) ∧
  (∀ (s : State) (off : Nat), monitorUp s = true → peekable off = true → blank s = false → unlocked s = true → maskHolds s DebugRec.peekBlocks off = true →
      exec (.peek off) s = .next (clearRead (replyOk s [regRead s off]) off)) ∧
  (∀ (s : State) (off : Nat), monitorUp s = true → peekable off = true → blank s = false → unlocked s = false → exec (.peek off) s = .next (replyLocked s)) ∧
  (∀ (s : State) (block : Nat), monitorUp s = true → 22 ≤ block → exec (.counters block) s = .next (replySyntax s)) ∧
  (∀ (s : State) (off : Nat), monitorUp s = true → peekable off = true → blank s = true → exec (.peek off) s = .next (replyDenied s)) ∧
  (∀ s : State, monitorUp s = false → exec .ident s = .next s ∧ exec .status s = .next s)

/-- With power, where the monitor may be unlocked: CHALLENGE answers the nonce it holds, or a fresh one where it holds none, unless a failed
UNLOCK still bars it; UNLOCK with a customer block that verifies over DEVICE_ID and the nonce last given (unlockVerifies, by the free
functions of the algorithms) answers OK and unlocks until the time the DEBUG record gives, and any other, as one with no nonce given,
answers ERR DENIED and bars the next challenge for 10 s, a fresh nonce being drawn either way, and a line that does not spell 7,420 bytes
answers ERR SYNTAX; POKE, unlocked and with its block in POKE_BLOCKS, is a 32-bit host write; LOCK ends the unlock; and so does its time,
once reached. -/
def Obligations.MonitorUnlockAndPoke : Prop :=
  (∀ (s : State) (n : Nat), monitorUp s = true → mayUnlock s = true → s.power.challengeAt ≤ nowNs s → s.power.challenge = some n →
      exec .challenge s = .next (replyOk s [Config.drbg n])) ∧
  (∀ s : State, monitorUp s = true → mayUnlock s = true → s.power.challengeAt ≤ nowNs s → s.power.challenge = none →
      exec .challenge s = .next (replyOk (freshNonce s) [Config.drbg ((freshNonce s).power.challenge.getD 0)])) ∧
  (∀ s : State, monitorUp s = true → (mayUnlock s = false ∨ nowNs s < s.power.challengeAt) → exec .challenge s = .next (replyDenied s)) ∧
  (∀ (s : State) (block : List Byte), monitorUp s = true → mayUnlock s = true → exec (.unlock block true) s = .next (
      if unlockVerifies s block then
        replyOk { freshNonce s with power := { (freshNonce s).power with
          unlockUntil := some (nowNs (freshNonce s) + ((debugRec (freshNonce s)).map unlockNs).getD 0) } } []
      else replyDenied { freshNonce s with power := { (freshNonce s).power with challengeAt := nowNs (freshNonce s) + 10000000000 } })) ∧
  (∀ (s : State) (block : List Byte), s.power.challenge = none → unlockVerifies s block = false) ∧
  (∀ (s : State) (block : List Byte), monitorUp s = true → exec (.unlock block false) s = .next (replySyntax s)) ∧
  (∀ (s : State) (off value : Nat), monitorUp s = true → peekable off = true → value < 2 ^ 32 → blank s = false → monitorReadOnly s = false →
      unlocked s = true → maskHolds s DebugRec.pokeBlocks off = true → exec (.poke off value) s = .next (replyOk (hostWrite s off 4 value) [])) ∧
  (∀ s : State, monitorUp s = true → blank s = false → exec .lock s = .next (replyOk (endUnlock s) [])) ∧
  (∀ (s u : State) (t : Nat), s.power.unlockUntil = some t → reachable s t = true → u = advanceTo s t → exec .unlockExpiry s = .next (endUnlock u))

/-- HEARTBEAT, where it is due at this boundary (an address is set, the link is up, the tick is a multiple of HEARTBEAT_TICKS and none has been
written for it): the 16 bytes go out once, with the tick, the mode, the time state and the local time. MOD_TIME_EXPIRY, where a ring holds
unsignalled entries and the link is up: once MOD_TIME us have passed since the first of them, moderation begins anew and the ring's vector
is signalled. -/
def Obligations.HeartbeatAndModeration : Prop :=
  (∀ s : State, heartbeatDue s = true → ∃ t, exec .heartbeat s = .next t ∧
      t.out = .heartbeat (heartbeatAddress s) (heartbeatBytes s.time.tickCount s.mode.code (timeState s) (now s)) :: s.out ∧ heartbeatDue t = false) ∧
  (∀ s : State, heartbeatDue s = false → exec .heartbeat s = .next s) ∧
  (∀ (s u : State) (ring t : Nat), (moderation s ring).1 = some t → s.host.linkUp = true → reachable s (t + (moderation s ring).2.1 * 1000) = true → u = advanceTo s (t + (moderation s ring).2.1 * 1000) →
      exec (.modTimeExpiry ring) s = .next (signal (restartModeration u ring) (moderation u ring).2.2))

/-- For every state and every list of W1C fields raised together: if all of them are set already, nothing changes at all, so that no entry is
written; otherwise exactly one event arises, which names the register and carries the bits that were 0 and no other, after each of those
fields has been set. (The state after the event is the model's event operation, which writes the entry into the event ring or counts it
lost.) -/
def Obligations.W1CBitsGiveOneRegisterEntry : Prop :=
  (∀ (s : State) (fs : List Fld), (∀ f ∈ fs, rd s f ≠ 0) → raiseAll s fs = s) ∧
  (∀ (s : State) (fs : List Fld) (f : Fld) (l : List Fld), fs.filter (fun f => rd s f = 0) = f :: l →
      raiseAll s fs = event (l.foldl (fun s g => wr s g 1) (wr s f 1)) (blockOf f.off)
        (now (l.foldl (fun s g => wr s g 1) (wr s f 1))) (.register f.off (l.foldl (fun b g => setBit b g.lo) (setBit 0 f.lo))) false) ∧
  (∀ (s : State) (block stamp : Nat) (data : EventData) (atOnce : Bool), evtOpen s = true → s.host.lostSince = 0 →
      event s block stamp data atOnce = putEvent s block stamp data atOnce) ∧
  (∀ (s : State) (block stamp : Nat) (data : EventData) (atOnce : Bool), rd (putEvent s block stamp data atOnce) evtRing.tail = (rd s evtRing.tail + 1) % 2 ^ 32)

/-- For every state: PWR_GOOD_FALL leaves every register at its reset value, every table, queue, memory and log empty, no image and no link, and
PWR_GOOD low; only the fuses, the levels on the pins that come from outside, what has left the device and the commands that wait stay, and
the outputs that a reset forces low are recorded as low. While PWR_GOOD is low a Knit breach is still sensed: it is met when power returns.
PWR_GOOD_RISE enters Dormant, and with a breach sensed meanwhile the zeroize sequence begins. -/
def Obligations.PowerGoodFallIsAColdReset : Prop :=
  (∀ s : State, ∃ t, exec .pwrGoodFall s = .next t ∧ t.mode = .dormant ∧ t.power.pwrGood = false ∧ t.regs = [] ∧ t.mem = [] ∧ t.rooms = [] ∧
      t.participants = [] ∧ t.legs = [] ∧ t.decodes = [] ∧ t.buffers = [] ∧ t.composites = [] ∧ t.encodes = [] ∧ t.audio = [] ∧ t.mixes = [] ∧
      t.ledger = [] ∧ t.effects = [] ∧ t.eth = [] ∧ t.mitten = .reset ∧ t.ingress = .reset ∧ t.cipher = .reset ∧ t.gauntlet = .reset ∧
      t.band = .reset ∧ t.pon = .reset ∧ t.near = .reset ∧ t.lining = .reset ∧ t.glove = .reset ∧ t.dma = .reset ∧ t.time = .reset ∧
      t.faults = .reset ∧ t.proving = .reset ∧ t.modeRequests = [] ∧ t.host.linkUp = false ∧ t.trust.accepted = false ∧ t.trust.keys = [] ∧
      t.trust.fuses = s.trust.fuses ∧ t.power.knitOpen = s.power.knitOpen ∧ t.out = (burstsLow (pinsLow s)).out) ∧
  (∀ s : State, s.power.pwrGood = false → exec .knitBreach s = .next { s with power := { s.power with knitOpen := true } }) ∧
  (∀ s : State, s.power.pwrGood = false → s.power.knitOpen = false → ∃ t, exec .pwrGoodRise s = .next t ∧ t.mode = .dormant ∧ t.power.pwrGood = true ∧
      t.trust.zeroizing = s.trust.zeroizing) ∧
  (∀ s : State, s.power.pwrGood = false → s.power.knitOpen = true → ∃ t, exec .pwrGoodRise s = .next t ∧ t.power.pwrGood = true ∧
      t.trust.zeroizing = true ∧ t.trust.fuses.lifecycle = 3) ∧
  (∀ s : State, s.power.pwrGood = true → exec .pwrGoodRise s = .next s)

/-- In Dormant with power and TEST_EN low, the first self-test: a pass of a part that is not RETIRED asks for Proving; of a RETIRED part enters
Sealed; a failure writes the entry 0x80 and the device stays in Dormant, and no later self-test is run. RESET_N low for 100 ns or longer
outside Dormant and Sealed holds a warm reset, and its rise asks for Proving. A warm reset in Dormant or Sealed changes nothing. -/
def Obligations.SelfTestAndResetPins : Prop :=
  (∀ s : State, s.power.pwrGood = true → s.mode = .dormant → s.power.selfTestDone = false → s.power.testEn = false → s.trust.zeroizing = false →
      s.trust.fuses.lifecycle ≠ 3 → exec (.selfTestDone true) s = .next
        { s with power := { s.power with selfTestDone := true }, modeRequests := s.modeRequests ++ [(.proving, 1)] }) ∧
  (∀ s : State, s.power.pwrGood = true → s.mode = .dormant → s.power.selfTestDone = false → s.power.testEn = false → s.trust.zeroizing = false →
      s.trust.fuses.lifecycle = 3 → ∃ t, exec (.selfTestDone true) s = .next t ∧ t.mode = .sealed) ∧
  (∀ s : State, s.power.pwrGood = true → s.mode = .dormant → s.power.selfTestDone = false → s.power.testEn = false → s.trust.zeroizing = false →
      ∃ t, exec (.selfTestDone false) s = .next t ∧ t.mode = .dormant ∧ t.modeRequests = s.modeRequests ∧ t.power.selfTestDone = true ∧
        t.faults.nextSeq = s.faults.nextSeq + 1 ∧
        (t.faults.log.get (faultSlot s.faults.log).1).map (fun e => (e.code, e.sequence)) = some (0x80, s.faults.nextSeq)) ∧
  (∀ (s : State) (passed : Bool), s.power.selfTestDone = true → exec (.selfTestDone passed) s = .next s) ∧
  (∀ (s : State) (d : Nat), 100 ≤ d → s.mode ≠ .dormant → s.mode ≠ .sealed → s.trust.zeroizing = false → s.power.resetHeld = false →
      ∃ t, exec (.resetNLow d) s = .next t ∧ t.power.resetHeld = true ∧ t.legs = [] ∧ t.rooms = [] ∧ t.mitten.threads = [] ∧ t.mode = s.mode ∧
        t.faults.log = (warmReset s).faults.log) ∧
  (∀ s : State, s.power.resetHeld = true → exec .resetNRise s = .next
      { s with power := { s.power with resetHeld := false }, modeRequests := s.modeRequests ++ [(.proving, 8)] }) ∧
  (∀ (s : State) (d reason : Nat), s.mode = .dormant ∨ s.mode = .sealed →
      exec (.resetNLow d) s = .next s ∧ warmReset s = s ∧ warmResetFor s reason = s)

/-- For every state that is not Sealed and has no zeroize sequence running: a Knit breach with power, a core rail below 500 or above 900 mV, a
junction below -50 or above 125 °C, a reference more than 10 % off, a TAMPER_IN pin high or ZEROIZE_N low for 100 ns each begin the sequence
with their cause. From then on no key, KEK, image, room, participant, leg, stream, tunnel, thread or channel is left, every byte of the
exchange region reads zero, every other byte reads as before, and the fuses of a Knit breach read RETIRED. The end of the scrub enters
Sealed; a trigger during the sequence, or in a Sealed that a sequence has entered, does not start it again. -/
def Obligations.ZeroizeErasesAndSeals : Prop :=
  (∀ (s : State) (cause input : Nat), s.trust.zeroizing = false → s.mode ≠ .sealed → ∃ t, zeroizeTrigger s cause input = t ∧
      t.trust.zeroizing = true ∧ t.trust.keys = [] ∧ t.trust.keks = [] ∧ t.trust.tableKek = none ∧ t.trust.pageKey = none ∧ t.trust.accepted = false ∧
      t.trust.held = none ∧ t.trust.pendingPartial = none ∧ t.rooms = [] ∧ t.participants = [] ∧ t.legs = [] ∧ t.decodes = [] ∧ t.encodes = [] ∧
      t.composites = [] ∧ t.mixes = [] ∧ t.buffers = [] ∧ t.gauntlet.tunnels = [] ∧ t.mitten.threads = [] ∧ t.cipher.jobs = [] ∧ t.dma.channels = [] ∧
      t.host.deferred = [] ∧ rd t Reg.TRUST.ZEROIZE_CAUSE_CAUSE = cause % 2 ^ Reg.TRUST.ZEROIZE_CAUSE_CAUSE.width ∧
      (∀ a : Nat, exchangeBase ≤ a → a < exchangeBase + 2 ^ 32 → memByte t.mem a = 0) ∧
      (∀ a : Nat, a < exchangeBase ∨ exchangeBase + 2 ^ 32 ≤ a → memByte t.mem a = memByte s.mem a)) ∧
  (∀ s : State, s.power.pwrGood = true → exec .knitBreach s = .next (zeroizeTrigger s 1 0)) ∧
  (∀ s : State, (zeroizeTrigger s 1 0).trust.fuses.lifecycle = 3 ∧ (zeroizeTrigger s 9 0).trust.fuses.lifecycle = 3) ∧
  (∀ (s : State) (mv : Nat), s.power.pwrGood = true → mv < 500 ∨ 900 < mv → exec (.railOutOfRange mv) s = .next (zeroizeTrigger s 2 0)) ∧
  (∀ (s : State) (c : Int), c < -50 ∨ 125 < c → exec (.temperatureTrigger c) s = .next (zeroizeTrigger s 3 0)) ∧
  (∀ (s : State) (d : Int), d < -100 ∨ 100 < d → exec (.clockTrigger d) s = .next (zeroizeTrigger s 4 0)) ∧
  (∀ (s : State) (pin d : Nat), pin < 4 → 100 ≤ d → exec (.tamperIn pin d) s = .next (zeroizeTrigger s 5 pin)) ∧
  (∀ (s : State) (d : Nat), 100 ≤ d → exec (.zeroizePin d) s = .next (zeroizeTrigger s 6 0)) ∧
  (∀ (s : State) (cause input : Nat), cause ≠ 1 → cause ≠ 9 → s.trust.zeroizing = true ∨ (s.mode = .sealed ∧ rd s Reg.TRUST.ZEROIZE_CAUSE_CAUSE ≠ 0) → zeroizeTrigger s cause input = s) ∧
  (∀ s : State, s.trust.zeroizing = true → ∃ t, exec .zeroizeScrubDone s = .next t ∧ t.mode = .sealed ∧ t.trust.zeroizing = false ∧ t.modeRequests = []) ∧
  (∀ s : State, s.trust.zeroizing = false → exec .zeroizeScrubDone s = .next s)

/-- With the link up, PERST_N, FUNCTION_LEVEL_RESET and PCIE_LINK_LOSS each take the link down and halt every DMA channel with LINK_DOWN, which
they do not where it is down; the two resets end an unlock of the monitor either way. PCIE_LINK_UP, with power, outside Dormant and with the
host domain on, brings the link up and writes the completions that wait as far as the ring has room. -/
def Obligations.LinkEvents : Prop :=
  (∀ s : State, s.host.linkUp = true →
      exec .perstN s = .next (endUnlock (dmaHaltAll { s with host := { s.host with linkUp := false } } (fun _ => true) 5)) ∧
      exec .functionLevelReset s = .next (endUnlock (dmaHaltAll { s with host := { s.host with linkUp := false } } (fun _ => true) 5)) ∧
      exec .pcieLinkLoss s = .next (dmaHaltAll { s with host := { s.host with linkUp := false } } (fun _ => true) 5)) ∧
  (∀ s : State, s.host.linkUp = false → exec .perstN s = .next (endUnlock s) ∧ exec .functionLevelReset s = .next (endUnlock s) ∧ exec .pcieLinkLoss s = .next s) ∧
  (∀ s : State, s.host.linkUp = false → s.power.pwrGood = true → s.mode ≠ .dormant → domainOn s 58 = true →
      exec .pcieLinkUp s = .next (flush { s with host := { s.host with linkUp := true } })) ∧
  (∀ (s : State) (block stamp : Nat) (data : EventData) (atOnce : Bool), s.host.linkUp = false →
      event s block stamp data atOnce = loseEvent s)

/-- FLASH_SLOT_VERIFY of the slot that is next reads the image that the slot holds: one with no reason against it is accepted (from slot 1 with
FALLBACK_USED), and a refused primary slot leaves the fallback to be tried. BOOT_STEP begins the step that is next, or ends the steps;
BOOT_WAIT ends a delay at its time; an acknowledged I2C_WRITE goes on and an unacknowledged one fails Proving; I2C_POLL and GPIO_WAIT
compare what they read with the step. DOMAIN_RAMP_DONE switches the domain on at its time and lets the next ramp begin. MARCH_DONE ends a
march that the host asked for with its group back in its state, BUSY clear and PASSED telling whether a word failed. -/
def Obligations.ProvingCommandsComplete : Prop :=
  (∀ (s : State) (slot : Nat) (content : List Byte), seeksImage s = true → slot < 2 → s.proving.flashTried = slot →
      exec (.flashSlotVerify slot content) s = .next (slotVerified (setFlash s slot (slotContent s slot content)) slot
        (Image.ofBytes (slotContent s slot content)) (bootReason s (Image.ofBytes (slotContent s slot content))))) ∧
  (∀ (s : State) (i : Image), slotVerified s 0 i 0 =
      acceptImage { wr (showReason s 0) Reg.TRUST.IMAGE_STATUS_PRIMARY_REASON 0 with proving := { s.proving with flashTried := 1 } } i 1) ∧
  (∀ (s : State) (i : Image), slotVerified s 1 i 0 =
      raise (acceptImage { showReason s 0 with proving := { s.proving with flashTried := 2 } } i 2) Reg.TRUST.TRUST_EVENTS_FALLBACK_USED) ∧
  (∀ (s : State) (i : Image) (r : Nat), r ≠ 0 → (slotVerified s 0 i r).trust.accepted = s.trust.accepted ∧ (slotVerified s 0 i r).proving.flashTried = 1) ∧
  (∀ (s : State) (b : BootStep), bootReady s = true → s.proving.bootWait = .none → (bootSteps s)[s.proving.bootIndex]? = some b →
      exec .bootStep s = .next (bootBegin s b)) ∧
  (∀ s : State, bootReady s = true → s.proving.bootWait = .none → (bootSteps s)[s.proving.bootIndex]? = none → exec .bootStep s = .next (bootEnds s)) ∧
  (∀ (s u : State) (t : Nat), bootReady s = true → s.proving.bootWait = .delay t → reachable s t = true → u = advanceTo s t → exec .bootWait s = .next (bootNext u)) ∧
  (∀ s : State, bootReady s = true → s.proving.bootWait = .ack →
      exec (.i2cWrite true) s = .next (bootNext s) ∧ exec (.i2cWrite false) s = .next (bootFails s)) ∧
  (∀ (s u : State) (b : BootStep) (t elapsed v : Nat), bootReady s = true → s.proving.bootWait = .poll t → (bootSteps s)[s.proving.bootIndex]? = some b →
      reachable s (t + elapsed) = true → u = advanceTo s (t + elapsed) → exec (.i2cPoll elapsed (some v)) s =
        .next (bootFinds u b elapsed (decide ((v % 256) &&& bitsOf b.value 15 8 = bitsOf b.value 7 0)))) ∧
  (∀ (s u : State) (b : BootStep) (t elapsed level : Nat), bootReady s = true → s.proving.bootWait = .gpio t →
      (bootSteps s)[s.proving.bootIndex]? = some b → level < 2 → reachable s (t + elapsed) = true → u = advanceTo s (t + elapsed) → exec (.gpioWait elapsed level) s =
        .next (bootFinds (takeLevel u b.pin level) b elapsed (decide (level = bitOf b.value 0)))) ∧
  (∀ (s u : State) (d t : Nat), s.power.ramping.find? (fun r => r.1 = d) = some (d, t) → reachable s t = true → u = advanceTo s t → exec (.domainRampDone d) s =
      .next (startRamps (setDomains { u with power := { u.power with ramping := u.power.ramping.erase (d, t) } }
        (setBit (domainsOn { u with power := { u.power with ramping := u.power.ramping.erase (d, t) } }) d)))) ∧
  (∀ (s : State) (g form st ends : Nat), s.lining.march = some (g, form, st, ends) → reachable s ends = true →
      ∃ t, exec (.marchDone [] []) s = .next t ∧
      t.lining.march = none ∧ rd t Reg.LINING.MARCH_CONTROL_BUSY = 0 ∧ rd t Reg.LINING.MARCH_CONTROL_PASSED = 1) ∧
  (∀ (s : State) (g form : Nat), s.host.linkUp = true → s.mode ≠ .sealed → s.mode ≠ .dormant → exec (.marchGo g form) s = .next (marchGo s g form))

/-- With the core powered, and for images outside Dormant, Sealed and a zeroize sequence: IMAGE_VERIFIED ends the oldest verification of the
core, of a pushed image or of one for the flash; FLASH_PROGRAM_WRITTEN ends the flash-program directive whose slot was erased, with its slot
written; DRBG_RESEED with the start-up tests passed begins a new reseed interval; without them, after 2^20 generates or 1 s since the last
reseed, it is a zeroize trigger; ENTROPY_HEALTH_FAIL and ENTROPY_STARTUP_PASSED set and clear ENTROPY_STATUS; ATTESTATION_REPORT_SIGNED
writes the oldest report asked for to the exchange region and completes its directive, at most 1,000 a second. -/
def Obligations.TrustEnginesComplete : Prop :=
  (∀ (s : State) (busy : Bool) (i : Image) (l : List (VerifyPurpose × Image)), s.trust.verifying = (.pushed busy, i) :: l → s.trust.zeroizing = false → s.mode ≠ .sealed →
      s.mode ≠ .dormant → exec .imageVerified s = .next (pushedVerified { s with trust := { s.trust with verifying := l } } busy i)) ∧
  (∀ (s : State) (k : Nat) (b : List Byte) (i : Image) (l : List (VerifyPurpose × Image)), s.trust.verifying = (.flashProgram k b, i) :: l → s.trust.zeroizing = false →
      s.mode ≠ .sealed → s.mode ≠ .dormant → exec .imageVerified s = .next (flashVerified { s with trust := { s.trust with verifying := l } } k b i)) ∧
  (∀ (s : State) (d : Deferred), oldestOf s 0x56 (fun d => d.key = 1) = some d → s.trust.zeroizing = false →
      exec .flashProgramWritten s = .next (finish (writeFlash s) d 0 0 0)) ∧
  (∀ s : State, corePowered s = true → s.trust.startupPassed = true → exec .drbgReseed s = .next (reseed s)) ∧
  (∀ s : State, corePowered s = true → s.trust.startupPassed = false → 2 ^ 20 ≤ s.trust.generates →
      exec .drbgReseed s = .next (zeroizeTrigger s 8 0)) ∧
  (∀ (s u : State), corePowered s = true → s.trust.startupPassed = false → s.trust.generates < 2 ^ 20 →
      reachable s (s.trust.reseededAt + 1000000000) = true → u = advanceTo s (s.trust.reseededAt + 1000000000) → exec .drbgReseed s = .next (zeroizeTrigger u 8 0)) ∧
  (∀ s : State, corePowered s = true → exec .entropyHealthFail s =
      .next (raise (wr { s with trust := { s.trust with startupPassed := false } } Reg.TRUST.ENTROPY_STATUS 1) Reg.TRUST.TRUST_EVENTS_ENTROPY_ALARM)) ∧
  (∀ s : State, corePowered s = true →
      exec .entropyStartupPassed s = .next (wr { s with trust := { s.trust with startupPassed := true } } Reg.TRUST.ENTROPY_STATUS 0)) ∧
  (∀ (s : State) (r : AttestRequest) (l : List AttestRequest), s.trust.attest = r :: l → s.trust.zeroizing = false →
      (s.trust.attestSecond = secondOf s → s.trust.attestDone < 1000) → ∃ t, exec .attestationReportSigned s = .next t ∧ t.trust.attest = l ∧
        t.trust.attestSecond = secondOf s ∧ t.trust.attestDone = (if s.trust.attestSecond = secondOf s then s.trust.attestDone else 0) + 1)

/-- With power: TICK_BOUNDARY runs the clock to the next boundary and the device acts as R55 states. LATE_DROP, GENERATION_CHANGED,
GENERATION_RETIRED, GEN_FORCED, ENTRY_TO_SERVING, LEG_DRAINED, THREAD_DELAY_EXPIRY, TUNNEL_FREED, RETIREMENT, AUTO_WARM_RESET and
SET_POINT_CHANGE are that same boundary where what they name is due at it. Where it is not due nothing happens. A boundary counts one,
reloads INCREMENT and shows the tick of its local time (startTick). -/
def Obligations.BoundaryCommandsComplete : Prop :=
  (∀ s : State, s.power.pwrGood = true → exec .tickBoundary s = .next (tickBoundary s)) ∧
  (∀ (s : State) (kind i : Nat), s.power.pwrGood = true → lateDropDue s kind i = true → exec (.lateDrop kind i) s = .next (tickBoundary s)) ∧
  (∀ s : State, s.power.pwrGood = true → changeDue s = true → exec .generationChanged s = .next (tickBoundary s)) ∧
  (∀ s : State, s.power.pwrGood = true → retireDueOld s = true → exec .generationRetired s = .next (tickBoundary s)) ∧
  (∀ s : State, s.power.pwrGood = true → forcedDue { s with time := { s.time with boundaries := s.time.boundaries + 1 } } = true →
      exec .genForced s = .next (tickBoundary s)) ∧
  (∀ s : State, s.power.pwrGood = true → provingDone s = true → exec .entryToServing s = .next (tickBoundary s)) ∧
  (∀ (s : State) (kind i : Nat), s.power.pwrGood = true → drainedDue s kind i = true → exec (.legDrained kind i) s = .next (tickBoundary s)) ∧
  (∀ s : State, s.power.pwrGood = true → s.mitten.threads.any (fun e => e.2.state = .delayed && decide (e.2.wake ≤ 1)) = true →
      exec .threadDelayExpiry s = .next (tickBoundary s)) ∧
  (∀ (s : State) (t : Nat) (x : Tunnel), s.power.pwrGood = true → s.gauntlet.tunnels.get t = some x → x.state = .draining →
      tunnelBusy (stopTunnels s) t { x with built := [] } = false → exec (.tunnelFreed t) s = .next (tickBoundary s)) ∧
  (∀ (s : State) (kind i : Nat), s.power.pwrGood = true → s.faults.retiring.contains (engineId kind i) = true → canRetire s kind i = true →
      exec (.retirement kind i) s = .next (tickBoundary s)) ∧
  (∀ s : State, s.power.pwrGood = true → (autoCause s).isSome = true → rd s Reg.FAULTLOG.FAULT_CONFIG_AUTO_RESET = 1 → (autoRecent s).length < 3 →
      exec .autoWarmReset s = .next (tickBoundary s)) ∧
  (∀ s : State, s.power.pwrGood = true → s.power.protectivePending = true → exec .setPointChange s = .next (tickBoundary s)) ∧
  (∀ (s : State) (p t : Nat), s.power.pwrGood = true → s.power.pendingPoint = some (p, t) → t ≤ nowNs (toBoundary s) →
      exec .setPointChange s = .next (tickBoundary s)) ∧
  (∀ s : State, s.power.pwrGood = false → exec .tickBoundary s = .next s) ∧
  (∀ s : State, s.power.pwrGood = true → changeDue s = false → exec .generationChanged s = .next s)

/-- For every state with a positive INCREMENT: the clock brought to a boundary stands at or beyond the next multiple of 125,000 ns, less than
one cycle beyond it, a whole number of cycles from where it stood; an instant that reach answers lies behind the clock it answers and before
the next boundary, and nothing but the clock differs; a tick that starts has the tick number of its local time and counts one boundary more. -/
def Obligations.TheClockOfABoundary : Prop :=
  (∀ s : State, 0 < s.time.increment → s.time.clock < nextMultiple s → nextMultiple s ≤ (toBoundary s).time.clock ∧
      (toBoundary s).time.clock < nextMultiple s + s.time.increment ∧ s.time.increment ∣ (toBoundary s).time.clock - s.time.clock) ∧
  (∀ (s u : State) (t : Nat), 0 < s.time.increment → reachable s t = true → u = advanceTo s t → t ≤ nowNs u ∧ { u with time := s.time } = s ∧
      { u.time with clock := s.time.clock } = s.time ∧ s.time.clock ≤ u.time.clock ∧ (u = s ∨ u.time.clock < nextMultiple s)) ∧
  (∀ s : State, s.time.clock < nextMultiple s ∧ nextMultiple s ≤ s.time.clock + Config.tickNs * Config.fracUnit ∧
      Config.tickNs * Config.fracUnit ∣ nextMultiple s)

/-- PTP_MESSAGE on a port of PTP_PORTS with PTP among the sources, of the engine's domain, transport and address, is received by the engine;
DELAY_REQ_SEND sends the next request once its time is reached, with the next sequence number; ANNOUNCE_TIMEOUT forgets a master whose
announcements have stopped and chooses anew; PPS_MISSING disqualifies the PPS 1.000001001 s after its last edge; TOD_TIMEOUT disqualifies a
PON's time of day 10 s after its last measurement; SOURCE_DISQUALIFIED disqualifies the selected source after its fourth refusal in a row;
RESTORE_WAIT_EXPIRY returns to a candidate of a higher place once RESTORE_WAIT has passed. -/
def Obligations.TimeSourcesComplete : Prop :=
  (∀ (s : State) (port : Nat) (a : PtpArrival) (m : PtpMessage), inService s = true → port < 16 →
      bitOf (rd s Reg.TIME.TIME_CONFIG_PTP_PORTS) port = 1 → (slots s).contains 1 = true → ptpMine s a.via = true → exec (.ptpMessage port a m) s = .next (ptpReceive s port a.stamp m)) ∧
  (∀ (s u : State) (k : Nat), inService s = true → s.time.engine.selected = some k → (slots s).contains 1 = true →
      reachable s s.time.engine.nextRequest = true → u = advanceTo s s.time.engine.nextRequest → ∃ t, exec .delayReqSend s = .next t ∧
        t.time.engine.requestSeq = (s.time.engine.requestSeq + 1) % 65536 ∧ nowNs u ≤ t.time.engine.nextRequest ∧
        t.out = .ptp (ptpPort u) (if rd u Reg.TIME.TIME_CONFIG_PTP_DELAY = 1 then 2 else 1) (ptpVia t ++ [(s.time.engine.requestSeq + 1) % 65536]) :: u.out) ∧
  (∀ (s u : State) (m : PtpMaster) (identity : Nat), s.time.engine.masters.find? (fun m => m.identity = identity) = some m →
      reachable s (m.announceAt + orDefault (timeRec s).announceTimeout 3 * m.announceInterval) = true → u = advanceTo s (m.announceAt + orDefault (timeRec s).announceTimeout 3 * m.announceInterval) →
      exec (.announceTimeout identity) s = .next (runBmca (withEngine u
        { u.time.engine with masters := u.time.engine.masters.filter (fun y => y.identity ≠ identity) }))) ∧
  (∀ (s u : State) (t : Nat), s.time.lastEdge = some t → inService s = true → (slots s).contains 4 = true → s.time.pps.qualified = true →
      reachable s (t + 1000001001) = true → u = advanceTo s (t + 1000001001) → exec .ppsMissing s = .next (ppsMissed u)) ∧
  (∀ (s u : State) (port : Nat), port < 2 → (sourceGet s.time (todSource port)).qualified = true →
      reachable s ((sourceGet s.time (todSource port)).measuredAt + 10000000000) = true → u = advanceTo s ((sourceGet s.time (todSource port)).measuredAt + 10000000000) → exec (.todTimeout port) s =
        .next (wr (disqualify u (todSource port) false) (Reg.PON.PON_STATUS_TOD_QUALIFIED.on port) 0)) ∧
  (∀ s : State, tracking s = true → 4 ≤ (sourceGet s.time (selected s)).refusals → exec .sourceDisqualified s = .next (disqualify s (selected s) true)) ∧
  (∀ (s u : State) (c t : Nat), (sourceGet s.time c).candidateSince = some t → inService s = true → everLocked s = true → tracking s = true →
      candidate s c = true → (slots s).idxOf c < (slots s).idxOf (selected s) →
      reachable s (t + rd s Reg.TIME.SOURCE_PRIORITY_RESTORE_WAIT * 1000000000) = true → u = advanceTo s (t + rd s Reg.TIME.SOURCE_PRIORITY_RESTORE_WAIT * 1000000000) → exec (.restoreWaitExpiry c) s = .next (selectSource u c)) ∧
  (∀ (s : State) (stamp : Nat), inService s = true → (slots s).contains 4 = true → s.time.lastEdge = none → everLocked s = false →
      s.time.nextSecond = none → s.time.pps.qualified = false → ∃ t, exec (.ppsEdge stamp true) s = .next t ∧ t.time.lastEdge = some stamp ∧
        t.time.nextSecond = none ∧ t.time.pps.count = 1)

/-- With PPS_ENABLE set, the outputs allowed to drive and the local time at the boundary that begins a second, whose pulse has not been taken:
PPS_OUT drives TIME_PPS_OUT high and notes when it falls. PULSE_WIDTH_END of an output that is high drives it low once its width has passed. -/
def Obligations.TimeOutputsComplete : Prop :=
  (∀ s : State, pinsDrive s = true → rd s Reg.TIME.PULSE_CONFIG_PPS_ENABLE = 1 → secondBegins s = true → onceDue s 2 = true → ∃ t, exec .ppsOut s = .next t ∧ t.time.ppsOut = true ∧
        t.time.lastPpsSecond = nowNs s / 1000000000 ∧ t.out = .pin "TIME_PPS_OUT" 1 :: s.out ∧
        t.time.ppsOutUntil = some (nowNs s + rd s Reg.TIME.PULSE_CONFIG_PPS_WIDTH * 1000)) ∧
  (∀ (s u : State) (t : Nat), s.time.ppsOutUntil = some t → reachable s t = true → u = advanceTo s t → exec (.pulseWidthEnd 0) s =
      .next (emit { u with time := { u.time with ppsOut := false, ppsOutUntil := none } } (.pin "TIME_PPS_OUT" 0))) ∧
  (∀ (s u : State) (t : Nat), s.time.tickOutUntil = some t → reachable s t = true → u = advanceTo s t → exec (.pulseWidthEnd 1) s =
      .next (emit { u with time := { u.time with tickOut := false, tickOutUntil := none } } (.pin "TIME_TICK_OUT" 0)))

/-- In service: FRAME_RECEIVED on a MAC with its link up and room in the receive buffer gives the frame its outcome, and without room counts
RX_OVERFLOW and raises it; CUFF_BANK_SWITCH lets the words that wait enter an emptied bank; FRAME_PARSE on the MAC whose turn it is, with a
whole frame of intact words, reads the frame by the preface at its head; FRAG_TIMEOUT closes a fragment context at its end; RECIRCULATED
takes the oldest packet of the engine's second pass, and drops one whose generation is no longer live. -/
def Obligations.IngressCommandsComplete : Prop :=
  (∀ (s : State) (m : Nat) (f : MacFrame), inService s = true → macValid s m = true → linkUp s m = true →
      rxUsed (countFec s m f) m + min f.length (rd (countFec s m f) (Reg.ETH.PORT_CONFIG_MAX_FRAME.on m)) ≤ rxBuffer (countFec s m f) m →
      exec (.frameReceived m f) s = .next (frameOutcome (countFec s m f) m f)) ∧
  (∀ (s : State) (m : Nat) (f : MacFrame), inService s = true → macValid s m = true → linkUp s m = true →
      rxBuffer (countFec s m f) m < rxUsed (countFec s m f) m + min f.length (rd (countFec s m f) (Reg.ETH.PORT_CONFIG_MAX_FRAME.on m)) →
      exec (.frameReceived m f) s = .next (raise (bump (countFec s m f) (Reg.ETH.RX_OVERFLOW.on m)) (Reg.ETH.PORT_EVENTS_RX_OVERFLOW.on m))) ∧
  (∀ (s : State) (m : Nat), (cuffOf s m).stalled = true → (cuffOf s m).words.all (fun x => x.1 = (cuffOf s m).bank) = true →
      exec (.cuffBankSwitch m) s = .next (withCuff s m (fillCuff (bankWords s m) { cuffOf s m with stalled := false } (cuffOf s m).waiting))) ∧
  (∀ (s : State) (m : Nat) (bucketPoisoned : Bool), inService s = true → m < 18 →
      inServiceEngine s 5 (parseEngine s m) = true → s.faults.resetting.contains (engineId 5 (parseEngine s m)) = false →
      ((s.ingress.recirc.get (parseEngine s m)).getD []).isEmpty = true → nextCuff s (parseEngine s m) = some m → (cuffOf s m).resync = false →
      (cuffOf s m).poisoned = false → ∀ ws rest, splitFrame (cuffOf s m).words = some (ws, rest) → badTag ws [] = false → badData ws [] = false →
      exec (.frameParse m ⟨[], bucketPoisoned⟩) s = .next (parseRead (withCuff (withIngress (countCorrected s m ws [])
          (fun i => { i with lastCuff := i.lastCuff.put (parseEngine s m) m })) m
        { cuffOf s m with words := rest, gathered := [], poisoned := false, marked := false })
        (readPreface (((((cuffOf s m).gathered ++ ws.map (·.2)).find? (·.preface)).map (·.data)).getD []))
        (((((cuffOf s m).gathered ++ ws.map (·.2)).find? (·.preface)).map (·.boundary)).getD 0)
        ((((cuffOf s m).gathered ++ ws.map (·.2)).filter (fun w => !w.preface)).flatMap (·.data)) bucketPoisoned)) ∧
  (∀ (s u : State) (k : Nat) (e : FragEntry), s.ingress.fragments.get k = some e → e.closed = false → inService s = true →
      reachable s (fragmentEnd s e) = true → u = advanceTo s (fragmentEnd s e) → exec (.fragTimeout k) s = .next (closeFragment u k e Reg.INGRESS.FRAG_TIMEOUTS)) ∧
  (∀ (s : State) (engine : Nat) (layers : MediaPacket) (x : Recirculated) (rest : List Recirculated), (s.ingress.recirc.get engine).getD [] = x :: rest →
      inService s = true → inServiceEngine s 5 engine = true → s.faults.resetting.contains (engineId 5 engine) = false →
      x.generation = s.trust.current.number → x.label = 1 → exec (.recirculated engine ⟨layers, false⟩) s = .next (takeTunnelMedia
        (bump (withIngress s (fun i => { i with recirc := i.recirc.put engine rest })) Reg.INGRESS.RECIRCULATED) x layers))

/-- In service: CIPHER_JOB_ACCEPT of a job that is wanted, from a port that may submit, on a cluster in service with fewer than 256 jobs,
accepts it where its descriptor is good and its key is at hand, and otherwise hands its consumer the status; CIPHER_COMPLETION of a job
whose turn it is writes its output and hands its consumer the plain text, untrusted where a GCM tag is wrong; KEY_LOAD ends a load at work,
with shares in the slot where the key unwraps; PALM_RESHARE renews the shares of a slot that has been resident for REFRESH_TICKS. -/
def Obligations.CipherCommandsComplete : Prop :=
  (∀ (s : State) (cluster port : Nat) (b : List Byte) (p : JobPurpose), inService s = true → s.trust.zeroizing = false → cluster < 8 →
      wanted s p (readJobDesc b) = true → maySubmit port (readJobDesc b) = true → inServiceEngine s 4 cluster = true →
      portReply s port (enginePort 4 cluster) = .pass → (s.cipher.jobs.filter (fun j => j.cluster = cluster)).length < 256 →
      jobStatus (unsubmit s p) cluster (readJobDesc b) = 0 → (jobKey (unsubmit s p) cluster (readJobDesc b)).isSome = true →
      ∃ slot entry, jobKey (unsubmit s p) cluster (readJobDesc b) = some (slot, entry) ∧ exec (.cipherJobAccept cluster port b p) s =
        .next (acceptJob (placeJob (unsubmit s p) (readJobDesc b) p) cluster port (readJobDesc b) p slot entry)) ∧
  (∀ (s : State) (cluster port : Nat) (b : List Byte) (p : JobPurpose), inService s = true → s.trust.zeroizing = false → cluster < 8 →
      wanted s p (readJobDesc b) = true → maySubmit port (readJobDesc b) = true → inServiceEngine s 4 cluster = true →
      portReply s port (enginePort 4 cluster) = .pass → (s.cipher.jobs.filter (fun j => j.cluster = cluster)).length < 256 →
      jobStatus (unsubmit s p) cluster (readJobDesc b) ≠ 0 →
      exec (.cipherJobAccept cluster port b p) s = .next (refuseJob (unsubmit s p) cluster port (readJobDesc b) p
        (jobStatus (unsubmit s p) cluster (readJobDesc b)))) ∧
  (∀ (s : State) (j : CipherJob) (r : JobResult), s.cipher.jobs.find? (fun k => k.id = j.id) = some j → inService s = true → mayComplete s j = true →
      r.core / 4 = j.cluster → r.failed = false → r.addrError = false → r.poisoned = false →
      (jobRefused (countCore s r.core (coreCycles j.desc + r.stall)) j).isSome = false →
      sourcePoisoned (countCore s r.core (coreCycles j.desc + r.stall)) j.desc = false →
      exec (.cipherCompletion j.id r) s = .next (completeJob (countCore s r.core (coreCycles j.desc + r.stall)) j r)) ∧
  (∀ (s : State) (j : CipherJob) (r : JobResult), s.cipher.jobs.find? (fun k => k.id = j.id) = some j → inService s = true → mayComplete s j = true →
      r.core / 4 = j.cluster → r.failed = false → r.addrError = false → (jobRefused (countCore s r.core (coreCycles j.desc + r.stall)) j).isSome = false →
      r.poisoned = true →
      exec (.cipherCompletion j.id r) s = .next (failJob (countCore s r.core (coreCycles j.desc + r.stall)) j 5)) ∧
  (∀ (s : State) (cluster slot : Nat) (k : KeyEntry), inService s = true → s.trust.zeroizing = false → slot / 128 = cluster →
      (loadsAtWork s).contains slot = true → s.trust.keys.get (palmSlot s slot).entry = some k → k.corrupt = false →
      pathOpen s (if creditFree s 73 then 73 else 89) (enginePort 4 cluster) = true →
      exec (.keyLoad cluster slot true) s =
        .next (deliverShares (flitServed (endLoad s slot) (if creditFree s 73 then 73 else 89) (enginePort 4 cluster)) slot)) ∧
  (∀ (s : State) (cluster slot : Nat), inService s = true → slot / 128 = cluster → (palmSlot s slot).state = .resident →
      rd s Reg.CIPHER.CIPHER_CONFIG_REFRESH_TICKS ≤ since s (palmSlot s slot).loadedAt → exec (.palmReshare cluster slot) s =
        .next (setSlot (draw s).1 slot { palmSlot s slot with loadedAt := s.time.boundaries, shares := (draw s).2 }))

/-- In service, of an ACTIVE leg or participant: KEYFRAME_REQUEST of a send leg asks its source; KEYFRAME_PENDING_EXPIRY sends a request held
back once 200 ms have passed since the last; LAYER_RAISE_WAIT asks again after 500 ms; NACK_UP_TIMER asks upstream for each missing packet 5
ms after its gap was seen, once; NACK_RECEIVED answers each sequence number in order; FEEDBACK_REPORT updates the participant's estimate;
FEEDBACK_STALE after its time halves E, not below MIN_RATE, and counts it. -/
def Obligations.LegCommandsComplete : Prop :=
  (∀ (s : State) (l : Nat) (x : Leg) (fir : Bool), s.legs.get l = some x → inService s = true → x.state = .active → x.spec.kind ≠ 0 →
      (takeFeedback s x.spec.participant (.keyframe l fir)).isSome = true → ∃ t, takeFeedback s x.spec.participant (.keyframe l fir) = some t ∧
        exec (.keyframeRequest l fir) s = .next (requestKeyframe t x.spec.source fir)) ∧
  (∀ (s u : State) (sender t : Nat) (fir : Bool) (firs : Nat), keyframeOf s sender = some { last := some t, pending := true, fir := fir, firs := firs } →
      reachable s (t + 200000000) = true → u = advanceTo s (t + 200000000) → exec (.keyframePendingExpiry sender) s = .next (sendKeyframe u sender)) ∧
  (∀ (s u : State) (l t : Nat) (x : Leg), s.legs.get l = some x → x.raiseSince = some t → x.state = .active → inService s = true →
      x.raiseAsked = false → reachable s (t + 500000000) = true → u = advanceTo s (t + 500000000) → exec (.layerRaiseWait l) s =
        .next (requestKeyframe (updLeg u l (fun y => { y with raiseAsked := true })) x.spec.source false)) ∧
  (∀ (s u : State) (l : Nat) (x : Leg) (g : Gap), s.legs.get l = some x → x.gaps.find? (fun g => !g.nacked) = some g → x.state = .active →
      x.spec.nackUp = true → inService s = true → reachable s (g.seen + 5000000) = true → u = advanceTo s (g.seen + 5000000) → exec (.nackUpTimer l) s =
        .next (queueNack (updLeg u l (fun y => { y with gaps := y.gaps.map (fun h =>
            if (x.gaps.filter (fun h => !h.nacked && decide (h.seen + 5000000 ≤ nowNs u))).contains h then { h with nacked := true } else h) })) l x.spec
          ((x.gaps.filter (fun h => !h.nacked && decide (h.seen + 5000000 ≤ nowNs u))).map (·.seq)))) ∧
  (∀ (s : State) (l : Nat) (x : Leg) (seqs : List Nat), s.legs.get l = some x → inService s = true → x.state = .active → x.spec.kind ≠ 0 →
      (takeFeedback s x.spec.participant (.nack l seqs)).isSome = true → ∃ t, takeFeedback s x.spec.participant (.nack l seqs) = some t ∧
        exec (.nackReceived l seqs) s = .next (seqs.foldl (fun s q => answerNack s l (q % 65536)) t)) ∧
  (∀ (s : State) (p : Nat) (items : List FeedbackItem) (a : Participant), s.participants.get p = some a →
      a.feedback.contains (.report items) = true → inService s = true → a.state = .active → a.spec.transport ≠ 2 →
      ∃ t b, takeFeedback s p (.report items) = some t ∧ t.participants.get p = some b ∧ b.spec = a.spec ∧ exec (.feedbackReport p items) s =
          .next { t with participants := t.participants.put p (updateEstimate t b (matchItems b items)) }) ∧
  (∀ (s u : State) (p : Nat) (a : Participant), s.participants.get p = some a → inService s = true → a.state = .active → a.spec.transport ≠ 2 →
      reachable s a.staleAt = true → u = advanceTo s a.staleAt → a.spec.minRate < a.nextEstimate.getD a.estimate → ∃ t b, exec (.feedbackStale p) s = .next t ∧
        t.participants.get p = some b ∧ b.nextEstimate = some (max a.spec.minRate (roundOf (a.nextEstimate.getD a.estimate) 2)) ∧
        b.staleAt = a.staleAt + 500000000 ∧ b.spec = a.spec ∧ ∀ q, q ≠ p → t.participants.get q = s.participants.get q) ∧
  (∀ (s u : State) (p : Nat) (a : Participant), s.participants.get p = some a → inService s = true → a.state = .active → a.spec.transport ≠ 2 →
      reachable s a.staleAt = true → u = advanceTo s a.staleAt → a.nextEstimate.getD a.estimate ≤ a.spec.minRate → exec (.feedbackStale p) s =
        .next { u with participants := u.participants.put p { a with staleAt := a.staleAt + 500000000 } })

/-- In service, outside a short tick, on a cluster in service: FRAME_READY of the next assembled frame that is ready is taken by its WAITING or
RUNNING stream, or counted lost where none of its packets is there. The first DECODE_ROW_JOB of a frame opens its buffer and runs; a row
that is due ends within its cap, is suspended once beyond it with the cycles it still needs, and the second time ends, or, beyond the cap
again, is abandoned. ENCODE_FRAME_START starts the frame of its tick once, and behind a frame still at work waits. An ENCODE_ROW_JOB codes
its row within its cap, is suspended once beyond it, and the second time is coded, or cut and counted. A row that writes where it may not,
or whose engine fails, is a failure of the cluster. -/
def Obligations.DecodeAndEncodeCommandsComplete : Prop :=
  (∀ (s : State) (i tr : Nat) (d : DecodeStream) (a : AsmFrame) (rest : List AsmFrame) (f : CodedFrame), s.decodes.get i = some d →
      nextAssembled d = a :: rest → a.readyAt = some tr → a.absent = false → inService s = true → s.time.shortTick = false →
      d.state = .waiting ∨ d.state = .running → inServiceEngine s 0 d.cluster = true → exec (.frameReady i f) s =
        .next (takeFrame (updDecode s i (fun _ => { d with assembly := rest, takenStamp := some a.timestamp, takenLast := a.marker })) i
          { d with assembly := rest, takenStamp := some a.timestamp, takenLast := a.marker } a tr f)) ∧
  (∀ (s : State) (i tr : Nat) (d : DecodeStream) (a : AsmFrame) (rest : List AsmFrame) (f : CodedFrame), s.decodes.get i = some d →
      nextAssembled d = a :: rest → a.readyAt = some tr → a.absent = true → inService s = true → s.time.shortTick = false →
      d.state = .waiting ∨ d.state = .running → inServiceEngine s 0 d.cluster = true → exec (.frameReady i f) s =
        .next (loseFrame (updDecode s i (fun _ => { d with assembly := rest, takenStamp := some a.timestamp, takenLast := a.marker })) i)) ∧
  (∀ (s : State) (i : Nat) (w : RowWork) (d : DecodeStream) (j : DecodeFrame), decodeRowDue s d j = true → s.decodes.get i = some d → d.job = some j →
      j.buffer = none → exec (.decodeRowJob i w) s = .next (match openFrame s i d j with
        | (t, none) => t
        | (t, some k) => runRow t i { d with pictures := d.pictures + 1, job := some k } k (k.buffer.getD 0) w)) ∧
  (∀ (s : State) (i b : Nat) (w : RowWork) (d : DecodeStream) (j : DecodeFrame), decodeRowDue s d j = true → s.decodes.get i = some d → d.job = some j →
      j.buffer = some b → j.held = none → j.sched.suspended = false → decodeRowWorks s b w = true → decodeRowNeed j w ≤ decodeRowCap s j →
      exec (.decodeRowJob i w) s = .next (endRow (strayWrites s b w.writes).1 i d j b w (decodeRowBlocks j w).length)) ∧
  (∀ (s : State) (i b : Nat) (w : RowWork) (d : DecodeStream) (j : DecodeFrame), decodeRowDue s d j = true → s.decodes.get i = some d → d.job = some j →
      j.buffer = some b → j.held = none → j.sched.suspended = false → decodeRowWorks s b w = true → decodeRowCap s j < decodeRowNeed j w →
      exec (.decodeRowJob i w) s = .next (updDecode s i (fun d => { d with job := some { j with held := some w, sched :=
          { j.sched with suspended := true, carried := decodeRowNeed j w - decodeRowCap s j, resumeAt := s.time.boundaries + 1 } } }))) ∧
  (∀ (s : State) (i b : Nat) (w v : RowWork) (d : DecodeStream) (j : DecodeFrame), decodeRowDue s d j = true → s.decodes.get i = some d → d.job = some j →
      j.buffer = some b → j.held = some w → j.sched.suspended = true → decodeRowWorks s b w = true → decodeRowNeed j w ≤ 2 * decodeRowCap s j →
      exec (.decodeRowJob i v) s = .next (endRow (strayWrites s b w.writes).1 i d j b w (decodeRowBlocks j w).length)) ∧
  (∀ (s : State) (i b : Nat) (w v : RowWork) (d : DecodeStream) (j : DecodeFrame), decodeRowDue s d j = true → s.decodes.get i = some d → d.job = some j →
      j.buffer = some b → j.held = some w → j.sched.suspended = true → decodeRowWorks s b w = true → 2 * decodeRowCap s j < decodeRowNeed j w →
      exec (.decodeRowJob i v) s = .next (abandonRow (strayWrites s b w.writes).1 i d j b w (blocksWithin (2 * decodeRowCap s j) (decodeRowBlocks j w)))) ∧
  (∀ (s : State) (i b : Nat) (w : RowWork) (d : DecodeStream) (j : DecodeFrame), decodeRowDue s d j = true → s.decodes.get i = some d → d.job = some j →
      j.buffer = some b → j.held = none → decodeRowWorks s b w = false →
      exec (.decodeRowJob i w) s = .next (decodeFailure (abandonRow (strayWrites s b w.writes).1 i d j b w 0) d.cluster)) ∧
  (∀ (s : State) (i : Nat) (e : EncodeStream), s.encodes.get i = some e → inService s = true → e.state = .waiting ∨ e.state = .running →
      inServiceEngine s 1 e.cluster = true → startsNow s e = true → onceDue s (0x500000 + i) = true → e.job = none →
      exec (.encodeFrameStart i) s = .next (startEncode (markOnce s (0x500000 + i)) i s.time.boundaryAt (frameSchedule e s.time.boundaries))) ∧
  (∀ (s : State) (i : Nat) (e : EncodeStream), s.encodes.get i = some e → inService s = true → e.state = .waiting ∨ e.state = .running →
      inServiceEngine s 1 e.cluster = true → startsNow s e = true → onceDue s (0x500000 + i) = true → e.job.isSome = true →
      exec (.encodeFrameStart i) s = .next (updEncode (markOnce s (0x500000 + i)) i
        (fun e' => { e' with startDue := e'.startDue ++ [(s.time.boundaryAt, frameSchedule e s.time.boundaries)] }))) ∧
  (∀ (s : State) (i : Nat) (w : EncodeWork) (e : EncodeStream) (j : EncodeFrame) (f : LayerFrame), encodeRowDue s e j = true → s.encodes.get i = some e →
      e.job = some j → j.layers[(jobPlace e j j.sched.next).layer]? = some f → f.held = none → j.sched.suspended = false → encodeRowWorks s f.buffer w = true →
      encodeRowNeed w < encodeRowCap s e j → exec (.encodeRowJob i w) s =
        .next (rowCoded (strayEncodeWrites s f.buffer w.writes).1 i e j (jobPlace e j j.sched.next) f w w.blocks.length)) ∧
  (∀ (s : State) (i : Nat) (w : EncodeWork) (e : EncodeStream) (j : EncodeFrame) (f : LayerFrame), encodeRowDue s e j = true → s.encodes.get i = some e →
      e.job = some j → j.layers[(jobPlace e j j.sched.next).layer]? = some f → f.held = none → j.sched.suspended = false → encodeRowWorks s f.buffer w = true →
      encodeRowCap s e j ≤ encodeRowNeed w → exec (.encodeRowJob i w) s =
        .next (updEncode s i (fun e' => { e' with job := some { j with
          sched := { j.sched with suspended := true, carried := encodeRowNeed w - encodeRowCap s e j, resumeAt := s.time.boundaries + 1 },
          layers := j.layers.mapIdx (fun k g => if k = (jobPlace e j j.sched.next).layer then { g with held := some w } else g) } }))) ∧
  (∀ (s : State) (i : Nat) (w v : EncodeWork) (e : EncodeStream) (j : EncodeFrame) (f : LayerFrame), encodeRowDue s e j = true → s.encodes.get i = some e →
      e.job = some j → j.layers[(jobPlace e j j.sched.next).layer]? = some f → f.held = some w → j.sched.suspended = true →
      encodeRowWorks s f.buffer w = true → encodeRowNeed w < 2 * encodeRowCap s e j → exec (.encodeRowJob i v) s =
        .next (rowCoded (strayEncodeWrites s f.buffer w.writes).1 i e j (jobPlace e j j.sched.next) f w w.blocks.length)) ∧
  (∀ (s : State) (i : Nat) (w v : EncodeWork) (e : EncodeStream) (j : EncodeFrame) (f : LayerFrame), encodeRowDue s e j = true → s.encodes.get i = some e →
      e.job = some j → j.layers[(jobPlace e j j.sched.next).layer]? = some f → f.held = some w → j.sched.suspended = true →
      encodeRowWorks s f.buffer w = true → 2 * encodeRowCap s e j ≤ encodeRowNeed w → exec (.encodeRowJob i v) s =
        .next (rowCoded (raise (bump (strayEncodeWrites s f.buffer w.writes).1 Reg.ENCODE.ROWS_CUT) Reg.ENCODE.ENCODE_EVENTS_ROW_CUT) i e j
          (jobPlace e j j.sched.next) f w (searchedWithin (2 * encodeRowCap s e j) w.blocks))) ∧
  (∀ (s : State) (i : Nat) (w : EncodeWork) (e : EncodeStream) (j : EncodeFrame) (f : LayerFrame), encodeRowDue s e j = true → s.encodes.get i = some e →
      e.job = some j → j.layers[(jobPlace e j j.sched.next).layer]? = some f → f.held = none → encodeRowWorks s f.buffer w = false →
      exec (.encodeRowJob i w) s = .next (encodeFailure (dropEncode (strayEncodeWrites s f.buffer w.writes).1 i true) e.cluster))

/-- In service, on a Veil in service: COMPOSITE_FRAME_BOUNDARY begins the frame of an ADMITTED-to-run composite once where it is due;
SIGNATURES_COMPUTED gives the list that waits its signatures under the generation in force, and completes the set-layout that waits; a
VEIL_BAND_JOB that is due composes its band into the frame, or after the last one gives the verdict; one that fails or writes where it may
not withholds the frame and is a failure of the Veil; VISOR_FAIL after the third mismatch in a row makes the slate due and counts it. -/
def Obligations.VeilCommandsComplete : Prop :=
  (∀ (s : State) (i : Nat) (c : Composite), s.composites.get i = some c → inService s = true → c.state = .idle ∨ c.state = .running ∨ c.state = .slate →
      inServiceEngine s 2 c.veil = true → frameDue s c.spec.rate c.spec.phase = true → onceDue s (0x400000 + i) = true →
      exec (.compositeFrameBoundary i) s = .next (compositeBoundary (markOnce s (0x400000 + i)) i)) ∧
  (∀ (s : State) (i : Nat) (c : Composite) (l : DisplayList), s.composites.get i = some c → inService s = true →
      inServiceEngine s 2 c.veil = true → c.awaiting = some l → deferredOf s 0x13 i = none →
      exec (.signaturesComputed i c.veil) s =
        .next (updComp s i (fun c => { c with awaiting := none, signed := some (signList s.trust.current l) }))) ∧
  (∀ (s : State) (i : Nat) (w : BandWork) (c : Composite) (j : CompFrame), bandDue s c j = true → s.composites.get i = some c →
      c.job = some j → bandWorks s j w = true → (bandFrame s c j w).sched.next ≠ (bandFrame s c j w).sched.total →
      exec (.veilBandJob i w) s = .next (updComp (bandWritten s c j w) i (fun c' => { c' with job := some (bandFrame s c j w) }))) ∧
  (∀ (s : State) (i : Nat) (w : BandWork) (c : Composite) (j : CompFrame), bandDue s c j = true → s.composites.get i = some c →
      c.job = some j → bandWorks s j w = true → (bandFrame s c j w).sched.next = (bandFrame s c j w).sched.total →
      exec (.veilBandJob i w) s = .next (verdict (bandWritten s c j w) i c (bandFrame s c j w))) ∧
  (∀ (s : State) (i : Nat) (w : BandWork) (c : Composite) (j : CompFrame), bandDue s c j = true → s.composites.get i = some c →
      c.job = some j → bandWorks s j w = false → exec (.veilBandJob i w) s = .next (veilFailure (withhold s i j false) c.veil)) ∧
  (∀ (s : State) (i : Nat) (c : Composite), s.composites.get i = some c → inService s = true → c.state = .running → c.visorRun = 3 → c.slateDue = false →
      exec (.visorFail i) s =
        .next (raise (bump (updComp s i (fun c => { c with slateDue := true })) Reg.VEIL.VISOR_FAILS) Reg.VEIL.VEIL_EVENTS_VISOR_FAIL))

/-- In service: AUDIO_PACKET of an ACTIVE source takes the oldest packet that has arrived into its jitter buffer; JB_RECOMPUTE every 100 ms sets
the target anew; COMFORT_NOISE after CONCEAL_LIMIT concealed frames begins once; MIX_PERIOD, with the samples of every source of its room at
hand, meters them and runs its mix, once a period; CODEC_BATCH_DONE takes the jobs in order and wakes the threads that wait for decoded and
for encoded frames; TALKER_EXPORT_WRITE writes the room's record to the exchange region, at most every 100 ms, where the policy allows the
export and the record has changed. -/
def Obligations.AudioCommandsComplete : Prop :=
  (∀ (s : State) (l : Nat) (p : ArrivedPacket) (rest : List ArrivedPacket) (x : Leg) (a : AudioSource), s.legs.get l = some x →
      s.audio.get l = some a → a.arrived = p :: rest → inService s = true → x.state = .active → a.state = .active →
      exec (.audioPacket l p.seq) s = .next (placePacket s l x.spec.codec { a with arrived := rest } p)) ∧
  (∀ (s u : State) (l : Nat) (x : AudioSource), s.audio.get l = some x → inService s = true → x.state = .active → reachable s (x.lastRecompute + 100000000) = true → u = advanceTo s (x.lastRecompute + 100000000) →
      exec (.jbRecompute l) s =
        .next { u with audio := u.audio.put l { x with jbTarget := jbTargetOf u x, lastRecompute := x.lastRecompute + 100000000 } }) ∧
  (∀ (s : State) (l : Nat) (x : AudioSource), s.audio.get l = some x → inService s = true → x.state = .active → x.noise = false →
      rd s Reg.AUDIO.AUDIO_CONFIG_CONCEAL_LIMIT ≤ x.concealRun → exec (.comfortNoise l) s =
        .next (raise { s with audio := s.audio.put l { x with noise := true, fade := 0 } } Reg.AUDIO.AUDIO_EVENTS_COMFORT_NOISE)) ∧
  (∀ (s : State) (room cluster : Nat) (r : Room), s.rooms.get room = some r → inService s = true → s.mixes.get room = none → s.time.mixCount ≠ 0 →
      s.time.once.get (1000 + room) ≠ some s.time.mixCount → sourcesReady s room s.time.mixCount = true → exec (.mixPeriod room cluster) s =
        .next (meterRoom { s with time := { s.time with once := s.time.once.put (1000 + room) s.time.mixCount } } room s.time.mixCount)) ∧
  (∀ (s : State) (room k i : Nat) (r : Room) (m : Mix) (rest : List (Nat × Nat)), s.rooms.get room = some r → inService s = true →
      s.mixes.get room = some m → m.state = .active → m.periods = (k, i) :: rest → sourcesReady s room k = true →
      exec (.mixPeriod room m.home) s = .next (runMix (meterRoom s room k) room m k i)) ∧
  (∀ (s : State) (cluster : Nat) (f : CodecJob), inService s = true → cluster < 8 → inServiceEngine s 3 cluster = true →
      exec (.codecBatchDone cluster [f]) s = .next (wakeEvent (codecJob s cluster f) cluster (match f with
        | .decoded _ _ => 2
        | .encoded _ _ _ => 3))) ∧
  (∀ (s u : State) (room off : Nat) (m : Mix), s.mixes.get room = some m → m.recordAt = some off → inService s = true → m.recordDirty = true →
      bitOf (exportBits s) 3 = 1 → reachable s (m.recordWritten + 100000000) = true → u = advanceTo s (m.recordWritten + 100000000) → ∃ t, exec (.talkerExportWrite room) s = .next t ∧
        t.mem = (exchangeWrite u off (talkerRecord u m)).mem)

/-- For ADD, SUB, ADDS, SUBS, AND, OR, XOR, SHL, SHR, ASR, MIN, MAX, ABS, MUL, MOV, MAC, MSU, DOT4, VMAC4, ACLR, AEXT, ALD, AADD, DSTEP, DFIX,
MOVC_TO, MOVC_FROM and CMP, as a PAIR with any L slot or as a LONG word: where the lane issues and the word stands at its PC, the fields of
both slots are legal, the access of the L slot lies in the memory the bank may use and the two slots write no register in common, exec
answers the state in which both have written and the program counter has gone on; where a field is illegal or both slots write one register,
the ILLEGAL fault of the thread, where the access is outside, the ACCESS fault. A command whose word is not the one at the PC changes
nothing. NOP writes nothing. -/
def Obligations.ArithmeticWordsComplete : Prop :=
  (∀ p ∈ ([(.add, .add), (.sub, .sub), (.adds, .adds), (.subs, .subs), (.and, .and), (.or, .or), (.xor, .xor),
      (.shl, .shl), (.shr, .shr), (.asr, .asr), (.min, .min), (.max, .max), (.abs, .abs), (.mul, .mul),
      (.mov, .mov), (.mac, .mac), (.msu, .msu), (.dot4, .dot4), (.vmac4, .vmac4), (.aclr, .aclr), (.aext, .aext),
      (.ald, .ald), (.aadd, .aadd), (.dstep, .dstep), (.dfix, .dfix), (.movcTo, .movcTo), (.movcFrom, .movcFrom), (.cmp, .cmp)] : List (AOp × (LaneA → Instr))),
      (∀ (s : State) (w : LaneA) (k : BankId) (t : Nat) (x : Thread), issuing s w.lane = some (k, t, x) →
        nextWord s w.lane = some (AForm.word w.form p.1) → aLegal p.1 (operandsOf w.form) = true → lLegal ((laneOf s w.lane).bank k) (besideOf w.form) = true →
        lReaches k ((laneOf s w.lane).bank k) (besideOf w.form) = true →
        slotsApart ((laneOf s w.lane).bank k) p.1 (operandsOf w.form) (besideOf w.form) = true →
        ∃ a e, aOutcome s w.lane k t x p.1 (operandsOf w.form) = some a ∧ lOutcome s w.lane k (besideOf w.form) = .done e ∧
          exec (p.2 w) s = .next (wordDone s w.lane k a e)) ∧
      (∀ (s : State) (w : LaneA) (k : BankId) (t : Nat) (x : Thread), issuing s w.lane = some (k, t, x) →
        nextWord s w.lane = some (AForm.word w.form p.1) →
        aLegal p.1 (operandsOf w.form) = false ∨ lLegal ((laneOf s w.lane).bank k) (besideOf w.form) = false ∨
          (lReaches k ((laneOf s w.lane).bank k) (besideOf w.form) = true ∧
            slotsApart ((laneOf s w.lane).bank k) p.1 (operandsOf w.form) (besideOf w.form) = false) →
        exec (p.2 w) s = .next (threadFault s w.lane k 1)) ∧
      (∀ (s : State) (w : LaneA) (k : BankId) (t : Nat) (x : Thread), issuing s w.lane = some (k, t, x) →
        nextWord s w.lane = some (AForm.word w.form p.1) → aLegal p.1 (operandsOf w.form) = true → lLegal ((laneOf s w.lane).bank k) (besideOf w.form) = true →
        lReaches k ((laneOf s w.lane).bank k) (besideOf w.form) = false → exec (p.2 w) s = .next (threadFault s w.lane k 2)) ∧
      (∀ (s : State) (w : LaneA) (v : MWord), nextWord s w.lane = some v → v ≠ AForm.word w.form p.1 → exec (p.2 w) s = .next s) ∧
      (∀ (s : State) (w : LaneA), issuing s w.lane = none → exec (p.2 w) s = .next s)) ∧
  (∀ (s : State) (l : Nat) (k : BankId) (t : Nat) (x : Thread), issuing s l = some (k, t, x) → nextWord s l = some (.pair .idle .nop) →
      exec (.nop l) s = .next (wordDone s l k .none .none))

/-- For LD8S, LD16S, LD32, LD64, LDQ, ST8, ST16, ST32, ST64, STQ, PSET, PGET and LDXY with any A slot beside: where the lane issues and the word
stands at its PC, the fields of both slots are legal, the access stays in the memory its bank may use and the slots write no register in
common, exec answers the state in which both slots have written; an access beyond that memory, into the privileged reserve from a normal
bank, or of an unaligned quad is the ACCESS fault of the thread, and an illegal field its ILLEGAL fault. -/
def Obligations.MemoryWordsComplete : Prop :=
  (∀ p ∈ ([(.ld8s, .ld8s), (.ld16s, .ld16s), (.ld32, .ld32), (.ld64, .ld64), (.ldq, .ldq), (.st8, .st8),
      (.st16, .st16), (.st32, .st32), (.st64, .st64), (.stq, .stq), (.pset, .pset), (.pget, .pget)] : List (LOp × (LaneL → Instr))),
      (∀ (s : State) (w : LaneL) (k : BankId) (t : Nat) (x : Thread), issuing s w.lane = some (k, t, x) →
        nextWord s w.lane = some (.pair w.beside (.mem p.1 w.x)) → aLegal w.beside.op w.beside.x.toIn = true →
        lLegal ((laneOf s w.lane).bank k) (.mem p.1 w.x) = true → lReaches k ((laneOf s w.lane).bank k) (.mem p.1 w.x) = true →
        slotsApart ((laneOf s w.lane).bank k) w.beside.op w.beside.x.toIn (.mem p.1 w.x) = true →
        ∃ a e, aOutcome s w.lane k t x w.beside.op w.beside.x.toIn = some a ∧ lOutcome s w.lane k (.mem p.1 w.x) = .done e ∧
          exec (p.2 w) s = .next (wordDone s w.lane k a e)) ∧
      (∀ (s : State) (w : LaneL) (k : BankId) (t : Nat) (x : Thread), issuing s w.lane = some (k, t, x) →
        nextWord s w.lane = some (.pair w.beside (.mem p.1 w.x)) → aLegal w.beside.op w.beside.x.toIn = true →
        lLegal ((laneOf s w.lane).bank k) (.mem p.1 w.x) = true → lReaches k ((laneOf s w.lane).bank k) (.mem p.1 w.x) = false →
        exec (p.2 w) s = .next (threadFault s w.lane k 2)) ∧
      (∀ (s : State) (w : LaneL) (k : BankId) (t : Nat) (x : Thread), issuing s w.lane = some (k, t, x) →
        nextWord s w.lane = some (.pair w.beside (.mem p.1 w.x)) →
        aLegal w.beside.op w.beside.x.toIn = false ∨ lLegal ((laneOf s w.lane).bank k) (.mem p.1 w.x) = false →
        exec (p.2 w) s = .next (threadFault s w.lane k 1))) ∧
  (∀ (s : State) (l : Nat) (q : XYArgs) (beside : ASlot) (k : BankId) (t : Nat) (x : Thread), issuing s l = some (k, t, x) →
      nextWord s l = some (.pair beside (.ldxy q)) → aLegal beside.op beside.x.toIn = true → lLegal ((laneOf s l).bank k) (.ldxy q) = true →
      lReaches k ((laneOf s l).bank k) (.ldxy q) = true → slotsApart ((laneOf s l).bank k) beside.op beside.x.toIn (.ldxy q) = true →
      ∃ a e, aOutcome s l k t x beside.op beside.x.toIn = some a ∧ lOutcome s l k (.ldxy q) = .done e ∧
        exec (.ldxy l q beside) s = .next (wordDone s l k a e)) ∧
  (∀ (s : State) (l : Nat) (q : XYArgs) (beside : ASlot) (k : BankId) (t : Nat) (x : Thread), issuing s l = some (k, t, x) →
      nextWord s l = some (.pair beside (.ldxy q)) → aLegal beside.op beside.x.toIn = true → lLegal ((laneOf s l).bank k) (.ldxy q) = true →
      lReaches k ((laneOf s l).bank k) (.ldxy q) = false → exec (.ldxy l q beside) s = .next (threadFault s l k 2))

/-- Where the lane issues and the word stands at its PC: BR and CALL whose condition holds go to their target within the code in 3 cycles, CALL
leaving the address of the next word in LINK; where it does not hold the next word follows; RET goes to LINK; a legal LOOP opens its level;
WAIT, with no transfer outstanding, gives the lane up, and otherwise fences first; SIGNAL sends its event to a cluster; SPAWN leaves the
index of the new thread, or all ones, in a register; FETCH and PUT of aligned addresses queue a transfer, and a ninth stalls with nothing
changed; FENCE waits for the transfers of the bank. A lane whose word spells none takes the ILLEGAL fault. -/
def Obligations.ControlWordsComplete : Prop :=
  (∀ (s : State) (l cond : Nat) (off : Int) (k : BankId) (t : Nat) (x : Thread), issuing s l = some (k, t, x) →
      nextWord s l = some (.control (.br cond off)) → condHolds ((laneOf s l).bank k) cond = some true → 0 ≤ branchAddress ((laneOf s l).bank k) off →
      branchAddress ((laneOf s l).bank k) off < (codeLength s x : Int) →
      exec (.br l cond off) s = .next (controlDone s l k (((laneOf s l).bank k).branch (branchAddress ((laneOf s l).bank k) off).toNat) 3)) ∧
  (∀ (s : State) (l cond : Nat) (off : Int) (k : BankId) (t : Nat) (x : Thread), issuing s l = some (k, t, x) →
      nextWord s l = some (.control (.br cond off)) → condHolds ((laneOf s l).bank k) cond = some false → exec (.br l cond off) s = .next
        (controlDone s l k ((laneOf s l).bank k).advance 1)) ∧
  (∀ (s : State) (l cond : Nat) (off : Int) (k : BankId) (t : Nat) (x : Thread), issuing s l = some (k, t, x) →
      nextWord s l = some (.control (.call cond off)) → condHolds ((laneOf s l).bank k) cond = some true → 0 ≤ branchAddress ((laneOf s l).bank k) off →
      branchAddress ((laneOf s l).bank k) off < (codeLength s x : Int) → exec (.call l cond off) s = .next
        (controlDone s l k ({ (laneOf s l).bank k with link := ((laneOf s l).bank k).pc + 8 }.branch (branchAddress ((laneOf s l).bank k) off).toNat) 3)) ∧
  (∀ (s : State) (l : Nat) (k : BankId) (t : Nat) (x : Thread), issuing s l = some (k, t, x) → nextWord s l = some (.control .ret) →
      ((laneOf s l).bank k).link % 8 = 0 → ((laneOf s l).bank k).link < codeLength s x →
      exec (.ret l) s = .next (controlDone s l k (((laneOf s l).bank k).branch ((laneOf s l).bank k).link) 3)) ∧
  (∀ (s : State) (l level count body : Nat) (rotate : Bool) (k : BankId) (t : Nat) (x : Thread), issuing s l = some (k, t, x) →
      nextWord s l = some (.control (.loop level rotate false count body)) →
      loopLegal ((laneOf s l).bank k) (codeLength s x) level rotate count body = true →
      ∃ b, loopWord ((laneOf s l).bank k) (codeLength s x) level rotate count body = some b ∧
        exec (.loop l level rotate false count body) s = .next (controlDone s l k b 1)) ∧
  (∀ (s : State) (l level r body : Nat) (rotate : Bool) (k : BankId) (t : Nat) (x : Thread), issuing s l = some (k, t, x) →
      nextWord s l = some (.control (.loop level rotate true r body)) →
      loopLegal ((laneOf s l).bank k) (codeLength s x) level rotate (((laneOf s l).bank k).dreg r).toNat body = true →
      ∃ b, loopWord ((laneOf s l).bank k) (codeLength s x) level rotate (((laneOf s l).bank k).dreg r).toNat body = some b ∧
        exec (.loop l level rotate true r body) s = .next (controlDone s l k b 1)) ∧
  (∀ (s : State) (l mode value : Nat) (k : BankId) (t : Nat) (x : Thread), issuing s l = some (k, t, x) →
      nextWord s l = some (.control (.wait mode value)) → (mode = 2 → value ≤ 63) → ((laneOf s l).bank k).transfers = [] → exec (.wait l mode value) s =
        .next (doWait (controlDone s l k ((laneOf s l).bank k) 1) l k mode value)) ∧
  (∀ (s : State) (l mode value : Nat) (k : BankId) (t : Nat) (x : Thread), issuing s l = some (k, t, x) →
      nextWord s l = some (.control (.wait mode value)) → (mode = 2 → value ≤ 63) → ((laneOf s l).bank k).transfers ≠ [] → exec (.wait l mode value) s =
        .next (controlDone s l k { (laneOf s l).bank k with fenced := true, waitNext := some (mode, value) } 1)) ∧
  (∀ (s : State) (l cluster ev : Nat) (k : BankId) (t : Nat) (x : Thread), issuing s l = some (k, t, x) →
      nextWord s l = some (.control (.signal cluster ev)) →
      16 ≤ ev → exec (.signal l cluster ev) s = .next (signalEvent (controlDone s l k ((laneOf s l).bank k).advance 1) cluster ev)) ∧
  (∀ (s : State) (l cluster ev : Nat) (k : BankId) (t : Nat) (x : Thread), issuing s l = some (k, t, x) →
      nextWord s l = some (.control (.signal cluster ev)) → ev < 16 → exec (.signal l cluster ev) s = .next (threadFault s l k 1)) ∧
  (∀ (s : State) (l entry arg result : Nat) (k : BankId) (t : Nat) (x : Thread), issuing s l = some (k, t, x) →
      nextWord s l = some (.control (.spawn entry arg result)) → exec (.spawn l entry arg result) s =
        .next (schedule (controlDone
          (spawnThread s x (((laneOf s l).bank k).dreg entry).toNat (((laneOf s l).bank k).dreg arg).toNat).1 l k ({ (laneOf s l).bank k with
          d := updateAt ((laneOf s l).bank k).d (physReg ((laneOf s l).bank k).rot result) (fun _ => BitVec.ofNat 32
            (spawnThread s x (((laneOf s l).bank k).dreg entry).toNat (((laneOf s l).bank k).dreg arg).toNat).2) }).advance 1) x.cluster)) ∧
  (∀ (s : State) (l r pair words : Nat) (k : BankId) (t : Nat) (x : Thread), issuing s l = some (k, t, x) →
      nextWord s l = some (.control (.fetch r pair words)) → pair % 2 = 0 → transferFits k ((laneOf s l).bank k) r pair words = true →
      ((laneOf s l).bank k).transfers.length < 8 → exec (.fetch l r pair words) s =
        .next (controlDone s l k ({ (laneOf s l).bank k with
          transfers := ((laneOf s l).bank k).transfers ++ [transferOf ((laneOf s l).bank k) false r pair words] }).advance 1)) ∧
  (∀ (s : State) (l r pair words : Nat) (k : BankId) (t : Nat) (x : Thread), issuing s l = some (k, t, x) →
      nextWord s l = some (.control (.put r pair words)) → pair % 2 = 0 → transferFits k ((laneOf s l).bank k) r pair words = true →
      ((laneOf s l).bank k).transfers.length < 8 → exec (.put l r pair words) s =
        .next (controlDone s l k ({ (laneOf s l).bank k with
          transfers := ((laneOf s l).bank k).transfers ++ [transferOf ((laneOf s l).bank k) true r pair words] }).advance 1)) ∧
  (∀ (s : State) (l r pair words : Nat) (k : BankId) (t : Nat) (x : Thread), issuing s l = some (k, t, x) →
      nextWord s l = some (.control (.put r pair words)) → pair % 2 = 0 → transferFits k ((laneOf s l).bank k) r pair words = true →
      8 ≤ ((laneOf s l).bank k).transfers.length → exec (.put l r pair words) s = .next s) ∧
  (∀ (s : State) (l : Nat) (k : BankId) (t : Nat) (x : Thread), issuing s l = some (k, t, x) → nextWord s l = some (.control .fence) →
      exec (.fence l) s = .next (controlDone s l k ({ (laneOf s l).bank k with fenced := !((laneOf s l).bank k).transfers.isEmpty }).advance 1)) ∧
  (∀ (s : State) (l : Nat) (k : BankId) (t : Nat) (x : Thread), issuing s l = some (k, t, x) → nextWord s l = none →
      exec (.fence l) s = .next (threadFault s l k 1) ∧ exec (.nop l) s = .next (threadFault s l k 1))

/-- For every bank, operands and words x in SRC1 and y in SRC2 of a PAIR: ADD writes x + y, SUB x - y, AND, OR and XOR their bitwise results,
MUL the low 32 bits of the product, MOV x, SHL, SHR and ASR for y below 32 the shifted x, MIN and MAX the signed extreme, ABS of any x but
the most negative its absolute value, and no other register. ADDS and SUBS saturate. Z and N are those of the result; C of ADD is its carry
and V of ADD and SUB its signed overflow. An accumulation holds a value of 72 bits (40 or 32 as SATW says), equal to the exact sum where
that fits, and AOV tells whether it did not. (Other carries and overflows, shifts of 32 and beyond and ABS of the most negative number are
free values: assumption log.) -/
def Obligations.ArithmeticResults : Prop :=
  (∀ (b : Bank) (ctl : Nat → Nat) (i : AIn), i.imm = none →
      ∀ p ∈ ([(.add, fun x y => x + y), (.sub, fun x y => x - y), (.and, fun x y => x &&& y), (.or, fun x y => x ||| y), (.xor, fun x y => x ^^^ y),
        (.mul, fun x y => x * y), (.mov, fun x _ => x), (.min, fun x y => if x.slt y then x else y), (.max, fun x y => if x.slt y then y else x)] :
          List (AOp × (Word → Word → Word))),
      ∃ e, aSlot b ctl p.1 i = some e ∧ e.d = [(physReg b.rot i.dst, p.2 (b.dreg i.src1) (b.dreg i.src2))] ∧ e.a = [] ∧ e.ctl = none ∧ e.dq = none) ∧
  (∀ x y : Word, y.toNat < 32 → alu .shl x y = x <<< y.toNat ∧ alu .shr x y = x >>> y.toNat ∧ (alu .asr x y).toInt = x.toInt / 2 ^ y.toNat) ∧
  (∀ x y : Word, -(2 ^ 31 : Int) ≤ x.toInt + y.toInt → x.toInt + y.toInt < 2 ^ 31 → (alu .adds x y).toInt = x.toInt + y.toInt) ∧
  (∀ x y : Word, (2 ^ 31 : Int) ≤ x.toInt + y.toInt → (alu .adds x y).toInt = 2 ^ 31 - 1) ∧
  (∀ x y : Word, x.toInt - y.toInt < -(2 ^ 31 : Int) → (alu .subs x y).toInt = -(2 ^ 31)) ∧
  (∀ x : Word, x.toInt ≠ -(2 ^ 31 : Int) → (alu .abs x 0).toInt = |x.toInt|) ∧
  (∀ (op : AOp) (x y r : Word), ((aluFlags op x y r).1 = true ↔ r = 0) ∧ ((aluFlags op x y r).2.1 = true ↔ r.toInt < 0)) ∧
  (∀ x y : Word, (carryFlag .add x y = true ↔ (x + y).toNat ≠ x.toNat + y.toNat) ∧ (overflowFlag .add x y = true ↔ (x + y).toInt ≠ x.toInt + y.toInt) ∧
      (overflowFlag .sub x y = true ↔ (x - y).toInt ≠ x.toInt - y.toInt)) ∧
  (∀ (w : Nat) (v : Int), -(2 ^ 71 : Int) ≤ (accumulate w v).1 ∧ (accumulate w v).1 < 2 ^ 71) ∧
  (∀ v : Int, -(2 ^ 39 : Int) ≤ (accumulate 1 v).1 ∧ (accumulate 1 v).1 < 2 ^ 39 ∧ -(2 ^ 31 : Int) ≤ (accumulate 2 v).1 ∧ (accumulate 2 v).1 < 2 ^ 31) ∧
  (∀ v : Int, (accumulate 0 v).2 = false ↔ (accumulate 0 v).1 = v)

/-- For every n up to 32, every dividend x below 2^n and every divisor d of 32 bits: with the remainder cleared, DQ set and the dividend shifted
left by 32 - n, n steps of DSTEP leave the quotient x / d in bits n-1 to 0 of the accumulator, and DFIX then leaves the remainder x mod d in
bits 71 to 32 and the quotient where it was. A divisor of zero leaves a quotient of all ones. One step acts as the pseudocode says: the
remainder is shifted with bit 31 of the low word, d is subtracted with DQ set and added with it clear, and DQ and bit 0 tell whether the
remainder is not negative. DSTEP and DFIX of an accumulator and a divisor register write exactly these, and raise no fault. -/
def Obligations.DivisionGivesQuotientAndRemainder : Prop :=
  (∀ n x d : Nat, n ≤ 32 → x < 2 ^ n → 0 < d → d < 2 ^ 32 →
      divSteps n d ((x * 2 ^ (32 - n) : Nat) : Int) true % 2 ^ n = ((x / d : Nat) : Int) ∧
      divFix (divSteps n d ((x * 2 ^ (32 - n) : Nat) : Int) true) d / 2 ^ 32 = ((x % d : Nat) : Int) ∧
      divFix (divSteps n d ((x * 2 ^ (32 - n) : Nat) : Int) true) d % 2 ^ n = ((x / d : Nat) : Int)) ∧
  (∀ n x : Nat, n ≤ 32 → x < 2 ^ n → divSteps n 0 ((x * 2 ^ (32 - n) : Nat) : Int) true % 2 ^ n = 2 ^ n - 1) ∧
  (∀ (rem : Int) (low d : Nat) (dq : Bool), -(2 ^ 34 : Int) ≤ rem → rem < 2 ^ 34 → low < 2 ^ 32 → d < 2 ^ 32 →
      (divStep (rem * 2 ^ 32 + low) d dq).1 / 2 ^ 32 = 2 * rem + ((low / 2 ^ 31 : Nat) : Int) + (if dq then -(d : Int) else d) ∧
      ((divStep (rem * 2 ^ 32 + low) d dq).2 = true ↔ 0 ≤ 2 * rem + ((low / 2 ^ 31 : Nat) : Int) + (if dq then -(d : Int) else d)) ∧
      (divStep (rem * 2 ^ 32 + low) d dq).1 % 2 ^ 32 = ((low * 2 % 2 ^ 32 : Nat) : Int) + (if (divStep (rem * 2 ^ 32 + low) d dq).2 then 1 else 0)) ∧
  (∀ (b : Bank) (ctl : Nat → Nat) (i : AIn), i.dst < 8 →
      aSlot b ctl .dstep i = some { AEffect.none with
        a := [(i.dst, (divStep (b.acc i.dst) (aInSingle i b).toNat b.dq).1)], dq := some (divStep (b.acc i.dst) (aInSingle i b).toNat b.dq).2 } ∧
      aSlot b ctl .dfix i = some { AEffect.none with a := [(i.dst, divFix (b.acc i.dst) (aInSingle i b).toNat)] })

/-- For every state in which a lane issues a LOOP: one at a level already active, a level-1 LOOP while level 0 is active, and a LOOP with ROTATE
while the other level rotates are each the ILLEGAL fault of the thread, whatever their count and body. A branch whose target lies outside
the body of an active level leaves that level inactive, and level 0 as well where it leaves level 1; a branch within both bodies leaves both
counts as they were. -/
def Obligations.IllegalLoopsAndBranchesOut : Prop :=
  (∀ (s : State) (l level : Nat) (rotate isReg : Bool) (count body : Nat) (k : BankId) (t : Nat) (x : Thread), issuing s l = some (k, t, x) →
      nextWord s l = some (.control (.loop level rotate isReg count body)) →
      (level = 0 ∧ ((laneOf s l).bank k).lc0 ≠ 0) ∨ (level = 1 ∧ ((laneOf s l).bank k).lc1 ≠ 0) ∨ (level = 1 ∧ ((laneOf s l).bank k).lc0 ≠ 0) ∨
        (rotate = true ∧ level = 0 ∧ ((laneOf s l).bank k).lc1 ≠ 0 ∧ ((laneOf s l).bank k).rot1 = true) ∨
        (rotate = true ∧ level = 1 ∧ ((laneOf s l).bank k).lc0 ≠ 0 ∧ ((laneOf s l).bank k).rot0 = true) →
      exec (.loop l level rotate isReg count body) s = .next (threadFault s l k 1)) ∧
  (∀ (b : Bank) (target : Nat), (target < b.ls1 ∨ b.le1 < target) → b.lc1 ≠ 0 → (b.branch target).lc1 = 0 ∧ (b.branch target).lc0 = 0) ∧
  (∀ (b : Bank) (target : Nat), (target < b.ls0 ∨ b.le0 < target) → (b.branch target).lc0 = 0) ∧
  (∀ (b : Bank) (target : Nat), b.ls0 ≤ target → target ≤ b.le0 → b.ls1 ≤ target → target ≤ b.le1 →
      (b.branch target).lc0 = b.lc0 ∧ (b.branch target).lc1 = b.lc1 ∧ (b.branch target).pc = target)

/-- For every bank and a legal LOOP with a count above zero and its end within the code: LC is the count, LS the next word, LE the last word of
the body, and the program counter LS; a count of zero goes past the body and leaves both levels inactive. When the word at LE completes with
LC above 1, LC falls by one and LS is next, with ROT raised modulo 16 where the level rotates; with LC 1 the level ends and the word after
it is next. (Level 1 with level 0 inactive, and level 0 whose end is not level 1's.) -/
def Obligations.LoopsRunTheirCount : Prop :=
  (∀ (b : Bank) (len : Nat) (rotate : Bool) (count body : Nat), b.lc0 = 0 → b.lc1 = 0 → 0 < count → count ≤ 65535 → b.pc + 8 * body < len →
      loopWord b len 1 rotate count body = some { b with lc1 := count, ls1 := b.pc + 8, le1 := b.pc + 8 * body, rot1 := rotate, pc := b.pc + 8 } ∧
      loopWord b len 0 rotate count body = some { b with lc0 := count, ls0 := b.pc + 8, le0 := b.pc + 8 * body, rot0 := rotate, pc := b.pc + 8 }) ∧
  (∀ (b : Bank) (len level : Nat) (rotate : Bool) (body : Nat), b.lc0 = 0 → b.lc1 = 0 → b.pc + 8 * body < len →
      ∃ c, loopWord b len level rotate 0 body = some c ∧ c.pc = b.pc + 8 * body + 8 ∧ c.lc0 = 0 ∧ c.lc1 = 0) ∧
  (∀ b : Bank, b.lc0 = 0 → b.pc = b.le1 → 1 < b.lc1 →
      b.advance = { b with lc1 := b.lc1 - 1, pc := b.ls1, rot := if b.rot1 then (b.rot + 1) % 16 else b.rot }) ∧
  (∀ b : Bank, b.lc0 = 0 → b.pc = b.le1 → b.lc1 = 1 →
      b.advance = { b with lc1 := 0, pc := b.pc + 8, rot := if b.rot1 then (b.rot + 1) % 16 else b.rot }) ∧
  (∀ b : Bank, b.pc = b.le0 → 1 < b.lc0 → b.advance = { b with lc0 := b.lc0 - 1, pc := b.ls0, rot := if b.rot0 then (b.rot + 1) % 16 else b.rot }) ∧
  (∀ b : Bank, (b.lc0 = 0 ∨ b.pc ≠ b.le0) → (b.lc1 = 0 ∨ b.pc ≠ b.le1) → b.advance = { b with pc := b.pc + 8 })

/-- For every state and lane, and whatever the two slots of a word write (ALL A-slot and L-slot commands): every other lane is untouched; in the
lane, every other bank, its threads and its last busy count are untouched; in the bank, every data register that neither slot names, every
accumulator, pointer, step, base and length register that the slots do not name keeps its value, and so do the flags where the A slot sets
none; every byte of local memory outside the bytes stored reads as before. Outside the lanes nothing of the device changes. -/
def Obligations.LaneWordsTouchOnlyTheirOwn : Prop :=
  (∀ (s : State) (l m : Nat) (k : BankId) (a : AEffect) (e : LEffect), m ≠ l → laneOf (wordDone s l k a e) m = laneOf s m) ∧
  (∀ (s : State) (l : Nat) (k : BankId) (a : AEffect) (e : LEffect), { wordDone s l k a e with mitten := s.mitten } = s ∧
      (wordDone s l k a e).mitten.threads = s.mitten.threads ∧ (laneOf (wordDone s l k a e) l).thread = (laneOf s l).thread ∧
      (laneOf (wordDone s l k a e) l).active = (laneOf s l).active) ∧
  (∀ (s : State) (l : Nat) (k j : BankId) (a : AEffect) (e : LEffect), j ≠ k → (laneOf (wordDone s l k a e) l).bank j = (laneOf s l).bank j) ∧
  (∀ (s : State) (l r : Nat) (k : BankId) (a : AEffect) (e : LEffect), (∀ w ∈ a.d, w.1 ≠ r) → (∀ w ∈ e.d, w.1 ≠ r) →
      ((laneOf (wordDone s l k a e) l).bank k).d[r]? = ((laneOf s l).bank k).d[r]?) ∧
  (∀ (s : State) (l r : Nat) (k : BankId) (a : AEffect) (e : LEffect), (∀ w ∈ a.a, w.1 ≠ r) →
      ((laneOf (wordDone s l k a e) l).bank k).a[r]? = ((laneOf s l).bank k).a[r]?) ∧
  (∀ (s : State) (l r : Nat) (k : BankId) (a : AEffect) (e : LEffect), (∀ w ∈ e.p, w.1 ≠ r) →
      ((laneOf (wordDone s l k a e) l).bank k).p[r]? = ((laneOf s l).bank k).p[r]?) ∧
  (∀ (s : State) (l : Nat) (k : BankId) (a : AEffect) (e : LEffect), a.flags = none → a.ctl = none →
      ((laneOf (wordDone s l k a e) l).bank k).z = ((laneOf s l).bank k).z ∧ ((laneOf (wordDone s l k a e) l).bank k).n = ((laneOf s l).bank k).n ∧
      ((laneOf (wordDone s l k a e) l).bank k).c = ((laneOf s l).bank k).c ∧ ((laneOf (wordDone s l k a e) l).bank k).v = ((laneOf s l).bank k).v) ∧
  (∀ (s : State) (l y : Nat) (k : BankId) (a : AEffect) (e : LEffect), (∀ w ∈ e.mem, y < w.1 ∨ w.1 + w.2.length ≤ y) →
      memByte (laneOf (wordDone s l k a e) l).mem y = memByte (laneOf s l).mem y)

/-- For ST8, ST16, ST32, ST64 and STQ: in a lane whose memory is in canonical form (InternalMemoryStaysCanonical keeps it so), where the access
is legal, the word stores exactly at pointer + OFFSET as many bytes as its width, those of the register (pair or quad) in little-endian
order, and writes no register but the pointer that UPD changes; reading them back gives them, and every other byte of local memory reads as
before. For LD8S, LD16S, LD32, LD64, LDQ, PSET and PGET no byte of memory is stored at all. -/
def Obligations.StoresWriteTheirBytesOnly : Prop :=
  (∀ op ∈ ([.st8, .st16, .st32, .st64, .stq] : List LOp), ∀ (s : State) (l : Nat) (k : BankId) (q : LArgs) (p : Nat) (a : AEffect) (e : LEffect),
      Memory.wf (laneOf s l).mem = true → ((laneOf s l).bank k).nextPtr q.ptr q.upd = some p → lOutcome s l k (.mem op q) = .done e →
      e.mem = [(((laneOf s l).bank k).address q.ptr q.offset, storeBytes ((laneOf s l).bank k) op q.reg)] ∧ e.d = [] ∧
      (storeBytes ((laneOf s l).bank k) op q.reg).length = op.size ∧
      memRead (laneOf (wordDone s l k a e) l).mem (((laneOf s l).bank k).address q.ptr q.offset) op.size = storeBytes ((laneOf s l).bank k) op q.reg ∧
      ∀ y, y < ((laneOf s l).bank k).address q.ptr q.offset ∨ ((laneOf s l).bank k).address q.ptr q.offset + op.size ≤ y →
        memByte (laneOf (wordDone s l k a e) l).mem y = memByte (laneOf s l).mem y) ∧
  (∀ op ∈ ([.ld8s, .ld16s, .ld32, .ld64, .ldq, .pset, .pget] : List LOp), ∀ (s : State) (l : Nat) (k : BankId) (q : LArgs) (a : AEffect) (e : LEffect),
      lOutcome s l k (.mem op q) = .done e → e.mem = [] ∧ (laneOf (wordDone s l k a e) l).mem = (laneOf s l).mem) ∧
  (∀ (k : BankId) (b : Bank) (m : List Host.Cell) (q : LArgs) (e : LEffect), lSlot k b m (.mem .ld32 q) = .done e →
      e.d = [(physReg b.rot q.reg, localWord m (b.address q.ptr q.offset))])

/-- In service: TRANSFER_DONE of the oldest transfer of a bank moves its data, unless the response is an error or the Crown refuses a word of it
(a window that the port is denied, an unmapped address, a port that is off): then the thread faults with ADDR, and the refusal is counted
and logged as the Crown gives it. PREEMPT dispatches a READY privileged thread on the lane where a normal one runs; AFFINITY_EXPIRY after 2
us lets any lane of the cluster take a READY thread; RUNAWAY stops a thread that has run for the limit of MITTEN_CONFIG with a fault of its
own. -/
def Obligations.HatstandEventsComplete : Prop :=
  (∀ (s : State) (l bank t : Nat) (r : TransferResult) (x : Transfer) (xs : List Transfer), ((laneOf s l).bank (bankOfNumber bank)).transfers = x :: xs →
      (laneOf s l).threadIn (bankOfNumber bank) = some t → inService s = true → r.error = false →
      (rangeReply s (enginePort 3 (l / 8)) x.address (64 * x.words)).isNone = true →
      exec (.transferDone l bank r) s = .next (endTransfer s l (bankOfNumber bank) x r)) ∧
  (∀ (s : State) (l bank t : Nat) (r : TransferResult) (x : Transfer) (xs : List Transfer), ((laneOf s l).bank (bankOfNumber bank)).transfers = x :: xs →
      (laneOf s l).threadIn (bankOfNumber bank) = some t → inService s = true → r.error = false →
      (rangeReply s (enginePort 3 (l / 8)) x.address (64 * x.words)).isSome = true →
      ∃ a e, rangeReply s (enginePort 3 (l / 8)) x.address (64 * x.words) = some (a, e) ∧ e ≠ .pass ∧ x.address ≤ a ∧ a < x.address + 64 * x.words ∧
        exec (.transferDone l bank r) s = .next (threadFault (answerCrown s (enginePort 3 (l / 8)) a e) l (bankOfNumber bank) 3)) ∧
  (∀ (s : State) (l bank t : Nat) (r : TransferResult) (x : Transfer) (xs : List Transfer), ((laneOf s l).bank (bankOfNumber bank)).transfers = x :: xs →
      (laneOf s l).threadIn (bankOfNumber bank) = some t → inService s = true → r.error = true →
      exec (.transferDone l bank r) s = .next (threadFault s l (bankOfNumber bank) 3)) ∧
  (∀ (s : State) (t : Nat) (x y : Thread), threadOf s t = some x → inService s = true → x.privileged = true → x.state = .ready →
      (laneOf s (8 * x.cluster + x.lane)).active = some .normal → readyPrivOf s (8 * x.cluster + x.lane) = some t → threadOf (adopt s t) t = some y →
      exec (.preempt t) s = .next (dispatchPriv (bump (adopt s t) Reg.MITTEN.PREEMPTIONS) (8 * x.cluster + x.lane) t y)) ∧
  (∀ (s u : State) (t : Nat) (x : Thread), threadOf s t = some x → inService s = true → x.state = .ready → x.affinity = true →
      reachable s (x.readyAt / Config.fracUnit + 2000) = true → u = advanceTo s (x.readyAt / Config.fracUnit + 2000) → exec (.affinityExpiry t) s =
        .next (schedule (updThread u t (fun y => { y with affinity := false })) x.cluster)) ∧
  (∀ (s : State) (l t : Nat), (laneOf s l).active = some .normal → inService s = true → rd s Reg.MITTEN.MITTEN_CONFIG ≤ (laneOf s l).run →
      (laneOf s l).threadIn .normal = some t → exec (.runaway l) s = .next (threadFault s l .normal 4)) ∧
  (∀ (s : State) (l t : Nat) (k : BankId), (laneOf s l).active = some k → k ≠ .normal → inService s = true →
      rd s Reg.MITTEN.MITTEN_CONFIG ≤ (laneOf s l).runPriv → (laneOf s l).threadIn k = some t → exec (.runaway l) s = .next (threadFault s l k 4))

/-- GAUNTLET_FRAME_RX in service takes the oldest frame that has arrived for a tunnel: a frame of an ACTIVE tunnel with a good header, a known
epoch and a sequence that the window admits is submitted to the cipher clusters; a bad header, a tunnel that is not active, an unknown
epoch, a replayed sequence and one below the window are each rejected under their own counter, in this order. TUNNEL_FRAME_SLOT sends the
first built frame once it is sealed and its slot is reached; OLD_EPOCH_EXPIRY releases the old key that is free and, where none is held
back, ends there; TUNNEL_DOWN takes a tunnel that is up down at the 65th boundary without a valid frame, counts it and raises TUNNEL_DOWN. -/
def Obligations.TunnelCommandsComplete : Prop :=
  (∀ (s u : State) (a : TunnelArrival) (rest : List TunnelArrival) (x : Tunnel), s.gauntlet.arrivals = a :: rest → inService s = true →
      { s with gauntlet := { s.gauntlet with arrivals := rest } } = u → u.gauntlet.tunnels.get a.tunnel = some x →
      (headerFits a x = false → exec (.gauntletFrameRx a.port a.stamp a.frame) s = .next (rejectFrame u a.tunnel Reg.GAUNTLET.HEADER_BAD)) ∧
      (headerFits a x = true → x.state ≠ .active → exec (.gauntletFrameRx a.port a.stamp a.frame) s = .next (rejectFrame u a.tunnel Reg.GAUNTLET.NOT_ACTIVE)) ∧
      (headerFits a x = true → x.state = .active → epochOk u x (readTunnelHeader a.frame).epoch = false →
        exec (.gauntletFrameRx a.port a.stamp a.frame) s = .next (rejectFrame u a.tunnel Reg.GAUNTLET.EPOCH_UNKNOWN)) ∧
      (headerFits a x = true → x.state = .active → epochOk u x (readTunnelHeader a.frame).epoch = true →
        (windowCheck x (readTunnelHeader a.frame).sequence = 0 → exec (.gauntletFrameRx a.port a.stamp a.frame) s = .next (withCipher u (fun c => { c with submitted := c.submitted
          ++ [.gauntletIn a.tunnel (readTunnelHeader a.frame).epoch (readTunnelHeader a.frame).sequence (readTunnelHeader a.frame).up a.stamp a.boundary
            a.port a.generation a.frame] }))) ∧
        (windowCheck x (readTunnelHeader a.frame).sequence = 1 → exec (.gauntletFrameRx a.port a.stamp a.frame) s = .next (rejectFrame u a.tunnel Reg.GAUNTLET.REPLAYED)) ∧
        (windowCheck x (readTunnelHeader a.frame).sequence = 2 → exec (.gauntletFrameRx a.port a.stamp a.frame) s = .next (rejectFrame u a.tunnel Reg.GAUNTLET.REPLAY_OLD)))) ∧
  (∀ (s : State) (a : TunnelArrival) (rest : List TunnelArrival), s.gauntlet.arrivals = a :: rest → inService s = true →
      s.gauntlet.tunnels.get a.tunnel = none → exec (.gauntletFrameRx a.port a.stamp a.frame) s = .next { s with gauntlet := { s.gauntlet with arrivals := rest } }) ∧
  (∀ (s u : State) (t : Nat) (x : Tunnel) (b : BuiltFrame) (bs : List BuiltFrame), s.gauntlet.tunnels.get t = some x → x.built = b :: bs →
      inService s = true → b.sealed_ = true → reachable s b.slot = true → u = advanceTo s b.slot → exec (.tunnelFrameSlot t) s = .next (sendTunnelFrame u t x b)) ∧
  (∀ (s : State) (t : Nat) (x : Tunnel) (old : Nat), s.gauntlet.tunnels.get t = some x → oldKeyFree s x = some old → x.heldKey = none →
      exec (.oldEpochExpiry t) s = .next (releaseKey (updTunnel s t (fun x => { x with oldEpoch := none, heldKey := none })) old)) ∧
  (∀ (s : State) (t : Nat) (x : Tunnel), s.gauntlet.tunnels.get t = some x → inService s = true → x.up = true →
      x.lastValidBoundary + 65 ≤ s.time.boundaries → exec (.tunnelDown t) s = .next (raise (updTunnel s t
        (fun x => { x with up := false, downCount := x.downCount + 1, peerDownRaised := false })) Reg.GAUNTLET.GAUNTLET_EVENTS_TUNNEL_DOWN))

/-- In service: BAND_RELEASE, once in a tick, releases the participants and then the tunnels and clears the release of everything; PACING_SLOT
moves the wheel to its next slot; EGRESS_FREE of an egress point that can transmit and is not in low power idle considers its classes from 7
to 0 at the time it is free; GATE_ENTRY_CHANGE puts the next entry of the gate list in force at its time; GATE_LIST_CHANGED makes the next
list current at its time and raises GATE_LIST_CHANGED; PON_GRANT outside O2 and O3 fills the first unfilled grant of the Alloc-ID in an open
burst, and in the serial-number state leaves all as it is. -/
def Obligations.BandCommandsComplete : Prop :=
  (∀ (s u : State), inService s = true → onceDue s 1 = true →
      (s.participants.foldl (fun v e => releaseParticipant v s.time.boundaryAt e.1 e.2) (markOnce s 1)).gauntlet.tunnels.foldl
        (fun v e => releaseTunnelNow v s.time.boundaryAt e.1 e.2)
        (s.participants.foldl (fun v e => releaseParticipant v s.time.boundaryAt e.1 e.2) (markOnce s 1)) = u →
      exec .bandRelease s = .next { u with band := { u.band with releaseAll := false } }) ∧
  (∀ (s u : State) (slot : Nat), inService s = true →
      nowNs s / 1000 + (if s.band.wheelSlot < nowNs s / 1000 then 0 else 1) = slot → reachable s (slot * 1000) = true → u = advanceTo s (slot * 1000) →
      ∃ t, exec .pacingSlot s = .next t ∧ t.band.wheelSlot = slot) ∧
  (∀ (s u : State) (e f : Nat), e < 16 → inService s = true → egressValid s e = true → canTransmit s e = true →
      rd s (Reg.ETH.PORT_STATUS_LPI_TX.on e) ≠ 1 →
      max ((s.band.freeAt.get e).getD 0) (((s.eth.get e).map (fun p => p.wakeUntil)).getD 0 * 1000) = f → reachable s (ceilDiv f 1000) = true → u = advanceTo s (ceilDiv f 1000) →
      exec (.egressFree e) s = .next (considerClasses u e (max f (nowPs s)) classOrder)) ∧
  (∀ (s u : State) (e : Nat) (g : GateList) (st : GateState), inService s = true → gateOf s e = some g → s.band.gates.get e = some st →
      (gateEntryAt g.entries (cycleOffset g (nowNs s))).1 = st.entry →
      reachable s (nowNs s + ((gateEntryAt g.entries (cycleOffset g (nowNs s))).2.2 - cycleOffset g (nowNs s))) = true → u = advanceTo s (nowNs s + ((gateEntryAt g.entries (cycleOffset g (nowNs s))).2.2 - cycleOffset g (nowNs s))) →
      exec (.gateEntryChange e) s = .next (gateInstant
        { u with band := { u.band with gates := u.band.gates.put e { st with entry := (gateEntryAt g.entries (cycleOffset g (nowNs u))).1 } } } e
        (gatesOf (some g) st.entry) (gateEntryAt g.entries (cycleOffset g (nowNs u))).2.1)) ∧
  (∀ (s u : State) (e t : Nat) (st : GateState) (l : GateList), inService s = true → s.band.gates.get e = some st → st.next = some (some l, t) →
      reachable s t = true → u = advanceTo s t → exec (.gateListChanged e) s = .next (raise (wr (gateInstant
        { u with band := { u.band with gates :=
          (u.band.gates.put e { current := some l, next := none, entry := (gateEntryAt l.entries (cycleOffset l (nowNs u))).1 }) } }
        e (gatesOf st.current st.entry) (gateEntryAt l.entries (cycleOffset l (nowNs u))).2.1)
        (Reg.ETH.PORT_STATUS_LPI_TX.on e) 0) Reg.BAND.BAND_EVENTS_GATE_LIST_CHANGED)) ∧
  (∀ (s : State) (p a : Nat), ponMayTransmit s p = true → ponState s p = 2 → exec (.ponGrant p a) s = .next s) ∧
  (∀ (s u : State) (p a : Nat) (b : Burst) (g : Grant), ponMayTransmit s p = true → ponState s p = 3 → (ponPort s p).burstEn = true →
      (ponPort s p).bursts.find? (fun b => b.sent && decide (b.on ≤ nowNs s) && decide (nowNs s < b.off) &&
        b.grants.any (fun g => g.allocId = a && !g.filled)) = some b → b.grants.find? (fun g => g.allocId = a && !g.filled) = some g →
      settleAllocs (withPon s p (fun x => { x with bursts := x.bursts.map (fun y =>
        if y = b then { y with grants := updateAt y.grants (y.grants.findIdx (fun h => h = g)) (fun h => { h with filled := true }) } else y) }))
        p (ponOwner s p) = u → ponState u p = 3 →
      exec (.ponGrant p a) s = .next (bumpBy u (Reg.PON.IDLE_XGEM.on p)
        (Config.idleFrames (Config.grantSpace (rd u (Reg.PON.PON_CONFIG_MODE.on p)) g.bits g.ploamU g.dbru))))

/-- LINK_UP in service of a valid MAC that is down sets LINK, and TRAINED where it trains, from 10 ms after the link was lost, and raises
LINK_UP; LINK_DOWN of one that is up clears LINK, TRAINED and the low power bits, counts the loss and raises LINK_DOWN, and a frame being
received counts in CODE_ERRORS; LPI_ENTER of an idle port with low power idle allowed sets LPI_TX after LPI_IDLE and counts the entry;
LPI_WAKE of a sleeping port that has work clears it and keeps the port from sending for TX_TW; PARTNER_LPI_SIGNAL shows the partner's signal
in LPI_RX. -/
def Obligations.LinkCommandsComplete : Prop :=
  (∀ (s u : State) (m : Nat), inService s = true → macValid s m = true → linkUp s m = false →
      reachable s (match (ethOf s m).downAt with | some t => t + 10000000 | none => 0) = true → u = advanceTo s (match (ethOf s m).downAt with | some t => t + 10000000 | none => 0) →
      exec (.linkUp m) s = .next (raise (withEth (wrAll u [(Reg.ETH.PORT_STATUS_LINK.on m, 1),
        (Reg.ETH.PORT_STATUS_TRAINED.on m, rd u (Reg.ETH.PORT_CONFIG_TRAINING.on m))]) m
        { ethOf (wrAll u [(Reg.ETH.PORT_STATUS_LINK.on m, 1), (Reg.ETH.PORT_STATUS_TRAINED.on m, rd u (Reg.ETH.PORT_CONFIG_TRAINING.on m))]) m with
          idleSince := nowNs (wrAll u [(Reg.ETH.PORT_STATUS_LINK.on m, 1), (Reg.ETH.PORT_STATUS_TRAINED.on m, rd u (Reg.ETH.PORT_CONFIG_TRAINING.on m))]),
          wakeUntil := 0, downAt := none }) (Reg.ETH.PORT_EVENTS_LINK_UP.on m))) ∧
  (∀ (s : State) (m : Nat) (receiving : Bool), macValid s m = true → linkUp s m = true → exec (.linkDown m receiving) s =
      .next (raise (if receiving then bump (loseLink s m) (Reg.ETH.CODE_ERRORS.on m) else loseLink s m) (Reg.ETH.PORT_EVENTS_LINK_DOWN.on m))) ∧
  (∀ (s u : State) (m : Nat), inService s = true → macValid s m = true → linkUp s m = true → lpiAllowed s m = true → portEmpty s m = true →
      rd s (Reg.ETH.PORT_STATUS_LPI_TX.on m) = 0 →
      reachable s (max (ethOf s m).idleSince (((s.band.freeAt.get m).getD 0) / 1000) + rd s (Reg.ETH.LPI_CONFIG_LPI_IDLE.on m) * 1000) = true → u = advanceTo s (max (ethOf s m).idleSince (((s.band.freeAt.get m).getD 0) / 1000) + rd s (Reg.ETH.LPI_CONFIG_LPI_IDLE.on m) * 1000) →
      exec (.lpiEnter m) s = .next (emit (bump (wr u (Reg.ETH.PORT_STATUS_LPI_TX.on m) 1) (Reg.ETH.LPI_TX_ENTRIES.on m)) (.lpi m 1))) ∧
  (∀ (s u : State) (m : Nat), macValid s m = true → rd s (Reg.ETH.PORT_STATUS_LPI_TX.on m) = 1 → (portEmpty s m = false ∨ lpiAllowed s m = false) →
      wr s (Reg.ETH.PORT_STATUS_LPI_TX.on m) 0 = u → exec (.lpiWake m) s =
        .next (emit (withEth u m { ethOf u m with wakeUntil := nowNs u + rd u (Reg.ETH.LPI_CONFIG_TX_TW.on m) * 1000 }) (.lpi m 0))) ∧
  (∀ (s : State) (m : Nat) (on : Bool), macValid s m = true → linkUp s m = true →
      exec (.partnerLpiSignal m on) s = .next (wr s (Reg.ETH.PORT_STATUS_LPI_RX.on m) (b2n on)))

/-- For each downstream PLOAM message on a port that hears it: PLOAM_RX counts it; a message whose MIC fails is counted in PLOAM_MIC_FAIL,
raised and not acted on. With a good MIC: BURST_PROFILE of the port's rate is stored and advances O1 to O2; ASSIGN_ONU_ID of its serial
number in O2 takes the ONU-ID and enters O3; RANGING_TIME in O3 or O4 sets the equalisation delay for the next frame and stops TO1, and O3
becomes O4; REQUEST_REGISTRATION answers with the registration; ASSIGN_ALLOC_ID in O3 or O4 is acknowledged; KEY_CONTROL of index 1 or 2
draws a key, reports it and raises KEY_CHANGED; DEACTIVATE_ONU_ID returns O2 to O5 to O1; DISABLE_SERIAL_NUMBER of its serial number, or of
all, stops or frees the port; SLEEP_ALLOW is acknowledged and an unsupported type is answered as such. -/
def Obligations.PloamMessagesComplete : Prop :=
  (∀ (s : State) (p id a index kind : Nat) (m : Ploam) (f : BurstProfile) (serial : List Byte) (relative release disable : Bool) (delay : Int)
      (whom : Option (List Byte)), ponHears s p m = true → m.micOk = false →
      ∀ c ∈ ([.burstProfile p m f, .assignOnuId p m serial id, .rangingTime p m relative delay, .requestRegistration p m, .assignAllocId p m a release,
        .keyControl p m index, .deactivateOnuId p m, .disableSerialNumber p m whom disable, .sleepAllow p m, .ploamUnsupported p m kind] : List Instr),
      exec c s = .next (raise (bump (bump s (Reg.PON.PLOAM_RX.on p)) (Reg.PON.PLOAM_MIC_FAIL.on p))
        (Reg.PON.PON_EVENTS_PLOAM_MIC_FAIL.on (ponOwner (bump s (Reg.PON.PLOAM_RX.on p)) p)))) ∧
  (∀ (s u : State) (p : Nat) (m : Ploam) (f : BurstProfile), ponHears s p m = true → m.micOk = true → bump s (Reg.PON.PLOAM_RX.on p) = u →
      f.rate = rd u (Reg.PON.PON_CONFIG_UP_RATE.on p) → exec (.burstProfile p m f) s =
        .next (ponAdvance (withPon u (ponOwner s p) (fun x => { x with profiles := storeProfile x.profiles f })) (ponOwner s p))) ∧
  (∀ (s u : State) (p id : Nat) (m : Ploam), ponHears s p m = true → m.micOk = true → bump s (Reg.PON.PLOAM_RX.on p) = u →
      ponState u p = 2 → exec (.assignOnuId p m (ponSerial u p) id) s =
        .next (sendRegistration (ponMove (takeOnuId u (ponOwner s p) (id % 1024)) (ponOwner s p) 3 []) (ponOwner s p))) ∧
  (∀ (s u : State) (p old : Nat) (m : Ploam) (relative : Bool) (delay : Int), ponHears s p m = true → m.micOk = true →
      bump s (Reg.PON.PLOAM_RX.on p) = u → ponState u p = 3 →
      ((ponPort u (ponOwner s p)).nextEqd).getD (rd u (Reg.PON.EQD.on (ponOwner s p))) = old →
      ponState (withPon u (ponOwner s p) (fun x => { x with
        nextEqd := some ((if relative then (old : Int) else 0) + delay).toNat, to1 := none })) p = 3 →
      exec (.rangingTime p m relative delay) s = .next (ponMove (withPon u (ponOwner s p) (fun x => { x with
        nextEqd := some ((if relative then (old : Int) else 0) + delay).toNat, to1 := none })) (ponOwner s p) 4 [])) ∧
  (∀ (s u : State) (p : Nat) (m : Ploam), ponHears s p m = true → m.micOk = true → bump s (Reg.PON.PLOAM_RX.on p) = u →
      exec (.requestRegistration p m) s = .next (sendRegistration u (ponOwner u p))) ∧
  (∀ (s u : State) (p a : Nat) (m : Ploam), ponHears s p m = true → m.micOk = true → bump s (Reg.PON.PLOAM_RX.on p) = u →
      (ponState u p = 3 ∨ ponState u p = 4) → exec (.assignAllocId p m a false) s =
        .next (queuePloam (withPon u (ponOwner s p) (fun x => { x with allocs := (putAlloc (ponPort u (ponOwner s p)).allocs (a % 16384)).1 }))
          (ponOwner s p) ploamAck [b2n (!(putAlloc (ponPort u (ponOwner s p)).allocs (a % 16384)).2)])) ∧
  (∀ (s u : State) (p a : Nat) (m : Ploam), ponHears s p m = true → m.micOk = true → bump s (Reg.PON.PLOAM_RX.on p) = u →
      (ponState u p = 3 ∨ ponState u p = 4) → ∃ t l, exec (.assignAllocId p m a true) s = .next (queuePloam t (ponOwner s p) ploamAck [0]) ∧
        t = withPon u (ponOwner s p) (fun x => { x with allocs := l }) ∧ l.length = (ponPort u (ponOwner s p)).allocs.length ∧
        l[0]? = (ponPort u (ponOwner s p)).allocs[0]? ∧ ∀ i, 0 < i → l[i]? ≠ some (some (a % 16384))) ∧
  (∀ (s u : State) (p index : Nat) (m : Ploam), ponHears s p m = true → m.micOk = true → bump s (Reg.PON.PLOAM_RX.on p) = u →
      (index = 1 ∨ index = 2) → exec (.keyControl p m index) s =
        .next (raise (queuePloam (installPonKey (draw u).1 (ponOwner s p) index false (Config.drbg (draw u).2 % 2 ^ 128)) (ponOwner s p) ploamKeyReport
          [index, Config.ponWrap (ponKek (installPonKey (draw u).1 (ponOwner s p) index false (Config.drbg (draw u).2 % 2 ^ 128)) (ponOwner s p))
            (Config.drbg (draw u).2 % 2 ^ 128)]) (Reg.PON.PON_EVENTS_KEY_CHANGED.on (ponOwner s p)))) ∧
  (∀ (s u : State) (p : Nat) (m : Ploam), ponHears s p m = true → m.micOk = true → bump s (Reg.PON.PLOAM_RX.on p) = u →
      2 ≤ ponState u p → ponState u p ≤ 5 → exec (.deactivateOnuId p m) s = .next (ponToO1 u (ponOwner u p))) ∧
  (∀ (s u : State) (p : Nat) (m : Ploam) (serial : Option (List Byte)), ponHears s p m = true → m.micOk = true → bump s (Reg.PON.PLOAM_RX.on p) = u →
      (serial = none ∨ serial = some (ponSerial u p)) → exec (.disableSerialNumber p m serial true) s = .next (ponStop u (ponOwner u p)) ∧
        exec (.disableSerialNumber p m serial false) s = .next (ponUnstop u (ponOwner u p))) ∧
  (∀ (s u : State) (p kind : Nat) (m : Ploam), ponHears s p m = true → m.micOk = true → bump s (Reg.PON.PLOAM_RX.on p) = u →
      exec (.sleepAllow p m) s = .next (queuePloam u (ponOwner u p) ploamAck [0]) ∧
        exec (.ploamUnsupported p m kind) s = .next (queuePloam u (ponOwner u p) ploamAck [2, kind]))

/-- In service: PSYNC_HUNT of a port out of sync takes one candidate position, and sets SYNC after SYNC_MATCHES matches; SYNC_LOST after four
misses loses sync; PON_DOWNSTREAM_FRAME of a port in sync checks its PSync, counts its FEC results and keeps its stamp. TO1 in O2 or O3 and
TO2 in O5 return the port to O1 at their end. BURST_WINDOW of a port that may transmit drives BURST_EN high at the start of the next window,
counts it and, in O2, sends the serial number; WATCHDOG_TRIP outside every scheduled window drives it low, locks the transmitter, at the
third trip for good, and raises a fault. OMCI_MESSAGE with a bad MIC is counted and with a good one goes to the host; TOD_MEASUREMENT
measures the binding whose PSync has been stamped; PROTECT_SWITCH swaps the roles at a frame boundary of a standby in sync. -/
def Obligations.PonPortCommandsComplete : Prop :=
  (∀ (s u : State) (p position errors : Nat) (high : Bool) (cs : List Candidate) (full : Bool), inService s = true → ponEnabled s p = true →
      ponSync s p = false → takeLos s p high = u →
      huntStep (ponPort u p).candidates (downBits u p) (rd u (Reg.PON.PON_CONFIG_SYNC_MATCHES.on p)) position (psyncMatches u p high errors) = (cs, false, full) →
      exec (.psyncHunt p position ⟨errors, high⟩) s = .next (if full then bump (withPon u p (fun x => { x with candidates := cs, missRun := 0 }))
        (Reg.PON.HUNT_SATURATED.on p) else withPon u p (fun x => { x with candidates := cs, missRun := 0 }))) ∧
  (∀ (s u : State) (p position errors : Nat) (high : Bool), inService s = true → ponEnabled s p = true → ponSync s p = false → takeLos s p high = u →
      huntStep (ponPort u p).candidates (downBits u p) (rd u (Reg.PON.PON_CONFIG_SYNC_MATCHES.on p)) position (psyncMatches u p high errors) = ([], true, false) →
      ponActive (wr (withPon u p (fun x => { x with candidates := [], missRun := 0 })) (Reg.PON.PON_STATUS_SYNC.on p) 1) p = false →
      exec (.psyncHunt p position ⟨errors, high⟩) s =
        .next (wr (withPon u p (fun x => { x with candidates := [], missRun := 0 })) (Reg.PON.PON_STATUS_SYNC.on p) 1)) ∧
  (∀ (cs : List Candidate) (frame matches_ position : Nat) (c : Candidate),
      (cs.filter (fun c => decide (position ≤ c.next))).find? (fun c => c.next = position) = some c →
      huntStep cs frame matches_ position false = ((cs.filter (fun c => decide (position ≤ c.next))).filter (fun x => x.next ≠ position), false, false) ∧
      (matches_ ≤ c.matches_ + 1 → huntStep cs frame matches_ position true = ([], true, false))) ∧
  (∀ (s : State) (p : Nat), p < 2 → ponSync s p = true → 4 ≤ (ponPort s p).missRun → exec (.syncLost p) s = .next (loseSync s p)) ∧
  (∀ (s u : State) (p : Nat) (f : DownFrame), inService s = true → ponEnabled s p = true → ponSync s p = true → (ponPort s p).missRun < 4 →
      withPon (bumpBy (bumpBy (closeBursts (checkPsync (takeLos s p f.rxLos) p (psyncMatches s p f.rxLos f.psyncErrors)) p)
        (Reg.PON.FEC_CORRECTED.on p) f.fecCorrected) (Reg.PON.FEC_UNCORRECTABLE.on p) f.fecUncorrectable) p
        (fun x => { x with superframe := f.superframe, stamps := ((f.superframe, f.stamp) :: x.stamps).take 8192 }) = u →
      (ponActive u p = false → exec (.ponDownstreamFrame p f) s = .next u) ∧
      (ponActive u p = true → ponState u p ≠ 5 → f.headerBad = true → exec (.ponDownstreamFrame p f) s = .next (bump u (Reg.PON.HEC_ERRORS.on p))) ∧
      (ponActive u p = true → ponState u p ≠ 5 → f.headerBad = false → exec (.ponDownstreamFrame p f) s =
        .next (xgemFrames (switchUpKey (readBwmap u p f.stamp f.superframe f.bwmap) (ponOwner s p) f.upKey) p (ponOwner s p) 0 f.xgem))) ∧
  (∀ (s u : State) (p t : Nat), p < 2 → (ponPort s (ponOwner s p)).to1 = some t → (ponState s p = 2 ∨ ponState s p = 3) → reachable s t = true → u = advanceTo s t →
      exec (.to1Expiry p) s = .next (ponToO1 u (ponOwner s p))) ∧
  (∀ (s u : State) (p t : Nat), p < 2 → (ponPort s (ponOwner s p)).to2 = some t → ponState s p = 5 → reachable s t = true → u = advanceTo s t →
      exec (.to2Expiry p) s = .next (ponToO1 u (ponOwner s p))) ∧
  (∀ (s u v : State) (p : Nat) (b : Burst), ponMayTransmit s p = true → (ponPort s p).bursts.find? (fun b => !b.sent && decide (nowNs s < b.off)) = some b →
      reachable s b.on = true → u = advanceTo s b.on → emit (emit (bump (withPon (closeBursts u p) p
        (fun x => { x with burstEn := true, bursts := replaceFirst x.bursts b { b with sent := true } })) (Reg.PON.BURSTS.on p)) (.pin (burstPin p) 1))
        (.burst p [b.on, b.off]) = v →
      (ponState v p = 2 → exec (.burstWindow p) s = .next (emit v (.ploam p ploamSerial ((ponSerial v p).map (·.toNat))))) ∧
      (ponState v p ≠ 2 → exec (.burstWindow p) s = .next ((b.grants.filter (·.ploamU)).foldl (fun s _ => sendPloam s p (ponOwner s p)) v))) ∧
  (∀ (s : State) (p rise instant : Nat), p < 2 →
      (ponPort s p).bursts.any (fun b => decide (b.on ≤ rise) && decide (rise < b.off) && decide (instant < b.off + 64)) = false →
      exec (.watchdogTrip p rise instant) s = .next (fault (raise (bump (wr (emit (withPon s p
        (fun x => { x with burstEn := false, trips := (ponPort s p).trips + 1 })) (.pin (burstPin p) 0))
        (if 3 ≤ (ponPort s p).trips + 1 then Reg.PON.PON_STATUS_WATCHDOG_PERMANENT.on p else Reg.PON.PON_STATUS_TX_LOCKED.on p) 1)
        (Reg.PON.WATCHDOG_TRIPS.on p)) (Reg.PON.PON_EVENTS_WATCHDOG_TRIP.on p)) 0x70 16 (enginePort 8 (2 * p)) p 0)) ∧
  (∀ (s : State) (p : Nat) (m : OmciMessage), inService s = true → ponEnabled s p = true → ponSync s p = true → ponActive s p = true →
      (ponState s p = 3 ∨ ponState s p = 4) → (m.micOk = false → exec (.omciMessage p m) s = .next (bump s (Reg.PON.OMCI_MIC_FAIL.on p))) ∧
      (m.micOk = true → m.kind = .other → exec (.omciMessage p m) s = .next (deliverOmci s p 5 0 m.bytes m.stamp true)) ∧
      (m.micOk = true → m.kind = .mutualAuth → rd s (Reg.PON.PON_CONFIG_ENHANCED_SECURITY.on p) = 1 → exec (.omciMessage p m) s =
        .next (deliverOmci (authenticate s (ponOwner s p) m.bytes) p 6 (omciType m.bytes) [] m.stamp false)) ∧
      (m.micOk = true → m.kind = .mutualAuth → rd s (Reg.PON.PON_CONFIG_ENHANCED_SECURITY.on p) ≠ 1 → exec (.omciMessage p m) s =
        .next (deliverOmci s p 5 0 m.bytes m.stamp true))) ∧
  (∀ (s : State) (p : Nat) (b : TodBinding), inService s = true → p < 2 →
      (ponPort s (ponOwner s p)).tod.find? (fun b => (psyncStamp s (livePort s (ponOwner s p)) b.superframe).isSome) = some b →
      exec (.todMeasurement p) s = .next (measureTod (withPon s (ponOwner s p) (fun x => { x with tod := x.tod.erase b })) (ponOwner s p)
        ((psyncStamp s (livePort s (ponOwner s p)) b.superframe).getD 0) b.time)) ∧
  (∀ (s u : State) (standby due last : Nat), inService s = true → ponPaired s = true → swapDue s = some due → standby = (if s.pon.activeB then 0 else 1) →
      (((ponPort s standby).stamps.head?).map (·.2)).getD due = last → ponSync s standby = true →
      reachable s (if due ≤ last then last else last + ceilDiv (due - last) Config.tickNs * Config.tickNs) = true → u = advanceTo s (if due ≤ last then last else last + ceilDiv (due - last) Config.tickNs * Config.tickNs) →
      exec .protectSwitch s = .next (swapRoles u [Reg.PON.PON_EVENTS_PROTECT_SWITCH.on 0]))

/-- MEMORY_REQUEST of a port with rights to a powered channel enters its queue, and the channel does its next command; a port without rights is
denied, and with no path or power answered PORT_OFF. REFRESH_DUE raises the bank's debt, at most to 8; TEMPERATURE_READING every 32 us shows
the temperature, HOT above 85 and not at 82 or less; CATCHUP_END ends catch-up and keeps the longest; ROW_REMAP uses a spare row, or raises
that none is left; SCRUB_READ of an idle channel moves to the next word and takes up a corrected error; TRACKING_STEP at its tick renews the
training set, or holds the channel and retrains it, or faults it; CHANNEL_FAULT after three exhaustions within 1 s faults the channel;
TRAINING_SET_EXPIRY drops the sets of a point that have expired; MEMORY_RETRAINING_DONE answers the directive, and without a failure the
point stays. -/
def Obligations.NearMemoryCommandsComplete : Prop :=
  (∀ (s : State) (stack channel : Nat) (r : MemRequest) (ecc : Ecc), stack < 8 → channel < 16 → requestFits stack channel r = true →
      portFused s r.port = false → r.address < 8 * stackBytes →
      (rightsOk s r.port r.address = false → exec (.memoryRequest stack channel (some r) ecc) s = .next (denied s r.port r.address)) ∧
      (rightsOk s r.port r.address = true → stackOn s (nearStack r.address) = false ∨
          pathOpen s r.port (controllerPort (nearStack r.address) (nearChannel r.address)) = false →
        exec (.memoryRequest stack channel (some r) ecc) s = .next (portOff s r.port)) ∧
      (rightsOk s r.port r.address = true → stackOn s (nearStack r.address) = true →
        pathOpen s r.port (controllerPort (nearStack r.address) (nearChannel r.address)) = true →
        exec (.memoryRequest stack channel (some r) ecc) s = .next (issueCommand (arrive s stack channel (some r)) stack channel ecc))) ∧
  (∀ (s : State) (stack channel : Nat) (r : MemRequest) (ecc : Ecc), stack < 8 → channel < 16 → requestFits stack channel r = true →
      portFused s r.port = false → crownReply s r.port r.address = .unmapped →
      exec (.memoryRequest stack channel (some r) ecc) s = .next (unmapped s r.port r.address)) ∧
  (∀ (s : State) (stack channel : Nat) (ecc : Ecc), stack < 8 → channel < 16 → stackOn s stack = true →
      exec (.memoryRequest stack channel none ecc) s = .next (issueCommand (arrive s stack channel none) stack channel ecc)) ∧
  (∀ (s : State) (stack channel : Nat) (ecc : Ecc),
      (∀ w q, nextCommand s stack channel = .serve w q → issueCommand s stack channel ecc = serve s stack channel w q ecc) ∧
      (∀ b forced, nextCommand s stack channel = .refresh b forced → issueCommand s stack channel ecc = refresh s stack channel b forced) ∧
      (nextCommand s stack channel = .nothing → issueCommand s stack channel ecc = s)) ∧
  (∀ (s u : State) (stack channel bank t : Nat), stack < 8 → channel < 16 → bank < 32 → stackOn s stack = true → nextDue s stack channel bank = t →
      reachable s t = true → u = advanceTo s t →
      exec (.refreshDue stack channel bank) s = .next (withBank u stack channel bank { bankOf s stack channel bank with
        debt := min 8 ((bankOf s stack channel bank).debt + 1), lastDue := some t })) ∧
  (∀ (s u : State) (stack t : Nat) (celsius : Int), stack < 8 → stackOn s stack = true → s.near.lastReading.get stack = some t → celsius ≤ 82 →
      reachable s (t + 32000) = true → u = advanceTo s (t + 32000) → exec (.temperatureReading stack celsius) s = .next (wr (wr
        { u with near := { u.near with lastReading := u.near.lastReading.put stack (nowNs u) } }
        (Reg.NEARMEM.MEM_STATUS_TEMPERATURE.on stack) (ofSigned 8 celsius)) (Reg.NEARMEM.MEM_STATUS_HOT.on stack) 0)) ∧
  (∀ (s u v w : State) (stack : Nat) (celsius : Int), stack < 8 → stackOn s stack = true → 85 < celsius → celsius ≤ 95 →
      reachable s (match s.near.lastReading.get stack with | some t => t + 32000 | none => 0) = true → u = advanceTo s (match s.near.lastReading.get stack with | some t => t + 32000 | none => 0) → rd u (Reg.NEARMEM.MEM_STATUS_HOT.on stack) ≠ 1 →
      wr (wr { u with near := { u.near with lastReading := u.near.lastReading.put stack (nowNs u) } }
        (Reg.NEARMEM.MEM_STATUS_TEMPERATURE.on stack) (ofSigned 8 celsius)) (Reg.NEARMEM.MEM_STATUS_HOT.on stack) 1 = v →
      debtAbove4 v stack = true → inCatchup v stack = false →
      wr v (Reg.NEARMEM.MEM_STATUS_CATCHUP.on stack) 1 = w → exec (.temperatureReading stack celsius) s = .next (raise (bump
        { w with near := { w.near with catchupFrom := w.near.catchupFrom.put stack (nowNs w) } } (Reg.NEARMEM.CATCHUPS.on stack))
        (Reg.NEARMEM.MEM_EVENTS_CATCHUP_ENTERED.on stack))) ∧
  (∀ (s u : State) (stack : Nat), stack < 8 → inCatchup s stack = true → debtAbove4 s stack = false →
      wr s (Reg.NEARMEM.MEM_STATUS_CATCHUP.on stack) 0 = u → exec (.catchupEnd stack) s = .next (wr u (Reg.NEARMEM.CATCHUPS_LONGEST.on stack)
        (min (2 ^ 32 - 1) (max (nowNs s - (s.near.catchupFrom.get stack).getD (nowNs s)) (rd u (Reg.NEARMEM.CATCHUPS_LONGEST.on stack)))))) ∧
  (∀ (s : State) (stack channel bank row n : Nat) (bad : List Nat) (b : MemBank), stack < 8 → channel < 16 → bank < 32 →
      remapDue s stack channel bank = some (row, n) → bankOf s stack channel bank = b →
      (b.spares.length < 4 → exec (.rowRemap stack channel ⟨bank, bad⟩) s = .next (raise (bump (withBank (poisonRow s stack channel bank row bad) stack channel bank
        { b with open_ := none, buckets := [], uncorrectable := b.uncorrectable.filter (fun e => e.1 ≠ row),
                 spares := b.spares ++ [{ row := row, tick := s.time.tickCount, corrected := n }] })
        (Reg.NEARMEM.ROWS_REMAPPED.on stack)) (Reg.NEARMEM.MEM_EVENTS_ROW_REMAPPED.on stack))) ∧
      (4 ≤ b.spares.length → b.answered = false → b.noSpare = false → exec (.rowRemap stack channel ⟨bank, bad⟩) s =
        .next (raise (withBank s stack channel bank { b with noSpare := true, answered := true, uncorrectable := b.uncorrectable.filter (fun e => e.1 ≠ row) })
          (Reg.NEARMEM.MEM_EVENTS_REMAP_EXHAUSTED.on stack))) ∧
      (4 ≤ b.spares.length → b.answered = false → b.noSpare = true → exec (.rowRemap stack channel ⟨bank, bad⟩) s =
        .next (fault (withBank s stack channel bank { b with answered := true, uncorrectable := b.uncorrectable.filter (fun e => e.1 ≠ row) }) 0x23 17
          (controllerPort stack channel) (bank + rowAddress stack channel bank row / 2 ^ 32 * 65536) (rowAddress stack channel bank row % 2 ^ 32)))) ∧
  (∀ (s u : State) (stack channel at_ bank : Nat) (ecc : Ecc), stack < 8 → channel < 16 → stackOn s stack = true → scrubDue s stack channel = true →
      (channelOf s stack channel).scrubAt = at_ → 4 * (bitsOf at_ 12 10 ^^^ bitsOf at_ 20 18) + bitsOf at_ 14 13 = bank →
      withChannel s stack channel { channelOf s stack channel with
        scrubAt := (at_ + 64) % (49152 * 32768), scrubFrom := if at_ = 0 then some (nowNs s) else (channelOf s stack channel).scrubFrom } = u →
      (eccOf u ((rowAddress stack channel bank (at_ / 32768) + at_ % 1024 / 256 * 4096 + at_ % 256) / 64) ecc = .clean →
        exec (.scrubRead stack channel ecc) s = .next u) ∧
      (eccOf u ((rowAddress stack channel bank (at_ / 32768) + at_ % 1024 / 256 * 4096 + at_ % 256) / 64) ecc = .corrected →
        exec (.scrubRead stack channel ecc) s = .next (bump (correctedIn u stack channel bank (at_ / 32768)) (Reg.NEARMEM.SCRUB_CORRECTED.on stack)))) ∧
  (∀ (s u : State) (stack channel : Nat) (trains : Bool), inService s = true → stack < 8 → channel < 16 → stackOn s stack = true →
      s.time.tickCount % 8000 = 62 * (16 * stack + channel) → onceDue s (0x600000 + (16 * stack + channel)) = true →
      holdStep (markOnce s (0x600000 + (16 * stack + channel))) stack channel 20000 = u →
      exec (.trackingStep stack channel true trains) s = .next (showSets (trainSet u stack channel (setPoint u)) stack)) ∧
  (∀ (s u : State) (stack channel : Nat), inService s = true → stack < 8 → channel < 16 → stackOn s stack = true →
      s.time.tickCount % 8000 = 62 * (16 * stack + channel) → onceDue s (0x600000 + (16 * stack + channel)) = true →
      holdStep (markOnce s (0x600000 + (16 * stack + channel))) stack channel 1500000 = u →
      exec (.trackingStep stack channel false true) s =
        .next (raise (showSets (trainSet u stack channel (setPoint u)) stack) (Reg.NEARMEM.MEM_EVENTS_RETRAINED.on stack)) ∧
      exec (.trackingStep stack channel false false) s = .next (faultChannel u stack channel)) ∧
  (∀ (s : State) (stack channel : Nat), stack < 8 → channel < 16 → inService s = true →
      3 ≤ ((channelOf s stack channel).exhausted.filter (fun t => nowNs s < t + 1000000000)).length →
      bitOf (rd s (Reg.NEARMEM.MEM_STATUS_CHANNELS_FAULTED.on stack)) channel = 0 → exec (.channelFault stack channel) s =
        .next (faultChannel (withChannel s stack channel { channelOf s stack channel with exhausted := [] }) stack channel)) ∧
  (∀ (s u : State) (stack point t : Nat), stack < 8 → point < 3 →
      leastBy (fun (t : Nat) => (t : Int)) ((List.range 16).filterMap (fun ch => (channelOf s stack ch).trained.getD point none)) = some t →
      reachable s (t + 3600000000000) = true → u = advanceTo s (t + 3600000000000) → exec (.trainingSetExpiry stack point) s = .next (showSets ((List.range 16).foldl (fun s ch =>
        if setValid s (channelOf s stack ch) point then s else withChannel s stack ch { channelOf s stack ch with
          trained := updateAt (channelOf s stack ch).trained point (fun _ => none) }) u) stack)) ∧
  (∀ (s u : State) (failed : List Nat) (d : Deferred) (point old : Nat), s.near.change = some (d, point, old) → s.near.retraining = true →
      { s with near := { s.near with change := none, retraining := false } } = u →
      (failed ≠ [] → exec (.memoryRetrainingDone failed) s = .next (finish (faultRetrained (takePoint u old) point failed) d 18 0 0)) ∧
      (failed = [] → exec (.memoryRetrainingDone failed) s = .next (finish ((poweredStacks u).foldl (fun s k =>
        raiseAll (showSets ((List.range 16).foldl (fun s ch => trainSet s k ch point) s) k)
          [Reg.NEARMEM.MEM_EVENTS_RATE_CHANGED.on k, Reg.NEARMEM.MEM_EVENTS_RETRAINED.on k]) u) d 0 1 0)))

/-- LINING_ACCESS: the requests of a cycle that the Crown does not let through are answered as it says; while the group is fenced the others
wait, writes before the reads of their words, and otherwise those that waited and then the new ones enter the banks. ROW_SPARE spares the
row that is due: with a spare row left, the words that do not read back are poisoned, the row is spared and counted; without one, the first
time SPARE_EXHAUSTED is raised. GLOVEBOX_ACCESS of a host or Mitten port is denied, one outside the window finds nothing, and one inside is
served, waits for its page or fetches it. PAGE_FETCH_DONE: a page whose tag verifies fills a frame with its plain text and its requests are
served in order; an untrusted one is counted, raised and logged and its requests answered as poisoned; a failed host read is tried again up
to the limit and then raised and logged. -/
def Obligations.LiningAndGloveboxCommandsComplete : Prop :=
  (∀ (s u : State) (group : Nat) (qs l : List LiningRequest), group < 80 →
      (∀ q ∈ qs, liningFits group q.request = true ∧ portFused s q.request.port = false) → liningPass s qs = (u, l) →
      (groupState s (servedBy s group) = gFenced → exec (.liningAccess group qs) s =
        .next { u with lining := { u.lining with waiting := u.lining.waiting ++ (writesFirst l).map (fun q => (servedBy s group, q)) } }) ∧
      (groupState s (servedBy s group) ≠ gFenced → u.lining.waiting = [] →
        exec (.liningAccess group qs) s = .next (liningCycle u (servedBy s group) (writesFirst l)))) ∧
  (∀ (s : State) (q : LiningRequest), (isHostPort q.request.port = true → liningBase ≤ q.request.address → q.request.address < liningBase + 80 * groupBytes →
      liningPass s [q] = (denied s q.request.port q.request.address, [])) ∧
      (crownReply s q.request.port q.request.address = .pass → liningPass s [q] = (s, [q])) ∧
      (crownReply s q.request.port q.request.address = .portOff → liningPass s [q] = (portOff s q.request.port, []))) ∧
  (∀ (s : State) (group bank row : Nat) (bad : List Nat) (x : LiningBank), group < 80 → bank < 64 → spareDue s group bank = some row →
      liningBankOf s group bank = x →
      (x.spares.length < 4 → exec (.rowSpare group ⟨bank, bad⟩) s = .next (raise (bump (withLiningBank (poisonLining s group bank row bad) group bank
        { x with buckets := [], uncorrectable := x.uncorrectable.filter (fun e => e.1 ≠ row), spares := x.spares ++ [row] })
        Reg.LINING.ROWS_SPARED) Reg.LINING.LINING_EVENTS_ROW_SPARED)) ∧
      (4 ≤ x.spares.length → x.noSpare = false → exec (.rowSpare group ⟨bank, bad⟩) s = .next (raise (withLiningBank s group bank
        { x with noSpare := true, answered := true, uncorrectable := x.uncorrectable.filter (fun e => e.1 ≠ row) })
        Reg.LINING.LINING_EVENTS_SPARE_EXHAUSTED))) ∧
  (∀ (s : State) (r : MemRequest), (r.kind = .read ∨ ∃ bs, r.kind = .write bs ∧ 0 < bs.length ∧ bs.length ≤ 64 - r.address % 64) →
      portFused s r.port = false → gloveBase ≤ r.address → r.address < gloveLimit →
      (isHostPort r.port = true ∨ isMittenPort r.port = true → exec (.gloveboxAccess r) s = .next (denied s r.port r.address)) ∧
      (isHostPort r.port = false → isMittenPort r.port = false → inWindow s r.address = false →
        exec (.gloveboxAccess r) s = .next (unmapped s r.port r.address)) ∧
      (isHostPort r.port = false → isMittenPort r.port = false → inWindow s r.address = true → exec (.gloveboxAccess r) s = .next (gloveAccess s r))) ∧
  (∀ (s u : State) (page port : Nat) (f : PageFetch) (c tag : List Byte), s.glove.fetches.find? (fun f => f.page = page) = some f →
      { s with glove := { s.glove with fetches := s.glove.fetches.erase f } } = u → ((f.requests.head?).map (·.port)).getD 0xFFFF = port →
      exec (.pageFetchDone page (.read c tag)) s = .next (if pageVerifies s page c tag then
        runArchives (f.requests.foldl gloveServe (fillFrame (emptyFrame (countPageJob u)) page (memWrite [] 0 (pageClear s page c))))
      else runArchives (endArchives (poisonRequests (fault (raise
        (bump (bump (countPageJob u) Reg.CIPHER.UNTRUSTED_TOTAL) Reg.CIPHER.UNTRUSTED_PAGE) Reg.CIPHER.CIPHER_EVENTS_GLOVEBOX_UNTRUSTED) 0x61 12 port 0 page)
        f.requests) page)) ∧
      (f.retries < rd s Reg.GLOVEBOX.DMA_CONFIG → exec (.pageFetchDone page .hostError) s = .next { s with glove := { s.glove with
        fetches := s.glove.fetches.map (fun g => if g.page = page then { g with retries := g.retries + 1 } else g) } }) ∧
      (rd s Reg.GLOVEBOX.DMA_CONFIG ≤ f.retries → exec (.pageFetchDone page .hostError) s = .next (runArchives (endArchives (poisonRequests (fault (raise
        (bump u Reg.GLOVEBOX.HOST_READ_ERRORS) Reg.GLOVEBOX.GLOVEBOX_EVENTS_HOST_READ_ERROR) 0x62 19 port 0 page) f.requests) page))))

/-- Where the host reaches the device: DMA_GO of a running channel is ignored and counted, and of another starts it at its chain head; DMA_ABORT
halts a channel that waits at once and marks one at work; CHAIN_HEAD_WRITE of a channel that does not run sets it, aligned to 32 bytes, and
is discarded while it runs. DESCRIPTOR_FETCHED: a good descriptor is issued; a malformed or forbidden one halts the channel with reason
DESCRIPTOR or DENIED; a failed fetch is counted and tried again up to the limit, and then halts it. DMA_ACCESS_COMPLETE: data read enter the
funnel, at its front where the copy runs downwards; data written leave it, and the last of a descriptor ends it; a failed read is tried
again, and then halts the channel. (Accesses that the Crown refuses or that meet poison act as failed ones.) -/
def Obligations.DmaCommandsComplete : Prop :=
  (∀ (s : State) (ch : Nat), hostReaches s = true → ch < 64 → (dmaRunning s ch = true → exec (.dmaGo ch) s = .next (bump s Reg.GLOVEBOX.GO_IGNORED)) ∧
      (dmaRunning s ch = false → exec (.dmaGo ch) s = .next (dmaGo s ch))) ∧
  (∀ (s : State) (ch : Nat) (c : DmaChannel), hostReaches s = true → ch < 64 → s.dma.channels.get ch = some c →
      (c.waiting = true → exec (.dmaAbort ch) s = .next (dmaHalt s ch c 4)) ∧
      (c.waiting = false → exec (.dmaAbort ch) s = .next (withDma s ch { c with abort := true }))) ∧
  (∀ (s : State) (ch address : Nat), hostReaches s = true → ch < 64 → address < 2 ^ 64 →
      (dmaRunning s ch = true → exec (.chainHeadWrite ch address) s = .next s) ∧
      (dmaRunning s ch = false → address % 32 = 0 → exec (.chainHeadWrite ch address) s =
        .next (wr (wr s (Reg.GLOVEBOX.CHAIN_HEAD_HI.at ch) (address / 2 ^ 32)) (Reg.GLOVEBOX.CHAIN_HEAD_LO.at ch) address)) ∧
      (dmaRunning s ch = false → address % 32 ≠ 0 → exec (.chainHeadWrite ch address) s =
        .next (accessError (wr s (Reg.GLOVEBOX.CHAIN_HEAD_HI.at ch) (address / 2 ^ 32))))) ∧
  (∀ (s : State) (ch : Nat) (c : DmaChannel) (b : List Byte) (d : Descriptor), s.dma.channels.get ch = some c → c.waiting = false → c.desc = none → c.abort = false →
      readDescriptor b = d →
      (malformed d = true → exec (.descriptorFetched ch (some b)) s = .next (dmaHalt s ch c 3)) ∧
      (malformed d = false → transferAllowed s d = false → exec (.descriptorFetched ch (some b)) s = .next (dmaHalt s ch c 2)) ∧
      (malformed d = false → transferAllowed s d = true → exec (.descriptorFetched ch (some b)) s = .next (dmaIssue s ch
        { c with desc := some d, readDone := 0, written := 0, funnel := [], access := none, retries := 0, down := downwards d } d)) ∧
      (c.retries < rd s Reg.GLOVEBOX.DMA_CONFIG → exec (.descriptorFetched ch none) s =
        .next (bump (withDma s ch { c with retries := c.retries + 1 }) Reg.GLOVEBOX.DMA_RETRIES)) ∧
      (rd s Reg.GLOVEBOX.DMA_CONFIG ≤ c.retries → exec (.descriptorFetched ch none) s = .next (dmaHalt s ch c 1))) ∧
  (∀ (s : State) (ch addr n : Nat) (c : DmaChannel) (d : Descriptor) (data : List Byte), s.dma.channels.get ch = some c → c.desc = some d →
      c.access = some (.read addr n) → c.waiting = false → c.abort = false →
      ((dmaRefused s ch d (.read addr n)).isSome = false → dmaPoisoned s d (.read addr n) = false → c.down = false →
        exec (.dmaAccessComplete ch true data) s = .next (dmaIssue s ch { c with
          funnel := c.funnel ++ (if d.srcInternal then memRead s.mem addr n else padTo n data), access := none, retries := 0 } d)) ∧
      ((dmaRefused s ch d (.read addr n)).isSome = false → dmaPoisoned s d (.read addr n) = false → c.down = true →
        exec (.dmaAccessComplete ch true data) s = .next (dmaIssue s ch { c with
          funnel := (if d.srcInternal then memRead s.mem addr n else padTo n data) ++ c.funnel, access := none, retries := 0 } d)) ∧
      (c.retries < rd s Reg.GLOVEBOX.DMA_CONFIG → (dmaRefused s ch d (.read addr n)).isSome = false → exec (.dmaAccessComplete ch false data) s =
        .next (bump (withDma s ch { c with retries := c.retries + 1 }) Reg.GLOVEBOX.DMA_RETRIES)) ∧
      (rd s Reg.GLOVEBOX.DMA_CONFIG ≤ c.retries → (dmaRefused s ch d (.read addr n)).isSome = false →
        exec (.dmaAccessComplete ch false data) s = .next (dmaHalt s ch c 1))) ∧
  (∀ (s : State) (ch addr n : Nat) (c : DmaChannel) (d : Descriptor) (data : List Byte), s.dma.channels.get ch = some c → c.desc = some d →
      c.access = some (.write addr n) → c.waiting = false → c.abort = false → c.down = false →
      (dmaRefused s ch d (.write addr n)).isSome = false → dmaPoisoned s d (.write addr n) = false →
      (c.written + n = d.count → exec (.dmaAccessComplete ch true data) s = .next (dmaDescriptorDone (dmaStore s ch d addr (c.funnel.take n)) ch
        { c with funnel := c.funnel.drop n, written := c.written + n, access := none, retries := 0 } d)) ∧
      (c.written + n ≠ d.count → exec (.dmaAccessComplete ch true data) s = .next (dmaIssue (dmaStore s ch d addr (c.funnel.take n)) ch
        { c with funnel := c.funnel.drop n, written := c.written + n, access := none, retries := 0 } d)))

/-- CLOCK_REQUEST of the host: the point in force is taken, a lower number than the ceiling or a request while one is pending is refused. Out of
Dormant: JUNCTION_READING shows the temperature and zeroizes below −50 and above 125 °C, and else steps the clock down at the threshold and
above; AGING_CHECK, once a second, shows the margin, moves the core voltage to its target, and the third low margin at 800 mV steps the
clock down. With the engines powered: ENGINE_FAILURE counts the failure of the engine and resets it; ENGINE_RESET_DONE ends the reset.
CROWN_LINK_FAULT: a corrected bit and up to 8 replays of a flit are counted; a double-bit error, or a ninth failure in a row on a link
between dies, in service is logged as a lasting fault, and its recovery follows at the next boundary. -/
def Obligations.PowerAndRecoveryCommandsComplete : Prop :=
  (∀ (s : State) (point : Nat), hostReaches s = true → point < 3 →
      (point = eclk s → exec (.clockRequest point) s = .next (wr s Reg.POWER.CLOCK_CONTROL_REQUEST point)) ∧
      (point ≠ eclk s → rd s Reg.POWER.POWER_CONFIG_HOST_CLOCK = 0 ∨ point < rd s Reg.POWER.CLOCK_CONTROL_CEILING ∨
        rd s Reg.POWER.CLOCK_CONTROL_PENDING = 1 → exec (.clockRequest point) s = .next (raise s Reg.POWER.CLOCK_CONTROL_REFUSED))) ∧
  (∀ (s u : State) (celsius : Int), s.mode ≠ .dormant → wr s Reg.POWER.POWER_STATUS_JUNCTION (ofSigned 8 celsius) = u →
      ((celsius < -50 ∨ 125 < celsius) → exec (.junctionReading celsius) s = .next (zeroizeTrigger u 3 0)) ∧
      (-50 ≤ celsius → celsius ≤ 125 → (rd u Reg.POWER.POWER_CONFIG_THROTTLE_TEMP : Int) ≤ celsius → exec (.junctionReading celsius) s = .next (stepDown u)) ∧
      (-50 ≤ celsius → celsius ≤ 125 → celsius < (rd u Reg.POWER.POWER_CONFIG_THROTTLE_TEMP : Int) → exec (.junctionReading celsius) s = .next u)) ∧
  (∀ (s w u v : State) (slack : Nat), s.mode ≠ .dormant → reachable s s.power.agingAt = true → w = advanceTo s s.power.agingAt → wr w Reg.POWER.POWER_STATUS_MARGIN (min slack 255) = u →
      setVdd u (agingTarget u slack) = v →
      (slack < rd u Reg.POWER.POWER_CONFIG_MARGIN_MIN → vdd u = 800 → 2 ≤ u.power.marginLow → exec (.agingCheck slack) s = .next (stepDown (raise
        { v with power := { v.power with marginLow := 0, learned := v.power.learned.put (eclk v) (vdd v), agingAt := nowNs v + 1000000000 } }
        Reg.POWER.POWER_EVENTS_AGING_LIMIT))) ∧
      (rd u Reg.POWER.POWER_CONFIG_MARGIN_MIN ≤ slack → exec (.agingCheck slack) s =
        .next { v with power := { v.power with marginLow := 0, learned := v.power.learned.put (eclk v) (vdd v), agingAt := nowNs v + 1000000000 } })) ∧
  (∀ (s : State) (kind index : Nat), enginesPowered s = true →
      ((countFailure s kind index).2 = true → exec (.engineFailure kind index false) s = .next (resetEngine (countFailure s kind index).1 kind index)) ∧
      ((countFailure s kind index).2 = false → exec (.engineFailure kind index false) s = .next (countFailure s kind index).1) ∧
      ((countFailure (countLaneError s kind index) kind index).2 = true → exec (.engineFailure kind index true) s =
        .next (resetEngine (countFailure (countLaneError s kind index) kind index).1 kind index))) ∧
  (∀ (s : State) (kind index : Nat), ∃ t, exec (.engineResetDone kind index) s = .next t ∧ t.faults.resetting.contains (engineId kind index) = false ∧
      (∀ e, e ≠ engineId kind index → t.faults.resetting.contains e = s.faults.resetting.contains e) ∧
      { t with faults := { t.faults with resetting := s.faults.resetting } } = s) ∧
  (∀ (s u : State) (link : Nat) (e : LinkError), linkMeets s link e = (u, true) → s.trust.zeroizing = false → inService u = true → u.trust.zeroizing = false →
      exec (.crownLinkFault ⟨link, e⟩) s = .next { fault u 0x50 21 0xFFFF (link % 2 ^ 16) 0 with faults :=
        { (fault u 0x50 21 0xFFFF (link % 2 ^ 16) 0).faults with linkPending := (fault u 0x50 21 0xFFFF (link % 2 ^ 16) 0).faults.linkPending ++ [linkOf link] } }) ∧
  (∀ (s u : State) (link : Nat) (e : LinkError), linkMeets s link e = (u, false) → exec (.crownLinkFault ⟨link, e⟩) s = .next u) ∧
  (∀ (s : State) (link : Nat), (dieCrossing (linkOf link) = false → (linkMeets s link .singleBit).2 = false ∧ (linkMeets s link .doubleBit).2 = true ∧
        (linkMeets s link .singleBit).1.crown.corrected.get link = some ((s.crown.corrected.get link).getD 0 + 1)) ∧
      (dieCrossing (linkOf link) = true → ∀ n : Nat, ((linkMeets s link (.crc n)).2 = true ↔ 9 ≤ n) ∧
        (linkMeets s link (.crc n)).1.crown.replays.get link = some ((s.crown.replays.get link).getD 0 + min 8 n)))

/-- For every PAIR, LONG and CONTROL word whose fields fit (WellFormed), with a NOP in the A slot written as a NOP without operands and no LONG
NOP: its 64 bits decode to it, so no bit of R247 to R249 is dropped and no two words share an encoding. The bits of a well-formed word are
fewer than 65, a word that decodes has fields that fit, and a word of the reserved format 3 decodes to none. -/
def Obligations.MittenWordsDecodeAsEncoded : Prop :=
  (∀ w : MWord, w.wf = true → (∀ a l, w = .pair a l → a.op = .nop → a = .idle) → (∀ o d i, w = .long o d i → o ≠ .nop) →
      MWord.ofBits w.bits = some w) ∧
  (∀ w : MWord, w.wf = true → w.bits < 2 ^ 64) ∧
  (∀ (v : Nat) (w : MWord), MWord.ofBits v = some w → w.wf = true) ∧
  (∀ v : Nat, bitsOf v 63 62 = 3 → MWord.ofBits v = none)
end

