-- ==== Sys2Proof/Laws/Directives.lean ====
section
/-!
SUPPORT. What the evaluation of a directive can do, said once: it waits, it is refused, or its own rule decides.
-/

namespace Sys2Proof.Machine

/-- A directive that passes has `checked` as the state of its own rules. -/
theorem check_of_passes {s : State} {h : DirHeader} {d : Directive} (p : passes s h d = true) :
    dirReady s = true ∧ cplReady s = true ∧ check (takeHead s) h d = .passed (checked s h d) := by
  simp only [passes, Bool.and_eq_true] at p
  refine ⟨p.1.1, p.1.2, ?_⟩
  have q := p.2
  unfold checked
  cases hc : check (takeHead s) h d <;> simp [hc, Verdict.isPassed] at q ⊢

/-- The outcome of a directive that passes, by its own rule. -/
theorem evaluate_of_passes {s : State} {h : DirHeader} {d : Directive} (p : passes s h d = true) :
    evaluate h d s =
      match ruleOf (entryAt s h d) (checked s h d) d with
      | .hold => .next s
      | .refuse status detail => .next (refuse (checked s h d) (entryAt s h d) status detail)
      | .done t detail result => .next (answered s h d t detail result)
      | .silent t => .next t := by
  obtain ⟨a, b, c⟩ := check_of_passes p
  unfold evaluate evaluateOne evaluateHead answered
  simp only [a, b, c, Bool.not_true, Bool.false_eq_true, if_false]
  cases ruleOf (entryAt s h d) (checked s h d) d <;> rfl

end Sys2Proof.Machine
end

