-- ==== Sys2Proof/Laws/Fixed.lean ====
section
/-!
SUPPORT. What no command changes: the queue of commands and the identity of the part. This file says it of a state and of
the outcome of a command; the files after it say it of every operation of the model.
-/

namespace Sys2Proof.Machine

/-- What no command changes: the queue, and the identity of the part that the fuses fix (R3). -/
structure Fixed where
  pending : List Instr
  is8832 : Bool
  gradeI : Bool
  dv : Bool

/-- The parts of `Fixed` from the queue and the fuses, and from the queue and the trust state. -/
def fixedOfFuses (p : List Instr) (f : Fuses) : Fixed := ⟨p, f.is8832, f.gradeI, f.dv⟩
def fixedOfTrust (p : List Instr) (t : TrustState) : Fixed := fixedOfFuses p t.fuses

/-- What no command changes, of a state. -/
def fixed (s : State) : Fixed := fixedOfTrust s.pending s.trust

@[simp] theorem fixed_fold (s : State) : fixedOfTrust s.pending s.trust = fixed s := rfl

@[simp] theorem fixedOfTrust_fold (p : List Instr) (t : TrustState) : fixedOfFuses p t.fuses = fixedOfTrust p t := rfl

@[simp] theorem fixedOfFuses_fold (p : List Instr) (f : Fuses) : Fixed.mk p f.is8832 f.gradeI f.dv = fixedOfFuses p f := rfl

@[simp] theorem fixedOfFuses_mk (p : List Instr) (x0 : Bool) (x1 : Bool) (x2 : Bool) (x3 : Nat) (x4 : Option Nat) (x5 : Nat) (x6 : List Byte) (x7 : Table (List Byte)) :
    fixedOfFuses p ⟨x0, x1, x2, x3, x4, x5, x6, x7⟩ = ⟨p, x0, x1, x2⟩ := rfl

@[simp] theorem fixed_mk (x0 : Mode) (x1 : List (Mode × Nat)) (x2 : Bool) (x3 : Table Nat) (x4 : HostState) (x5 : TimeState) (x6 : TrustState) (x7 : FaultState) (x8 : ProvingState) (x9 : PowerState) (x10 : List Charge) (x11 : List Host.Cell) (x12 : Table Room) (x13 : Table Participant) (x14 : Table Leg) (x15 : Table DecodeStream) (x16 : Table Buffer) (x17 : Table Composite) (x18 : Table EncodeStream) (x19 : Table AudioSource) (x20 : Table Nat) (x21 : Table Mix) (x22 : MittenState) (x23 : IngressState) (x24 : CipherState) (x25 : GauntletState) (x26 : BandState) (x27 : Table EthPort) (x28 : PonState) (x29 : CrownState) (x30 : NearState) (x31 : LiningState) (x32 : GloveState) (x33 : DmaState) (x34 : List Effect) (x35 : List Output) (x36 : Nat) (x37 : List Instr) :
    fixed ⟨x0, x1, x2, x3, x4, x5, x6, x7, x8, x9, x10, x11, x12, x13, x14, x15, x16, x17, x18, x19, x20, x21, x22, x23, x24, x25, x26, x27, x28, x29, x30, x31, x32, x33, x34, x35, x36, x37⟩ = fixedOfTrust x37 x6 := rfl

@[simp] theorem fixedOfTrust_mk (p : List Instr) (x0 : Fuses) (x1 : Option Image) (x2 : Bool) (x3 : Option Image) (x4 : List (VerifyPurpose × Image)) (x5 : Option Image) (x6 : Option Nat) (x7 : Generation) (x8 : Option Generation) (x9 : List (Nat × List Byte)) (x10 : List (Nat × Nat)) (x11 : Option Nat) (x12 : Option (Nat × Nat)) (x13 : Table KeyEntry) (x14 : List (Nat × Nat × Nat)) (x15 : Nat) (x16 : Nat) (x17 : Nat) (x18 : Nat) (x19 : Nat) (x20 : Nat) (x21 : Nat) (x22 : Bool) (x23 : List AttestRequest) (x24 : Nat) (x25 : Nat) (x26 : Bool) :
    fixedOfTrust p ⟨x0, x1, x2, x3, x4, x5, x6, x7, x8, x9, x10, x11, x12, x13, x14, x15, x16, x17, x18, x19, x20, x21, x22, x23, x24, x25, x26⟩ = fixedOfFuses p x0 := rfl

@[simp] theorem fixed_ite (c : Prop) [Decidable c] (a b : State) : fixed (if c then a else b) = if c then fixed a else fixed b :=
  apply_ite fixed c a b

/-- The outcome keeps what no command changes. -/
def Keeps (s : State) (o : Host.Outcome State Fault Refusal) : Prop :=
  match o with
  | .next t => fixed t = fixed s
  | _ => True

@[simp] theorem keeps_next (s t : State) : Keeps s (.next t) ↔ fixed t = fixed s := Iff.rfl
@[simp] theorem keeps_fault (s : State) (f : Fault) : Keeps s (.fault f) ↔ True := Iff.rfl
@[simp] theorem keeps_refused (s : State) (r : Refusal) : Keeps s (.refused r) ↔ True := Iff.rfl

@[simp] theorem keeps_ite (s : State) (c : Prop) [Decidable c] (a b : Host.Outcome State Fault Refusal) :
    Keeps s (if c then a else b) ↔ if c then Keeps s a else Keeps s b := by
  split <;> rfl

@[simp] theorem keeps_ok (s t : State) : Keeps s (ok t) ↔ fixed t = fixed s := Iff.rfl

/-- A fold keeps it if each of its steps does. -/
@[simp] theorem fixed_foldl {α : Type} (l : List α) (f : State → α → State) (h : ∀ s x, fixed (f s x) = fixed s) (s : State) :
    fixed (l.foldl f s) = fixed s := by
  induction l generalizing s with
  | nil => rfl
  | cons x l ih => simp [ih, h]

/-- Advancing the clock keeps it. -/
@[simp] theorem fixed_advanceTo (s : State) (t : Nat) : fixed (advanceTo s t) = fixed s := by
  unfold advanceTo State.withClock
  split <;> simp

/-- `reach` answers at most one state, and says which. -/
@[simp] theorem reach_eq_some (s : State) (t : Nat) (r : State) : reach s t = some r ↔ reachable s t = true ∧ advanceTo s t = r := by
  unfold reach
  split <;> simp_all

end Sys2Proof.Machine
end

