-- ==== Sys2Proof/Laws/State.lean ====
section
/-!
SUPPORT. What the named updates of the state leave: one lemma for each update and each field it does not change, so that no proof unfolds a
record update. What an update does to its own field stands in Laws/Tables.lean and Laws/Registers.lean.
-/

namespace Sys2Proof.Machine

/-! ### wr: all but regs -/

@[simp] theorem wr_mode (s : State) (f : Fld) (v : Nat) : (wr s f v).mode = s.mode := rfl
@[simp] theorem wr_modeRequests (s : State) (f : Fld) (v : Nat) : (wr s f v).modeRequests = s.modeRequests := rfl
@[simp] theorem wr_warming (s : State) (f : Fld) (v : Nat) : (wr s f v).warming = s.warming := rfl
@[simp] theorem wr_host (s : State) (f : Fld) (v : Nat) : (wr s f v).host = s.host := rfl
@[simp] theorem wr_time (s : State) (f : Fld) (v : Nat) : (wr s f v).time = s.time := rfl
@[simp] theorem wr_trust (s : State) (f : Fld) (v : Nat) : (wr s f v).trust = s.trust := rfl
@[simp] theorem wr_faults (s : State) (f : Fld) (v : Nat) : (wr s f v).faults = s.faults := rfl
@[simp] theorem wr_proving (s : State) (f : Fld) (v : Nat) : (wr s f v).proving = s.proving := rfl
@[simp] theorem wr_power (s : State) (f : Fld) (v : Nat) : (wr s f v).power = s.power := rfl
@[simp] theorem wr_ledger (s : State) (f : Fld) (v : Nat) : (wr s f v).ledger = s.ledger := rfl
@[simp] theorem wr_mem (s : State) (f : Fld) (v : Nat) : (wr s f v).mem = s.mem := rfl
@[simp] theorem wr_rooms (s : State) (f : Fld) (v : Nat) : (wr s f v).rooms = s.rooms := rfl
@[simp] theorem wr_participants (s : State) (f : Fld) (v : Nat) : (wr s f v).participants = s.participants := rfl
@[simp] theorem wr_legs (s : State) (f : Fld) (v : Nat) : (wr s f v).legs = s.legs := rfl
@[simp] theorem wr_decodes (s : State) (f : Fld) (v : Nat) : (wr s f v).decodes = s.decodes := rfl
@[simp] theorem wr_buffers (s : State) (f : Fld) (v : Nat) : (wr s f v).buffers = s.buffers := rfl
@[simp] theorem wr_composites (s : State) (f : Fld) (v : Nat) : (wr s f v).composites = s.composites := rfl
@[simp] theorem wr_encodes (s : State) (f : Fld) (v : Nat) : (wr s f v).encodes = s.encodes := rfl
@[simp] theorem wr_audio (s : State) (f : Fld) (v : Nat) : (wr s f v).audio = s.audio := rfl
@[simp] theorem wr_dither (s : State) (f : Fld) (v : Nat) : (wr s f v).dither = s.dither := rfl
@[simp] theorem wr_mixes (s : State) (f : Fld) (v : Nat) : (wr s f v).mixes = s.mixes := rfl
@[simp] theorem wr_mitten (s : State) (f : Fld) (v : Nat) : (wr s f v).mitten = s.mitten := rfl
@[simp] theorem wr_ingress (s : State) (f : Fld) (v : Nat) : (wr s f v).ingress = s.ingress := rfl
@[simp] theorem wr_cipher (s : State) (f : Fld) (v : Nat) : (wr s f v).cipher = s.cipher := rfl
@[simp] theorem wr_gauntlet (s : State) (f : Fld) (v : Nat) : (wr s f v).gauntlet = s.gauntlet := rfl
@[simp] theorem wr_band (s : State) (f : Fld) (v : Nat) : (wr s f v).band = s.band := rfl
@[simp] theorem wr_eth (s : State) (f : Fld) (v : Nat) : (wr s f v).eth = s.eth := rfl
@[simp] theorem wr_pon (s : State) (f : Fld) (v : Nat) : (wr s f v).pon = s.pon := rfl
@[simp] theorem wr_crown (s : State) (f : Fld) (v : Nat) : (wr s f v).crown = s.crown := rfl
@[simp] theorem wr_near (s : State) (f : Fld) (v : Nat) : (wr s f v).near = s.near := rfl
@[simp] theorem wr_lining (s : State) (f : Fld) (v : Nat) : (wr s f v).lining = s.lining := rfl
@[simp] theorem wr_glove (s : State) (f : Fld) (v : Nat) : (wr s f v).glove = s.glove := rfl
@[simp] theorem wr_dma (s : State) (f : Fld) (v : Nat) : (wr s f v).dma = s.dma := rfl
@[simp] theorem wr_effects (s : State) (f : Fld) (v : Nat) : (wr s f v).effects = s.effects := rfl
@[simp] theorem wr_out (s : State) (f : Fld) (v : Nat) : (wr s f v).out = s.out := rfl
@[simp] theorem wr_freeCount (s : State) (f : Fld) (v : Nat) : (wr s f v).freeCount = s.freeCount := rfl
@[simp] theorem wr_pending (s : State) (f : Fld) (v : Nat) : (wr s f v).pending = s.pending := rfl

/-! ### bumpBy: all but regs -/

@[simp] theorem bumpBy_mode (s : State) (f : Fld) (n : Nat) : (bumpBy s f n).mode = s.mode := rfl
@[simp] theorem bumpBy_modeRequests (s : State) (f : Fld) (n : Nat) : (bumpBy s f n).modeRequests = s.modeRequests := rfl
@[simp] theorem bumpBy_warming (s : State) (f : Fld) (n : Nat) : (bumpBy s f n).warming = s.warming := rfl
@[simp] theorem bumpBy_host (s : State) (f : Fld) (n : Nat) : (bumpBy s f n).host = s.host := rfl
@[simp] theorem bumpBy_time (s : State) (f : Fld) (n : Nat) : (bumpBy s f n).time = s.time := rfl
@[simp] theorem bumpBy_trust (s : State) (f : Fld) (n : Nat) : (bumpBy s f n).trust = s.trust := rfl
@[simp] theorem bumpBy_faults (s : State) (f : Fld) (n : Nat) : (bumpBy s f n).faults = s.faults := rfl
@[simp] theorem bumpBy_proving (s : State) (f : Fld) (n : Nat) : (bumpBy s f n).proving = s.proving := rfl
@[simp] theorem bumpBy_power (s : State) (f : Fld) (n : Nat) : (bumpBy s f n).power = s.power := rfl
@[simp] theorem bumpBy_ledger (s : State) (f : Fld) (n : Nat) : (bumpBy s f n).ledger = s.ledger := rfl
@[simp] theorem bumpBy_mem (s : State) (f : Fld) (n : Nat) : (bumpBy s f n).mem = s.mem := rfl
@[simp] theorem bumpBy_rooms (s : State) (f : Fld) (n : Nat) : (bumpBy s f n).rooms = s.rooms := rfl
@[simp] theorem bumpBy_participants (s : State) (f : Fld) (n : Nat) : (bumpBy s f n).participants = s.participants := rfl
@[simp] theorem bumpBy_legs (s : State) (f : Fld) (n : Nat) : (bumpBy s f n).legs = s.legs := rfl
@[simp] theorem bumpBy_decodes (s : State) (f : Fld) (n : Nat) : (bumpBy s f n).decodes = s.decodes := rfl
@[simp] theorem bumpBy_buffers (s : State) (f : Fld) (n : Nat) : (bumpBy s f n).buffers = s.buffers := rfl
@[simp] theorem bumpBy_composites (s : State) (f : Fld) (n : Nat) : (bumpBy s f n).composites = s.composites := rfl
@[simp] theorem bumpBy_encodes (s : State) (f : Fld) (n : Nat) : (bumpBy s f n).encodes = s.encodes := rfl
@[simp] theorem bumpBy_audio (s : State) (f : Fld) (n : Nat) : (bumpBy s f n).audio = s.audio := rfl
@[simp] theorem bumpBy_dither (s : State) (f : Fld) (n : Nat) : (bumpBy s f n).dither = s.dither := rfl
@[simp] theorem bumpBy_mixes (s : State) (f : Fld) (n : Nat) : (bumpBy s f n).mixes = s.mixes := rfl
@[simp] theorem bumpBy_mitten (s : State) (f : Fld) (n : Nat) : (bumpBy s f n).mitten = s.mitten := rfl
@[simp] theorem bumpBy_ingress (s : State) (f : Fld) (n : Nat) : (bumpBy s f n).ingress = s.ingress := rfl
@[simp] theorem bumpBy_cipher (s : State) (f : Fld) (n : Nat) : (bumpBy s f n).cipher = s.cipher := rfl
@[simp] theorem bumpBy_gauntlet (s : State) (f : Fld) (n : Nat) : (bumpBy s f n).gauntlet = s.gauntlet := rfl
@[simp] theorem bumpBy_band (s : State) (f : Fld) (n : Nat) : (bumpBy s f n).band = s.band := rfl
@[simp] theorem bumpBy_eth (s : State) (f : Fld) (n : Nat) : (bumpBy s f n).eth = s.eth := rfl
@[simp] theorem bumpBy_pon (s : State) (f : Fld) (n : Nat) : (bumpBy s f n).pon = s.pon := rfl
@[simp] theorem bumpBy_crown (s : State) (f : Fld) (n : Nat) : (bumpBy s f n).crown = s.crown := rfl
@[simp] theorem bumpBy_near (s : State) (f : Fld) (n : Nat) : (bumpBy s f n).near = s.near := rfl
@[simp] theorem bumpBy_lining (s : State) (f : Fld) (n : Nat) : (bumpBy s f n).lining = s.lining := rfl
@[simp] theorem bumpBy_glove (s : State) (f : Fld) (n : Nat) : (bumpBy s f n).glove = s.glove := rfl
@[simp] theorem bumpBy_dma (s : State) (f : Fld) (n : Nat) : (bumpBy s f n).dma = s.dma := rfl
@[simp] theorem bumpBy_effects (s : State) (f : Fld) (n : Nat) : (bumpBy s f n).effects = s.effects := rfl
@[simp] theorem bumpBy_out (s : State) (f : Fld) (n : Nat) : (bumpBy s f n).out = s.out := rfl
@[simp] theorem bumpBy_freeCount (s : State) (f : Fld) (n : Nat) : (bumpBy s f n).freeCount = s.freeCount := rfl
@[simp] theorem bumpBy_pending (s : State) (f : Fld) (n : Nat) : (bumpBy s f n).pending = s.pending := rfl

/-! ### bump: all but regs -/

@[simp] theorem bump_mode (s : State) (f : Fld) : (bump s f).mode = s.mode := rfl
@[simp] theorem bump_modeRequests (s : State) (f : Fld) : (bump s f).modeRequests = s.modeRequests := rfl
@[simp] theorem bump_warming (s : State) (f : Fld) : (bump s f).warming = s.warming := rfl
@[simp] theorem bump_host (s : State) (f : Fld) : (bump s f).host = s.host := rfl
@[simp] theorem bump_time (s : State) (f : Fld) : (bump s f).time = s.time := rfl
@[simp] theorem bump_trust (s : State) (f : Fld) : (bump s f).trust = s.trust := rfl
@[simp] theorem bump_faults (s : State) (f : Fld) : (bump s f).faults = s.faults := rfl
@[simp] theorem bump_proving (s : State) (f : Fld) : (bump s f).proving = s.proving := rfl
@[simp] theorem bump_power (s : State) (f : Fld) : (bump s f).power = s.power := rfl
@[simp] theorem bump_ledger (s : State) (f : Fld) : (bump s f).ledger = s.ledger := rfl
@[simp] theorem bump_mem (s : State) (f : Fld) : (bump s f).mem = s.mem := rfl
@[simp] theorem bump_rooms (s : State) (f : Fld) : (bump s f).rooms = s.rooms := rfl
@[simp] theorem bump_participants (s : State) (f : Fld) : (bump s f).participants = s.participants := rfl
@[simp] theorem bump_legs (s : State) (f : Fld) : (bump s f).legs = s.legs := rfl
@[simp] theorem bump_decodes (s : State) (f : Fld) : (bump s f).decodes = s.decodes := rfl
@[simp] theorem bump_buffers (s : State) (f : Fld) : (bump s f).buffers = s.buffers := rfl
@[simp] theorem bump_composites (s : State) (f : Fld) : (bump s f).composites = s.composites := rfl
@[simp] theorem bump_encodes (s : State) (f : Fld) : (bump s f).encodes = s.encodes := rfl
@[simp] theorem bump_audio (s : State) (f : Fld) : (bump s f).audio = s.audio := rfl
@[simp] theorem bump_dither (s : State) (f : Fld) : (bump s f).dither = s.dither := rfl
@[simp] theorem bump_mixes (s : State) (f : Fld) : (bump s f).mixes = s.mixes := rfl
@[simp] theorem bump_mitten (s : State) (f : Fld) : (bump s f).mitten = s.mitten := rfl
@[simp] theorem bump_ingress (s : State) (f : Fld) : (bump s f).ingress = s.ingress := rfl
@[simp] theorem bump_cipher (s : State) (f : Fld) : (bump s f).cipher = s.cipher := rfl
@[simp] theorem bump_gauntlet (s : State) (f : Fld) : (bump s f).gauntlet = s.gauntlet := rfl
@[simp] theorem bump_band (s : State) (f : Fld) : (bump s f).band = s.band := rfl
@[simp] theorem bump_eth (s : State) (f : Fld) : (bump s f).eth = s.eth := rfl
@[simp] theorem bump_pon (s : State) (f : Fld) : (bump s f).pon = s.pon := rfl
@[simp] theorem bump_crown (s : State) (f : Fld) : (bump s f).crown = s.crown := rfl
@[simp] theorem bump_near (s : State) (f : Fld) : (bump s f).near = s.near := rfl
@[simp] theorem bump_lining (s : State) (f : Fld) : (bump s f).lining = s.lining := rfl
@[simp] theorem bump_glove (s : State) (f : Fld) : (bump s f).glove = s.glove := rfl
@[simp] theorem bump_dma (s : State) (f : Fld) : (bump s f).dma = s.dma := rfl
@[simp] theorem bump_effects (s : State) (f : Fld) : (bump s f).effects = s.effects := rfl
@[simp] theorem bump_out (s : State) (f : Fld) : (bump s f).out = s.out := rfl
@[simp] theorem bump_freeCount (s : State) (f : Fld) : (bump s f).freeCount = s.freeCount := rfl
@[simp] theorem bump_pending (s : State) (f : Fld) : (bump s f).pending = s.pending := rfl

/-! ### emit: all but out -/

@[simp] theorem emit_mode (s : State) (o : Output) : (emit s o).mode = s.mode := rfl
@[simp] theorem emit_modeRequests (s : State) (o : Output) : (emit s o).modeRequests = s.modeRequests := rfl
@[simp] theorem emit_warming (s : State) (o : Output) : (emit s o).warming = s.warming := rfl
@[simp] theorem emit_regs (s : State) (o : Output) : (emit s o).regs = s.regs := rfl
@[simp] theorem emit_host (s : State) (o : Output) : (emit s o).host = s.host := rfl
@[simp] theorem emit_time (s : State) (o : Output) : (emit s o).time = s.time := rfl
@[simp] theorem emit_trust (s : State) (o : Output) : (emit s o).trust = s.trust := rfl
@[simp] theorem emit_faults (s : State) (o : Output) : (emit s o).faults = s.faults := rfl
@[simp] theorem emit_proving (s : State) (o : Output) : (emit s o).proving = s.proving := rfl
@[simp] theorem emit_power (s : State) (o : Output) : (emit s o).power = s.power := rfl
@[simp] theorem emit_ledger (s : State) (o : Output) : (emit s o).ledger = s.ledger := rfl
@[simp] theorem emit_mem (s : State) (o : Output) : (emit s o).mem = s.mem := rfl
@[simp] theorem emit_rooms (s : State) (o : Output) : (emit s o).rooms = s.rooms := rfl
@[simp] theorem emit_participants (s : State) (o : Output) : (emit s o).participants = s.participants := rfl
@[simp] theorem emit_legs (s : State) (o : Output) : (emit s o).legs = s.legs := rfl
@[simp] theorem emit_decodes (s : State) (o : Output) : (emit s o).decodes = s.decodes := rfl
@[simp] theorem emit_buffers (s : State) (o : Output) : (emit s o).buffers = s.buffers := rfl
@[simp] theorem emit_composites (s : State) (o : Output) : (emit s o).composites = s.composites := rfl
@[simp] theorem emit_encodes (s : State) (o : Output) : (emit s o).encodes = s.encodes := rfl
@[simp] theorem emit_audio (s : State) (o : Output) : (emit s o).audio = s.audio := rfl
@[simp] theorem emit_dither (s : State) (o : Output) : (emit s o).dither = s.dither := rfl
@[simp] theorem emit_mixes (s : State) (o : Output) : (emit s o).mixes = s.mixes := rfl
@[simp] theorem emit_mitten (s : State) (o : Output) : (emit s o).mitten = s.mitten := rfl
@[simp] theorem emit_ingress (s : State) (o : Output) : (emit s o).ingress = s.ingress := rfl
@[simp] theorem emit_cipher (s : State) (o : Output) : (emit s o).cipher = s.cipher := rfl
@[simp] theorem emit_gauntlet (s : State) (o : Output) : (emit s o).gauntlet = s.gauntlet := rfl
@[simp] theorem emit_band (s : State) (o : Output) : (emit s o).band = s.band := rfl
@[simp] theorem emit_eth (s : State) (o : Output) : (emit s o).eth = s.eth := rfl
@[simp] theorem emit_pon (s : State) (o : Output) : (emit s o).pon = s.pon := rfl
@[simp] theorem emit_crown (s : State) (o : Output) : (emit s o).crown = s.crown := rfl
@[simp] theorem emit_near (s : State) (o : Output) : (emit s o).near = s.near := rfl
@[simp] theorem emit_lining (s : State) (o : Output) : (emit s o).lining = s.lining := rfl
@[simp] theorem emit_glove (s : State) (o : Output) : (emit s o).glove = s.glove := rfl
@[simp] theorem emit_dma (s : State) (o : Output) : (emit s o).dma = s.dma := rfl
@[simp] theorem emit_effects (s : State) (o : Output) : (emit s o).effects = s.effects := rfl
@[simp] theorem emit_freeCount (s : State) (o : Output) : (emit s o).freeCount = s.freeCount := rfl
@[simp] theorem emit_pending (s : State) (o : Output) : (emit s o).pending = s.pending := rfl

/-! ### updDecode: all but decodes -/

@[simp] theorem updDecode_mode (s : State) (i : Nat) (f : DecodeStream → DecodeStream) : (updDecode s i f).mode = s.mode := rfl
@[simp] theorem updDecode_modeRequests (s : State) (i : Nat) (f : DecodeStream → DecodeStream) : (updDecode s i f).modeRequests = s.modeRequests := rfl
@[simp] theorem updDecode_warming (s : State) (i : Nat) (f : DecodeStream → DecodeStream) : (updDecode s i f).warming = s.warming := rfl
@[simp] theorem updDecode_regs (s : State) (i : Nat) (f : DecodeStream → DecodeStream) : (updDecode s i f).regs = s.regs := rfl
@[simp] theorem updDecode_host (s : State) (i : Nat) (f : DecodeStream → DecodeStream) : (updDecode s i f).host = s.host := rfl
@[simp] theorem updDecode_time (s : State) (i : Nat) (f : DecodeStream → DecodeStream) : (updDecode s i f).time = s.time := rfl
@[simp] theorem updDecode_trust (s : State) (i : Nat) (f : DecodeStream → DecodeStream) : (updDecode s i f).trust = s.trust := rfl
@[simp] theorem updDecode_faults (s : State) (i : Nat) (f : DecodeStream → DecodeStream) : (updDecode s i f).faults = s.faults := rfl
@[simp] theorem updDecode_proving (s : State) (i : Nat) (f : DecodeStream → DecodeStream) : (updDecode s i f).proving = s.proving := rfl
@[simp] theorem updDecode_power (s : State) (i : Nat) (f : DecodeStream → DecodeStream) : (updDecode s i f).power = s.power := rfl
@[simp] theorem updDecode_ledger (s : State) (i : Nat) (f : DecodeStream → DecodeStream) : (updDecode s i f).ledger = s.ledger := rfl
@[simp] theorem updDecode_mem (s : State) (i : Nat) (f : DecodeStream → DecodeStream) : (updDecode s i f).mem = s.mem := rfl
@[simp] theorem updDecode_rooms (s : State) (i : Nat) (f : DecodeStream → DecodeStream) : (updDecode s i f).rooms = s.rooms := rfl
@[simp] theorem updDecode_participants (s : State) (i : Nat) (f : DecodeStream → DecodeStream) : (updDecode s i f).participants = s.participants := rfl
@[simp] theorem updDecode_legs (s : State) (i : Nat) (f : DecodeStream → DecodeStream) : (updDecode s i f).legs = s.legs := rfl
@[simp] theorem updDecode_buffers (s : State) (i : Nat) (f : DecodeStream → DecodeStream) : (updDecode s i f).buffers = s.buffers := rfl
@[simp] theorem updDecode_composites (s : State) (i : Nat) (f : DecodeStream → DecodeStream) : (updDecode s i f).composites = s.composites := rfl
@[simp] theorem updDecode_encodes (s : State) (i : Nat) (f : DecodeStream → DecodeStream) : (updDecode s i f).encodes = s.encodes := rfl
@[simp] theorem updDecode_audio (s : State) (i : Nat) (f : DecodeStream → DecodeStream) : (updDecode s i f).audio = s.audio := rfl
@[simp] theorem updDecode_dither (s : State) (i : Nat) (f : DecodeStream → DecodeStream) : (updDecode s i f).dither = s.dither := rfl
@[simp] theorem updDecode_mixes (s : State) (i : Nat) (f : DecodeStream → DecodeStream) : (updDecode s i f).mixes = s.mixes := rfl
@[simp] theorem updDecode_mitten (s : State) (i : Nat) (f : DecodeStream → DecodeStream) : (updDecode s i f).mitten = s.mitten := rfl
@[simp] theorem updDecode_ingress (s : State) (i : Nat) (f : DecodeStream → DecodeStream) : (updDecode s i f).ingress = s.ingress := rfl
@[simp] theorem updDecode_cipher (s : State) (i : Nat) (f : DecodeStream → DecodeStream) : (updDecode s i f).cipher = s.cipher := rfl
@[simp] theorem updDecode_gauntlet (s : State) (i : Nat) (f : DecodeStream → DecodeStream) : (updDecode s i f).gauntlet = s.gauntlet := rfl
@[simp] theorem updDecode_band (s : State) (i : Nat) (f : DecodeStream → DecodeStream) : (updDecode s i f).band = s.band := rfl
@[simp] theorem updDecode_eth (s : State) (i : Nat) (f : DecodeStream → DecodeStream) : (updDecode s i f).eth = s.eth := rfl
@[simp] theorem updDecode_pon (s : State) (i : Nat) (f : DecodeStream → DecodeStream) : (updDecode s i f).pon = s.pon := rfl
@[simp] theorem updDecode_crown (s : State) (i : Nat) (f : DecodeStream → DecodeStream) : (updDecode s i f).crown = s.crown := rfl
@[simp] theorem updDecode_near (s : State) (i : Nat) (f : DecodeStream → DecodeStream) : (updDecode s i f).near = s.near := rfl
@[simp] theorem updDecode_lining (s : State) (i : Nat) (f : DecodeStream → DecodeStream) : (updDecode s i f).lining = s.lining := rfl
@[simp] theorem updDecode_glove (s : State) (i : Nat) (f : DecodeStream → DecodeStream) : (updDecode s i f).glove = s.glove := rfl
@[simp] theorem updDecode_dma (s : State) (i : Nat) (f : DecodeStream → DecodeStream) : (updDecode s i f).dma = s.dma := rfl
@[simp] theorem updDecode_effects (s : State) (i : Nat) (f : DecodeStream → DecodeStream) : (updDecode s i f).effects = s.effects := rfl
@[simp] theorem updDecode_out (s : State) (i : Nat) (f : DecodeStream → DecodeStream) : (updDecode s i f).out = s.out := rfl
@[simp] theorem updDecode_freeCount (s : State) (i : Nat) (f : DecodeStream → DecodeStream) : (updDecode s i f).freeCount = s.freeCount := rfl
@[simp] theorem updDecode_pending (s : State) (i : Nat) (f : DecodeStream → DecodeStream) : (updDecode s i f).pending = s.pending := rfl

/-! ### updSource: all but audio -/

@[simp] theorem updSource_mode (s : State) (l : Nat) (f : AudioSource → AudioSource) : (updSource s l f).mode = s.mode := rfl
@[simp] theorem updSource_modeRequests (s : State) (l : Nat) (f : AudioSource → AudioSource) : (updSource s l f).modeRequests = s.modeRequests := rfl
@[simp] theorem updSource_warming (s : State) (l : Nat) (f : AudioSource → AudioSource) : (updSource s l f).warming = s.warming := rfl
@[simp] theorem updSource_regs (s : State) (l : Nat) (f : AudioSource → AudioSource) : (updSource s l f).regs = s.regs := rfl
@[simp] theorem updSource_host (s : State) (l : Nat) (f : AudioSource → AudioSource) : (updSource s l f).host = s.host := rfl
@[simp] theorem updSource_time (s : State) (l : Nat) (f : AudioSource → AudioSource) : (updSource s l f).time = s.time := rfl
@[simp] theorem updSource_trust (s : State) (l : Nat) (f : AudioSource → AudioSource) : (updSource s l f).trust = s.trust := rfl
@[simp] theorem updSource_faults (s : State) (l : Nat) (f : AudioSource → AudioSource) : (updSource s l f).faults = s.faults := rfl
@[simp] theorem updSource_proving (s : State) (l : Nat) (f : AudioSource → AudioSource) : (updSource s l f).proving = s.proving := rfl
@[simp] theorem updSource_power (s : State) (l : Nat) (f : AudioSource → AudioSource) : (updSource s l f).power = s.power := rfl
@[simp] theorem updSource_ledger (s : State) (l : Nat) (f : AudioSource → AudioSource) : (updSource s l f).ledger = s.ledger := rfl
@[simp] theorem updSource_mem (s : State) (l : Nat) (f : AudioSource → AudioSource) : (updSource s l f).mem = s.mem := rfl
@[simp] theorem updSource_rooms (s : State) (l : Nat) (f : AudioSource → AudioSource) : (updSource s l f).rooms = s.rooms := rfl
@[simp] theorem updSource_participants (s : State) (l : Nat) (f : AudioSource → AudioSource) : (updSource s l f).participants = s.participants := rfl
@[simp] theorem updSource_legs (s : State) (l : Nat) (f : AudioSource → AudioSource) : (updSource s l f).legs = s.legs := rfl
@[simp] theorem updSource_decodes (s : State) (l : Nat) (f : AudioSource → AudioSource) : (updSource s l f).decodes = s.decodes := rfl
@[simp] theorem updSource_buffers (s : State) (l : Nat) (f : AudioSource → AudioSource) : (updSource s l f).buffers = s.buffers := rfl
@[simp] theorem updSource_composites (s : State) (l : Nat) (f : AudioSource → AudioSource) : (updSource s l f).composites = s.composites := rfl
@[simp] theorem updSource_encodes (s : State) (l : Nat) (f : AudioSource → AudioSource) : (updSource s l f).encodes = s.encodes := rfl
@[simp] theorem updSource_dither (s : State) (l : Nat) (f : AudioSource → AudioSource) : (updSource s l f).dither = s.dither := rfl
@[simp] theorem updSource_mixes (s : State) (l : Nat) (f : AudioSource → AudioSource) : (updSource s l f).mixes = s.mixes := rfl
@[simp] theorem updSource_mitten (s : State) (l : Nat) (f : AudioSource → AudioSource) : (updSource s l f).mitten = s.mitten := rfl
@[simp] theorem updSource_ingress (s : State) (l : Nat) (f : AudioSource → AudioSource) : (updSource s l f).ingress = s.ingress := rfl
@[simp] theorem updSource_cipher (s : State) (l : Nat) (f : AudioSource → AudioSource) : (updSource s l f).cipher = s.cipher := rfl
@[simp] theorem updSource_gauntlet (s : State) (l : Nat) (f : AudioSource → AudioSource) : (updSource s l f).gauntlet = s.gauntlet := rfl
@[simp] theorem updSource_band (s : State) (l : Nat) (f : AudioSource → AudioSource) : (updSource s l f).band = s.band := rfl
@[simp] theorem updSource_eth (s : State) (l : Nat) (f : AudioSource → AudioSource) : (updSource s l f).eth = s.eth := rfl
@[simp] theorem updSource_pon (s : State) (l : Nat) (f : AudioSource → AudioSource) : (updSource s l f).pon = s.pon := rfl
@[simp] theorem updSource_crown (s : State) (l : Nat) (f : AudioSource → AudioSource) : (updSource s l f).crown = s.crown := rfl
@[simp] theorem updSource_near (s : State) (l : Nat) (f : AudioSource → AudioSource) : (updSource s l f).near = s.near := rfl
@[simp] theorem updSource_lining (s : State) (l : Nat) (f : AudioSource → AudioSource) : (updSource s l f).lining = s.lining := rfl
@[simp] theorem updSource_glove (s : State) (l : Nat) (f : AudioSource → AudioSource) : (updSource s l f).glove = s.glove := rfl
@[simp] theorem updSource_dma (s : State) (l : Nat) (f : AudioSource → AudioSource) : (updSource s l f).dma = s.dma := rfl
@[simp] theorem updSource_effects (s : State) (l : Nat) (f : AudioSource → AudioSource) : (updSource s l f).effects = s.effects := rfl
@[simp] theorem updSource_out (s : State) (l : Nat) (f : AudioSource → AudioSource) : (updSource s l f).out = s.out := rfl
@[simp] theorem updSource_freeCount (s : State) (l : Nat) (f : AudioSource → AudioSource) : (updSource s l f).freeCount = s.freeCount := rfl
@[simp] theorem updSource_pending (s : State) (l : Nat) (f : AudioSource → AudioSource) : (updSource s l f).pending = s.pending := rfl

/-! ### updMix: all but mixes -/

@[simp] theorem updMix_mode (s : State) (r : Nat) (f : Mix → Mix) : (updMix s r f).mode = s.mode := rfl
@[simp] theorem updMix_modeRequests (s : State) (r : Nat) (f : Mix → Mix) : (updMix s r f).modeRequests = s.modeRequests := rfl
@[simp] theorem updMix_warming (s : State) (r : Nat) (f : Mix → Mix) : (updMix s r f).warming = s.warming := rfl
@[simp] theorem updMix_regs (s : State) (r : Nat) (f : Mix → Mix) : (updMix s r f).regs = s.regs := rfl
@[simp] theorem updMix_host (s : State) (r : Nat) (f : Mix → Mix) : (updMix s r f).host = s.host := rfl
@[simp] theorem updMix_time (s : State) (r : Nat) (f : Mix → Mix) : (updMix s r f).time = s.time := rfl
@[simp] theorem updMix_trust (s : State) (r : Nat) (f : Mix → Mix) : (updMix s r f).trust = s.trust := rfl
@[simp] theorem updMix_faults (s : State) (r : Nat) (f : Mix → Mix) : (updMix s r f).faults = s.faults := rfl
@[simp] theorem updMix_proving (s : State) (r : Nat) (f : Mix → Mix) : (updMix s r f).proving = s.proving := rfl
@[simp] theorem updMix_power (s : State) (r : Nat) (f : Mix → Mix) : (updMix s r f).power = s.power := rfl
@[simp] theorem updMix_ledger (s : State) (r : Nat) (f : Mix → Mix) : (updMix s r f).ledger = s.ledger := rfl
@[simp] theorem updMix_mem (s : State) (r : Nat) (f : Mix → Mix) : (updMix s r f).mem = s.mem := rfl
@[simp] theorem updMix_rooms (s : State) (r : Nat) (f : Mix → Mix) : (updMix s r f).rooms = s.rooms := rfl
@[simp] theorem updMix_participants (s : State) (r : Nat) (f : Mix → Mix) : (updMix s r f).participants = s.participants := rfl
@[simp] theorem updMix_legs (s : State) (r : Nat) (f : Mix → Mix) : (updMix s r f).legs = s.legs := rfl
@[simp] theorem updMix_decodes (s : State) (r : Nat) (f : Mix → Mix) : (updMix s r f).decodes = s.decodes := rfl
@[simp] theorem updMix_buffers (s : State) (r : Nat) (f : Mix → Mix) : (updMix s r f).buffers = s.buffers := rfl
@[simp] theorem updMix_composites (s : State) (r : Nat) (f : Mix → Mix) : (updMix s r f).composites = s.composites := rfl
@[simp] theorem updMix_encodes (s : State) (r : Nat) (f : Mix → Mix) : (updMix s r f).encodes = s.encodes := rfl
@[simp] theorem updMix_audio (s : State) (r : Nat) (f : Mix → Mix) : (updMix s r f).audio = s.audio := rfl
@[simp] theorem updMix_dither (s : State) (r : Nat) (f : Mix → Mix) : (updMix s r f).dither = s.dither := rfl
@[simp] theorem updMix_mitten (s : State) (r : Nat) (f : Mix → Mix) : (updMix s r f).mitten = s.mitten := rfl
@[simp] theorem updMix_ingress (s : State) (r : Nat) (f : Mix → Mix) : (updMix s r f).ingress = s.ingress := rfl
@[simp] theorem updMix_cipher (s : State) (r : Nat) (f : Mix → Mix) : (updMix s r f).cipher = s.cipher := rfl
@[simp] theorem updMix_gauntlet (s : State) (r : Nat) (f : Mix → Mix) : (updMix s r f).gauntlet = s.gauntlet := rfl
@[simp] theorem updMix_band (s : State) (r : Nat) (f : Mix → Mix) : (updMix s r f).band = s.band := rfl
@[simp] theorem updMix_eth (s : State) (r : Nat) (f : Mix → Mix) : (updMix s r f).eth = s.eth := rfl
@[simp] theorem updMix_pon (s : State) (r : Nat) (f : Mix → Mix) : (updMix s r f).pon = s.pon := rfl
@[simp] theorem updMix_crown (s : State) (r : Nat) (f : Mix → Mix) : (updMix s r f).crown = s.crown := rfl
@[simp] theorem updMix_near (s : State) (r : Nat) (f : Mix → Mix) : (updMix s r f).near = s.near := rfl
@[simp] theorem updMix_lining (s : State) (r : Nat) (f : Mix → Mix) : (updMix s r f).lining = s.lining := rfl
@[simp] theorem updMix_glove (s : State) (r : Nat) (f : Mix → Mix) : (updMix s r f).glove = s.glove := rfl
@[simp] theorem updMix_dma (s : State) (r : Nat) (f : Mix → Mix) : (updMix s r f).dma = s.dma := rfl
@[simp] theorem updMix_effects (s : State) (r : Nat) (f : Mix → Mix) : (updMix s r f).effects = s.effects := rfl
@[simp] theorem updMix_out (s : State) (r : Nat) (f : Mix → Mix) : (updMix s r f).out = s.out := rfl
@[simp] theorem updMix_freeCount (s : State) (r : Nat) (f : Mix → Mix) : (updMix s r f).freeCount = s.freeCount := rfl
@[simp] theorem updMix_pending (s : State) (r : Nat) (f : Mix → Mix) : (updMix s r f).pending = s.pending := rfl

/-! ### updEncode: all but encodes -/

@[simp] theorem updEncode_mode (s : State) (i : Nat) (f : EncodeStream → EncodeStream) : (updEncode s i f).mode = s.mode := rfl
@[simp] theorem updEncode_modeRequests (s : State) (i : Nat) (f : EncodeStream → EncodeStream) : (updEncode s i f).modeRequests = s.modeRequests := rfl
@[simp] theorem updEncode_warming (s : State) (i : Nat) (f : EncodeStream → EncodeStream) : (updEncode s i f).warming = s.warming := rfl
@[simp] theorem updEncode_regs (s : State) (i : Nat) (f : EncodeStream → EncodeStream) : (updEncode s i f).regs = s.regs := rfl
@[simp] theorem updEncode_host (s : State) (i : Nat) (f : EncodeStream → EncodeStream) : (updEncode s i f).host = s.host := rfl
@[simp] theorem updEncode_time (s : State) (i : Nat) (f : EncodeStream → EncodeStream) : (updEncode s i f).time = s.time := rfl
@[simp] theorem updEncode_trust (s : State) (i : Nat) (f : EncodeStream → EncodeStream) : (updEncode s i f).trust = s.trust := rfl
@[simp] theorem updEncode_faults (s : State) (i : Nat) (f : EncodeStream → EncodeStream) : (updEncode s i f).faults = s.faults := rfl
@[simp] theorem updEncode_proving (s : State) (i : Nat) (f : EncodeStream → EncodeStream) : (updEncode s i f).proving = s.proving := rfl
@[simp] theorem updEncode_power (s : State) (i : Nat) (f : EncodeStream → EncodeStream) : (updEncode s i f).power = s.power := rfl
@[simp] theorem updEncode_ledger (s : State) (i : Nat) (f : EncodeStream → EncodeStream) : (updEncode s i f).ledger = s.ledger := rfl
@[simp] theorem updEncode_mem (s : State) (i : Nat) (f : EncodeStream → EncodeStream) : (updEncode s i f).mem = s.mem := rfl
@[simp] theorem updEncode_rooms (s : State) (i : Nat) (f : EncodeStream → EncodeStream) : (updEncode s i f).rooms = s.rooms := rfl
@[simp] theorem updEncode_participants (s : State) (i : Nat) (f : EncodeStream → EncodeStream) : (updEncode s i f).participants = s.participants := rfl
@[simp] theorem updEncode_legs (s : State) (i : Nat) (f : EncodeStream → EncodeStream) : (updEncode s i f).legs = s.legs := rfl
@[simp] theorem updEncode_decodes (s : State) (i : Nat) (f : EncodeStream → EncodeStream) : (updEncode s i f).decodes = s.decodes := rfl
@[simp] theorem updEncode_buffers (s : State) (i : Nat) (f : EncodeStream → EncodeStream) : (updEncode s i f).buffers = s.buffers := rfl
@[simp] theorem updEncode_composites (s : State) (i : Nat) (f : EncodeStream → EncodeStream) : (updEncode s i f).composites = s.composites := rfl
@[simp] theorem updEncode_audio (s : State) (i : Nat) (f : EncodeStream → EncodeStream) : (updEncode s i f).audio = s.audio := rfl
@[simp] theorem updEncode_dither (s : State) (i : Nat) (f : EncodeStream → EncodeStream) : (updEncode s i f).dither = s.dither := rfl
@[simp] theorem updEncode_mixes (s : State) (i : Nat) (f : EncodeStream → EncodeStream) : (updEncode s i f).mixes = s.mixes := rfl
@[simp] theorem updEncode_mitten (s : State) (i : Nat) (f : EncodeStream → EncodeStream) : (updEncode s i f).mitten = s.mitten := rfl
@[simp] theorem updEncode_ingress (s : State) (i : Nat) (f : EncodeStream → EncodeStream) : (updEncode s i f).ingress = s.ingress := rfl
@[simp] theorem updEncode_cipher (s : State) (i : Nat) (f : EncodeStream → EncodeStream) : (updEncode s i f).cipher = s.cipher := rfl
@[simp] theorem updEncode_gauntlet (s : State) (i : Nat) (f : EncodeStream → EncodeStream) : (updEncode s i f).gauntlet = s.gauntlet := rfl
@[simp] theorem updEncode_band (s : State) (i : Nat) (f : EncodeStream → EncodeStream) : (updEncode s i f).band = s.band := rfl
@[simp] theorem updEncode_eth (s : State) (i : Nat) (f : EncodeStream → EncodeStream) : (updEncode s i f).eth = s.eth := rfl
@[simp] theorem updEncode_pon (s : State) (i : Nat) (f : EncodeStream → EncodeStream) : (updEncode s i f).pon = s.pon := rfl
@[simp] theorem updEncode_crown (s : State) (i : Nat) (f : EncodeStream → EncodeStream) : (updEncode s i f).crown = s.crown := rfl
@[simp] theorem updEncode_near (s : State) (i : Nat) (f : EncodeStream → EncodeStream) : (updEncode s i f).near = s.near := rfl
@[simp] theorem updEncode_lining (s : State) (i : Nat) (f : EncodeStream → EncodeStream) : (updEncode s i f).lining = s.lining := rfl
@[simp] theorem updEncode_glove (s : State) (i : Nat) (f : EncodeStream → EncodeStream) : (updEncode s i f).glove = s.glove := rfl
@[simp] theorem updEncode_dma (s : State) (i : Nat) (f : EncodeStream → EncodeStream) : (updEncode s i f).dma = s.dma := rfl
@[simp] theorem updEncode_effects (s : State) (i : Nat) (f : EncodeStream → EncodeStream) : (updEncode s i f).effects = s.effects := rfl
@[simp] theorem updEncode_out (s : State) (i : Nat) (f : EncodeStream → EncodeStream) : (updEncode s i f).out = s.out := rfl
@[simp] theorem updEncode_freeCount (s : State) (i : Nat) (f : EncodeStream → EncodeStream) : (updEncode s i f).freeCount = s.freeCount := rfl
@[simp] theorem updEncode_pending (s : State) (i : Nat) (f : EncodeStream → EncodeStream) : (updEncode s i f).pending = s.pending := rfl

/-! ### updTunnel: all but gauntlet -/

@[simp] theorem updTunnel_mode (s : State) (t : Nat) (f : Tunnel → Tunnel) : (updTunnel s t f).mode = s.mode := rfl
@[simp] theorem updTunnel_modeRequests (s : State) (t : Nat) (f : Tunnel → Tunnel) : (updTunnel s t f).modeRequests = s.modeRequests := rfl
@[simp] theorem updTunnel_warming (s : State) (t : Nat) (f : Tunnel → Tunnel) : (updTunnel s t f).warming = s.warming := rfl
@[simp] theorem updTunnel_regs (s : State) (t : Nat) (f : Tunnel → Tunnel) : (updTunnel s t f).regs = s.regs := rfl
@[simp] theorem updTunnel_host (s : State) (t : Nat) (f : Tunnel → Tunnel) : (updTunnel s t f).host = s.host := rfl
@[simp] theorem updTunnel_time (s : State) (t : Nat) (f : Tunnel → Tunnel) : (updTunnel s t f).time = s.time := rfl
@[simp] theorem updTunnel_trust (s : State) (t : Nat) (f : Tunnel → Tunnel) : (updTunnel s t f).trust = s.trust := rfl
@[simp] theorem updTunnel_faults (s : State) (t : Nat) (f : Tunnel → Tunnel) : (updTunnel s t f).faults = s.faults := rfl
@[simp] theorem updTunnel_proving (s : State) (t : Nat) (f : Tunnel → Tunnel) : (updTunnel s t f).proving = s.proving := rfl
@[simp] theorem updTunnel_power (s : State) (t : Nat) (f : Tunnel → Tunnel) : (updTunnel s t f).power = s.power := rfl
@[simp] theorem updTunnel_ledger (s : State) (t : Nat) (f : Tunnel → Tunnel) : (updTunnel s t f).ledger = s.ledger := rfl
@[simp] theorem updTunnel_mem (s : State) (t : Nat) (f : Tunnel → Tunnel) : (updTunnel s t f).mem = s.mem := rfl
@[simp] theorem updTunnel_rooms (s : State) (t : Nat) (f : Tunnel → Tunnel) : (updTunnel s t f).rooms = s.rooms := rfl
@[simp] theorem updTunnel_participants (s : State) (t : Nat) (f : Tunnel → Tunnel) : (updTunnel s t f).participants = s.participants := rfl
@[simp] theorem updTunnel_legs (s : State) (t : Nat) (f : Tunnel → Tunnel) : (updTunnel s t f).legs = s.legs := rfl
@[simp] theorem updTunnel_decodes (s : State) (t : Nat) (f : Tunnel → Tunnel) : (updTunnel s t f).decodes = s.decodes := rfl
@[simp] theorem updTunnel_buffers (s : State) (t : Nat) (f : Tunnel → Tunnel) : (updTunnel s t f).buffers = s.buffers := rfl
@[simp] theorem updTunnel_composites (s : State) (t : Nat) (f : Tunnel → Tunnel) : (updTunnel s t f).composites = s.composites := rfl
@[simp] theorem updTunnel_encodes (s : State) (t : Nat) (f : Tunnel → Tunnel) : (updTunnel s t f).encodes = s.encodes := rfl
@[simp] theorem updTunnel_audio (s : State) (t : Nat) (f : Tunnel → Tunnel) : (updTunnel s t f).audio = s.audio := rfl
@[simp] theorem updTunnel_dither (s : State) (t : Nat) (f : Tunnel → Tunnel) : (updTunnel s t f).dither = s.dither := rfl
@[simp] theorem updTunnel_mixes (s : State) (t : Nat) (f : Tunnel → Tunnel) : (updTunnel s t f).mixes = s.mixes := rfl
@[simp] theorem updTunnel_mitten (s : State) (t : Nat) (f : Tunnel → Tunnel) : (updTunnel s t f).mitten = s.mitten := rfl
@[simp] theorem updTunnel_ingress (s : State) (t : Nat) (f : Tunnel → Tunnel) : (updTunnel s t f).ingress = s.ingress := rfl
@[simp] theorem updTunnel_cipher (s : State) (t : Nat) (f : Tunnel → Tunnel) : (updTunnel s t f).cipher = s.cipher := rfl
@[simp] theorem updTunnel_band (s : State) (t : Nat) (f : Tunnel → Tunnel) : (updTunnel s t f).band = s.band := rfl
@[simp] theorem updTunnel_eth (s : State) (t : Nat) (f : Tunnel → Tunnel) : (updTunnel s t f).eth = s.eth := rfl
@[simp] theorem updTunnel_pon (s : State) (t : Nat) (f : Tunnel → Tunnel) : (updTunnel s t f).pon = s.pon := rfl
@[simp] theorem updTunnel_crown (s : State) (t : Nat) (f : Tunnel → Tunnel) : (updTunnel s t f).crown = s.crown := rfl
@[simp] theorem updTunnel_near (s : State) (t : Nat) (f : Tunnel → Tunnel) : (updTunnel s t f).near = s.near := rfl
@[simp] theorem updTunnel_lining (s : State) (t : Nat) (f : Tunnel → Tunnel) : (updTunnel s t f).lining = s.lining := rfl
@[simp] theorem updTunnel_glove (s : State) (t : Nat) (f : Tunnel → Tunnel) : (updTunnel s t f).glove = s.glove := rfl
@[simp] theorem updTunnel_dma (s : State) (t : Nat) (f : Tunnel → Tunnel) : (updTunnel s t f).dma = s.dma := rfl
@[simp] theorem updTunnel_effects (s : State) (t : Nat) (f : Tunnel → Tunnel) : (updTunnel s t f).effects = s.effects := rfl
@[simp] theorem updTunnel_out (s : State) (t : Nat) (f : Tunnel → Tunnel) : (updTunnel s t f).out = s.out := rfl
@[simp] theorem updTunnel_freeCount (s : State) (t : Nat) (f : Tunnel → Tunnel) : (updTunnel s t f).freeCount = s.freeCount := rfl
@[simp] theorem updTunnel_pending (s : State) (t : Nat) (f : Tunnel → Tunnel) : (updTunnel s t f).pending = s.pending := rfl

/-! ### updPart: all but participants -/

@[simp] theorem updPart_mode (s : State) (p : Nat) (f : Participant → Participant) : (updPart s p f).mode = s.mode := rfl
@[simp] theorem updPart_modeRequests (s : State) (p : Nat) (f : Participant → Participant) : (updPart s p f).modeRequests = s.modeRequests := rfl
@[simp] theorem updPart_warming (s : State) (p : Nat) (f : Participant → Participant) : (updPart s p f).warming = s.warming := rfl
@[simp] theorem updPart_regs (s : State) (p : Nat) (f : Participant → Participant) : (updPart s p f).regs = s.regs := rfl
@[simp] theorem updPart_host (s : State) (p : Nat) (f : Participant → Participant) : (updPart s p f).host = s.host := rfl
@[simp] theorem updPart_time (s : State) (p : Nat) (f : Participant → Participant) : (updPart s p f).time = s.time := rfl
@[simp] theorem updPart_trust (s : State) (p : Nat) (f : Participant → Participant) : (updPart s p f).trust = s.trust := rfl
@[simp] theorem updPart_faults (s : State) (p : Nat) (f : Participant → Participant) : (updPart s p f).faults = s.faults := rfl
@[simp] theorem updPart_proving (s : State) (p : Nat) (f : Participant → Participant) : (updPart s p f).proving = s.proving := rfl
@[simp] theorem updPart_power (s : State) (p : Nat) (f : Participant → Participant) : (updPart s p f).power = s.power := rfl
@[simp] theorem updPart_ledger (s : State) (p : Nat) (f : Participant → Participant) : (updPart s p f).ledger = s.ledger := rfl
@[simp] theorem updPart_mem (s : State) (p : Nat) (f : Participant → Participant) : (updPart s p f).mem = s.mem := rfl
@[simp] theorem updPart_rooms (s : State) (p : Nat) (f : Participant → Participant) : (updPart s p f).rooms = s.rooms := rfl
@[simp] theorem updPart_legs (s : State) (p : Nat) (f : Participant → Participant) : (updPart s p f).legs = s.legs := rfl
@[simp] theorem updPart_decodes (s : State) (p : Nat) (f : Participant → Participant) : (updPart s p f).decodes = s.decodes := rfl
@[simp] theorem updPart_buffers (s : State) (p : Nat) (f : Participant → Participant) : (updPart s p f).buffers = s.buffers := rfl
@[simp] theorem updPart_composites (s : State) (p : Nat) (f : Participant → Participant) : (updPart s p f).composites = s.composites := rfl
@[simp] theorem updPart_encodes (s : State) (p : Nat) (f : Participant → Participant) : (updPart s p f).encodes = s.encodes := rfl
@[simp] theorem updPart_audio (s : State) (p : Nat) (f : Participant → Participant) : (updPart s p f).audio = s.audio := rfl
@[simp] theorem updPart_dither (s : State) (p : Nat) (f : Participant → Participant) : (updPart s p f).dither = s.dither := rfl
@[simp] theorem updPart_mixes (s : State) (p : Nat) (f : Participant → Participant) : (updPart s p f).mixes = s.mixes := rfl
@[simp] theorem updPart_mitten (s : State) (p : Nat) (f : Participant → Participant) : (updPart s p f).mitten = s.mitten := rfl
@[simp] theorem updPart_ingress (s : State) (p : Nat) (f : Participant → Participant) : (updPart s p f).ingress = s.ingress := rfl
@[simp] theorem updPart_cipher (s : State) (p : Nat) (f : Participant → Participant) : (updPart s p f).cipher = s.cipher := rfl
@[simp] theorem updPart_gauntlet (s : State) (p : Nat) (f : Participant → Participant) : (updPart s p f).gauntlet = s.gauntlet := rfl
@[simp] theorem updPart_band (s : State) (p : Nat) (f : Participant → Participant) : (updPart s p f).band = s.band := rfl
@[simp] theorem updPart_eth (s : State) (p : Nat) (f : Participant → Participant) : (updPart s p f).eth = s.eth := rfl
@[simp] theorem updPart_pon (s : State) (p : Nat) (f : Participant → Participant) : (updPart s p f).pon = s.pon := rfl
@[simp] theorem updPart_crown (s : State) (p : Nat) (f : Participant → Participant) : (updPart s p f).crown = s.crown := rfl
@[simp] theorem updPart_near (s : State) (p : Nat) (f : Participant → Participant) : (updPart s p f).near = s.near := rfl
@[simp] theorem updPart_lining (s : State) (p : Nat) (f : Participant → Participant) : (updPart s p f).lining = s.lining := rfl
@[simp] theorem updPart_glove (s : State) (p : Nat) (f : Participant → Participant) : (updPart s p f).glove = s.glove := rfl
@[simp] theorem updPart_dma (s : State) (p : Nat) (f : Participant → Participant) : (updPart s p f).dma = s.dma := rfl
@[simp] theorem updPart_effects (s : State) (p : Nat) (f : Participant → Participant) : (updPart s p f).effects = s.effects := rfl
@[simp] theorem updPart_out (s : State) (p : Nat) (f : Participant → Participant) : (updPart s p f).out = s.out := rfl
@[simp] theorem updPart_freeCount (s : State) (p : Nat) (f : Participant → Participant) : (updPart s p f).freeCount = s.freeCount := rfl
@[simp] theorem updPart_pending (s : State) (p : Nat) (f : Participant → Participant) : (updPart s p f).pending = s.pending := rfl

/-! ### updLeg: all but legs -/

@[simp] theorem updLeg_mode (s : State) (l : Nat) (f : Leg → Leg) : (updLeg s l f).mode = s.mode := rfl
@[simp] theorem updLeg_modeRequests (s : State) (l : Nat) (f : Leg → Leg) : (updLeg s l f).modeRequests = s.modeRequests := rfl
@[simp] theorem updLeg_warming (s : State) (l : Nat) (f : Leg → Leg) : (updLeg s l f).warming = s.warming := rfl
@[simp] theorem updLeg_regs (s : State) (l : Nat) (f : Leg → Leg) : (updLeg s l f).regs = s.regs := rfl
@[simp] theorem updLeg_host (s : State) (l : Nat) (f : Leg → Leg) : (updLeg s l f).host = s.host := rfl
@[simp] theorem updLeg_time (s : State) (l : Nat) (f : Leg → Leg) : (updLeg s l f).time = s.time := rfl
@[simp] theorem updLeg_trust (s : State) (l : Nat) (f : Leg → Leg) : (updLeg s l f).trust = s.trust := rfl
@[simp] theorem updLeg_faults (s : State) (l : Nat) (f : Leg → Leg) : (updLeg s l f).faults = s.faults := rfl
@[simp] theorem updLeg_proving (s : State) (l : Nat) (f : Leg → Leg) : (updLeg s l f).proving = s.proving := rfl
@[simp] theorem updLeg_power (s : State) (l : Nat) (f : Leg → Leg) : (updLeg s l f).power = s.power := rfl
@[simp] theorem updLeg_ledger (s : State) (l : Nat) (f : Leg → Leg) : (updLeg s l f).ledger = s.ledger := rfl
@[simp] theorem updLeg_mem (s : State) (l : Nat) (f : Leg → Leg) : (updLeg s l f).mem = s.mem := rfl
@[simp] theorem updLeg_rooms (s : State) (l : Nat) (f : Leg → Leg) : (updLeg s l f).rooms = s.rooms := rfl
@[simp] theorem updLeg_participants (s : State) (l : Nat) (f : Leg → Leg) : (updLeg s l f).participants = s.participants := rfl
@[simp] theorem updLeg_decodes (s : State) (l : Nat) (f : Leg → Leg) : (updLeg s l f).decodes = s.decodes := rfl
@[simp] theorem updLeg_buffers (s : State) (l : Nat) (f : Leg → Leg) : (updLeg s l f).buffers = s.buffers := rfl
@[simp] theorem updLeg_composites (s : State) (l : Nat) (f : Leg → Leg) : (updLeg s l f).composites = s.composites := rfl
@[simp] theorem updLeg_encodes (s : State) (l : Nat) (f : Leg → Leg) : (updLeg s l f).encodes = s.encodes := rfl
@[simp] theorem updLeg_audio (s : State) (l : Nat) (f : Leg → Leg) : (updLeg s l f).audio = s.audio := rfl
@[simp] theorem updLeg_dither (s : State) (l : Nat) (f : Leg → Leg) : (updLeg s l f).dither = s.dither := rfl
@[simp] theorem updLeg_mixes (s : State) (l : Nat) (f : Leg → Leg) : (updLeg s l f).mixes = s.mixes := rfl
@[simp] theorem updLeg_mitten (s : State) (l : Nat) (f : Leg → Leg) : (updLeg s l f).mitten = s.mitten := rfl
@[simp] theorem updLeg_ingress (s : State) (l : Nat) (f : Leg → Leg) : (updLeg s l f).ingress = s.ingress := rfl
@[simp] theorem updLeg_cipher (s : State) (l : Nat) (f : Leg → Leg) : (updLeg s l f).cipher = s.cipher := rfl
@[simp] theorem updLeg_gauntlet (s : State) (l : Nat) (f : Leg → Leg) : (updLeg s l f).gauntlet = s.gauntlet := rfl
@[simp] theorem updLeg_band (s : State) (l : Nat) (f : Leg → Leg) : (updLeg s l f).band = s.band := rfl
@[simp] theorem updLeg_eth (s : State) (l : Nat) (f : Leg → Leg) : (updLeg s l f).eth = s.eth := rfl
@[simp] theorem updLeg_pon (s : State) (l : Nat) (f : Leg → Leg) : (updLeg s l f).pon = s.pon := rfl
@[simp] theorem updLeg_crown (s : State) (l : Nat) (f : Leg → Leg) : (updLeg s l f).crown = s.crown := rfl
@[simp] theorem updLeg_near (s : State) (l : Nat) (f : Leg → Leg) : (updLeg s l f).near = s.near := rfl
@[simp] theorem updLeg_lining (s : State) (l : Nat) (f : Leg → Leg) : (updLeg s l f).lining = s.lining := rfl
@[simp] theorem updLeg_glove (s : State) (l : Nat) (f : Leg → Leg) : (updLeg s l f).glove = s.glove := rfl
@[simp] theorem updLeg_dma (s : State) (l : Nat) (f : Leg → Leg) : (updLeg s l f).dma = s.dma := rfl
@[simp] theorem updLeg_effects (s : State) (l : Nat) (f : Leg → Leg) : (updLeg s l f).effects = s.effects := rfl
@[simp] theorem updLeg_out (s : State) (l : Nat) (f : Leg → Leg) : (updLeg s l f).out = s.out := rfl
@[simp] theorem updLeg_freeCount (s : State) (l : Nat) (f : Leg → Leg) : (updLeg s l f).freeCount = s.freeCount := rfl
@[simp] theorem updLeg_pending (s : State) (l : Nat) (f : Leg → Leg) : (updLeg s l f).pending = s.pending := rfl

/-! ### updComp: all but composites -/

@[simp] theorem updComp_mode (s : State) (i : Nat) (f : Composite → Composite) : (updComp s i f).mode = s.mode := rfl
@[simp] theorem updComp_modeRequests (s : State) (i : Nat) (f : Composite → Composite) : (updComp s i f).modeRequests = s.modeRequests := rfl
@[simp] theorem updComp_warming (s : State) (i : Nat) (f : Composite → Composite) : (updComp s i f).warming = s.warming := rfl
@[simp] theorem updComp_regs (s : State) (i : Nat) (f : Composite → Composite) : (updComp s i f).regs = s.regs := rfl
@[simp] theorem updComp_host (s : State) (i : Nat) (f : Composite → Composite) : (updComp s i f).host = s.host := rfl
@[simp] theorem updComp_time (s : State) (i : Nat) (f : Composite → Composite) : (updComp s i f).time = s.time := rfl
@[simp] theorem updComp_trust (s : State) (i : Nat) (f : Composite → Composite) : (updComp s i f).trust = s.trust := rfl
@[simp] theorem updComp_faults (s : State) (i : Nat) (f : Composite → Composite) : (updComp s i f).faults = s.faults := rfl
@[simp] theorem updComp_proving (s : State) (i : Nat) (f : Composite → Composite) : (updComp s i f).proving = s.proving := rfl
@[simp] theorem updComp_power (s : State) (i : Nat) (f : Composite → Composite) : (updComp s i f).power = s.power := rfl
@[simp] theorem updComp_ledger (s : State) (i : Nat) (f : Composite → Composite) : (updComp s i f).ledger = s.ledger := rfl
@[simp] theorem updComp_mem (s : State) (i : Nat) (f : Composite → Composite) : (updComp s i f).mem = s.mem := rfl
@[simp] theorem updComp_rooms (s : State) (i : Nat) (f : Composite → Composite) : (updComp s i f).rooms = s.rooms := rfl
@[simp] theorem updComp_participants (s : State) (i : Nat) (f : Composite → Composite) : (updComp s i f).participants = s.participants := rfl
@[simp] theorem updComp_legs (s : State) (i : Nat) (f : Composite → Composite) : (updComp s i f).legs = s.legs := rfl
@[simp] theorem updComp_decodes (s : State) (i : Nat) (f : Composite → Composite) : (updComp s i f).decodes = s.decodes := rfl
@[simp] theorem updComp_buffers (s : State) (i : Nat) (f : Composite → Composite) : (updComp s i f).buffers = s.buffers := rfl
@[simp] theorem updComp_encodes (s : State) (i : Nat) (f : Composite → Composite) : (updComp s i f).encodes = s.encodes := rfl
@[simp] theorem updComp_audio (s : State) (i : Nat) (f : Composite → Composite) : (updComp s i f).audio = s.audio := rfl
@[simp] theorem updComp_dither (s : State) (i : Nat) (f : Composite → Composite) : (updComp s i f).dither = s.dither := rfl
@[simp] theorem updComp_mixes (s : State) (i : Nat) (f : Composite → Composite) : (updComp s i f).mixes = s.mixes := rfl
@[simp] theorem updComp_mitten (s : State) (i : Nat) (f : Composite → Composite) : (updComp s i f).mitten = s.mitten := rfl
@[simp] theorem updComp_ingress (s : State) (i : Nat) (f : Composite → Composite) : (updComp s i f).ingress = s.ingress := rfl
@[simp] theorem updComp_cipher (s : State) (i : Nat) (f : Composite → Composite) : (updComp s i f).cipher = s.cipher := rfl
@[simp] theorem updComp_gauntlet (s : State) (i : Nat) (f : Composite → Composite) : (updComp s i f).gauntlet = s.gauntlet := rfl
@[simp] theorem updComp_band (s : State) (i : Nat) (f : Composite → Composite) : (updComp s i f).band = s.band := rfl
@[simp] theorem updComp_eth (s : State) (i : Nat) (f : Composite → Composite) : (updComp s i f).eth = s.eth := rfl
@[simp] theorem updComp_pon (s : State) (i : Nat) (f : Composite → Composite) : (updComp s i f).pon = s.pon := rfl
@[simp] theorem updComp_crown (s : State) (i : Nat) (f : Composite → Composite) : (updComp s i f).crown = s.crown := rfl
@[simp] theorem updComp_near (s : State) (i : Nat) (f : Composite → Composite) : (updComp s i f).near = s.near := rfl
@[simp] theorem updComp_lining (s : State) (i : Nat) (f : Composite → Composite) : (updComp s i f).lining = s.lining := rfl
@[simp] theorem updComp_glove (s : State) (i : Nat) (f : Composite → Composite) : (updComp s i f).glove = s.glove := rfl
@[simp] theorem updComp_dma (s : State) (i : Nat) (f : Composite → Composite) : (updComp s i f).dma = s.dma := rfl
@[simp] theorem updComp_effects (s : State) (i : Nat) (f : Composite → Composite) : (updComp s i f).effects = s.effects := rfl
@[simp] theorem updComp_out (s : State) (i : Nat) (f : Composite → Composite) : (updComp s i f).out = s.out := rfl
@[simp] theorem updComp_freeCount (s : State) (i : Nat) (f : Composite → Composite) : (updComp s i f).freeCount = s.freeCount := rfl
@[simp] theorem updComp_pending (s : State) (i : Nat) (f : Composite → Composite) : (updComp s i f).pending = s.pending := rfl

/-! ### updBuffer: all but buffers -/

@[simp] theorem updBuffer_mode (s : State) (b : Nat) (f : Buffer → Buffer) : (updBuffer s b f).mode = s.mode := rfl
@[simp] theorem updBuffer_modeRequests (s : State) (b : Nat) (f : Buffer → Buffer) : (updBuffer s b f).modeRequests = s.modeRequests := rfl
@[simp] theorem updBuffer_warming (s : State) (b : Nat) (f : Buffer → Buffer) : (updBuffer s b f).warming = s.warming := rfl
@[simp] theorem updBuffer_regs (s : State) (b : Nat) (f : Buffer → Buffer) : (updBuffer s b f).regs = s.regs := rfl
@[simp] theorem updBuffer_host (s : State) (b : Nat) (f : Buffer → Buffer) : (updBuffer s b f).host = s.host := rfl
@[simp] theorem updBuffer_time (s : State) (b : Nat) (f : Buffer → Buffer) : (updBuffer s b f).time = s.time := rfl
@[simp] theorem updBuffer_trust (s : State) (b : Nat) (f : Buffer → Buffer) : (updBuffer s b f).trust = s.trust := rfl
@[simp] theorem updBuffer_faults (s : State) (b : Nat) (f : Buffer → Buffer) : (updBuffer s b f).faults = s.faults := rfl
@[simp] theorem updBuffer_proving (s : State) (b : Nat) (f : Buffer → Buffer) : (updBuffer s b f).proving = s.proving := rfl
@[simp] theorem updBuffer_power (s : State) (b : Nat) (f : Buffer → Buffer) : (updBuffer s b f).power = s.power := rfl
@[simp] theorem updBuffer_ledger (s : State) (b : Nat) (f : Buffer → Buffer) : (updBuffer s b f).ledger = s.ledger := rfl
@[simp] theorem updBuffer_mem (s : State) (b : Nat) (f : Buffer → Buffer) : (updBuffer s b f).mem = s.mem := rfl
@[simp] theorem updBuffer_rooms (s : State) (b : Nat) (f : Buffer → Buffer) : (updBuffer s b f).rooms = s.rooms := rfl
@[simp] theorem updBuffer_participants (s : State) (b : Nat) (f : Buffer → Buffer) : (updBuffer s b f).participants = s.participants := rfl
@[simp] theorem updBuffer_legs (s : State) (b : Nat) (f : Buffer → Buffer) : (updBuffer s b f).legs = s.legs := rfl
@[simp] theorem updBuffer_decodes (s : State) (b : Nat) (f : Buffer → Buffer) : (updBuffer s b f).decodes = s.decodes := rfl
@[simp] theorem updBuffer_composites (s : State) (b : Nat) (f : Buffer → Buffer) : (updBuffer s b f).composites = s.composites := rfl
@[simp] theorem updBuffer_encodes (s : State) (b : Nat) (f : Buffer → Buffer) : (updBuffer s b f).encodes = s.encodes := rfl
@[simp] theorem updBuffer_audio (s : State) (b : Nat) (f : Buffer → Buffer) : (updBuffer s b f).audio = s.audio := rfl
@[simp] theorem updBuffer_dither (s : State) (b : Nat) (f : Buffer → Buffer) : (updBuffer s b f).dither = s.dither := rfl
@[simp] theorem updBuffer_mixes (s : State) (b : Nat) (f : Buffer → Buffer) : (updBuffer s b f).mixes = s.mixes := rfl
@[simp] theorem updBuffer_mitten (s : State) (b : Nat) (f : Buffer → Buffer) : (updBuffer s b f).mitten = s.mitten := rfl
@[simp] theorem updBuffer_ingress (s : State) (b : Nat) (f : Buffer → Buffer) : (updBuffer s b f).ingress = s.ingress := rfl
@[simp] theorem updBuffer_cipher (s : State) (b : Nat) (f : Buffer → Buffer) : (updBuffer s b f).cipher = s.cipher := rfl
@[simp] theorem updBuffer_gauntlet (s : State) (b : Nat) (f : Buffer → Buffer) : (updBuffer s b f).gauntlet = s.gauntlet := rfl
@[simp] theorem updBuffer_band (s : State) (b : Nat) (f : Buffer → Buffer) : (updBuffer s b f).band = s.band := rfl
@[simp] theorem updBuffer_eth (s : State) (b : Nat) (f : Buffer → Buffer) : (updBuffer s b f).eth = s.eth := rfl
@[simp] theorem updBuffer_pon (s : State) (b : Nat) (f : Buffer → Buffer) : (updBuffer s b f).pon = s.pon := rfl
@[simp] theorem updBuffer_crown (s : State) (b : Nat) (f : Buffer → Buffer) : (updBuffer s b f).crown = s.crown := rfl
@[simp] theorem updBuffer_near (s : State) (b : Nat) (f : Buffer → Buffer) : (updBuffer s b f).near = s.near := rfl
@[simp] theorem updBuffer_lining (s : State) (b : Nat) (f : Buffer → Buffer) : (updBuffer s b f).lining = s.lining := rfl
@[simp] theorem updBuffer_glove (s : State) (b : Nat) (f : Buffer → Buffer) : (updBuffer s b f).glove = s.glove := rfl
@[simp] theorem updBuffer_dma (s : State) (b : Nat) (f : Buffer → Buffer) : (updBuffer s b f).dma = s.dma := rfl
@[simp] theorem updBuffer_effects (s : State) (b : Nat) (f : Buffer → Buffer) : (updBuffer s b f).effects = s.effects := rfl
@[simp] theorem updBuffer_out (s : State) (b : Nat) (f : Buffer → Buffer) : (updBuffer s b f).out = s.out := rfl
@[simp] theorem updBuffer_freeCount (s : State) (b : Nat) (f : Buffer → Buffer) : (updBuffer s b f).freeCount = s.freeCount := rfl
@[simp] theorem updBuffer_pending (s : State) (b : Nat) (f : Buffer → Buffer) : (updBuffer s b f).pending = s.pending := rfl

/-! ### setCharges: all but ledger -/

@[simp] theorem setCharges_mode (s : State) (k i : Nat) (c : List Charge) : (setCharges s k i c).mode = s.mode := rfl
@[simp] theorem setCharges_modeRequests (s : State) (k i : Nat) (c : List Charge) : (setCharges s k i c).modeRequests = s.modeRequests := rfl
@[simp] theorem setCharges_warming (s : State) (k i : Nat) (c : List Charge) : (setCharges s k i c).warming = s.warming := rfl
@[simp] theorem setCharges_regs (s : State) (k i : Nat) (c : List Charge) : (setCharges s k i c).regs = s.regs := rfl
@[simp] theorem setCharges_host (s : State) (k i : Nat) (c : List Charge) : (setCharges s k i c).host = s.host := rfl
@[simp] theorem setCharges_time (s : State) (k i : Nat) (c : List Charge) : (setCharges s k i c).time = s.time := rfl
@[simp] theorem setCharges_trust (s : State) (k i : Nat) (c : List Charge) : (setCharges s k i c).trust = s.trust := rfl
@[simp] theorem setCharges_faults (s : State) (k i : Nat) (c : List Charge) : (setCharges s k i c).faults = s.faults := rfl
@[simp] theorem setCharges_proving (s : State) (k i : Nat) (c : List Charge) : (setCharges s k i c).proving = s.proving := rfl
@[simp] theorem setCharges_power (s : State) (k i : Nat) (c : List Charge) : (setCharges s k i c).power = s.power := rfl
@[simp] theorem setCharges_mem (s : State) (k i : Nat) (c : List Charge) : (setCharges s k i c).mem = s.mem := rfl
@[simp] theorem setCharges_rooms (s : State) (k i : Nat) (c : List Charge) : (setCharges s k i c).rooms = s.rooms := rfl
@[simp] theorem setCharges_participants (s : State) (k i : Nat) (c : List Charge) : (setCharges s k i c).participants = s.participants := rfl
@[simp] theorem setCharges_legs (s : State) (k i : Nat) (c : List Charge) : (setCharges s k i c).legs = s.legs := rfl
@[simp] theorem setCharges_decodes (s : State) (k i : Nat) (c : List Charge) : (setCharges s k i c).decodes = s.decodes := rfl
@[simp] theorem setCharges_buffers (s : State) (k i : Nat) (c : List Charge) : (setCharges s k i c).buffers = s.buffers := rfl
@[simp] theorem setCharges_composites (s : State) (k i : Nat) (c : List Charge) : (setCharges s k i c).composites = s.composites := rfl
@[simp] theorem setCharges_encodes (s : State) (k i : Nat) (c : List Charge) : (setCharges s k i c).encodes = s.encodes := rfl
@[simp] theorem setCharges_audio (s : State) (k i : Nat) (c : List Charge) : (setCharges s k i c).audio = s.audio := rfl
@[simp] theorem setCharges_dither (s : State) (k i : Nat) (c : List Charge) : (setCharges s k i c).dither = s.dither := rfl
@[simp] theorem setCharges_mixes (s : State) (k i : Nat) (c : List Charge) : (setCharges s k i c).mixes = s.mixes := rfl
@[simp] theorem setCharges_mitten (s : State) (k i : Nat) (c : List Charge) : (setCharges s k i c).mitten = s.mitten := rfl
@[simp] theorem setCharges_ingress (s : State) (k i : Nat) (c : List Charge) : (setCharges s k i c).ingress = s.ingress := rfl
@[simp] theorem setCharges_cipher (s : State) (k i : Nat) (c : List Charge) : (setCharges s k i c).cipher = s.cipher := rfl
@[simp] theorem setCharges_gauntlet (s : State) (k i : Nat) (c : List Charge) : (setCharges s k i c).gauntlet = s.gauntlet := rfl
@[simp] theorem setCharges_band (s : State) (k i : Nat) (c : List Charge) : (setCharges s k i c).band = s.band := rfl
@[simp] theorem setCharges_eth (s : State) (k i : Nat) (c : List Charge) : (setCharges s k i c).eth = s.eth := rfl
@[simp] theorem setCharges_pon (s : State) (k i : Nat) (c : List Charge) : (setCharges s k i c).pon = s.pon := rfl
@[simp] theorem setCharges_crown (s : State) (k i : Nat) (c : List Charge) : (setCharges s k i c).crown = s.crown := rfl
@[simp] theorem setCharges_near (s : State) (k i : Nat) (c : List Charge) : (setCharges s k i c).near = s.near := rfl
@[simp] theorem setCharges_lining (s : State) (k i : Nat) (c : List Charge) : (setCharges s k i c).lining = s.lining := rfl
@[simp] theorem setCharges_glove (s : State) (k i : Nat) (c : List Charge) : (setCharges s k i c).glove = s.glove := rfl
@[simp] theorem setCharges_dma (s : State) (k i : Nat) (c : List Charge) : (setCharges s k i c).dma = s.dma := rfl
@[simp] theorem setCharges_effects (s : State) (k i : Nat) (c : List Charge) : (setCharges s k i c).effects = s.effects := rfl
@[simp] theorem setCharges_out (s : State) (k i : Nat) (c : List Charge) : (setCharges s k i c).out = s.out := rfl
@[simp] theorem setCharges_freeCount (s : State) (k i : Nat) (c : List Charge) : (setCharges s k i c).freeCount = s.freeCount := rfl
@[simp] theorem setCharges_pending (s : State) (k i : Nat) (c : List Charge) : (setCharges s k i c).pending = s.pending := rfl

/-! ### releaseCharges: all but ledger -/

@[simp] theorem releaseCharges_mode (s : State) (k i : Nat) : (releaseCharges s k i).mode = s.mode := rfl
@[simp] theorem releaseCharges_modeRequests (s : State) (k i : Nat) : (releaseCharges s k i).modeRequests = s.modeRequests := rfl
@[simp] theorem releaseCharges_warming (s : State) (k i : Nat) : (releaseCharges s k i).warming = s.warming := rfl
@[simp] theorem releaseCharges_regs (s : State) (k i : Nat) : (releaseCharges s k i).regs = s.regs := rfl
@[simp] theorem releaseCharges_host (s : State) (k i : Nat) : (releaseCharges s k i).host = s.host := rfl
@[simp] theorem releaseCharges_time (s : State) (k i : Nat) : (releaseCharges s k i).time = s.time := rfl
@[simp] theorem releaseCharges_trust (s : State) (k i : Nat) : (releaseCharges s k i).trust = s.trust := rfl
@[simp] theorem releaseCharges_faults (s : State) (k i : Nat) : (releaseCharges s k i).faults = s.faults := rfl
@[simp] theorem releaseCharges_proving (s : State) (k i : Nat) : (releaseCharges s k i).proving = s.proving := rfl
@[simp] theorem releaseCharges_power (s : State) (k i : Nat) : (releaseCharges s k i).power = s.power := rfl
@[simp] theorem releaseCharges_mem (s : State) (k i : Nat) : (releaseCharges s k i).mem = s.mem := rfl
@[simp] theorem releaseCharges_rooms (s : State) (k i : Nat) : (releaseCharges s k i).rooms = s.rooms := rfl
@[simp] theorem releaseCharges_participants (s : State) (k i : Nat) : (releaseCharges s k i).participants = s.participants := rfl
@[simp] theorem releaseCharges_legs (s : State) (k i : Nat) : (releaseCharges s k i).legs = s.legs := rfl
@[simp] theorem releaseCharges_decodes (s : State) (k i : Nat) : (releaseCharges s k i).decodes = s.decodes := rfl
@[simp] theorem releaseCharges_buffers (s : State) (k i : Nat) : (releaseCharges s k i).buffers = s.buffers := rfl
@[simp] theorem releaseCharges_composites (s : State) (k i : Nat) : (releaseCharges s k i).composites = s.composites := rfl
@[simp] theorem releaseCharges_encodes (s : State) (k i : Nat) : (releaseCharges s k i).encodes = s.encodes := rfl
@[simp] theorem releaseCharges_audio (s : State) (k i : Nat) : (releaseCharges s k i).audio = s.audio := rfl
@[simp] theorem releaseCharges_dither (s : State) (k i : Nat) : (releaseCharges s k i).dither = s.dither := rfl
@[simp] theorem releaseCharges_mixes (s : State) (k i : Nat) : (releaseCharges s k i).mixes = s.mixes := rfl
@[simp] theorem releaseCharges_mitten (s : State) (k i : Nat) : (releaseCharges s k i).mitten = s.mitten := rfl
@[simp] theorem releaseCharges_ingress (s : State) (k i : Nat) : (releaseCharges s k i).ingress = s.ingress := rfl
@[simp] theorem releaseCharges_cipher (s : State) (k i : Nat) : (releaseCharges s k i).cipher = s.cipher := rfl
@[simp] theorem releaseCharges_gauntlet (s : State) (k i : Nat) : (releaseCharges s k i).gauntlet = s.gauntlet := rfl
@[simp] theorem releaseCharges_band (s : State) (k i : Nat) : (releaseCharges s k i).band = s.band := rfl
@[simp] theorem releaseCharges_eth (s : State) (k i : Nat) : (releaseCharges s k i).eth = s.eth := rfl
@[simp] theorem releaseCharges_pon (s : State) (k i : Nat) : (releaseCharges s k i).pon = s.pon := rfl
@[simp] theorem releaseCharges_crown (s : State) (k i : Nat) : (releaseCharges s k i).crown = s.crown := rfl
@[simp] theorem releaseCharges_near (s : State) (k i : Nat) : (releaseCharges s k i).near = s.near := rfl
@[simp] theorem releaseCharges_lining (s : State) (k i : Nat) : (releaseCharges s k i).lining = s.lining := rfl
@[simp] theorem releaseCharges_glove (s : State) (k i : Nat) : (releaseCharges s k i).glove = s.glove := rfl
@[simp] theorem releaseCharges_dma (s : State) (k i : Nat) : (releaseCharges s k i).dma = s.dma := rfl
@[simp] theorem releaseCharges_effects (s : State) (k i : Nat) : (releaseCharges s k i).effects = s.effects := rfl
@[simp] theorem releaseCharges_out (s : State) (k i : Nat) : (releaseCharges s k i).out = s.out := rfl
@[simp] theorem releaseCharges_freeCount (s : State) (k i : Nat) : (releaseCharges s k i).freeCount = s.freeCount := rfl
@[simp] theorem releaseCharges_pending (s : State) (k i : Nat) : (releaseCharges s k i).pending = s.pending := rfl

/-! ### withPon: all but pon -/

@[simp] theorem withPon_mode (s : State) (p : Nat) (f : PonPort → PonPort) : (withPon s p f).mode = s.mode := rfl
@[simp] theorem withPon_modeRequests (s : State) (p : Nat) (f : PonPort → PonPort) : (withPon s p f).modeRequests = s.modeRequests := rfl
@[simp] theorem withPon_warming (s : State) (p : Nat) (f : PonPort → PonPort) : (withPon s p f).warming = s.warming := rfl
@[simp] theorem withPon_regs (s : State) (p : Nat) (f : PonPort → PonPort) : (withPon s p f).regs = s.regs := rfl
@[simp] theorem withPon_host (s : State) (p : Nat) (f : PonPort → PonPort) : (withPon s p f).host = s.host := rfl
@[simp] theorem withPon_time (s : State) (p : Nat) (f : PonPort → PonPort) : (withPon s p f).time = s.time := rfl
@[simp] theorem withPon_trust (s : State) (p : Nat) (f : PonPort → PonPort) : (withPon s p f).trust = s.trust := rfl
@[simp] theorem withPon_faults (s : State) (p : Nat) (f : PonPort → PonPort) : (withPon s p f).faults = s.faults := rfl
@[simp] theorem withPon_proving (s : State) (p : Nat) (f : PonPort → PonPort) : (withPon s p f).proving = s.proving := rfl
@[simp] theorem withPon_power (s : State) (p : Nat) (f : PonPort → PonPort) : (withPon s p f).power = s.power := rfl
@[simp] theorem withPon_ledger (s : State) (p : Nat) (f : PonPort → PonPort) : (withPon s p f).ledger = s.ledger := rfl
@[simp] theorem withPon_mem (s : State) (p : Nat) (f : PonPort → PonPort) : (withPon s p f).mem = s.mem := rfl
@[simp] theorem withPon_rooms (s : State) (p : Nat) (f : PonPort → PonPort) : (withPon s p f).rooms = s.rooms := rfl
@[simp] theorem withPon_participants (s : State) (p : Nat) (f : PonPort → PonPort) : (withPon s p f).participants = s.participants := rfl
@[simp] theorem withPon_legs (s : State) (p : Nat) (f : PonPort → PonPort) : (withPon s p f).legs = s.legs := rfl
@[simp] theorem withPon_decodes (s : State) (p : Nat) (f : PonPort → PonPort) : (withPon s p f).decodes = s.decodes := rfl
@[simp] theorem withPon_buffers (s : State) (p : Nat) (f : PonPort → PonPort) : (withPon s p f).buffers = s.buffers := rfl
@[simp] theorem withPon_composites (s : State) (p : Nat) (f : PonPort → PonPort) : (withPon s p f).composites = s.composites := rfl
@[simp] theorem withPon_encodes (s : State) (p : Nat) (f : PonPort → PonPort) : (withPon s p f).encodes = s.encodes := rfl
@[simp] theorem withPon_audio (s : State) (p : Nat) (f : PonPort → PonPort) : (withPon s p f).audio = s.audio := rfl
@[simp] theorem withPon_dither (s : State) (p : Nat) (f : PonPort → PonPort) : (withPon s p f).dither = s.dither := rfl
@[simp] theorem withPon_mixes (s : State) (p : Nat) (f : PonPort → PonPort) : (withPon s p f).mixes = s.mixes := rfl
@[simp] theorem withPon_mitten (s : State) (p : Nat) (f : PonPort → PonPort) : (withPon s p f).mitten = s.mitten := rfl
@[simp] theorem withPon_ingress (s : State) (p : Nat) (f : PonPort → PonPort) : (withPon s p f).ingress = s.ingress := rfl
@[simp] theorem withPon_cipher (s : State) (p : Nat) (f : PonPort → PonPort) : (withPon s p f).cipher = s.cipher := rfl
@[simp] theorem withPon_gauntlet (s : State) (p : Nat) (f : PonPort → PonPort) : (withPon s p f).gauntlet = s.gauntlet := rfl
@[simp] theorem withPon_band (s : State) (p : Nat) (f : PonPort → PonPort) : (withPon s p f).band = s.band := rfl
@[simp] theorem withPon_eth (s : State) (p : Nat) (f : PonPort → PonPort) : (withPon s p f).eth = s.eth := rfl
@[simp] theorem withPon_crown (s : State) (p : Nat) (f : PonPort → PonPort) : (withPon s p f).crown = s.crown := rfl
@[simp] theorem withPon_near (s : State) (p : Nat) (f : PonPort → PonPort) : (withPon s p f).near = s.near := rfl
@[simp] theorem withPon_lining (s : State) (p : Nat) (f : PonPort → PonPort) : (withPon s p f).lining = s.lining := rfl
@[simp] theorem withPon_glove (s : State) (p : Nat) (f : PonPort → PonPort) : (withPon s p f).glove = s.glove := rfl
@[simp] theorem withPon_dma (s : State) (p : Nat) (f : PonPort → PonPort) : (withPon s p f).dma = s.dma := rfl
@[simp] theorem withPon_effects (s : State) (p : Nat) (f : PonPort → PonPort) : (withPon s p f).effects = s.effects := rfl
@[simp] theorem withPon_out (s : State) (p : Nat) (f : PonPort → PonPort) : (withPon s p f).out = s.out := rfl
@[simp] theorem withPon_freeCount (s : State) (p : Nat) (f : PonPort → PonPort) : (withPon s p f).freeCount = s.freeCount := rfl
@[simp] theorem withPon_pending (s : State) (p : Nat) (f : PonPort → PonPort) : (withPon s p f).pending = s.pending := rfl

/-! ### reseed: all but trust -/

@[simp] theorem reseed_mode (s : State) : (reseed s).mode = s.mode := rfl
@[simp] theorem reseed_modeRequests (s : State) : (reseed s).modeRequests = s.modeRequests := rfl
@[simp] theorem reseed_warming (s : State) : (reseed s).warming = s.warming := rfl
@[simp] theorem reseed_regs (s : State) : (reseed s).regs = s.regs := rfl
@[simp] theorem reseed_host (s : State) : (reseed s).host = s.host := rfl
@[simp] theorem reseed_time (s : State) : (reseed s).time = s.time := rfl
@[simp] theorem reseed_faults (s : State) : (reseed s).faults = s.faults := rfl
@[simp] theorem reseed_proving (s : State) : (reseed s).proving = s.proving := rfl
@[simp] theorem reseed_power (s : State) : (reseed s).power = s.power := rfl
@[simp] theorem reseed_ledger (s : State) : (reseed s).ledger = s.ledger := rfl
@[simp] theorem reseed_mem (s : State) : (reseed s).mem = s.mem := rfl
@[simp] theorem reseed_rooms (s : State) : (reseed s).rooms = s.rooms := rfl
@[simp] theorem reseed_participants (s : State) : (reseed s).participants = s.participants := rfl
@[simp] theorem reseed_legs (s : State) : (reseed s).legs = s.legs := rfl
@[simp] theorem reseed_decodes (s : State) : (reseed s).decodes = s.decodes := rfl
@[simp] theorem reseed_buffers (s : State) : (reseed s).buffers = s.buffers := rfl
@[simp] theorem reseed_composites (s : State) : (reseed s).composites = s.composites := rfl
@[simp] theorem reseed_encodes (s : State) : (reseed s).encodes = s.encodes := rfl
@[simp] theorem reseed_audio (s : State) : (reseed s).audio = s.audio := rfl
@[simp] theorem reseed_dither (s : State) : (reseed s).dither = s.dither := rfl
@[simp] theorem reseed_mixes (s : State) : (reseed s).mixes = s.mixes := rfl
@[simp] theorem reseed_mitten (s : State) : (reseed s).mitten = s.mitten := rfl
@[simp] theorem reseed_ingress (s : State) : (reseed s).ingress = s.ingress := rfl
@[simp] theorem reseed_cipher (s : State) : (reseed s).cipher = s.cipher := rfl
@[simp] theorem reseed_gauntlet (s : State) : (reseed s).gauntlet = s.gauntlet := rfl
@[simp] theorem reseed_band (s : State) : (reseed s).band = s.band := rfl
@[simp] theorem reseed_eth (s : State) : (reseed s).eth = s.eth := rfl
@[simp] theorem reseed_pon (s : State) : (reseed s).pon = s.pon := rfl
@[simp] theorem reseed_crown (s : State) : (reseed s).crown = s.crown := rfl
@[simp] theorem reseed_near (s : State) : (reseed s).near = s.near := rfl
@[simp] theorem reseed_lining (s : State) : (reseed s).lining = s.lining := rfl
@[simp] theorem reseed_glove (s : State) : (reseed s).glove = s.glove := rfl
@[simp] theorem reseed_dma (s : State) : (reseed s).dma = s.dma := rfl
@[simp] theorem reseed_effects (s : State) : (reseed s).effects = s.effects := rfl
@[simp] theorem reseed_out (s : State) : (reseed s).out = s.out := rfl
@[simp] theorem reseed_freeCount (s : State) : (reseed s).freeCount = s.freeCount := rfl
@[simp] theorem reseed_pending (s : State) : (reseed s).pending = s.pending := rfl

end Sys2Proof.Machine
end

