-- ==== Sys2Proof/Laws/Tables.lean ====
section
/-!
SUPPORT. Tables and internal memory: what a read gives after a write, and that every operation keeps the canonical form.
-/

namespace Sys2Proof.Machine

/-! ### Tables -/

@[simp] theorem Table.get_nil {α : Type} (k : Nat) : Table.get ([] : Table α) k = none := rfl

@[simp] theorem Table.get_put {α : Type} (t : Table α) (k : Nat) (v : α) (j : Nat) :
    (t.put k v).get j = if j = k then some v else t.get j := by
  induction t with
  | nil => simp [Table.put, Table.get, eq_comm]
  | cons e t ih =>
    obtain ⟨a, b⟩ := e
    unfold Table.put
    split
    · simp [Table.get, eq_comm]
    · split
      · rename_i h
        subst h
        by_cases g : j = k
        · simp [Table.get, g]
        · simp [Table.get, g, Ne.symm g]
      · simp only [Table.get, ih]
        by_cases g : a = j
        · simp [g, show j ≠ k by omega]
        · simp [g]

@[simp] theorem Table.get_del {α : Type} (t : Table α) (k j : Nat) : (t.del k).get j = if j = k then none else t.get j := by
  induction t with
  | nil => simp [Table.del, Table.get]
  | cons e t ih =>
    obtain ⟨a, b⟩ := e
    unfold Table.del at *
    by_cases h : a = k
    · simp only [List.filter, h, ne_eq, not_true_eq_false, decide_false, Table.get]
      rw [ih]
      by_cases g : j = k
      · simp [g]
      · simp [g, Ne.symm g]
    · simp only [List.filter, h, ne_eq, not_false_eq_true, decide_true, Table.get]
      rw [ih]
      by_cases g : a = j
      · simp [g, show j ≠ k from g ▸ h]
      · simp [g]

@[simp] theorem Table.get_update {α : Type} (t : Table α) (k : Nat) (f : α → α) (j : Nat) :
    (t.update k f).get j = if j = k then (t.get j).map f else t.get j := by
  induction t with
  | nil => simp [Table.update, Table.get]
  | cons e t ih =>
    obtain ⟨a, b⟩ := e
    unfold Table.update at *
    simp only [List.map_cons, Table.get]
    by_cases h : a = k
    · by_cases g : a = j
      · simp [h, show j = k by omega]
      · simp [h, show k ≠ j by omega, ih]
    · by_cases g : a = j
      · simp [g, show j ≠ k by omega]
      · simp [h, g, ih]

/-- The indices rise strictly, and the first stands above `n`. -/
def Table.wfFrom {α : Type} (n : Nat) : Table α → Bool
  | [] => true
  | e :: t => decide (n ≤ e.1) && Table.wfFrom (e.1 + 1) t

theorem Table.wfFrom_mono {α : Type} {m n : Nat} (h : m ≤ n) : ∀ {t : Table α}, t.wfFrom n = true → t.wfFrom m = true
  | [], _ => rfl
  | e :: t, w => by
    simp only [Table.wfFrom, Bool.and_eq_true, decide_eq_true_eq] at *
    exact ⟨by omega, w.2⟩

theorem Table.wf_cons {α : Type} (e : Nat × α) (t : Table α) : Table.wf (e :: t) = Table.wfFrom (e.1 + 1) t := by
  induction t generalizing e with
  | nil => rfl
  | cons b t ih =>
    simp only [Table.wf, ih, Table.wfFrom]
    rcases Decidable.em (e.1 < b.1) with h | h <;> simp [h]

theorem Table.wf_iff {α : Type} (t : Table α) : t.wf = t.wfFrom 0 := by
  cases t with
  | nil => rfl
  | cons e t => simp [Table.wf_cons, Table.wfFrom]

theorem Table.wfFrom_put {α : Type} (k : Nat) (v : α) : ∀ {n : Nat} {t : Table α}, n ≤ k → t.wfFrom n = true → (t.put k v).wfFrom n = true
  | n, [], h, _ => by simp [Table.put, Table.wfFrom, h]
  | n, e :: t, h, w => by
    simp only [Table.wfFrom, Bool.and_eq_true, decide_eq_true_eq] at w
    unfold Table.put
    split
    · simp only [Table.wfFrom, Bool.and_eq_true, decide_eq_true_eq]; exact ⟨h, by omega, w.2⟩
    · split
      · subst_vars; simp only [Table.wfFrom, Bool.and_eq_true, decide_eq_true_eq]; exact w
      · simp only [Table.wfFrom, Bool.and_eq_true, decide_eq_true_eq]
        exact ⟨w.1, Table.wfFrom_put k v (by omega) w.2⟩

/-- Setting an entry keeps the indices rising. -/
theorem Table.wf_put {α : Type} {t : Table α} (h : t.wf = true) (k : Nat) (v : α) : (t.put k v).wf = true := by
  rw [Table.wf_iff] at *
  exact Table.wfFrom_put k v (Nat.zero_le k) h

theorem Table.wfFrom_filter {α : Type} (p : Nat × α → Bool) : ∀ {n : Nat} {t : Table α}, t.wfFrom n = true → Table.wfFrom n (t.filter p) = true
  | _, [], _ => rfl
  | n, e :: t, w => by
    simp only [Table.wfFrom, Bool.and_eq_true, decide_eq_true_eq] at w
    have q := Table.wfFrom_filter p w.2
    rw [List.filter_cons]
    split
    · simp only [Table.wfFrom, Bool.and_eq_true, decide_eq_true_eq]; exact ⟨w.1, q⟩
    · exact Table.wfFrom_mono (by omega) q

/-- Taking an entry out keeps the indices rising. -/
theorem Table.wf_del {α : Type} {t : Table α} (h : t.wf = true) (k : Nat) : (t.del k).wf = true := by
  rw [Table.wf_iff] at *
  exact Table.wfFrom_filter _ h

theorem Table.wfFrom_map {α : Type} (f : Nat × α → Nat × α) (hf : ∀ e : Nat × α, (f e).1 = e.1) :
    ∀ {n : Nat} {t : Table α}, t.wfFrom n = true → Table.wfFrom n (t.map f) = true
  | _, [], _ => rfl
  | n, e :: t, w => by
    simp only [Table.wfFrom, Bool.and_eq_true, decide_eq_true_eq, List.map_cons] at *
    rw [hf]
    exact ⟨w.1, Table.wfFrom_map f hf w.2⟩

/-- Changing entries keeps the indices rising. -/
theorem Table.wf_update {α : Type} {t : Table α} (h : t.wf = true) (k : Nat) (f : α → α) : (t.update k f).wf = true := by
  rw [Table.wf_iff] at *
  exact Table.wfFrom_map (fun e => if e.1 = k then (e.1, f e.2) else e) (fun e => by split <;> rfl) h

theorem Table.wf_all {α : Type} {t : Table α} (h : t.wf = true) (f : Nat → α → α) : (t.all f).wf = true := by
  rw [Table.wf_iff] at *
  exact Table.wfFrom_map (fun e => (e.1, f e.1 e.2)) (fun _ => rfl) h

/-! ### Internal memory -/

/-- The canonical form, with every address at or above `n`. -/
def Memory.wfFrom (n : Nat) : List Host.Cell → Bool
  | [] => true
  | c :: t => decide (c.2 ≠ 0) && decide (n ≤ c.1) && Memory.wfFrom (c.1 + 1) t

theorem Memory.wfFrom_mono {m n : Nat} (h : m ≤ n) : ∀ {t : List Host.Cell}, Memory.wfFrom n t = true → Memory.wfFrom m t = true
  | [], _ => rfl
  | c :: t, w => by
    simp only [Memory.wfFrom, Bool.and_eq_true, decide_eq_true_eq] at *
    exact ⟨⟨w.1.1, by omega⟩, w.2⟩

theorem Memory.wf_cons (c : Host.Cell) (t : List Host.Cell) : Memory.wf (c :: t) = (decide (c.2 ≠ 0) && Memory.wfFrom (c.1 + 1) t) := by
  induction t generalizing c with
  | nil => simp [Memory.wf, Memory.wfFrom]
  | cons b t ih =>
    simp only [Memory.wf, ih, Memory.wfFrom]
    rcases Decidable.em (c.1 < b.1) with h | h
    · simp [h, Nat.succ_le_of_lt h]
    · simp [h, show ¬ (c.1 + 1 ≤ b.1) by omega]

theorem Memory.wf_iff (m : List Host.Cell) : Memory.wf m = Memory.wfFrom 0 m := by
  cases m with
  | nil => rfl
  | cons c t => simp [Memory.wf_cons, Memory.wfFrom]

theorem Memory.wfFrom_put (a : Nat) (v : Byte) : ∀ {n : Nat} {m : List Host.Cell}, n ≤ a → Memory.wfFrom n m = true → Memory.wfFrom n (memPut m a v) = true
  | n, [], h, _ => by
    unfold memPut; split
    · rfl
    · simp_all [Memory.wfFrom]
  | n, (b, w) :: t, h, q => by
    simp only [Memory.wfFrom, Bool.and_eq_true, decide_eq_true_eq] at q
    unfold memPut
    split
    · split
      · simp only [Memory.wfFrom, Bool.and_eq_true, decide_eq_true_eq]; exact q
      · simp only [Memory.wfFrom, Bool.and_eq_true, decide_eq_true_eq]; exact ⟨⟨by assumption, h⟩, ⟨q.1.1, by omega⟩, q.2⟩
    · split
      · split
        · exact Memory.wfFrom_mono (by omega) q.2
        · subst_vars; simp only [Memory.wfFrom, Bool.and_eq_true, decide_eq_true_eq]; exact ⟨⟨by assumption, h⟩, q.2⟩
      · simp only [Memory.wfFrom, Bool.and_eq_true, decide_eq_true_eq]
        exact ⟨q.1, Memory.wfFrom_put a v (by omega) q.2⟩

/-- Writing a byte keeps the canonical form. -/
theorem Memory.wf_put {m : List Host.Cell} (h : Memory.wf m = true) (a : Nat) (v : Byte) : Memory.wf (memPut m a v) = true := by
  rw [Memory.wf_iff] at *
  exact Memory.wfFrom_put a v (Nat.zero_le a) h

/-- Writing bytes keeps the canonical form. -/
theorem Memory.wf_write : ∀ (l : List Byte) {m : List Host.Cell} (a : Nat), Memory.wf m = true → Memory.wf (memWrite m a l) = true
  | [], _, _, h => h
  | v :: l, _, a, h => Memory.wf_write l (a + 1) (Memory.wf_put h a v)

theorem Memory.wfFrom_filter (p : Host.Cell → Bool) : ∀ {n : Nat} {m : List Host.Cell}, Memory.wfFrom n m = true → Memory.wfFrom n (m.filter p) = true
  | _, [], _ => rfl
  | n, c :: t, w => by
    simp only [Memory.wfFrom, Bool.and_eq_true, decide_eq_true_eq] at w
    have q := Memory.wfFrom_filter p w.2
    rw [List.filter_cons]
    split
    · simp only [Memory.wfFrom, Bool.and_eq_true, decide_eq_true_eq]; exact ⟨w.1, q⟩
    · exact Memory.wfFrom_mono (by omega) q

/-- Taking cells out keeps the canonical form. -/
theorem Memory.wf_filter {m : List Host.Cell} (h : Memory.wf m = true) (p : Host.Cell → Bool) : Memory.wf (m.filter p) = true := by
  rw [Memory.wf_iff] at *
  exact Memory.wfFrom_filter p h

/-- Clearing a range keeps the canonical form. -/
theorem Memory.wf_clear {m : List Host.Cell} (h : Memory.wf m = true) (a n : Nat) : Memory.wf (memClear m a n) = true := Memory.wf_filter h _

theorem memByte_below : ∀ {m : List Host.Cell} {n a : Nat}, Memory.wfFrom n m = true → a < n → memByte m a = 0
  | [], _, _, _, _ => rfl
  | (b, w) :: t, n, a, q, h => by
    simp only [Memory.wfFrom, Bool.and_eq_true, decide_eq_true_eq] at q
    have e : b ≠ a := by omega
    simp only [memByte, e, if_false]
    exact memByte_below q.2 (by omega)

theorem memByte_put_from (a : Nat) (v : Byte) : ∀ {m : List Host.Cell} {n : Nat} (_ : Memory.wfFrom n m = true) (x : Nat),
    memByte (memPut m a v) x = if x = a then v else memByte m x
  | [], _, _, x => by
    unfold memPut
    by_cases e : x = a
    · split <;> simp_all [memByte]
    · split <;> simp [memByte, Ne.symm e]
  | (b, w) :: t, n, q, x => by
    simp only [Memory.wfFrom, Bool.and_eq_true, decide_eq_true_eq] at q
    have low : ∀ y, y < b + 1 → memByte t y = 0 := fun y h => memByte_below q.2 h
    unfold memPut
    by_cases e : x = a
    · subst e
      simp only [if_true]
      rcases Nat.lt_trichotomy x b with h | h | h
      · by_cases z : v = 0
        · rw [if_pos h, if_pos z, memByte, if_neg (by omega), low x (by omega), z]
        · rw [if_pos h, if_neg z, memByte, if_pos rfl]
      · by_cases z : v = 0
        · rw [if_neg (by omega), if_pos h, if_pos z, low x (by omega), z]
        · rw [if_neg (by omega), if_pos h, if_neg z, memByte, if_pos rfl]
      · rw [if_neg (by omega), if_neg (by omega), memByte, if_neg (by omega), memByte_put_from x v q.2 x, if_pos rfl]
    · simp only [e, if_false]
      rcases Nat.lt_trichotomy a b with h | h | h
      · by_cases z : v = 0
        · rw [if_pos h, if_pos z]
        · rw [if_pos h, if_neg z, memByte, if_neg (Ne.symm e)]
      · rw [if_neg (by omega), if_pos h]
        by_cases z : v = 0
        · rw [if_pos z, memByte, if_neg (by omega)]
        · rw [if_neg z, memByte, if_neg (Ne.symm e), memByte, if_neg (by omega)]
      · rw [if_neg (by omega), if_neg (by omega), memByte, memByte, memByte_put_from a v q.2 x, if_neg e]

/-- A read after a write of one byte. -/
theorem memByte_put {m : List Host.Cell} (h : Memory.wf m = true) (a : Nat) (v : Byte) (x : Nat) :
    memByte (memPut m a v) x = if x = a then v else memByte m x := by
  rw [Memory.wf_iff] at h
  exact memByte_put_from a v h x

/-- Every byte outside the bytes written reads as before. -/
theorem memByte_write_outside : ∀ (l : List Byte) {m : List Host.Cell} (a x : Nat), Memory.wf m = true → x < a ∨ a + l.length ≤ x →
    memByte (memWrite m a l) x = memByte m x
  | [], _, _, _, _, _ => rfl
  | v :: l, m, a, x, h, o => by
    simp only [List.length_cons] at o
    rw [memWrite, memByte_write_outside l (a + 1) x (Memory.wf_put h a v) (by omega), memByte_put h]
    simp [show x ≠ a by omega]

/-- The bytes written read back. -/
theorem memRead_write : ∀ (l : List Byte) {m : List Host.Cell} (a : Nat), Memory.wf m = true → memRead (memWrite m a l) a l.length = l
  | [], _, _, _ => rfl
  | v :: l, m, a, h => by
    have w := Memory.wf_put h a v
    simp only [memWrite, memRead, List.length_cons]
    rw [memRead_write l (a + 1) w, memByte_write_outside l (a + 1) a w (by omega), memByte_put h]
    simp

end Sys2Proof.Machine
end

