-- ==== Sys2Proof/Laws/Registers.lean ====
section
/-!
SUPPORT. The register file and the operations that write it: what a field reads as afterwards, and all that a counter, a flag, an event and a fault can change.
-/

namespace Sys2Proof.Machine

/-- A field reads as what was written to it, cut to its width. -/
@[simp] theorem rd_wr (s : State) (f : Fld) (v : Nat) : rd (wr s f v) f = v % 2 ^ f.width := by
  unfold rd wr; split <;> simp_all

/-- Every other field reads as before. -/
theorem rd_wr_ne (s : State) {f g : Fld} (v : Nat) (h : g.key ≠ f.key) : rd (wr s f v) g = rd s g := by
  unfold rd wr; split <;> simp_all

/-- A counter goes up by `n` and stays at all ones. -/
@[simp] theorem rd_bumpBy (s : State) (f : Fld) (n : Nat) : rd (bumpBy s f n) f = min (rd s f + n) (2 ^ f.width - 1) := by
  unfold bumpBy
  rw [rd_wr]
  exact Nat.mod_eq_of_lt (by have := Nat.two_pow_pos f.width; omega)

theorem rd_bumpBy_ne (s : State) {f g : Fld} (n : Nat) (h : g.key ≠ f.key) : rd (bumpBy s f n) g = rd s g := rd_wr_ne s _ h

/-- What a state may have changed to where only registers, the host's side and the record of what left have changed. -/
def OnlyHost (s t : State) : Prop := ∃ r h o, t = { s with regs := r, host := h, out := o }

theorem OnlyHost.refl (s : State) : OnlyHost s s := ⟨s.regs, s.host, s.out, rfl⟩

theorem OnlyHost.trans {s t u : State} (a : OnlyHost s t) (b : OnlyHost t u) : OnlyHost s u := by
  obtain ⟨_, _, _, rfl⟩ := a
  obtain ⟨r, h, o, rfl⟩ := b
  exact ⟨r, h, o, rfl⟩

theorem wr_onlyHost (s : State) (f : Fld) (v : Nat) : OnlyHost s (wr s f v) := ⟨_, s.host, s.out, rfl⟩

theorem bump_onlyHost (s : State) (f : Fld) : OnlyHost s (bump s f) := wr_onlyHost s f _

theorem emit_onlyHost (s : State) (o : Output) : OnlyHost s (emit s o) := ⟨s.regs, s.host, _, rfl⟩

theorem host_onlyHost (s : State) (h : HostState) : OnlyHost s { s with host := h } := ⟨s.regs, h, s.out, rfl⟩

theorem signal_onlyHost (s : State) (v : Nat) : OnlyHost s (signal s v) := by
  unfold signal
  split
  · exact host_onlyHost s _
  · exact emit_onlyHost s _

theorem moderateEvt_onlyHost (s : State) (b : Bool) : OnlyHost s (moderateEvt s b) := by
  unfold moderateEvt
  dsimp only
  split
  · exact (host_onlyHost s _).trans (signal_onlyHost _ _)
  · exact host_onlyHost s _

theorem putEvent_onlyHost (s : State) (block stamp : Nat) (d : EventData) (b : Bool) : OnlyHost s (putEvent s block stamp d b) :=
  (emit_onlyHost s _).trans ((wr_onlyHost _ _ _).trans ((bump_onlyHost _ _).trans (moderateEvt_onlyHost _ _)))

theorem loseEvent_onlyHost (s : State) : OnlyHost s (loseEvent s) := (host_onlyHost s _).trans (bump_onlyHost _ _)

/-- An event, written or lost, changes registers, the host's side and the record of what left. -/
theorem event_onlyHost (s : State) (block stamp : Nat) (d : EventData) (b : Bool) : OnlyHost s (event s block stamp d b) := by
  have tail : ∀ t : State, OnlyHost t (if evtOpen t then putEvent t block stamp d b
      else if rd (loseEvent t) Reg.EVENT.EVENT_FLAGS_OVERFLOW = 1 then loseEvent t
        else loseEvent (wr (loseEvent t) Reg.EVENT.EVENT_FLAGS_OVERFLOW 1)) := by
    intro t
    split
    · exact putEvent_onlyHost t _ _ _ _
    · split
      · exact loseEvent_onlyHost t
      · exact (loseEvent_onlyHost t).trans ((wr_onlyHost _ _ _).trans (loseEvent_onlyHost _))
  unfold event
  split
  · exact loseEvent_onlyHost s
  · dsimp only
    split
    · exact ((host_onlyHost s _).trans (putEvent_onlyHost _ _ _ _ _)).trans (tail _)
    · exact tail s

theorem wrFold_onlyHost (l : List Fld) (v : Nat) : ∀ s : State, OnlyHost s (l.foldl (fun s g => wr s g v) s) := by
  induction l with
  | nil => exact OnlyHost.refl
  | cons f l ih => exact fun s => (wr_onlyHost s f v).trans (ih _)

/-- Raising flags of a register does no more than an event does. -/
theorem raiseAll_onlyHost (s : State) (fs : List Fld) : OnlyHost s (raiseAll s fs) := by
  unfold raiseAll
  dsimp only
  split
  · exact OnlyHost.refl s
  · exact (wrFold_onlyHost _ 1 s).trans (event_onlyHost _ _ _ _ _)

theorem raise_onlyHost (s : State) (f : Fld) : OnlyHost s (raise s f) := raiseAll_onlyHost s [f]

theorem accessError_onlyHost (s : State) : OnlyHost s (accessError s) := (bump_onlyHost s _).trans (raise_onlyHost _ _)

/-- What no event, flag or counter changes. -/
theorem OnlyHost.keeps {s t : State} (h : OnlyHost s t) :
    t.mode = s.mode ∧ t.time = s.time ∧ t.trust = s.trust ∧ t.faults = s.faults ∧ t.mem = s.mem ∧ t.ledger = s.ledger ∧ t.legs = s.legs
      ∧ t.participants = s.participants ∧ t.rooms = s.rooms ∧ t.pending = s.pending := by
  obtain ⟨_, _, _, rfl⟩ := h
  exact ⟨rfl, rfl, rfl, rfl, rfl, rfl, rfl, rfl, rfl, rfl⟩

/-- Adding a log entry changes registers and the fault log only; its sequence is the log's next. -/
theorem logEntry_frame (s : State) (code block port detail address : Nat) :
    (∃ r q, (logEntry s code block port detail address).1 = { s with regs := r, faults := q }) ∧ (logEntry s code block port detail address).2 = s.faults.nextSeq := by
  refine ⟨?_, rfl⟩
  unfold logEntry
  dsimp only
  split <;> split <;> exact ⟨_, _, rfl⟩

/-- A fault changes registers, the fault log, the host's side and the record of what left. -/
theorem fault_frame (s : State) (code block port detail address : Nat) :
    ∃ r q h o, fault s code block port detail address = { s with regs := r, faults := q, host := h, out := o } := by
  obtain ⟨⟨_, _, e⟩, _⟩ := logEntry_frame s code block port detail address
  unfold fault
  dsimp only
  rw [e]
  obtain ⟨r, h, o, e⟩ := event_onlyHost _ _ _ _ _
  exact ⟨r, _, h, o, e⟩

end Sys2Proof.Machine
end

