-- ==== Sys2Proof/Machine/Package.lean ====
section
/-!
DEFINITION. The ball map of the package (R511 to R514): the rows and their letters, the signal, sense and reserved balls, and the supplies of the
rest.
-/

namespace Sys2Proof.Machine

/-- A signal of the package, one of its balls each. Differential pairs carry P or N as `n`. -/
inductive Signal where
  | ethTx (lane : Nat) (n : Bool)
  | ethRx (lane : Nat) (n : Bool)
  | pcieTx (lane : Nat) (n : Bool)
  | pcieRx (lane : Nat) (n : Bool)
  | ponTx (port : Nat) (n : Bool)
  | ponRx (port : Nat) (n : Bool)
  | refClk (n : Bool)
  | pcieRefclk (n : Bool)
  | resetN | pwrGood | avsClk | avsMdata | avsSdata | testEn | uartTx | uartRx | qspiClk | qspiCsN | qspiIo (k : Nat)
  | timePpsIn | time10mIn | timePpsOut | timeTickOut | tamperIn (k : Nat) | zeroizeN | perstN
  | ponRxLos (port : Nat) | ponBurstEn (port : Nat)
  | gpio (k : Nat) | i2cScl (k : Nat) | i2cSda (k : Nat)
  deriving DecidableEq, Repr

/-- A supply (R495). -/
inductive Supply where
  | vss | vddCore | vddSram | vddDram | vddSd09 | vddSd12 | vddIo | vddRet
  deriving DecidableEq, Repr

/-- What a ball is. -/
inductive Ball where
  | signal (s : Signal)
  | sense (vss : Bool)
  | supply (v : Supply)
  | reserved
  deriving DecidableEq, Repr

/-- The letters that name the rows, and the second letters of the rows from AA on (R511). -/
def rowLetters : List Char := ['A', 'B', 'C', 'D', 'E', 'F', 'G', 'H', 'J', 'K', 'L', 'M', 'N', 'P', 'T', 'U', 'V', 'W', 'Y']

/-- The name of a row by its index, from A = 1 to BY = 57. -/
def rowName (i : Nat) : String :=
  let last := rowLetters.getD ((i - 1) % 19) 'A'
  if i ≤ 19 then String.ofList [last] else if i ≤ 38 then String.ofList ['A', last] else String.ofList ['B', last]

/-- The pair of a lane at columns 4 + 3l and 5 + 3l (R512): the lane, and whether the ball is its N. -/
def pairAt (c : Nat) : Option (Nat × Bool) :=
  if 4 ≤ c && c ≤ 50 && (c - 4) % 3 ≠ 2 then some ((c - 4) / 3, (c - 4) % 3 = 1) else none

/-- A pair at columns 2 and 3. -/
def pair23 (c : Nat) (s : Bool → Signal) : Option Signal := if c = 2 then some (s false) else if c = 3 then some (s true) else none

/-- The high-speed signal at a ball (R512). -/
def highSpeed (i c : Nat) : Option Signal :=
  match i with
  | 2 => (pairAt c).map (fun p => .ethTx p.1 p.2)
  | 5 => (pairAt c).map (fun p => .ethRx p.1 p.2)
  | 56 => (pairAt c).map (fun p => .pcieTx p.1 p.2)
  | 53 => (pairAt c).map (fun p => .pcieRx p.1 p.2)
  | 11 => pair23 c (.ponTx 0)
  | 13 => pair23 c (.ponRx 0)
  | 30 => pair23 c (.ponTx 1)
  | 32 => pair23 c (.ponRx 1)
  | 22 => pair23 c .refClk
  | 51 => pair23 c .pcieRefclk
  | _ => none

/-- The low-speed signals of column 56 in rows C to U, and those of column 54. -/
def lowSpeed56 : List Signal :=
  [.resetN, .pwrGood, .avsClk, .avsMdata, .avsSdata, .testEn, .uartTx, .uartRx, .qspiClk, .qspiCsN, .qspiIo 0, .qspiIo 1, .qspiIo 2, .qspiIo 3]
def lowSpeed54 : List Signal :=
  [.timePpsIn, .time10mIn, .timePpsOut, .timeTickOut, .tamperIn 0, .tamperIn 1, .tamperIn 2, .tamperIn 3, .zeroizeN, .perstN, .ponRxLos 0,
   .ponBurstEn 0, .ponRxLos 1, .ponBurstEn 1]

/-- The low-speed signal at a ball (R512). -/
def lowSpeed (i c : Nat) : Option Signal :=
  if c = 56 then (if 3 ≤ i && i ≤ 16 then lowSpeed56[i - 3]? else if 20 ≤ i && i ≤ 35 then some (.gpio (i - 20)) else none)
  else if c = 54 then
    (if 3 ≤ i && i ≤ 16 then lowSpeed54[i - 3]?
     else if 20 ≤ i && i ≤ 27 then some (if i % 2 = 0 then .i2cScl ((i - 20) / 2) else .i2cSda ((i - 20) / 2)) else none)
  else none

/-- The reserved balls (R513). -/
def reservedBall (i c : Nat) : Bool := (c = 57 && i ≤ 38) || (c = 55 && i ≤ 10)

/-- The supply of a ball that is neither signal, sense nor reserved, by the zones of R514. -/
def supplyAt (i c : Nat) : Supply :=
  let odd := (i + c) % 2 = 1
  if 12 ≤ i ∧ i ≤ 46 ∧ 12 ≤ c ∧ c ≤ 46 then (if odd then .vddCore else .vss)
  else if 8 ≤ i ∧ i ≤ 50 ∧ 8 ≤ c ∧ c ≤ 50 then (if odd then (if i ≤ 11 ∨ 47 ≤ i then .vddDram else .vddSram) else .vss)
  else if (i = 7 ∨ i = 51) ∧ 8 ≤ c ∧ c ≤ 50 then (if c % 2 = 0 then .vddSd09 else .vddSd12)
  else if c = 7 ∧ 8 ≤ i ∧ i ≤ 50 then (if i % 2 = 0 then .vddSd09 else .vddSd12)
  else if c = 53 ∧ i % 2 = 1 ∧ 9 ≤ i ∧ i ≤ 49 then .vddIo
  else if c = 52 ∧ i % 2 = 0 ∧ 20 ≤ i ∧ i ≤ 38 then .vddRet
  else .vss

/-- The ball in row `i`, column `c`, both from 1 to 57. -/
def ballAt (i c : Nat) : Ball :=
  match highSpeed i c with
  | some s => .signal s
  | none =>
    match lowSpeed i c with
    | some s => .signal s
    | none =>
      if reservedBall i c then .reserved
      else if i = 29 ∧ c = 30 then .sense false
      else if i = 29 ∧ c = 29 then .sense true
      else .supply (supplyAt i c)

/-- The balls of a row, and how many of them satisfy a test. -/
def countRow (p : Ball → Bool) (i : Nat) : Nat := ((List.range 57).filter (fun c => p (ballAt i (c + 1)))).length

/-- How many balls of the package satisfy a test. -/
def countBalls (p : Ball → Bool) : Nat := ((List.range 57).map (fun i => countRow p (i + 1))).sum

end Sys2Proof.Machine
end

