-- ==== Sys2Proof/Tests/Slice0.lean ====
section
/-!
SUPPORT. Tests: each check of well-formedness refuses a term that breaks it; a concrete state and operands meet the hypotheses of each clause of
each statement; and a few single steps whose outcome the spec gives.
-/

set_option maxRecDepth 100000
set_option linter.unusedVariables false

namespace Sys2Proof.Tests
open Sys2Proof Sys2Proof.Machine

theorem test_reset_queue : State.reset.pending = [] := by decide

/-! ### Blank records and the states that the tests start from -/

def zAArgs : AArgs := { dst := 0, src1 := 0, src2 := 0, satw := 0, uns := false, shift := 0 }
def zLArgs : LArgs := { reg := 0, ptr := 0, upd := 0, offset := 0 }
def zXYArgs : XYArgs := { quadX := 0, quadY := 0, ptrX := 0, ptrY := 0, updX := 0, updY := 0 }
def zDirHeader : DirHeader := { tag := 0, interrupt := false, authAt := 0, authBlock := [], extAt := 0, bufferAt := 0, reserved := [] }
def zLegSpec : LegSpec := { kind := 0, media := 0, codec := 0, participant := 0, room := 0, source := 0, ssrc := 0, rtxSsrc := 0, pt := 0, rtxPt := 0, cls := 0, flags := 0, rate := 0, burst := 0, packetSize := 0, layerCap := 0 }
def zLegChange : LegChange := { cls := 0, flags := 0, rate := 0, burst := 0, packetSize := 0, layerCap := 0 }
def zPartSpec : PartSpec := { transport := 0, room := 0, tunnelId := 0, minRate := 0, maxRate := 0, remoteIp := 0, localIp := 0, remotePort := 0, localPort := 0 }
def zAggSpec : AggSpec := { egress := 0, weight := 0, nextHop := 0, vlanOuter := 0, vlanInner := 0 }
def zDecodeSpec : DecodeSpec := { codec := 0, pool := 0, leg := 0, maxWidth := 0, maxHeight := 0, rate := 0, refs := 0, opPoint := 0, flags := 0, bitstreamKib := 0 }
def zCompositeSpec : CompositeSpec := { pool := 0, rate := 0, width := 0, height := 0, phase := 0 }
def zEncodeRate : EncodeRate := { target := 0, vbvMs := 0, keyInterval := 0, qpMin := 0, qpMax := 0, keyWeight := 0, maxPayload := 0, layerShare := 0 }
def zEncodeSpec : EncodeSpec := { codec := 0, pool := 0, sourceKind := 0, structure_ := 0, profile := 0, flags := 0, source := 0, rate := 0, rc := zEncodeRate, phase := 0 }
def zMixSpec : MixSpec := { maxTalkers := 0, frameMs := 0, threshold := 0, margin := 0, hold := 0 }
def zTunnelSpec : TunnelSpec := { carrier := 0, pinned := false, role := 0, egress := 0, cls := 0, framesPerTick := 0, frameLength := 0, phase := 0, vlanOuter := 0, vlanInner := 0, remoteMac := 0, remoteIp := 0, localIp := 0, remotePort := 0, localPort := 0 }
def zMemRequest : MemRequest := { address := 0, kind := .read, port := 0 }
def zLaneA : LaneA := { lane := 0, form := (.pair zAArgs .nop) }
def zASlot : ASlot := { op := .nop, x := zAArgs }
def zLaneL : LaneL := { lane := 0, x := zLArgs, beside := zASlot }
def zPtpVia : PtpVia := { domain := 0, transport := 0, nonForwardable := false }
def zPtpArrival : PtpArrival := { stamp := 0, via := zPtpVia }
def zMacFrame : MacFrame := { bytes := [], length := 0, stamp := 0, codeError := false, fcsBad := false, fecCorrected := 0, fecUncorrectable := 0 }
def zParseReads : ParseReads := { errors := [], bucketPoisoned := false }
def zMediaPacket : MediaPacket := { head := 0, seq := 0, timestamp := 0, marker := false, payload := [], frameStart := false, keyframe := false, spatial := 0, temporal := 0, switchTo := [], unitStart := false, nested := false }
def zInnerReads : InnerReads := { layers := zMediaPacket, bucketPoisoned := false }
def zJobResult : JobResult := { core := 0, addrError := false, poisoned := false, failed := false, stall := 0, layers := zMediaPacket }
def zFeedbackItem : FeedbackItem := { ssrc := 0, seq := 0, arrival := none }
def zMarking : Marking := { keepShort := false, keepLong := false, slots := 0, unmark := [], longMarks := [], slotsOf := [], outputs := [] }
def zCodedFrame : CodedFrame := { header := none, kind := .idr, temporal := 0, showExisting := none, layers := [], refs := [], marking := zMarking }
def zRowWork : RowWork := { blocks := [], writes := [], failed := false, intraCost := 0, interCost := 0, bits := 0 }
def zBandWork : BandWork := { poisoned := [], writes := [], failed := false }
def zEncodeWork : EncodeWork := { blocks := [], overhead := 0, writes := [], failed := false, coded := [] }
def zTransferResult : TransferResult := { poisoned := [], error := false }
def zPsyncRead : PsyncRead := { errors := 0, rxLos := false }
def zDownFrame : DownFrame := { rxLos := false, psyncErrors := 0, stamp := 0, superframe := 0, fecCorrected := 0, fecUncorrectable := 0, headerBad := false, bwmap := [], xgem := [], upKey := none }
def zBwAlloc : BwAlloc := { allocId := 0, start := 0, stop := 0, profile := 0, opens := false, ploamU := false, dbru := false }
def zPloam : Ploam := { onuId := none, micOk := false }
def zBurstProfile : BurstProfile := { index := 0, rate := 0, preamble := 0, trailer := 0 }
def zOmciMessage : OmciMessage := { micOk := false, kind := .other, bytes := [], stamp := 0 }
def zRowCopy : RowCopy := { bank := 0, uncorrectable := [] }
def zLinkMeeting : LinkMeeting := { link := 0, error := .singleBit }
def zArrivedPacket : ArrivedPacket := { seq := 0, timestamp := 0, marker := false, payload := [], arrival := 0 }
def zAsmFrame : AsmFrame := { timestamp := 0, packets := [], first := none, marker := none, whole := none, expected := none, oversize := false, readyAt := none }
def zAttestRequest : AttestRequest := { sequence := 0, nonce := 0, dest := 0 }
def zAudioSource : AudioSource := { state := .free, cluster := 0, mode := 0, gain := 0, jbTarget := 0, jbCurrent := 0, frames := 0, concealedMs := 0, noiseMs := 0, late := 0, arrived := [], packets := [], codec := 0, pcm := [], windows := [], blocks := [], up16 := [], up48 := [], fade := 0, lateRun := 0, transit := [], lastTimestamp := none, lastMedia := 0, lastSeq := 0, durationUs := 0, lastRecompute := 0, lastAdjust := 0, concealRun := 0, noise := false, squares := [], window := [], floors := [], rms := 0, peak := 0, heldPeak := 0, heldFor := 0, nextRoute := none, drainPeriods := 0 }
def zBlockWork : BlockWork := { cycles := 0, start := .none, damaged := false, samples := [], reads := [], poisoned := false, mvX := 0, mvY := 0, ref := 0 }
def zBuffer : Buffer := { state := .free, shortTerm := false, longTerm := false, current := false, slots := 0, flags := 0, holders := 0, stream := 0, width := 0, height := 0, colour := 0, picture := 0, completed := 0 }
def zBuiltFrame : BuiltFrame := { sequence := 0, slot := 0, epoch := 0, up := false, area := [], filler := false, sealed_ := false }
def zBurst : Burst := { on := 0, off := 0, grants := [], sent := false }
def zJobDesc : JobDesc := { op := 0, mode := 0, ivBits := 0, salted := false, page := false, pinned := false, reserved := false, key := 0, iv := 0, aadLength := 0, payloadLength := 0, aadAddr := 0, srcAddr := 0, dstAddr := 0, completion := 0 }
def zCipherJob : CipherJob := { id := 0, missed := false, cluster := 0, port := 0, desc := zJobDesc, purpose := (.srtpIn 0 0 0 false 0 0 0 []), entry := 0, version := 0, slot := none }
def zCodeEntry : CodeEntry := { start := 0, cost := 0, priority := 0, privileged := false, slot := 0, hostStart := false, restart := false, reserved := false }
def zSchedule : Schedule := { start := 0, period := 0, total := 0, per := 0, next := 0, delay := 0, suspended := false, carried := 0, resumeAt := 0 }
def zDisplayList : DisplayList := { version := 0, outputFormat := 0, background := 0, staleLimit := 0, slate := 0, reserved := false, layers := [], regions := [] }
def zCompFrame : CompFrame := { sched := zSchedule, generation := 0, buffer := 0, list := zDisplayList, signatures := [], shows := [], crcs := [], concealed := false, slate := false }
def zCompletion : Completion := { tag := 0, opcode := 0, status := 0, detail := 0, generation := 0, result := 0, sequence := 0, interrupt := false }
def zComposite : Composite := { state := .free, spec := zCompositeSpec, veil := 0, visorRun := 0, current := none, frames := 0, withheld := 0, skipped := 0, listCount := 0, inForce := none, awaiting := none, signed := none, listReadyAt := 0, shows := [], placeholderRun := [], slateDue := false, job := none, pictures := 0, queue := [], lateRun := 0 }
def zCuff : Cuff := { words := [], waiting := [], bank := false, filled := 0, stalled := false, sequence := 0, resync := false, gathered := [], poisoned := false, marked := false }
def zCuffWord : CuffWord := { data := [], preface := false, last := false, boundary := 0 }
def zDebugRec : DebugRec := { baud := 0, peekBlocks := 0, pokeBlocks := 0, unlockMinutes := 0, allowUnlock := false, reserved := false }
def zDecodeFrame : DecodeFrame := { sched := zSchedule, generation := 0, buffer := none, frame := zCodedFrame, extent := [], refs := [], discarding := [], held := none, concealed := false, standIn := false, grey := false }
def zDecodeStream : DecodeStream := { state := .free, spec := zDecodeSpec, cluster := 0, current := none, frames := 0, concealed := 0, lost := 0, blocked := false, pictures := 0, sequence := none, noRasl := false, assembly := [], takenStamp := none, takenLast := none, job := none, ready := [], lateRun := 0 }
def zDeferred : Deferred := { tag := 0, opcode := 0, interrupt := false, generation := 0, sequence := 0, key := 0, info := [] }
def zDescriptor : Descriptor := { src := 0, dst := 0, count := 0, srcInternal := false, dstInternal := false, notify := false, last := false, reserved := false, next := 0 }
def zDmaChannel : DmaChannel := { at_ := 0, desc := none, readDone := 0, written := 0, funnel := [], access := none, retries := 0, down := false, waiting := false, abort := false }
def zEncodeBlock : EncodeBlock := { cycles := 0, modes := [], austere := [], poisonedSource := false, poisonedRef := false }
def zEncodeFrame : EncodeFrame := { sched := zSchedule, generation := 0, stamp := 0, key := false, temporal := 0, source := 0, picture := 0, layers := [], layerRows := [], keyUpTo := 0 }
def zKeyframeState : KeyframeState := { last := none, pending := false, fir := false, firs := 0 }
def zEncodeStream : EncodeStream := { state := .free, spec := zEncodeSpec, cluster := 0, width := 0, height := 0, reservedBuffers := 0, keyAsked := 0, keyKnown := 0, keyServed := 0, keyframe := zKeyframeState, layers := [], frames := 0, keyframes := 0, skipped := 0, sinceKey := 0, pattern := 0, nextRate := none, lastSource := none, startDue := [], pictures := 0, current := none, job := none, lateRun := 0 }
def zEnginesRec : EnginesRec := { decode := 0, veils := 0, encode := 0, audio := 0, cipher := 0, ingress := 0, forwarding := 0, band := 0, reserved := false }
def zFragEntry : FragEntry := { closed := false, engine := 0, protocol := 0, id := 0, source := 0, dest := 0, first := 0, parts := [], total := none, leg := none, tunnel := none, generation := 0, participant := 0 }
def zGap : Gap := { seq := 0, seen := 0, nacked := false }
def zGeneration : Generation := { number := 0, programs := [], tables := [], policy := [], digests := [], since := 0, half := 0 }
def zGrant : Grant := { allocId := 0, superframe := 0, start := 0, bits := 0, ploamU := false, dbru := false, filled := false }
def zImage : Image := { headerOk := false, kind := 0, partMask := 0, antiRollback := 0, length := 0, baseDigest := 0, imageId := 0, sections := [], nymrehalAnchor := none, customerAnchor := 0, customerPair := [], nymrehalSigOk := false, customerSigOk := false, envelopeOk := false, contentKey := 0 }
def zKeyEntry : KeyEntry := { usage := 0, target := 0, epoch := 0, counter := 0, key := 0, salt := 0, usableAt := 0, corrupt := false }
def zKeyToken : KeyToken := { formatOk := false, kind := 0, usage := 0, kekIndex := 0, target := 0, epoch := 0, counter := 0, unwraps := false, key := 0, salt := 0 }
def zLayerFrame : LayerFrame := { buffer := 0, reference := none, vectors := [], budget := 0, cap := 0, debtAfter := 0, qpStart := 0, qp := 0, rowWeights := [], rowBits := [], austere := false, dropped := false, coded := [], held := none }
def zLeg : Leg := { state := .free, spec := zLegSpec, layerCurrent := 0, layerTarget := 0, bucket := 0, bucketStamp := 0, seqNext := 0, seqLastIn := none, rtxArea := 0, rtxSize := 0, keyframe := zKeyframeState, packets := 0, bytes := 0, policeDrops := 0, rtxSent := 0, rtxMiss := 0, layerSwitches := 0, paused := false, started := false, raiseSince := none, raiseAsked := false, nested := false, maskDue := false, offsets := [], cache := [], sentMap := [], gaps := [], layerRates := [] }
def zLiningBank : LiningBank := { buckets := [], lastRows := [], uncorrectable := [], spares := [], noSpare := false, answered := false, lastPort := 0 }
def zMemoryMap : MemoryMap := { setPoint := 0, gloveboxBytes := 0, gloveboxBase := 0, regions := [], pools := [], lining := [] }
def zMittenCode : MittenCode := { code := [], entries := [], statics := [] }
def zMix : Mix := { state := .free, home := 0, spec := zMixSpec, formats := [], encoded := 0, slots := [], gains := [], sums := [], changed := [], legSlots := [], recordAt := none, recordWritten := 0, recordDirty := false, recordTick := 0, instances := [], periods := [], frameFirst := none, due := [], dueFirst := 0, dueSlots := [], dueChanged := [], dueSince := 0, dueGeneration := 0, lateRun := 0, lost := false }
def zPalmSlot : PalmSlot := { state := .empty, pinned := false, entry := 0, version := 0, usage := 0, refs := 0, lastUse := 0, useOrder := 0, loadedAt := 0, shares := 0 }
def zParticipant : Participant := { state := .free, spec := zPartSpec, keyEntry := 0, rtcpSent := 0, feedback := [], reportTime := 0, estimate := 0, receivedRate := 0, delayState := 0, loss := 0, lastFeedback := 0, estD := 0, estL := 0, nextEstimate := none, lastCut := none, overuseRun := 0, groups := [], received := [], reported := [], sent := [], staleAt := 0, tickBytes := 0 }
def zPartitionRec : PartitionRec := { legEntries := 0, classifyEntries := 0, keyEntries := 0, tunnelQueues := 0, rtxRegion := 0 }
def zPonEntry : PonEntry := { mode := 0, upRate := 0, isProtected := false, defaultQueue := 0, enhanced := false, pskIndex := 0, serial := [], maxFrame := 0, bankSize := 0, syncMatches := 0, psyncTolerance := 0, protectHold := 0, todTrim := 0, reserved := false }
def zPortModes : PortModes := { quads := [], ports := [], ponA := zPonEntry, ponB := zPonEntry }
def zPreface : Preface := { length := 0, port := 0, queue := 0, fcsBad := false, ptpEvent := false, stamp := 0, xgemPort := 0, sequence := 0 }
def zPtpMaster : PtpMaster := { port := 0, identity := 0, dataset := 0, announceAt := 0, announceInterval := 0 }
def zQueuedRequest : QueuedRequest := { request := zMemRequest, bank := 0, row := 0, arrived := 0, cycle := 0, order := 0 }
def zRecirculated : Recirculated := { label := 0, tunnel := 0, generation := 0, stamp := 0, port := 0, bytes := [] }
def zRoom : Room := { state := .free, maxTalkers := 0, mix := false, maxParticipants := 0 }
def zSpareRow : SpareRow := { row := 0, tick := 0, corrected := 0 }
def zThread : Thread := { state := .free, priority := 0, cluster := 0, lastLane := none, entry := 0, privileged := false, slot := 0, lane := 0, hostStarted := false, fault := 0, pc := 0, arg := 0, generation := 0, digest := 0, wake := 0, reason := 0, eventNo := 0, deadline := none, lateRun := 0, readyAt := 0, affinity := false, stopping := false, ending := false }
def zTodBinding : TodBinding := { superframe := 0, time := 0 }
def zTransfer : Transfer := { isPut := false, localAddr := 0, address := 0, words := 0 }
def zTunnel : Tunnel := { state := .free, spec := zTunnelSpec, pinned := false, up := false, peerUp := false, keyed := false, nextKeyed := false, epochCurrent := 0, epochNext := 0, sendEpoch := 0, nextSendEpoch := none, keyCurrent := 0, keyNext := 0, oldEpoch := none, oldUntil := 0, heldKey := none, sendSeq := 0, rxHigh := 0, rxAny := false, window := [], lastValid := 0, lastValidBoundary := 0, peerDownRaised := false, rtt := 0, offset := 0, framesSent := 0, framesReceived := 0, framesRejected := 0, downCount := 0, queue := [], sending := none, sendingLeg := none, reassembly := none, echo := none, built := [], builtUntil := 0 }
def zTunnelArrival : TunnelArrival := { tunnel := 0, frame := [], stamp := 0, boundary := 0, port := 0, generation := 0 }

def sv : State := { State.reset with mode := .serving }
def dm : State := { State.reset with mode := .dormant }
def pw (s : State) : State := { s with power := { s.power with pwrGood := true } }
def lk (s : State) : State := { s with host := { s.host with linkUp := true } }
def dv : State := wrAll (lk sv) [(dirRing.enable, 1), (dirRing.size, 3), (cplRing.enable, 1), (cplRing.size, 3), (dirRing.tail, 1)]
def hd : DirHeader := zDirHeader
def liveLeg : Leg := { zLeg with state := .active }
def dvLeg : State := { dv with legs := [(0, liveLeg)] }
def enc : EncodeStream := { zEncodeStream with state := .waiting }
def tun : Tunnel := { zTunnel with state := .active }
def recs : List Record := [.engines { zEnginesRec with decode := 0xFFFF, veils := 0xFFFF, encode := 0xFF, audio := 0xFF, cipher := 0xFF, ingress := 0xFF, forwarding := 0xFF },
  .partition { zPartitionRec with legEntries := 65536, classifyEntries := 65536, keyEntries := 1024, tunnelQueues := 16, rtxRegion := 1 },
  .portModes { zPortModes with quads := [1, 1, 1, 1], ponA := { zPonEntry with mode := 1 } },
  .memoryMap { zMemoryMap with regions := [{ code := 13, base := 0, length := 0x40000000 }], pools := [{ base := 0, blocks := 8192, count := 64 }] },
  .mittenCode { zMittenCode with entries := [{ zCodeEntry with hostStart := true, cost := 1 }] }]
def img : Image := { zImage with sections := [{ kind := 1, signer := 0, digest := 0, decrypts := true, records := recs }] }
def gen1 : Generation := { zGeneration with number := 1, programs := recs }
def withImage (s : State) : State := { s with trust := { s.trust with full := some img, current := gen1 } }
def engs (s : State) : State := wrAll s [(Reg.DECODE.DECODE_STATUS_CLUSTERS_ENABLED, 0xFFFF), (Reg.ENCODE.ENCODE_STATUS_CLUSTERS_ENABLED, 0xFF),
  (Reg.VEIL.VEIL_STATUS_VEILS_ENABLED, 0xFFFF), (Reg.AUDIO.AUDIO_STATUS_CLUSTERS_ENABLED, 0xFF), (Reg.CIPHER.CIPHER_STATUS_CLUSTERS_ENABLED, 0xFF),
  (Reg.MITTEN.MITTEN_STATUS_CLUSTERS_ENABLED, 0xFF), (Reg.NEARMEM.MEM_STATUS_POWERED.on 0, 1), (Reg.BAND.BAND_CONFIG_BATCH_WINDOW, 8),
  (Reg.GLOVEBOX.GLOVEBOX_CONFIG, 16)]
def dvI : State := withImage (engs dv)
def room0 : Room := { zRoom with state := .active, maxParticipants := 4 }
def pt2 : PartSpec := { zPartSpec with transport := 2, minRate := 32, maxRate := 64 }
def part2 : Participant := { zParticipant with state := .active, spec := pt2 }
def pinned : Tunnel := { tun with pinned := true, spec := { zTunnelSpec with frameLength := 512, framesPerTick := 1 } }
def withTun (s : State) (t : Tunnel) : State := { s with gauntlet := { s.gauntlet with tunnels := [(0, t)] } }
def rx : LegSpec := { zLegSpec with kind := 0, media := 1, codec := 8, source := 0xFFFFFFFF, rate := 1000, burst := 1500, packetSize := 1000 }
def tx : LegSpec := { zLegSpec with kind := 2, media := 1, codec := 8, source := 0x10000000, rate := 3125, packetSize := 1000 }
def txLeg : Leg := { zLeg with state := .admitted, spec := tx }
def rxLeg : Leg := { zLeg with state := .admitted, spec := rx }
def cut : Leg := rxLeg
def er : EncodeRate := { zEncodeRate with target := 64000, vbvMs := 2000, keyWeight := 1, maxPayload := 1000, layerShare := 0x88 }
def es : EncodeSpec := { zEncodeSpec with codec := 8, sourceKind := 1, structure_ := 0x11, source := 0, rate := 25, rc := er }
def dsp : DecodeSpec := { zDecodeSpec with codec := 8, maxWidth := 80, maxHeight := 64, rate := 25, refs := 1, bitstreamKib := 256 }
def dst0 : DecodeStream := { zDecodeStream with state := .waiting, spec := dsp }
def encs : EncodeStream := { enc with spec := es }
def spc : CompositeSpec := { zCompositeSpec with rate := 25, width := 80, height := 64 }
def isDone (r : Ruling) : Bool := match r with
  | .done _ _ _ => true
  | _ => false
def life (n : Nat) (s : State) : State := { s with trust := { s.trust with fuses := { s.trust.fuses with lifecycle := n } } }
def withDebug (s : State) : State := { s with trust := { s.trust with full := some img, current := { gen1 with policy := [.debug { zDebugRec with allowUnlock := true, peekBlocks := 0xFFFFFFFF, pokeBlocks := 0xFFFFFFFF }] } } }
def chal (c : Option Nat) : State := let s := life 2 (withDebug (pw sv)); { s with power := { s.power with challenge := c } }
def at_ (ns : Nat) (s : State) : State := { s with time := { s.time with clock := ns * Config.fracUnit } }
theorem heartbeat_not_due : heartbeatDue sv = false := by
  have h : heartbeatAddress sv = 0 := by
    unfold heartbeatAddress
    rw [show rd sv Reg.GLOBAL.HEARTBEAT_ADDRESS_LO = 0 from rfl, show rd sv Reg.GLOBAL.HEARTBEAT_ADDRESS_HI = 0 from rfl]
    rfl
  simp [heartbeatDue, h]
theorem domain58_on : domainOn (wr (pw sv) Reg.POWER.DOMAINS_ON_HI 0x4000000) 58 = true := by
  unfold domainOn domainsOn
  rw [show rd _ Reg.POWER.DOMAINS_ON_LO = 0 from rfl, show rd _ Reg.POWER.DOMAINS_ON_HI = 0x4000000 from rfl]
  rfl
theorem heartbeat_due : heartbeatDue { wr (lk sv) Reg.GLOBAL.HEARTBEAT_ADDRESS_LO 16 with time := { sv.time with boundaries := 1 } } = true := by
  unfold heartbeatDue heartbeatAddress
  rw [show rd _ Reg.GLOBAL.HEARTBEAT_ADDRESS_LO = 16 from rfl, show rd _ Reg.GLOBAL.HEARTBEAT_ADDRESS_HI = 0 from rfl,show rd _ Reg.GLOBAL.HEARTBEAT_TICKS = 80 from rfl]
  rfl
def structureRecs : List Record := [.engines { EnginesRec.none with ingress := 0xFF, forwarding := 0xFF, band := 0xF, cipher := 1 },
  .powerDomains { PowerDomains.none with domains := 2 ^ 64 - 1 }, .partition { legEntries := 65536, classifyEntries := 65536, keyEntries := 1024, tunnelQueues := 0, rtxRegion := 0 },
  .memoryMap { MemoryMap.none with regions := (List.range 12).map (fun k => { code := k + 1, base := k * 2 ^ 30, length := if k = 7 || k = 10 then 2 ^ 30 else 2 ^ 27 }), lining := [{ first := 0, count := 1, use := 1 }] }]
def imgOk : Image := { zImage with headerOk := true, partMask := 1, nymrehalAnchor := some Config.nymrehalAnchor, nymrehalSigOk := true, sections := [{ kind := 1, signer := 1, digest := 0, decrypts := true, records := structureRecs }], customerSigOk := true, envelopeOk := true }
def pv (s : State) : State := { life 1 s with mode := .proving }
def booted (b : List BootStep) (w : BootWaitFor) : State :=
  let s := wr (pv sv) Reg.TRUST.IMAGE_STATUS_SOURCE 1
  { s with trust := { s.trust with current := { gen1 with programs := [.bootSteps b] } },
           proving := { s.proving with marchDone := true, trained := true, linksTested := true, bootWait := w } }
def slot1 (v : Nat) (s : State) : State := wr s Reg.TIME.SOURCE_PRIORITY_SLOTS v
def mac (s : State) : State := wr (wr s (Reg.ETH.PORT_STATUS_VALID.on 0) 1) (Reg.ETH.PORT_STATUS_LINK.on 0) 1
def withCuff0 (s : State) (c : Cuff) : State := { s with ingress := { s.ingress with cuffs := [(0, c)] } }
def late0 : Schedule := { zSchedule with total := 1, period := 1 }
def dec1 : DecodeStream := { dst0 with lateRun := 2, job := some { zDecodeFrame with sched := late0 } }
theorem reach_now (s : State) (t : Nat) (h : t ≤ nowNs s) : reachable s t = true := by
  simp [reachable, h]
theorem image_accepted (s : State) (h : s.trust.fuses = (pv sv).trust.fuses) : bootReason s imgOk = 0 := by
  have hf : headerFormatOk imgOk = true := rfl
  have hk : kindAccepted (pv sv).trust.fuses imgOk.kind = true := rfl
  have ha : (pv sv).trust.fuses.anchor = none := rfl
  have hp : bitOf imgOk.partMask (b2n (pv sv).trust.fuses.is8832) = 1 := rfl
  have hr : (pv sv).trust.fuses.rollback = 0 := rfl
  have h1 : firstPass { s with trust := { s.trust with full := none, pendingPartial := none } } imgOk = 0 := by
    unfold firstPass
    simp only [h]
    rw [hf, hk, hp, hr, ha]
    simp [imgOk]
    decide
  have h2 : secondPass { s with trust := { s.trust with full := none, pendingPartial := none } } imgOk = 0 := by
    unfold secondPass
    simp only [h]
    rw [show (imgOk.records.all (recordOk _ imgOk)) = true from rfl, show structureView (effective _ imgOk 1) = structureView structureRecs from rfl,
      show (structureView structureRecs).fits = true by decide, show rulesFit _ imgOk = true from rfl]
    rfl
  unfold bootReason verifyImage
  rw [h1, h2]
  rfl
def restoring : State := (let s := at_ 100000000000000 (wrAll (slot1 0x41 sv) [(Reg.TIME.TIME_STATUS_STATE, 2), (Reg.TIME.TIME_STATUS_SOURCE, 4), (Reg.TIME.TIME_STATUS_EVER_LOCKED, 1)]); { s with time := { s.time with ptp := { s.time.ptp with qualified := true, offset := some 0, candidateSince := some 0 } } })
def bd (ns : Nat) (s : State) : State := { s with time := { s.time with boundaryAt := ns, boundaryPrev := ns - 125000, boundaries := 320 } }
def decJob (d : DecodeStream) (c : Schedule) : State := { dvI with decodes := [(0, { d with job := some { zDecodeFrame with sched := c } })] }
def encJob (c : Schedule) : EncodeStream := { encs with width := 64, height := 64, job := some { zEncodeFrame with sched := c, layerRows := [1], layers := [zLayerFrame] } }
def withEnc (e : EncodeStream) : State := { dvI with encodes := [(0, e)] }
def comp0 : Composite := { zComposite with state := .running, spec := spc }
def withComp (c : Composite) : State := bd 40000000 { dvI with composites := [(0, c)] }
def slateJob (n : Nat) : CompFrame := { zCompFrame with slate := true, sched := { late0 with total := n } }
def susp : Schedule := { late0 with suspended := true, carried := 1000000 }
def aud : AudioSource := { zAudioSource with state := .active }
def withAud (a : AudioSource) : State := { dvI with legs := [(0, liveLeg)], audio := [(0, a)] }
def mixing (s : State) : State := { s with rooms := [(0, room0)], time := { s.time with mixCount := 1 } }
def jobD : JobDesc := { zJobDesc with op := 1, mode := 2, ivBits := 96, key := 0 }
def keyed : State := { dvI with trust := { dvI.trust with keys := [(0, { zKeyEntry with usage := 2 })] } }
def cipJob : CipherJob := { zCipherJob with purpose := .pon 0, slot := some 0 }
def slotIs (st : SlotState) (s : State) : State := { s with cipher := { s.cipher with slots := [(0, { zPalmSlot with state := st })] } }
def jobs1 (s : State) : State := let s := slotIs .resident s; { s with cipher := { s.cipher with jobs := [cipJob] } }
def mcode : List Record := .mittenCode { zMittenCode with code := List.replicate 64 0, entries := [{ zCodeEntry with hostStart := true }] } :: recs.take 4
def thr : Thread := { zThread with state := .running, generation := 1 }
def lane0 (b : Bank) : State :=
  let s := { dvI with trust := { dvI.trust with current := { gen1 with programs := mcode } } }
  { s with mitten := { s.mitten with lanes := [(0, { Lane.zero with normal := b, thread := some 0, active := some .normal })], threads := [(0, thr)] } }
def args : AArgs := { zAArgs with dst := 1, src1 := 2, src2 := 3 }
def xfer (n : Nat) : List Transfer := List.replicate n { zTransfer with address := 0x100000, words := 1 }
def aEffectOf : Option AEffect → AEffect | some a => a | none => .none
def eff (b : Bank) (q : LSlot) : LEffect := match lSlot .normal b [] q with | .done e => e | _ => .none
def keyT : Tunnel := { tun with keyed := true }
def pon (st : Nat) (s : State) : State := wrAll s [(Reg.PON.PON_CONFIG_MODE.on 0, 1), (Reg.PON.PON_STATUS_SYNC.on 0, 1), (Reg.PON.PON_STATUS_STATE.on 0, st), (Reg.PON.PON_STATUS_TX_PERMIT.on 0, 1)]
def ponA (s : State) (f : PonPort → PonPort) : State := { s with pon := { s.pon with portA := f s.pon.portA } }
def winB : Burst := { zBurst with off := 1000 }
def grant7 : Grant := { zGrant with allocId := 7, bits := 64 }
def oneGate : GateList := { egress := 0, baseTime := 0, cycleTime := 1000, entries := [(1, 1000)] }
def gated (s : State) : State := { s with band := { s.band with gates := [(0, { current := some oneGate, next := some (some oneGate, 0), entry := 0 })] } }
def heard : Ploam := { onuId := none, micOk := true }
def near0 (s : State) : State := wr s (Reg.NEARMEM.MEM_STATUS_POWERED.on 0) 1
def bank0 (s : State) (k : Nat) (b : MemBank) : State := { s with near := { s.near with banks := [(k, b)] } }
def chan0 (s : State) (c : MemChannel) : State := { s with near := { s.near with channels := [(0, c)] } }
def readAt (a : Nat) : MemRequest := { address := a, kind := .read, port := 1 }
def change0 (s : State) : State := { s with near := { s.near with change := some (zDeferred, 0, 0), retraining := true } }
def lreq (p : Nat) : LiningRequest := { request := { address := liningBase, kind := .read, port := p }, ecc := .clean }
def dmaCh (s : State) (c : DmaChannel) : State := { s with dma := { s.dma with channels := [(0, c)] } }
def desc0 : Descriptor := { zDescriptor with count := 64 }
def exch : Descriptor := { desc0 with src := exchangeBase, dst := exchangeBase, srcInternal := true, dstInternal := true }
def fetching (n : Nat) (s : State) : State := { s with glove := { s.glove with fetches := [{ page := 0, requests := [], retries := n }] } }
def layoutBytes : List Byte := [1, 0, 0, 0, 0, 0, 0, 0, 0, 0, 0xFF, 0xFF] ++ List.replicate 20 0
def authd (mode : Nat) : State := { dvI with trust := { dvI.trust with accepted := true, current := { dvI.trust.current with policy := [.directiveLimits [{ opcode := 0x59, mode := mode, rate := 0 }]] } } }
def laneW (b : Bank) (w : MWord) : State :=
  let code : List Record := .mittenCode { zMittenCode with code := BitVec.ofNat 64 w.bits :: List.replicate 63 0, entries := [{ zCodeEntry with hostStart := true }] } :: recs.take 4
  let s := { dvI with trust := { dvI.trust with current := { gen1 with programs := code } } }
  { s with mitten := { s.mitten with lanes := [(0, { Lane.zero with normal := b, thread := some 0, active := some .normal })], threads := [(0, thr)] } }
def laneC (b : Bank) (c : Control) : State := laneW b (.control c)
theorem near_branch : 0 ≤ branchAddress Bank.zero 0 ∧ branchAddress Bank.zero 0 < 512 := by
  unfold branchAddress
  cases Config.branchFromNext <;> decide
def jobBytes : List Byte := [1, 2, 96, 0] ++ List.replicate 60 0
def asm1 : AsmFrame := { zAsmFrame with readyAt := some 0, packets := [(0, [0])] }
def allOn (s : State) : State := wrAll s [(Reg.POWER.DOMAINS_ON_LO, 2 ^ 32 - 1), (Reg.POWER.DOMAINS_ON_HI, 2 ^ 32 - 1)]
def cf16 : CodedFrame := { zCodedFrame with layers := [{ width := 16, height := 16, columns := [] }] }
def dj0 : DecodeFrame := { zDecodeFrame with sched := late0, buffer := some 0, frame := cf16 }
def dd (j : DecodeFrame) : DecodeStream := { dst0 with job := some j }
def decS (j : DecodeFrame) : State := { dvI with decodes := [(0, dd j)] }
def rowW (n : Nat) : RowWork := { zRowWork with blocks := [{ zBlockWork with cycles := n }] }
def lf0 : LayerFrame := zLayerFrame
def ej (c : Schedule) (f : LayerFrame) : EncodeFrame := { zEncodeFrame with sched := c, layerRows := [1], layers := [f] }
def ee (j : EncodeFrame) : EncodeStream := { encs with width := 64, height := 64, job := some j }
def encW (n : Nat) : EncodeWork := { zEncodeWork with blocks := [{ zEncodeBlock with cycles := n }] }
def encS (j : EncodeFrame) : State := { dvI with encodes := [(0, ee j)] }
def cj (n : Nat) : CompFrame := { zCompFrame with sched := { late0 with total := n }, slate := true }
def cc (j : CompFrame) : Composite := { comp0 with job := some j, inForce := some { list := zDisplayList, signatures := [], generation := 1 } }
def hdr0 : List Byte := [0x11, 0, 0, 0, 0, 0, 0, 0, 0, 0, 0, 0, 0, 0, 0, 0, 0, 64, 0, 0]
def arr0 : TunnelArrival := { zTunnelArrival with frame := hdr0 ++ (toBE 4 (crc32c hdr0)) ++ List.replicate 40 0 }
def arrived (a : TunnelArrival) (x : Tunnel) : State :=
  let s := withTun sv { x with spec := { x.spec with frameLength := 64 } }
  { s with gauntlet := { s.gauntlet with arrivals := [a] } }
theorem reach_soon (s : State) (t : Nat) (h : clockAt s (t * Config.fracUnit) < nextMultiple s) : reachable s t = true := by
  simp [reachable, h]
def nearW : State := allOn (near0 sv)
def sevens : MemBank := { MemBank.idle with uncorrectable := [(5, 0), (5, 0)] }
def desc0Bytes (flags : Nat) (src dst count : Nat) : List Byte := toLE 8 src ++ toLE 8 dst ++ toLE 4 count ++ [BitVec.ofNat 8 flags, 0, 0, 0] ++ List.replicate 8 0
def readC : DmaChannel := { zDmaChannel with desc := some desc0, access := some (.read 0 64) }
def writeC (n : Nat) : DmaChannel := { zDmaChannel with desc := some desc0, access := some (.write 0 n) }

/-! ### Well-formedness -/

/-- Each field of AArgs out of its range is refused. -/
theorem test_wf_refuses_AArgs : ([{ zAArgs with dst := 32 },
    { zAArgs with src1 := 32 },
    { zAArgs with src2 := 32 },
    { zAArgs with satw := 4 },
    { zAArgs with shift := 64 }] : List AArgs).any AArgs.wf = false := by decide

/-- Each field of LArgs out of its range is refused. -/
theorem test_wf_refuses_LArgs : ([{ zLArgs with reg := 32 },
    { zLArgs with ptr := 8 },
    { zLArgs with upd := 4 },
    { zLArgs with offset := -8193 },
    { zLArgs with offset := 8192 }] : List LArgs).any LArgs.wf = false := by decide

/-- Each field of XYArgs out of its range is refused. -/
theorem test_wf_refuses_XYArgs : ([{ zXYArgs with quadX := 8 },
    { zXYArgs with quadY := 8 },
    { zXYArgs with ptrX := 8 },
    { zXYArgs with ptrY := 8 },
    { zXYArgs with updX := 4 },
    { zXYArgs with updY := 4 }] : List XYArgs).any XYArgs.wf = false := by decide

/-- Each field of DirHeader out of its range is refused. -/
theorem test_wf_refuses_DirHeader : ([{ zDirHeader with tag := 4294967296 },
    { zDirHeader with authAt := 4294967296 },
    { zDirHeader with extAt := 4294967296 },
    { zDirHeader with bufferAt := 4294967296 },
    { zDirHeader with reserved := [(131072, 1)] },
    { zDirHeader with reserved := [(0, 0)] }] : List DirHeader).any DirHeader.wf = false := by decide

/-- Each field of LegSpec out of its range is refused. -/
theorem test_wf_refuses_LegSpec : ([{ zLegSpec with kind := 256 },
    { zLegSpec with media := 256 },
    { zLegSpec with codec := 256 },
    { zLegSpec with participant := 65536 },
    { zLegSpec with room := 65536 },
    { zLegSpec with source := 4294967296 },
    { zLegSpec with ssrc := 4294967296 },
    { zLegSpec with rtxSsrc := 4294967296 },
    { zLegSpec with pt := 256 },
    { zLegSpec with rtxPt := 256 },
    { zLegSpec with cls := 256 },
    { zLegSpec with flags := 256 },
    { zLegSpec with rate := 4294967296 },
    { zLegSpec with burst := 4294967296 },
    { zLegSpec with packetSize := 65536 },
    { zLegSpec with layerCap := 256 }] : List LegSpec).any LegSpec.wf = false := by decide

/-- Each field of LegChange out of its range is refused. -/
theorem test_wf_refuses_LegChange : ([{ zLegChange with cls := 256 },
    { zLegChange with flags := 256 },
    { zLegChange with rate := 4294967296 },
    { zLegChange with burst := 4294967296 },
    { zLegChange with packetSize := 65536 },
    { zLegChange with layerCap := 256 }] : List LegChange).any LegChange.wf = false := by decide

/-- Each field of PartSpec out of its range is refused. -/
theorem test_wf_refuses_PartSpec : ([{ zPartSpec with transport := 256 },
    { zPartSpec with room := 65536 },
    { zPartSpec with tunnelId := 65536 },
    { zPartSpec with minRate := 4294967296 },
    { zPartSpec with maxRate := 4294967296 },
    { zPartSpec with remoteIp := 340282366920938463463374607431768211456 },
    { zPartSpec with localIp := 340282366920938463463374607431768211456 },
    { zPartSpec with remotePort := 65536 },
    { zPartSpec with localPort := 65536 }] : List PartSpec).any PartSpec.wf = false := by decide

/-- Each field of AggSpec out of its range is refused. -/
theorem test_wf_refuses_AggSpec : ([{ zAggSpec with egress := 256 },
    { zAggSpec with weight := 256 },
    { zAggSpec with nextHop := 281474976710656 },
    { zAggSpec with vlanOuter := 65536 },
    { zAggSpec with vlanInner := 65536 }] : List AggSpec).any AggSpec.wf = false := by decide

/-- Each field of DecodeSpec out of its range is refused. -/
theorem test_wf_refuses_DecodeSpec : ([{ zDecodeSpec with codec := 256 },
    { zDecodeSpec with pool := 256 },
    { zDecodeSpec with leg := 4294967296 },
    { zDecodeSpec with maxWidth := 65536 },
    { zDecodeSpec with maxHeight := 65536 },
    { zDecodeSpec with rate := 256 },
    { zDecodeSpec with refs := 256 },
    { zDecodeSpec with opPoint := 256 },
    { zDecodeSpec with flags := 256 },
    { zDecodeSpec with bitstreamKib := 4294967296 }] : List DecodeSpec).any DecodeSpec.wf = false := by decide

/-- Each field of CompositeSpec out of its range is refused. -/
theorem test_wf_refuses_CompositeSpec : ([{ zCompositeSpec with pool := 256 },
    { zCompositeSpec with rate := 256 },
    { zCompositeSpec with width := 65536 },
    { zCompositeSpec with height := 65536 },
    { zCompositeSpec with phase := 65536 }] : List CompositeSpec).any CompositeSpec.wf = false := by decide

/-- Each field of EncodeRate out of its range is refused. -/
theorem test_wf_refuses_EncodeRate : ([{ zEncodeRate with target := 4294967296 },
    { zEncodeRate with vbvMs := 65536 },
    { zEncodeRate with keyInterval := 65536 },
    { zEncodeRate with qpMin := 256 },
    { zEncodeRate with qpMax := 256 },
    { zEncodeRate with keyWeight := 256 },
    { zEncodeRate with maxPayload := 65536 },
    { zEncodeRate with layerShare := 65536 }] : List EncodeRate).any EncodeRate.wf = false := by decide

/-- Each field of EncodeSpec out of its range is refused. -/
theorem test_wf_refuses_EncodeSpec : ([{ zEncodeSpec with codec := 256 },
    { zEncodeSpec with pool := 256 },
    { zEncodeSpec with sourceKind := 256 },
    { zEncodeSpec with structure_ := 256 },
    { zEncodeSpec with profile := 256 },
    { zEncodeSpec with flags := 256 },
    { zEncodeSpec with source := 65536 },
    { zEncodeSpec with rate := 256 },
    { zEncodeSpec with rc := { zEncodeRate with target := 4294967296 } },
    { zEncodeSpec with phase := 65536 }] : List EncodeSpec).any EncodeSpec.wf = false := by decide

/-- Each field of MixSpec out of its range is refused. -/
theorem test_wf_refuses_MixSpec : ([{ zMixSpec with maxTalkers := 256 },
    { zMixSpec with frameMs := 256 },
    { zMixSpec with threshold := 128 },
    { zMixSpec with margin := 256 },
    { zMixSpec with hold := 256 }] : List MixSpec).any MixSpec.wf = false := by decide

/-- Each field of TunnelSpec out of its range is refused. -/
theorem test_wf_refuses_TunnelSpec : ([{ zTunnelSpec with carrier := 256 },
    { zTunnelSpec with role := 256 },
    { zTunnelSpec with egress := 256 },
    { zTunnelSpec with cls := 256 },
    { zTunnelSpec with framesPerTick := 65536 },
    { zTunnelSpec with frameLength := 65536 },
    { zTunnelSpec with phase := 256 },
    { zTunnelSpec with vlanOuter := 65536 },
    { zTunnelSpec with vlanInner := 65536 },
    { zTunnelSpec with remoteMac := 281474976710656 },
    { zTunnelSpec with remoteIp := 340282366920938463463374607431768211456 },
    { zTunnelSpec with localIp := 340282366920938463463374607431768211456 },
    { zTunnelSpec with remotePort := 65536 },
    { zTunnelSpec with localPort := 65536 }] : List TunnelSpec).any TunnelSpec.wf = false := by decide

/-- Each field of MemRequest out of its range is refused. -/
theorem test_wf_refuses_MemRequest : ([{ zMemRequest with address := 281474976710656 },
    { zMemRequest with port := 256 }] : List MemRequest).any MemRequest.wf = false := by decide

/-- Each field of LaneA out of its range is refused. -/
theorem test_wf_refuses_LaneA : ([{ zLaneA with lane := 64 },
    { zLaneA with form := .pair { zAArgs with dst := 32 } .nop },
    { zLaneA with form := .pair zAArgs (.mem .ld32 { zLArgs with reg := 32 }) },
    { zLaneA with form := .long 32 0 },
    { zLaneA with form := .long 0 4294967296 }] : List LaneA).any LaneA.wf = false := by decide

/-- Each field of LaneL out of its range is refused. -/
theorem test_wf_refuses_LaneL : ([{ zLaneL with lane := 64 },
    { zLaneL with x := { zLArgs with reg := 32 } },
    { zLaneL with beside := { op := .nop, x := { zAArgs with dst := 32 } } }] : List LaneL).any LaneL.wf = false := by decide

/-- Each check of a command refuses a command that breaks it alone. -/
theorem test_wf_refuses_part0 : ([.admitRoom { zDirHeader with tag := 4294967296 } 0 0,
    .admitRoom zDirHeader 65536 0,
    .admitRoom zDirHeader 0 65536,
    .admitParticipant { zDirHeader with tag := 4294967296 } 0 zPartSpec zAggSpec,
    .admitParticipant zDirHeader 65536 zPartSpec zAggSpec,
    .admitParticipant zDirHeader 0 { zPartSpec with transport := 256 } zAggSpec,
    .admitParticipant zDirHeader 0 zPartSpec { zAggSpec with egress := 256 },
    .admitLeg { zDirHeader with tag := 4294967296 } 0 zLegSpec,
    .admitLeg zDirHeader 4294967296 zLegSpec,
    .admitLeg zDirHeader 0 { zLegSpec with kind := 256 },
    .setLeg { zDirHeader with tag := 4294967296 } 0 zLegChange,
    .setLeg zDirHeader 4294967296 zLegChange,
    .setLeg zDirHeader 0 { zLegChange with cls := 256 },
    .setParticipant { zDirHeader with tag := 4294967296 } 0 0 0 0,
    .setParticipant zDirHeader 65536 0 0 0,
    .setParticipant zDirHeader 0 4294967296 0 0,
    .setParticipant zDirHeader 0 0 4294967296 0,
    .setParticipant zDirHeader 0 0 0 256,
    .release { zDirHeader with tag := 4294967296 } 0 0,
    .release zDirHeader 256 0,
    .release zDirHeader 0 4294967296,
    .requestKeyframe { zDirHeader with tag := 4294967296 } 0,
    .requestKeyframe zDirHeader 4294967296,
    .admitDecode { zDirHeader with tag := 4294967296 } 0 zDecodeSpec,
    .admitDecode zDirHeader 65536 zDecodeSpec,
    .admitDecode zDirHeader 0 { zDecodeSpec with codec := 256 },
    .readStatistics { zDirHeader with tag := 4294967296 } 0 0 0 0,
    .readStatistics zDirHeader 256 0 0 0,
    .readStatistics zDirHeader 0 65536 0 0,
    .readStatistics zDirHeader 0 0 256 0] : List Instr).any Instr.wf = false := by decide

/-- Each check of a command refuses a command that breaks it alone. -/
theorem test_wf_refuses_part1 : ([.readStatistics zDirHeader 0 0 0 4294967296,
    .admitComposite { zDirHeader with tag := 4294967296 } 0 zCompositeSpec,
    .admitComposite zDirHeader 65536 zCompositeSpec,
    .admitComposite zDirHeader 0 { zCompositeSpec with pool := 256 },
    .setLayout { zDirHeader with tag := 4294967296 } 0 [] 0,
    .setLayout zDirHeader 65536 [] 0,
    .setLayout zDirHeader 0 [] 65536,
    .admitEncode { zDirHeader with tag := 4294967296 } 0 zEncodeSpec,
    .admitEncode zDirHeader 65536 zEncodeSpec,
    .admitEncode zDirHeader 0 { zEncodeSpec with codec := 256 },
    .setEncode { zDirHeader with tag := 4294967296 } 0 zEncodeRate,
    .setEncode zDirHeader 65536 zEncodeRate,
    .setEncode zDirHeader 0 { zEncodeRate with target := 4294967296 },
    .admitMix { zDirHeader with tag := 4294967296 } 0 zMixSpec,
    .admitMix zDirHeader 65536 zMixSpec,
    .admitMix zDirHeader 0 { zMixSpec with maxTalkers := 256 },
    .setRoute { zDirHeader with tag := 4294967296 } 0 0 0,
    .setRoute zDirHeader 4294967296 0 0,
    .setRoute zDirHeader 0 256 0,
    .setRoute zDirHeader 0 0 128,
    .readLevels { zDirHeader with tag := 4294967296 } 0 0,
    .readLevels zDirHeader 65536 0,
    .readLevels zDirHeader 0 4294967296,
    .enableTalkerExport { zDirHeader with tag := 4294967296 } 0 none,
    .enableTalkerExport zDirHeader 65536 none,
    .enableTalkerExport zDirHeader 0 (some 4294967296),
    .startThread { zDirHeader with tag := 4294967296 } 0 0 0,
    .startThread zDirHeader 65536 0 0,
    .startThread zDirHeader 0 256 0,
    .startThread zDirHeader 0 0 4294967296] : List Instr).any Instr.wf = false := by decide

/-- Each check of a command refuses a command that breaks it alone. -/
theorem test_wf_refuses_part2 : ([.stopThread { zDirHeader with tag := 4294967296 } 0,
    .stopThread zDirHeader 65536,
    .deliverKeyToken { zDirHeader with tag := 4294967296 } [] 0,
    .deliverKeyToken zDirHeader [] 65536,
    .admitTunnel { zDirHeader with tag := 4294967296 } 0 zTunnelSpec,
    .admitTunnel zDirHeader 65536 zTunnelSpec,
    .admitTunnel zDirHeader 0 { zTunnelSpec with carrier := 256 },
    .switchEpoch { zDirHeader with tag := 4294967296 } 0 0,
    .switchEpoch zDirHeader 65536 0,
    .switchEpoch zDirHeader 0 65536,
    .sendTunnelMessage { zDirHeader with tag := 4294967296 } 0 0 [],
    .sendTunnelMessage zDirHeader 65536 0 [],
    .sendTunnelMessage zDirHeader 0 256 [],
    .sendFrame { zDirHeader with tag := 4294967296 } 0 0 [],
    .sendFrame zDirHeader 256 0 [],
    .sendFrame zDirHeader 0 256 [],
    .setShaper { zDirHeader with tag := 4294967296 } 0 0 0 0,
    .setShaper zDirHeader 256 0 0 0,
    .setShaper zDirHeader 0 256 0 0,
    .setShaper zDirHeader 0 0 4294967296 0,
    .setShaper zDirHeader 0 0 0 4294967296,
    .setPortLpi { zDirHeader with tag := 4294967296 } 0 0,
    .setPortLpi zDirHeader 256 0,
    .setPortLpi zDirHeader 0 65536,
    .enablePon { zDirHeader with tag := 4294967296 } 0 0 [],
    .enablePon zDirHeader 256 0 [],
    .enablePon zDirHeader 0 256 [],
    .enablePon zDirHeader 0 0 (List.replicate 37 0),
    .setPonPort { zDirHeader with tag := 4294967296 } 0 0 0 0 0 0,
    .setPonPort zDirHeader 256 0 0 0 0 0] : List Instr).any Instr.wf = false := by decide

/-- Each check of a command refuses a command that breaks it alone. -/
theorem test_wf_refuses_part3 : ([.setPonPort zDirHeader 0 65536 0 0 0 0,
    .setPonPort zDirHeader 0 0 65536 0 0 0,
    .setPonPort zDirHeader 0 0 0 256 0 0,
    .setPonPort zDirHeader 0 0 0 0 256 0,
    .setPonPort zDirHeader 0 0 0 0 0 256,
    .setPonMap { zDirHeader with tag := 4294967296 } 0 0 0,
    .setPonMap zDirHeader 256 0 0,
    .setPonMap zDirHeader 0 256 0,
    .setPonMap zDirHeader 0 0 65536,
    .sendOmci { zDirHeader with tag := 4294967296 } 0 [],
    .sendOmci zDirHeader 256 [],
    .ponTimeOfDay { zDirHeader with tag := 4294967296 } 0 0 0 0,
    .ponTimeOfDay zDirHeader 256 0 0 0,
    .ponTimeOfDay zDirHeader 0 18446744073709551616 0 0,
    .ponTimeOfDay zDirHeader 0 0 281474976710656 0,
    .ponTimeOfDay zDirHeader 0 0 0 4294967296,
    .switchPon { zDirHeader with tag := 4294967296 },
    .step { zDirHeader with tag := 4294967296 } 0,
    .step zDirHeader 256,
    .setSeconds { zDirHeader with tag := 4294967296 } 0,
    .setSeconds zDirHeader 281474976710656,
    .setMemoryRate { zDirHeader with tag := 4294967296 } 0,
    .setMemoryRate zDirHeader 256,
    .archivePages { zDirHeader with tag := 4294967296 } 0 0 0 0,
    .archivePages zDirHeader 18446744073709551616 0 0 0,
    .archivePages zDirHeader 0 4294967296 0 0,
    .archivePages zDirHeader 0 0 4294967296 0,
    .archivePages zDirHeader 0 0 0 18446744073709551616,
    .attest { zDirHeader with tag := 4294967296 } 0 0,
    .attest zDirHeader 115792089237316195423570985008687907853269984665640564039457584007913129639936 0] : List Instr).any Instr.wf = false := by decide

/-- Each check of a command refuses a command that breaks it alone. -/
theorem test_wf_refuses_part4 : ([.attest zDirHeader 0 4294967296,
    .pushImage { zDirHeader with tag := 4294967296 } [],
    .flashProgram { zDirHeader with tag := 4294967296 } [] 0,
    .flashProgram zDirHeader [] 256,
    .snapshotCounters { zDirHeader with tag := 4294967296 } 0 0 0,
    .snapshotCounters zDirHeader 4294967296 0 0,
    .snapshotCounters zDirHeader 0 4294967296 0,
    .snapshotCounters zDirHeader 0 0 256,
    .engineReset { zDirHeader with tag := 4294967296 } 0 0,
    .engineReset zDirHeader 256 0,
    .engineReset zDirHeader 0 256,
    .warmReset { zDirHeader with tag := 4294967296 },
    .zeroize { zDirHeader with tag := 4294967296 },
    .retire { zDirHeader with tag := 4294967296 },
    .directiveFetch [({ zDirHeader with tag := 4294967296 }, .warmReset)],
    .directiveFetch [(zDirHeader, .unknown 65536)],
    .ringEnable 5 0,
    .ringEnable 0 4294967296,
    .ringIndexWrite 5 0,
    .ringIndexWrite 0 4294967296,
    .registerWrite 0 3 0,
    .registerWrite 1 2 0,
    .registerWrite 4294967296 1 0,
    .registerWrite 0 1 256,
    .registerReadClear 0 3,
    .registerReadClear 1 2,
    .registerReadClear 4294967296 1,
    .legsQuery 256 0,
    .legsQuery 0 4194304,
    .decodeQuery 256 0] : List Instr).any Instr.wf = false := by decide

/-- Each check of a command refuses a command that breaks it alone. -/
theorem test_wf_refuses_part5 : ([.decodeQuery 0 16777216,
    .veilQuery 256 0,
    .veilQuery 0 16777216,
    .encodeQuery 4096,
    .audioQuery 256 0,
    .audioQuery 0 4194304,
    .mittenQuery 8192,
    .ingressQuery 256 0,
    .ingressQuery 0 16777216,
    .cipherQuery 1024,
    .gauntletQuery 4096,
    .bandQuery 256 0,
    .bandQuery 0 16777216,
    .ponQuery 2 0,
    .ponQuery 0 1024,
    .nearmemQuery 8 0 0,
    .nearmemQuery 0 256 0,
    .nearmemQuery 0 0 16777216,
    .marchGo 80 0,
    .marchGo 0 2,
    .dmaGo 64,
    .dmaAbort 64,
    .chainHeadWrite 64 0,
    .chainHeadWrite 0 18446744073709551616,
    .clockRequest 4,
    .descriptorFetched 64 none,
    .descriptorFetched 0 (some []),
    .dmaAccessComplete 64 false [],
    .log 4294967296 0,
    .log 0 4294967296] : List Instr).any Instr.wf = false := by decide

/-- Each check of a command refuses a command that breaks it alone. -/
theorem test_wf_refuses_part6 : ([.counters 4294967296,
    .peek 4294967296,
    .poke 4294967296 0,
    .poke 0 4294967296,
    .tamperIn 4 0,
    .flashSlotVerify 2 [],
    .i2cPoll 0 (some 256),
    .gpioWait 0 2,
    .domainRampDone 64,
    .lateDrop 7 0,
    .ptpMessage 18 zPtpArrival (.announce 0 0 0),
    .ptpMessage 0 { zPtpArrival with stamp := 18446744073709551616 } (.announce 0 0 0),
    .ptpMessage 0 { zPtpArrival with via := { zPtpVia with domain := 256 } } (.announce 0 0 0),
    .ptpMessage 0 { zPtpArrival with via := { zPtpVia with transport := 3 } } (.announce 0 0 0),
    .restoreWaitExpiry 0,
    .restoreWaitExpiry 5,
    .ppsEdge 18446744073709551616 false,
    .todTimeout 2,
    .pulseWidthEnd 2,
    .modTimeExpiry 5,
    .frameReceived 16 zMacFrame,
    .frameReceived 0 { zMacFrame with stamp := 18446744073709551616 },
    .frameReceived 0 { zMacFrame with bytes := [0] },
    .cuffBankSwitch 18,
    .frameParse 18 zParseReads,
    .fragTimeout 8192,
    .recirculated 8 zInnerReads,
    .cipherJobAccept 8 0 (List.replicate 64 0) (.srtpIn 0 0 0 false 0 0 0 []),
    .cipherJobAccept 0 128 (List.replicate 64 0) (.srtpIn 0 0 0 false 0 0 0 []),
    .cipherJobAccept 0 0 [] (.srtpIn 0 0 0 false 0 0 0 [])] : List Instr).any Instr.wf = false := by decide

/-- Each check of a command refuses a command that breaks it alone. -/
theorem test_wf_refuses_part7 : ([.keyLoad 8 0 false,
    .keyLoad 0 1024 false,
    .cipherCompletion 0 { zJobResult with core := 32 },
    .palmReshare 8 0,
    .palmReshare 0 1024,
    .feedbackReport 65536 [],
    .feedbackReport 0 [{ zFeedbackItem with ssrc := 4294967296 }],
    .feedbackReport 0 [{ zFeedbackItem with seq := 65536 }],
    .nackReceived 0 [65536],
    .legDrained 3 0,
    .engineFailure 11 0 false,
    .engineFailure 0 16 false,
    .signaturesComputed 0 16,
    .audioPacket 0 65536,
    .mixPeriod 0 8,
    .codecBatchDone 8 [],
    .runaway 64,
    .nop 64,
    .add { zLaneA with lane := 64 },
    .sub { zLaneA with lane := 64 },
    .adds { zLaneA with lane := 64 },
    .subs { zLaneA with lane := 64 },
    .and { zLaneA with lane := 64 },
    .or { zLaneA with lane := 64 },
    .xor { zLaneA with lane := 64 },
    .shl { zLaneA with lane := 64 },
    .shr { zLaneA with lane := 64 },
    .asr { zLaneA with lane := 64 },
    .min { zLaneA with lane := 64 },
    .max { zLaneA with lane := 64 }] : List Instr).any Instr.wf = false := by decide

/-- Each check of a command refuses a command that breaks it alone. -/
theorem test_wf_refuses_part8 : ([.abs { zLaneA with lane := 64 },
    .mul { zLaneA with lane := 64 },
    .mov { zLaneA with lane := 64 },
    .mac { zLaneA with lane := 64 },
    .msu { zLaneA with lane := 64 },
    .dot4 { zLaneA with lane := 64 },
    .vmac4 { zLaneA with lane := 64 },
    .aclr { zLaneA with lane := 64 },
    .aext { zLaneA with lane := 64 },
    .ald { zLaneA with lane := 64 },
    .aadd { zLaneA with lane := 64 },
    .dstep { zLaneA with lane := 64 },
    .dfix { zLaneA with lane := 64 },
    .movcTo { zLaneA with lane := 64 },
    .movcFrom { zLaneA with lane := 64 },
    .cmp { zLaneA with lane := 64 },
    .ld8s { zLaneL with lane := 64 },
    .ld16s { zLaneL with lane := 64 },
    .ld32 { zLaneL with lane := 64 },
    .ld64 { zLaneL with lane := 64 },
    .ldq { zLaneL with lane := 64 },
    .st8 { zLaneL with lane := 64 },
    .st16 { zLaneL with lane := 64 },
    .st32 { zLaneL with lane := 64 },
    .st64 { zLaneL with lane := 64 },
    .stq { zLaneL with lane := 64 },
    .ldxy 64 zXYArgs zASlot,
    .ldxy 0 { zXYArgs with quadX := 8 } zASlot,
    .ldxy 0 zXYArgs { op := .nop, x := { zAArgs with dst := 32 } },
    .pset { zLaneL with lane := 64 }] : List Instr).any Instr.wf = false := by decide

/-- Each check of a command refuses a command that breaks it alone. -/
theorem test_wf_refuses_part9 : ([.pget { zLaneL with lane := 64 },
    .br 64 0 0,
    .br 0 16 0,
    .br 0 0 (-8388609),
    .br 0 0 8388608,
    .call 64 0 0,
    .call 0 16 0,
    .call 0 0 (-8388609),
    .call 0 0 8388608,
    .ret 64,
    .loop 64 0 false false 0 1,
    .loop 0 2 false false 0 1,
    .loop 0 0 false false 65536 1,
    .loop 0 0 false true 32 1,
    .loop 0 0 false false 0 0,
    .loop 0 0 false false 0 4097,
    .wait 64 0 0,
    .wait 0 4 0,
    .wait 0 0 65536,
    .signal 64 0 0,
    .signal 0 8 0,
    .signal 0 0 64,
    .spawn 64 0 0 0,
    .spawn 0 32 0 0,
    .spawn 0 0 32 0,
    .spawn 0 0 0 32,
    .fetch 64 0 0 1,
    .fetch 0 32 0 1,
    .fetch 0 0 32 1,
    .fetch 0 0 0 0] : List Instr).any Instr.wf = false := by decide

/-- Each check of a command refuses a command that breaks it alone. -/
theorem test_wf_refuses_part10 : ([.fetch 0 0 0 65,
    .put 64 0 0 1,
    .put 0 32 0 1,
    .put 0 0 32 1,
    .put 0 0 0 0,
    .put 0 0 0 65,
    .fence 64,
    .transferDone 64 0 zTransferResult,
    .transferDone 0 3 zTransferResult,
    .gauntletFrameRx 18 0 [],
    .gauntletFrameRx 0 18446744073709551616 [],
    .egressFree 18,
    .gateEntryChange 18,
    .gateListChanged 18,
    .ponGrant 2 0,
    .ponGrant 0 16384,
    .linkUp 16,
    .linkDown 16 false,
    .lpiEnter 16,
    .lpiWake 16,
    .psyncHunt 2 0 zPsyncRead,
    .psyncHunt 0 0 { zPsyncRead with errors := 65 },
    .syncLost 2,
    .ponDownstreamFrame 2 zDownFrame,
    .ponDownstreamFrame 0 { zDownFrame with stamp := 18446744073709551616 },
    .ponDownstreamFrame 0 { zDownFrame with bwmap := [{ zBwAlloc with allocId := 16384 }] },
    .burstProfile 2 zPloam zBurstProfile,
    .burstProfile 0 zPloam { zBurstProfile with index := 4 },
    .assignOnuId 2 zPloam [] 0,
    .assignOnuId 0 zPloam [] 1024] : List Instr).any Instr.wf = false := by decide

/-- Each check of a command refuses a command that breaks it alone. -/
theorem test_wf_refuses_part11 : ([.rangingTime 2 zPloam false 0,
    .requestRegistration 2 zPloam,
    .assignAllocId 2 zPloam 0 false,
    .assignAllocId 0 zPloam 16384 false,
    .keyControl 2 zPloam 0,
    .keyControl 0 zPloam 4,
    .deactivateOnuId 2 zPloam,
    .disableSerialNumber 2 zPloam none false,
    .sleepAllow 2 zPloam,
    .ploamUnsupported 2 zPloam 0,
    .ploamUnsupported 0 zPloam 256,
    .to1Expiry 2,
    .to2Expiry 2,
    .burstWindow 2,
    .watchdogTrip 2 0 0,
    .omciMessage 2 zOmciMessage,
    .todMeasurement 2,
    .memoryRequest 8 0 none .clean,
    .memoryRequest 0 16 none .clean,
    .memoryRequest 0 0 (some { zMemRequest with address := 281474976710656 }) .clean,
    .refreshDue 8 0 0,
    .refreshDue 0 16 0,
    .refreshDue 0 0 32,
    .temperatureReading 8 0,
    .temperatureReading 0 128,
    .catchupEnd 8,
    .rowRemap 8 0 zRowCopy,
    .rowRemap 0 16 zRowCopy,
    .rowRemap 0 0 { zRowCopy with bank := 32 },
    .scrubRead 8 0 .clean] : List Instr).any Instr.wf = false := by decide

/-- Each check of a command refuses a command that breaks it alone. -/
theorem test_wf_refuses_part12 : ([.scrubRead 0 16 .clean,
    .trackingStep 8 0 false false,
    .trackingStep 0 16 false false,
    .channelFault 8 0,
    .channelFault 0 16,
    .liningAccess 80 [],
    .liningAccess 0 [{ request := { zMemRequest with address := 281474976710656 }, ecc := .clean }],
    .rowSpare 80 zRowCopy,
    .rowSpare 0 { zRowCopy with bank := 64 },
    .gloveboxAccess { zMemRequest with address := 281474976710656 },
    .pageFetchDone 0 (.read [] []),
    .crownLinkFault { zLinkMeeting with link := 65536 },
    .retirement 8 0,
    .retirement 0 16,
    .junctionReading 128,
    .engineResetDone 11 0,
    .engineResetDone 0 16,
    .trainingSetExpiry 8 0,
    .trainingSetExpiry 0 3,
    .partnerLpiSignal 16 false] : List Instr).any Instr.wf = false := by decide

/-- Data longer than its length field can say is refused. -/
theorem test_wf_refuses_long_data (h : DirHeader) (d : List (BitVec 8)) (hd : 65536 ≤ d.length) :
    Instr.wf (.sendTunnelMessage h 0 0 d) = false ∧ Instr.wf (.sendFrame h 0 0 d) = false ∧ Instr.wf (.sendOmci h 0 d) = false := by
  have k : fits 16 d.length = false := by unfold fits; exact decide_eq_false (by omega)
  simp [Instr.wf, Directive.wf, k]

/-- Data longer than what carries it is refused, and an UNLOCK of the right length is taken. -/
theorem test_wf_refuses_data_of_a_wrong_length (h : DirHeader) (d : List (BitVec 8)) :
    (7420 < h.authBlock.length → h.wf = false) ∧ (d.length = 7420 → Instr.wf (.unlock d true) = true) ∧ (d.length = 7421 → Instr.wf (.unlock d true) = false) ∧
    (33554432 < d.length → Instr.wf (.flashSlotVerify 0 d) = false) ∧ (4096 < d.length → Instr.wf (.dmaAccessComplete 0 true d) = false) ∧
    (4294967296 ≤ d.length → Instr.wf (.pushImage h d) = false ∧ Instr.wf (.flashProgram h d 0) = false) := by
  refine ⟨fun k => ?_, fun k => ?_, fun k => ?_, fun k => ?_, fun k => ?_, fun k => ?_⟩ <;> simp [DirHeader.wf, Instr.wf, Directive.wf, fits, k]

/-- A word of a row that the row does not have is refused. -/
theorem test_wf_refuses_words_beyond_a_row :
    Instr.wf (.rowRemap 0 0 ⟨0, [16]⟩) = false ∧ Instr.wf (.rowSpare 0 ⟨0, [8]⟩) = false := by decide

/-- The commands that the refused ones differ from are well formed. -/
theorem test_wf_accepts_part0 : ([.admitRoom zDirHeader 0 0,
    .admitParticipant zDirHeader 0 zPartSpec zAggSpec,
    .admitLeg zDirHeader 0 zLegSpec,
    .setLeg zDirHeader 0 zLegChange,
    .setParticipant zDirHeader 0 0 0 0,
    .release zDirHeader 0 0,
    .requestKeyframe zDirHeader 0,
    .admitDecode zDirHeader 0 zDecodeSpec,
    .readStatistics zDirHeader 0 0 0 0,
    .admitComposite zDirHeader 0 zCompositeSpec,
    .setLayout zDirHeader 0 [] 0,
    .admitEncode zDirHeader 0 zEncodeSpec,
    .setEncode zDirHeader 0 zEncodeRate,
    .admitMix zDirHeader 0 zMixSpec,
    .setRoute zDirHeader 0 0 0,
    .readLevels zDirHeader 0 0,
    .enableTalkerExport zDirHeader 0 none,
    .startThread zDirHeader 0 0 0,
    .stopThread zDirHeader 0,
    .deliverKeyToken zDirHeader [] 0,
    .admitTunnel zDirHeader 0 zTunnelSpec,
    .switchEpoch zDirHeader 0 0,
    .sendTunnelMessage zDirHeader 0 0 [],
    .sendFrame zDirHeader 0 0 [],
    .setShaper zDirHeader 0 0 0 0,
    .setPortLpi zDirHeader 0 0,
    .enablePon zDirHeader 0 0 [],
    .setPonPort zDirHeader 0 0 0 0 0 0,
    .setPonMap zDirHeader 0 0 0,
    .sendOmci zDirHeader 0 [],
    .ponTimeOfDay zDirHeader 0 0 0 0,
    .switchPon zDirHeader,
    .step zDirHeader 0,
    .setSeconds zDirHeader 0,
    .setMemoryRate zDirHeader 0,
    .archivePages zDirHeader 0 0 0 0,
    .attest zDirHeader 0 0,
    .pushImage zDirHeader [],
    .flashProgram zDirHeader [] 0,
    .snapshotCounters zDirHeader 0 0 0,
    .engineReset zDirHeader 0 0,
    .warmReset zDirHeader,
    .zeroize zDirHeader,
    .retire zDirHeader,
    .directiveFetch [],
    .ringEnable 0 0,
    .ringIndexWrite 0 0,
    .registerWrite 0 1 0,
    .registerReadClear 0 1,
    .snapshotCapture,
    .legsQuery 0 0,
    .decodeQuery 0 0,
    .veilQuery 0 0,
    .encodeQuery 0,
    .audioQuery 0 0,
    .mittenQuery 0,
    .ingressQuery 0 0,
    .cipherQuery 0,
    .gauntletQuery 0,
    .bandQuery 0 0,
    .ponQuery 0 0,
    .nearmemQuery 0 0 0,
    .marchGo 0 0,
    .marchDone [] [],
    .dmaGo 0,
    .dmaAbort 0,
    .chainHeadWrite 0 0,
    .clockRequest 0,
    .descriptorFetched 0 none,
    .dmaAccessComplete 0 false []] : List Instr).all Instr.wf = true := by decide

/-- The commands that the refused ones differ from are well formed. -/
theorem test_wf_accepts_part1 : ([.ident,
    .status,
    .log 0 0,
    .counters 0,
    .challenge,
    .unlock [] false,
    .peek 0,
    .poke 0 0,
    .lock,
    .unlockExpiry,
    .pwrGoodFall,
    .pwrGoodRise,
    .selfTestDone false,
    .resetNLow 0,
    .resetNRise,
    .perstN,
    .functionLevelReset,
    .pcieLinkLoss,
    .knitBreach,
    .railOutOfRange 0,
    .temperatureTrigger 0,
    .clockTrigger 0,
    .tamperIn 0 0,
    .zeroizePin 0,
    .zeroizeScrubDone,
    .entryToServing,
    .flashSlotVerify 0 [],
    .imageVerified,
    .bootStep,
    .bootWait,
    .i2cWrite false,
    .i2cPoll 0 none,
    .gpioWait 0 0,
    .domainRampDone 0,
    .tickBoundary,
    .lateDrop 3 0,
    .generationChanged,
    .generationRetired,
    .genForced,
    .ptpMessage 0 zPtpArrival (.announce 0 0 0),
    .sourceDisqualified,
    .restoreWaitExpiry 1,
    .delayReqSend,
    .announceTimeout 0,
    .ppsEdge 0 false,
    .ppsMissing,
    .todTimeout 0,
    .ppsOut,
    .pulseWidthEnd 0,
    .heartbeat,
    .modTimeExpiry 0,
    .drbgReseed,
    .entropyHealthFail,
    .frameReceived 0 zMacFrame,
    .cuffBankSwitch 0,
    .frameParse 0 zParseReads,
    .fragTimeout 0,
    .recirculated 0 zInnerReads,
    .cipherJobAccept 0 0 (List.replicate 64 0) (.srtpIn 0 0 0 false 0 0 0 []),
    .keyLoad 0 0 false,
    .cipherCompletion 0 zJobResult,
    .layerRaiseWait 0,
    .palmReshare 0 0,
    .feedbackReport 0 [],
    .feedbackStale 0,
    .nackUpTimer 0,
    .nackReceived 0 [],
    .keyframeRequest 0 false,
    .keyframePendingExpiry 0,
    .legDrained 0 0] : List Instr).all Instr.wf = true := by decide

/-- The commands that the refused ones differ from are well formed. -/
theorem test_wf_accepts_part2 : ([.frameReady 0 zCodedFrame,
    .decodeRowJob 0 zRowWork,
    .engineFailure 0 0 false,
    .compositeFrameBoundary 0,
    .signaturesComputed 0 0,
    .veilBandJob 0 zBandWork,
    .visorFail 0,
    .encodeFrameStart 0,
    .encodeRowJob 0 zEncodeWork,
    .audioPacket 0 0,
    .jbRecompute 0,
    .mixPeriod 0 0,
    .comfortNoise 0,
    .codecBatchDone 0 [],
    .talkerExportWrite 0,
    .preempt 0,
    .affinityExpiry 0,
    .threadDelayExpiry,
    .runaway 0,
    .nop 0,
    .add zLaneA,
    .sub zLaneA,
    .adds zLaneA,
    .subs zLaneA,
    .and zLaneA,
    .or zLaneA,
    .xor zLaneA,
    .shl zLaneA,
    .shr zLaneA,
    .asr zLaneA,
    .min zLaneA,
    .max zLaneA,
    .abs zLaneA,
    .mul zLaneA,
    .mov zLaneA,
    .mac zLaneA,
    .msu zLaneA,
    .dot4 zLaneA,
    .vmac4 zLaneA,
    .aclr zLaneA,
    .aext zLaneA,
    .ald zLaneA,
    .aadd zLaneA,
    .dstep zLaneA,
    .dfix zLaneA,
    .movcTo zLaneA,
    .movcFrom zLaneA,
    .cmp zLaneA,
    .ld8s zLaneL,
    .ld16s zLaneL,
    .ld32 zLaneL,
    .ld64 zLaneL,
    .ldq zLaneL,
    .st8 zLaneL,
    .st16 zLaneL,
    .st32 zLaneL,
    .st64 zLaneL,
    .stq zLaneL,
    .ldxy 0 zXYArgs zASlot,
    .pset zLaneL,
    .pget zLaneL,
    .br 0 0 0,
    .call 0 0 0,
    .ret 0,
    .loop 0 0 false false 0 1,
    .wait 0 0 0,
    .signal 0 0 0,
    .spawn 0 0 0 0,
    .fetch 0 0 0 1,
    .put 0 0 0 1] : List Instr).all Instr.wf = true := by decide

/-- The commands that the refused ones differ from are well formed. -/
theorem test_wf_accepts_part3 : ([.fence 0,
    .transferDone 0 0 zTransferResult,
    .gauntletFrameRx 0 0 [],
    .oldEpochExpiry 0,
    .tunnelFrameSlot 0,
    .tunnelDown 0,
    .tunnelFreed 0,
    .bandRelease,
    .pacingSlot,
    .egressFree 0,
    .gateEntryChange 0,
    .gateListChanged 0,
    .ponGrant 0 0,
    .linkUp 0,
    .linkDown 0 false,
    .lpiEnter 0,
    .lpiWake 0,
    .psyncHunt 0 0 zPsyncRead,
    .syncLost 0,
    .ponDownstreamFrame 0 zDownFrame,
    .burstProfile 0 zPloam zBurstProfile,
    .assignOnuId 0 zPloam [] 0,
    .rangingTime 0 zPloam false 0,
    .requestRegistration 0 zPloam,
    .assignAllocId 0 zPloam 0 false,
    .keyControl 0 zPloam 0,
    .deactivateOnuId 0 zPloam,
    .disableSerialNumber 0 zPloam none false,
    .sleepAllow 0 zPloam,
    .ploamUnsupported 0 zPloam 0,
    .to1Expiry 0,
    .to2Expiry 0,
    .burstWindow 0,
    .watchdogTrip 0 0 0,
    .omciMessage 0 zOmciMessage,
    .protectSwitch,
    .todMeasurement 0,
    .memoryRequest 0 0 none .clean,
    .refreshDue 0 0 0,
    .temperatureReading 0 0,
    .catchupEnd 0,
    .rowRemap 0 0 zRowCopy,
    .scrubRead 0 0 .clean,
    .trackingStep 0 0 false false,
    .channelFault 0 0,
    .liningAccess 0 [],
    .rowSpare 0 zRowCopy,
    .gloveboxAccess zMemRequest,
    .pageFetchDone 0 .hostError,
    .crownLinkFault zLinkMeeting,
    .retirement 0 0,
    .autoWarmReset,
    .setPointChange,
    .junctionReading 0,
    .agingCheck 0,
    .pcieLinkUp,
    .engineResetDone 0 0,
    .entropyStartupPassed,
    .trainingSetExpiry 0 0,
    .memoryRetrainingDone [],
    .attestationReportSigned,
    .flashProgramWritten,
    .partnerLpiSignal 0 false] : List Instr).all Instr.wf = true := by decide

/-! ### Every hypothesis is met -/

theorem witness_StepTakesTheFrontCommand :
    (∃ (c : Instr) (rest : List Instr) (s : State), s.pending = c :: rest) ∧
    (∃ (s : State), s.pending = []) :=
  ⟨⟨.tickBoundary, [], { State.reset with pending := [.tickBoundary] }, rfl⟩,
   ⟨State.reset, rfl⟩⟩

theorem witness_EveryCommandCompletes : ∃ (c : Instr) (s : State) (f : Fault), exec c s = .fault f :=
  ⟨.registerWrite 0x4000000 4 0, State.reset, _, rfl⟩

theorem witness_PartIdentityNeverChanges : ∃ (s : State) (t : State), step s = .next t :=
  ⟨State.reset, _, rfl⟩

theorem witness_CommandsLeaveTheQueue :
    (∃ (c : Instr) (s : State) (t : State), exec c s = .next t) ∧
    (∃ (c : Instr) (rest : List Instr) (s : State) (t : State), s.pending = c :: rest ∧ step s = .next t) ∧
    (∃ (s : State) (t : State), s.pending = [] ∧ step s = .next t) :=
  ⟨⟨.nop 0, State.reset, _, rfl⟩,
   ⟨.nop 0, [], { State.reset with pending := [.nop 0] }, _, rfl, rfl⟩,
   ⟨State.reset, _, rfl, rfl⟩⟩

theorem witness_InternalMemoryStaysCanonical : ∃ (s : State) (t : State), s.memoryWf = true ∧ step s = .next t :=
  ⟨State.reset, _, rfl, rfl⟩

theorem witness_MemoryReadsBackWhatWasWritten :
    (∃ (m : List Host.Cell) (a : Nat) (bs : List Byte), Memory.wf m = true) ∧
    (∃ (m : List Host.Cell) (a : Nat) (bs : List Byte) (x : Nat), (x < a ∨ a + bs.length ≤ x)) ∧
    (∃ (m : List Host.Cell) (a : Nat) (bs : List Byte), Memory.wf m = true) ∧
    (∃ (m : List Host.Cell) (n : List Host.Cell), Memory.wf m = true ∧ Memory.wf n = true ∧ (∀ a, memByte m a = memByte n a)) ∧
    (∃ (m : List Host.Cell) (a : Nat) (b : Nat) (x : List Byte) (y : List Byte), Memory.wf m = true ∧ a + x.length ≤ b) :=
  ⟨⟨[(1, 5)], 1, [0], rfl⟩,
   ⟨[], 1, [0], 0, by decide⟩,
   ⟨[(1, 5)], 1, [0], rfl⟩,
   ⟨[(1, 5)], [(1, 5)], rfl, rfl, fun _ => rfl⟩,
   ⟨[(1, 5)], 1, 2, [0], [7], rfl, by decide⟩⟩

theorem witness_RegisterFileReadsBackWhatWasWritten :
    (∃ (s : State) (f : Fld) (g : Fld) (v : Nat), g.key ≠ f.key) ∧
    (∃ (s : State) (f : Fld) (v : Nat), Table.wf s.regs = true) :=
  ⟨⟨sv, dirRing.head, dirRing.tail, 1, by decide⟩,
   ⟨sv, dirRing.head, 1, rfl⟩⟩

theorem witness_LateDirectivesComplete :
    (∃ (s : State) (h : DirHeader) (index : Nat) (minRate : Nat) (maxRate : Nat) (weight : Nat), passes s h (.setParticipant index minRate maxRate weight) = true ∧ partActive (checked s h (.setParticipant index minRate maxRate weight)) index = true) ∧
    (∃ (s : State) (h : DirHeader) (sender : Nat), passes s h (.requestKeyframe sender) = true ∧ senderLive (checked s h (.requestKeyframe sender)) sender = true) ∧
    (∃ (s : State) (h : DirHeader) (i : Nat) (r : EncodeRate) (e : EncodeStream), passes s h (.setEncode i r) = true ∧ (checked s h (.setEncode i r)).encodes.get i = some e ∧ e.state ≠ .draining) ∧
    (∃ (s : State) (h : DirHeader) (l : Nat) (mode : Nat) (gain : Int), passes s h (.setRoute l mode gain) = true ∧ legLive (checked s h (.setRoute l mode gain)) l = true ∧ routeFits (checked s h (.setRoute l mode gain)) l mode = true) ∧
    (∃ (s : State) (h : DirHeader) (room : Nat) (m : Mix), passes s h (.enableTalkerExport room none) = true ∧ (checked s h (.enableTalkerExport room none)).mixes.get room = some m ∧ m.state ≠ .draining) ∧
    (∃ (s : State) (h : DirHeader) (room : Nat) (at_ : Nat) (m : Mix), passes s h (.enableTalkerExport room (some at_)) = true ∧ (checked s h (.enableTalkerExport room (some at_))).mixes.get room = some m ∧ m.state ≠ .draining ∧ bitOf (exportBits (checked s h (.enableTalkerExport room (some at_)))) 3 = 1) ∧
    (∃ (s : State) (h : DirHeader) (t : Nat), passes s h (.stopThread t) = true ∧ (threadOf (checked s h (.stopThread t)) t).isSome = true) ∧
    (∃ (s : State) (h : DirHeader) (t : Nat) (label : Nat) (data : List Byte), passes s h (.sendTunnelMessage t label data) = true ∧ tunnelLive (checked s h (.sendTunnelMessage t label data)) t = true) ∧
    (∃ (s : State) (h : DirHeader) (e : Nat) (c : Nat) (frame : List Byte), passes s h (.sendFrame e c frame) = true) ∧
    (∃ (s : State) (h : DirHeader) (e : Nat) (c : Nat) (rate : Nat) (burst : Nat), passes s h (.setShaper e c rate burst) = true) ∧
    (∃ (s : State) (h : DirHeader) (m : Nat) (tw : Nat), passes s h (.setPortLpi m tw) = true) ∧
    (∃ (s : State) (h : DirHeader) (p : Nat) (disabled : Nat) (registration : List Byte), passes s h (.enablePon p disabled registration) = true ∧ ponNamed (checked s h (.enablePon p disabled registration)) p = true) ∧
    (∃ (s : State) (h : DirHeader) (p : Nat) (c : Nat) (allocId : Nat), passes s h (.setPonMap p c allocId) = true ∧ ponMapAdmissible (checked s h (.setPonMap p c allocId)) p c allocId = true) ∧
    (∃ (s : State) (h : DirHeader) (p : Nat) (index : Nat) (portId : Nat) (direction : Nat) (queue : Nat) (flags : Nat), passes s h (.setPonPort p index portId direction queue flags) = true ∧ ponEntryAdmissible (checked s h (.setPonPort p index portId direction queue flags)) p index portId direction queue flags = true) ∧
    (∃ (s : State) (h : DirHeader), passes s h .switchPon = true ∧ ponPaired (checked s h .switchPon) = true ∧ bitOf (omciLimits (checked s h .switchPon)).flags 3 = 1) ∧
    (∃ (s : State) (h : DirHeader) (n : Nat), passes s h (.setSeconds n) = true ∧ everLocked (checked s h (.setSeconds n)) = false) ∧
    (∃ (s : State) (h : DirHeader) (kind : Nat) (index : Nat), passes s h (.engineReset kind index) = true ∧ inServiceEngine (checked s h (.engineReset kind index)) kind index = true ∧ (checked s h (.engineReset kind index)).faults.resetting.contains (engineId kind index) = false) :=
  ⟨⟨{ dv with participants := [(0, { zParticipant with state := .active })] }, hd, 0, 100000, 200000, 1, rfl, rfl⟩,
   ⟨dvLeg, hd, 0, rfl, rfl⟩,
   ⟨{ dv with encodes := [(0, { enc with spec := es, height := 64 })] }, hd, 0, { er with maxPayload := 0 }, { enc with spec := es, height := 64 }, rfl, rfl, by decide⟩,
   ⟨{ dvLeg with audio := [(0, { zAudioSource with state := .active })] }, hd, 0, 0, 0, rfl, rfl, rfl⟩,
   ⟨{ dv with mixes := [(0, { zMix with state := .active })] }, hd, 0, { zMix with state := .active }, rfl, rfl, by decide⟩,
   ⟨{ dv with mixes := [(0, { zMix with state := .active })], trust := { dv.trust with current := { zGeneration with policy := [.export_ 8] } } }, hd, 0, 0, { zMix with state := .active }, rfl, rfl, by decide, rfl⟩,
   ⟨{ dv with mitten := { dv.mitten with threads := [(0, { zThread with state := .ready })] } }, hd, 0, rfl, rfl⟩,
   ⟨{ dv with gauntlet := { dv.gauntlet with tunnels := [(0, tun)] } }, hd, 0, 2, [0], rfl, rfl⟩,
   ⟨dvI, hd, 0, 0, (List.replicate 14 0), rfl⟩,
   ⟨dvI, hd, 0, 0, 0, 1522, rfl⟩,
   ⟨wr dvI (Reg.ETH.PORT_STATUS_VALID.on 0) 1, hd, 0, 0, rfl⟩,
   ⟨wr dv (Reg.PON.PON_CONFIG_MODE.on 0) 1, hd, 0, 0, [], rfl, rfl⟩,
   ⟨ponA (wrAll dvI [(Reg.PON.PON_CONFIG_MODE.on 0, 1)]) (fun x => { x with allocs := [some 1024] }), hd, 0, 0, 1024, rfl, rfl⟩,
   ⟨wrAll dvI [(Reg.PON.PON_CONFIG_MODE.on 0, 1)], hd, 0, 0, 100, 2, 0, 1, rfl, rfl⟩,
   ⟨wr dv (Reg.PON.PON_CONFIG_PROTECTED.on 0) 1, hd, rfl, rfl, rfl⟩,
   ⟨dv, hd, 5, rfl, rfl⟩,
   ⟨dvI, hd, 4, 0, rfl, rfl, rfl⟩⟩

theorem witness_AdmissionDirectivesComplete :
    (∃ (s : State) (p : State) (h : DirHeader) (i : Nat) (x : PartSpec) (a : AggSpec), passes s h (.admitParticipant i x a) = true ∧ p = checked s h (.admitParticipant i x a) ∧ participantAdmissible p i x = true) ∧
    (∃ (s : State) (p : State) (h : DirHeader) (l : Nat) (x : LegSpec), passes s h (.admitLeg l x) = true ∧ p = checked s h (.admitLeg l x) ∧ legAdmissible p l x = true) ∧
    (∃ (s : State) (p : State) (h : DirHeader) (l : Nat) (c : LegChange), passes s h (.setLeg l c) = true ∧ p = checked s h (.setLeg l c) ∧ legChangeable p l c = true) ∧
    (∃ (s : State) (p : State) (h : DirHeader) (i : Nat) (d : DecodeSpec), passes s h (.admitDecode i d) = true ∧ p = checked s h (.admitDecode i d) ∧ decodeAdmissible p i d = true) ∧
    (∃ (s : State) (p : State) (h : DirHeader) (i : Nat) (c : CompositeSpec), passes s h (.admitComposite i c) = true ∧ p = checked s h (.admitComposite i c) ∧ compositeAdmissible p i c = true) ∧
    (∃ (s : State) (p : State) (h : DirHeader) (i : Nat) (e : EncodeSpec) (size : Nat × Nat), passes s h (.admitEncode i e) = true ∧ p = checked s h (.admitEncode i e) ∧ encodeAdmissible p i e size = true) ∧
    (∃ (s : State) (p : State) (h : DirHeader) (r : Nat) (m : MixSpec), passes s h (.admitMix r m) = true ∧ p = checked s h (.admitMix r m) ∧ mixAdmissible p r m = true) ∧
    (∃ (s : State) (p : State) (h : DirHeader) (i : Nat) (u : TunnelSpec), passes s h (.admitTunnel i u) = true ∧ p = checked s h (.admitTunnel i u) ∧ tunnelAdmissible p i u = true) ∧
    (∃ (s : State) (p : State) (h : DirHeader) (entry : Nat) (cluster : Nat) (arg : Nat) (t : Nat) (u : Nat) (e : CodeEntry), passes s h (.startThread entry cluster arg) = true ∧ p = checked s h (.startThread entry cluster arg) ∧ entryOf p.trust.current entry = some e ∧ (cluster = 255 ∨ inServiceEngine p 3 cluster = true) ∧ nextThread p = some t ∧ threadPlace p t e.cost cluster = some u) ∧
    (∃ (s : State) (p : State) (h : DirHeader) (port : Nat) (message : List Byte), passes s h (.sendOmci port message) = true ∧ p = checked s h (.sendOmci port message) ∧ omciAdmissible p port = true) ∧
    (∃ (s : State) (p : State) (h : DirHeader) (port : Nat) (superframe : Nat) (seconds : Nat) (nanoseconds : Nat), passes s h (.ponTimeOfDay port superframe seconds nanoseconds) = true ∧ p = checked s h (.ponTimeOfDay port superframe seconds nanoseconds) ∧ todAdmissible p port = true) ∧
    (∃ (s : State) (p : State) (h : DirHeader) (kind : Nat) (i : Nat) (what : Nat) (dest : Nat), passes s h (.readStatistics kind i what dest) = true ∧ p = checked s h (.readStatistics kind i what dest) ∧ exportAllows p what = true ∧ statisticsBuffer p kind i = some none) ∧
    (∃ (s : State) (p : State) (h : DirHeader) (kind : Nat) (i : Nat) (what : Nat) (dest : Nat) (b : Nat), passes s h (.readStatistics kind i what dest) = true ∧ p = checked s h (.readStatistics kind i what dest) ∧ exportAllows p what = true ∧ statisticsBuffer p kind i = some (some b) ∧ statisticsLength p kind i what ≤ 65536) ∧
    (∃ (s : State) (p : State) (h : DirHeader) (kind : Nat) (i : Nat) (what : Nat) (dest : Nat) (b : Nat), passes s h (.readStatistics kind i what dest) = true ∧ p = checked s h (.readStatistics kind i what dest) ∧ exportAllows p what = true ∧ statisticsBuffer p kind i = some (some b) ∧ 65536 < statisticsLength p kind i what) ∧
    (∃ (s : State) (p : State) (h : DirHeader) (token : List Byte) (length : Nat) (k : KeyToken), passes s h (.deliverKeyToken token length) = true ∧ p = checked s h (.deliverKeyToken token length) ∧ k = readToken p.trust.keks token ∧ tokenWaits p k.kind = false) ∧
    (∃ (s : State) (h : DirHeader) (l : Nat) (c : LegChange) (t : State) (d1 : Nat) (d2 : Nat), passes s h (.setLeg l c) = true ∧ setLegRule l c (checked s h (.setLeg l c)) = .done t d1 d2) ∧
    (∃ (s : State) (h : DirHeader) (l : Nat) (x : LegSpec) (t : State) (d1 : Nat) (d2 : Nat), passes s h (.admitLeg l x) = true ∧ admitLegRule l x (checked s h (.admitLeg l x)) = .done t d1 d2) ∧
    (∃ (s : State) (h : DirHeader) (p : Nat) (index : Nat) (portId : Nat) (direction : Nat) (queue : Nat) (flags : Nat) (t : State) (d1 : Nat) (d2 : Nat), passes s h (.setPonPort p index portId direction queue flags) = true ∧ setPonPortRule p index portId direction queue flags (checked s h (.setPonPort p index portId direction queue flags)) = .done t d1 d2) ∧
    (∃ (s : State) (h : DirHeader) (token : List Byte) (length : Nat), passes s h (.deliverKeyToken token length) = true) :=
  ⟨⟨{ withTun dvI pinned with rooms := [(0, room0)] }, _, hd, 0, pt2, zAggSpec, rfl, rfl, rfl⟩,
   ⟨{ withTun dvI pinned with rooms := [(0, room0)], participants := [(0, part2)], encodes := [(0, encs)] }, _, hd, 0, tx, rfl, rfl, rfl⟩,
   ⟨{ withTun dvI pinned with rooms := [(0, room0)], participants := [(0, part2)], encodes := [(0, encs)], legs := [(0, txLeg)] }, _, hd, 0, { zLegChange with rate := 6250, packetSize := 1000 }, rfl, rfl, rfl⟩,
   ⟨{ withTun dvI pinned with rooms := [(0, room0)], participants := [(0, part2)], legs := [(0, rxLeg)] }, _, hd, 0, dsp, rfl, rfl, rfl⟩,
   ⟨dvI, _, hd, 0, spc, rfl, rfl, rfl⟩,
   ⟨{ dvI with decodes := [(0, { dst0 with spec := { dsp with pool := 1 } })] }, _, hd, 0, es, (80, 64), rfl, rfl, rfl⟩,
   ⟨{ dvI with rooms := [(0, room0)] }, _, hd, 0, { zMixSpec with maxTalkers := 4, frameMs := 20 }, rfl, rfl, rfl⟩,
   ⟨dvI, _, hd, 0, { zTunnelSpec with frameLength := 512, framesPerTick := 1 }, rfl, rfl, rfl⟩,
   ⟨dvI, _, hd, 0, 255, 0, 0, 0, _, rfl, rfl, rfl, by decide, rfl, rfl⟩,
   ⟨wrAll dvI [(Reg.PON.PON_CONFIG_MODE.on 0, 1), (Reg.PON.PON_STATUS_STATE.on 0, 4)], _, hd, 0, [0], rfl, rfl, rfl⟩,
   ⟨wrAll dvI [(Reg.PON.PON_CONFIG_MODE.on 0, 1)], _, hd, 0, 1, 0, 0, rfl, rfl, rfl⟩,
   ⟨{ dvI with decodes := [(0, dst0)] }, _, hd, 0, 0, 0, 0, rfl, rfl, rfl, rfl⟩,
   ⟨{ dvI with decodes := [(0, { dst0 with current := some 0 })], buffers := [(0, zBuffer)] }, _, hd, 0, 0, 0, 0, 0, rfl, rfl, rfl, rfl, by decide⟩,
   ⟨{ dvI with decodes := [(0, { dst0 with current := some 0 })], buffers := [(0, { zBuffer with width := 4096, height := 2160 })], trust := { dvI.trust with current := { dvI.trust.current with policy := [.export_ 1] } } }, _, hd, 0, 0, 1, 0, 0, rfl, rfl, rfl, rfl, by decide⟩,
   ⟨dvI, _, hd, [], 104, _, rfl, rfl, rfl, rfl⟩,
   ⟨{ withTun dvI pinned with rooms := [(0, room0)], participants := [(0, part2)], encodes := [(0, encs)], legs := [(0, txLeg)] }, hd, 0, { zLegChange with rate := 6250, packetSize := 1000 }, _, _, _, rfl, rfl⟩,
   ⟨{ withTun dvI pinned with rooms := [(0, room0)], participants := [(0, part2)], encodes := [(0, encs)] }, hd, 0, tx, _, _, _, rfl, rfl⟩,
   ⟨wr dvI (Reg.PON.PON_CONFIG_MODE.on 0) 1, hd, 0, 0, 100, 2, 0, 1, _, _, _, rfl, rfl⟩,
   ⟨dvI, hd, [], 104, rfl⟩⟩

theorem witness_ImmediateDirectivesComplete :
    (∃ (s : State) (h : DirHeader) (i : Nat) (n : Nat), passes s h (.admitRoom i n) = true ∧ (checked s h (.admitRoom i n)).rooms.get i = none) ∧
    (∃ (s : State) (h : DirHeader) (kind : Nat) (i : Nat), passes s h (.release kind i) = true ∧ releasable (checked s h (.release kind i)) kind i = true) ∧
    (∃ (s : State) (h : DirHeader) (room : Nat) (dest : Nat), passes s h (.readLevels room dest) = true ∧ roomActive (checked s h (.readLevels room dest)) room = true ∧ bitOf (exportBits (checked s h (.readLevels room dest))) 2 = 1) ∧
    (∃ (s : State) (h : DirHeader) (t : Nat) (epoch : Nat) (x : Tunnel), passes s h (.switchEpoch t epoch) = true ∧ (checked s h (.switchEpoch t epoch)).gauntlet.tunnels.get t = some x ∧ tunnelLive (checked s h (.switchEpoch t epoch)) t = true ∧ x.nextKeyed = true ∧ x.epochNext = epoch) ∧
    (∃ (s : State) (h : DirHeader) (source : Nat) (o : Int), passes s h (.step source) = true ∧ (sourceGet (checked s h (.step source)).time source).offset = some o ∧ measuring source = true ∧ (slots (checked s h (.step source))).contains source = true ∧ (sourceGet (checked s h (.step source)).time source).qualified = true ∧ (checked s h (.step source)).time.pendingStep = none) ∧
    (∃ (s : State) (p : State) (h : DirHeader) (i : Nat) (bytes : List Byte) (n : Nat) (c : Composite), passes s h (.setLayout i bytes n) = true ∧ p = checked s h (.setLayout i bytes n) ∧ p.composites.get i = some c ∧ layoutAdmissible p i c (readList (bytes.take n)) (bytes.take n).length = true) ∧
    (∃ (s : State) (h : DirHeader) (point : Nat), passes s h (.setMemoryRate point) = true ∧ (checked s h (.setMemoryRate point)).near.change = none ∧ (checked s h (.setMemoryRate point)).host.deferred.any (fun d => d.opcode = 0x52) = false) ∧
    (∃ (s : State) (h : DirHeader) (first : Nat) (count : Nat) (key : Nat) (dest : Nat) (k : KeyEntry), passes s h (.archivePages first count key dest) = true ∧ (checked s h (.archivePages first count key dest)).trust.keys.get key = some k ∧ k.usage = 4 ∧ k.usableAt ≤ (checked s h (.archivePages first count key dest)).time.boundaries) ∧
    (∃ (s : State) (h : DirHeader) (nonce : Nat) (dest : Nat), dirReady s = true ∧ cplReady s = true) ∧
    (∃ (s : State) (p : State) (h : DirHeader) (b : List Byte), passes s h (.pushImage b) = true ∧ p = checked s h (.pushImage b) ∧ (p.mode ≠ .proving ∨ (Image.ofBytes b).kind ≠ 1)) ∧
    (∃ (s : State) (p : State) (h : DirHeader) (b : List Byte) (slot : Nat), passes s h (.flashProgram b slot) = true ∧ p = checked s h (.flashProgram b slot)) ∧
    (∃ (s : State) (h : DirHeader) (blocks : Nat) (dest : Nat) (clear : Nat), passes s h (.snapshotCounters blocks dest clear) = true) ∧
    (∃ (s : State) (h : DirHeader), passes s h .warmReset = true) ∧
    (∃ (s : State) (h : DirHeader), passes s h .zeroize = true) ∧
    (∃ (s : State) (h : DirHeader), passes s h .retire = true) :=
  ⟨⟨dv, hd, 0, 1, rfl, rfl⟩,
   ⟨{ dv with rooms := [(0, room0)] }, hd, 0, 0, rfl, rfl⟩,
   ⟨{ dv with rooms := [(0, room0)], trust := { dv.trust with current := { zGeneration with policy := [.export_ 4] } } }, hd, 0, 0, rfl, rfl, rfl⟩,
   ⟨withTun dv { tun with nextKeyed := true }, hd, 0, 0, { tun with nextKeyed := true }, rfl, rfl, rfl, rfl, rfl⟩,
   ⟨{ wr dv Reg.TIME.SOURCE_PRIORITY_SLOTS 1 with time := { dv.time with ptp := { dv.time.ptp with qualified := true, offset := some 0 } } }, hd, 1, 0, rfl, rfl, rfl, rfl, rfl, rfl⟩,
   ⟨{ dvI with composites := [(0, { zComposite with state := .idle, spec := spc })] }, _, hd, 0, layoutBytes, 32, _, rfl, rfl, rfl, rfl⟩,
   ⟨dv, hd, 0, rfl, rfl, rfl⟩,
   ⟨{ dvI with trust := { dvI.trust with keys := [(0, { zKeyEntry with usage := 4 })] } }, hd, 0, 1, 0, 0, { zKeyEntry with usage := 4 }, rfl, rfl, rfl, by decide⟩,
   ⟨dv, hd, 0, 0, rfl, rfl⟩,
   ⟨dv, _, hd, [], rfl, rfl, by decide⟩,
   ⟨dv, _, hd, [], 1, rfl, rfl⟩,
   ⟨dv, hd, 0, 0, 0, rfl⟩,
   ⟨dv, hd, rfl⟩,
   ⟨dv, hd, rfl⟩,
   ⟨dv, hd, rfl⟩⟩

theorem witness_DirectivesThatWaitOrAreRefused :
    (∃ (s : State) (h : DirHeader) (d : Directive), dirReady s = false) ∧
    (∃ (s : State) (h : DirHeader) (d : Directive), dirReady s = true ∧ cplReady s = false) ∧
    (∃ (s : State) (p : State) (h : DirHeader) (d : Directive) (status : Nat) (detail : Nat), dirReady s = true ∧ cplReady s = true ∧ check (takeHead s) h d = .refused p status detail ∧ status ≠ stTokenRefused) ∧
    (∃ (s : State) (h : DirHeader) (d : Directive) (l : List (DirHeader × Directive)) (t : State), evaluateOne s h d = (t, true) ∧ l ≠ []) ∧
    (∃ (s : State), dirReady s = false) ∧
    (∃ (s : State), dirReady s = true) ∧
    (∃ (s : State) (h : DirHeader) (d : Directive) (rate : Nat), dirPolicy s (opcodeOf d) = (2, rate) ∧ h.authAt = noOffset) ∧
    (∃ (s : State) (h : DirHeader) (d : Directive) (rate : Nat), dirPolicy s (opcodeOf d) = (2, rate) ∧ h.authAt ≠ noOffset ∧ authBusy s = false) :=
  ⟨⟨sv, hd, .warmReset, rfl⟩,
   ⟨wr dv cplRing.tail 8, hd, .warmReset, rfl, rfl⟩,
   ⟨dv, _, hd, .unknown 0x7F, 1, 0, rfl, rfl, rfl, by decide⟩,
   ⟨dv, hd, .warmReset, [(hd, .warmReset)], _, rfl, by decide⟩,
   ⟨sv, rfl⟩,
   ⟨dv, rfl⟩,
   ⟨authd 2, { hd with authAt := noOffset }, .warmReset, 0, rfl, rfl⟩,
   ⟨authd 2, hd, .warmReset, 0, rfl, by decide, rfl⟩⟩

theorem witness_EveryDirectiveIsAnsweredOnce :
    (∃ (s : State) (c : Completion), cplOpen s = true ∧ s.host.waiting = []) ∧
    (∃ (s : State) (c : Completion), cplOpen s = false) ∧
    (∃ (s : State) (c : Completion), s.host.waiting ≠ []) :=
  ⟨⟨dv, zCompletion, rfl, rfl⟩,
   ⟨sv, zCompletion, rfl⟩,
   ⟨{ sv with host := { sv.host with waiting := [zCompletion] } }, zCompletion, by decide⟩⟩

theorem witness_AdmissionsEnterTheirTables :
    (∃ (i : Nat) (p : PartSpec) (a : AggSpec) (s : State) (t : State) (x : Nat) (y : Nat), admitParticipantRule i p a s = .done t x y) ∧
    (∃ (i : Nat) (d : DecodeSpec) (s : State) (t : State) (x : Nat) (y : Nat), admitDecodeRule i d s = .done t x y) ∧
    (∃ (i : Nat) (c : CompositeSpec) (s : State) (t : State) (x : Nat) (y : Nat), admitCompositeRule i c s = .done t x y) ∧
    (∃ (i : Nat) (e : EncodeSpec) (s : State) (t : State) (x : Nat) (y : Nat), admitEncodeRule i e s = .done t x y) ∧
    (∃ (r : Nat) (m : MixSpec) (s : State) (t : State) (x : Nat) (y : Nat), admitMixRule r m s = .done t x y) ∧
    (∃ (i : Nat) (u : TunnelSpec) (s : State) (t : State) (x : Nat) (y : Nat), admitTunnelRule i u s = .done t x y) :=
  ⟨⟨0, pt2, zAggSpec, { withTun dvI pinned with rooms := [(0, room0)] }, _, _, _, rfl⟩,
   ⟨0, dsp, { withTun dvI pinned with rooms := [(0, room0)], participants := [(0, part2)], legs := [(0, rxLeg)] }, _, _, _, rfl⟩,
   ⟨0, spc, dvI, _, _, _, rfl⟩,
   ⟨0, es, { dvI with decodes := [(0, { dst0 with spec := { dsp with pool := 1 } })] }, _, _, _, rfl⟩,
   ⟨0, { zMixSpec with maxTalkers := 4, frameMs := 20 }, { dvI with rooms := [(0, room0)] }, _, _, _, rfl⟩,
   ⟨0, { zTunnelSpec with frameLength := 512, framesPerTick := 1 }, dvI, _, _, _, rfl⟩⟩

theorem witness_HostAccessesComplete :
    (∃ (s : State) (off : Nat) (value : Nat), hostReads s = true ∧ off % 4 = 0 ∧ off + 4 ≤ 0x4000000 ∧ value < 2 ^ 32) ∧
    (∃ (s : State) (off : Nat) (value : Nat), hostReads s = true ∧ off % 4 = 0 ∧ off + 8 ≤ 0x4000000 ∧ value < 2 ^ 64) ∧
    (∃ (s : State) (off : Nat) (width : Nat) (value : Nat), hostReads s = true ∧ width < 4 ∧ off + width ≤ 0x4000000 ∧ value < 2 ^ (8 * width)) ∧
    (∃ (s : State) (off : Nat), hostReads s = true ∧ off % 4 = 0 ∧ off + 4 ≤ 0x4000000 ∧ regRead s off < 2 ^ 32) ∧
    (∃ (s : State) (ring : Nat) (value : Nat), hostReads s = true ∧ ring < 5 ∧ value < 2 ^ 32) ∧
    (∃ (s : State) (ring : Nat) (value : Nat), hostReads s = true ∧ ring < 5 ∧ value < 2 ^ 32) :=
  ⟨⟨lk sv, 0, 0, rfl, rfl, by decide, by decide⟩,
   ⟨lk sv, 0, 0, rfl, rfl, by decide, by decide⟩,
   ⟨lk sv, 1, 2, 65535, rfl, by decide, by decide, by decide⟩,
   ⟨lk sv, 0, rfl, rfl, by decide, by decide⟩,
   ⟨lk sv, 0, 1, rfl, by decide, by decide⟩,
   ⟨lk sv, 4, 1, rfl, by decide, by decide⟩⟩

theorem witness_AccessBeyondBar0Faults :
    (∃ (s : State) (off : Nat) (width : Nat) (value : Nat), 0x4000000 < off + width) ∧
    (∃ (s : State) (off : Nat) (width : Nat), 0x4000000 < off + width) ∧
    (∃ (s : State) (off : Nat) (width : Nat) (value : Nat), off + width ≤ 0x4000000) ∧
    (∃ (s : State) (off : Nat) (width : Nat), off + width ≤ 0x4000000) :=
  ⟨⟨sv, 0x3FFFFFC, 8, 0, by decide⟩,
   ⟨sv, 0x4000000, 4, by decide⟩,
   ⟨sv, 0x3FFFFFC, 4, 0, by decide⟩,
   ⟨sv, 0x3FFFFF8, 8, by decide⟩⟩

theorem witness_RegisterAccessCodes :
    (∃ (s : State) (off : Nat) (v : Nat), s.mode ≠ .sealed ∧ inMsix off = false ∧ inPending off = false ∧ fieldsAt off ≠ [] ∧ badWrite (fieldsAt off) v = true) ∧
    (∃ (s : State) (off : Nat) (v : Nat), inMsix off = false ∧ inPending off = false ∧ fieldsAt off = []) ∧
    (∃ (s : State) (off : Nat) (v : Nat), s.mode = .sealed) ∧
    (∃ (s : State) (f : Fld) (v : Nat), f.acc = .rw) ∧
    (∃ (s : State) (f : Fld) (v : Nat), f.acc = .w1c ∧ bitsOf v f.hi f.lo = 1) ∧
    (∃ (s : State) (f : Fld) (v : Nat), f.acc = .w1c ∧ bitsOf v f.hi f.lo ≠ 1) ∧
    (∃ (s : State) (f : Fld) (v : Nat), f.acc ≠ .rw ∧ f.acc ≠ .w1c) ∧
    (∃ (fs : List Fld) (v : Nat), (∀ f ∈ fs, f.acc = .ro ∨ f.acc = .im ∨ f.acc = .rc)) :=
  ⟨⟨sv, 0, 1, by decide, rfl, rfl, by decide, rfl⟩,
   ⟨sv, 0x3FFFFF0, 1, rfl, rfl, rfl⟩,
   ⟨{ sv with mode := .sealed }, 0, 1, rfl⟩,
   ⟨sv, dirRing.enable, 1, rfl⟩,
   ⟨sv, Reg.GLOBAL.GLOBAL_EVENTS_MODE_CHANGED, 1, rfl, rfl⟩,
   ⟨sv, Reg.GLOBAL.GLOBAL_EVENTS_MODE_CHANGED, 0, rfl, by decide⟩,
   ⟨sv, Reg.GLOBAL.PART_INFO_PART, 1, by decide, by decide⟩,
   ⟨[Reg.GLOBAL.PART_INFO_PART], 1, by decide⟩⟩

theorem witness_QueriesComplete :
    (∃ (s : State) (kind : Nat) (index : Nat), hostReads s = true ∧ index < 2 ^ 20) ∧
    (∃ (s : State) (kind : Nat) (index : Nat), hostReads s = true ∧ index < 2 ^ 20) ∧
    (∃ (s : State) (kind : Nat) (index : Nat), hostReads s = true ∧ index < 2 ^ 15) ∧
    (∃ (s : State) (index : Nat), hostReads s = true ∧ index < 2 ^ 12) ∧
    (∃ (s : State) (kind : Nat) (index : Nat), hostReads s = true ∧ index < 2 ^ 20) ∧
    (∃ (s : State) (index : Nat), hostReads s = true ∧ index < 2 ^ 13) ∧
    (∃ (s : State) (kind : Nat) (index : Nat), hostReads s = true ∧ index < 2 ^ 20) ∧
    (∃ (s : State) (index : Nat), hostReads s = true ∧ index < 2 ^ 10) ∧
    (∃ (s : State) (index : Nat), hostReads s = true ∧ index < 2 ^ 12) ∧
    (∃ (s : State) (kind : Nat) (index : Nat), hostReads s = true ∧ index < 2 ^ 20) ∧
    (∃ (s : State) (port : Nat) (index : Nat), hostReads s = true ∧ port < 2 ∧ index < 2 ^ 10) ∧
    (∃ (s : State) (stack : Nat) (kind : Nat) (index : Nat), hostReads s = true ∧ stack < 8 ∧ index < 2 ^ 11) ∧
    (∃ (s : State) (q : Nat) (v : Nat), s.host.queries.any (fun g => g.1 = q) = false) ∧
    (∃ (s : State) (q : Nat) (v : Nat), s.host.queries.any (fun g => g.1 = q) = true) :=
  ⟨⟨lk sv, 0, 5, rfl, by decide⟩,
   ⟨lk sv, 0, 5, rfl, by decide⟩,
   ⟨lk sv, 0, 5, rfl, by decide⟩,
   ⟨lk sv, 5, rfl, by decide⟩,
   ⟨lk sv, 0, 5, rfl, by decide⟩,
   ⟨lk sv, 5, rfl, by decide⟩,
   ⟨lk sv, 0, 5, rfl, by decide⟩,
   ⟨lk sv, 5, rfl, by decide⟩,
   ⟨lk sv, 5, rfl, by decide⟩,
   ⟨lk sv, 0, 5, rfl, by decide⟩,
   ⟨lk sv, 0, 5, rfl, by decide, by decide⟩,
   ⟨lk sv, 0, 0, 5, rfl, by decide, by decide⟩,
   ⟨sv, 1, 1, rfl⟩,
   ⟨{ sv with host := { sv.host with queries := [(1, 0)] } }, 1, 1, rfl⟩⟩

theorem witness_SnapshotShowsTheTime : ∃ (s : State), s.host.linkUp = true ∧ s.mode ≠ .dormant ∧ s.mode ≠ .sealed :=
  ⟨lk sv, rfl, by decide, by decide⟩

theorem witness_MonitorRepliesToReads :
    (∃ (s : State), monitorUp s = true) ∧
    (∃ (s : State), monitorUp s = true) ∧
    (∃ (s : State) (first : Nat) (count : Nat), monitorUp s = true) ∧
    (∃ (s : State) (block : Nat), monitorUp s = true ∧ block < 22 ∧ blank s = false ∧ s.mode ≠ .dormant ∧ s.mode ≠ .sealed) ∧
    (∃ (s : State) (off : Nat), monitorUp s = true ∧ peekable off = true ∧ blank s = false ∧ unlocked s = true ∧ maskHolds s DebugRec.peekBlocks off = true) ∧
    (∃ (s : State) (off : Nat), monitorUp s = true ∧ peekable off = true ∧ blank s = false ∧ unlocked s = false) ∧
    (∃ (s : State) (block : Nat), monitorUp s = true ∧ 22 ≤ block) ∧
    (∃ (s : State) (off : Nat), monitorUp s = true ∧ peekable off = true ∧ blank s = true) ∧
    (∃ (s : State), monitorUp s = false) :=
  ⟨⟨pw sv, rfl⟩,
   ⟨pw sv, rfl⟩,
   ⟨pw sv, 0, 1, rfl⟩,
   ⟨life 2 (pw sv), 21, rfl, by decide, rfl, by decide, by decide⟩,
   ⟨life 1 (withDebug (pw sv)), 0, rfl, rfl, rfl, rfl, rfl⟩,
   ⟨life 2 (pw sv), 0, rfl, rfl, rfl, rfl⟩,
   ⟨pw sv, 22, rfl, by decide⟩,
   ⟨pw { sv with mode := .dormant }, 0, rfl, rfl, rfl⟩,
   ⟨sv, rfl⟩⟩

theorem witness_MonitorUnlockAndPoke :
    (∃ (s : State) (n : Nat), monitorUp s = true ∧ mayUnlock s = true ∧ s.power.challengeAt ≤ nowNs s ∧ s.power.challenge = some n) ∧
    (∃ (s : State), monitorUp s = true ∧ mayUnlock s = true ∧ s.power.challengeAt ≤ nowNs s ∧ s.power.challenge = none) ∧
    (∃ (s : State), monitorUp s = true ∧ (mayUnlock s = false ∨ nowNs s < s.power.challengeAt)) ∧
    (∃ (s : State) (block : List Byte), monitorUp s = true ∧ mayUnlock s = true) ∧
    (∃ (s : State) (block : List Byte), s.power.challenge = none) ∧
    (∃ (s : State) (block : List Byte), monitorUp s = true) ∧
    (∃ (s : State) (off : Nat) (value : Nat), monitorUp s = true ∧ peekable off = true ∧ value < 2 ^ 32 ∧ blank s = false ∧ monitorReadOnly s = false ∧ unlocked s = true ∧ maskHolds s DebugRec.pokeBlocks off = true) ∧
    (∃ (s : State), monitorUp s = true ∧ blank s = false) ∧
    (∃ (s : State) (u : State) (t : Nat), s.power.unlockUntil = some t ∧ reachable s t = true ∧ u = advanceTo s t) :=
  ⟨⟨chal (some 5), 5, rfl, rfl, by decide, rfl⟩,
   ⟨chal none, rfl, rfl, by decide, rfl⟩,
   ⟨pw sv, rfl, by decide⟩,
   ⟨chal (some 5), [], rfl, rfl⟩,
   ⟨chal none, [], rfl⟩,
   ⟨chal (some 5), [], rfl⟩,
   ⟨life 1 (withDebug (pw sv)), 0, 1, rfl, rfl, by decide, rfl, rfl, rfl, rfl⟩,
   ⟨life 2 (pw sv), rfl, rfl⟩,
   ⟨{ sv with power := { sv.power with unlockUntil := some 0 } }, _, 0, rfl, reach_now _ _ (by decide), rfl⟩⟩

theorem witness_HeartbeatAndModeration :
    (∃ (s : State), heartbeatDue s = true) ∧
    (∃ (s : State), heartbeatDue s = false) ∧
    (∃ (s : State) (u : State) (ring : Nat) (t : Nat), (moderation s ring).1 = some t ∧ s.host.linkUp = true ∧ reachable s (t + (moderation s ring).2.1 * 1000) = true ∧ u = advanceTo s (t + (moderation s ring).2.1 * 1000)) :=
  ⟨⟨{ wr (lk sv) Reg.GLOBAL.HEARTBEAT_ADDRESS_LO 16 with time := { sv.time with boundaries := 1 } }, heartbeat_due⟩,
   ⟨sv, heartbeat_not_due⟩,
   ⟨at_ 100000 { dv with host := { dv.host with cplFirst := some 0 } }, _, 1, 0, rfl, rfl, reach_now _ _ (by decide), rfl⟩⟩

theorem witness_W1CBitsGiveOneRegisterEntry :
    (∃ (s : State) (fs : List Fld), (∀ f ∈ fs, rd s f ≠ 0)) ∧
    (∃ (s : State) (fs : List Fld) (f : Fld) (l : List Fld), fs.filter (fun f => rd s f = 0) = f :: l) ∧
    (∃ (s : State) (block : Nat) (stamp : Nat) (data : EventData) (atOnce : Bool), evtOpen s = true ∧ s.host.lostSince = 0) :=
  ⟨⟨wr sv Reg.GLOBAL.GLOBAL_EVENTS_MODE_CHANGED 1, [Reg.GLOBAL.GLOBAL_EVENTS_MODE_CHANGED], by decide⟩,
   ⟨sv, [Reg.GLOBAL.GLOBAL_EVENTS_MODE_CHANGED], Reg.GLOBAL.GLOBAL_EVENTS_MODE_CHANGED, [], rfl⟩,
   ⟨wrAll (lk sv) [(evtRing.enable, 1), (evtRing.size, 4)], 1, 0, .overflow 0, true, rfl, rfl⟩⟩

theorem witness_PowerGoodFallIsAColdReset :
    (∃ (s : State), s.power.pwrGood = false) ∧
    (∃ (s : State), s.power.pwrGood = false ∧ s.power.knitOpen = false) ∧
    (∃ (s : State), s.power.pwrGood = false ∧ s.power.knitOpen = true) ∧
    (∃ (s : State), s.power.pwrGood = true) :=
  ⟨⟨sv, rfl⟩,
   ⟨sv, rfl, rfl⟩,
   ⟨{ sv with power := { sv.power with knitOpen := true } }, rfl, rfl⟩,
   ⟨pw sv, rfl⟩⟩

theorem witness_SelfTestAndResetPins :
    (∃ (s : State), s.power.pwrGood = true ∧ s.mode = .dormant ∧ s.power.selfTestDone = false ∧ s.power.testEn = false ∧ s.trust.zeroizing = false ∧ s.trust.fuses.lifecycle ≠ 3) ∧
    (∃ (s : State), s.power.pwrGood = true ∧ s.mode = .dormant ∧ s.power.selfTestDone = false ∧ s.power.testEn = false ∧ s.trust.zeroizing = false ∧ s.trust.fuses.lifecycle = 3) ∧
    (∃ (s : State), s.power.pwrGood = true ∧ s.mode = .dormant ∧ s.power.selfTestDone = false ∧ s.power.testEn = false ∧ s.trust.zeroizing = false) ∧
    (∃ (s : State) (passed : Bool), s.power.selfTestDone = true) ∧
    (∃ (s : State) (d : Nat), 100 ≤ d ∧ s.mode ≠ .dormant ∧ s.mode ≠ .sealed ∧ s.trust.zeroizing = false ∧ s.power.resetHeld = false) ∧
    (∃ (s : State), s.power.resetHeld = true) ∧
    (∃ (s : State) (d : Nat) (reason : Nat), (s.mode = .dormant ∨ s.mode = .sealed)) :=
  ⟨⟨pw dm, rfl, rfl, rfl, rfl, rfl, by decide⟩,
   ⟨life 3 (pw dm), rfl, rfl, rfl, rfl, rfl, rfl⟩,
   ⟨pw dm, rfl, rfl, rfl, rfl, rfl⟩,
   ⟨{ dm with power := { dm.power with selfTestDone := true } }, true, rfl⟩,
   ⟨sv, 100, by decide, by decide, by decide, rfl, rfl⟩,
   ⟨{ sv with power := { sv.power with resetHeld := true } }, rfl⟩,
   ⟨dm, 100, 1, by decide⟩⟩

theorem witness_ZeroizeErasesAndSeals :
    (∃ (s : State) (cause : Nat) (input : Nat), s.trust.zeroizing = false ∧ s.mode ≠ .sealed) ∧
    (∃ (s : State), s.power.pwrGood = true) ∧
    (∃ (s : State) (mv : Nat), s.power.pwrGood = true ∧ (mv < 500 ∨ 900 < mv)) ∧
    (∃ (s : State) (c : Int), (c < -50 ∨ 125 < c)) ∧
    (∃ (s : State) (d : Int), (d < -100 ∨ 100 < d)) ∧
    (∃ (s : State) (pin : Nat) (d : Nat), pin < 4 ∧ 100 ≤ d) ∧
    (∃ (s : State) (d : Nat), 100 ≤ d) ∧
    (∃ (s : State) (cause : Nat) (input : Nat), cause ≠ 1 ∧ cause ≠ 9 ∧ (s.trust.zeroizing = true ∨ (s.mode = .sealed ∧ rd s Reg.TRUST.ZEROIZE_CAUSE_CAUSE ≠ 0))) ∧
    (∃ (s : State), s.trust.zeroizing = true) ∧
    (∃ (s : State), s.trust.zeroizing = false) :=
  ⟨⟨sv, 3, 0, rfl, by decide⟩,
   ⟨pw sv, rfl⟩,
   ⟨pw sv, 499, rfl, by decide⟩,
   ⟨pw sv, -51, by decide⟩,
   ⟨pw sv, 101, by decide⟩,
   ⟨pw sv, 0, 100, by decide, by decide⟩,
   ⟨pw sv, 100, by decide⟩,
   ⟨wr { sv with mode := .sealed } Reg.TRUST.ZEROIZE_CAUSE_CAUSE 3, 3, 0, by decide, by decide, by decide⟩,
   ⟨{ sv with trust := { sv.trust with zeroizing := true } }, rfl⟩,
   ⟨sv, rfl⟩⟩

theorem witness_LinkEvents :
    (∃ (s : State), s.host.linkUp = true) ∧
    (∃ (s : State), s.host.linkUp = false) ∧
    (∃ (s : State), s.host.linkUp = false ∧ s.power.pwrGood = true ∧ s.mode ≠ .dormant ∧ domainOn s 58 = true) ∧
    (∃ (s : State) (block : Nat) (stamp : Nat) (data : EventData) (atOnce : Bool), s.host.linkUp = false) :=
  ⟨⟨lk sv, rfl⟩,
   ⟨sv, rfl⟩,
   ⟨wr (pw sv) Reg.POWER.DOMAINS_ON_HI 0x4000000, rfl, rfl, by decide, domain58_on⟩,
   ⟨sv, 1, 0, .overflow 0, true, rfl⟩⟩

theorem witness_ProvingCommandsComplete :
    (∃ (s : State) (slot : Nat) (content : List Byte), seeksImage s = true ∧ slot < 2 ∧ s.proving.flashTried = slot) ∧
    (∃ (s : State) (i : Image) (r : Nat), r ≠ 0) ∧
    (∃ (s : State) (b : BootStep), bootReady s = true ∧ s.proving.bootWait = .none ∧ (bootSteps s)[s.proving.bootIndex]? = some b) ∧
    (∃ (s : State), bootReady s = true ∧ s.proving.bootWait = .none ∧ (bootSteps s)[s.proving.bootIndex]? = none) ∧
    (∃ (s : State) (u : State) (t : Nat), bootReady s = true ∧ s.proving.bootWait = .delay t ∧ reachable s t = true ∧ u = advanceTo s t) ∧
    (∃ (s : State), bootReady s = true ∧ s.proving.bootWait = .ack) ∧
    (∃ (s : State) (u : State) (b : BootStep) (t : Nat) (elapsed : Nat) (v : Nat), bootReady s = true ∧ s.proving.bootWait = .poll t ∧ (bootSteps s)[s.proving.bootIndex]? = some b ∧ reachable s (t + elapsed) = true ∧ u = advanceTo s (t + elapsed)) ∧
    (∃ (s : State) (u : State) (b : BootStep) (t : Nat) (elapsed : Nat) (level : Nat), bootReady s = true ∧ s.proving.bootWait = .gpio t ∧ (bootSteps s)[s.proving.bootIndex]? = some b ∧ level < 2 ∧ reachable s (t + elapsed) = true ∧ u = advanceTo s (t + elapsed)) ∧
    (∃ (s : State) (u : State) (d : Nat) (t : Nat), s.power.ramping.find? (fun r => r.1 = d) = some (d, t) ∧ reachable s t = true ∧ u = advanceTo s t) ∧
    (∃ (s : State) (g : Nat) (form : Nat) (st : Nat) (ends : Nat), s.lining.march = some (g, form, st, ends) ∧ reachable s ends = true) ∧
    (∃ (s : State) (g : Nat) (form : Nat), s.host.linkUp = true ∧ s.mode ≠ .sealed ∧ s.mode ≠ .dormant) :=
  ⟨⟨pv sv, 0, [], rfl, by decide, rfl⟩,
   ⟨sv, imgOk, 1, by decide⟩,
   ⟨booted [{ op := 0, pin := 0, address := 0, value := 0 }] .none, { op := 0, pin := 0, address := 0, value := 0 }, rfl, rfl, rfl⟩,
   ⟨booted [] .none, rfl, rfl, rfl⟩,
   ⟨booted [] (.delay 0), _, 0, rfl, rfl, reach_now _ _ (by decide), rfl⟩,
   ⟨booted [] .ack, rfl, rfl⟩,
   ⟨booted [{ op := 0, pin := 0, address := 0, value := 0 }] (.poll 0), _, _, 0, 0, 0, rfl, rfl, rfl, reach_now _ _ (by decide), rfl⟩,
   ⟨booted [{ op := 0, pin := 0, address := 0, value := 0 }] (.gpio 0), _, _, 0, 0, 1, rfl, rfl, rfl, by decide, reach_now _ _ (by decide), rfl⟩,
   ⟨{ sv with power := { sv.power with ramping := [(3, 0)] } }, _, 3, 0, rfl, reach_now _ _ (by decide), rfl⟩,
   ⟨{ sv with lining := { sv.lining with march := some (0, 0, 0, 0) } }, _, _, _, _, rfl, reach_now _ _ (by decide)⟩,
   ⟨lk sv, 0, 0, rfl, by decide, by decide⟩⟩

theorem witness_TrustEnginesComplete :
    (∃ (s : State) (busy : Bool) (i : Image) (l : List (VerifyPurpose × Image)), s.trust.verifying = (.pushed busy, i) :: l ∧ s.trust.zeroizing = false ∧ s.mode ≠ .sealed ∧ s.mode ≠ .dormant) ∧
    (∃ (s : State) (k : Nat) (b : List Byte) (i : Image) (l : List (VerifyPurpose × Image)), s.trust.verifying = (.flashProgram k b, i) :: l ∧ s.trust.zeroizing = false ∧ s.mode ≠ .sealed ∧ s.mode ≠ .dormant) ∧
    (∃ (s : State) (d : Deferred), oldestOf s 0x56 (fun d => d.key = 1) = some d ∧ s.trust.zeroizing = false) ∧
    (∃ (s : State), corePowered s = true ∧ s.trust.startupPassed = true) ∧
    (∃ (s : State), corePowered s = true ∧ s.trust.startupPassed = false ∧ 2 ^ 20 ≤ s.trust.generates) ∧
    (∃ (s : State) (u : State), corePowered s = true ∧ s.trust.startupPassed = false ∧ s.trust.generates < 2 ^ 20 ∧ reachable s (s.trust.reseededAt + 1000000000) = true ∧ u = advanceTo s (s.trust.reseededAt + 1000000000)) ∧
    (∃ (s : State), corePowered s = true) ∧
    (∃ (s : State), corePowered s = true) ∧
    (∃ (s : State) (r : AttestRequest) (l : List AttestRequest), s.trust.attest = r :: l ∧ s.trust.zeroizing = false ∧ (s.trust.attestSecond = secondOf s → s.trust.attestDone < 1000)) :=
  ⟨⟨{ sv with trust := { sv.trust with verifying := [(.pushed false, imgOk)] } }, _, _, _, rfl, rfl, by decide, by decide⟩,
   ⟨{ sv with trust := { sv.trust with verifying := [(.flashProgram 0 [], imgOk)] } }, _, _, _, _, rfl, rfl, by decide, by decide⟩,
   ⟨{ sv with host := { sv.host with deferred := [{ zDeferred with opcode := 0x56, key := 1 }] } }, _, rfl, rfl⟩,
   ⟨pw { sv with trust := { sv.trust with startupPassed := true } }, rfl, rfl⟩,
   ⟨pw { sv with trust := { sv.trust with startupPassed := false, generates := 2 ^ 20 } }, rfl, rfl, by decide⟩,
   ⟨pw (at_ 1000000000 { sv with trust := { sv.trust with startupPassed := false } }), _, rfl, rfl, by decide, reach_now _ _ (by decide), rfl⟩,
   ⟨pw sv, rfl⟩,
   ⟨pw sv, rfl⟩,
   ⟨{ sv with trust := { sv.trust with attest := [zAttestRequest] } }, _, _, rfl, rfl, by decide⟩⟩

theorem witness_BoundaryCommandsComplete :
    (∃ (s : State), s.power.pwrGood = true) ∧
    (∃ (s : State) (kind : Nat) (i : Nat), s.power.pwrGood = true ∧ lateDropDue s kind i = true) ∧
    (∃ (s : State), s.power.pwrGood = true ∧ changeDue s = true) ∧
    (∃ (s : State), s.power.pwrGood = true ∧ retireDueOld s = true) ∧
    (∃ (s : State), s.power.pwrGood = true ∧ forcedDue { s with time := { s.time with boundaries := s.time.boundaries + 1 } } = true) ∧
    (∃ (s : State), s.power.pwrGood = true ∧ provingDone s = true) ∧
    (∃ (s : State) (kind : Nat) (i : Nat), s.power.pwrGood = true ∧ drainedDue s kind i = true) ∧
    (∃ (s : State), s.power.pwrGood = true ∧ s.mitten.threads.any (fun e => e.2.state = .delayed && decide (e.2.wake ≤ 1)) = true) ∧
    (∃ (s : State) (t : Nat) (x : Tunnel), s.power.pwrGood = true ∧ s.gauntlet.tunnels.get t = some x ∧ x.state = .draining ∧ tunnelBusy (stopTunnels s) t { x with built := [] } = false) ∧
    (∃ (s : State) (kind : Nat) (i : Nat), s.power.pwrGood = true ∧ s.faults.retiring.contains (engineId kind i) = true ∧ canRetire s kind i = true) ∧
    (∃ (s : State), s.power.pwrGood = true ∧ (autoCause s).isSome = true ∧ rd s Reg.FAULTLOG.FAULT_CONFIG_AUTO_RESET = 1 ∧ (autoRecent s).length < 3) ∧
    (∃ (s : State), s.power.pwrGood = true ∧ s.power.protectivePending = true) ∧
    (∃ (s : State) (p : Nat) (t : Nat), s.power.pwrGood = true ∧ s.power.pendingPoint = some (p, t) ∧ t ≤ nowNs (toBoundary s)) ∧
    (∃ (s : State), s.power.pwrGood = false) ∧
    (∃ (s : State), s.power.pwrGood = true ∧ changeDue s = false) :=
  ⟨⟨pw sv, rfl⟩,
   ⟨{ pw dvI with decodes := [(0, dec1)] }, 3, 0, rfl, rfl⟩,
   ⟨{ pw sv with trust := { sv.trust with pendingPartial := some zImage } }, rfl, rfl⟩,
   ⟨{ pw sv with trust := { sv.trust with old := some zGeneration } }, rfl, rfl⟩,
   ⟨{ pw sv with trust := { sv.trust with old := some gen1 }, mitten := { sv.mitten with threads := [(0, { zThread with state := .running, generation := 1 })] }, time := { sv.time with boundaries := 100000000 } }, rfl, rfl⟩,
   ⟨let s := wr { pw sv with mode := .proving } Reg.TRUST.IMAGE_STATUS_SOURCE 1; { s with proving := { s.proving with marchDone := true, trained := true, linksTested := true, bootDone := true } }, rfl, rfl⟩,
   ⟨{ pw sv with legs := [(0, { liveLeg with state := .draining })] }, 2, 0, rfl, rfl⟩,
   ⟨{ pw sv with mitten := { sv.mitten with threads := [(0, { zThread with state := .delayed, wake := 1 })] } }, rfl, rfl⟩,
   ⟨withTun (pw sv) { tun with state := .draining }, 0, _, rfl, rfl, rfl, rfl⟩,
   ⟨{ pw dvI with faults := { dvI.faults with retiring := [1] } }, 0, 1, rfl, rfl, rfl⟩,
   ⟨let s := wr (pw sv) Reg.FAULTLOG.FAULT_CONFIG_AUTO_RESET 1; { s with faults := { s.faults with linkPending := [(0, 0)] } }, rfl, rfl, rfl, by decide⟩,
   ⟨{ pw sv with power := { (pw sv).power with protectivePending := true } }, rfl, rfl⟩,
   ⟨{ pw sv with power := { (pw sv).power with pendingPoint := some (1, 0) } }, 1, 0, rfl, rfl, by decide⟩,
   ⟨sv, rfl⟩,
   ⟨pw sv, rfl, rfl⟩⟩

theorem witness_TheClockOfABoundary :
    (∃ (s : State), 0 < s.time.increment ∧ s.time.clock < nextMultiple s) ∧
    (∃ (s : State) (u : State) (t : Nat), 0 < s.time.increment ∧ reachable s t = true ∧ u = advanceTo s t) :=
  ⟨⟨sv, by decide, by decide⟩,
   ⟨sv, _, 0, by decide, reach_now _ _ (by decide), rfl⟩⟩

theorem witness_TimeSourcesComplete :
    (∃ (s : State) (port : Nat) (a : PtpArrival) (m : PtpMessage), inService s = true ∧ port < 16 ∧ bitOf (rd s Reg.TIME.TIME_CONFIG_PTP_PORTS) port = 1 ∧ (slots s).contains 1 = true ∧ ptpMine s a.via = true) ∧
    (∃ (s : State) (u : State) (k : Nat), inService s = true ∧ s.time.engine.selected = some k ∧ (slots s).contains 1 = true ∧ reachable s s.time.engine.nextRequest = true ∧ u = advanceTo s s.time.engine.nextRequest) ∧
    (∃ (s : State) (u : State) (m : PtpMaster) (identity : Nat), s.time.engine.masters.find? (fun m => m.identity = identity) = some m ∧ reachable s (m.announceAt + orDefault (timeRec s).announceTimeout 3 * m.announceInterval) = true ∧ u = advanceTo s (m.announceAt + orDefault (timeRec s).announceTimeout 3 * m.announceInterval)) ∧
    (∃ (s : State) (u : State) (t : Nat), s.time.lastEdge = some t ∧ inService s = true ∧ (slots s).contains 4 = true ∧ s.time.pps.qualified = true ∧ reachable s (t + 1000001001) = true ∧ u = advanceTo s (t + 1000001001)) ∧
    (∃ (s : State) (u : State) (port : Nat), port < 2 ∧ (sourceGet s.time (todSource port)).qualified = true ∧ reachable s ((sourceGet s.time (todSource port)).measuredAt + 10000000000) = true ∧ u = advanceTo s ((sourceGet s.time (todSource port)).measuredAt + 10000000000)) ∧
    (∃ (s : State), tracking s = true ∧ 4 ≤ (sourceGet s.time (selected s)).refusals) ∧
    (∃ (s : State) (u : State) (c : Nat) (t : Nat), (sourceGet s.time c).candidateSince = some t ∧ inService s = true ∧ everLocked s = true ∧ tracking s = true ∧ candidate s c = true ∧ (slots s).idxOf c < (slots s).idxOf (selected s) ∧ reachable s (t + rd s Reg.TIME.SOURCE_PRIORITY_RESTORE_WAIT * 1000000000) = true ∧ u = advanceTo s (t + rd s Reg.TIME.SOURCE_PRIORITY_RESTORE_WAIT * 1000000000)) ∧
    (∃ (s : State) (stamp : Nat), inService s = true ∧ (slots s).contains 4 = true ∧ s.time.lastEdge = none ∧ everLocked s = false ∧ s.time.nextSecond = none ∧ s.time.pps.qualified = false) :=
  ⟨⟨wr (slot1 1 sv) Reg.TIME.TIME_CONFIG_PTP_PORTS 1, 0, ⟨0, ⟨rd sv Reg.TIME.TIME_CONFIG_PTP_DOMAIN, (timeRec sv).transport, (timeRec sv).nonForwardable⟩⟩, .pdelayReq 0, rfl, by decide, rfl, rfl, rfl⟩,
   ⟨let s := slot1 1 sv; { s with time := { s.time with engine := { s.time.engine with selected := some 7 } } }, _, 7, rfl, rfl, rfl, reach_now _ _ (by decide), rfl⟩,
   ⟨at_ 1000 { sv with time := { sv.time with engine := { sv.time.engine with masters := [{ zPtpMaster with identity := 7 }] } } }, _, _, 7, rfl, reach_now _ _ (by decide), rfl⟩,
   ⟨let s := at_ 2000000000 (slot1 4 sv); { s with time := { s.time with lastEdge := some 0, pps := { s.time.pps with qualified := true } } }, _, 0, rfl, rfl, rfl, rfl, reach_now _ _ (by decide), rfl⟩,
   ⟨let s := at_ 20000000000 sv; { s with time := { s.time with ponA := { s.time.ponA with qualified := true } } }, _, 0, by decide, rfl, reach_now _ _ (by decide), rfl⟩,
   ⟨let s := wr (wr sv Reg.TIME.TIME_STATUS_STATE 2) Reg.TIME.TIME_STATUS_SOURCE 4; { s with time := { s.time with pps := { s.time.pps with refusals := 4 } } }, rfl, by decide⟩,
   ⟨restoring, _, 1, 0, rfl, rfl, rfl, rfl, rfl, by decide, reach_now _ _ (by decide), rfl⟩,
   ⟨slot1 4 sv, 0, rfl, rfl, rfl, rfl, rfl, rfl⟩⟩

theorem witness_TimeOutputsComplete :
    (∃ (s : State), pinsDrive s = true ∧ rd s Reg.TIME.PULSE_CONFIG_PPS_ENABLE = 1 ∧ secondBegins s = true ∧ onceDue s 2 = true) ∧
    (∃ (s : State) (u : State) (t : Nat), s.time.ppsOutUntil = some t ∧ reachable s t = true ∧ u = advanceTo s t) ∧
    (∃ (s : State) (u : State) (t : Nat), s.time.tickOutUntil = some t ∧ reachable s t = true ∧ u = advanceTo s t) :=
  ⟨⟨bd 1000000000 (at_ 1000000000 (wrAll sv [(Reg.TIME.TIME_STATUS_STATE, 2), (Reg.TIME.PULSE_CONFIG_PPS_ENABLE, 1)])), rfl, rfl, rfl, rfl⟩,
   ⟨{ sv with time := { sv.time with ppsOutUntil := some 0 } }, _, 0, rfl, reach_now _ _ (by decide), rfl⟩,
   ⟨{ sv with time := { sv.time with tickOutUntil := some 0 } }, _, 0, rfl, reach_now _ _ (by decide), rfl⟩⟩

theorem witness_IngressCommandsComplete :
    (∃ (s : State) (m : Nat) (f : MacFrame), inService s = true ∧ macValid s m = true ∧ linkUp s m = true ∧ rxUsed (countFec s m f) m + min f.length (rd (countFec s m f) (Reg.ETH.PORT_CONFIG_MAX_FRAME.on m)) ≤ rxBuffer (countFec s m f) m) ∧
    (∃ (s : State) (m : Nat) (f : MacFrame), inService s = true ∧ macValid s m = true ∧ linkUp s m = true ∧ rxBuffer (countFec s m f) m < rxUsed (countFec s m f) m + min f.length (rd (countFec s m f) (Reg.ETH.PORT_CONFIG_MAX_FRAME.on m))) ∧
    (∃ (s : State) (m : Nat), (cuffOf s m).stalled = true ∧ (cuffOf s m).words.all (fun x => x.1 = (cuffOf s m).bank) = true) ∧
    (∃ (s : State) (m : Nat) (bucketPoisoned : Bool) (ws : _) (rest : _), inService s = true ∧ m < 18 ∧ inServiceEngine s 5 (parseEngine s m) = true ∧ s.faults.resetting.contains (engineId 5 (parseEngine s m)) = false ∧ ((s.ingress.recirc.get (parseEngine s m)).getD []).isEmpty = true ∧ nextCuff s (parseEngine s m) = some m ∧ (cuffOf s m).resync = false ∧ (cuffOf s m).poisoned = false ∧ splitFrame (cuffOf s m).words = some (ws, rest) ∧ badTag ws [] = false ∧ badData ws [] = false) ∧
    (∃ (s : State) (u : State) (k : Nat) (e : FragEntry), s.ingress.fragments.get k = some e ∧ e.closed = false ∧ inService s = true ∧ reachable s (fragmentEnd s e) = true ∧ u = advanceTo s (fragmentEnd s e)) ∧
    (∃ (s : State) (engine : Nat) (layers : MediaPacket) (x : Recirculated) (rest : List Recirculated), (s.ingress.recirc.get engine).getD [] = x :: rest ∧ inService s = true ∧ inServiceEngine s 5 engine = true ∧ s.faults.resetting.contains (engineId 5 engine) = false ∧ x.generation = s.trust.current.number ∧ x.label = 1) :=
  ⟨⟨wr (mac sv) (Reg.ETH.PORT_CONFIG_MAX_FRAME.on 0) 1522, 0, { zMacFrame with length := 64 }, rfl, rfl, rfl, by decide⟩,
   ⟨withCuff0 (mac sv) { zCuff with waiting := List.replicate 300 { zCuffWord with data := List.replicate 64 0 } }, 0, { zMacFrame with length := 64 }, rfl, rfl, rfl, by decide⟩,
   ⟨withCuff0 sv { zCuff with stalled := true }, 0, rfl, rfl⟩,
   ⟨withCuff0 dvI { zCuff with words := [(false, { zCuffWord with preface := true, last := true })] }, 0, false, _, _, rfl, by decide, rfl, rfl, rfl, rfl, rfl, rfl, rfl, rfl, rfl⟩,
   ⟨at_ 100000000000 { sv with ingress := { sv.ingress with fragments := [(0, zFragEntry)] } }, _, 0, _, rfl, rfl, rfl, reach_now _ _ (by decide), rfl⟩,
   ⟨{ dvI with ingress := { dvI.ingress with recirc := [(0, [{ zRecirculated with label := 1, generation := 1 }])] } }, 0, zMediaPacket, _, _, rfl, rfl, rfl, rfl, rfl, rfl⟩⟩

theorem witness_CipherCommandsComplete :
    (∃ (s : State) (cluster : Nat) (port : Nat) (b : List Byte) (p : JobPurpose), inService s = true ∧ s.trust.zeroizing = false ∧ cluster < 8 ∧ wanted s p (readJobDesc b) = true ∧ maySubmit port (readJobDesc b) = true ∧ inServiceEngine s 4 cluster = true ∧ portReply s port (enginePort 4 cluster) = .pass ∧ (s.cipher.jobs.filter (fun j => j.cluster = cluster)).length < 256 ∧ jobStatus (unsubmit s p) cluster (readJobDesc b) = 0 ∧ (jobKey (unsubmit s p) cluster (readJobDesc b)).isSome = true) ∧
    (∃ (s : State) (cluster : Nat) (port : Nat) (b : List Byte) (p : JobPurpose), inService s = true ∧ s.trust.zeroizing = false ∧ cluster < 8 ∧ wanted s p (readJobDesc b) = true ∧ maySubmit port (readJobDesc b) = true ∧ inServiceEngine s 4 cluster = true ∧ portReply s port (enginePort 4 cluster) = .pass ∧ (s.cipher.jobs.filter (fun j => j.cluster = cluster)).length < 256 ∧ jobStatus (unsubmit s p) cluster (readJobDesc b) ≠ 0) ∧
    (∃ (s : State) (j : CipherJob) (r : JobResult), s.cipher.jobs.find? (fun k => k.id = j.id) = some j ∧ inService s = true ∧ mayComplete s j = true ∧ r.core / 4 = j.cluster ∧ r.failed = false ∧ r.addrError = false ∧ r.poisoned = false ∧ (jobRefused (countCore s r.core (coreCycles j.desc + r.stall)) j).isSome = false ∧ sourcePoisoned (countCore s r.core (coreCycles j.desc + r.stall)) j.desc = false) ∧
    (∃ (s : State) (j : CipherJob) (r : JobResult), s.cipher.jobs.find? (fun k => k.id = j.id) = some j ∧ inService s = true ∧ mayComplete s j = true ∧ r.core / 4 = j.cluster ∧ r.failed = false ∧ r.addrError = false ∧ (jobRefused (countCore s r.core (coreCycles j.desc + r.stall)) j).isSome = false ∧ r.poisoned = true) ∧
    (∃ (s : State) (cluster : Nat) (slot : Nat) (k : KeyEntry), inService s = true ∧ s.trust.zeroizing = false ∧ slot / 128 = cluster ∧ (loadsAtWork s).contains slot = true ∧ s.trust.keys.get (palmSlot s slot).entry = some k ∧ k.corrupt = false ∧ pathOpen s (if creditFree s 73 then 73 else 89) (enginePort 4 cluster) = true) ∧
    (∃ (s : State) (cluster : Nat) (slot : Nat), inService s = true ∧ slot / 128 = cluster ∧ (palmSlot s slot).state = .resident ∧ rd s Reg.CIPHER.CIPHER_CONFIG_REFRESH_TICKS ≤ since s (palmSlot s slot).loadedAt) :=
  ⟨⟨allOn keyed, 0, 6, jobBytes, .pon 0, rfl, rfl, by decide, by decide, by decide, rfl, rfl, by decide, by decide, rfl⟩,
   ⟨allOn dvI, 0, 6, jobBytes, .pon 0, rfl, rfl, by decide, by decide, by decide, rfl, rfl, by decide, by decide⟩,
   ⟨jobs1 dvI, cipJob, zJobResult, rfl, rfl, rfl, rfl, rfl, rfl, rfl, rfl, rfl⟩,
   ⟨jobs1 dvI, cipJob, { zJobResult with poisoned := true }, rfl, rfl, rfl, rfl, rfl, rfl, rfl, rfl⟩,
   ⟨let s := slotIs .loading keyed; { s with cipher := { s.cipher with loads := [0] } }, 0, 0, _, rfl, rfl, rfl, by decide, rfl, rfl, by decide⟩,
   ⟨let s := slotIs .resident { dvI with time := { dvI.time with boundaries := 100000000 } }; s, 0, 0, rfl, rfl, rfl, by decide⟩⟩

theorem witness_LegCommandsComplete :
    (∃ (s : State) (l : Nat) (x : Leg) (fir : Bool), s.legs.get l = some x ∧ inService s = true ∧ x.state = .active ∧ x.spec.kind ≠ 0 ∧ (takeFeedback s x.spec.participant (.keyframe l fir)).isSome = true) ∧
    (∃ (s : State) (u : State) (sender : Nat) (t : Nat) (fir : Bool) (firs : Nat), keyframeOf s sender = some { last := some t, pending := true, fir := fir, firs := firs } ∧ reachable s (t + 200000000) = true ∧ u = advanceTo s (t + 200000000)) ∧
    (∃ (s : State) (u : State) (l : Nat) (t : Nat) (x : Leg), s.legs.get l = some x ∧ x.raiseSince = some t ∧ x.state = .active ∧ inService s = true ∧ x.raiseAsked = false ∧ reachable s (t + 500000000) = true ∧ u = advanceTo s (t + 500000000)) ∧
    (∃ (s : State) (u : State) (l : Nat) (x : Leg) (g : Gap), s.legs.get l = some x ∧ x.gaps.find? (fun g => !g.nacked) = some g ∧ x.state = .active ∧ x.spec.nackUp = true ∧ inService s = true ∧ reachable s (g.seen + 5000000) = true ∧ u = advanceTo s (g.seen + 5000000)) ∧
    (∃ (s : State) (l : Nat) (x : Leg) (seqs : List Nat), s.legs.get l = some x ∧ inService s = true ∧ x.state = .active ∧ x.spec.kind ≠ 0 ∧ (takeFeedback s x.spec.participant (.nack l seqs)).isSome = true) ∧
    (∃ (s : State) (p : Nat) (items : List FeedbackItem) (a : Participant), s.participants.get p = some a ∧ a.feedback.contains (.report items) = true ∧ inService s = true ∧ a.state = .active ∧ a.spec.transport ≠ 2) ∧
    (∃ (s : State) (u : State) (p : Nat) (a : Participant), s.participants.get p = some a ∧ inService s = true ∧ a.state = .active ∧ a.spec.transport ≠ 2 ∧ reachable s a.staleAt = true ∧ u = advanceTo s a.staleAt ∧ a.spec.minRate < a.nextEstimate.getD a.estimate) ∧
    (∃ (s : State) (u : State) (p : Nat) (a : Participant), s.participants.get p = some a ∧ inService s = true ∧ a.state = .active ∧ a.spec.transport ≠ 2 ∧ reachable s a.staleAt = true ∧ u = advanceTo s a.staleAt ∧ a.nextEstimate.getD a.estimate ≤ a.spec.minRate) :=
  ⟨⟨{ sv with legs := [(0, { liveLeg with spec := tx })], participants := [(0, { part2 with feedback := [.keyframe 0 true] })] }, 0, _, true, rfl, rfl, rfl, by decide, rfl⟩,
   ⟨at_ 200000000 { sv with encodes := [(0, { encs with keyframe := { last := some 0, pending := true, fir := true, firs := 0 } })] }, _, 0x10000000, _, _, _, rfl, reach_now _ _ (by decide), rfl⟩,
   ⟨at_ 500000000 { sv with legs := [(0, { liveLeg with spec := tx, raiseSince := some 0 })] }, _, 0, _, _, rfl, rfl, rfl, rfl, rfl, reach_now _ _ (by decide), rfl⟩,
   ⟨at_ 5000000 { sv with legs := [(0, { liveLeg with spec := { tx with flags := 0xFF }, gaps := [zGap] })] }, _, 0, _, _, rfl, rfl, rfl, rfl, rfl, reach_now _ _ (by decide), rfl⟩,
   ⟨{ sv with legs := [(0, { liveLeg with spec := tx })], participants := [(0, { part2 with feedback := [.nack 0 [1]] })] }, 0, _, [1], rfl, rfl, rfl, by decide, rfl⟩,
   ⟨{ sv with participants := [(0, { part2 with spec := { pt2 with transport := 1 }, feedback := [.report []] })] }, 0, [], _, rfl, rfl, rfl, rfl, by decide⟩,
   ⟨{ sv with participants := [(0, { part2 with spec := { pt2 with transport := 1 }, estimate := 64 })] }, _, 0, _, rfl, rfl, rfl, by decide, reach_now _ _ (by decide), rfl, by decide⟩,
   ⟨{ sv with participants := [(0, { part2 with spec := { pt2 with transport := 1 }, estimate := 32 })] }, _, 0, _, rfl, rfl, rfl, by decide, reach_now _ _ (by decide), rfl, by decide⟩⟩

theorem witness_DecodeAndEncodeCommandsComplete :
    (∃ (s : State) (i : Nat) (tr : Nat) (d : DecodeStream) (a : AsmFrame) (rest : List AsmFrame) (f : CodedFrame), s.decodes.get i = some d ∧ nextAssembled d = a :: rest ∧ a.readyAt = some tr ∧ a.absent = false ∧ inService s = true ∧ s.time.shortTick = false ∧ (d.state = .waiting ∨ d.state = .running) ∧ inServiceEngine s 0 d.cluster = true) ∧
    (∃ (s : State) (i : Nat) (tr : Nat) (d : DecodeStream) (a : AsmFrame) (rest : List AsmFrame) (f : CodedFrame), s.decodes.get i = some d ∧ nextAssembled d = a :: rest ∧ a.readyAt = some tr ∧ a.absent = true ∧ inService s = true ∧ s.time.shortTick = false ∧ (d.state = .waiting ∨ d.state = .running) ∧ inServiceEngine s 0 d.cluster = true) ∧
    (∃ (s : State) (i : Nat) (w : RowWork) (d : DecodeStream) (j : DecodeFrame), decodeRowDue s d j = true ∧ s.decodes.get i = some d ∧ d.job = some j ∧ j.buffer = none) ∧
    (∃ (s : State) (i : Nat) (b : Nat) (w : RowWork) (d : DecodeStream) (j : DecodeFrame), decodeRowDue s d j = true ∧ s.decodes.get i = some d ∧ d.job = some j ∧ j.buffer = some b ∧ j.held = none ∧ j.sched.suspended = false ∧ decodeRowWorks s b w = true ∧ decodeRowNeed j w ≤ decodeRowCap s j) ∧
    (∃ (s : State) (i : Nat) (b : Nat) (w : RowWork) (d : DecodeStream) (j : DecodeFrame), decodeRowDue s d j = true ∧ s.decodes.get i = some d ∧ d.job = some j ∧ j.buffer = some b ∧ j.held = none ∧ j.sched.suspended = false ∧ decodeRowWorks s b w = true ∧ decodeRowCap s j < decodeRowNeed j w) ∧
    (∃ (s : State) (i : Nat) (b : Nat) (w : RowWork) (v : RowWork) (d : DecodeStream) (j : DecodeFrame), decodeRowDue s d j = true ∧ s.decodes.get i = some d ∧ d.job = some j ∧ j.buffer = some b ∧ j.held = some w ∧ j.sched.suspended = true ∧ decodeRowWorks s b w = true ∧ decodeRowNeed j w ≤ 2 * decodeRowCap s j) ∧
    (∃ (s : State) (i : Nat) (b : Nat) (w : RowWork) (v : RowWork) (d : DecodeStream) (j : DecodeFrame), decodeRowDue s d j = true ∧ s.decodes.get i = some d ∧ d.job = some j ∧ j.buffer = some b ∧ j.held = some w ∧ j.sched.suspended = true ∧ decodeRowWorks s b w = true ∧ 2 * decodeRowCap s j < decodeRowNeed j w) ∧
    (∃ (s : State) (i : Nat) (b : Nat) (w : RowWork) (d : DecodeStream) (j : DecodeFrame), decodeRowDue s d j = true ∧ s.decodes.get i = some d ∧ d.job = some j ∧ j.buffer = some b ∧ j.held = none ∧ decodeRowWorks s b w = false) ∧
    (∃ (s : State) (i : Nat) (e : EncodeStream), s.encodes.get i = some e ∧ inService s = true ∧ (e.state = .waiting ∨ e.state = .running) ∧ inServiceEngine s 1 e.cluster = true ∧ startsNow s e = true ∧ onceDue s (0x500000 + i) = true ∧ e.job = none) ∧
    (∃ (s : State) (i : Nat) (e : EncodeStream), s.encodes.get i = some e ∧ inService s = true ∧ (e.state = .waiting ∨ e.state = .running) ∧ inServiceEngine s 1 e.cluster = true ∧ startsNow s e = true ∧ onceDue s (0x500000 + i) = true ∧ e.job.isSome = true) ∧
    (∃ (s : State) (i : Nat) (w : EncodeWork) (e : EncodeStream) (j : EncodeFrame) (f : LayerFrame), encodeRowDue s e j = true ∧ s.encodes.get i = some e ∧ e.job = some j ∧ j.layers[(jobPlace e j j.sched.next).layer]? = some f ∧ f.held = none ∧ j.sched.suspended = false ∧ encodeRowWorks s f.buffer w = true ∧ encodeRowNeed w < encodeRowCap s e j) ∧
    (∃ (s : State) (i : Nat) (w : EncodeWork) (e : EncodeStream) (j : EncodeFrame) (f : LayerFrame), encodeRowDue s e j = true ∧ s.encodes.get i = some e ∧ e.job = some j ∧ j.layers[(jobPlace e j j.sched.next).layer]? = some f ∧ f.held = none ∧ j.sched.suspended = false ∧ encodeRowWorks s f.buffer w = true ∧ encodeRowCap s e j ≤ encodeRowNeed w) ∧
    (∃ (s : State) (i : Nat) (w : EncodeWork) (v : EncodeWork) (e : EncodeStream) (j : EncodeFrame) (f : LayerFrame), encodeRowDue s e j = true ∧ s.encodes.get i = some e ∧ e.job = some j ∧ j.layers[(jobPlace e j j.sched.next).layer]? = some f ∧ f.held = some w ∧ j.sched.suspended = true ∧ encodeRowWorks s f.buffer w = true ∧ encodeRowNeed w < 2 * encodeRowCap s e j) ∧
    (∃ (s : State) (i : Nat) (w : EncodeWork) (v : EncodeWork) (e : EncodeStream) (j : EncodeFrame) (f : LayerFrame), encodeRowDue s e j = true ∧ s.encodes.get i = some e ∧ e.job = some j ∧ j.layers[(jobPlace e j j.sched.next).layer]? = some f ∧ f.held = some w ∧ j.sched.suspended = true ∧ encodeRowWorks s f.buffer w = true ∧ 2 * encodeRowCap s e j ≤ encodeRowNeed w) ∧
    (∃ (s : State) (i : Nat) (w : EncodeWork) (e : EncodeStream) (j : EncodeFrame) (f : LayerFrame), encodeRowDue s e j = true ∧ s.encodes.get i = some e ∧ e.job = some j ∧ j.layers[(jobPlace e j j.sched.next).layer]? = some f ∧ f.held = none ∧ encodeRowWorks s f.buffer w = false) :=
  ⟨⟨{ bd 125000 dvI with decodes := [(0, { dst0 with assembly := [asm1] })] }, 0, _, _, _, _, zCodedFrame, rfl, rfl, rfl, rfl, rfl, rfl, by decide, rfl⟩,
   ⟨{ bd 125000 dvI with decodes := [(0, { dst0 with assembly := [{ asm1 with packets := [] }] })] }, 0, _, _, _, _, zCodedFrame, rfl, rfl, rfl, rfl, rfl, rfl, by decide, rfl⟩,
   ⟨decS { dj0 with buffer := none }, 0, zRowWork, dd { dj0 with buffer := none }, { dj0 with buffer := none }, rfl, rfl, rfl, rfl⟩,
   ⟨decS dj0, 0, 0, rowW 700, dd dj0, dj0, rfl, rfl, rfl, rfl, rfl, rfl, rfl, by decide⟩,
   ⟨decS dj0, 0, 0, rowW 2000, dd dj0, dj0, rfl, rfl, rfl, rfl, rfl, rfl, rfl, by decide⟩,
   ⟨decS { dj0 with sched := susp, held := some (rowW 800) }, 0, 0, rowW 800, zRowWork, dd { dj0 with sched := susp, held := some (rowW 800) }, { dj0 with sched := susp, held := some (rowW 800) }, rfl, rfl, rfl, rfl, rfl, rfl, rfl, by decide⟩,
   ⟨decS { dj0 with sched := susp, held := some (rowW 2000) }, 0, 0, rowW 2000, zRowWork, dd { dj0 with sched := susp, held := some (rowW 2000) }, { dj0 with sched := susp, held := some (rowW 2000) }, rfl, rfl, rfl, rfl, rfl, rfl, rfl, by decide⟩,
   ⟨decS dj0, 0, 0, { rowW 1 with failed := true }, dd dj0, dj0, rfl, rfl, rfl, rfl, rfl, rfl⟩,
   ⟨{ bd 40000000 dvI with encodes := [(0, encs)] }, 0, _, rfl, rfl, by decide, rfl, by decide, rfl, rfl⟩,
   ⟨{ bd 40000000 dvI with encodes := [(0, ee (ej late0 lf0))] }, 0, _, rfl, rfl, by decide, rfl, by decide, rfl, rfl⟩,
   ⟨encS (ej late0 lf0), 0, encW 1, ee (ej late0 lf0), ej late0 lf0, lf0, rfl, rfl, rfl, rfl, rfl, rfl, rfl, by decide⟩,
   ⟨encS (ej late0 lf0), 0, encW 1000000, ee (ej late0 lf0), ej late0 lf0, lf0, rfl, rfl, rfl, rfl, rfl, rfl, rfl, by decide⟩,
   ⟨encS (ej susp { lf0 with held := some (encW 1) }), 0, encW 1, zEncodeWork, ee (ej susp { lf0 with held := some (encW 1) }), ej susp { lf0 with held := some (encW 1) }, { lf0 with held := some (encW 1) }, rfl, rfl, rfl, rfl, rfl, rfl, rfl, by decide⟩,
   ⟨encS (ej susp { lf0 with held := some (encW 1000000) }), 0, encW 1000000, zEncodeWork, ee (ej susp { lf0 with held := some (encW 1000000) }), ej susp { lf0 with held := some (encW 1000000) }, { lf0 with held := some (encW 1000000) }, rfl, rfl, rfl, rfl, rfl, rfl, rfl, by decide⟩,
   ⟨encS (ej late0 lf0), 0, { encW 1 with failed := true }, ee (ej late0 lf0), ej late0 lf0, lf0, rfl, rfl, rfl, rfl, rfl, rfl⟩⟩

theorem witness_VeilCommandsComplete :
    (∃ (s : State) (i : Nat) (c : Composite), s.composites.get i = some c ∧ inService s = true ∧ (c.state = .idle ∨ c.state = .running ∨ c.state = .slate) ∧ inServiceEngine s 2 c.veil = true ∧ frameDue s c.spec.rate c.spec.phase = true ∧ onceDue s (0x400000 + i) = true) ∧
    (∃ (s : State) (i : Nat) (c : Composite) (l : DisplayList), s.composites.get i = some c ∧ inService s = true ∧ inServiceEngine s 2 c.veil = true ∧ c.awaiting = some l ∧ deferredOf s 0x13 i = none) ∧
    (∃ (s : State) (i : Nat) (w : BandWork) (c : Composite) (j : CompFrame), bandDue s c j = true ∧ s.composites.get i = some c ∧ c.job = some j ∧ bandWorks s j w = true ∧ (bandFrame s c j w).sched.next ≠ (bandFrame s c j w).sched.total) ∧
    (∃ (s : State) (i : Nat) (w : BandWork) (c : Composite) (j : CompFrame), bandDue s c j = true ∧ s.composites.get i = some c ∧ c.job = some j ∧ bandWorks s j w = true ∧ (bandFrame s c j w).sched.next = (bandFrame s c j w).sched.total) ∧
    (∃ (s : State) (i : Nat) (w : BandWork) (c : Composite) (j : CompFrame), bandDue s c j = true ∧ s.composites.get i = some c ∧ c.job = some j ∧ bandWorks s j w = false) ∧
    (∃ (s : State) (i : Nat) (c : Composite), s.composites.get i = some c ∧ inService s = true ∧ c.state = .running ∧ c.visorRun = 3 ∧ c.slateDue = false) :=
  ⟨⟨withComp comp0, 0, _, rfl, rfl, by decide, rfl, by decide, rfl⟩,
   ⟨withComp { comp0 with awaiting := some zDisplayList }, 0, _, _, rfl, rfl, rfl, rfl, rfl⟩,
   ⟨withComp (cc (cj 2)), 0, { zBandWork with failed := false }, cc (cj 2), cj 2, rfl, rfl, rfl, rfl, by decide⟩,
   ⟨withComp (cc (cj 1)), 0, { zBandWork with failed := false }, cc (cj 1), cj 1, rfl, rfl, rfl, rfl, rfl⟩,
   ⟨withComp (cc (cj 2)), 0, { zBandWork with failed := true }, cc (cj 2), cj 2, rfl, rfl, rfl, rfl⟩,
   ⟨withComp { comp0 with visorRun := 3 }, 0, _, rfl, rfl, rfl, rfl, rfl⟩⟩

theorem witness_AudioCommandsComplete :
    (∃ (s : State) (l : Nat) (p : ArrivedPacket) (rest : List ArrivedPacket) (x : Leg) (a : AudioSource), s.legs.get l = some x ∧ s.audio.get l = some a ∧ a.arrived = p :: rest ∧ inService s = true ∧ x.state = .active ∧ a.state = .active) ∧
    (∃ (s : State) (u : State) (l : Nat) (x : AudioSource), s.audio.get l = some x ∧ inService s = true ∧ x.state = .active ∧ reachable s (x.lastRecompute + 100000000) = true ∧ u = advanceTo s (x.lastRecompute + 100000000)) ∧
    (∃ (s : State) (l : Nat) (x : AudioSource), s.audio.get l = some x ∧ inService s = true ∧ x.state = .active ∧ x.noise = false ∧ rd s Reg.AUDIO.AUDIO_CONFIG_CONCEAL_LIMIT ≤ x.concealRun) ∧
    (∃ (s : State) (room : Nat) (cluster : Nat) (r : Room), s.rooms.get room = some r ∧ inService s = true ∧ s.mixes.get room = none ∧ s.time.mixCount ≠ 0 ∧ s.time.once.get (1000 + room) ≠ some s.time.mixCount ∧ sourcesReady s room s.time.mixCount = true) ∧
    (∃ (s : State) (room : Nat) (k : Nat) (i : Nat) (r : Room) (m : Mix) (rest : List (Nat × Nat)), s.rooms.get room = some r ∧ inService s = true ∧ s.mixes.get room = some m ∧ m.state = .active ∧ m.periods = (k, i) :: rest ∧ sourcesReady s room k = true) ∧
    (∃ (s : State) (cluster : Nat) (f : CodecJob), inService s = true ∧ cluster < 8 ∧ inServiceEngine s 3 cluster = true) ∧
    (∃ (s : State) (u : State) (room : Nat) (off : Nat) (m : Mix), s.mixes.get room = some m ∧ m.recordAt = some off ∧ inService s = true ∧ m.recordDirty = true ∧ bitOf (exportBits s) 3 = 1 ∧ reachable s (m.recordWritten + 100000000) = true ∧ u = advanceTo s (m.recordWritten + 100000000)) :=
  ⟨⟨withAud { aud with arrived := [zArrivedPacket] }, 0, _, _, _, _, rfl, rfl, rfl, rfl, rfl, rfl⟩,
   ⟨at_ 100000000 (withAud aud), _, 0, _, rfl, rfl, rfl, reach_now _ _ (by decide), rfl⟩,
   ⟨withAud { aud with concealRun := 1000 }, 0, _, rfl, rfl, rfl, rfl, by decide⟩,
   ⟨mixing dvI, 0, 0, _, rfl, rfl, rfl, by decide, by decide, rfl⟩,
   ⟨{ mixing dvI with mixes := [(0, { zMix with state := .active, periods := [(0, 0)] })] }, 0, _, _, _, _, _, rfl, rfl, rfl, rfl, rfl, rfl⟩,
   ⟨dvI, 0, .decoded 0 false, rfl, by decide, rfl⟩,
   ⟨let s := at_ 100000000 { dvI with mixes := [(0, { zMix with state := .active, recordAt := some 0, recordDirty := true })] }; { s with trust := { s.trust with current := { s.trust.current with policy := [.export_ 8] } } }, _, 0, _, _, rfl, rfl, rfl, rfl, rfl, reach_now _ _ (by decide), rfl⟩⟩

theorem witness_ArithmeticWordsComplete :
    (∃ (s : State) (w : LaneA) (k : BankId) (t : Nat) (x : Thread), issuing s w.lane = some (k, t, x) ∧ nextWord s w.lane = some (AForm.word w.form AOp.add) ∧ aLegal AOp.add (operandsOf w.form) = true ∧ lLegal ((laneOf s w.lane).bank k) (besideOf w.form) = true ∧ lReaches k ((laneOf s w.lane).bank k) (besideOf w.form) = true ∧ slotsApart ((laneOf s w.lane).bank k) AOp.add (operandsOf w.form) (besideOf w.form) = true) ∧
    (∃ (s : State) (w : LaneA) (k : BankId) (t : Nat) (x : Thread), issuing s w.lane = some (k, t, x) ∧ nextWord s w.lane = some (AForm.word w.form AOp.mac) ∧ (aLegal AOp.mac (operandsOf w.form) = false ∨ lLegal ((laneOf s w.lane).bank k) (besideOf w.form) = false ∨ (lReaches k ((laneOf s w.lane).bank k) (besideOf w.form) = true ∧ slotsApart ((laneOf s w.lane).bank k) AOp.mac (operandsOf w.form) (besideOf w.form) = false))) ∧
    (∃ (s : State) (w : LaneA) (k : BankId) (t : Nat) (x : Thread), issuing s w.lane = some (k, t, x) ∧ nextWord s w.lane = some (AForm.word w.form AOp.add) ∧ aLegal AOp.add (operandsOf w.form) = true ∧ lLegal ((laneOf s w.lane).bank k) (besideOf w.form) = true ∧ lReaches k ((laneOf s w.lane).bank k) (besideOf w.form) = false) ∧
    (∃ (s : State) (w : LaneA) (v : MWord), nextWord s w.lane = some v ∧ v ≠ AForm.word w.form AOp.add) ∧
    (∃ (s : State) (w : LaneA), issuing s w.lane = none) ∧
    (∃ (s : State) (l : Nat) (k : BankId) (t : Nat) (x : Thread), issuing s l = some (k, t, x) ∧ nextWord s l = some (.pair .idle .nop)) :=
  ⟨⟨laneW Bank.zero (AForm.word (.pair args .nop) .add), { lane := 0, form := .pair args .nop }, _, _, _, rfl, rfl, rfl, rfl, rfl, rfl⟩,
   ⟨laneW Bank.zero (AForm.word (.pair { args with dst := 8 } .nop) .mac), { lane := 0, form := .pair { args with dst := 8 } .nop }, _, _, _, rfl, rfl, by decide⟩,
   ⟨laneW Bank.zero (AForm.word (.pair args (.mem .ld32 { zLArgs with reg := 4, offset := -4 })) .add), { lane := 0, form := .pair args (.mem .ld32 { zLArgs with reg := 4, offset := -4 }) }, _, _, _, rfl, rfl, rfl, rfl, rfl⟩,
   ⟨laneW Bank.zero (AForm.word (.pair args .nop) .sub), { lane := 0, form := .pair args .nop }, AForm.word (.pair args .nop) .sub, rfl, by decide⟩,
   ⟨sv, { lane := 0, form := .pair args .nop }, rfl⟩,
   ⟨laneW Bank.zero (.pair .idle .nop), 0, _, _, _, rfl, rfl⟩⟩

theorem witness_MemoryWordsComplete :
    (∃ (s : State) (w : LaneL) (k : BankId) (t : Nat) (x : Thread), issuing s w.lane = some (k, t, x) ∧ nextWord s w.lane = some (.pair w.beside (.mem LOp.st32 w.x)) ∧ aLegal w.beside.op w.beside.x.toIn = true ∧ lLegal ((laneOf s w.lane).bank k) (.mem LOp.st32 w.x) = true ∧ lReaches k ((laneOf s w.lane).bank k) (.mem LOp.st32 w.x) = true ∧ slotsApart ((laneOf s w.lane).bank k) w.beside.op w.beside.x.toIn (.mem LOp.st32 w.x) = true) ∧
    (∃ (s : State) (w : LaneL) (k : BankId) (t : Nat) (x : Thread), issuing s w.lane = some (k, t, x) ∧ nextWord s w.lane = some (.pair w.beside (.mem LOp.st32 w.x)) ∧ aLegal w.beside.op w.beside.x.toIn = true ∧ lLegal ((laneOf s w.lane).bank k) (.mem LOp.st32 w.x) = true ∧ lReaches k ((laneOf s w.lane).bank k) (.mem LOp.st32 w.x) = false) ∧
    (∃ (s : State) (w : LaneL) (k : BankId) (t : Nat) (x : Thread), issuing s w.lane = some (k, t, x) ∧ nextWord s w.lane = some (.pair w.beside (.mem LOp.st32 w.x)) ∧ (aLegal w.beside.op w.beside.x.toIn = false ∨ lLegal ((laneOf s w.lane).bank k) (.mem LOp.st32 w.x) = false)) ∧
    (∃ (s : State) (l : Nat) (q : XYArgs) (beside : ASlot) (k : BankId) (t : Nat) (x : Thread), issuing s l = some (k, t, x) ∧ nextWord s l = some (.pair beside (.ldxy q)) ∧ aLegal beside.op beside.x.toIn = true ∧ lLegal ((laneOf s l).bank k) (.ldxy q) = true ∧ lReaches k ((laneOf s l).bank k) (.ldxy q) = true ∧ slotsApart ((laneOf s l).bank k) beside.op beside.x.toIn (.ldxy q) = true) ∧
    (∃ (s : State) (l : Nat) (q : XYArgs) (beside : ASlot) (k : BankId) (t : Nat) (x : Thread), issuing s l = some (k, t, x) ∧ nextWord s l = some (.pair beside (.ldxy q)) ∧ aLegal beside.op beside.x.toIn = true ∧ lLegal ((laneOf s l).bank k) (.ldxy q) = true ∧ lReaches k ((laneOf s l).bank k) (.ldxy q) = false) :=
  ⟨⟨laneW Bank.zero (.pair .idle (.mem .st32 zLArgs)), { lane := 0, x := zLArgs, beside := .idle }, _, _, _, rfl, rfl, rfl, rfl, rfl, rfl⟩,
   ⟨laneW Bank.zero (.pair .idle (.mem .st32 { zLArgs with offset := -4 })), { lane := 0, x := { zLArgs with offset := -4 }, beside := .idle }, _, _, _, rfl, rfl, rfl, rfl, rfl⟩,
   ⟨laneW Bank.zero (.pair { op := .mac, x := { args with dst := 8 } } (.mem .st32 zLArgs)), { lane := 0, x := zLArgs, beside := { op := .mac, x := { args with dst := 8 } } }, _, _, _, rfl, rfl, by decide⟩,
   ⟨laneW Bank.zero (.pair .idle (.ldxy zXYArgs)), 0, zXYArgs, .idle, _, _, _, rfl, rfl, rfl, rfl, rfl, rfl⟩,
   ⟨laneW { Bank.zero with p := [16384] } (.pair .idle (.ldxy zXYArgs)), 0, zXYArgs, .idle, _, _, _, rfl, rfl, rfl, rfl, rfl⟩⟩

theorem witness_ControlWordsComplete :
    (∃ (s : State) (l : Nat) (cond : Nat) (off : Int) (k : BankId) (t : Nat) (x : Thread), issuing s l = some (k, t, x) ∧ nextWord s l = some (.control (.br cond off)) ∧ condHolds ((laneOf s l).bank k) cond = some true ∧ 0 ≤ branchAddress ((laneOf s l).bank k) off ∧ branchAddress ((laneOf s l).bank k) off < (codeLength s x : Int)) ∧
    (∃ (s : State) (l : Nat) (cond : Nat) (off : Int) (k : BankId) (t : Nat) (x : Thread), issuing s l = some (k, t, x) ∧ nextWord s l = some (.control (.br cond off)) ∧ condHolds ((laneOf s l).bank k) cond = some false) ∧
    (∃ (s : State) (l : Nat) (cond : Nat) (off : Int) (k : BankId) (t : Nat) (x : Thread), issuing s l = some (k, t, x) ∧ nextWord s l = some (.control (.call cond off)) ∧ condHolds ((laneOf s l).bank k) cond = some true ∧ 0 ≤ branchAddress ((laneOf s l).bank k) off ∧ branchAddress ((laneOf s l).bank k) off < (codeLength s x : Int)) ∧
    (∃ (s : State) (l : Nat) (k : BankId) (t : Nat) (x : Thread), issuing s l = some (k, t, x) ∧ nextWord s l = some (.control .ret) ∧ ((laneOf s l).bank k).link % 8 = 0 ∧ ((laneOf s l).bank k).link < codeLength s x) ∧
    (∃ (s : State) (l : Nat) (level : Nat) (count : Nat) (body : Nat) (rotate : Bool) (k : BankId) (t : Nat) (x : Thread), issuing s l = some (k, t, x) ∧ nextWord s l = some (.control (.loop level rotate false count body)) ∧ loopLegal ((laneOf s l).bank k) (codeLength s x) level rotate count body = true) ∧
    (∃ (s : State) (l : Nat) (level : Nat) (r : Nat) (body : Nat) (rotate : Bool) (k : BankId) (t : Nat) (x : Thread), issuing s l = some (k, t, x) ∧ nextWord s l = some (.control (.loop level rotate true r body)) ∧ loopLegal ((laneOf s l).bank k) (codeLength s x) level rotate (((laneOf s l).bank k).dreg r).toNat body = true) ∧
    (∃ (s : State) (l : Nat) (mode : Nat) (value : Nat) (k : BankId) (t : Nat) (x : Thread), issuing s l = some (k, t, x) ∧ nextWord s l = some (.control (.wait mode value)) ∧ (mode = 2 → value ≤ 63) ∧ ((laneOf s l).bank k).transfers = []) ∧
    (∃ (s : State) (l : Nat) (mode : Nat) (value : Nat) (k : BankId) (t : Nat) (x : Thread), issuing s l = some (k, t, x) ∧ nextWord s l = some (.control (.wait mode value)) ∧ (mode = 2 → value ≤ 63) ∧ ((laneOf s l).bank k).transfers ≠ []) ∧
    (∃ (s : State) (l : Nat) (cluster : Nat) (ev : Nat) (k : BankId) (t : Nat) (x : Thread), issuing s l = some (k, t, x) ∧ nextWord s l = some (.control (.signal cluster ev)) ∧ 16 ≤ ev) ∧
    (∃ (s : State) (l : Nat) (cluster : Nat) (ev : Nat) (k : BankId) (t : Nat) (x : Thread), issuing s l = some (k, t, x) ∧ nextWord s l = some (.control (.signal cluster ev)) ∧ ev < 16) ∧
    (∃ (s : State) (l : Nat) (entry : Nat) (arg : Nat) (result : Nat) (k : BankId) (t : Nat) (x : Thread), issuing s l = some (k, t, x) ∧ nextWord s l = some (.control (.spawn entry arg result))) ∧
    (∃ (s : State) (l : Nat) (r : Nat) (pair : Nat) (words : Nat) (k : BankId) (t : Nat) (x : Thread), issuing s l = some (k, t, x) ∧ nextWord s l = some (.control (.fetch r pair words)) ∧ pair % 2 = 0 ∧ transferFits k ((laneOf s l).bank k) r pair words = true ∧ ((laneOf s l).bank k).transfers.length < 8) ∧
    (∃ (s : State) (l : Nat) (r : Nat) (pair : Nat) (words : Nat) (k : BankId) (t : Nat) (x : Thread), issuing s l = some (k, t, x) ∧ nextWord s l = some (.control (.put r pair words)) ∧ pair % 2 = 0 ∧ transferFits k ((laneOf s l).bank k) r pair words = true ∧ ((laneOf s l).bank k).transfers.length < 8) ∧
    (∃ (s : State) (l : Nat) (r : Nat) (pair : Nat) (words : Nat) (k : BankId) (t : Nat) (x : Thread), issuing s l = some (k, t, x) ∧ nextWord s l = some (.control (.put r pair words)) ∧ pair % 2 = 0 ∧ transferFits k ((laneOf s l).bank k) r pair words = true ∧ 8 ≤ ((laneOf s l).bank k).transfers.length) ∧
    (∃ (s : State) (l : Nat) (k : BankId) (t : Nat) (x : Thread), issuing s l = some (k, t, x) ∧ nextWord s l = some (.control .fence)) ∧
    (∃ (s : State) (l : Nat) (k : BankId) (t : Nat) (x : Thread), issuing s l = some (k, t, x) ∧ nextWord s l = none) :=
  ⟨⟨laneC Bank.zero (.br 0 0), 0, 0, 0, _, _, _, rfl, rfl, rfl, near_branch.1, near_branch.2⟩,
   ⟨laneC Bank.zero (.br 1 0), 0, 1, 0, _, _, _, rfl, rfl, rfl⟩,
   ⟨laneC Bank.zero (.call 0 0), 0, 0, 0, _, _, _, rfl, rfl, rfl, near_branch.1, near_branch.2⟩,
   ⟨laneC { Bank.zero with link := 8 } .ret, 0, _, _, _, rfl, rfl, rfl, by decide⟩,
   ⟨laneC Bank.zero (.loop 0 true false 65535 1), 0, 0, 65535, 1, true, _, _, _, rfl, rfl, rfl⟩,
   ⟨laneC Bank.zero (.loop 1 false true 31 62), 0, 1, 31, 62, false, _, _, _, rfl, rfl, rfl⟩,
   ⟨laneC Bank.zero (.wait 2 63), 0, 2, 63, _, _, _, rfl, rfl, by decide, rfl⟩,
   ⟨laneC { Bank.zero with transfers := xfer 1 } (.wait 0 0), 0, 0, 0, _, _, _, rfl, rfl, by decide, by decide⟩,
   ⟨laneC Bank.zero (.signal 7 16), 0, 7, 16, _, _, _, rfl, rfl, by decide⟩,
   ⟨laneC Bank.zero (.signal 7 15), 0, 7, 15, _, _, _, rfl, rfl, by decide⟩,
   ⟨laneC Bank.zero (.spawn 0 1 2), 0, 0, 1, 2, _, _, _, rfl, rfl⟩,
   ⟨laneC { Bank.zero with transfers := xfer 7 } (.fetch 0 2 64), 0, 0, 2, 64, _, _, _, rfl, rfl, rfl, rfl, by decide⟩,
   ⟨laneC { Bank.zero with transfers := xfer 7 } (.put 0 2 64), 0, 0, 2, 64, _, _, _, rfl, rfl, rfl, rfl, by decide⟩,
   ⟨laneC { Bank.zero with transfers := xfer 8 } (.put 0 2 64), 0, 0, 2, 64, _, _, _, rfl, rfl, rfl, rfl, by decide⟩,
   ⟨laneC Bank.zero .fence, 0, _, _, _, rfl, rfl⟩,
   ⟨laneW { Bank.zero with pc := 512 } (.pair .idle .nop), 0, _, _, _, rfl, rfl⟩⟩

theorem witness_ArithmeticResults :
    (∃ (b : Bank) (ctl : Nat → Nat) (i : AIn), i.imm = none) ∧
    (∃ (x : Word) (y : Word), y.toNat < 32) ∧
    (∃ (x : Word) (y : Word), -(2 ^ 31 : Int) ≤ x.toInt + y.toInt ∧ x.toInt + y.toInt < 2 ^ 31) ∧
    (∃ (x : Word) (y : Word), (2 ^ 31 : Int) ≤ x.toInt + y.toInt) ∧
    (∃ (x : Word) (y : Word), x.toInt - y.toInt < -(2 ^ 31 : Int)) ∧
    (∃ (x : Word), x.toInt ≠ -(2 ^ 31 : Int)) :=
  ⟨⟨Bank.zero, (fun _ => 0), args.toIn, rfl⟩,
   ⟨1, 31, by decide⟩,
   ⟨0x7FFFFFFE, 1, by decide, by decide⟩,
   ⟨0x7FFFFFFF, 1, by decide⟩,
   ⟨0x80000000, 1, by decide⟩,
   ⟨0x80000001, by decide⟩⟩

theorem witness_DivisionGivesQuotientAndRemainder :
    (∃ (n : Nat) (x : Nat) (d : Nat), n ≤ 32 ∧ x < 2 ^ n ∧ 0 < d ∧ d < 2 ^ 32) ∧
    (∃ (n : Nat) (x : Nat), n ≤ 32 ∧ x < 2 ^ n) ∧
    (∃ (rem : Int) (low : Nat) (d : Nat) (dq : Bool), -(2 ^ 34 : Int) ≤ rem ∧ rem < 2 ^ 34 ∧ low < 2 ^ 32 ∧ d < 2 ^ 32) ∧
    (∃ (b : Bank) (ctl : Nat → Nat) (i : AIn), i.dst < 8) :=
  ⟨⟨32, 2 ^ 32 - 1, 2 ^ 32 - 1, by decide, by decide, by decide, by decide⟩,
   ⟨32, 0, by decide, by decide⟩,
   ⟨2 ^ 34 - 1, 0, 0, true, by decide, by decide, by decide, by decide⟩,
   ⟨Bank.zero, (fun _ => 0), { args.toIn with dst := 7 }, by decide⟩⟩

theorem witness_IllegalLoopsAndBranchesOut :
    (∃ (s : State) (l : Nat) (level : Nat) (rotate : Bool) (isReg : Bool) (count : Nat) (body : Nat) (k : BankId) (t : Nat) (x : Thread), issuing s l = some (k, t, x) ∧ nextWord s l = some (.control (.loop level rotate isReg count body)) ∧ ((level = 0 ∧ ((laneOf s l).bank k).lc0 ≠ 0) ∨ (level = 1 ∧ ((laneOf s l).bank k).lc1 ≠ 0) ∨ (level = 1 ∧ ((laneOf s l).bank k).lc0 ≠ 0) ∨ (rotate = true ∧ level = 0 ∧ ((laneOf s l).bank k).lc1 ≠ 0 ∧ ((laneOf s l).bank k).rot1 = true) ∨ (rotate = true ∧ level = 1 ∧ ((laneOf s l).bank k).lc0 ≠ 0 ∧ ((laneOf s l).bank k).rot0 = true))) ∧
    (∃ (b : Bank) (target : Nat), (target < b.ls1 ∨ b.le1 < target) ∧ b.lc1 ≠ 0) ∧
    (∃ (b : Bank) (target : Nat), (target < b.ls0 ∨ b.le0 < target)) ∧
    (∃ (b : Bank) (target : Nat), b.ls0 ≤ target ∧ target ≤ b.le0 ∧ b.ls1 ≤ target ∧ target ≤ b.le1) :=
  ⟨⟨laneC { Bank.zero with lc1 := 1, rot1 := true } (.loop 0 true false 1 1), 0, 0, true, false, 1, 1, _, _, _, rfl, rfl, by decide⟩,
   ⟨{ Bank.zero with lc1 := 1, ls1 := 8, le1 := 8 }, 0, by decide, by decide⟩,
   ⟨{ Bank.zero with ls0 := 8 }, 0, by decide⟩,
   ⟨Bank.zero, 0, by decide, by decide, by decide, by decide⟩⟩

theorem witness_LoopsRunTheirCount :
    (∃ (b : Bank) (len : Nat) (rotate : Bool) (count : Nat) (body : Nat), b.lc0 = 0 ∧ b.lc1 = 0 ∧ 0 < count ∧ count ≤ 65535 ∧ b.pc + 8 * body < len) ∧
    (∃ (b : Bank) (len : Nat) (level : Nat) (rotate : Bool) (body : Nat), b.lc0 = 0 ∧ b.lc1 = 0 ∧ b.pc + 8 * body < len) ∧
    (∃ (b : Bank), b.lc0 = 0 ∧ b.pc = b.le1 ∧ 1 < b.lc1) ∧
    (∃ (b : Bank), b.lc0 = 0 ∧ b.pc = b.le1 ∧ b.lc1 = 1) ∧
    (∃ (b : Bank), b.pc = b.le0 ∧ 1 < b.lc0) ∧
    (∃ (b : Bank), (b.lc0 = 0 ∨ b.pc ≠ b.le0) ∧ (b.lc1 = 0 ∨ b.pc ≠ b.le1)) :=
  ⟨⟨Bank.zero, 16, false, 65535, 1, rfl, rfl, by decide, by decide, by decide⟩,
   ⟨Bank.zero, 16, 1, false, 1, rfl, rfl, by decide⟩,
   ⟨{ Bank.zero with lc1 := 2 }, rfl, rfl, by decide⟩,
   ⟨{ Bank.zero with lc1 := 1 }, rfl, rfl, rfl⟩,
   ⟨{ Bank.zero with lc0 := 2 }, rfl, by decide⟩,
   ⟨Bank.zero, by decide, by decide⟩⟩

theorem witness_LaneWordsTouchOnlyTheirOwn :
    (∃ (s : State) (l : Nat) (m : Nat) (k : BankId) (a : AEffect) (e : LEffect), m ≠ l) ∧
    (∃ (s : State) (l : Nat) (k : BankId) (j : BankId) (a : AEffect) (e : LEffect), j ≠ k) ∧
    (∃ (s : State) (l : Nat) (r : Nat) (k : BankId) (a : AEffect) (e : LEffect), (∀ w ∈ a.d, w.1 ≠ r) ∧ (∀ w ∈ e.d, w.1 ≠ r)) ∧
    (∃ (s : State) (l : Nat) (r : Nat) (k : BankId) (a : AEffect) (e : LEffect), (∀ w ∈ a.a, w.1 ≠ r)) ∧
    (∃ (s : State) (l : Nat) (r : Nat) (k : BankId) (a : AEffect) (e : LEffect), (∀ w ∈ e.p, w.1 ≠ r)) ∧
    (∃ (s : State) (l : Nat) (k : BankId) (a : AEffect) (e : LEffect), a.flags = none ∧ a.ctl = none) ∧
    (∃ (s : State) (l : Nat) (y : Nat) (k : BankId) (a : AEffect) (e : LEffect), (∀ w ∈ e.mem, y < w.1 ∨ w.1 + w.2.length ≤ y)) :=
  ⟨⟨sv, 0, 1, .normal, .none, .none, by decide⟩,
   ⟨sv, 0, .normal, .slot0, .none, .none, by decide⟩,
   ⟨sv, 0, 0, .normal, { AEffect.none with d := [(1, 0)] }, .none, by decide, by decide⟩,
   ⟨sv, 0, 0, .normal, { AEffect.none with a := [(1, 0)] }, .none, by decide⟩,
   ⟨sv, 0, 0, .normal, .none, { LEffect.none with p := [(1, 0)] }, by decide⟩,
   ⟨sv, 0, .normal, .none, .none, rfl, rfl⟩,
   ⟨sv, 0, 0, .normal, .none, { LEffect.none with mem := [(1, [0])] }, by decide⟩⟩

theorem witness_StoresWriteTheirBytesOnly :
    (∃ (s : State) (l : Nat) (k : BankId) (q : LArgs) (p : Nat) (a : AEffect) (e : LEffect), Memory.wf (laneOf s l).mem = true ∧ ((laneOf s l).bank k).nextPtr q.ptr q.upd = some p ∧ lOutcome s l k (.mem LOp.st32 q) = .done e) ∧
    (∃ (s : State) (l : Nat) (k : BankId) (q : LArgs) (a : AEffect) (e : LEffect), lOutcome s l k (.mem LOp.ld32 q) = .done e) ∧
    (∃ (k : BankId) (b : Bank) (m : List Host.Cell) (q : LArgs) (e : LEffect), lSlot k b m (.mem .ld32 q) = .done e) :=
  ⟨⟨lane0 Bank.zero, 0, .normal, zLArgs, _, .none, _, rfl, rfl, rfl⟩,
   ⟨lane0 Bank.zero, 0, .normal, zLArgs, .none, _, rfl⟩,
   ⟨BankId.normal, Bank.zero, [], zLArgs, _, rfl⟩⟩

theorem witness_HatstandEventsComplete :
    (∃ (s : State) (l : Nat) (bank : Nat) (t : Nat) (r : TransferResult) (x : Transfer) (xs : List Transfer), ((laneOf s l).bank (bankOfNumber bank)).transfers = x :: xs ∧ (laneOf s l).threadIn (bankOfNumber bank) = some t ∧ inService s = true ∧ r.error = false ∧ (rangeReply s (enginePort 3 (l / 8)) x.address (64 * x.words)).isNone = true) ∧
    (∃ (s : State) (l : Nat) (bank : Nat) (t : Nat) (r : TransferResult) (x : Transfer) (xs : List Transfer), ((laneOf s l).bank (bankOfNumber bank)).transfers = x :: xs ∧ (laneOf s l).threadIn (bankOfNumber bank) = some t ∧ inService s = true ∧ r.error = false ∧ (rangeReply s (enginePort 3 (l / 8)) x.address (64 * x.words)).isSome = true) ∧
    (∃ (s : State) (l : Nat) (bank : Nat) (t : Nat) (r : TransferResult) (x : Transfer) (xs : List Transfer), ((laneOf s l).bank (bankOfNumber bank)).transfers = x :: xs ∧ (laneOf s l).threadIn (bankOfNumber bank) = some t ∧ inService s = true ∧ r.error = true) ∧
    (∃ (s : State) (t : Nat) (x : Thread) (y : Thread), threadOf s t = some x ∧ inService s = true ∧ x.privileged = true ∧ x.state = .ready ∧ (laneOf s (8 * x.cluster + x.lane)).active = some .normal ∧ readyPrivOf s (8 * x.cluster + x.lane) = some t ∧ threadOf (adopt s t) t = some y) ∧
    (∃ (s : State) (u : State) (t : Nat) (x : Thread), threadOf s t = some x ∧ inService s = true ∧ x.state = .ready ∧ x.affinity = true ∧ reachable s (x.readyAt / Config.fracUnit + 2000) = true ∧ u = advanceTo s (x.readyAt / Config.fracUnit + 2000)) ∧
    (∃ (s : State) (l : Nat) (t : Nat), (laneOf s l).active = some .normal ∧ inService s = true ∧ rd s Reg.MITTEN.MITTEN_CONFIG ≤ (laneOf s l).run ∧ (laneOf s l).threadIn .normal = some t) ∧
    (∃ (s : State) (l : Nat) (t : Nat) (k : BankId), (laneOf s l).active = some k ∧ k ≠ .normal ∧ inService s = true ∧ rd s Reg.MITTEN.MITTEN_CONFIG ≤ (laneOf s l).runPriv ∧ (laneOf s l).threadIn k = some t) :=
  ⟨⟨allOn (lane0 { Bank.zero with transfers := xfer 1 }), 0, 0, _, zTransferResult, _, _, rfl, rfl, rfl, rfl, rfl⟩,
   ⟨lane0 { Bank.zero with transfers := [{ zTransfer with address := 2 ^ 47, words := 1 }] }, 0, 0, _, zTransferResult, _, _, rfl, rfl, rfl, rfl, rfl⟩,
   ⟨lane0 { Bank.zero with transfers := xfer 1 }, 0, 0, _, { zTransferResult with error := true }, _, _, rfl, rfl, rfl, rfl⟩,
   ⟨let s := lane0 Bank.zero; { s with mitten := { s.mitten with threads := [(0, thr), (1, { zThread with state := .ready, privileged := true, generation := 1 })] } }, 1, _, _, rfl, rfl, rfl, rfl, rfl, rfl, rfl⟩,
   ⟨at_ 2000 { sv with mitten := { sv.mitten with threads := [(0, { zThread with state := .ready, affinity := true })] } }, _, 0, _, rfl, rfl, rfl, rfl, reach_now _ _ (by decide), rfl⟩,
   ⟨let s := lane0 Bank.zero; { s with mitten := { s.mitten with lanes := [(0, { Lane.zero with thread := some 0, active := some .normal, run := 100000000 })] } }, 0, _, rfl, rfl, by decide, rfl⟩,
   ⟨let s := lane0 Bank.zero; { s with mitten := { s.mitten with lanes := [(0, { Lane.zero with priv0 := some 0, active := some .slot0, runPriv := 100000000 })] } }, 0, _, .slot0, rfl, by decide, rfl, by decide, rfl⟩⟩

theorem witness_TunnelCommandsComplete :
    (∃ (s : State) (u : State) (a : TunnelArrival) (rest : List TunnelArrival) (x : Tunnel), s.gauntlet.arrivals = a :: rest ∧ inService s = true ∧ { s with gauntlet := { s.gauntlet with arrivals := rest } } = u ∧ u.gauntlet.tunnels.get a.tunnel = some x ∧ headerFits a x = false) ∧
    (∃ (s : State) (u : State) (a : TunnelArrival) (rest : List TunnelArrival) (x : Tunnel), s.gauntlet.arrivals = a :: rest ∧ inService s = true ∧ { s with gauntlet := { s.gauntlet with arrivals := rest } } = u ∧ u.gauntlet.tunnels.get a.tunnel = some x ∧ headerFits a x = true ∧ x.state ≠ .active) ∧
    (∃ (s : State) (u : State) (a : TunnelArrival) (rest : List TunnelArrival) (x : Tunnel), s.gauntlet.arrivals = a :: rest ∧ inService s = true ∧ { s with gauntlet := { s.gauntlet with arrivals := rest } } = u ∧ u.gauntlet.tunnels.get a.tunnel = some x ∧ headerFits a x = true ∧ x.state = .active ∧ epochOk u x (readTunnelHeader a.frame).epoch = false) ∧
    (∃ (s : State) (u : State) (a : TunnelArrival) (rest : List TunnelArrival) (x : Tunnel), s.gauntlet.arrivals = a :: rest ∧ inService s = true ∧ { s with gauntlet := { s.gauntlet with arrivals := rest } } = u ∧ u.gauntlet.tunnels.get a.tunnel = some x ∧ headerFits a x = true ∧ x.state = .active ∧ epochOk u x (readTunnelHeader a.frame).epoch = true ∧ windowCheck x (readTunnelHeader a.frame).sequence = 0) ∧
    (∃ (s : State) (u : State) (a : TunnelArrival) (rest : List TunnelArrival) (x : Tunnel), s.gauntlet.arrivals = a :: rest ∧ inService s = true ∧ { s with gauntlet := { s.gauntlet with arrivals := rest } } = u ∧ u.gauntlet.tunnels.get a.tunnel = some x ∧ headerFits a x = true ∧ x.state = .active ∧ epochOk u x (readTunnelHeader a.frame).epoch = true ∧ windowCheck x (readTunnelHeader a.frame).sequence = 1) ∧
    (∃ (s : State) (u : State) (a : TunnelArrival) (rest : List TunnelArrival) (x : Tunnel), s.gauntlet.arrivals = a :: rest ∧ inService s = true ∧ { s with gauntlet := { s.gauntlet with arrivals := rest } } = u ∧ u.gauntlet.tunnels.get a.tunnel = some x ∧ headerFits a x = true ∧ x.state = .active ∧ epochOk u x (readTunnelHeader a.frame).epoch = true ∧ windowCheck x (readTunnelHeader a.frame).sequence = 2) ∧
    (∃ (s : State) (a : TunnelArrival) (rest : List TunnelArrival), s.gauntlet.arrivals = a :: rest ∧ inService s = true ∧ s.gauntlet.tunnels.get a.tunnel = none) ∧
    (∃ (s : State) (u : State) (t : Nat) (x : Tunnel) (b : BuiltFrame) (bs : List BuiltFrame), s.gauntlet.tunnels.get t = some x ∧ x.built = b :: bs ∧ inService s = true ∧ b.sealed_ = true ∧ reachable s b.slot = true ∧ u = advanceTo s b.slot) ∧
    (∃ (s : State) (t : Nat) (x : Tunnel) (old : Nat), s.gauntlet.tunnels.get t = some x ∧ oldKeyFree s x = some old ∧ x.heldKey = none) ∧
    (∃ (s : State) (t : Nat) (x : Tunnel), s.gauntlet.tunnels.get t = some x ∧ inService s = true ∧ x.up = true ∧ x.lastValidBoundary + 65 ≤ s.time.boundaries) :=
  ⟨⟨arrived { arr0 with frame := [] } keyT, _, { arr0 with frame := [] }, [], _, rfl, rfl, rfl, rfl, rfl⟩,
   ⟨arrived arr0 { keyT with state := .admitted }, _, arr0, [], _, rfl, rfl, rfl, rfl, rfl, by decide⟩,
   ⟨arrived arr0 tun, _, arr0, [], _, rfl, rfl, rfl, rfl, rfl, rfl, rfl⟩,
   ⟨arrived arr0 keyT, _, arr0, [], _, rfl, rfl, rfl, rfl, rfl, rfl, rfl, by decide⟩,
   ⟨arrived arr0 { keyT with rxAny := true, window := [0] }, _, arr0, [], _, rfl, rfl, rfl, rfl, rfl, rfl, rfl, by decide⟩,
   ⟨arrived arr0 { keyT with rxAny := true, rxHigh := 4096 }, _, arr0, [], _, rfl, rfl, rfl, rfl, rfl, rfl, rfl, by decide⟩,
   ⟨{ sv with gauntlet := { sv.gauntlet with arrivals := [arr0] } }, arr0, [], rfl, rfl, rfl⟩,
   ⟨withTun sv { keyT with built := [{ zBuiltFrame with sealed_ := true }] }, _, 0, _, _, _, rfl, rfl, rfl, rfl, reach_now _ _ (by decide), rfl⟩,
   ⟨withTun sv { keyT with sendEpoch := 1, oldEpoch := some (0, 3) }, 0, _, _, rfl, rfl, rfl⟩,
   ⟨withTun (bd 0 sv) { keyT with up := true }, 0, _, rfl, rfl, rfl, by decide⟩⟩

theorem witness_BandCommandsComplete :
    (∃ (s : State) (u : State), inService s = true ∧ onceDue s 1 = true ∧ (s.participants.foldl (fun v e => releaseParticipant v s.time.boundaryAt e.1 e.2) (markOnce s 1)).gauntlet.tunnels.foldl (fun v e => releaseTunnelNow v s.time.boundaryAt e.1 e.2) (s.participants.foldl (fun v e => releaseParticipant v s.time.boundaryAt e.1 e.2) (markOnce s 1)) = u) ∧
    (∃ (s : State) (u : State) (slot : Nat), inService s = true ∧ nowNs s / 1000 + (if s.band.wheelSlot < nowNs s / 1000 then 0 else 1) = slot ∧ reachable s (slot * 1000) = true ∧ u = advanceTo s (slot * 1000)) ∧
    (∃ (s : State) (u : State) (e : Nat) (f : Nat), e < 16 ∧ inService s = true ∧ egressValid s e = true ∧ canTransmit s e = true ∧ rd s (Reg.ETH.PORT_STATUS_LPI_TX.on e) ≠ 1 ∧ max ((s.band.freeAt.get e).getD 0) (((s.eth.get e).map (fun p => p.wakeUntil)).getD 0 * 1000) = f ∧ reachable s (ceilDiv f 1000) = true ∧ u = advanceTo s (ceilDiv f 1000)) ∧
    (∃ (s : State) (u : State) (e : Nat) (g : GateList) (st : GateState), inService s = true ∧ gateOf s e = some g ∧ s.band.gates.get e = some st ∧ (gateEntryAt g.entries (cycleOffset g (nowNs s))).1 = st.entry ∧ reachable s (nowNs s + ((gateEntryAt g.entries (cycleOffset g (nowNs s))).2.2 - cycleOffset g (nowNs s))) = true ∧ u = advanceTo s (nowNs s + ((gateEntryAt g.entries (cycleOffset g (nowNs s))).2.2 - cycleOffset g (nowNs s)))) ∧
    (∃ (s : State) (u : State) (e : Nat) (t : Nat) (st : GateState) (l : GateList), inService s = true ∧ s.band.gates.get e = some st ∧ st.next = some (some l, t) ∧ reachable s t = true ∧ u = advanceTo s t) ∧
    (∃ (s : State) (p : Nat) (a : Nat), ponMayTransmit s p = true ∧ ponState s p = 2) ∧
    (∃ (s : State) (u : State) (p : Nat) (a : Nat) (b : Burst) (g : Grant), ponMayTransmit s p = true ∧ ponState s p = 3 ∧ (ponPort s p).burstEn = true ∧ (ponPort s p).bursts.find? (fun b => b.sent && decide (b.on ≤ nowNs s) && decide (nowNs s < b.off) && b.grants.any (fun g => g.allocId = a && !g.filled)) = some b ∧ b.grants.find? (fun g => g.allocId = a && !g.filled) = some g ∧ settleAllocs (withPon s p (fun x => { x with bursts := x.bursts.map (fun y => if y = b then { y with grants := updateAt y.grants (y.grants.findIdx (fun h => h = g)) (fun h => { h with filled := true }) } else y) })) p (ponOwner s p) = u ∧ ponState u p = 3) :=
  ⟨⟨sv, _, rfl, rfl, rfl⟩,
   ⟨at_ 1000000 { sv with band := { sv.band with wheelSlot := 999 } }, _, 1000, rfl, rfl, reach_now _ _ (by decide), rfl⟩,
   ⟨mac dvI, _, 0, _, by decide, rfl, rfl, rfl, by decide, rfl, reach_now _ _ (by decide), rfl⟩,
   ⟨gated (at_ 0 sv), _, 0, _, _, rfl, rfl, rfl, rfl, reach_soon _ _ (by decide), rfl⟩,
   ⟨gated sv, _, 0, _, _, _, rfl, rfl, rfl, reach_now _ _ (by decide), rfl⟩,
   ⟨pon 2 sv, 0, 7, rfl, rfl⟩,
   ⟨ponA (pon 3 sv) (fun x => { x with burstEn := true, bursts := [{ winB with sent := true, grants := [grant7] }] }), _, 0, 7, _, _, rfl, rfl, rfl, rfl, rfl, rfl, rfl⟩⟩

theorem witness_LinkCommandsComplete :
    (∃ (s : State) (u : State) (m : Nat), inService s = true ∧ macValid s m = true ∧ linkUp s m = false ∧ reachable s (match (ethOf s m).downAt with | some t => t + 10000000 | none => 0) = true ∧ u = advanceTo s (match (ethOf s m).downAt with | some t => t + 10000000 | none => 0)) ∧
    (∃ (s : State) (m : Nat) (receiving : Bool), macValid s m = true ∧ linkUp s m = true) ∧
    (∃ (s : State) (u : State) (m : Nat), inService s = true ∧ macValid s m = true ∧ linkUp s m = true ∧ lpiAllowed s m = true ∧ portEmpty s m = true ∧ rd s (Reg.ETH.PORT_STATUS_LPI_TX.on m) = 0 ∧ reachable s (max (ethOf s m).idleSince (((s.band.freeAt.get m).getD 0) / 1000) + rd s (Reg.ETH.LPI_CONFIG_LPI_IDLE.on m) * 1000) = true ∧ u = advanceTo s (max (ethOf s m).idleSince (((s.band.freeAt.get m).getD 0) / 1000) + rd s (Reg.ETH.LPI_CONFIG_LPI_IDLE.on m) * 1000)) ∧
    (∃ (s : State) (u : State) (m : Nat), macValid s m = true ∧ rd s (Reg.ETH.PORT_STATUS_LPI_TX.on m) = 1 ∧ (portEmpty s m = false ∨ lpiAllowed s m = false) ∧ wr s (Reg.ETH.PORT_STATUS_LPI_TX.on m) 0 = u) ∧
    (∃ (s : State) (m : Nat) (on : Bool), macValid s m = true ∧ linkUp s m = true) :=
  ⟨⟨wr (mac sv) (Reg.ETH.PORT_STATUS_LINK.on 0) 0, _, 0, rfl, rfl, rfl, reach_now _ _ (by decide), rfl⟩,
   ⟨mac sv, 0, true, rfl, rfl⟩,
   ⟨at_ 1000000000 (wrAll (mac sv) [(Reg.ETH.PORT_CONFIG_LPI_ENABLE.on 0, 1), (Reg.ETH.LPI_CONFIG_TX_TW.on 0, 1)]), _, 0, rfl, rfl, rfl, rfl, rfl, rfl, reach_now _ _ (by decide), rfl⟩,
   ⟨wr (mac sv) (Reg.ETH.PORT_STATUS_LPI_TX.on 0) 1, _, 0, rfl, rfl, by decide, rfl⟩,
   ⟨mac sv, 0, true, rfl, rfl⟩⟩

theorem witness_PloamMessagesComplete :
    (∃ (s : State) (p : Nat) (id : Nat) (a : Nat) (index : Nat) (kind : Nat) (m : Ploam) (f : BurstProfile) (serial : List Byte) (relative : Bool) (release : Bool) (disable : Bool) (delay : Int) (whom : Option (List Byte)), ponHears s p m = true ∧ m.micOk = false) ∧
    (∃ (s : State) (u : State) (p : Nat) (m : Ploam) (f : BurstProfile), ponHears s p m = true ∧ m.micOk = true ∧ bump s (Reg.PON.PLOAM_RX.on p) = u ∧ f.rate = rd u (Reg.PON.PON_CONFIG_UP_RATE.on p)) ∧
    (∃ (s : State) (u : State) (p : Nat) (id : Nat) (m : Ploam), ponHears s p m = true ∧ m.micOk = true ∧ bump s (Reg.PON.PLOAM_RX.on p) = u ∧ ponState u p = 2) ∧
    (∃ (s : State) (u : State) (p : Nat) (old : Nat) (m : Ploam) (relative : Bool) (delay : Int), ponHears s p m = true ∧ m.micOk = true ∧ bump s (Reg.PON.PLOAM_RX.on p) = u ∧ ponState u p = 3 ∧ ((ponPort u (ponOwner s p)).nextEqd).getD (rd u (Reg.PON.EQD.on (ponOwner s p))) = old ∧ ponState (withPon u (ponOwner s p) (fun x => { x with nextEqd := some ((if relative then (old : Int) else 0) + delay).toNat, to1 := none })) p = 3) ∧
    (∃ (s : State) (u : State) (p : Nat) (m : Ploam), ponHears s p m = true ∧ m.micOk = true ∧ bump s (Reg.PON.PLOAM_RX.on p) = u) ∧
    (∃ (s : State) (u : State) (p : Nat) (a : Nat) (m : Ploam), ponHears s p m = true ∧ m.micOk = true ∧ bump s (Reg.PON.PLOAM_RX.on p) = u ∧ (ponState u p = 3 ∨ ponState u p = 4)) ∧
    (∃ (s : State) (u : State) (p : Nat) (a : Nat) (m : Ploam), ponHears s p m = true ∧ m.micOk = true ∧ bump s (Reg.PON.PLOAM_RX.on p) = u ∧ (ponState u p = 3 ∨ ponState u p = 4)) ∧
    (∃ (s : State) (u : State) (p : Nat) (index : Nat) (m : Ploam), ponHears s p m = true ∧ m.micOk = true ∧ bump s (Reg.PON.PLOAM_RX.on p) = u ∧ (index = 1 ∨ index = 2)) ∧
    (∃ (s : State) (u : State) (p : Nat) (m : Ploam), ponHears s p m = true ∧ m.micOk = true ∧ bump s (Reg.PON.PLOAM_RX.on p) = u ∧ 2 ≤ ponState u p ∧ ponState u p ≤ 5) ∧
    (∃ (s : State) (u : State) (p : Nat) (m : Ploam) (serial : Option (List Byte)), ponHears s p m = true ∧ m.micOk = true ∧ bump s (Reg.PON.PLOAM_RX.on p) = u ∧ (serial = none ∨ serial = some (ponSerial u p))) ∧
    (∃ (s : State) (u : State) (p : Nat) (kind : Nat) (m : Ploam), ponHears s p m = true ∧ m.micOk = true ∧ bump s (Reg.PON.PLOAM_RX.on p) = u) :=
  ⟨⟨pon 4 sv, 0, 0, 0, 0, 0, { heard with micOk := false }, zBurstProfile, [], false, false, false, 0, none, rfl, rfl⟩,
   ⟨pon 4 sv, _, 0, heard, zBurstProfile, rfl, rfl, rfl, rfl⟩,
   ⟨pon 2 sv, _, 0, 1, heard, rfl, rfl, rfl, rfl⟩,
   ⟨pon 3 sv, _, 0, _, heard, true, 5, rfl, rfl, rfl, rfl, rfl, rfl⟩,
   ⟨pon 4 sv, _, 0, heard, rfl, rfl, rfl⟩,
   ⟨pon 4 sv, _, 0, 1024, heard, rfl, rfl, rfl, by decide⟩,
   ⟨pon 4 sv, _, 0, 1024, heard, rfl, rfl, rfl, by decide⟩,
   ⟨pon 4 sv, _, 0, 1, heard, rfl, rfl, rfl, by decide⟩,
   ⟨pon 5 sv, _, 0, heard, rfl, rfl, rfl, by decide, by decide⟩,
   ⟨pon 4 sv, _, 0, heard, none, rfl, rfl, rfl, by decide⟩,
   ⟨pon 4 sv, _, 0, 0, heard, rfl, rfl, rfl⟩⟩

theorem witness_PonPortCommandsComplete :
    (∃ (s : State) (u : State) (p : Nat) (position : Nat) (errors : Nat) (high : Bool) (cs : List Candidate) (full : Bool), inService s = true ∧ ponEnabled s p = true ∧ ponSync s p = false ∧ takeLos s p high = u ∧ huntStep (ponPort u p).candidates (downBits u p) (rd u (Reg.PON.PON_CONFIG_SYNC_MATCHES.on p)) position (psyncMatches u p high errors) = (cs, false, full)) ∧
    (∃ (s : State) (u : State) (p : Nat) (position : Nat) (errors : Nat) (high : Bool), inService s = true ∧ ponEnabled s p = true ∧ ponSync s p = false ∧ takeLos s p high = u ∧ huntStep (ponPort u p).candidates (downBits u p) (rd u (Reg.PON.PON_CONFIG_SYNC_MATCHES.on p)) position (psyncMatches u p high errors) = ([], true, false) ∧ ponActive (wr (withPon u p (fun x => { x with candidates := [], missRun := 0 })) (Reg.PON.PON_STATUS_SYNC.on p) 1) p = false) ∧
    (∃ (cs : List Candidate) (frame : Nat) (matches_ : Nat) (position : Nat) (c : Candidate), (cs.filter (fun c => decide (position ≤ c.next))).find? (fun c => c.next = position) = some c) ∧
    (∃ (cs : List Candidate) (frame : Nat) (matches_ : Nat) (position : Nat) (c : Candidate), (cs.filter (fun c => decide (position ≤ c.next))).find? (fun c => c.next = position) = some c ∧ matches_ ≤ c.matches_ + 1) ∧
    (∃ (s : State) (p : Nat), p < 2 ∧ ponSync s p = true ∧ 4 ≤ (ponPort s p).missRun) ∧
    (∃ (s : State) (u : State) (p : Nat) (f : DownFrame), inService s = true ∧ ponEnabled s p = true ∧ ponSync s p = true ∧ (ponPort s p).missRun < 4 ∧ withPon (bumpBy (bumpBy (closeBursts (checkPsync (takeLos s p f.rxLos) p (psyncMatches s p f.rxLos f.psyncErrors)) p) (Reg.PON.FEC_CORRECTED.on p) f.fecCorrected) (Reg.PON.FEC_UNCORRECTABLE.on p) f.fecUncorrectable) p (fun x => { x with superframe := f.superframe, stamps := ((f.superframe, f.stamp) :: x.stamps).take 8192 }) = u ∧ ponActive u p = false) ∧
    (∃ (s : State) (u : State) (p : Nat) (f : DownFrame), inService s = true ∧ ponEnabled s p = true ∧ ponSync s p = true ∧ (ponPort s p).missRun < 4 ∧ withPon (bumpBy (bumpBy (closeBursts (checkPsync (takeLos s p f.rxLos) p (psyncMatches s p f.rxLos f.psyncErrors)) p) (Reg.PON.FEC_CORRECTED.on p) f.fecCorrected) (Reg.PON.FEC_UNCORRECTABLE.on p) f.fecUncorrectable) p (fun x => { x with superframe := f.superframe, stamps := ((f.superframe, f.stamp) :: x.stamps).take 8192 }) = u ∧ ponActive u p = true ∧ ponState u p ≠ 5 ∧ f.headerBad = true) ∧
    (∃ (s : State) (u : State) (p : Nat) (f : DownFrame), inService s = true ∧ ponEnabled s p = true ∧ ponSync s p = true ∧ (ponPort s p).missRun < 4 ∧ withPon (bumpBy (bumpBy (closeBursts (checkPsync (takeLos s p f.rxLos) p (psyncMatches s p f.rxLos f.psyncErrors)) p) (Reg.PON.FEC_CORRECTED.on p) f.fecCorrected) (Reg.PON.FEC_UNCORRECTABLE.on p) f.fecUncorrectable) p (fun x => { x with superframe := f.superframe, stamps := ((f.superframe, f.stamp) :: x.stamps).take 8192 }) = u ∧ ponActive u p = true ∧ ponState u p ≠ 5 ∧ f.headerBad = false) ∧
    (∃ (s : State) (u : State) (p : Nat) (t : Nat), p < 2 ∧ (ponPort s (ponOwner s p)).to1 = some t ∧ (ponState s p = 2 ∨ ponState s p = 3) ∧ reachable s t = true ∧ u = advanceTo s t) ∧
    (∃ (s : State) (u : State) (p : Nat) (t : Nat), p < 2 ∧ (ponPort s (ponOwner s p)).to2 = some t ∧ ponState s p = 5 ∧ reachable s t = true ∧ u = advanceTo s t) ∧
    (∃ (s : State) (u : State) (v : State) (p : Nat) (b : Burst), ponMayTransmit s p = true ∧ (ponPort s p).bursts.find? (fun b => !b.sent && decide (nowNs s < b.off)) = some b ∧ reachable s b.on = true ∧ u = advanceTo s b.on ∧ emit (emit (bump (withPon (closeBursts u p) p (fun x => { x with burstEn := true, bursts := replaceFirst x.bursts b { b with sent := true } })) (Reg.PON.BURSTS.on p)) (.pin (burstPin p) 1)) (.burst p [b.on, b.off]) = v ∧ ponState v p = 2) ∧
    (∃ (s : State) (u : State) (v : State) (p : Nat) (b : Burst), ponMayTransmit s p = true ∧ (ponPort s p).bursts.find? (fun b => !b.sent && decide (nowNs s < b.off)) = some b ∧ reachable s b.on = true ∧ u = advanceTo s b.on ∧ emit (emit (bump (withPon (closeBursts u p) p (fun x => { x with burstEn := true, bursts := replaceFirst x.bursts b { b with sent := true } })) (Reg.PON.BURSTS.on p)) (.pin (burstPin p) 1)) (.burst p [b.on, b.off]) = v ∧ ponState v p ≠ 2) ∧
    (∃ (s : State) (p : Nat) (rise : Nat) (instant : Nat), p < 2 ∧ (ponPort s p).bursts.any (fun b => decide (b.on ≤ rise) && decide (rise < b.off) && decide (instant < b.off + 64)) = false) ∧
    (∃ (s : State) (p : Nat) (m : OmciMessage), inService s = true ∧ ponEnabled s p = true ∧ ponSync s p = true ∧ ponActive s p = true ∧ (ponState s p = 3 ∨ ponState s p = 4) ∧ m.micOk = false) ∧
    (∃ (s : State) (p : Nat) (m : OmciMessage), inService s = true ∧ ponEnabled s p = true ∧ ponSync s p = true ∧ ponActive s p = true ∧ (ponState s p = 3 ∨ ponState s p = 4) ∧ m.micOk = true ∧ m.kind = .other) ∧
    (∃ (s : State) (p : Nat) (m : OmciMessage), inService s = true ∧ ponEnabled s p = true ∧ ponSync s p = true ∧ ponActive s p = true ∧ (ponState s p = 3 ∨ ponState s p = 4) ∧ m.micOk = true ∧ m.kind = .mutualAuth ∧ rd s (Reg.PON.PON_CONFIG_ENHANCED_SECURITY.on p) = 1) ∧
    (∃ (s : State) (p : Nat) (m : OmciMessage), inService s = true ∧ ponEnabled s p = true ∧ ponSync s p = true ∧ ponActive s p = true ∧ (ponState s p = 3 ∨ ponState s p = 4) ∧ m.micOk = true ∧ m.kind = .mutualAuth ∧ rd s (Reg.PON.PON_CONFIG_ENHANCED_SECURITY.on p) ≠ 1) ∧
    (∃ (s : State) (p : Nat) (b : TodBinding), inService s = true ∧ p < 2 ∧ (ponPort s (ponOwner s p)).tod.find? (fun b => (psyncStamp s (livePort s (ponOwner s p)) b.superframe).isSome) = some b) ∧
    (∃ (s : State) (u : State) (standby : Nat) (due : Nat) (last : Nat), inService s = true ∧ ponPaired s = true ∧ swapDue s = some due ∧ standby = (if s.pon.activeB then 0 else 1) ∧ (((ponPort s standby).stamps.head?).map (·.2)).getD due = last ∧ ponSync s standby = true ∧ reachable s (if due ≤ last then last else last + ceilDiv (due - last) Config.tickNs * Config.tickNs) = true ∧ u = advanceTo s (if due ≤ last then last else last + ceilDiv (due - last) Config.tickNs * Config.tickNs)) :=
  ⟨⟨wr (pon 1 sv) (Reg.PON.PON_STATUS_SYNC.on 0) 0, _, 0, 0, 0, false, _, _, rfl, rfl, rfl, rfl, rfl⟩,
   ⟨let s := wrAll (pon 1 sv) [(Reg.PON.PON_STATUS_SYNC.on 0, 0), (Reg.PON.PON_CONFIG_PROTECTED.on 0, 1)]; { s with pon := { s.pon with activeB := true, portA := { s.pon.portA with candidates := [{ next := 0, matches_ := 3 }] } } }, _, 0, 0, 0, false, rfl, rfl, rfl, rfl, rfl, rfl⟩,
   ⟨[{ next := 0, matches_ := 0 }], 10, 2, 0, _, rfl⟩,
   ⟨[{ next := 0, matches_ := 1 }], 10, 2, 0, _, rfl, by decide⟩,
   ⟨ponA (pon 4 sv) (fun x => { x with missRun := 4 }), 0, by decide, rfl, by decide⟩,
   ⟨let s := wr (pon 4 sv) (Reg.PON.PON_CONFIG_PROTECTED.on 0) 1; { s with pon := { s.pon with activeB := true } }, _, 0, zDownFrame, rfl, rfl, rfl, by decide, rfl, rfl⟩,
   ⟨pon 4 sv, _, 0, { zDownFrame with headerBad := true }, rfl, rfl, rfl, by decide, rfl, rfl, by decide, rfl⟩,
   ⟨pon 4 sv, _, 0, zDownFrame, rfl, rfl, rfl, by decide, rfl, rfl, by decide, rfl⟩,
   ⟨ponA (pon 3 sv) (fun x => { x with to1 := some 0 }), _, 0, _, by decide, rfl, by decide, reach_now _ _ (by decide), rfl⟩,
   ⟨ponA (pon 5 sv) (fun x => { x with to2 := some 0 }), _, 0, _, by decide, rfl, rfl, reach_now _ _ (by decide), rfl⟩,
   ⟨ponA (pon 2 sv) (fun x => { x with bursts := [winB] }), _, _, 0, _, rfl, rfl, reach_now _ _ (by decide), rfl, rfl, rfl⟩,
   ⟨ponA (pon 3 sv) (fun x => { x with bursts := [winB] }), _, _, 0, _, rfl, rfl, reach_now _ _ (by decide), rfl, rfl, by decide⟩,
   ⟨pon 3 sv, 0, 5, 10, by decide, rfl⟩,
   ⟨pon 4 sv, 0, zOmciMessage, rfl, rfl, rfl, rfl, by decide, rfl⟩,
   ⟨pon 4 sv, 0, { zOmciMessage with micOk := true }, rfl, rfl, rfl, rfl, by decide, rfl, rfl⟩,
   ⟨wr (pon 4 sv) (Reg.PON.PON_CONFIG_ENHANCED_SECURITY.on 0) 1, 0, { zOmciMessage with micOk := true, kind := .mutualAuth }, rfl, rfl, rfl, rfl, by decide, rfl, rfl, rfl⟩,
   ⟨pon 4 sv, 0, { zOmciMessage with micOk := true, kind := .mutualAuth }, rfl, rfl, rfl, rfl, by decide, rfl, rfl, by decide⟩,
   ⟨ponA (pon 4 sv) (fun x => { x with tod := [zTodBinding], stamps := [(0, 5)] }), 0, _, rfl, by decide, rfl⟩,
   ⟨let s := wrAll (pon 4 sv) [(Reg.PON.PON_CONFIG_PROTECTED.on 0, 1), (Reg.PON.PON_STATUS_SYNC.on 1, 1)]; { s with pon := { s.pon with switchRequested := true } }, _, _, _, _, rfl, rfl, rfl, rfl, rfl, rfl, reach_now _ _ (by decide), rfl⟩⟩

theorem witness_NearMemoryCommandsComplete :
    (∃ (s : State) (stack : Nat) (channel : Nat) (r : MemRequest) (ecc : Ecc), stack < 8 ∧ channel < 16 ∧ requestFits stack channel r = true ∧ portFused s r.port = false ∧ r.address < 8 * stackBytes ∧ rightsOk s r.port r.address = false) ∧
    (∃ (s : State) (stack : Nat) (channel : Nat) (r : MemRequest) (ecc : Ecc), stack < 8 ∧ channel < 16 ∧ requestFits stack channel r = true ∧ portFused s r.port = false ∧ r.address < 8 * stackBytes ∧ rightsOk s r.port r.address = true ∧ (stackOn s (nearStack r.address) = false ∨ pathOpen s r.port (controllerPort (nearStack r.address) (nearChannel r.address)) = false)) ∧
    (∃ (s : State) (stack : Nat) (channel : Nat) (r : MemRequest) (ecc : Ecc), stack < 8 ∧ channel < 16 ∧ requestFits stack channel r = true ∧ portFused s r.port = false ∧ r.address < 8 * stackBytes ∧ rightsOk s r.port r.address = true ∧ stackOn s (nearStack r.address) = true ∧ pathOpen s r.port (controllerPort (nearStack r.address) (nearChannel r.address)) = true) ∧
    (∃ (s : State) (stack : Nat) (channel : Nat) (r : MemRequest) (ecc : Ecc), stack < 8 ∧ channel < 16 ∧ requestFits stack channel r = true ∧ portFused s r.port = false ∧ crownReply s r.port r.address = .unmapped) ∧
    (∃ (s : State) (stack : Nat) (channel : Nat) (ecc : Ecc), stack < 8 ∧ channel < 16 ∧ stackOn s stack = true) ∧
    (∃ (s : State) (stack : Nat) (channel : Nat) (ecc : Ecc) (w : _) (q : _), nextCommand s stack channel = .serve w q) ∧
    (∃ (s : State) (stack : Nat) (channel : Nat) (ecc : Ecc) (b : _) (forced : _), nextCommand s stack channel = .refresh b forced) ∧
    (∃ (s : State) (stack : Nat) (channel : Nat) (ecc : Ecc), nextCommand s stack channel = .nothing) ∧
    (∃ (s : State) (u : State) (stack : Nat) (channel : Nat) (bank : Nat) (t : Nat), stack < 8 ∧ channel < 16 ∧ bank < 32 ∧ stackOn s stack = true ∧ nextDue s stack channel bank = t ∧ reachable s t = true ∧ u = advanceTo s t) ∧
    (∃ (s : State) (u : State) (stack : Nat) (t : Nat) (celsius : Int), stack < 8 ∧ stackOn s stack = true ∧ s.near.lastReading.get stack = some t ∧ celsius ≤ 82 ∧ reachable s (t + 32000) = true ∧ u = advanceTo s (t + 32000)) ∧
    (∃ (s : State) (u : State) (v : State) (w : State) (stack : Nat) (celsius : Int), stack < 8 ∧ stackOn s stack = true ∧ 85 < celsius ∧ celsius ≤ 95 ∧ reachable s (match s.near.lastReading.get stack with | some t => t + 32000 | none => 0) = true ∧ u = advanceTo s (match s.near.lastReading.get stack with | some t => t + 32000 | none => 0) ∧ rd u (Reg.NEARMEM.MEM_STATUS_HOT.on stack) ≠ 1 ∧ wr (wr { u with near := { u.near with lastReading := u.near.lastReading.put stack (nowNs u) } } (Reg.NEARMEM.MEM_STATUS_TEMPERATURE.on stack) (ofSigned 8 celsius)) (Reg.NEARMEM.MEM_STATUS_HOT.on stack) 1 = v ∧ debtAbove4 v stack = true ∧ inCatchup v stack = false ∧ wr v (Reg.NEARMEM.MEM_STATUS_CATCHUP.on stack) 1 = w) ∧
    (∃ (s : State) (u : State) (stack : Nat), stack < 8 ∧ inCatchup s stack = true ∧ debtAbove4 s stack = false ∧ wr s (Reg.NEARMEM.MEM_STATUS_CATCHUP.on stack) 0 = u) ∧
    (∃ (s : State) (stack : Nat) (channel : Nat) (bank : Nat) (row : Nat) (n : Nat) (bad : List Nat) (b : MemBank), stack < 8 ∧ channel < 16 ∧ bank < 32 ∧ remapDue s stack channel bank = some (row, n) ∧ bankOf s stack channel bank = b ∧ b.spares.length < 4) ∧
    (∃ (s : State) (stack : Nat) (channel : Nat) (bank : Nat) (row : Nat) (n : Nat) (bad : List Nat) (b : MemBank), stack < 8 ∧ channel < 16 ∧ bank < 32 ∧ remapDue s stack channel bank = some (row, n) ∧ bankOf s stack channel bank = b ∧ 4 ≤ b.spares.length ∧ b.answered = false ∧ b.noSpare = false) ∧
    (∃ (s : State) (stack : Nat) (channel : Nat) (bank : Nat) (row : Nat) (n : Nat) (bad : List Nat) (b : MemBank), stack < 8 ∧ channel < 16 ∧ bank < 32 ∧ remapDue s stack channel bank = some (row, n) ∧ bankOf s stack channel bank = b ∧ 4 ≤ b.spares.length ∧ b.answered = false ∧ b.noSpare = true) ∧
    (∃ (s : State) (u : State) (stack : Nat) (channel : Nat) (at_ : Nat) (bank : Nat) (ecc : Ecc), stack < 8 ∧ channel < 16 ∧ stackOn s stack = true ∧ scrubDue s stack channel = true ∧ (channelOf s stack channel).scrubAt = at_ ∧ 4 * (bitsOf at_ 12 10 ^^^ bitsOf at_ 20 18) + bitsOf at_ 14 13 = bank ∧ withChannel s stack channel { channelOf s stack channel with scrubAt := (at_ + 64) % (49152 * 32768), scrubFrom := if at_ = 0 then some (nowNs s) else (channelOf s stack channel).scrubFrom } = u ∧ eccOf u ((rowAddress stack channel bank (at_ / 32768) + at_ % 1024 / 256 * 4096 + at_ % 256) / 64) ecc = .clean) ∧
    (∃ (s : State) (u : State) (stack : Nat) (channel : Nat) (at_ : Nat) (bank : Nat) (ecc : Ecc), stack < 8 ∧ channel < 16 ∧ stackOn s stack = true ∧ scrubDue s stack channel = true ∧ (channelOf s stack channel).scrubAt = at_ ∧ 4 * (bitsOf at_ 12 10 ^^^ bitsOf at_ 20 18) + bitsOf at_ 14 13 = bank ∧ withChannel s stack channel { channelOf s stack channel with scrubAt := (at_ + 64) % (49152 * 32768), scrubFrom := if at_ = 0 then some (nowNs s) else (channelOf s stack channel).scrubFrom } = u ∧ eccOf u ((rowAddress stack channel bank (at_ / 32768) + at_ % 1024 / 256 * 4096 + at_ % 256) / 64) ecc = .corrected) ∧
    (∃ (s : State) (u : State) (stack : Nat) (channel : Nat) (trains : Bool), inService s = true ∧ stack < 8 ∧ channel < 16 ∧ stackOn s stack = true ∧ s.time.tickCount % 8000 = 62 * (16 * stack + channel) ∧ onceDue s (0x600000 + (16 * stack + channel)) = true ∧ holdStep (markOnce s (0x600000 + (16 * stack + channel))) stack channel 20000 = u) ∧
    (∃ (s : State) (u : State) (stack : Nat) (channel : Nat), inService s = true ∧ stack < 8 ∧ channel < 16 ∧ stackOn s stack = true ∧ s.time.tickCount % 8000 = 62 * (16 * stack + channel) ∧ onceDue s (0x600000 + (16 * stack + channel)) = true ∧ holdStep (markOnce s (0x600000 + (16 * stack + channel))) stack channel 1500000 = u) ∧
    (∃ (s : State) (stack : Nat) (channel : Nat), stack < 8 ∧ channel < 16 ∧ inService s = true ∧ 3 ≤ ((channelOf s stack channel).exhausted.filter (fun t => nowNs s < t + 1000000000)).length ∧ bitOf (rd s (Reg.NEARMEM.MEM_STATUS_CHANNELS_FAULTED.on stack)) channel = 0) ∧
    (∃ (s : State) (u : State) (stack : Nat) (point : Nat) (t : Nat), stack < 8 ∧ point < 3 ∧ leastBy (fun (t : Nat) => (t : Int)) ((List.range 16).filterMap (fun ch => (channelOf s stack ch).trained.getD point none)) = some t ∧ reachable s (t + 3600000000000) = true ∧ u = advanceTo s (t + 3600000000000)) ∧
    (∃ (s : State) (u : State) (failed : List Nat) (d : Deferred) (point : Nat) (old : Nat), s.near.change = some (d, point, old) ∧ s.near.retraining = true ∧ { s with near := { s.near with change := none, retraining := false } } = u ∧ failed ≠ []) ∧
    (∃ (s : State) (u : State) (failed : List Nat) (d : Deferred) (point : Nat) (old : Nat), s.near.change = some (d, point, old) ∧ s.near.retraining = true ∧ { s with near := { s.near with change := none, retraining := false } } = u ∧ failed = []) :=
  ⟨⟨nearW, 0, 0, { readAt 0 with port := 9 }, .clean, by decide, by decide, rfl, rfl, by decide, rfl⟩,
   ⟨sv, 0, 0, readAt 0, .clean, by decide, by decide, rfl, rfl, by decide, rfl, .inl rfl⟩,
   ⟨nearW, 0, 0, readAt 0, .clean, by decide, by decide, rfl, rfl, by decide, rfl, rfl, by decide⟩,
   ⟨nearW, 0, 0, readAt (8 * stackBytes), .clean, by decide, by decide, rfl, rfl, rfl⟩,
   ⟨nearW, 0, 0, .clean, by decide, by decide, rfl⟩,
   ⟨chan0 nearW { MemChannel.idle with reads := [zQueuedRequest] }, 0, 0, .clean, _, _, rfl⟩,
   ⟨bank0 nearW 0 { MemBank.idle with debt := 8 }, 0, 0, .clean, _, _, rfl⟩,
   ⟨nearW, 0, 0, .clean, rfl⟩,
   ⟨bank0 (at_ 3900 nearW) 0 { MemBank.idle with lastDue := some 0 }, _, 0, 0, 0, _, by decide, by decide, by decide, rfl, rfl, reach_now _ _ (by decide), rfl⟩,
   ⟨let s := at_ 32000 nearW; { s with near := { s.near with lastReading := [(0, 0)] } }, _, 0, _, 82, by decide, rfl, rfl, by decide, reach_now _ _ (by decide), rfl⟩,
   ⟨bank0 nearW 0 { MemBank.idle with debt := 5 }, _, _, _, 0, 86, by decide, rfl, by decide, by decide, reach_now _ _ (by decide), rfl, by decide, rfl, rfl, rfl, rfl⟩,
   ⟨wr nearW (Reg.NEARMEM.MEM_STATUS_CATCHUP.on 0) 1, _, 0, by decide, rfl, rfl, rfl⟩,
   ⟨bank0 nearW 0 sevens, 0, 0, 0, _, _, [], _, by decide, by decide, by decide, rfl, rfl, by decide⟩,
   ⟨bank0 nearW 0 { sevens with spares := List.replicate 4 zSpareRow }, 0, 0, 0, _, _, [], _, by decide, by decide, by decide, rfl, rfl, by decide, rfl, rfl⟩,
   ⟨bank0 nearW 0 { sevens with spares := List.replicate 4 zSpareRow, noSpare := true }, 0, 0, 0, _, _, [], _, by decide, by decide, by decide, rfl, rfl, by decide, rfl, rfl⟩,
   ⟨nearW, _, 0, 0, _, _, .clean, by decide, by decide, rfl, rfl, rfl, rfl, rfl, rfl⟩,
   ⟨nearW, _, 0, 0, _, _, .corrected, by decide, by decide, rfl, rfl, rfl, rfl, rfl, rfl⟩,
   ⟨let s := nearW; { s with time := { s.time with tickCount := 62 } }, _, 0, 1, true, rfl, by decide, by decide, rfl, rfl, rfl, rfl⟩,
   ⟨nearW, _, 0, 0, rfl, by decide, by decide, rfl, rfl, rfl, rfl⟩,
   ⟨chan0 sv { MemChannel.idle with exhausted := [0, 0, 0] }, 0, 0, by decide, by decide, rfl, by decide, rfl⟩,
   ⟨chan0 (at_ 3600000000000 nearW) { MemChannel.idle with trained := [some 0, none, none] }, _, 0, 0, _, by decide, by decide, rfl, reach_now _ _ (by decide), rfl⟩,
   ⟨change0 sv, _, [0], _, _, _, rfl, rfl, rfl, by decide⟩,
   ⟨change0 sv, _, [], _, _, _, rfl, rfl, rfl, rfl⟩⟩

theorem witness_LiningAndGloveboxCommandsComplete :
    (∃ (s : State) (u : State) (group : Nat) (qs : List LiningRequest) (l : List LiningRequest), group < 80 ∧ (∀ q ∈ qs, liningFits group q.request = true ∧ portFused s q.request.port = false) ∧ liningPass s qs = (u, l) ∧ groupState s (servedBy s group) = gFenced) ∧
    (∃ (s : State) (u : State) (group : Nat) (qs : List LiningRequest) (l : List LiningRequest), group < 80 ∧ (∀ q ∈ qs, liningFits group q.request = true ∧ portFused s q.request.port = false) ∧ liningPass s qs = (u, l) ∧ groupState s (servedBy s group) ≠ gFenced ∧ u.lining.waiting = []) ∧
    (∃ (s : State) (q : LiningRequest), isHostPort q.request.port = true ∧ liningBase ≤ q.request.address ∧ q.request.address < liningBase + 80 * groupBytes) ∧
    (∃ (s : State) (q : LiningRequest), crownReply s q.request.port q.request.address = .pass) ∧
    (∃ (s : State) (q : LiningRequest), crownReply s q.request.port q.request.address = .portOff) ∧
    (∃ (s : State) (group : Nat) (bank : Nat) (row : Nat) (bad : List Nat) (x : LiningBank), group < 80 ∧ bank < 64 ∧ spareDue s group bank = some row ∧ liningBankOf s group bank = x ∧ x.spares.length < 4) ∧
    (∃ (s : State) (group : Nat) (bank : Nat) (row : Nat) (bad : List Nat) (x : LiningBank), group < 80 ∧ bank < 64 ∧ spareDue s group bank = some row ∧ liningBankOf s group bank = x ∧ 4 ≤ x.spares.length ∧ x.noSpare = false) ∧
    (∃ (s : State) (r : MemRequest), (r.kind = .read ∨ ∃ bs, r.kind = .write bs ∧ 0 < bs.length ∧ bs.length ≤ 64 - r.address % 64) ∧ portFused s r.port = false ∧ gloveBase ≤ r.address ∧ r.address < gloveLimit ∧ (isHostPort r.port = true ∨ isMittenPort r.port = true)) ∧
    (∃ (s : State) (r : MemRequest), (r.kind = .read ∨ ∃ bs, r.kind = .write bs ∧ 0 < bs.length ∧ bs.length ≤ 64 - r.address % 64) ∧ portFused s r.port = false ∧ gloveBase ≤ r.address ∧ r.address < gloveLimit ∧ isHostPort r.port = false ∧ isMittenPort r.port = false ∧ inWindow s r.address = false) ∧
    (∃ (s : State) (r : MemRequest), (r.kind = .read ∨ ∃ bs, r.kind = .write bs ∧ 0 < bs.length ∧ bs.length ≤ 64 - r.address % 64) ∧ portFused s r.port = false ∧ gloveBase ≤ r.address ∧ r.address < gloveLimit ∧ isHostPort r.port = false ∧ isMittenPort r.port = false ∧ inWindow s r.address = true) ∧
    (∃ (s : State) (u : State) (page : Nat) (port : Nat) (f : PageFetch) (c : List Byte) (tag : List Byte), s.glove.fetches.find? (fun f => f.page = page) = some f ∧ { s with glove := { s.glove with fetches := s.glove.fetches.erase f } } = u ∧ ((f.requests.head?).map (·.port)).getD 0xFFFF = port) ∧
    (∃ (s : State) (u : State) (page : Nat) (port : Nat) (f : PageFetch) (c : List Byte) (tag : List Byte), s.glove.fetches.find? (fun f => f.page = page) = some f ∧ { s with glove := { s.glove with fetches := s.glove.fetches.erase f } } = u ∧ ((f.requests.head?).map (·.port)).getD 0xFFFF = port ∧ f.retries < rd s Reg.GLOVEBOX.DMA_CONFIG) ∧
    (∃ (s : State) (u : State) (page : Nat) (port : Nat) (f : PageFetch) (c : List Byte) (tag : List Byte), s.glove.fetches.find? (fun f => f.page = page) = some f ∧ { s with glove := { s.glove with fetches := s.glove.fetches.erase f } } = u ∧ ((f.requests.head?).map (·.port)).getD 0xFFFF = port ∧ rd s Reg.GLOVEBOX.DMA_CONFIG ≤ f.retries) :=
  ⟨⟨wr sv (Reg.LINING.GROUP_STATE.at 0) 3, _, 0, [lreq 1], _, by decide, by decide, rfl, rfl⟩,
   ⟨wr sv (Reg.LINING.GROUP_STATE.at 0) 1, _, 0, [lreq 1], _, by decide, by decide, rfl, by decide, rfl⟩,
   ⟨sv, lreq 9, rfl, by decide, by decide⟩,
   ⟨wr sv (Reg.LINING.GROUP_STATE.at 0) 1, lreq 1, rfl⟩,
   ⟨{ sv with faults := { sv.faults with linksFaulted := [(0,0)] } }, lreq 1, rfl⟩,
   ⟨{ sv with lining := { sv.lining with banks := [(0, { zLiningBank with uncorrectable := [(5, 0), (5, 0)] })] } }, 0, 0, _, [], _, by decide, by decide, rfl, rfl, by decide⟩,
   ⟨{ sv with lining := { sv.lining with banks := [(0, { zLiningBank with uncorrectable := [(5, 0), (5, 0)], spares := List.replicate 4 0 })] } }, 0, 0, _, [], _, by decide, by decide, rfl, rfl, by decide, rfl⟩,
   ⟨sv, { readAt gloveBase with port := 9 }, .inl rfl, rfl, by decide, by decide, .inl rfl⟩,
   ⟨sv, readAt gloveBase, .inl rfl, rfl, by decide, by decide, rfl, rfl, rfl⟩,
   ⟨wr sv Reg.GLOVEBOX.GLOVEBOX_CONFIG 16, readAt gloveBase, .inl rfl, rfl, by decide, by decide, rfl, rfl, rfl⟩,
   ⟨fetching 0 sv, _, 0, _, _, [], [], rfl, rfl, rfl⟩,
   ⟨wr (fetching 0 sv) Reg.GLOVEBOX.DMA_CONFIG 2, _, 0, _, _, [], [], rfl, rfl, rfl, by decide⟩,
   ⟨wr (fetching 2 sv) Reg.GLOVEBOX.DMA_CONFIG 2, _, 0, _, _, [], [], rfl, rfl, rfl, by decide⟩⟩

theorem witness_DmaCommandsComplete :
    (∃ (s : State) (ch : Nat), hostReaches s = true ∧ ch < 64 ∧ dmaRunning s ch = true) ∧
    (∃ (s : State) (ch : Nat), hostReaches s = true ∧ ch < 64 ∧ dmaRunning s ch = false) ∧
    (∃ (s : State) (ch : Nat) (c : DmaChannel), hostReaches s = true ∧ ch < 64 ∧ s.dma.channels.get ch = some c ∧ c.waiting = true) ∧
    (∃ (s : State) (ch : Nat) (c : DmaChannel), hostReaches s = true ∧ ch < 64 ∧ s.dma.channels.get ch = some c ∧ c.waiting = false) ∧
    (∃ (s : State) (ch : Nat) (address : Nat), hostReaches s = true ∧ ch < 64 ∧ address < 2 ^ 64 ∧ dmaRunning s ch = true) ∧
    (∃ (s : State) (ch : Nat) (address : Nat), hostReaches s = true ∧ ch < 64 ∧ address < 2 ^ 64 ∧ dmaRunning s ch = false ∧ address % 32 = 0) ∧
    (∃ (s : State) (ch : Nat) (address : Nat), hostReaches s = true ∧ ch < 64 ∧ address < 2 ^ 64 ∧ dmaRunning s ch = false ∧ address % 32 ≠ 0) ∧
    (∃ (s : State) (ch : Nat) (c : DmaChannel) (b : List Byte) (d : Descriptor), s.dma.channels.get ch = some c ∧ c.waiting = false ∧ c.desc = none ∧ c.abort = false ∧ readDescriptor b = d ∧ malformed d = true) ∧
    (∃ (s : State) (ch : Nat) (c : DmaChannel) (b : List Byte) (d : Descriptor), s.dma.channels.get ch = some c ∧ c.waiting = false ∧ c.desc = none ∧ c.abort = false ∧ readDescriptor b = d ∧ malformed d = false ∧ transferAllowed s d = false) ∧
    (∃ (s : State) (ch : Nat) (c : DmaChannel) (b : List Byte) (d : Descriptor), s.dma.channels.get ch = some c ∧ c.waiting = false ∧ c.desc = none ∧ c.abort = false ∧ readDescriptor b = d ∧ malformed d = false ∧ transferAllowed s d = true) ∧
    (∃ (s : State) (ch : Nat) (c : DmaChannel) (b : List Byte) (d : Descriptor), s.dma.channels.get ch = some c ∧ c.waiting = false ∧ c.desc = none ∧ c.abort = false ∧ readDescriptor b = d ∧ c.retries < rd s Reg.GLOVEBOX.DMA_CONFIG) ∧
    (∃ (s : State) (ch : Nat) (c : DmaChannel) (b : List Byte) (d : Descriptor), s.dma.channels.get ch = some c ∧ c.waiting = false ∧ c.desc = none ∧ c.abort = false ∧ readDescriptor b = d ∧ rd s Reg.GLOVEBOX.DMA_CONFIG ≤ c.retries) ∧
    (∃ (s : State) (ch : Nat) (addr : Nat) (n : Nat) (c : DmaChannel) (d : Descriptor) (data : List Byte), s.dma.channels.get ch = some c ∧ c.desc = some d ∧ c.access = some (.read addr n) ∧ c.waiting = false ∧ c.abort = false ∧ (dmaRefused s ch d (.read addr n)).isSome = false ∧ dmaPoisoned s d (.read addr n) = false ∧ c.down = false) ∧
    (∃ (s : State) (ch : Nat) (addr : Nat) (n : Nat) (c : DmaChannel) (d : Descriptor) (data : List Byte), s.dma.channels.get ch = some c ∧ c.desc = some d ∧ c.access = some (.read addr n) ∧ c.waiting = false ∧ c.abort = false ∧ (dmaRefused s ch d (.read addr n)).isSome = false ∧ dmaPoisoned s d (.read addr n) = false ∧ c.down = true) ∧
    (∃ (s : State) (ch : Nat) (addr : Nat) (n : Nat) (c : DmaChannel) (d : Descriptor) (data : List Byte), s.dma.channels.get ch = some c ∧ c.desc = some d ∧ c.access = some (.read addr n) ∧ c.waiting = false ∧ c.abort = false ∧ c.retries < rd s Reg.GLOVEBOX.DMA_CONFIG ∧ (dmaRefused s ch d (.read addr n)).isSome = false) ∧
    (∃ (s : State) (ch : Nat) (addr : Nat) (n : Nat) (c : DmaChannel) (d : Descriptor) (data : List Byte), s.dma.channels.get ch = some c ∧ c.desc = some d ∧ c.access = some (.read addr n) ∧ c.waiting = false ∧ c.abort = false ∧ rd s Reg.GLOVEBOX.DMA_CONFIG ≤ c.retries ∧ (dmaRefused s ch d (.read addr n)).isSome = false) ∧
    (∃ (s : State) (ch : Nat) (addr : Nat) (n : Nat) (c : DmaChannel) (d : Descriptor) (data : List Byte), s.dma.channels.get ch = some c ∧ c.desc = some d ∧ c.access = some (.write addr n) ∧ c.waiting = false ∧ c.abort = false ∧ c.down = false ∧ (dmaRefused s ch d (.write addr n)).isSome = false ∧ dmaPoisoned s d (.write addr n) = false ∧ c.written + n = d.count) ∧
    (∃ (s : State) (ch : Nat) (addr : Nat) (n : Nat) (c : DmaChannel) (d : Descriptor) (data : List Byte), s.dma.channels.get ch = some c ∧ c.desc = some d ∧ c.access = some (.write addr n) ∧ c.waiting = false ∧ c.abort = false ∧ c.down = false ∧ (dmaRefused s ch d (.write addr n)).isSome = false ∧ dmaPoisoned s d (.write addr n) = false ∧ c.written + n ≠ d.count) :=
  ⟨⟨wr (lk sv) (Reg.GLOVEBOX.CHANNEL_STATUS_RUNNING.at 63) 1, 63, rfl, by decide, rfl⟩,
   ⟨lk sv, 63, rfl, by decide, rfl⟩,
   ⟨dmaCh (lk sv) { zDmaChannel with waiting := true }, 0, _, rfl, by decide, rfl, rfl⟩,
   ⟨dmaCh (lk sv) zDmaChannel, 0, _, rfl, by decide, rfl, rfl⟩,
   ⟨wr (lk sv) (Reg.GLOVEBOX.CHANNEL_STATUS_RUNNING.at 0) 1, 0, 32, rfl, by decide, by decide, rfl⟩,
   ⟨lk sv, 0, 32, rfl, by decide, by decide, rfl, rfl⟩,
   ⟨lk sv, 0, 33, rfl, by decide, by decide, rfl, by decide⟩,
   ⟨dmaCh sv zDmaChannel, 0, _, [], _, rfl, rfl, rfl, rfl, rfl, rfl⟩,
   ⟨dmaCh sv zDmaChannel, 0, _, desc0Bytes 3 0 0 64, _, rfl, rfl, rfl, rfl, rfl, rfl, rfl⟩,
   ⟨dmaCh sv zDmaChannel, 0, _, desc0Bytes 3 exchangeBase exchangeBase 64, _, rfl, rfl, rfl, rfl, rfl, rfl, rfl⟩,
   ⟨dmaCh (wr sv Reg.GLOVEBOX.DMA_CONFIG 2) zDmaChannel, 0, _, [], _, rfl, rfl, rfl, rfl, rfl, by decide⟩,
   ⟨dmaCh (wr sv Reg.GLOVEBOX.DMA_CONFIG 2) { zDmaChannel with retries := 2 }, 0, _, [], _, rfl, rfl, rfl, rfl, rfl, by decide⟩,
   ⟨dmaCh sv readC, 0, _, _, _, _, [], rfl, rfl, rfl, rfl, rfl, rfl, rfl, rfl⟩,
   ⟨dmaCh sv { readC with down := true }, 0, _, _, _, _, [], rfl, rfl, rfl, rfl, rfl, rfl, rfl, rfl⟩,
   ⟨dmaCh (wr sv Reg.GLOVEBOX.DMA_CONFIG 2) readC, 0, _, _, _, _, [], rfl, rfl, rfl, rfl, rfl, by decide, rfl⟩,
   ⟨dmaCh (wr sv Reg.GLOVEBOX.DMA_CONFIG 0) readC, 0, _, _, _, _, [], rfl, rfl, rfl, rfl, rfl, by decide, rfl⟩,
   ⟨dmaCh sv (writeC 64), 0, _, _, _, _, [], rfl, rfl, rfl, rfl, rfl, rfl, rfl, rfl, rfl⟩,
   ⟨dmaCh sv (writeC 32), 0, _, _, _, _, [], rfl, rfl, rfl, rfl, rfl, rfl, rfl, rfl, by decide⟩⟩

theorem witness_PowerAndRecoveryCommandsComplete :
    (∃ (s : State) (point : Nat), hostReaches s = true ∧ point < 3 ∧ point = eclk s) ∧
    (∃ (s : State) (point : Nat), hostReaches s = true ∧ point < 3 ∧ point ≠ eclk s ∧ (rd s Reg.POWER.POWER_CONFIG_HOST_CLOCK = 0 ∨ point < rd s Reg.POWER.CLOCK_CONTROL_CEILING ∨ rd s Reg.POWER.CLOCK_CONTROL_PENDING = 1)) ∧
    (∃ (s : State) (u : State) (celsius : Int), s.mode ≠ .dormant ∧ wr s Reg.POWER.POWER_STATUS_JUNCTION (ofSigned 8 celsius) = u ∧ (celsius < -50 ∨ 125 < celsius)) ∧
    (∃ (s : State) (u : State) (celsius : Int), s.mode ≠ .dormant ∧ wr s Reg.POWER.POWER_STATUS_JUNCTION (ofSigned 8 celsius) = u ∧ -50 ≤ celsius ∧ celsius ≤ 125 ∧ (rd u Reg.POWER.POWER_CONFIG_THROTTLE_TEMP : Int) ≤ celsius) ∧
    (∃ (s : State) (u : State) (celsius : Int), s.mode ≠ .dormant ∧ wr s Reg.POWER.POWER_STATUS_JUNCTION (ofSigned 8 celsius) = u ∧ -50 ≤ celsius ∧ celsius ≤ 125 ∧ celsius < (rd u Reg.POWER.POWER_CONFIG_THROTTLE_TEMP : Int)) ∧
    (∃ (s : State) (w : State) (u : State) (v : State) (slack : Nat), s.mode ≠ .dormant ∧ reachable s s.power.agingAt = true ∧ w = advanceTo s s.power.agingAt ∧ wr w Reg.POWER.POWER_STATUS_MARGIN (min slack 255) = u ∧ setVdd u (agingTarget u slack) = v ∧ slack < rd u Reg.POWER.POWER_CONFIG_MARGIN_MIN ∧ vdd u = 800 ∧ 2 ≤ u.power.marginLow) ∧
    (∃ (s : State) (w : State) (u : State) (v : State) (slack : Nat), s.mode ≠ .dormant ∧ reachable s s.power.agingAt = true ∧ w = advanceTo s s.power.agingAt ∧ wr w Reg.POWER.POWER_STATUS_MARGIN (min slack 255) = u ∧ setVdd u (agingTarget u slack) = v ∧ rd u Reg.POWER.POWER_CONFIG_MARGIN_MIN ≤ slack) ∧
    (∃ (s : State) (kind : Nat) (index : Nat), enginesPowered s = true ∧ (countFailure s kind index).2 = true) ∧
    (∃ (s : State) (kind : Nat) (index : Nat), enginesPowered s = true ∧ (countFailure s kind index).2 = false) ∧
    (∃ (s : State) (kind : Nat) (index : Nat), enginesPowered s = true ∧ (countFailure (countLaneError s kind index) kind index).2 = true) ∧
    (∃ (s : State) (u : State) (link : Nat) (e : LinkError), linkMeets s link e = (u, true) ∧ s.trust.zeroizing = false ∧ inService u = true ∧ u.trust.zeroizing = false) ∧
    (∃ (s : State) (u : State) (link : Nat) (e : LinkError), linkMeets s link e = (u, false)) ∧
    (∃ (s : State) (link : Nat), dieCrossing (linkOf link) = false) ∧
    (∃ (s : State) (link : Nat) (n : Nat), dieCrossing (linkOf link) = true) :=
  ⟨⟨lk sv, eclk (lk sv), rfl, by decide, rfl⟩,
   ⟨lk sv, 1, rfl, by decide, by decide, by decide⟩,
   ⟨sv, _, 126, by decide, rfl, by decide⟩,
   ⟨wr sv Reg.POWER.POWER_CONFIG_THROTTLE_TEMP 105, _, 105, by decide, rfl, by decide, by decide, by decide⟩,
   ⟨wr sv Reg.POWER.POWER_CONFIG_THROTTLE_TEMP 105, _, 104, by decide, rfl, by decide, by decide, by decide⟩,
   ⟨let s := wrAll sv [(Reg.POWER.POWER_STATUS_VDD_CORE, 800), (Reg.POWER.POWER_CONFIG_MARGIN_MIN, 20)]; { s with power := { s.power with marginLow := 2 } }, _, _, _, 19, by decide, reach_now _ _ (by decide), rfl, rfl, rfl, by decide, rfl, by decide⟩,
   ⟨wrAll sv [(Reg.POWER.POWER_STATUS_VDD_CORE, 800), (Reg.POWER.POWER_CONFIG_MARGIN_MIN, 20)], _, _, _, 20, by decide, reach_now _ _ (by decide), rfl, rfl, rfl, by decide⟩,
   ⟨dvI, 0, 0, rfl, rfl⟩,
   ⟨{ dvI with faults := { dvI.faults with resetting := [0] } }, 0, 0, rfl, rfl⟩,
   ⟨dvI, 3, 0, rfl, rfl⟩,
   ⟨sv, _, 0, .doubleBit, rfl, rfl, rfl, rfl⟩,
   ⟨sv, _, 0, .singleBit, rfl⟩,
   ⟨sv, 0, rfl⟩,
   ⟨sv, 2, 0, rfl⟩⟩

theorem witness_MittenWordsDecodeAsEncoded :
    (∃ (w : MWord), w.wf = true ∧ (∀ a l, w = .pair a l → a.op = .nop → a = .idle) ∧ (∀ o d i, w = .long o d i → o ≠ .nop)) ∧
    (∃ (w : MWord), w.wf = true) ∧
    (∃ (v : Nat) (w : MWord), MWord.ofBits v = some w) ∧
    (∃ (v : Nat), bitsOf v 63 62 = 3) :=
  ⟨⟨.pair { op := .add, x := { args with dst := 31, src1 := 31, src2 := 31, satw := 3, uns := true, shift := 63 } } (.mem .pget { zLArgs with reg := 31, ptr := 7, upd := 3, offset := -8192 }), rfl, by rintro a l h; injection h with h₁ h₂; subst h₁; decide, by intro o d i h; injection h⟩,
   ⟨.control (.loop 1 true false 65535 4096), rfl⟩,
   ⟨2 ^ 63 + 10 * 2 ^ 56, .control .fence, rfl⟩,
   ⟨2 ^ 64 - 1, rfl⟩⟩


/-! ### Single steps and values that the spec gives -/

/-- CRC-32C of the digits 1 to 9: the check value that the polynomial is known by. -/
theorem test_crc32c : crc32c (ascii "123456789") = 0xE3069283 := by decide

/-- A PAIR of ADD d1, d2, d3 and LD32 d4, [p5 - 4], written out by R247 to R249. -/
theorem test_word_pair : MWord.ofBits 0b00_0000001_00001_00010_00011_00_0_000000_00011_00100_101_00_00_11111111111100 =
    some (.pair { op := .add, x := { dst := 1, src1 := 2, src2 := 3, satw := 0, uns := false, shift := 0 } }
      (.mem .ld32 { reg := 4, ptr := 5, upd := 0, offset := -4 })) := by decide

/-- A LONG MOV of 0x12345678 into d31. -/
theorem test_word_long : MWord.ofBits 0b01_0001111_11111_000000000000000000_00010010001101000101011001111000 = some (.long .mov 31 0x12345678) := by decide

/-- LOOP, level 1, rotating, 65,535 times over 4,096 words. -/
theorem test_word_loop : MWord.ofBits 0b10_000100_1_1_0_1111111111111111_0000000000000000000000000_111111111111 =
    some (.control (.loop 1 true false 65535 4096)) := by decide

/-- A word of zeros is a PAIR of NOPs; format 3, a reserved opcode and a reserved field spell nothing. -/
theorem test_word_refused : MWord.ofBits 0 = some (.pair .idle .nop) ∧ MWord.ofBits (3 * 2 ^ 62) = none ∧ MWord.ofBits (0x7F * 2 ^ 55) = none ∧
    MWord.ofBits (2 ^ 62 + 2 ^ 55 + 2 ^ 32) = none ∧ MWord.ofBits (3 * 2 ^ 26 + 2 ^ 14) = none := by decide

/-- ADDS saturates, and the sign decides a right shift. -/
theorem test_saturation : alu .adds 0x7FFFFFFF 1 = 0x7FFFFFFF ∧ alu .subs 0x80000000 1 = 0x80000000 ∧ alu .asr 0x80000000 31 = 0xFFFFFFFF := by decide

/-- 100 divided by 7 in 32 steps of DSTEP and a DFIX. -/
theorem test_division : divFix (divSteps 32 7 100 true) 7 = 2 * 2 ^ 32 + 14 := by decide

/-- The first power-good enters Dormant, and a self-test that passes asks for Proving (R476). -/
theorem test_first_power : (match exec .pwrGoodRise State.reset with
    | .next t => match exec (.selfTestDone true) t with
      | .next u => decide (u.mode = .dormant) && decide (u.modeRequests = [(.proving, 1)])
      | _ => false
    | _ => false) = true := by decide

/-- A retired part enters Sealed (R476). -/
theorem test_retired_part : (match exec (.selfTestDone true) (life 3 (pw State.reset)) with
    | .next t => decide (t.mode = .sealed)
    | _ => false) = true := by decide

/-- A write across the end of BAR 0 faults, and nothing else does. -/
theorem test_bar0 : exec (.registerWrite 0x3FFFFFE 4 0) State.reset = .fault (.outsideBar0 0x3FFFFFE) ∧
    exec (.registerWrite 0x3FFFFFC 4 0) State.reset = .next State.reset := ⟨rfl, rfl⟩

/-- The clock of an empty queue advances by INCREMENT (R38): at 1.6 GHz a cycle is 0.625 ns. -/
theorem test_idle_cycle : (idleCycle (pw State.reset)).time.clock = State.reset.time.increment := by decide

end Sys2Proof.Tests
end

/-!
The register file and the access codes of a write (R11, R12, R450), and the commands of the Lining and the Glovebox: one rule for each branch.
-/

namespace Sys2Proof.Machine

/-! ### The register file and the access codes -/

/-- Writing a field changes nothing but the register file. -/
theorem wr_restore_regs (s : State) (f : Fld) (v : Nat) : { wr s f v with regs := s.regs } = s := rfl

/-- Writing a field keeps the table of the register file in index order. -/
theorem wr_regs_wf {s : State} (h : Table.wf s.regs = true) (f : Fld) (v : Nat) : Table.wf (wr s f v).regs = true := by
  unfold wr
  dsimp only
  split
  · exact Table.wf_del h _
  · exact Table.wf_put h _ _

/-- Settles O9, by the laws of the register file and of its table. -/
theorem registerFileReadsBackWhatWasWritten : Obligations.RegisterFileReadsBackWhatWasWritten :=
  ⟨rd_wr, fun s _ _ v => rd_wr_ne s v, fun _ f v h => wr_regs_wf h f v, wr_restore_regs, rd_bumpBy⟩

@[simp] theorem regWrite_sealed {s : State} (off v : Nat) (h : s.mode = .sealed) : regWrite s off v = s := by
  simp [regWrite, h]

theorem regWrite_noField {s : State} {off : Nat} (v : Nat) (hx : inMsix off = false) (hp : inPending off = false) (hf : fieldsAt off = []) :
    regWrite s off v = s := by
  unfold regWrite
  split
  · rfl
  · simp [hx, hp, hf]

theorem regWrite_bad {s : State} {off v : Nat} (hm : s.mode ≠ .sealed) (hx : inMsix off = false) (hp : inPending off = false)
    (hf : fieldsAt off ≠ []) (hb : badWrite (fieldsAt off) v = true) : regWrite s off v = accessError s := by
  simp [regWrite, hm, hx, hp, hf, hb]

theorem putFields_cons (s : State) (f : Fld) (fs : List Fld) (v : Nat) : putFields s (f :: fs) v = putFields (putFields s [f] v) fs v := rfl

theorem putFields_rw (s : State) {f : Fld} (v : Nat) (h : f.acc = .rw) : putFields s [f] v = wr s f (bitsOf v f.hi f.lo) := by
  simp [putFields, h]

theorem putFields_w1c (s : State) {f : Fld} (v : Nat) (h : f.acc = .w1c) :
    putFields s [f] v = if bitsOf v f.hi f.lo = 1 then wr s f 0 else s := by
  simp [putFields, h]

/-- A field with any other access code takes nothing of a write. -/
theorem putFields_other (s : State) {f : Fld} (v : Nat) (hr : f.acc ≠ .rw) (hc : f.acc ≠ .w1c) : putFields s [f] v = s := by
  cases h : f.acc <;> simp_all [putFields]

/-- A write that meets no field that takes writes breaks R450. -/
theorem badWrite_of_not_writable {fs : List Fld} (v : Nat) (h : ∀ f ∈ fs, f.writable = false) : badWrite fs v = true := by
  have none : fs.any Fld.writable = false := by simpa using h
  simp [badWrite, none]

/-- Settles O18, by the branches of `regWrite` and the access codes of one field. -/
theorem registerAccessCodes : Obligations.RegisterAccessCodes := by
  refine ⟨fun _ _ _ => regWrite_bad, fun _ _ v => regWrite_noField v, fun _ off v => regWrite_sealed off v, fun s _ v => putFields_rw s v, ?_, ?_,
    fun s _ v => putFields_other s v, fun s f g fs v => putFields_cons s f (g :: fs) v, ?_⟩
  · intro s f v hc h1
    rw [putFields_w1c s v hc, if_pos h1]
  · intro s f v hc h1
    rw [putFields_w1c s v hc, if_neg h1]
  · intro fs v h
    refine badWrite_of_not_writable v fun f hf => ?_
    obtain e | e | e := h f hf <;> simp [Fld.writable, e]

/-! ### The regions of the Crown's map, and the Lining and the Glovebox -/

/-- The Crown's reply to a request in the Lining (R23, R28): the host has no access, then the path and the group decide. -/
theorem crownReply_lining (s : State) (src : Nat) {a : Nat} (lo : liningBase ≤ a) (hi : a < liningBase + 80 * groupBytes) :
    crownReply s src a =
      if isHostPort src then .denied
      else if !pathOpen s src (liningPort (servedBy s ((a - liningBase) / groupBytes))) then .portOff
      else if groupAbsent s (servedBy s ((a - liningBase) / groupBytes)) then .unmapped
      else .pass := by
  have above : ¬ a < 8 * stackBytes := by unfold liningBase at lo; unfold stackBytes; omega
  simp [crownReply, above, lo, hi]

/-- The Crown's reply to a request in the Glovebox (R28): neither the host nor a Mitten cluster has access, then the window decides. -/
theorem crownReply_glovebox (s : State) (src : Nat) {a : Nat} (lo : gloveBase ≤ a) (hi : a < gloveLimit) :
    crownReply s src a = if isHostPort src || isMittenPort src then .denied else if inWindow s a then .pass else .unmapped := by
  have above : ¬ a < 8 * stackBytes := by unfold gloveBase at lo; unfold stackBytes; omega
  have beyond : ¬ a < liningBase + 80 * groupBytes := by unfold gloveBase at lo; unfold liningBase groupBytes; omega
  simp [crownReply, above, beyond, lo, hi]

/-- The Crown passes a request on, or answers it. -/
theorem liningPass_single (s : State) (q : LiningRequest) :
    liningPass s [q] = if crownReply s q.request.port q.request.address = .pass then (s, [q])
      else (answerCrown s q.request.port q.request.address (crownReply s q.request.port q.request.address), []) := by
  unfold liningPass
  split <;> simp_all

@[simp] theorem liningPass_nil (s : State) : liningPass s [] = (s, []) := rfl

theorem liningPass_host (s : State) {q : LiningRequest} (h : isHostPort q.request.port = true) (lo : liningBase ≤ q.request.address)
    (hi : q.request.address < liningBase + 80 * groupBytes) : liningPass s [q] = (denied s q.request.port q.request.address, []) := by
  simp [liningPass_single, crownReply_lining s _ lo hi, h, answerCrown]

/-- Requests that fit the group and come from ports of the part are all taken. -/
theorem filter_fitting {s : State} {group : Nat} {qs : List LiningRequest}
    (hf : ∀ q ∈ qs, liningFits group q.request = true ∧ portFused s q.request.port = false) :
    qs.filter (fun q => liningFits group q.request && !portFused s q.request.port) = qs :=
  List.filter_eq_self.2 (by simpa using hf)

section
variable {s u : State} {group : Nat} {qs l : List LiningRequest} (hg : group < 80)
  (hf : ∀ q ∈ qs, liningFits group q.request = true ∧ portFused s q.request.port = false) (hp : liningPass s qs = (u, l))
include hg hf hp

/-- While its group is fenced, what the Crown passes waits (R427). -/
theorem execLiningAccess_fenced (h : groupState s (servedBy s group) = gFenced) : exec (.liningAccess group qs) s =
    .next { u with lining := { u.lining with waiting := u.lining.waiting ++ (writesFirst l).map (fun q => (servedBy s group, q)) } } := by
  simp [exec, execLiningAccess, Nat.not_le.2 hg, filter_fitting hf, hp, h]

/-- With none waiting, what the Crown passes enters the banks. -/
theorem execLiningAccess_served (h : groupState s (servedBy s group) ≠ gFenced) (w : u.lining.waiting = []) :
    exec (.liningAccess group qs) s = .next (liningCycle u (servedBy s group) (writesFirst l)) := by
  have same : { u with lining := { u.lining with waiting := [] } } = u := by rw [← w]
  simp [exec, execLiningAccess, Nat.not_le.2 hg, filter_fitting hf, hp, h, w, same]
end

theorem execRowSpare_due {s : State} {group bank row : Nat} (bad : List Nat) (hg : group < 80) (hb : bank < 64) (h : spareDue s group bank = some row) :
    exec (.rowSpare group ⟨bank, bad⟩) s = .next (spareRow s group bank row bad) := by
  simp [exec, execRowSpare, hg, hb, h]

theorem execRowSpare_spares {s : State} {group bank row : Nat} {x : LiningBank} (bad : List Nat) (hg : group < 80) (hb : bank < 64)
    (h : spareDue s group bank = some row) (hx : liningBankOf s group bank = x) (room : x.spares.length < 4) :
    exec (.rowSpare group ⟨bank, bad⟩) s = .next (raise (bump (withLiningBank (poisonLining s group bank row bad) group bank
      { x with buckets := [], uncorrectable := x.uncorrectable.filter (fun e => e.1 ≠ row), spares := x.spares ++ [row] })
      Reg.LINING.ROWS_SPARED) Reg.LINING.LINING_EVENTS_ROW_SPARED) := by
  rw [execRowSpare_due bad hg hb h]
  simp [spareRow, hx, room]

theorem execRowSpare_exhausted {s : State} {group bank row : Nat} {x : LiningBank} (bad : List Nat) (hg : group < 80) (hb : bank < 64)
    (h : spareDue s group bank = some row) (hx : liningBankOf s group bank = x) (full : 4 ≤ x.spares.length) (first : x.noSpare = false) :
    exec (.rowSpare group ⟨bank, bad⟩) s = .next (raise (withLiningBank s group bank
      { x with noSpare := true, answered := true, uncorrectable := x.uncorrectable.filter (fun e => e.1 ≠ row) })
      Reg.LINING.LINING_EVENTS_SPARE_EXHAUSTED) := by
  rw [execRowSpare_due bad hg hb h]
  simp [spareRow, hx, Nat.not_lt.2 full, first]

/-- A Glovebox access that fits its word and comes from a port of the part goes on if the Crown passes it, and is answered if not. -/
theorem execGloveboxAccess_of_fits {s : State} {r : MemRequest}
    (fits : r.kind = .read ∨ ∃ bs, r.kind = .write bs ∧ 0 < bs.length ∧ bs.length ≤ 64 - r.address % 64) (fused : portFused s r.port = false)
    (lo : gloveBase ≤ r.address) : exec (.gloveboxAccess r) s = .next (if crownReply s r.port r.address = .pass then gloveAccess s r
      else answerCrown s r.port r.address (crownReply s r.port r.address)) := by
  obtain read | ⟨bs, write, some, within⟩ := fits
  · simp only [exec, execGloveboxAccess, read, fused, Nat.not_lt.2 lo, decide_false, Bool.not_true, Bool.or_false, Bool.false_eq_true, if_false]
    split <;> rfl
  · simp only [exec, execGloveboxAccess, write, some, within, fused, Nat.not_lt.2 lo, decide_true, decide_false, Bool.and_true, Bool.not_true, Bool.or_false,
      Bool.false_eq_true, if_false]
    split <;> rfl

section
variable {s u : State} {page port : Nat} {f : PageFetch} (hf : s.glove.fetches.find? (fun f => f.page = page) = some f)
  (hu : { s with glove := { s.glove with fetches := s.glove.fetches.erase f } } = u) (hp : ((f.requests.head?).map (·.port)).getD 0xFFFF = port)
include hf hu hp

/-- A page whose tag verifies fills a frame and serves its requests (R431, R433); an untrusted one is counted, raised and logged, and its requests
are answered as poisoned (R432). -/
theorem execPageFetchDone_read (c tag : List Byte) : exec (.pageFetchDone page (.read c tag)) s = .next (if pageVerifies s page c tag then
      runArchives (f.requests.foldl gloveServe (fillFrame (emptyFrame (countPageJob u)) page (memWrite [] 0 (pageClear s page c))))
    else runArchives (endArchives (poisonRequests (fault (raise
      (bump (bump (countPageJob u) Reg.CIPHER.UNTRUSTED_TOTAL) Reg.CIPHER.UNTRUSTED_PAGE) Reg.CIPHER.CIPHER_EVENTS_GLOVEBOX_UNTRUSTED) 0x61 12 port 0 page)
      f.requests) page)) := by
  simp only [exec, execPageFetchDone, hf, hu, hp]
  split <;> rfl

omit hu hp in
/-- A failed host read is tried again while it may be (R432, R440). -/
theorem execPageFetchDone_retry (again : f.retries < rd s Reg.GLOVEBOX.DMA_CONFIG) : exec (.pageFetchDone page .hostError) s =
    .next { s with glove := { s.glove with
      fetches := s.glove.fetches.map (fun g => if g.page = page then { g with retries := g.retries + 1 } else g) } } := by
  simp only [exec, execPageFetchDone, hf, again, if_true]

/-- A host read that has failed up to the limit is counted, raised and logged (R432). -/
theorem execPageFetchDone_failed (spent : rd s Reg.GLOVEBOX.DMA_CONFIG ≤ f.retries) : exec (.pageFetchDone page .hostError) s =
    .next (runArchives (endArchives (poisonRequests (fault (raise
      (bump u Reg.GLOVEBOX.HOST_READ_ERRORS) Reg.GLOVEBOX.GLOVEBOX_EVENTS_HOST_READ_ERROR) 0x62 19 port 0 page) f.requests) page)) := by
  simp only [exec, execPageFetchDone, hf, hu, hp, Nat.not_lt.2 spent, if_false]
end

/-- Settles O57, by the Crown's reply in the two regions and one rule for each branch of the four commands. -/
theorem liningAndGloveboxCommandsComplete : Obligations.LiningAndGloveboxCommandsComplete := by
  refine ⟨?access, ?crown, ?spare, ?glovebox, ?fetch⟩
  case access =>
    intro s u group qs l hg hf hp
    exact ⟨execLiningAccess_fenced hg hf hp, execLiningAccess_served hg hf hp⟩
  case crown =>
    intro s q
    refine ⟨liningPass_host s, fun h => ?_, fun h => ?_⟩ <;> simp [liningPass_single, h, answerCrown]
  case spare =>
    intro s group bank row bad x hg hb h hx
    exact ⟨execRowSpare_spares bad hg hb h hx, execRowSpare_exhausted bad hg hb h hx⟩
  case glovebox =>
    intro s r fits fused lo hi
    rw [execGloveboxAccess_of_fits fits fused lo, crownReply_glovebox s r.port lo hi]
    refine ⟨fun port => ?_, fun host mitten window => ?_, fun host mitten window => ?_⟩
    · simp [port, answerCrown]
    · simp [host, mitten, window, answerCrown]
    · simp [host, mitten, window]
  case fetch =>
    intro s u page port f c tag hf hu hp
    exact ⟨execPageFetchDone_read hf hu hp c tag, execPageFetchDone_retry hf, execPageFetchDone_failed hf hu hp⟩

end Sys2Proof.Machine

/-!
The identity of the part (R3). `Fixed` is what no command changes. Each operation of the model has one lemma that says that it keeps it, proved
from the lemmas of the operations it calls; the section of an operation is named after its chapter of the model. A lemma named `fixed_f` is about
a function that answers a state, `keeps_f` about a command, `rulingKeeps_f` about the rule of a directive.
-/

namespace Sys2Proof.Machine

/-! ### Folds, reaches and outcomes beside a state -/

/-- A fold of a state beside other data keeps it if each of its steps does. -/
@[simp] theorem fixed_foldl_fst {α β : Type} (l : List α) (f : State × β → α → State × β) (h : ∀ r x, fixed (f r x).1 = fixed r.1)
    (r : State × β) : fixed (l.foldl f r).1 = fixed r.1 := by
  induction l generalizing r with
  | nil => rfl
  | cons x l ih => simp [ih, h]

/-- The state that is reached keeps it. -/
theorem fixed_of_reach {s r : State} {t : Nat} (h : reach s t = some r) : fixed r = fixed s := by
  obtain ⟨-, rfl⟩ := (reach_eq_some s t r).1 h
  exact fixed_advanceTo s t

/-- A reach that goes on to `f` keeps it if `f` does. -/
@[simp] theorem fixed_reach_elim (s : State) (t : Nat) (f : State → State) (h : ∀ r, fixed (f r) = fixed r) :
    fixed ((reach s t).elim s f) = fixed s := by
  cases e : reach s t with
  | none => rfl
  | some r => simp [h, fixed_of_reach e]

/-- The identity of a part after a cold start is that of its fuses. -/
@[simp] theorem fixedOfTrust_cold (p : List Instr) (f : Fuses) : fixedOfTrust p (State.cold f).trust = fixedOfFuses p f := rfl

/-- An operation that may answer no state keeps what no command changes in the state it answers. -/
def OptionKeeps (s : State) (o : Option State) : Prop := ∀ t, o = some t → fixed t = fixed s

@[simp] theorem optionKeeps_none (s : State) : OptionKeeps s none := by simp [OptionKeeps]

@[simp] theorem optionKeeps_some (s t : State) : OptionKeeps s (some t) ↔ fixed t = fixed s := by simp [OptionKeeps]

@[simp] theorem optionKeeps_ite (s : State) (c : Prop) [Decidable c] (a b : Option State) :
    OptionKeeps s (if c then a else b) ↔ if c then OptionKeeps s a else OptionKeeps s b := by
  split <;> rfl

theorem OptionKeeps.fixed_eq {s t : State} {o : Option State} (h : OptionKeeps s o) (e : o = some t) : fixed t = fixed s := h t e

theorem OptionKeeps.congr {s t : State} {o : Option State} (h : fixed s = fixed t) (k : OptionKeeps s o) : OptionKeeps t o :=
  fun u e => (k u e).trans h

/-! ### Registers, rings, events, the fault log and draws -/

@[simp] theorem fixed_wr (s : State) (f : Fld) (v : Nat) : fixed (wr s f v) = fixed s := by simp [wr]
@[simp] theorem fixed_bumpBy (s : State) (f : Fld) (n : Nat) : fixed (bumpBy s f n) = fixed s := by simp [bumpBy]
@[simp] theorem fixed_bump (s : State) (f : Fld) : fixed (bump s f) = fixed s := by simp [bump]
@[simp] theorem fixed_emit (s : State) (o : Output) : fixed (emit s o) = fixed s := by simp [emit]
@[simp] theorem fixed_cutFrame (s : State) (m : Nat) : fixed (cutFrame s m) = fixed s := by simp [cutFrame]
@[simp] theorem fixed_withPon (s : State) (p : Nat) (f : PonPort → PonPort) : fixed (withPon s p f) = fixed s := by simp [withPon]
@[simp] theorem fixed_takeLos (s : State) (p : Nat) (high : Bool) : fixed (takeLos s p high) = fixed s := by simp [takeLos]
@[simp] theorem fixed_signal (s : State) (v : Nat) : fixed (signal s v) = fixed s := by simp [signal]
@[simp] theorem fixed_moderateEvt (s : State) (atOnce : Bool) : fixed (moderateEvt s atOnce) = fixed s := by simp [moderateEvt]
@[simp] theorem fixed_moderateCpl (s : State) (atOnce : Bool) : fixed (moderateCpl s atOnce) = fixed s := by simp [moderateCpl]
@[simp] theorem fixed_moderateStats (s : State) : fixed (moderateStats s) = fixed s := by simp [moderateStats]

@[simp] theorem fixed_putEvent (s : State) (block stamp : Nat) (data : EventData) (atOnce : Bool) :
    fixed (putEvent s block stamp data atOnce) = fixed s := by
  simp [putEvent]

@[simp] theorem fixed_loseEvent (s : State) : fixed (loseEvent s) = fixed s := by simp [loseEvent]

@[simp] theorem fixed_event (s : State) (block stamp : Nat) (data : EventData) (atOnce : Bool) : fixed (event s block stamp data atOnce) = fixed s := by
  simp [event]

@[simp] theorem fixed_raiseAll (s : State) (fs : List Fld) : fixed (raiseAll s fs) = fixed s := by
  unfold raiseAll
  dsimp only
  split <;> simp

@[simp] theorem fixed_raise (s : State) (f : Fld) : fixed (raise s f) = fixed s := by simp [raise]
@[simp] theorem fixed_accessError (s : State) : fixed (accessError s) = fixed s := by simp [accessError]

@[simp] theorem fixed_logEntry (s : State) (code block port detail address : Nat) : fixed (logEntry s code block port detail address).1 = fixed s := by
  unfold logEntry
  split <;> simp

@[simp] theorem fixed_fault (s : State) (code block port detail address : Nat) : fixed (fault s code block port detail address) = fixed s := by
  simp [fault]

@[simp] theorem fixed_changeMode (s : State) (m : Mode) (reason : Nat) : fixed (changeMode s m reason) = fixed s := by simp [changeMode]
@[simp] theorem fixed_reseed (s : State) : fixed (reseed s) = fixed s := by simp [reseed]
@[simp] theorem fixed_draw (s : State) : fixed (draw s).1 = fixed s := by simp [draw]

@[simp] theorem fixed_setCharges (s : State) (kind index : Nat) (cs : List Charge) : fixed (setCharges s kind index cs) = fixed s := by
  simp [setCharges]

@[simp] theorem fixed_releaseCharges (s : State) (kind index : Nat) : fixed (releaseCharges s kind index) = fixed s := by simp [releaseCharges]

@[simp] theorem fixed_exchangeWrite (s : State) (offset : Nat) (bytes : List Byte) : fixed (exchangeWrite s offset bytes) = fixed s := by
  simp [exchangeWrite]

@[simp] theorem optionKeeps_deliver (s : State) (bytes : List Byte) (source reason port context stamp : Nat) :
    OptionKeeps s (deliver s bytes source reason port context stamp) := by
  unfold deliver
  repeat' split
  all_goals simp

@[simp] theorem fixed_deliveryFailed (s : State) : fixed (deliveryFailed s) = fixed s := by simp [deliveryFailed]
@[simp] theorem fixed_lateJobs (s : State) (counter : Fld) (n : Nat) : fixed (lateJobs s counter n) = fixed s := by simp [lateJobs]

/-! ### The clock and requests for a mode -/

@[simp] theorem fixed_withClock (s : State) (c : Nat) : fixed (State.withClock s c) = fixed s := by simp [State.withClock]
@[simp] theorem fixed_requestMode (s : State) (m : Mode) (reason : Nat) : fixed (requestMode s m reason) = fixed s := by simp [requestMode]
@[simp] theorem fixed_provingFailed (s : State) (item : Nat) : fixed (provingFailed s item) = fixed s := by simp [provingFailed]
@[simp] theorem fixed_markOnce (s : State) (key : Nat) : fixed (markOnce s key) = fixed s := by simp [markOnce]
@[simp] theorem fixed_freshId (s : State) : fixed (State.freshId s).1 = fixed s := by simp [State.freshId]

/-! ### The budget -/

@[simp] theorem fixed_wrAll (s : State) (l : List (Fld × Nat)) : fixed (wrAll s l) = fixed s := by
  induction l generalizing s with
  | nil => rfl
  | cons e l ih => simp [wrAll, ih]

@[simp] theorem fixed_loadImage (s : State) (i : Image) (source : Nat) : fixed (loadImage s i source) = fixed s := by simp [loadImage]

/-! ### Completions -/

@[simp] theorem fixed_putCompletion (s : State) (c : Completion) : fixed (putCompletion s c) = fixed s := by simp [putCompletion]
@[simp] theorem fixed_complete (s : State) (c : Completion) : fixed (complete s c) = fixed s := by simp [complete]

@[simp] theorem fixed_flushFrom (s : State) (l : List Completion) : fixed (flushFrom s l) = fixed s := by
  induction l generalizing s with
  | nil => simp [flushFrom]
  | cons c l ih => simp [flushFrom, ih]

@[simp] theorem fixed_flush (s : State) : fixed (flush s) = fixed s := by simp [flush]

@[simp] theorem fixed_finish (s : State) (d : Deferred) (status detail result : Nat) : fixed (finish s d status detail result) = fixed s := by
  simp [finish]

@[simp] theorem fixed_defer (s : State) (d : Deferred) : fixed (defer s d) = fixed s := by simp [defer]

/-! ### The Crown -/

@[simp] theorem fixed_flitServed (s : State) (src dst : Nat) : fixed (flitServed s src dst) = fixed s := by simp [flitServed]
@[simp] theorem fixed_refuseAt (s : State) (port reason : Nat) : fixed (refuseAt s port reason) = fixed s := by simp [refuseAt]
@[simp] theorem fixed_unmapped (s : State) (port a : Nat) : fixed (unmapped s port a) = fixed s := by simp [unmapped]
@[simp] theorem fixed_denied (s : State) (port a : Nat) : fixed (denied s port a) = fixed s := by simp [denied]
@[simp] theorem fixed_portOff (s : State) (port : Nat) : fixed (portOff s port) = fixed s := by simp [portOff]

@[simp] theorem fixed_answerCrown (s : State) (port a : Nat) (r : CrownReply) : fixed (answerCrown s port a r) = fixed s := by
  cases r <;> simp [answerCrown]

@[simp] theorem fixed_linkMeets (s : State) (link : Nat) (e : LinkError) : fixed (linkMeets s link e).1 = fixed s := by
  unfold linkMeets
  repeat' split
  all_goals simp

/-! ### Near memory -/

@[simp] theorem fixed_withChannel (s : State) (stack ch : Nat) (c : MemChannel) : fixed (withChannel s stack ch c) = fixed s := by simp [withChannel]
@[simp] theorem fixed_withBank (s : State) (stack ch bank : Nat) (b : MemBank) : fixed (withBank s stack ch bank b) = fixed s := by simp [withBank]
@[simp] theorem fixed_correctedIn (s : State) (stack ch bank row : Nat) : fixed (correctedIn s stack ch bank row) = fixed s := by simp [correctedIn]

@[simp] theorem fixed_uncorrectableIn (s : State) (stack ch bank row port a syndrome : Nat) :
    fixed (uncorrectableIn s stack ch bank row port a syndrome) = fixed s := by
  simp [uncorrectableIn]

@[simp] theorem fixed_updLeg (s : State) (l : Nat) (f : Leg → Leg) : fixed (updLeg s l f) = fixed s := by simp [updLeg]
@[simp] theorem fixed_faultLeg (s : State) (l : Nat) : fixed (faultLeg s l) = fixed s := by simp [faultLeg]

@[simp] theorem fixed_faultLegAt (s : State) (a : Nat) : fixed (faultLegAt s a) = fixed s := by
  unfold faultLegAt
  split <;> simp

@[simp] theorem fixed_serve (s : State) (stack ch : Nat) (isWrite : Bool) (q : QueuedRequest) (e : Ecc) :
    fixed (serve s stack ch isWrite q e) = fixed s := by
  unfold serve
  dsimp only
  repeat' split
  all_goals simp

@[simp] theorem fixed_refresh (s : State) (stack ch bank : Nat) (forced : Bool) : fixed (refresh s stack ch bank forced) = fixed s := by
  simp [refresh]

@[simp] theorem fixed_enqueue (s : State) (stack ch : Nat) (r : MemRequest) : fixed (enqueue s stack ch r) = fixed s := by
  unfold enqueue
  split <;> simp

@[simp] theorem fixed_admitWaiting (s : State) (stack ch : Nat) (n : Nat) : fixed (admitWaiting s stack ch n) = fixed s := by
  induction n generalizing s with
  | zero => rfl
  | succ n ih =>
    unfold admitWaiting
    split
    · rfl
    · simp [ih]

@[simp] theorem fixed_arrive (s : State) (stack ch : Nat) (r : Option MemRequest) : fixed (arrive s stack ch r) = fixed s := by
  unfold arrive
  split <;> simp

@[simp] theorem fixed_issueCommand (s : State) (stack ch : Nat) (ecc : Ecc) : fixed (issueCommand s stack ch ecc) = fixed s := by
  unfold issueCommand
  split <;> simp

@[simp] theorem keeps_execMemoryRequest (stack channel : Nat) (request : Option MemRequest) (ecc : Ecc) (s : State) :
    Keeps s (execMemoryRequest stack channel request ecc s) := by
  unfold execMemoryRequest
  repeat' split
  all_goals simp

@[simp] theorem keeps_execRefreshDue (stack channel bank : Nat) (s : State) : Keeps s (execRefreshDue stack channel bank s) := by
  unfold execRefreshDue
  dsimp only
  repeat' split
  all_goals simp
  all_goals exact fixed_of_reach ‹_›

@[simp] theorem keeps_execTemperatureReading (stack : Nat) (celsius : Int) (s : State) : Keeps s (execTemperatureReading stack celsius s) := by
  unfold execTemperatureReading
  repeat' split
  all_goals simp
  all_goals exact fixed_of_reach ‹_›

@[simp] theorem keeps_execCatchupEnd (stack : Nat) (s : State) : Keeps s (execCatchupEnd stack s) := by simp [execCatchupEnd]

@[simp] theorem fixed_poisonRow (s : State) (stack channel bank row : Nat) (bad : List Nat) :
    fixed (poisonRow s stack channel bank row bad) = fixed s := by
  simp [poisonRow]

@[simp] theorem keeps_execRowRemap (stack channel : Nat) (c : RowCopy) (s : State) : Keeps s (execRowRemap stack channel c s) := by
  unfold execRowRemap
  dsimp only
  repeat' split
  all_goals simp

@[simp] theorem keeps_execScrubRead (stack channel : Nat) (ecc : Ecc) (s : State) : Keeps s (execScrubRead stack channel ecc s) := by
  unfold execScrubRead
  dsimp only
  repeat' split
  all_goals simp

@[simp] theorem fixed_showSets (s : State) (stack : Nat) : fixed (showSets s stack) = fixed s := by simp [showSets]
@[simp] theorem fixed_trainSet (s : State) (stack ch point : Nat) : fixed (trainSet s stack ch point) = fixed s := by simp [trainSet]
@[simp] theorem fixed_holdStep (s : State) (stack ch ns : Nat) : fixed (holdStep s stack ch ns) = fixed s := by simp [holdStep]
@[simp] theorem fixed_faultChannel (s : State) (stack ch : Nat) : fixed (faultChannel s stack ch) = fixed s := by simp [faultChannel]

@[simp] theorem keeps_execTrackingStep (stack channel : Nat) (inRange trains : Bool) (s : State) :
    Keeps s (execTrackingStep stack channel inRange trains s) := by
  simp [execTrackingStep]

@[simp] theorem keeps_execChannelFault (stack channel : Nat) (s : State) : Keeps s (execChannelFault stack channel s) := by simp [execChannelFault]

@[simp] theorem keeps_execTrainingSetExpiry (stack point : Nat) (s : State) : Keeps s (execTrainingSetExpiry stack point s) := by
  unfold execTrainingSetExpiry
  -- with a number in its place the kernel would count up to the hour (R417) while it compares the two matches
  obtain ⟨hour, e⟩ : ∃ n, 3600000000000 = n := ⟨_, rfl⟩
  rw [e]
  dsimp only
  split
  · simp
  · split
    · simp
    · split
      · simp
      · next h => simp [fixed_of_reach h]

@[simp] theorem fixed_takePoint (s : State) (point : Nat) : fixed (takePoint s point) = fixed s := by simp [takePoint]

@[simp] theorem fixed_beginPointChange (s : State) (d : Deferred) (point : Nat) : fixed (beginPointChange s d point) = fixed s := by
  simp [beginPointChange]

@[simp] theorem fixed_faultRetrained (s : State) (point : Nat) (failed : List Nat) : fixed (faultRetrained s point failed) = fixed s := by
  simp [faultRetrained]

@[simp] theorem keeps_execMemoryRetrainingDone (failed : List Nat) (s : State) : Keeps s (execMemoryRetrainingDone failed s) := by
  unfold execMemoryRetrainingDone
  split <;> simp

@[simp] theorem fixed_store (s : State) (address : Nat) (bytes : List Byte) : fixed (store s address bytes) = fixed s := by simp [store]

/-! ### The Lining -/

@[simp] theorem fixed_setGroup (s : State) (g v : Nat) : fixed (setGroup s g v) = fixed s := by simp [setGroup]
@[simp] theorem fixed_withLiningBank (s : State) (g b : Nat) (x : LiningBank) : fixed (withLiningBank s g b x) = fixed s := by simp [withLiningBank]

@[simp] theorem fixed_poisonLining (s : State) (g b row : Nat) (bad : List Nat) : fixed (poisonLining s g b row bad) = fixed s := by
  simp [poisonLining]

@[simp] theorem fixed_spareRow (s : State) (g b row : Nat) (bad : List Nat) : fixed (spareRow s g b row bad) = fixed s := by simp [spareRow]

@[simp] theorem keeps_execRowSpare (group : Nat) (c : RowCopy) (s : State) : Keeps s (execRowSpare group c s) := by
  unfold execRowSpare
  repeat' split
  all_goals simp

@[simp] theorem fixed_liningServe (s : State) (g : Nat) (q : LiningRequest) : fixed (liningServe s g q) = fixed s := by
  unfold liningServe
  dsimp only
  repeat' split
  all_goals simp

@[simp] theorem fixed_liningCycle (s : State) (g : Nat) (qs : List LiningRequest) : fixed (liningCycle s g qs) = fixed s := by
  unfold liningCycle
  apply fixed_foldl
  intro s x
  split <;> simp

@[simp] theorem fixed_liningPass (s : State) (qs : List LiningRequest) : fixed (liningPass s qs).1 = fixed s := by simp [liningPass]

@[simp] theorem keeps_execLiningAccess (group : Nat) (requests : List LiningRequest) (s : State) : Keeps s (execLiningAccess group requests s) := by
  simp [execLiningAccess]

@[simp] theorem fixed_spareFailing (r : State × List Nat) (x : Nat × Nat × Nat) : fixed (spareFailing r x).1 = fixed r.1 := by
  simp [spareFailing]

@[simp] theorem fixed_clearGroup (s : State) (g : Nat) : fixed (clearGroup s g) = fixed s := by simp [clearGroup]
@[simp] theorem fixed_marchGo (s : State) (group form : Nat) : fixed (marchGo s group form) = fixed s := by simp [marchGo]
@[simp] theorem keeps_execMarchGo (group form : Nat) (s : State) : Keeps s (execMarchGo group form s) := by simp [execMarchGo]

@[simp] theorem fixed_stopMarch (s : State) : fixed (stopMarch s) = fixed s := by
  unfold stopMarch
  split <;> simp

@[simp] theorem fixed_failGroup (s : State) (g : Nat) : fixed (failGroup s g) = fixed s := by
  unfold failGroup
  dsimp only
  repeat' split
  all_goals simp

@[simp] theorem fixed_trainAll (s : State) : fixed (trainAll s) = fixed s := by
  have trained (s : State) (k : Nat) :
      fixed ((List.range 16).foldl (fun s ch => (List.range 3).foldl (fun s p => trainSet s k ch p) s) s) = fixed s := by
    apply fixed_foldl
    intro s ch
    simp
  simp [trainAll, trained]

@[simp] theorem keeps_execMarchDone (failing again : List Nat) (s : State) : Keeps s (execMarchDone failing again s) := by
  unfold execMarchDone
  split
  · split
    · simp
    · next h => simp [fixed_of_reach h]
  · simp

@[simp] theorem fixed_placeLining (s : State) : fixed (placeLining s) = fixed s := by simp [placeLining]

/-! ### The Glovebox -/

@[simp] theorem fixed_showFrames (s : State) : fixed (showFrames s) = fixed s := by simp [showFrames]
@[simp] theorem fixed_countPageJob (s : State) : fixed (countPageJob s) = fixed s := by simp [countPageJob]
@[simp] theorem fixed_writeBack (s : State) (k : Nat) (f : PageFrame) : fixed (writeBack s k f) = fixed s := by simp [writeBack]

@[simp] theorem fixed_emptyFrame (s : State) : fixed (emptyFrame s) = fixed s := by
  unfold emptyFrame
  repeat' split
  all_goals simp

@[simp] theorem fixed_fillFrame (s : State) (page : Nat) (data : List Host.Cell) : fixed (fillFrame s page data) = fixed s := by
  unfold fillFrame
  split <;> simp

@[simp] theorem fixed_gloveServe (s : State) (r : MemRequest) : fixed (gloveServe s r) = fixed s := by
  unfold gloveServe
  repeat' split
  all_goals simp

@[simp] theorem fixed_gloveAccess (s : State) (r : MemRequest) : fixed (gloveAccess s r) = fixed s := by simp [gloveAccess]
@[simp] theorem fixed_archiveRecord (s : State) (j : ArchiveJob) (f : PageFrame) : fixed (archiveRecord s j f) = fixed s := by simp [archiveRecord]

@[simp] theorem fixed_archiveOn (s : State) (j : ArchiveJob) (n : Nat) : fixed (archiveOn s j n).1 = fixed s := by
  induction n generalizing s j with
  | zero => rfl
  | succ n ih =>
    unfold archiveOn
    dsimp only
    repeat' split
    all_goals simp [ih]

@[simp] theorem fixed_runArchives (s : State) : fixed (runArchives s) = fixed s := by
  unfold runArchives
  apply fixed_foldl
  intro s j
  dsimp only
  split <;> simp

@[simp] theorem fixed_endArchives (s : State) (page : Nat) : fixed (endArchives s page) = fixed s := by simp [endArchives]
@[simp] theorem keeps_execGloveboxAccess (r : MemRequest) (s : State) : Keeps s (execGloveboxAccess r s) := by simp [execGloveboxAccess]

@[simp] theorem fixed_poisonRequests (s : State) (rs : List MemRequest) : fixed (poisonRequests s rs) = fixed s := by
  unfold poisonRequests
  apply fixed_foldl
  intro s x
  split <;> simp

@[simp] theorem keeps_execPageFetchDone (page : Nat) (r : FetchResult) (s : State) : Keeps s (execPageFetchDone page r s) := by
  unfold execPageFetchDone
  repeat' split
  all_goals simp

/-! ### DMA -/

@[simp] theorem fixed_withDma (s : State) (ch : Nat) (c : DmaChannel) : fixed (withDma s ch c) = fixed s := by simp [withDma]

@[simp] theorem fixed_dmaNext (s : State) (engine : Nat) : fixed (dmaNext s engine) = fixed s := by
  unfold dmaNext
  dsimp only
  repeat' split
  all_goals simp

@[simp] theorem fixed_dmaFaultFields (s : State) (ch : Nat) (c : DmaChannel) : fixed (dmaFaultFields s ch c) = fixed s := by
  unfold dmaFaultFields
  split <;> simp

@[simp] theorem fixed_dmaHalt (s : State) (ch : Nat) (c : DmaChannel) (reason : Nat) : fixed (dmaHalt s ch c reason) = fixed s := by simp [dmaHalt]
@[simp] theorem fixed_dmaHaltAll (s : State) (which : Nat → Bool) (reason : Nat) : fixed (dmaHaltAll s which reason) = fixed s := by simp [dmaHaltAll]
@[simp] theorem fixed_dmaIssue (s : State) (ch : Nat) (c : DmaChannel) (d : Descriptor) : fixed (dmaIssue s ch c d) = fixed s := by simp [dmaIssue]

@[simp] theorem fixed_dmaDescriptorDone (s : State) (ch : Nat) (c : DmaChannel) (d : Descriptor) : fixed (dmaDescriptorDone s ch c d) = fixed s := by
  simp [dmaDescriptorDone]

@[simp] theorem fixed_dmaStore (s : State) (ch : Nat) (d : Descriptor) (a : Nat) (bs : List Byte) : fixed (dmaStore s ch d a bs) = fixed s := by
  simp [dmaStore]

@[simp] theorem fixed_dmaGo (s : State) (ch : Nat) : fixed (dmaGo s ch) = fixed s := by simp [dmaGo]
@[simp] theorem keeps_execDmaGo (ch : Nat) (s : State) : Keeps s (execDmaGo ch s) := by simp [execDmaGo]

@[simp] theorem fixed_dmaAbort (s : State) (ch : Nat) : fixed (dmaAbort s ch) = fixed s := by
  unfold dmaAbort
  split <;> simp

@[simp] theorem keeps_execDmaAbort (ch : Nat) (s : State) : Keeps s (execDmaAbort ch s) := by simp [execDmaAbort]
@[simp] theorem keeps_execChainHeadWrite (ch address : Nat) (s : State) : Keeps s (execChainHeadWrite ch address s) := by simp [execChainHeadWrite]

@[simp] theorem keeps_execDescriptorFetched (ch : Nat) (r : Option (List Byte)) (s : State) : Keeps s (execDescriptorFetched ch r s) := by
  unfold execDescriptorFetched
  repeat' split
  all_goals simp

@[simp] theorem fixed_answerDma (s : State) (ch : Nat) (d : Descriptor) (a : DmaAccess) : fixed (answerDma s ch d a) = fixed s := by
  unfold answerDma
  split <;> simp

@[simp] theorem keeps_execDmaAccessComplete (ch : Nat) (succeeded : Bool) (data : List Byte) (s : State) :
    Keeps s (execDmaAccessComplete ch succeeded data s) := by
  unfold execDmaAccessComplete
  repeat' split
  all_goals simp

/-! ### Step times -/

@[simp] theorem fixed_moveBasics (o : Int) (s : State) : fixed (moveBasics o s) = fixed s := by simp [moveBasics]
@[simp] theorem fixed_moveMedia (o : Int) (s : State) : fixed (moveMedia o s) = fixed s := by simp [moveMedia]
@[simp] theorem fixed_moveNetwork (o : Int) (s : State) : fixed (moveNetwork o s) = fixed s := by simp [moveNetwork]
@[simp] theorem fixed_moveReadiness (o : Int) (s : State) : fixed (moveReadiness o s) = fixed s := by simp [moveReadiness]
@[simp] theorem fixed_moveInstants (o : Int) (s : State) : fixed (moveInstants o s) = fixed s := by simp [moveInstants]

/-! ### The time block -/

@[simp] theorem fixed_sourcePut (s : State) (c : Nat) (x : TimeSource) : fixed (sourcePut s c x) = fixed s := by simp [sourcePut]
@[simp] theorem fixed_setSource (s : State) (c : Nat) : fixed (setSource s c) = fixed s := by simp [setSource]
@[simp] theorem fixed_pinsLow (s : State) : fixed (pinsLow s) = fixed s := by simp [pinsLow]
@[simp] theorem fixed_setTimeState (s : State) (v : Nat) : fixed (setTimeState s v) = fixed s := by simp [setTimeState]

@[simp] theorem fixed_requestClockMode (s : State) (m : Mode) (reason : Nat) : fixed (requestClockMode s m reason) = fixed s := by
  simp [requestClockMode]

@[simp] theorem fixed_selectSource (s : State) (c : Nat) : fixed (selectSource s c) = fixed s := by simp [selectSource]
@[simp] theorem fixed_enterHoldover (s : State) : fixed (enterHoldover s) = fixed s := by simp [enterHoldover]

@[simp] theorem fixed_sourceLost (s : State) : fixed (sourceLost s) = fixed s := by
  unfold sourceLost
  split <;> simp

@[simp] theorem fixed_selectFree (s : State) : fixed (selectFree s) = fixed s := by
  unfold selectFree
  split <;> simp

@[simp] theorem fixed_disqualify (s : State) (c : Nat) (jumpOnly : Bool) : fixed (disqualify s c jumpOnly) = fixed s := by simp [disqualify]
@[simp] theorem fixed_correct (s : State) (o : Int) : fixed (correct s o) = fixed s := by simp [correct]
@[simp] theorem fixed_measure (s : State) (c : Nat) (o : Int) (meets : Bool) : fixed (measure s c o meets) = fixed s := by simp [measure]
@[simp] theorem keeps_execSourceDisqualified (s : State) : Keeps s (execSourceDisqualified s) := by simp [execSourceDisqualified]

@[simp] theorem keeps_execRestoreWaitExpiry (c : Nat) (s : State) : Keeps s (execRestoreWaitExpiry c s) := by
  unfold execRestoreWaitExpiry
  repeat' split
  all_goals simp
  all_goals exact fixed_of_reach ‹_›

@[simp] theorem fixed_withEngine (s : State) (e : PtpState) : fixed (withEngine s e) = fixed s := by simp [withEngine]

@[simp] theorem fixed_runBmca (s : State) : fixed (runBmca s) = fixed s := by
  unfold runBmca
  split <;> simp

@[simp] theorem fixed_ptpMeasure (s : State) (origin ingress : Int) : fixed (ptpMeasure s origin ingress) = fixed s := by
  unfold ptpMeasure
  split <;> simp

@[simp] theorem fixed_ptpReceive (s : State) (port stamp : Nat) (m : PtpMessage) : fixed (ptpReceive s port stamp m) = fixed s := by
  unfold ptpReceive
  dsimp only
  repeat' split
  all_goals simp

@[simp] theorem keeps_execPtpMessage (port : Nat) (a : PtpArrival) (m : PtpMessage) (s : State) : Keeps s (execPtpMessage port a m s) := by
  simp [execPtpMessage]

@[simp] theorem keeps_execDelayReqSend (s : State) : Keeps s (execDelayReqSend s) := by
  unfold execDelayReqSend
  dsimp only
  repeat' split
  all_goals simp
  all_goals exact fixed_of_reach ‹_›

@[simp] theorem keeps_execAnnounceTimeout (identity : Nat) (s : State) : Keeps s (execAnnounceTimeout identity s) := by
  unfold execAnnounceTimeout
  repeat' split
  all_goals simp
  all_goals exact fixed_of_reach ‹_›

@[simp] theorem fixed_ppsMissed (s : State) : fixed (ppsMissed s) = fixed s := by simp [ppsMissed]

@[simp] theorem fixed_countEdge (s : State) (stamp : Nat) (frequencyOk : Bool) : fixed (countEdge s stamp frequencyOk) = fixed s := by
  simp [countEdge]

@[simp] theorem keeps_execPpsEdge (stamp : Nat) (frequencyOk : Bool) (s : State) : Keeps s (execPpsEdge stamp frequencyOk s) := by
  unfold execPpsEdge
  dsimp only
  repeat' split
  all_goals simp

@[simp] theorem keeps_execPpsMissing (s : State) : Keeps s (execPpsMissing s) := by
  unfold execPpsMissing
  repeat' split
  all_goals simp
  all_goals exact fixed_of_reach ‹_›

@[simp] theorem keeps_execTodTimeout (port : Nat) (s : State) : Keeps s (execTodTimeout port s) := by
  unfold execTodTimeout
  dsimp only
  repeat' split
  all_goals simp
  all_goals exact fixed_of_reach ‹_›

@[simp] theorem fixed_afterStep (s : State) : fixed (afterStep s) = fixed s := by
  unfold afterStep
  dsimp only
  repeat' split
  all_goals simp

@[simp] theorem fixed_applyStep (s : State) : fixed (applyStep s) = fixed s := by
  unfold applyStep
  split <;> simp

@[simp] theorem fixed_loadIncrement (s : State) : fixed (loadIncrement s) = fixed s := by simp [loadIncrement]
@[simp] theorem fixed_capture (s : State) : fixed (capture s) = fixed s := by simp [capture]
@[simp] theorem keeps_execSnapshotCapture (s : State) : Keeps s (execSnapshotCapture s) := by simp [execSnapshotCapture]
@[simp] theorem keeps_execPpsOut (s : State) : Keeps s (execPpsOut s) := by simp [execPpsOut]
@[simp] theorem fixed_tickPulse (s : State) : fixed (tickPulse s) = fixed s := by simp [tickPulse]

@[simp] theorem keeps_execPulseWidthEnd (output : Nat) (s : State) : Keeps s (execPulseWidthEnd output s) := by
  unfold execPulseWidthEnd
  repeat' split
  all_goals simp
  all_goals exact fixed_of_reach ‹_›

/-! ### Power -/

@[simp] theorem fixed_setDomains (s : State) (m : Nat) : fixed (setDomains s m) = fixed s := by simp [setDomains]
@[simp] theorem fixed_loseSets (s : State) (stack : Nat) : fixed (loseSets s stack) = fixed s := by simp [loseSets]
@[simp] theorem fixed_domainOff (s : State) (d : Nat) : fixed (domainOff s d) = fixed s := by simp [domainOff]
@[simp] theorem fixed_startRamps (s : State) : fixed (startRamps s) = fixed s := by simp [startRamps]
@[simp] theorem fixed_askDomains (s : State) (ds : List Nat) : fixed (askDomains s ds) = fixed s := by simp [askDomains]
@[simp] theorem fixed_powerImage (s : State) : fixed (powerImage s) = fixed s := by simp [powerImage]
@[simp] theorem fixed_powerStep (s : State) : fixed (powerStep s) = fixed s := by simp [powerStep]
@[simp] theorem fixed_endUnlock (s : State) : fixed (endUnlock s) = fixed s := by simp [endUnlock]

@[simp] theorem keeps_execDomainRampDone (d : Nat) (s : State) : Keeps s (execDomainRampDone d s) := by
  unfold execDomainRampDone
  repeat' split
  all_goals simp
  all_goals exact fixed_of_reach ‹_›

@[simp] theorem fixed_setVdd (s : State) (mv : Nat) : fixed (setVdd s mv) = fixed s := by simp [setVdd]
@[simp] theorem fixed_passTo (s : State) (point : Nat) : fixed (passTo s point) = fixed s := by simp [passTo]
@[simp] theorem fixed_changePoint (s : State) (point : Nat) : fixed (changePoint s point) = fixed s := by simp [changePoint]

@[simp] theorem fixed_duePoint (s : State) : fixed (duePoint s) = fixed s := by
  unfold duePoint
  dsimp only
  repeat' split
  all_goals simp

@[simp] theorem fixed_stepDown (s : State) : fixed (stepDown s) = fixed s := by simp [stepDown]
@[simp] theorem fixed_clockRequest (s : State) (point : Nat) : fixed (clockRequest s point) = fixed s := by simp [clockRequest]
@[simp] theorem keeps_execClockRequest (point : Nat) (s : State) : Keeps s (execClockRequest point s) := by simp [execClockRequest]
@[simp] theorem fixed_agingCheck (s : State) (slack : Nat) : fixed (agingCheck s slack) = fixed s := by simp [agingCheck]

@[simp] theorem keeps_execAgingCheck (slack : Nat) (s : State) : Keeps s (execAgingCheck slack s) := by
  unfold execAgingCheck
  repeat' split
  all_goals simp
  all_goals exact fixed_of_reach ‹_›

/-! ### Resets and changes of mode -/

@[simp] theorem fixed_coldReset (s : State) : fixed (coldReset s) = fixed s := rfl

@[simp] theorem fixed_clearWork (s : State) (k : Keep) : fixed (clearWork s k) = fixed s := by
  unfold clearWork
  dsimp only
  split <;> simp

@[simp] theorem fixed_warmReset (s : State) : fixed (warmReset s) = fixed s := by simp [warmReset]
@[simp] theorem fixed_warmResetFor (s : State) (reason : Nat) : fixed (warmResetFor s reason) = fixed s := by simp [warmResetFor]
@[simp] theorem fixed_fuseRetired (s : State) : fixed (fuseRetired s) = fixed s := by simp [fuseRetired]
@[simp] theorem fixed_refuseUnfinished (s : State) : fixed (refuseUnfinished s) = fixed s := by simp [refuseUnfinished]
@[simp] theorem fixed_eraseAll (s : State) : fixed (eraseAll s) = fixed s := by simp [eraseAll]
@[simp] theorem fixed_zeroizeTrigger (s : State) (cause input : Nat) : fixed (zeroizeTrigger s cause input) = fixed s := by simp [zeroizeTrigger]
@[simp] theorem keeps_execZeroizeScrubDone (s : State) : Keeps s (execZeroizeScrubDone s) := by simp [execZeroizeScrubDone]
@[simp] theorem keeps_execKnitBreach (s : State) : Keeps s (execKnitBreach s) := by simp [execKnitBreach]
@[simp] theorem keeps_execRailOutOfRange (millivolts : Nat) (s : State) : Keeps s (execRailOutOfRange millivolts s) := by simp [execRailOutOfRange]

@[simp] theorem keeps_execTemperatureTrigger (celsius : Int) (s : State) : Keeps s (execTemperatureTrigger celsius s) := by
  simp [execTemperatureTrigger]

@[simp] theorem keeps_execJunctionReading (celsius : Int) (s : State) : Keeps s (execJunctionReading celsius s) := by simp [execJunctionReading]
@[simp] theorem keeps_execClockTrigger (deviation : Int) (s : State) : Keeps s (execClockTrigger deviation s) := by simp [execClockTrigger]
@[simp] theorem keeps_execTamperIn (input duration : Nat) (s : State) : Keeps s (execTamperIn input duration s) := by simp [execTamperIn]
@[simp] theorem keeps_execZeroizePin (duration : Nat) (s : State) : Keeps s (execZeroizePin duration s) := by simp [execZeroizePin]
@[simp] theorem keeps_execPwrGoodFall (s : State) : Keeps s (execPwrGoodFall s) := by simp [execPwrGoodFall]
@[simp] theorem keeps_execPwrGoodRise (s : State) : Keeps s (execPwrGoodRise s) := by simp [execPwrGoodRise]
@[simp] theorem keeps_execSelfTestDone (passed : Bool) (s : State) : Keeps s (execSelfTestDone passed s) := by simp [execSelfTestDone]
@[simp] theorem keeps_execResetNLow (duration : Nat) (s : State) : Keeps s (execResetNLow duration s) := by simp [execResetNLow]
@[simp] theorem keeps_execResetNRise (s : State) : Keeps s (execResetNRise s) := by simp [execResetNRise]
@[simp] theorem fixed_linkDown (s : State) : fixed (linkDown s) = fixed s := by simp [linkDown]
@[simp] theorem fixed_linkReset (s : State) : fixed (linkReset s) = fixed s := by simp [linkReset]
@[simp] theorem keeps_execPerstN (s : State) : Keeps s (execPerstN s) := by simp [execPerstN]
@[simp] theorem keeps_execFunctionLevelReset (s : State) : Keeps s (execFunctionLevelReset s) := by simp [execFunctionLevelReset]
@[simp] theorem keeps_execPcieLinkLoss (s : State) : Keeps s (execPcieLinkLoss s) := by simp [execPcieLinkLoss]
@[simp] theorem keeps_execPcieLinkUp (s : State) : Keeps s (execPcieLinkUp s) := by simp [execPcieLinkUp]

/-! ### Faults and zeroization -/

@[simp] theorem fixed_engineRegs (s : State) (kind index : Nat) : fixed (engineRegs s kind index) = fixed s := by simp [engineRegs]

@[simp] theorem fixed_countFailure (s : State) (kind index : Nat) : fixed (countFailure s kind index).1 = fixed s := by
  unfold countFailure
  split <;> simp

/-! ### The Band -/

@[simp] theorem fixed_withLegQueue (s : State) (l : Nat) (q : LegQueue) : fixed (withLegQueue s l q) = fixed s := by simp [withLegQueue]
@[simp] theorem fixed_dropFrom (s : State) (agg : Nat) : fixed (dropFrom s agg) = fixed s := by simp [dropFrom]
@[simp] theorem fixed_queueLeg (s : State) (l : Nat) (p : LegPacket) (atHead : Bool) : fixed (queueLeg s l p atHead) = fixed s := by simp [queueLeg]

@[simp] theorem fixed_drainLeg (s : State) (l tr w : Nat) : fixed (drainLeg s l tr w).1 = fixed s := by
  unfold drainLeg
  dsimp only
  split <;> simp

@[simp] theorem fixed_withClass (s : State) (e c : Nat) (q : ClassQueue) : fixed (withClass s e c q) = fixed s := by simp [withClass]
@[simp] theorem fixed_setFinish (s : State) (e c agg v : Nat) : fixed (setFinish s e c agg v) = fixed s := by simp [setFinish]
@[simp] theorem fixed_enqueueClass (s : State) (e c : Nat) (p : ClassPacket) : fixed (enqueueClass s e c p) = fixed s := by simp [enqueueClass]

@[simp] theorem fixed_chargeShaper (s : State) (e c t n : Nat) : fixed (chargeShaper s e c t n) = fixed s := by
  unfold chargeShaper
  split <;> simp

@[simp] theorem fixed_setShaper (s : State) (e c rate burst : Nat) : fixed (setShaper s e c rate burst) = fixed s := by simp [setShaper]
@[simp] theorem fixed_removePacket (s : State) (e c : Nat) (p : ClassPacket) : fixed (removePacket s e c p) = fixed s := by simp [removePacket]

@[simp] theorem fixed_recordSent (s : State) (p : ClassPacket) : fixed (recordSent s p) = fixed s := by
  unfold recordSent
  split <;> simp

@[simp] theorem fixed_countSent (s : State) (e c : Nat) (p : ClassPacket) : fixed (countSent s e c p) = fixed s := by simp [countSent]
@[simp] theorem fixed_dropStale (s : State) (e c : Nat) (p : ClassPacket) : fixed (dropStale s e c p) = fixed s := by simp [dropStale]

@[simp] theorem fixed_dropStaleHeads (s : State) (e c : Nat) (n : Nat) : fixed (dropStaleHeads s e c n) = fixed s := by
  induction n generalizing s with
  | zero => rfl
  | succ n ih =>
    unfold dropStaleHeads
    repeat' split
    all_goals simp [ih]

@[simp] theorem fixed_waitGate (s : State) (e c : Nat) (p : ClassPacket) : fixed (waitGate s e c p) = fixed s := by simp [waitGate]
@[simp] theorem fixed_startFrame (s : State) (e c tPs : Nat) (p : ClassPacket) : fixed (startFrame s e c tPs p) = fixed s := by simp [startFrame]

@[simp] theorem fixed_considerClasses (s : State) (e tPs : Nat) (l : List Nat) : fixed (considerClasses s e tPs l) = fixed s := by
  induction l generalizing s with
  | nil => rfl
  | cons c cs ih =>
    unfold considerClasses
    dsimp only
    split <;> simp [ih]

@[simp] theorem keeps_execEgressFree (e : Nat) (s : State) : Keeps s (execEgressFree e s) := by
  unfold execEgressFree
  dsimp only
  repeat' split
  all_goals simp
  all_goals exact fixed_of_reach ‹_›

@[simp] theorem fixed_gateInstant (s : State) (e : Nat) (was : Nat) (now_ : Nat) : fixed (gateInstant s e was now_) = fixed s := by
  unfold gateInstant
  apply fixed_foldl
  intro s x
  split <;> simp

@[simp] theorem keeps_execGateEntryChange (e : Nat) (s : State) : Keeps s (execGateEntryChange e s) := by
  unfold execGateEntryChange
  dsimp only
  repeat' split
  all_goals simp
  all_goals exact fixed_of_reach ‹_›

@[simp] theorem keeps_execGateListChanged (e : Nat) (s : State) : Keeps s (execGateListChanged e s) := by
  unfold execGateListChanged
  repeat' split
  all_goals simp
  all_goals exact fixed_of_reach ‹_›

@[simp] theorem fixed_loadGates (s : State) (lists : List GateList) (atOnce : Bool) : fixed (loadGates s lists atOnce) = fixed s := by
  unfold loadGates
  apply fixed_foldl
  intro s e
  dsimp only
  repeat' split
  all_goals simp

@[simp] theorem keeps_execPacingSlot (s : State) : Keeps s (execPacingSlot s) := by
  unfold execPacingSlot
  dsimp only
  repeat' split
  all_goals simp
  all_goals exact fixed_of_reach ‹_›

@[simp] theorem fixed_putSample (s : State) (queue bytes packets : Nat) (head : Option Nat) :
    fixed (putSample s queue bytes packets head) = fixed s := by
  simp [putSample]

@[simp] theorem fixed_sampleQueues (s : State) : fixed (sampleQueues s) = fixed s := by simp [sampleQueues]

@[simp] theorem fixed_sendSystem (s : State) (e c : Nat) (frame : List Byte) (stamp : Nat) : fixed (sendSystem s e c frame stamp) = fixed s := by
  simp [sendSystem]

@[simp] theorem fixed_enqueueLegPacket (s : State) (l : Nat) (b : List Byte) (p : LegPacket) : fixed (enqueueLegPacket s l b p) = fixed s := by
  unfold enqueueLegPacket
  repeat' split
  all_goals simp

@[simp] theorem fixed_dropReleased (s : State) (engine : Nat) : fixed (dropReleased s engine) = fixed s := by simp [dropReleased]

/-! ### The assembly of frames -/

@[simp] theorem fixed_updDecode (s : State) (i : Nat) (f : DecodeStream → DecodeStream) : fixed (updDecode s i f) = fixed s := by simp [updDecode]
@[simp] theorem fixed_loseFrame (s : State) (i : Nat) : fixed (loseFrame s i) = fixed s := by simp [loseFrame]

@[simp] theorem fixed_assemblePacket (s : State) (i : Nat) (d : DecodeStream) (p : MediaPacket) : fixed (assemblePacket s i d p) = fixed s := by
  simp [assemblePacket]

@[simp] theorem fixed_assembleMedia (s : State) (leg : Nat) (p : MediaPacket) : fixed (assembleMedia s leg p) = fixed s := by simp [assembleMedia]
@[simp] theorem fixed_markReady (s : State) : fixed (markReady s) = fixed s := by simp [markReady]

/-! ### Sound -/

@[simp] theorem fixed_arriveAudio (s : State) (l : Nat) (p : MediaPacket) (stamp : Nat) : fixed (arriveAudio s l p stamp) = fixed s := by
  simp [arriveAudio]

/-! ### Legs -/

@[simp] theorem fixed_updPart (s : State) (p : Nat) (f : Participant → Participant) : fixed (updPart s p f) = fixed s := by simp [updPart]

@[simp] theorem fixed_police (s : State) (l t n : Nat) : fixed (police s l t n).1 = fixed s := by
  unfold police
  dsimp only
  repeat' split
  all_goals simp

@[simp] theorem fixed_queueRtcp (s : State) (l p : Nat) (bytes : List Byte) : fixed (queueRtcp s l p bytes) = fixed s := by simp [queueRtcp]
@[simp] theorem fixed_queueNack (s : State) (l : Nat) (x : LegSpec) (seqs : List Nat) : fixed (queueNack s l x seqs) = fixed s := by simp [queueNack]
@[simp] theorem fixed_queuePli (s : State) (l : Nat) (x : LegSpec) : fixed (queuePli s l x) = fixed s := by simp [queuePli]
@[simp] theorem fixed_queueFir (s : State) (l : Nat) (x : LegSpec) (n : Nat) : fixed (queueFir s l x n) = fixed s := by simp [queueFir]

@[simp] theorem fixed_arriveFeedback (s : State) (p : Nat) (b : List Byte) : fixed (arriveFeedback s p b) = fixed s := by
  unfold arriveFeedback
  apply fixed_foldl
  intro s x
  split <;> simp

@[simp] theorem optionKeeps_takeFeedback (s : State) (p : Nat) (f : Feedback) : OptionKeeps s (takeFeedback s p f) := by
  unfold takeFeedback
  repeat' split
  all_goals simp

@[simp] theorem fixed_sendKeyframe (s : State) (sender : Nat) : fixed (sendKeyframe s sender) = fixed s := by
  unfold sendKeyframe
  repeat' split
  all_goals simp

@[simp] theorem fixed_setKeyframe (s : State) (sender : Nat) (k : KeyframeState) : fixed (setKeyframe s sender k) = fixed s := by simp [setKeyframe]

@[simp] theorem fixed_requestKeyframe (s : State) (sender : Nat) (fir : Bool) : fixed (requestKeyframe s sender fir) = fixed s := by
  unfold requestKeyframe
  split <;> simp

@[simp] theorem fixed_clearKeyframe (s : State) (sender : Nat) : fixed (clearKeyframe s sender) = fixed s := by
  unfold clearKeyframe
  split <;> simp

@[simp] theorem keeps_execKeyframeRequest (l : Nat) (fir : Bool) (s : State) : Keeps s (execKeyframeRequest l fir s) := by
  unfold execKeyframeRequest
  repeat' split
  all_goals simp
  all_goals exact (optionKeeps_takeFeedback _ _ _).fixed_eq ‹_›

@[simp] theorem keeps_execKeyframePendingExpiry (sender : Nat) (s : State) : Keeps s (execKeyframePendingExpiry sender s) := by
  unfold execKeyframePendingExpiry
  -- as in `keeps_execTrainingSetExpiry`
  obtain ⟨wait, e⟩ : ∃ n, 200000000 = n := ⟨_, rfl⟩
  rw [e]
  split
  · split
    · next h => simp [fixed_of_reach h]
    · simp
  · simp

@[simp] theorem fixed_cachePacket (s : State) (l seq : Nat) (p : MediaPacket) : fixed (cachePacket s l seq p) = fixed s := by
  unfold cachePacket
  split <;> simp

@[simp] theorem fixed_countTickBytes (s : State) (p n : Nat) : fixed (countTickBytes s p n) = fixed s := by simp [countTickBytes]
@[simp] theorem fixed_setRoc (s : State) (l n : Nat) : fixed (setRoc s l n) = fixed s := by simp [setRoc]

@[simp] theorem fixed_forwardTo (s : State) (l : Nat) (x : Leg) (pt : Nat) (p : MediaPacket) (fresh : Bool) :
    fixed (forwardTo s l x pt p fresh) = fixed s := by
  simp [forwardTo]

@[simp] theorem fixed_forwardAll (s : State) (src : Nat) (p : MediaPacket) (fresh : Bool) : fixed (forwardAll s src p fresh) = fixed s := by
  unfold forwardAll
  apply fixed_foldl
  intro s x
  split <;> simp

@[simp] theorem fixed_acceptMedia (s : State) (l : Nat) (p : MediaPacket) (bytes stamp : Nat) : fixed (acceptMedia s l p bytes stamp) = fixed s := by
  unfold acceptMedia
  split <;> simp

@[simp] theorem fixed_producePacket (s : State) (l : Nat) (timestamp : Nat) (marker : Bool) (head : Nat) (payload : List Byte) :
    fixed (producePacket s l timestamp marker head payload) = fixed s := by
  unfold producePacket
  split <;> simp

@[simp] theorem fixed_raisePoints (s : State) (rem : Nat) (l : List (Nat × Leg × Option Nat)) : fixed (raisePoints s rem l) = fixed s := by
  induction l generalizing s rem with
  | nil => rfl
  | cons e t ih =>
    obtain ⟨l, x, _ | r⟩ := e
    · simp [raisePoints, ih]
    · unfold raisePoints
      dsimp only
      split <;> simp [ih]

@[simp] theorem fixed_setTargets (s : State) : fixed (setTargets s) = fixed s := by simp [setTargets]

@[simp] theorem keeps_execLayerRaiseWait (l : Nat) (s : State) : Keeps s (execLayerRaiseWait l s) := by
  unfold execLayerRaiseWait
  repeat' split
  all_goals simp
  all_goals exact fixed_of_reach ‹_›

@[simp] theorem keeps_execNackUpTimer (l : Nat) (s : State) : Keeps s (execNackUpTimer l s) := by
  unfold execNackUpTimer
  repeat' split
  all_goals simp
  all_goals exact fixed_of_reach ‹_›

@[simp] theorem fixed_answerNack (s : State) (l seq : Nat) : fixed (answerNack s l seq) = fixed s := by
  unfold answerNack
  repeat' split
  all_goals simp

@[simp] theorem keeps_execNackReceived (l : Nat) (seqs : List Nat) (s : State) : Keeps s (execNackReceived l seqs s) := by
  unfold execNackReceived
  repeat' split
  all_goals simp
  all_goals exact (optionKeeps_takeFeedback _ _ _).fixed_eq ‹_›

@[simp] theorem keeps_execFeedbackReport (p : Nat) (items : List FeedbackItem) (s : State) : Keeps s (execFeedbackReport p items s) := by
  unfold execFeedbackReport
  repeat' split
  all_goals simp
  all_goals exact (optionKeeps_takeFeedback _ _ _).fixed_eq ‹_›

@[simp] theorem keeps_execFeedbackStale (p : Nat) (s : State) : Keeps s (execFeedbackStale p s) := by
  unfold execFeedbackStale
  repeat' split
  all_goals simp
  all_goals exact fixed_of_reach ‹_›

@[simp] theorem fixed_legsTick (s : State) : fixed (legsTick s) = fixed s := by simp [legsTick]

/-! ### The Mitten and its threads -/

@[simp] theorem fixed_withLane (s : State) (l : Nat) (x : Lane) : fixed (withLane s l x) = fixed s := by simp [withLane]
@[simp] theorem fixed_withThreadEntry (s : State) (t : Nat) (x : Thread) : fixed (withThreadEntry s t x) = fixed s := by simp [withThreadEntry]
@[simp] theorem fixed_updThread (s : State) (t : Nat) (f : Thread → Thread) : fixed (updThread s t f) = fixed s := by simp [updThread]
@[simp] theorem fixed_setReady (s : State) (cluster prio : Nat) (l : List Nat) : fixed (setReady s cluster prio l) = fixed s := by simp [setReady]
@[simp] theorem fixed_leaveList (s : State) (t : Nat) (x : Thread) : fixed (leaveList s t x) = fixed s := by simp [leaveList]

@[simp] theorem fixed_makeReady (s : State) (t reason ev : Nat) : fixed (makeReady s t reason ev) = fixed s := by
  unfold makeReady
  split <;> simp

@[simp] theorem fixed_freeThread (s : State) (t : Nat) : fixed (freeThread s t) = fixed s := by
  unfold freeThread
  split <;> simp

@[simp] theorem fixed_adopt (s : State) (t : Nat) : fixed (adopt s t) = fixed s := by
  unfold adopt
  split <;> simp

@[simp] theorem fixed_countWait (s : State) (x : Thread) (extra : Nat) : fixed (countWait s x extra) = fixed s := by simp [countWait]
@[simp] theorem fixed_dispatchNormal (s : State) (l t : Nat) (x : Thread) : fixed (dispatchNormal s l t x) = fixed s := by simp [dispatchNormal]
@[simp] theorem fixed_dispatchPriv (s : State) (l t : Nat) (x : Thread) : fixed (dispatchPriv s l t x) = fixed s := by simp [dispatchPriv]

@[simp] theorem fixed_scheduleLane (s : State) (l : Nat) (n : Nat) : fixed (scheduleLane s l n) = fixed s := by
  induction n generalizing s with
  | zero => rfl
  | succ n ih =>
    unfold scheduleLane
    dsimp only
    repeat' split
    all_goals simp [ih]

@[simp] theorem fixed_schedule (s : State) (cluster : Nat) : fixed (schedule s cluster) = fixed s := by simp [schedule]
@[simp] theorem fixed_scheduleAll (s : State) : fixed (scheduleAll s) = fixed s := by simp [scheduleAll]
@[simp] theorem fixed_leaveBank (s : State) (l : Nat) (k : BankId) : fixed (leaveBank s l k) = fixed s := by simp [leaveBank]
@[simp] theorem fixed_beginJob (s : State) (t ev : Nat) : fixed (beginJob s t ev) = fixed s := by simp [beginJob]
@[simp] theorem fixed_wakeEvent (s : State) (cluster ev : Nat) : fixed (wakeEvent s cluster ev) = fixed s := by simp [wakeEvent]
@[simp] theorem fixed_signalEvent (s : State) (cluster ev : Nat) : fixed (signalEvent s cluster ev) = fixed s := by simp [signalEvent]

@[simp] theorem fixed_waitThread (s : State) (t mode value next : Nat) : fixed (waitThread s t mode value next) = fixed s := by
  unfold waitThread
  split <;> simp

@[simp] theorem fixed_doWait (s : State) (l : Nat) (k : BankId) (mode value : Nat) : fixed (doWait s l k mode value) = fixed s := by
  unfold doWait
  dsimp only
  split <;> simp

@[simp] theorem fixed_cancelJob (s : State) (t : Nat) : fixed (cancelJob s t) = fixed s := by
  unfold cancelJob
  repeat' split
  all_goals simp

@[simp] theorem fixed_faultThread (s : State) (l : Nat) (k : BankId) (code : Nat) : fixed (faultThread s l k code).1 = fixed s := by
  unfold faultThread
  dsimp only
  repeat' split
  all_goals simp

@[simp] theorem fixed_resetLanes (s : State) (cluster : Nat) : fixed (resetLanes s cluster) = fixed s := by
  unfold resetLanes
  apply fixed_foldl
  intro s k
  have stop (s : State) : fixed ([(laneOf s (8 * cluster + k)).thread, (laneOf s (8 * cluster + k)).priv0, (laneOf s (8 * cluster + k)).priv1].foldl
      (fun s t => match t with
        | some t => cancelJob s t
        | none => s) s) = fixed s := by
    apply fixed_foldl
    intro s t
    split <;> simp
  exact (fixed_withLane _ _ _).trans (stop s)

@[simp] theorem fixed_createThread (s : State) (t entry cluster lane arg : Nat) (e : CodeEntry) (byHost : Bool) :
    fixed (createThread s t entry cluster lane arg e byHost) = fixed s := by
  simp [createThread]

@[simp] theorem fixed_createStatic (s : State) (x : StaticThread) : fixed (createStatic s x) = fixed s := by
  unfold createStatic
  split
  · rfl
  · apply fixed_foldl
    intro s c
    apply fixed_foldl
    intro s k
    split <;> simp

@[simp] theorem fixed_createStatics (s : State) : fixed (createStatics s) = fixed s := by simp [createStatics]

@[simp] theorem fixed_stopThread (s : State) (t : Nat) : fixed (stopThread s t) = fixed s := by
  unfold stopThread
  split <;> simp

@[simp] theorem fixed_recodeFaulted (s : State) : fixed (recodeFaulted s) = fixed s := by simp [recodeFaulted]

@[simp] theorem fixed_moveThreads (s : State) : fixed (moveThreads s) = fixed s := by
  unfold moveThreads
  rw [fixed_scheduleAll]
  apply fixed_foldl
  intro s e
  split
  · rfl
  · simp

@[simp] theorem fixed_mittenLateness (s : State) (ended : Nat) : fixed (mittenLateness s ended) = fixed s := by simp [mittenLateness]
@[simp] theorem fixed_delayTick (s : State) : fixed (delayTick s) = fixed s := by simp [delayTick]
@[simp] theorem fixed_freeEnded (s : State) : fixed (freeEnded s) = fixed s := by simp [freeEnded]

@[simp] theorem fixed_publishLane (s : State) (l : Nat) : fixed (publishLane s l) = fixed s := by
  unfold publishLane
  split <;> simp

@[simp] theorem fixed_publishDepths (s : State) : fixed (publishDepths s) = fixed s := by simp [publishDepths]
@[simp] theorem fixed_hatstandTick (s : State) (mix : Bool) : fixed (hatstandTick s mix) = fixed s := by simp [hatstandTick]

/-! ### Audio -/

@[simp] theorem fixed_updSource (s : State) (l : Nat) (f : AudioSource → AudioSource) : fixed (updSource s l f) = fixed s := by simp [updSource]
@[simp] theorem fixed_updMix (s : State) (r : Nat) (f : Mix → Mix) : fixed (updMix s r f) = fixed s := by simp [updMix]
@[simp] theorem fixed_resync (s : State) (x : AudioSource) : fixed (resync s x).1 = fixed s := by simp [resync]

@[simp] theorem fixed_placePacket (s : State) (l codec : Nat) (x : AudioSource) (p : ArrivedPacket) : fixed (placePacket s l codec x p) = fixed s := by
  unfold placePacket
  dsimp only
  repeat' split
  all_goals simp

@[simp] theorem keeps_execAudioPacket (l sequence : Nat) (s : State) : Keeps s (execAudioPacket l sequence s) := by
  unfold execAudioPacket
  repeat' split
  all_goals simp

@[simp] theorem keeps_execJbRecompute (l : Nat) (s : State) : Keeps s (execJbRecompute l s) := by
  unfold execJbRecompute
  repeat' split
  all_goals simp
  all_goals exact fixed_of_reach ‹_›

@[simp] theorem fixed_runDecode (s : State) (l codec : Nat) (x : AudioSource) (j : DecodeJob) (poisoned : Bool) :
    fixed (runDecode s l codec x j poisoned) = fixed s := by
  unfold runDecode
  dsimp only
  repeat' split
  all_goals simp

@[simp] theorem fixed_countFill (s : State) (x : AudioSource) : fixed (countFill s x).1 = fixed s := by
  unfold countFill
  split <;> simp

@[simp] theorem fixed_adjust (s : State) (l codec : Nat) (x : AudioSource) (t : Int) : fixed (adjust s l codec x t).1 = fixed s := by
  unfold adjust
  dsimp only
  repeat' split
  all_goals simp

@[simp] theorem fixed_sourcePeriod (s : State) (l codec : Nat) (x : AudioSource) (w : PlayWindow) : fixed (sourcePeriod s l codec x w).1 = fixed s := by
  unfold sourcePeriod
  dsimp only
  repeat' split
  all_goals simp

@[simp] theorem fixed_finishPeriod (s : State) (l : Nat) (x : AudioSource) (w : PlayWindow) (rest : List PlayWindow) :
    fixed (finishPeriod s l x w rest) = fixed s := by
  simp [finishPeriod]

@[simp] theorem fixed_finishPeriods (l n : Nat) (s : State) : fixed (finishPeriods l n s) = fixed s := by
  induction n generalizing s with
  | zero => rfl
  | succ n ih =>
    unfold finishPeriods
    repeat' split
    all_goals simp [ih]

@[simp] theorem fixed_beginPeriod (s : State) (l : Nat) (x : AudioSource) : fixed (beginPeriod s l x) = fixed s := by simp [beginPeriod]

@[simp] theorem keeps_execComfortNoise (l : Nat) (s : State) : Keeps s (execComfortNoise l s) := by
  unfold execComfortNoise
  split <;> simp

@[simp] theorem fixed_meterSource (s : State) (l k : Nat) (x : AudioSource) : fixed (meterSource s l k x) = fixed s := by simp [meterSource]

@[simp] theorem fixed_feedInstance (room : Nat) (acc : State × Mix) (k : Nat × Nat) : fixed (feedInstance room acc k).1 = fixed acc.1 := by
  simp [feedInstance]

@[simp] theorem fixed_fillFrames (s : State) (room : Nat) (m : Mix) (k i : Nat) : fixed (fillFrames s room m k i) = fixed s := by simp [fillFrames]
@[simp] theorem fixed_runMix (s : State) (room : Nat) (m : Mix) (k i : Nat) : fixed (runMix s room m k i) = fixed s := by simp [runMix]

@[simp] theorem fixed_meterRoom (s : State) (room k : Nat) : fixed (meterRoom s room k) = fixed s := by
  unfold meterRoom
  apply fixed_foldl
  intro s x
  split <;> simp

@[simp] theorem keeps_execMixPeriod (room cluster : Nat) (s : State) : Keeps s (execMixPeriod room cluster s) := by
  unfold execMixPeriod
  repeat' split
  all_goals simp

@[simp] theorem fixed_codecJob (s : State) (cluster : Nat) (f : CodecJob) : fixed (codecJob s cluster f) = fixed s := by
  unfold codecJob
  dsimp only
  repeat' split
  all_goals simp

@[simp] theorem keeps_execCodecBatchDone (cluster : Nat) (jobs : List CodecJob) (s : State) : Keeps s (execCodecBatchDone cluster jobs s) := by
  simp [execCodecBatchDone]

@[simp] theorem keeps_execTalkerExportWrite (room : Nat) (s : State) : Keeps s (execTalkerExportWrite room s) := by
  unfold execTalkerExportWrite
  repeat' split
  all_goals simp
  all_goals exact fixed_of_reach ‹_›

@[simp] theorem fixed_audioPeriod (s : State) : fixed (audioPeriod s) = fixed s := by simp [audioPeriod]
@[simp] theorem fixed_audioLateness (s : State) : fixed (audioLateness s) = fixed s := by simp [audioLateness]

@[simp] theorem fixed_dropMix (s : State) (room : Nat) (m : Mix) : fixed (dropMix s room m) = fixed s := by
  unfold dropMix
  dsimp only
  split <;> simp

@[simp] theorem fixed_loseCoded (s : State) (l : Nat) : fixed (loseCoded s l) = fixed s := by
  unfold loseCoded
  dsimp only
  repeat' split
  all_goals simp

@[simp] theorem fixed_dropSource (s : State) (l : Nat) : fixed (dropSource s l) = fixed s := by simp [dropSource]
@[simp] theorem fixed_cancelFrames (s : State) (room : Nat) : fixed (cancelFrames s room) = fixed s := by simp [cancelFrames]
@[simp] theorem fixed_resetAudio (s : State) (cluster : Nat) : fixed (resetAudio s cluster) = fixed s := by simp [resetAudio]
@[simp] theorem fixed_audioFailure (s : State) (cluster : Nat) : fixed (audioFailure s cluster) = fixed s := by simp [audioFailure]
@[simp] theorem fixed_endFormats (s : State) : fixed (endFormats s) = fixed s := by simp [endFormats]

/-! ### Pictures -/

@[simp] theorem fixed_writeBlock (s : State) (b k : Nat) (samples : List Nat) : fixed (writeBlock s b k samples) = fixed s := by
  unfold writeBlock
  split <;> simp

@[simp] theorem fixed_writeVector (s : State) (b k : Nat) (entry : List Byte) : fixed (writeVector s b k entry) = fixed s := by
  unfold writeVector
  split <;> simp

@[simp] theorem fixed_addRow (s : State) (b r intra inter bits concealed : Nat) : fixed (addRow s b r intra inter bits concealed) = fixed s := by
  unfold addRow
  split <;> simp

@[simp] theorem fixed_clearStatistics (s : State) (b : Nat) : fixed (clearStatistics s b) = fixed s := by
  unfold clearStatistics
  split <;> simp

/-! ### Video decode -/

@[simp] theorem fixed_updBuffer (s : State) (b : Nat) (f : Buffer → Buffer) : fixed (updBuffer s b f) = fixed s := by simp [updBuffer]
@[simp] theorem fixed_sweepBuffers (s : State) : fixed (sweepBuffers s) = fixed s := by simp [sweepBuffers]
@[simp] theorem fixed_takeHold (s : State) (b : Nat) : fixed (takeHold s b) = fixed s := by simp [takeHold]
@[simp] theorem fixed_dropHold (s : State) (b : Nat) : fixed (dropHold s b) = fixed s := by simp [dropHold]
@[simp] theorem fixed_freeBuffers (s : State) : fixed (freeBuffers s) = fixed s := by simp [freeBuffers]
@[simp] theorem fixed_dropCharges (s : State) (kind index : Nat) : fixed (dropCharges s kind index) = fixed s := by simp [dropCharges]

@[simp] theorem fixed_outputPicture (s : State) (i pic : Nat) : fixed (outputPicture s i pic) = fixed s := by
  unfold outputPicture
  repeat' split
  all_goals simp

@[simp] theorem fixed_applyMarks (s : State) (i pic : Nat) (m : Marking) : fixed (applyMarks s i pic m) = fixed s := by simp [applyMarks]
@[simp] theorem fixed_clearMarks (s : State) (i : Nat) : fixed (clearMarks s i) = fixed s := by simp [clearMarks]
@[simp] theorem fixed_standIns (s : State) (leg n : Nat) : fixed (standIns s leg n) = fixed s := by simp [standIns]
@[simp] theorem fixed_quietDecode (s : State) (i : Nat) : fixed (quietDecode s i) = fixed s := by simp [quietDecode]

@[simp] theorem fixed_beginReady (s : State) (i : Nat) (n : Nat) : fixed (beginReady s i n) = fixed s := by
  induction n generalizing s with
  | zero => rfl
  | succ n ih =>
    unfold beginReady
    dsimp only
    repeat' split
    all_goals simp [ih]

@[simp] theorem fixed_nextFrameOf (s : State) (i : Nat) : fixed (nextFrameOf s i) = fixed s := by simp [nextFrameOf]

@[simp] theorem fixed_openFrame (s : State) (i : Nat) (d : DecodeStream) (j : DecodeFrame) : fixed (openFrame s i d j).1 = fixed s := by
  unfold openFrame
  dsimp only
  split <;> simp

@[simp] theorem fixed_completeFrame (s : State) (i : Nat) (j : DecodeFrame) (b : Nat) : fixed (completeFrame s i j b) = fixed s := by
  simp [completeFrame]

@[simp] theorem fixed_dropDecodeFrame (s : State) (i : Nat) : fixed (dropDecodeFrame s i) = fixed s := by
  unfold dropDecodeFrame
  repeat' split
  all_goals simp

@[simp] theorem fixed_resetDecode (s : State) (cluster : Nat) : fixed (resetDecode s cluster) = fixed s := by simp [resetDecode]
@[simp] theorem fixed_decodeFailure (s : State) (cluster : Nat) : fixed (decodeFailure s cluster) = fixed s := by simp [decodeFailure]

@[simp] theorem fixed_takeFrame (s : State) (i : Nat) (d : DecodeStream) (a : AsmFrame) (tr : Nat) (f : CodedFrame) :
    fixed (takeFrame s i d a tr f) = fixed s := by
  unfold takeFrame
  split <;> simp

@[simp] theorem keeps_execFrameReady (i : Nat) (f : CodedFrame) (s : State) : Keeps s (execFrameReady i f s) := by
  unfold execFrameReady
  repeat' split
  all_goals simp

@[simp] theorem fixed_writeDecoded (s : State) (d : DecodeStream) (j : DecodeFrame) (out : Nat) (p : RowPlace) (x : Nat × BlockWork × Bool) :
    fixed (writeDecoded s d j out p x) = fixed s := by
  simp [writeDecoded]

@[simp] theorem fixed_endRow (s : State) (i : Nat) (d : DecodeStream) (j : DecodeFrame) (out : Nat) (w : RowWork) (n : Nat) :
    fixed (endRow s i d j out w n) = fixed s := by
  simp [endRow]

@[simp] theorem fixed_abandonRow (s : State) (i : Nat) (d : DecodeStream) (j : DecodeFrame) (out : Nat) (w : RowWork) (n : Nat) :
    fixed (abandonRow s i d j out w n) = fixed s := by
  simp [abandonRow]

@[simp] theorem fixed_strayWrites (s : State) (out : Nat) (writes : List (Nat × List Byte)) : fixed (strayWrites s out writes).1 = fixed s := by
  unfold strayWrites
  dsimp only
  split <;> simp

@[simp] theorem fixed_runRow (s : State) (i : Nat) (d : DecodeStream) (j : DecodeFrame) (out : Nat) (w : RowWork) :
    fixed (runRow s i d j out w) = fixed s := by
  simp [runRow]

@[simp] theorem keeps_execDecodeRowJob (i : Nat) (w : RowWork) (s : State) : Keeps s (execDecodeRowJob i w s) := by
  unfold execDecodeRowJob
  split
  · simp
  · split
    · simp
    · next d _ _ j _ =>
      have opened := fixed_openFrame s i d j
      repeat' split
      all_goals simp_all

@[simp] theorem fixed_activateDecode (s : State) (i : Nat) : fixed (activateDecode s i) = fixed s := by
  unfold activateDecode
  split <;> simp

@[simp] theorem fixed_decodeLateness (s : State) (n : Nat) : fixed (decodeLateness s n) = fixed s := by simp [decodeLateness]

@[simp] theorem fixed_drainDecode (s : State) (i : Nat) : fixed (drainDecode s i) = fixed s := by
  unfold drainDecode
  dsimp only
  split <;> simp

@[simp] theorem fixed_endDecodes (s : State) : fixed (endDecodes s) = fixed s := by simp [endDecodes]

/-! ### The Veil -/

@[simp] theorem fixed_updComp (s : State) (i : Nat) (f : Composite → Composite) : fixed (updComp s i f) = fixed s := by simp [updComp]

@[simp] theorem fixed_takePicture (i : Nat) (l : DisplayList) (s : State) (x : Layer) : fixed (takePicture i l s x) = fixed s := by
  unfold takePicture
  split <;> simp

@[simp] theorem fixed_dropShows (s : State) (shows : List (Nat × LayerShow)) : fixed (dropShows s shows) = fixed s := by simp [dropShows]
@[simp] theorem fixed_takePictures (s : State) (i : Nat) (l : DisplayList) : fixed (takePictures s i l) = fixed s := by simp [takePictures]

@[simp] theorem fixed_lineBuffers (s : State) (i : Nat) (l : DisplayList) : fixed (lineBuffers s i l) = fixed s := by
  unfold lineBuffers
  split <;> simp

@[simp] theorem fixed_quietComposite (s : State) (i : Nat) : fixed (quietComposite s i) = fixed s := by
  unfold quietComposite
  split <;> simp

@[simp] theorem fixed_endFrame (s : State) (i : Nat) : fixed (endFrame s i) = fixed s := by simp [endFrame]

@[simp] theorem fixed_countWithheld (s : State) (i : Nat) (j : CompFrame) (run : Bool) : fixed (countWithheld s i j run) = fixed s := by
  simp [countWithheld]

@[simp] theorem fixed_withhold (s : State) (i : Nat) (j : CompFrame) (run : Bool) : fixed (withhold s i j run) = fixed s := by simp [withhold]

@[simp] theorem fixed_publish (s : State) (i : Nat) (c : Composite) (j : CompFrame) : fixed (publish s i c j) = fixed s := by
  unfold publish
  split <;> simp

@[simp] theorem fixed_verdict (s : State) (i : Nat) (c : Composite) (j : CompFrame) : fixed (verdict s i c j) = fixed s := by simp [verdict]

@[simp] theorem fixed_beginComposition (s : State) (i : Nat) (c : Composite) (l : SignedList) (slate : Bool) :
    fixed (beginComposition s i c l slate) = fixed s := by
  unfold beginComposition
  dsimp only
  split <;> simp

@[simp] theorem fixed_adoptList (s : State) (i : Nat) : fixed (adoptList s i) = fixed s := by simp [adoptList]

@[simp] theorem fixed_revalidate (s : State) (i : Nat) : fixed (revalidate s i) = fixed s := by
  unfold revalidate
  repeat' split
  all_goals simp

@[simp] theorem fixed_compositeBoundary (s : State) (i : Nat) : fixed (compositeBoundary s i) = fixed s := by
  unfold compositeBoundary
  dsimp only
  repeat' split
  all_goals simp

@[simp] theorem keeps_execCompositeFrameBoundary (i : Nat) (s : State) : Keeps s (execCompositeFrameBoundary i s) := by
  unfold execCompositeFrameBoundary
  split <;> simp

@[simp] theorem keeps_execSignaturesComputed (i veil : Nat) (s : State) : Keeps s (execSignaturesComputed i veil s) := by
  unfold execSignaturesComputed
  dsimp only
  repeat' split
  all_goals simp

@[simp] theorem fixed_dropComposite (s : State) (i : Nat) : fixed (dropComposite s i) = fixed s := by
  unfold dropComposite
  split <;> simp

@[simp] theorem fixed_dropWaiting (s : State) (i g : Nat) : fixed (dropWaiting s i g) = fixed s := by
  unfold dropWaiting
  split <;> simp

@[simp] theorem fixed_resetVeil (s : State) (veil : Nat) : fixed (resetVeil s veil) = fixed s := by simp [resetVeil]
@[simp] theorem fixed_veilFailure (s : State) (veil : Nat) : fixed (veilFailure s veil) = fixed s := by simp [veilFailure]

@[simp] theorem fixed_writeBand (s : State) (g : Generation) (c : CompositeSpec) (j : CompFrame) (w : BandWork) :
    fixed (writeBand s g c j w) = fixed s := by
  simp [writeBand]

@[simp] theorem keeps_execVeilBandJob (i : Nat) (w : BandWork) (s : State) : Keeps s (execVeilBandJob i w s) := by
  unfold execVeilBandJob
  repeat' split
  all_goals simp

@[simp] theorem keeps_execVisorFail (i : Nat) (s : State) : Keeps s (execVisorFail i s) := by
  unfold execVisorFail
  split <;> simp

@[simp] theorem fixed_activateComposite (s : State) (i : Nat) : fixed (activateComposite s i) = fixed s := by simp [activateComposite]
@[simp] theorem fixed_compositeLateness (s : State) (n : Nat) : fixed (compositeLateness s n) = fixed s := by simp [compositeLateness]

@[simp] theorem fixed_drainComposite (s : State) (i : Nat) : fixed (drainComposite s i) = fixed s := by
  unfold drainComposite
  split <;> simp

@[simp] theorem fixed_endComposites (s : State) : fixed (endComposites s) = fixed s := by simp [endComposites]

/-! ### Video encode -/

@[simp] theorem fixed_updEncode (s : State) (i : Nat) (f : EncodeStream → EncodeStream) : fixed (updEncode s i f) = fixed s := by simp [updEncode]

@[simp] theorem fixed_sendUnit (s : State) (l : Nat) (timestamp : Nat) (packets : List (Nat × List Byte)) :
    fixed (sendUnit s l timestamp packets) = fixed s := by
  simp [sendUnit]

@[simp] theorem fixed_sendFrameOf (s : State) (i : Nat) (e : EncodeStream) (j : EncodeFrame) (coded : List CodedLayer) :
    fixed (sendFrameOf s i e j coded) = fixed s := by
  simp [sendFrameOf]

@[simp] theorem fixed_encodeMarks (s : State) (i : Nat) : fixed (encodeMarks s i) = fixed s := by
  unfold encodeMarks
  split <;> simp

@[simp] theorem fixed_quietEncode (s : State) (i : Nat) : fixed (quietEncode s i) = fixed s := by
  unfold quietEncode
  split <;> simp

@[simp] theorem fixed_finishFrame (s : State) (i : Nat) (e : EncodeStream) (j : EncodeFrame) (coded : Bool) :
    fixed (finishFrame s i e j coded) = fixed s := by
  simp [finishFrame]

@[simp] theorem fixed_takeBuffers (s : State) (i : Nat) (e : EncodeStream) (n : Nat) : fixed (takeBuffers s i e n).1 = fixed s := by
  induction n generalizing s with
  | zero => rfl
  | succ n ih =>
    unfold takeBuffers
    split
    · rfl
    · simp [ih]

@[simp] theorem fixed_startEncode (s : State) (i : Nat) (stamp : Nat) (sched : Schedule) : fixed (startEncode s i stamp sched) = fixed s := by
  unfold startEncode
  dsimp only
  repeat' split
  all_goals simp

@[simp] theorem keeps_execEncodeFrameStart (i : Nat) (s : State) : Keeps s (execEncodeFrameStart i s) := by
  unfold execEncodeFrameStart
  split <;> simp

@[simp] theorem fixed_startWaiting (s : State) (i : Nat) (n : Nat) : fixed (startWaiting s i n) = fixed s := by
  induction n generalizing s with
  | zero => rfl
  | succ n ih =>
    unfold startWaiting
    repeat' split
    all_goals simp [ih]

@[simp] theorem fixed_endEncode (s : State) (i : Nat) (e : EncodeStream) (j : EncodeFrame) (coded : Bool) :
    fixed (endEncode s i e j coded) = fixed s := by
  simp [endEncode]

@[simp] theorem fixed_dropEncode (s : State) (i : Nat) (counted : Bool) : fixed (dropEncode s i counted) = fixed s := by
  unfold dropEncode
  repeat' split
  all_goals simp

@[simp] theorem fixed_resetEncode (s : State) (cluster : Nat) : fixed (resetEncode s cluster) = fixed s := by simp [resetEncode]
@[simp] theorem fixed_encodeFailure (s : State) (cluster : Nat) : fixed (encodeFailure s cluster) = fixed s := by simp [encodeFailure]

@[simp] theorem fixed_writeCoded (e : EncodeStream) (p : JobPlace) (out : Nat) (s : State) (b : CodedBlock) :
    fixed (writeCoded e p out s b) = fixed s := by
  simp [writeCoded]

@[simp] theorem fixed_rowCoded (s : State) (i : Nat) (e : EncodeStream) (j : EncodeFrame) (p : JobPlace) (f : LayerFrame) (w : EncodeWork)
    (searched : Nat) : fixed (rowCoded s i e j p f w searched) = fixed s := by
  simp [rowCoded]

@[simp] theorem fixed_strayEncodeWrites (s : State) (out : Nat) (writes : List (Nat × List Byte)) :
    fixed (strayEncodeWrites s out writes).1 = fixed s := by
  unfold strayEncodeWrites
  dsimp only
  split <;> simp

@[simp] theorem fixed_runEncodeRow (s : State) (i : Nat) (e : EncodeStream) (j : EncodeFrame) (f : LayerFrame) (w : EncodeWork) :
    fixed (runEncodeRow s i e j f w) = fixed s := by
  simp [runEncodeRow]

@[simp] theorem keeps_execEncodeRowJob (i : Nat) (w : EncodeWork) (s : State) : Keeps s (execEncodeRowJob i w s) := by
  unfold execEncodeRowJob
  repeat' split
  all_goals simp

@[simp] theorem fixed_activateEncode (s : State) (i : Nat) : fixed (activateEncode s i) = fixed s := by simp [activateEncode]
@[simp] theorem fixed_encodeTick (s : State) : fixed (encodeTick s) = fixed s := by simp [encodeTick]
@[simp] theorem fixed_encodeLateness (s : State) (n : Nat) : fixed (encodeLateness s n) = fixed s := by simp [encodeLateness]
@[simp] theorem fixed_drainEncode (s : State) (i : Nat) : fixed (drainEncode s i) = fixed s := by simp [drainEncode]
@[simp] theorem fixed_endEncodes (s : State) : fixed (endEncodes s) = fixed s := by simp [endEncodes]

/-! ### The ciphers and the Palm -/

@[simp] theorem fixed_withCipher (s : State) (f : CipherState → CipherState) : fixed (withCipher s f) = fixed s := by simp [withCipher]
@[simp] theorem fixed_setSlot (s : State) (k : Nat) (x : PalmSlot) : fixed (setSlot s k x) = fixed s := by simp [setSlot]

@[simp] theorem fixed_beginLoad (s : State) (k entry version usage refs : Nat) (pinned : Bool) :
    fixed (beginLoad s k entry version usage refs pinned) = fixed s := by
  simp [beginLoad]

@[simp] theorem fixed_serveWaits (s : State) (cluster : Nat) (l : List WaitingMiss) : fixed (serveWaits s cluster l) = fixed s := by
  induction l generalizing s with
  | nil => rfl
  | cons w rest ih =>
    unfold serveWaits
    split
    · simp [ih]
    · split
      · rfl
      · simp [ih]

@[simp] theorem fixed_dropRef (s : State) (k : Nat) : fixed (dropRef s k) = fixed s := by simp [dropRef]
@[simp] theorem fixed_staleEntry (s : State) (entry version : Nat) : fixed (staleEntry s entry version) = fixed s := by simp [staleEntry]

@[simp] theorem fixed_pinEntry (s : State) (entry : Nat) : fixed (pinEntry s entry) = fixed s := by
  unfold pinEntry
  dsimp only
  split <;> simp

@[simp] theorem fixed_putKey (s : State) (entry : Nat) (k : KeyEntry) : fixed (putKey s entry k) = fixed s := by simp [putKey]
@[simp] theorem fixed_releaseKey (s : State) (entry : Nat) : fixed (releaseKey s entry) = fixed s := by simp [releaseKey]
@[simp] theorem fixed_replaceKey (s : State) (entry : Nat) (k : KeyEntry) : fixed (replaceKey s entry k) = fixed s := by simp [replaceKey]
@[simp] theorem fixed_applyReplacements (s : State) : fixed (applyReplacements s) = fixed s := by simp [applyReplacements]
@[simp] theorem fixed_setSrtp (s : State) (l : Nat) (x : SrtpState) : fixed (setSrtp s l x) = fixed s := by simp [setSrtp]
@[simp] theorem fixed_setSrtpCtx (s : State) (l : Nat) (rtx : Bool) (x : SrtpState) : fixed (setSrtpCtx s l rtx x) = fixed s := by simp [setSrtpCtx]

@[simp] theorem fixed_writeCompletion (s : State) (port completion status : Nat) (untrusted missed : Bool) (core stall : Nat) :
    fixed (writeCompletion s port completion status untrusted missed core stall) = fixed s := by
  simp [writeCompletion]

@[simp] theorem fixed_acceptJob (s : State) (cluster port : Nat) (d : JobDesc) (purpose : JobPurpose) (entry version : Nat) :
    fixed (acceptJob s cluster port d purpose entry version) = fixed s := by
  unfold acceptJob
  dsimp only
  repeat' split
  all_goals simp

@[simp] theorem fixed_answerJob (s : State) (j : CipherJob) : fixed (answerJob s j) = fixed s := by
  unfold answerJob
  split <;> simp

@[simp] theorem fixed_jobOutput (s : State) (j : CipherJob) : fixed (jobOutput s j) = fixed s := by simp [jobOutput]

@[simp] theorem fixed_removeJob (s : State) (j : CipherJob) : fixed (removeJob s j) = fixed s := by
  unfold removeJob
  split <;> simp

@[simp] theorem fixed_countLoad (s : State) : fixed (countLoad s) = fixed s := by simp [countLoad]
@[simp] theorem fixed_endLoad (s : State) (k : Nat) : fixed (endLoad s k) = fixed s := by simp [endLoad]
@[simp] theorem fixed_deliverShares (s : State) (k : Nat) : fixed (deliverShares s k) = fixed s := by simp [deliverShares]
@[simp] theorem fixed_failLoad (s : State) (k entry : Nat) (free : Bool) : fixed (failLoad s k entry free) = fixed s := by simp [failLoad]
@[simp] theorem keeps_execPalmReshare (cluster slot : Nat) (s : State) : Keeps s (execPalmReshare cluster slot s) := by simp [execPalmReshare]
@[simp] theorem fixed_cipherTick (s : State) : fixed (cipherTick s) = fixed s := by simp [cipherTick]

/-! ### Classification -/

@[simp] theorem fixed_withIngress (s : State) (f : IngressState → IngressState) : fixed (withIngress s f) = fixed s := by simp [withIngress]

@[simp] theorem optionKeeps_insertEntry (s : State) (path kind target : Nat) (key : List Byte) : OptionKeeps s (insertEntry s path kind target key) := by
  unfold insertEntry
  intro t h
  obtain ⟨k, -, rfl⟩ := Option.map_eq_some_iff.1 h
  simp

@[simp] theorem fixed_removeEntries (s : State) (kind target : Nat) : fixed (removeEntries s kind target) = fixed s := by simp [removeEntries]

@[simp] theorem fixed_adoptRules (s : State) (old new_ : List ClassRule) (gen : Nat) : fixed (adoptRules s old new_ gen) = fixed s := by
  unfold adoptRules
  apply fixed_foldl
  intro s x
  split <;> simp

@[simp] theorem fixed_freeOldRules (s : State) : fixed (freeOldRules s) = fixed s := by simp [freeOldRules]
@[simp] theorem fixed_recirculate (s : State) (x : Recirculated) : fixed (recirculate s x) = fixed s := by simp [recirculate]

@[simp] theorem fixed_deliverIngress (s : State) (bytes : List Byte) (source reason port context stamp : Nat) :
    fixed (deliverIngress s bytes source reason port context stamp) = fixed s := by
  unfold deliverIngress
  split
  · next h => simp [(optionKeeps_deliver _ _ _ _ _ _ _).fixed_eq h]
  · simp

/-! ### The Gauntlet -/

@[simp] theorem fixed_updTunnel (s : State) (t : Nat) (f : Tunnel → Tunnel) : fixed (updTunnel s t f) = fixed s := by simp [updTunnel]
@[simp] theorem fixed_setFloor (s : State) (t v : Nat) : fixed (setFloor s t v) = fixed s := by simp [setFloor]
@[simp] theorem fixed_activateTunnel (s : State) (t : Nat) : fixed (activateTunnel s t) = fixed s := by simp [activateTunnel]

@[simp] theorem fixed_queueTunnel (s : State) (t : Nat) (label : Nat) (leg : Option Nat) (bytes : List Byte) :
    fixed (queueTunnel s t label leg bytes) = fixed s := by
  unfold queueTunnel
  split <;> simp

@[simp] theorem fixed_buildFrame (s : State) (t : Nat) (slot : Nat) (probe : Bool) : fixed (buildFrame s t slot probe) = fixed s := by
  unfold buildFrame
  split <;> simp

@[simp] theorem fixed_buildTick (s : State) (t tr k : Nat) : fixed (buildTick s t tr k) = fixed s := by
  unfold buildTick
  split <;> simp

@[simp] theorem fixed_releaseTunnel (s : State) (t tr n : Nat) : fixed (releaseTunnel s t tr n) = fixed s := by
  unfold releaseTunnel
  split <;> simp

@[simp] theorem fixed_sealFrame (s : State) (t seq : Nat) (done : Bool) (sealedArea : List Byte) :
    fixed (sealFrame s t seq done sealedArea) = fixed s := by
  unfold sealFrame
  split <;> simp

@[simp] theorem fixed_sendTunnelFrame (s : State) (t : Nat) (x : Tunnel) (b : BuiltFrame) : fixed (sendTunnelFrame s t x b) = fixed s := by
  simp [sendTunnelFrame]

@[simp] theorem keeps_execTunnelFrameSlot (t : Nat) (s : State) : Keeps s (execTunnelFrameSlot t s) := by
  unfold execTunnelFrameSlot
  repeat' split
  all_goals simp
  all_goals exact fixed_of_reach ‹_›

@[simp] theorem fixed_rejectFrame (s : State) (t : Nat) (f : Fld) : fixed (rejectFrame s t f) = fixed s := by simp [rejectFrame]

@[simp] theorem fixed_takeArrival (s : State) (a : TunnelArrival) (x : Tunnel) : fixed (takeArrival s a x) = fixed s := by
  unfold takeArrival
  dsimp only
  repeat' split
  all_goals simp

@[simp] theorem keeps_execGauntletFrameRx (port stamp : Nat) (frame : List Byte) (s : State) : Keeps s (execGauntletFrameRx port stamp frame s) := by
  unfold execGauntletFrameRx
  dsimp only
  repeat' split
  all_goals simp

@[simp] theorem fixed_deliverInner (s : State) (t label stamp port gen : Nat) (bytes : List Byte) :
    fixed (deliverInner s t label stamp port gen bytes) = fixed s := by
  unfold deliverInner
  split
  · simp
  · split
    · next h => simp [(optionKeeps_deliver _ _ _ _ _ _ _).fixed_eq h]
    · simp

@[simp] theorem fixed_takeProbe (s : State) (t rx : Nat) (b : List Byte) : fixed (takeProbe s t rx b) = fixed s := by simp [takeProbe]

@[simp] theorem fixed_losePartial (s : State) (t : Nat) : fixed (losePartial s t) = fixed s := by
  unfold losePartial
  split <;> simp

@[simp] theorem fixed_takeSegment (t stamp port gen : Nat) (follows : Bool) (s : State) (g : Segment) :
    fixed (takeSegment t stamp port gen follows s g) = fixed s := by
  unfold takeSegment
  split
  · rfl
  split
  · simp
  split
  · simp
  dsimp only
  generalize (s.gauntlet.tunnels.get t).bind (·.reassembly) = held
  cases held <;> simp

@[simp] theorem fixed_takeSegments (s : State) (t stamp port gen : Nat) (follows : Bool) (l : List Segment) :
    fixed (takeSegments s t stamp port gen follows l) = fixed s := by
  induction l generalizing s follows with
  | nil => rfl
  | cons g l ih => simp [takeSegments, ih]

@[simp] theorem fixed_promote (s : State) (t : Nat) (x : Tunnel) : fixed (promote s t x) = fixed s := by simp [promote]

@[simp] theorem fixed_validFrame (s : State) (t : Nat) (x : Tunnel) (epoch seq : Nat) (peerUp : Bool) (stamp boundary : Nat) :
    fixed (validFrame s t x epoch seq peerUp stamp boundary) = fixed s := by
  simp [validFrame]

@[simp] theorem fixed_acceptTunnelFrame (s : State) (t epoch seq : Nat) (peerUp : Bool) (stamp boundary port gen : Nat) (area : List Byte) :
    fixed (acceptTunnelFrame s t epoch seq peerUp stamp boundary port gen area) = fixed s := by
  unfold acceptTunnelFrame
  split <;> simp

@[simp] theorem keeps_execTunnelDown (t : Nat) (s : State) : Keeps s (execTunnelDown t s) := by
  unfold execTunnelDown
  split <;> simp

@[simp] theorem fixed_installEpoch (s : State) (t : Nat) (k : KeyEntry) (entry : Nat) : fixed (installEpoch s t k entry) = fixed s := by
  simp [installEpoch]

@[simp] theorem fixed_endTokens (s : State) (t status detail result : Nat) : fixed (endTokens s t status detail result) = fixed s := by
  simp [endTokens]

@[simp] theorem keeps_execOldEpochExpiry (t : Nat) (s : State) : Keeps s (execOldEpochExpiry t s) := by
  unfold execOldEpochExpiry
  dsimp only
  repeat' split
  all_goals simp

@[simp] theorem fixed_stopTunnels (s : State) : fixed (stopTunnels s) = fixed s := by simp [stopTunnels]
@[simp] theorem fixed_freeTunnel (s : State) (t : Nat) (x : Tunnel) : fixed (freeTunnel s t x) = fixed s := by simp [freeTunnel]

/-! ### Ingress -/

@[simp] theorem fixed_withCuff (s : State) (m : Nat) (c : Cuff) : fixed (withCuff s m c) = fixed s := by simp [withCuff]
@[simp] theorem fixed_writeCuff (s : State) (m : Nat) (p : Preface) (b : List Byte) : fixed (writeCuff s m p b) = fixed s := by simp [writeCuff]
@[simp] theorem keeps_execCuffBankSwitch (m : Nat) (s : State) : Keeps s (execCuffBankSwitch m s) := by simp [execCuffBankSwitch]

@[simp] theorem fixed_countCorrected (s : State) (m : Nat) (ws : List (Bool × CuffWord)) (errors : List (Nat × Nat)) :
    fixed (countCorrected s m ws errors) = fixed s := by
  unfold countCorrected
  apply fixed_foldl
  intro s x
  split <;> simp

@[simp] theorem fixed_takeException (s : State) (x : PacketContext) (reason : Nat) : fixed (takeException s x reason) = fixed s := by
  simp [takeException]

@[simp] theorem fixed_submitFor (s : State) (p : JobPurpose) : fixed (submitFor s p) = fixed s := by simp [submitFor]
@[simp] theorem fixed_takeRtp (s : State) (l n stamp gen : Nat) (u : List Byte) : fixed (takeRtp s l n stamp gen u) = fixed s := by simp [takeRtp]

@[simp] theorem fixed_takeRtcp (s : State) (p n stamp : Nat) (u : List Byte) : fixed (takeRtcp s p n stamp u) = fixed s := by
  unfold takeRtcp
  split <;> simp

@[simp] theorem fixed_takeParticipant (s : State) (x : PacketContext) (p : Nat) (u : List Byte) (n : Nat) :
    fixed (takeParticipant s x p u n) = fixed s := by
  unfold takeParticipant
  repeat' split
  all_goals simp

@[simp] theorem fixed_arriveTunnel (s : State) (x : PacketContext) (t : Nat) (frame : List Byte) : fixed (arriveTunnel s x t frame) = fixed s := by
  simp [arriveTunnel]

@[simp] theorem fixed_takeResult (s : State) (x : PacketContext) (p : Parsed) (e : ClassEntry) : fixed (takeResult s x p e) = fixed s := by
  unfold takeResult
  split <;> simp

@[simp] theorem fixed_withFragment (s : State) (k : Nat) (e : FragEntry) : fixed (withFragment s k e) = fixed s := by simp [withFragment]

@[simp] theorem fixed_closeFragment (s : State) (k : Nat) (e : FragEntry) (f : Fld) : fixed (closeFragment s k e f) = fixed s := by
  simp [closeFragment]

@[simp] theorem fixed_deliverDatagram (s : State) (k : Nat) (e : FragEntry) (x : PacketContext) : fixed (deliverDatagram s k e x) = fixed s := by
  unfold deliverDatagram
  split <;> simp

@[simp] theorem fixed_addFragment (s : State) (k : Nat) (e : FragEntry) (offset : Nat) (more : Bool) (data : List Byte) (x : PacketContext) :
    fixed (addFragment s k e offset more data x) = fixed s := by
  simp [addFragment]

@[simp] theorem fixed_firstFragment (s : State) (x : PacketContext) (p : Parsed) (f : Nat × Nat × Bool × Nat) (c : ClassEntry) :
    fixed (firstFragment s x p f c) = fixed s := by
  unfold firstFragment
  dsimp only
  repeat' split
  all_goals simp

@[simp] theorem keeps_execFragTimeout (k : Nat) (s : State) : Keeps s (execFragTimeout k s) := by
  unfold execFragTimeout
  repeat' split
  all_goals simp
  all_goals exact fixed_of_reach ‹_›

@[simp] theorem fixed_parsePacket (s : State) (x : PacketContext) (g : Generation) : fixed (parsePacket s x g) = fixed s := by
  unfold parsePacket
  dsimp only
  repeat' split
  all_goals simp

@[simp] theorem fixed_parseRead (s : State) (p : Preface) (boundary : Nat) (b : List Byte) (poisoned : Bool) :
    fixed (parseRead s p boundary b poisoned) = fixed s := by
  simp [parseRead]

@[simp] theorem fixed_resyncCuff (s : State) (m : Nat) (c : Cuff) : fixed (resyncCuff s m c) = fixed s := by simp [resyncCuff]

@[simp] theorem keeps_execFrameParse (m : Nat) (r : ParseReads) (s : State) : Keeps s (execFrameParse m r s) := by
  unfold execFrameParse
  dsimp only
  repeat' split
  all_goals simp

@[simp] theorem fixed_takeTunnelMedia (s : State) (x : Recirculated) (layers : MediaPacket) : fixed (takeTunnelMedia s x layers) = fixed s := by
  unfold takeTunnelMedia
  dsimp only
  split <;> simp

@[simp] theorem keeps_execRecirculated (engine : Nat) (r : InnerReads) (s : State) : Keeps s (execRecirculated engine r s) := by
  unfold execRecirculated
  split <;> simp

@[simp] theorem fixed_resetIngress (s : State) (engine : Nat) : fixed (resetIngress s engine) = fixed s := by simp [resetIngress]
@[simp] theorem fixed_ingressTick (s : State) : fixed (ingressTick s) = fixed s := by simp [ingressTick]

/-! ### The consumers of a packet -/

@[simp] theorem fixed_srtpSent (s : State) (l : Nat) (done : Bool) (protected_ : List Byte) : fixed (srtpSent s l done protected_) = fixed s := by
  unfold srtpSent
  split <;> simp

@[simp] theorem fixed_srtpAccepted (s : State) (l roc : Nat) (rtx : Bool) (bytes stamp : Nat) (p : MediaPacket) :
    fixed (srtpAccepted s l roc rtx bytes stamp p) = fixed s := by
  simp [srtpAccepted]

@[simp] theorem fixed_consume (s : State) (p : JobPurpose) (status : Nat) (untrusted : Bool) (out : List Byte) (layers : MediaPacket) :
    fixed (consume s p status untrusted out layers) = fixed s := by
  unfold consume
  repeat' split
  all_goals simp

@[simp] theorem fixed_countStatus (s : State) (status : Nat) : fixed (countStatus s status) = fixed s := by
  unfold countStatus
  split <;> simp

@[simp] theorem fixed_consumeNone (s : State) (p : JobPurpose) (status : Nat) : fixed (consumeNone s p status) = fixed s := by simp [consumeNone]
@[simp] theorem fixed_failJob (s : State) (j : CipherJob) (status : Nat) : fixed (failJob s j status) = fixed s := by simp [failJob]
@[simp] theorem fixed_failJobs (s : State) (status : Nat) (l : List CipherJob) : fixed (failJobs s status l) = fixed s := by simp [failJobs]

@[simp] theorem fixed_placeJob (s : State) (d : JobDesc) (p : JobPurpose) : fixed (placeJob s d p) = fixed s := by
  unfold placeJob
  split <;> simp

@[simp] theorem fixed_unsubmit (s : State) (p : JobPurpose) : fixed (unsubmit s p) = fixed s := by simp [unsubmit]

@[simp] theorem fixed_refuseJob (s : State) (cluster port : Nat) (d : JobDesc) (p : JobPurpose) (status : Nat) :
    fixed (refuseJob s cluster port d p status) = fixed s := by
  simp [refuseJob]

@[simp] theorem keeps_execCipherJobAccept (cluster port : Nat) (b : List Byte) (p : JobPurpose) (s : State) :
    Keeps s (execCipherJobAccept cluster port b p s) := by
  unfold execCipherJobAccept
  dsimp only
  repeat' split
  all_goals simp

@[simp] theorem fixed_resetCipher (s : State) (cluster : Nat) : fixed (resetCipher s cluster) = fixed s := by simp [resetCipher]
@[simp] theorem fixed_cipherFailure (s : State) (cluster : Nat) : fixed (cipherFailure s cluster) = fixed s := by simp [cipherFailure]
@[simp] theorem fixed_countCore (s : State) (core n : Nat) : fixed (countCore s core n) = fixed s := by simp [countCore]
@[simp] theorem fixed_completeJob (s : State) (j : CipherJob) (r : JobResult) : fixed (completeJob s j r) = fixed s := by simp [completeJob]

@[simp] theorem keeps_execCipherCompletion (id : Nat) (r : JobResult) (s : State) : Keeps s (execCipherCompletion id r s) := by
  unfold execCipherCompletion
  split <;> simp

@[simp] theorem keeps_execKeyLoad (cluster slot : Nat) (unwraps : Bool) (s : State) : Keeps s (execKeyLoad cluster slot unwraps s) := by
  unfold execKeyLoad
  dsimp only
  repeat' split
  all_goals simp

/-! ### Ethernet -/

@[simp] theorem fixed_withEth (s : State) (m : Nat) (p : EthPort) : fixed (withEth s m p) = fixed s := by simp [withEth]
@[simp] theorem fixed_countFec (s : State) (m : Nat) (f : MacFrame) : fixed (countFec s m f) = fixed s := by simp [countFec]
@[simp] theorem fixed_storeFrame (s : State) (m : Nat) (f : MacFrame) (queue : Nat) : fixed (storeFrame s m f queue) = fixed s := by simp [storeFrame]

@[simp] theorem fixed_frameOutcome (s : State) (m : Nat) (f : MacFrame) : fixed (frameOutcome s m f) = fixed s := by
  unfold frameOutcome
  dsimp only
  repeat' split
  all_goals simp

@[simp] theorem keeps_execFrameReceived (m : Nat) (f : MacFrame) (s : State) : Keeps s (execFrameReceived m f s) := by simp [execFrameReceived]

@[simp] theorem keeps_execLinkUp (m : Nat) (s : State) : Keeps s (execLinkUp m s) := by
  unfold execLinkUp
  dsimp only
  repeat' split
  all_goals simp
  all_goals exact fixed_of_reach ‹_›

@[simp] theorem fixed_loseLink (s : State) (m : Nat) : fixed (loseLink s m) = fixed s := by simp [loseLink]
@[simp] theorem keeps_execLinkDown (m : Nat) (receiving : Bool) (s : State) : Keeps s (execLinkDown m receiving s) := by simp [execLinkDown]

@[simp] theorem keeps_execLpiEnter (m : Nat) (s : State) : Keeps s (execLpiEnter m s) := by
  unfold execLpiEnter
  repeat' split
  all_goals simp
  all_goals exact fixed_of_reach ‹_›

@[simp] theorem keeps_execLpiWake (m : Nat) (s : State) : Keeps s (execLpiWake m s) := by simp [execLpiWake]
@[simp] theorem keeps_execPartnerLpiSignal (m : Nat) (on : Bool) (s : State) : Keeps s (execPartnerLpiSignal m on s) := by simp [execPartnerLpiSignal]

/-! ### The PON ports -/

@[simp] theorem fixed_installPonKey (s : State) (o index : Nat) (broadcast : Bool) (key : Nat) :
    fixed (installPonKey s o index broadcast key) = fixed s := by
  unfold installPonKey
  repeat' split
  all_goals simp

@[simp] theorem fixed_ponCrypt (s : State) (k : PonKey) (op iv : Nat) (source : List Byte) : fixed (ponCrypt s k op iv source).1 = fixed s := by
  unfold ponCrypt
  dsimp only
  repeat' split
  all_goals simp

@[simp] theorem fixed_dropPonKeys (s : State) (o : Nat) : fixed (dropPonKeys s o) = fixed s := by simp [dropPonKeys]
@[simp] theorem fixed_cutBursts (s : State) (o : Nat) : fixed (cutBursts s o) = fixed s := by simp [cutBursts]
@[simp] theorem fixed_ponMove (s : State) (o st : Nat) (events : List Fld) : fixed (ponMove s o st events) = fixed s := by simp [ponMove]
@[simp] theorem fixed_ponDiscard (s : State) (o : Nat) : fixed (ponDiscard s o) = fixed s := by simp [ponDiscard]
@[simp] theorem fixed_ponAdvance (s : State) (o : Nat) : fixed (ponAdvance s o) = fixed s := by simp [ponAdvance]
@[simp] theorem fixed_ponToO1 (s : State) (o : Nat) : fixed (ponToO1 s o) = fixed s := by simp [ponToO1]
@[simp] theorem fixed_ponStop (s : State) (o : Nat) : fixed (ponStop s o) = fixed s := by simp [ponStop]
@[simp] theorem fixed_ponUnstop (s : State) (o : Nat) : fixed (ponUnstop s o) = fixed s := by simp [ponUnstop]

@[simp] theorem fixed_ponLoss (s : State) (o : Nat) : fixed (ponLoss s o) = fixed s := by
  unfold ponLoss
  split <;> simp

@[simp] theorem fixed_ponRegain (s : State) (o : Nat) : fixed (ponRegain s o) = fixed s := by simp [ponRegain]
@[simp] theorem fixed_loseSync (s : State) (p : Nat) : fixed (loseSync s p) = fixed s := by simp [loseSync]

@[simp] theorem keeps_execTo1Expiry (p : Nat) (s : State) : Keeps s (execTo1Expiry p s) := by
  unfold execTo1Expiry
  dsimp only
  repeat' split
  all_goals simp
  all_goals exact fixed_of_reach ‹_›

@[simp] theorem keeps_execTo2Expiry (p : Nat) (s : State) : Keeps s (execTo2Expiry p s) := by
  unfold execTo2Expiry
  dsimp only
  repeat' split
  all_goals simp
  all_goals exact fixed_of_reach ‹_›

@[simp] theorem keeps_execPsyncHunt (p position : Nat) (r : PsyncRead) (s : State) : Keeps s (execPsyncHunt p position r s) := by simp [execPsyncHunt]
@[simp] theorem keeps_execSyncLost (p : Nat) (s : State) : Keeps s (execSyncLost p s) := by simp [execSyncLost]
@[simp] theorem fixed_closeBursts (s : State) (p : Nat) : fixed (closeBursts s p) = fixed s := by simp [closeBursts]

@[simp] theorem fixed_readAlloc (p o t0 delay superframe : Nat) (r : BwReading) (a : BwAlloc) :
    fixed (readAlloc p o t0 delay superframe r a).st = fixed r.st := by
  unfold readAlloc
  dsimp only
  repeat' split
  all_goals simp

/-- Reading the allocations of a bandwidth map keeps it. -/
@[simp] theorem fixed_foldl_readAlloc (p o t0 delay superframe : Nat) (m : List BwAlloc) (r : BwReading) :
    fixed (m.foldl (readAlloc p o t0 delay superframe) r).st = fixed r.st := by
  induction m generalizing r with
  | nil => rfl
  | cons a m ih => simp [ih]

@[simp] theorem fixed_readBwmap (s : State) (p stamp superframe : Nat) (m : List BwAlloc) : fixed (readBwmap s p stamp superframe m) = fixed s := by
  unfold readBwmap
  dsimp only
  rw [fixed_withPon, fixed_foldl_readAlloc]
  repeat' split
  all_goals simp

@[simp] theorem fixed_sendPloam (s : State) (p o : Nat) : fixed (sendPloam s p o) = fixed s := by
  unfold sendPloam
  split <;> simp

@[simp] theorem fixed_queuePloam (s : State) (o kind : Nat) (values : List Nat) : fixed (queuePloam s o kind values) = fixed s := by simp [queuePloam]

@[simp] theorem keeps_execBurstWindow (p : Nat) (s : State) : Keeps s (execBurstWindow p s) := by
  unfold execBurstWindow
  repeat' split
  all_goals simp
  all_goals exact fixed_of_reach ‹_›

@[simp] theorem keeps_execWatchdogTrip (p rise instant : Nat) (s : State) : Keeps s (execWatchdogTrip p rise instant s) := by simp [execWatchdogTrip]
@[simp] theorem fixed_countXgem (s : State) (o index : Nat) : fixed (countXgem s o index) = fixed s := by simp [countXgem]

@[simp] theorem fixed_ponFrame (s : State) (p o : Nat) (e : PonPortId) (b : List Byte) (stamp : Nat) : fixed (ponFrame s p o e b stamp) = fixed s := by
  simp [ponFrame]

@[simp] theorem fixed_assemble (s : State) (p o : Nat) (e : PonPortId) (f : XgemFrame) : fixed (assemble s p o e f) = fixed s := by
  unfold assemble
  dsimp only
  split <;> simp

@[simp] theorem fixed_xgemFrame (s : State) (p o position : Nat) (f : XgemFrame) : fixed (xgemFrame s p o position f) = fixed s := by
  unfold xgemFrame
  dsimp only
  split
  · rfl
  · split
    · simp
    · next k e _ =>
      split
      · split <;> simp
      · split
        · simp
        · next key _ =>
          have coded := fixed_ponCrypt (countXgem s o k) key 1 (Config.ponCounter false (ponPort s p).superframe position) f.payload
          split <;> simp_all

@[simp] theorem fixed_xgemFrames (s : State) (p o position : Nat) (l : List XgemFrame) : fixed (xgemFrames s p o position l) = fixed s := by
  induction l generalizing s position with
  | nil => rfl
  | cons f fs ih => simp [xgemFrames, ih]

@[simp] theorem fixed_checkPsync (s : State) (p : Nat) (hit : Bool) : fixed (checkPsync s p hit) = fixed s := by simp [checkPsync]

@[simp] theorem fixed_switchUpKey (s : State) (o : Nat) (k : Option Nat) : fixed (switchUpKey s o k) = fixed s := by
  unfold switchUpKey
  split <;> simp

@[simp] theorem keeps_execPonDownstreamFrame (p : Nat) (f : DownFrame) (s : State) : Keeps s (execPonDownstreamFrame p f s) := by
  simp [execPonDownstreamFrame]

/-- A PLOAM message keeps it if what it does when it is sound keeps it. -/
@[simp] theorem keeps_ploamIn (s : State) (p : Nat) (m : Ploam) (act : State → State) (h : ∀ t, fixed (act t) = fixed t) :
    Keeps s (ploamIn s p m act) := by
  simp [ploamIn, h]

@[simp] theorem keeps_execBurstProfile (p : Nat) (m : Ploam) (f : BurstProfile) (s : State) : Keeps s (execBurstProfile p m f s) := by
  simp [execBurstProfile]

@[simp] theorem fixed_sendRegistration (s : State) (o : Nat) : fixed (sendRegistration s o) = fixed s := by simp [sendRegistration]
@[simp] theorem fixed_takeOnuId (s : State) (o id : Nat) : fixed (takeOnuId s o id) = fixed s := by simp [takeOnuId]

@[simp] theorem keeps_execAssignOnuId (p : Nat) (m : Ploam) (serial : List Byte) (id : Nat) (s : State) : Keeps s (execAssignOnuId p m serial id s) := by
  simp [execAssignOnuId]

@[simp] theorem keeps_execRangingTime (p : Nat) (m : Ploam) (relative : Bool) (delay : Int) (s : State) :
    Keeps s (execRangingTime p m relative delay s) := by
  simp [execRangingTime]

@[simp] theorem keeps_execRequestRegistration (p : Nat) (m : Ploam) (s : State) : Keeps s (execRequestRegistration p m s) := by
  simp [execRequestRegistration]

@[simp] theorem keeps_execAssignAllocId (p : Nat) (m : Ploam) (a : Nat) (release : Bool) (s : State) : Keeps s (execAssignAllocId p m a release s) := by
  simp [execAssignAllocId]

@[simp] theorem keeps_execKeyControl (p : Nat) (m : Ploam) (index : Nat) (s : State) : Keeps s (execKeyControl p m index s) := by
  simp [execKeyControl]

@[simp] theorem keeps_execDeactivateOnuId (p : Nat) (m : Ploam) (s : State) : Keeps s (execDeactivateOnuId p m s) := by simp [execDeactivateOnuId]

@[simp] theorem keeps_execDisableSerialNumber (p : Nat) (m : Ploam) (serial : Option (List Byte)) (disable : Bool) (s : State) :
    Keeps s (execDisableSerialNumber p m serial disable s) := by
  simp [execDisableSerialNumber]

@[simp] theorem keeps_execSleepAllow (p : Nat) (m : Ploam) (s : State) : Keeps s (execSleepAllow p m s) := by simp [execSleepAllow]

@[simp] theorem keeps_execPloamUnsupported (p : Nat) (m : Ploam) (kind : Nat) (s : State) : Keeps s (execPloamUnsupported p m kind s) := by
  simp [execPloamUnsupported]

@[simp] theorem fixed_settleAllocs (s : State) (p o : Nat) : fixed (settleAllocs s p o) = fixed s := by simp [settleAllocs]
@[simp] theorem fixed_ponStart (s : State) (p o c : Nat) (x : ClassPacket) : fixed (ponStart s p o c x) = fixed s := by simp [ponStart]

@[simp] theorem fixed_sendXgem (s : State) (p o k : Nat) (e : PonPortId) (g : Grant) (position : Nat) (last : Bool) (payload : List Byte) :
    fixed (sendXgem s p o k e g position last payload) = fixed s := by
  unfold sendXgem
  dsimp only
  split
  · simp
  · cases ponKey s o (rd s (Reg.PON.PON_STATUS_UP_KEY_INDEX.on o)) false with
    | none => simp
    | some key =>
      have coded := fixed_ponCrypt s key 0 (Config.ponCounter true g.superframe position) payload
      rw [Option.map_some]
      split
      · next h => rw [Option.some.inj h] at coded; simp [coded]
      · next h => rw [Option.some.inj h] at coded; simp [coded]
      · simp

@[simp] theorem fixed_sendRemainder (s : State) (p o a : Nat) (g : Grant) (total space : Nat) :
    fixed (sendRemainder s p o a g total space).1 = fixed s := by
  unfold sendRemainder
  repeat' split
  all_goals simp

@[simp] theorem fixed_sendOmciQueue (s : State) (p o : Nat) (g : Grant) (total space : Nat) (l : List (List Byte)) :
    fixed (sendOmciQueue s p o g total space l).1 = fixed s := by
  induction l generalizing s space with
  | nil => rfl
  | cons m ms ih =>
    unfold sendOmciQueue
    dsimp only
    repeat' split
    all_goals simp [ih]

@[simp] theorem fixed_fillGrant (s : State) (p o a : Nat) (g : Grant) (total space : Nat) (n : Nat) :
    fixed (fillGrant s p o a g total space n).1 = fixed s := by
  induction n generalizing s space with
  | zero => rfl
  | succ n ih =>
    unfold fillGrant
    dsimp only
    repeat' split
    all_goals simp [ih]

@[simp] theorem keeps_execPonGrant (p a : Nat) (s : State) : Keeps s (execPonGrant p a s) := by
  unfold execPonGrant
  dsimp only
  repeat' split
  all_goals simp

@[simp] theorem fixed_deliverOmci (s : State) (p source reason : Nat) (b : List Byte) (stamp : Nat) (counted : Bool) :
    fixed (deliverOmci s p source reason b stamp counted) = fixed s := by
  unfold deliverOmci
  split
  · next h => simp [(optionKeeps_deliver _ _ _ _ _ _ _).fixed_eq h]
  · simp

@[simp] theorem fixed_authenticate (s : State) (o : Nat) (m : List Byte) : fixed (authenticate s o m) = fixed s := by simp [authenticate]

@[simp] theorem keeps_execOmciMessage (p : Nat) (m : OmciMessage) (s : State) : Keeps s (execOmciMessage p m s) := by
  unfold execOmciMessage
  repeat' split
  all_goals simp

@[simp] theorem fixed_measureTod (s : State) (o stamp time : Nat) : fixed (measureTod s o stamp time) = fixed s := by simp [measureTod]

@[simp] theorem keeps_execTodMeasurement (p : Nat) (s : State) : Keeps s (execTodMeasurement p s) := by
  unfold execTodMeasurement
  dsimp only
  split <;> simp

@[simp] theorem fixed_showActive (s : State) : fixed (showActive s) = fixed s := by simp [showActive]
@[simp] theorem fixed_swapRoles (s : State) (events : List Fld) : fixed (swapRoles s events) = fixed s := by simp [swapRoles]

@[simp] theorem keeps_execProtectSwitch (s : State) : Keeps s (execProtectSwitch s) := by
  unfold execProtectSwitch
  dsimp only
  repeat' split
  all_goals simp
  all_goals exact fixed_of_reach ‹_›

@[simp] theorem fixed_enablePonEffect (s : State) (p disabled : Nat) (registration : List Byte) :
    fixed (enablePonEffect s p disabled registration) = fixed s := by
  simp [enablePonEffect]

@[simp] theorem fixed_ponEntry (s : State) : fixed (ponEntry s) = fixed s := by simp [ponEntry]
@[simp] theorem fixed_resetPon (s : State) (k : Nat) : fixed (resetPon s k) = fixed s := by simp [resetPon]

/-! ### The release of the Band -/

@[simp] theorem fixed_countPacket (s : State) (l : Nat) (p : LegPacket) : fixed (countPacket s l p) = fixed s := by simp [countPacket]

@[simp] theorem fixed_submitPacket (s : State) (i l : Nat) (x : Participant) (p : LegPacket) : fixed (submitPacket s i l x p) = fixed s := by
  simp [submitPacket]

@[simp] theorem fixed_releaseParticipant (s : State) (tr i : Nat) (x : Participant) : fixed (releaseParticipant s tr i x) = fixed s := by
  simp [releaseParticipant]

@[simp] theorem fixed_releaseTunnelNow (s : State) (tr t : Nat) (x : Tunnel) : fixed (releaseTunnelNow s tr t x) = fixed s := by
  simp [releaseTunnelNow]

@[simp] theorem keeps_execBandRelease (s : State) : Keeps s (execBandRelease s) := by simp [execBandRelease]
@[simp] theorem fixed_bandLateness (s : State) : fixed (bandLateness s) = fixed s := by simp [bandLateness]

/-! ### Admission -/

/-- The ruling on a directive keeps what no command changes, in each of its outcomes that has a state. -/
def RulingKeeps (s : State) : Ruling → Prop
  | .done t _ _ => fixed t = fixed s
  | .silent t => fixed t = fixed s
  | _ => True

@[simp] theorem rulingKeeps_done (s t : State) (detail result : Nat) : RulingKeeps s (.done t detail result) ↔ fixed t = fixed s := Iff.rfl
@[simp] theorem rulingKeeps_silent (s t : State) : RulingKeeps s (.silent t) ↔ fixed t = fixed s := Iff.rfl
@[simp] theorem rulingKeeps_refuse (s : State) (status detail : Nat) : RulingKeeps s (.refuse status detail) := trivial
@[simp] theorem rulingKeeps_hold (s : State) : RulingKeeps s .hold := trivial
@[simp] theorem rulingKeeps_notAdmitted (s : State) : RulingKeeps s .notAdmitted := trivial

@[simp] theorem rulingKeeps_ite (s : State) (c : Prop) [Decidable c] (a b : Ruling) :
    RulingKeeps s (if c then a else b) ↔ if c then RulingKeeps s a else RulingKeeps s b := by
  split <;> rfl

@[simp] theorem fixed_commit (s : State) (xs : List NewCharges) : fixed (commit s xs) = fixed s := by simp [commit]
@[simp] theorem fixed_rechargeWindow (s : State) : fixed (rechargeWindow s) = fixed s := by simp [rechargeWindow]

/-! ### Rooms, participants and legs -/

@[simp] theorem rulingKeeps_admitRoomRule (index maxParticipants : Nat) (s : State) : RulingKeeps s (admitRoomRule index maxParticipants s) := by
  simp [admitRoomRule]

@[simp] theorem optionKeeps_participantEntry (s : State) (index : Nat) (p : PartSpec) : OptionKeeps s (participantEntry s index p) := by
  simp [participantEntry]

@[simp] theorem rulingKeeps_admitParticipantRule (index : Nat) (p : PartSpec) (a : AggSpec) (s : State) :
    RulingKeeps s (admitParticipantRule index p a s) := by
  unfold admitParticipantRule
  repeat' split
  all_goals simp
  all_goals exact (optionKeeps_participantEntry _ _ _).fixed_eq ‹_›

@[simp] theorem fixed_later (s : State) (d : Directive) (info : List Nat) : fixed (later s d info) = fixed s := by simp [later]

@[simp] theorem rulingKeeps_setParticipantRule (index minRate maxRate weight : Nat) (s : State) :
    RulingKeeps s (setParticipantRule index minRate maxRate weight s) := by
  simp [setParticipantRule]

@[simp] theorem fixed_applySetParticipant (s : State) (index minRate maxRate weight : Nat) :
    fixed (applySetParticipant s index minRate maxRate weight) = fixed s := by
  simp [applySetParticipant]

@[simp] theorem optionKeeps_legEntriesOf (s : State) (l : Nat) (holder : Nat × Nat) (ssrcs : List Nat) :
    OptionKeeps s (legEntriesOf s l holder ssrcs) := by
  induction ssrcs generalizing s with
  | nil => simp [legEntriesOf]
  | cons ssrc more ih =>
    intro t h
    obtain ⟨u, hu, ht⟩ := Option.bind_eq_some_iff.1 h
    exact ((ih u).fixed_eq ht).trans ((optionKeeps_insertEntry _ _ _ _ _).fixed_eq hu)

/-- What `setLegRule` does with the entries of a leg keeps it. -/
theorem optionKeeps_changedEntries (s : State) (d : Directive) (info : List Nat) (l : Nat) (holder : Nat × Nat) (ssrcs : List Nat) (c : Prop)
    [Decidable c] : OptionKeeps s (if c then legEntriesOf (later s d info) l holder ssrcs else some (later s d info)) := by
  split
  · exact (optionKeeps_legEntriesOf _ _ _ _).congr (by simp)
  · simp

@[simp] theorem fixed_insertLeg (s : State) (l : Nat) (x : LegSpec) (area : Nat) (cs : List NewCharges)
    (formats : Option (Nat × Mix × List (Option MixFormat))) (cluster : Nat) : fixed (insertLeg s l x area cs formats cluster) = fixed s := by
  unfold insertLeg
  split <;> simp

@[simp] theorem rulingKeeps_admitLegRule (l : Nat) (x : LegSpec) (s : State) : RulingKeeps s (admitLegRule l x s) := by
  unfold admitLegRule
  dsimp only
  repeat' split
  all_goals simp
  all_goals exact (optionKeeps_legEntriesOf _ _ _ _).fixed_eq ‹_›

@[simp] theorem rulingKeeps_setLegRule (l : Nat) (c : LegChange) (s : State) : RulingKeeps s (setLegRule l c s) := by
  unfold setLegRule
  dsimp only
  repeat' split
  all_goals simp
  all_goals exact (optionKeeps_changedEntries _ _ _ _ _ _ _).fixed_eq ‹_›

@[simp] theorem fixed_applySetLeg (s : State) (l : Nat) (c : LegChange) (area size : Nat) : fixed (applySetLeg s l c area size) = fixed s := by
  unfold applySetLeg
  dsimp only
  repeat' split
  all_goals simp

@[simp] theorem rulingKeeps_requestKeyframeRule (sender : Nat) (s : State) : RulingKeeps s (requestKeyframeRule sender s) := by
  simp [requestKeyframeRule]

@[simp] theorem fixed_drainLegs (s : State) (ls : List Nat) : fixed (drainLegs s ls).1 = fixed s := by simp [drainLegs]
@[simp] theorem fixed_drainParts (s : State) (ps : List Nat) : fixed (drainParts s ps).1 = fixed s := by simp [drainParts]
@[simp] theorem fixed_drainMix (s : State) (r : Nat) : fixed (drainMix s r).1 = fixed s := by simp [drainMix]
@[simp] theorem fixed_drainEncodeAll (s : State) (i : Nat) : fixed (drainEncodeAll s i).1 = fixed s := by simp [drainEncodeAll]

/-- Draining each of a list keeps it if draining one does. -/
@[simp] theorem fixed_drainEach (f : State → Nat → State × Nat) (h : ∀ s i, fixed (f s i).1 = fixed s) (s : State) (l : List Nat) :
    fixed (drainEach f s l).1 = fixed s := by
  induction l generalizing s with
  | nil => rfl
  | cons i is ih => simp [drainEach, ih, h]

@[simp] theorem fixed_drainDecodeAll (s : State) (i : Nat) : fixed (drainDecodeAll s i).1 = fixed s := by simp [drainDecodeAll]

@[simp] theorem fixed_endLayout (s : State) (i : Nat) : fixed (endLayout s i) = fixed s := by
  unfold endLayout
  split <;> simp

@[simp] theorem fixed_drainCompositeAll (s : State) (i : Nat) : fixed (drainCompositeAll s i).1 = fixed s := by simp [drainCompositeAll]
@[simp] theorem fixed_drainFollowers (s : State) : fixed (drainFollowers s).1 = fixed s := by simp [drainFollowers]
@[simp] theorem fixed_drainTunnel (s : State) (t : Nat) : fixed (drainTunnel s t).1 = fixed s := by simp [drainTunnel]

@[simp] theorem fixed_drainRoom (s : State) (r : Nat) : fixed (drainRoom s r).1 = fixed s := by
  unfold drainRoom
  dsimp only
  split <;> simp

@[simp] theorem fixed_releaseEntry (s : State) (kind i : Nat) : fixed (releaseEntry s kind i).1 = fixed s := by
  unfold releaseEntry
  split <;> simp

@[simp] theorem rulingKeeps_releaseRule (kind i : Nat) (s : State) : RulingKeeps s (releaseRule kind i s) := by simp [releaseRule]

@[simp] theorem fixed_activateLeg (s : State) (l : Nat) : fixed (activateLeg s l) = fixed s := by
  unfold activateLeg
  split <;> simp

@[simp] theorem fixed_activateLegs (s : State) : fixed (activateLegs s) = fixed s := by simp [activateLegs]
@[simp] theorem fixed_freeLeg (s : State) (l : Nat) : fixed (freeLeg s l) = fixed s := by simp [freeLeg]
@[simp] theorem fixed_freeParticipant (s : State) (p : Nat) : fixed (freeParticipant s p) = fixed s := by simp [freeParticipant]

@[simp] theorem fixed_endLegs (s : State) : fixed (endLegs s) = fixed s := by
  unfold endLegs
  dsimp only
  rw [fixed_endFormats, fixed_mk, fixed_fold]
  refine (fixed_foldl _ _ (by simp) _).trans ((fixed_foldl _ _ (fun s p => ?_) _).trans (fixed_foldl _ _ (by simp) _))
  split <;> simp

@[simp] theorem fixed_endMixes (s : State) : fixed (endMixes s) = fixed s := by simp [endMixes]

/-! ### Media and tunnels -/

@[simp] theorem rulingKeeps_admitDecodeRule (i : Nat) (d : DecodeSpec) (s : State) : RulingKeeps s (admitDecodeRule i d s) := by
  unfold admitDecodeRule
  dsimp only
  repeat' split
  all_goals simp

@[simp] theorem fixed_endCopy (s : State) (c : StatCopy) (allowed : Bool) : fixed (endCopy s c allowed) = fixed s := by simp [endCopy]
@[simp] theorem fixed_stepCopy (s : State) (c : StatCopy) : fixed (stepCopy s c) = fixed s := by simp [stepCopy]
@[simp] theorem fixed_stepCopies (s : State) : fixed (stepCopies s) = fixed s := by simp [stepCopies]

@[simp] theorem rulingKeeps_readStatisticsRule (w : Deferred) (kind i what dest : Nat) (s : State) :
    RulingKeeps s (readStatisticsRule w kind i what dest s) := by
  unfold readStatisticsRule
  repeat' split
  all_goals simp

@[simp] theorem rulingKeeps_admitCompositeRule (i : Nat) (c : CompositeSpec) (s : State) : RulingKeeps s (admitCompositeRule i c s) := by
  unfold admitCompositeRule
  dsimp only
  repeat' split
  all_goals simp

@[simp] theorem rulingKeeps_setLayoutRule (w : Deferred) (i : Nat) (l : DisplayList) (length : Nat) (s : State) :
    RulingKeeps s (setLayoutRule w i l length s) := by
  unfold setLayoutRule
  dsimp only
  repeat' split
  all_goals simp

@[simp] theorem rulingKeeps_admitEncodeRule (i : Nat) (e : EncodeSpec) (s : State) : RulingKeeps s (admitEncodeRule i e s) := by
  unfold admitEncodeRule
  dsimp only
  repeat' split
  all_goals simp

@[simp] theorem rulingKeeps_setEncodeRule (i : Nat) (r : EncodeRate) (s : State) : RulingKeeps s (setEncodeRule i r s) := by
  unfold setEncodeRule
  split <;> simp

@[simp] theorem rulingKeeps_admitMixRule (r : Nat) (m : MixSpec) (s : State) : RulingKeeps s (admitMixRule r m s) := by
  unfold admitMixRule
  dsimp only
  repeat' split
  all_goals simp

@[simp] theorem rulingKeeps_setRouteRule (l mode : Nat) (gain : Int) (s : State) : RulingKeeps s (setRouteRule l mode gain s) := by
  unfold setRouteRule
  split <;> simp

@[simp] theorem rulingKeeps_readLevelsRule (room dest : Nat) (s : State) : RulingKeeps s (readLevelsRule room dest s) := by simp [readLevelsRule]

@[simp] theorem rulingKeeps_enableTalkerExportRule (room : Nat) (record : Option Nat) (s : State) :
    RulingKeeps s (enableTalkerExportRule room record s) := by
  unfold enableTalkerExportRule
  split <;> simp

@[simp] theorem fixed_applyTalkerExport (s : State) (room : Nat) (record : Option Nat) : fixed (applyTalkerExport s room record) = fixed s := by
  simp [applyTalkerExport]

@[simp] theorem fixed_endExports (s : State) : fixed (endExports s) = fixed s := by simp [endExports]

@[simp] theorem optionKeeps_tunnelEntry (s : State) (i : Nat) (t : TunnelSpec) : OptionKeeps s (tunnelEntry s i t) := by
  unfold tunnelEntry
  split <;> simp

@[simp] theorem rulingKeeps_admitTunnelRule (i : Nat) (t : TunnelSpec) (s : State) : RulingKeeps s (admitTunnelRule i t s) := by
  unfold admitTunnelRule
  dsimp only
  repeat' split
  all_goals simp
  all_goals exact (optionKeeps_tunnelEntry _ _ _).fixed_eq ‹_›

@[simp] theorem rulingKeeps_switchEpochRule (t epoch : Nat) (s : State) : RulingKeeps s (switchEpochRule t epoch s) := by
  unfold switchEpochRule
  split <;> simp

@[simp] theorem fixed_switchEpochs (s : State) : fixed (switchEpochs s) = fixed s := by simp [switchEpochs]

/-! ### The other rules of directives -/

@[simp] theorem rulingKeeps_atBoundary (s t : State) (d : Directive) (info : List Nat) (result : Nat) :
    RulingKeeps s (.atBoundary t d info result) ↔ fixed t = fixed s := by
  simp [Ruling.atBoundary]

@[simp] theorem rulingKeeps_startThreadRule (entry cluster arg : Nat) (s : State) : RulingKeeps s (startThreadRule entry cluster arg s) := by
  unfold startThreadRule
  dsimp only
  repeat' split
  all_goals simp

@[simp] theorem rulingKeeps_stopThreadRule (t : Nat) (s : State) : RulingKeeps s (stopThreadRule t s) := by simp [stopThreadRule]
@[simp] theorem fixed_countToken (s : State) (kind : Nat) : fixed (countToken s kind) = fixed s := by simp [countToken]

@[simp] theorem fixed_setCounter (s : State) (usage target counter : Nat) : fixed (setCounter s usage target counter) = fixed s := by
  simp [setCounter]

@[simp] theorem fixed_awaitReplacement (s : State) (entry : Nat) (k : KeyEntry) : fixed (awaitReplacement s entry k) = fixed s := by
  simp [awaitReplacement]

@[simp] theorem rulingKeeps_tokenAccepted (s u : State) (t : KeyToken) (entry : Nat) :
    RulingKeeps s (tokenAccepted u t entry) ↔ fixed u = fixed s := by
  simp [tokenAccepted]

/-- A key installed by `put` keeps it if `put` does. -/
@[simp] theorem rulingKeeps_installKey (s u : State) (t : KeyToken) (put : Nat → State) (h : ∀ e, fixed (put e) = fixed u) :
    RulingKeeps u (installKey s t put) := by
  unfold installKey
  split <;> simp [h]

@[simp] theorem rulingKeeps_deliverKeyTokenRule (w : Deferred) (token : List Byte) (length : Nat) (s : State) :
    RulingKeeps s (deliverKeyTokenRule w token length s) := by
  unfold deliverKeyTokenRule
  dsimp only
  repeat' split
  all_goals simp

@[simp] theorem rulingKeeps_sendTunnelMessageRule (t label : Nat) (data : List Byte) (s : State) :
    RulingKeeps s (sendTunnelMessageRule t label data s) := by
  simp [sendTunnelMessageRule]

@[simp] theorem rulingKeeps_sendFrameRule (e c : Nat) (frame : List Byte) (s : State) : RulingKeeps s (sendFrameRule e c frame s) := by
  simp [sendFrameRule]

@[simp] theorem rulingKeeps_setShaperRule (e c rate burst : Nat) (s : State) : RulingKeeps s (setShaperRule e c rate burst s) := by
  simp [setShaperRule]

@[simp] theorem rulingKeeps_setPortLpiRule (m tw : Nat) (s : State) : RulingKeeps s (setPortLpiRule m tw s) := by simp [setPortLpiRule]

@[simp] theorem rulingKeeps_enablePonRule (p disabled : Nat) (registration : List Byte) (s : State) :
    RulingKeeps s (enablePonRule p disabled registration s) := by
  simp [enablePonRule]

@[simp] theorem rulingKeeps_setPonPortRule (p index portId direction queue flags : Nat) (s : State) :
    RulingKeeps s (setPonPortRule p index portId direction queue flags s) := by
  simp [setPonPortRule]

@[simp] theorem rulingKeeps_setPonMapRule (p c allocId : Nat) (s : State) : RulingKeeps s (setPonMapRule p c allocId s) := by simp [setPonMapRule]

@[simp] theorem rulingKeeps_sendOmciRule (p : Nat) (message : List Byte) (s : State) : RulingKeeps s (sendOmciRule p message s) := by
  simp [sendOmciRule]

@[simp] theorem rulingKeeps_ponTimeOfDayRule (p superframe seconds nanoseconds : Nat) (s : State) :
    RulingKeeps s (ponTimeOfDayRule p superframe seconds nanoseconds s) := by
  unfold ponTimeOfDayRule
  repeat' split
  all_goals simp

@[simp] theorem rulingKeeps_switchPonRule (s : State) : RulingKeeps s (switchPonRule s) := by simp [switchPonRule]

@[simp] theorem rulingKeeps_stepRule (source : Nat) (s : State) : RulingKeeps s (stepRule source s) := by
  unfold stepRule
  dsimp only
  split <;> simp

@[simp] theorem rulingKeeps_setSecondsRule (seconds : Nat) (s : State) : RulingKeeps s (setSecondsRule seconds s) := by simp [setSecondsRule]

@[simp] theorem rulingKeeps_setMemoryRateRule (w : Deferred) (point : Nat) (s : State) : RulingKeeps s (setMemoryRateRule w point s) := by
  simp [setMemoryRateRule]

@[simp] theorem rulingKeeps_archivePagesRule (w : Deferred) (first count keyEntry dest : Nat) (s : State) :
    RulingKeeps s (archivePagesRule w first count keyEntry dest s) := by
  unfold archivePagesRule
  split <;> simp

@[simp] theorem rulingKeeps_attestRule (w : Deferred) (nonce dest : Nat) (s : State) : RulingKeeps s (attestRule w nonce dest s) := by
  simp [attestRule, defer]

@[simp] theorem fixed_verify (s : State) (why : VerifyPurpose) (i : Image) : fixed (verify s why i) = fixed s := by simp [verify]

@[simp] theorem rulingKeeps_pushImageRule (w : Deferred) (image : List Byte) (s : State) : RulingKeeps s (pushImageRule w image s) := by
  simp [pushImageRule]

@[simp] theorem rulingKeeps_flashProgramRule (w : Deferred) (image : List Byte) (slot : Nat) (s : State) :
    RulingKeeps s (flashProgramRule w image slot s) := by
  simp [flashProgramRule]

@[simp] theorem rulingKeeps_snapshotCountersRule (w : Deferred) (blocks dest clear : Nat) (s : State) :
    RulingKeeps s (snapshotCountersRule w blocks dest clear s) := by
  simp [snapshotCountersRule]

@[simp] theorem rulingKeeps_engineResetRule (kind index : Nat) (s : State) : RulingKeeps s (engineResetRule kind index s) := by simp [engineResetRule]
@[simp] theorem rulingKeeps_warmResetRule (w : Deferred) (s : State) : RulingKeeps s (warmResetRule w s) := by simp [warmResetRule]
@[simp] theorem rulingKeeps_zeroizeRule (s : State) : RulingKeeps s (zeroizeRule s) := by simp [zeroizeRule]
@[simp] theorem rulingKeeps_retireRule (s : State) : RulingKeeps s (retireRule s) := by simp [retireRule]

/-! ### Recovery -/

@[simp] theorem fixed_resetPortLogic (s : State) (k : Nat) : fixed (resetPortLogic s k) = fixed s := by simp [resetPortLogic]

@[simp] theorem fixed_resetWork (s : State) (kind index : Nat) : fixed (resetWork s kind index) = fixed s := by
  unfold resetWork
  split <;> simp

@[simp] theorem fixed_resetEngine (s : State) (kind index : Nat) : fixed (resetEngine s kind index) = fixed s := by simp [resetEngine]
@[simp] theorem fixed_beginReset (s : State) (kind index : Nat) : fixed (beginReset s kind index) = fixed s := by simp [beginReset]
@[simp] theorem fixed_countLaneError (s : State) (kind index : Nat) : fixed (countLaneError s kind index) = fixed s := by simp [countLaneError]

@[simp] theorem keeps_execEngineFailure (kind index : Nat) (laneMemory : Bool) (s : State) : Keeps s (execEngineFailure kind index laneMemory s) := by
  simp [execEngineFailure]

@[simp] theorem keeps_execEngineResetDone (kind index : Nat) (s : State) : Keeps s (execEngineResetDone kind index s) := by simp [execEngineResetDone]

@[simp] theorem fixed_moveCharges (s : State) (kind i code old new_ : Nat) : fixed (moveCharges s kind i code old new_) = fixed s := by
  simp [moveCharges]

@[simp] theorem fixed_releaseWork (s : State) (kind index table i : Nat) : fixed (releaseWork s kind index table i) = fixed s := by simp [releaseWork]

/-- Work placed again keeps it if moving it does. -/
@[simp] theorem fixed_placeAgain (s : State) (kind index table code i : Nat) (unit : Option Nat) (move : State → Nat → State)
    (h : ∀ t u, fixed (move t u) = fixed t) : fixed (placeAgain s kind index table code i unit move) = fixed s := by
  unfold placeAgain
  split <;> simp [h]

@[simp] theorem fixed_replaceDecodes (s : State) (index : Nat) : fixed (replaceDecodes s index) = fixed s := by simp [replaceDecodes]
@[simp] theorem fixed_replaceEncodes (s : State) (index : Nat) : fixed (replaceEncodes s index) = fixed s := by simp [replaceEncodes]
@[simp] theorem fixed_replaceComposites (s : State) (index : Nat) : fixed (replaceComposites s index) = fixed s := by simp [replaceComposites]
@[simp] theorem fixed_replaceAudio (s : State) (index : Nat) : fixed (replaceAudio s index) = fixed s := by simp [replaceAudio]
@[simp] theorem fixed_endThreads (s : State) (index : Nat) : fixed (endThreads s index) = fixed s := by simp [endThreads]
@[simp] theorem fixed_unpinTunnel (s : State) (index t : Nat) : fixed (unpinTunnel s index t) = fixed s := by simp [unpinTunnel]

@[simp] theorem fixed_movePinnedTunnels (s : State) (index : Nat) : fixed (movePinnedTunnels s index) = fixed s := by
  unfold movePinnedTunnels
  dsimp only
  apply fixed_foldl_fst
  intro r t
  split <;> simp

@[simp] theorem fixed_movePins (s : State) (index : Nat) : fixed (movePins s index) = fixed s := by simp [movePins]
@[simp] theorem fixed_replaceCipher (s : State) (index : Nat) : fixed (replaceCipher s index) = fixed s := by simp [replaceCipher]
@[simp] theorem fixed_respread (s : State) (kind index : Nat) : fixed (respread s kind index) = fixed s := by simp [respread]
@[simp] theorem fixed_replaceBand (s : State) (index : Nat) : fixed (replaceBand s index) = fixed s := by simp [replaceBand]

@[simp] theorem fixed_replaceWork (s : State) (kind index : Nat) : fixed (replaceWork s kind index) = fixed s := by
  unfold replaceWork
  split <;> simp

@[simp] theorem fixed_retireEngine (s : State) (kind index : Nat) : fixed (retireEngine s kind index) = fixed s := by
  unfold retireEngine
  split <;> simp

@[simp] theorem fixed_performRetirements (s : State) : fixed (performRetirements s) = fixed s := by
  have retire (l : List (Nat × Nat)) (s : State) : fixed (l.foldl (fun (acc : State × List (Nat × Nat)) e =>
      if canRetire acc.1 e.1 e.2 then (retireEngine acc.1 e.1 e.2, acc.2 ++ [e]) else acc) (s, [])).1 = fixed s := by
    apply fixed_foldl_fst
    intro r e
    split <;> simp
  simp [performRetirements, retire]

@[simp] theorem fixed_autoReset (s : State) (code : Nat) : fixed (autoReset s code) = fixed s := by simp [autoReset]
@[simp] theorem fixed_fenceAll (s : State) : fixed (fenceAll s) = fixed s := by simp [fenceAll]

@[simp] theorem fixed_deviceFaults (s : State) : fixed (deviceFaults s) = fixed s := by
  unfold deviceFaults
  split <;> simp

/-! ### Copies of tables -/

@[simp] theorem fixed_endQuery (s : State) (g : Nat × Nat) : fixed (endQuery s g) = fixed s := by
  unfold endQuery
  split <;> simp

@[simp] theorem fixed_endQueries (s : State) : fixed (endQueries s) = fixed s := by simp [endQueries]
@[simp] theorem fixed_startQuery (s : State) (q v : Nat) : fixed (startQuery s q v) = fixed s := by simp [startQuery]

/-! ### The host's registers -/

@[simp] theorem fixed_writeMsix (s : State) (k v : Nat) : fixed (writeMsix s k v) = fixed s := by simp [writeMsix]
@[simp] theorem fixed_clearRead (s : State) (off : Nat) : fixed (clearRead s off) = fixed s := by simp [clearRead]
@[simp] theorem fixed_restartModeration (s : State) (k : Nat) : fixed (restartModeration s k) = fixed s := by simp [restartModeration]
@[simp] theorem fixed_ringControl (s : State) (k v : Nat) : fixed (ringControl s k v) = fixed s := by simp [ringControl]
@[simp] theorem fixed_ringIndex (s : State) (k v : Nat) : fixed (ringIndex s k v) = fixed s := by simp [ringIndex]

@[simp] theorem fixed_putFields (s : State) (fs : List Fld) (v : Nat) : fixed (putFields s fs v) = fixed s := by
  unfold putFields
  apply fixed_foldl
  intro s x
  split <;> simp

@[simp] theorem fixed_gpioDrives (was s : State) : fixed (gpioDrives was s) = fixed s := by simp [gpioDrives]

@[simp] theorem fixed_writeEffect (s : State) (off v : Nat) (fs : List Fld) : fixed (writeEffect s off v fs) = fixed s := by
  unfold writeEffect
  repeat' split
  all_goals simp

@[simp] theorem fixed_regWrite (s : State) (off v : Nat) : fixed (regWrite s off v) = fixed s := by simp [regWrite]
@[simp] theorem fixed_narrowWrite (s : State) (off : Nat) : fixed (narrowWrite s off) = fixed s := by simp [narrowWrite]
@[simp] theorem fixed_hostWrite (s : State) (off width v : Nat) : fixed (hostWrite s off width v) = fixed s := by simp [hostWrite]

@[simp] theorem keeps_execRegisterWrite (off width value : Nat) (s : State) : Keeps s (execRegisterWrite off width value s) := by
  simp [execRegisterWrite]

@[simp] theorem keeps_execRegisterReadClear (off width : Nat) (s : State) : Keeps s (execRegisterReadClear off width s) := by
  simp [execRegisterReadClear]

@[simp] theorem keeps_execRingEnable (ring value : Nat) (s : State) : Keeps s (execRingEnable ring value s) := by simp [execRingEnable]
@[simp] theorem keeps_execRingIndexWrite (ring value : Nat) (s : State) : Keeps s (execRingIndexWrite ring value s) := by simp [execRingIndexWrite]
@[simp] theorem keeps_goQuery (s : State) (off index bits rest : Nat) : Keeps s (goQuery s off index bits rest) := by simp [goQuery]
@[simp] theorem keeps_execLegsQuery (kind index : Nat) (s : State) : Keeps s (execLegsQuery kind index s) := by simp [execLegsQuery]
@[simp] theorem keeps_execDecodeQuery (kind index : Nat) (s : State) : Keeps s (execDecodeQuery kind index s) := by simp [execDecodeQuery]
@[simp] theorem keeps_execVeilQuery (kind index : Nat) (s : State) : Keeps s (execVeilQuery kind index s) := by simp [execVeilQuery]
@[simp] theorem keeps_execEncodeQuery (index : Nat) (s : State) : Keeps s (execEncodeQuery index s) := by simp [execEncodeQuery]
@[simp] theorem keeps_execAudioQuery (kind index : Nat) (s : State) : Keeps s (execAudioQuery kind index s) := by simp [execAudioQuery]
@[simp] theorem keeps_execMittenQuery (index : Nat) (s : State) : Keeps s (execMittenQuery index s) := by simp [execMittenQuery]
@[simp] theorem keeps_execIngressQuery (kind index : Nat) (s : State) : Keeps s (execIngressQuery kind index s) := by simp [execIngressQuery]
@[simp] theorem keeps_execCipherQuery (index : Nat) (s : State) : Keeps s (execCipherQuery index s) := by simp [execCipherQuery]
@[simp] theorem keeps_execGauntletQuery (index : Nat) (s : State) : Keeps s (execGauntletQuery index s) := by simp [execGauntletQuery]
@[simp] theorem keeps_execBandQuery (kind index : Nat) (s : State) : Keeps s (execBandQuery kind index s) := by simp [execBandQuery]
@[simp] theorem keeps_execPonQuery (port index : Nat) (s : State) : Keeps s (execPonQuery port index s) := by simp [execPonQuery]

@[simp] theorem keeps_execNearmemQuery (stack kind index : Nat) (s : State) : Keeps s (execNearmemQuery stack kind index s) := by
  simp [execNearmemQuery]

@[simp] theorem keeps_execHeartbeat (s : State) : Keeps s (execHeartbeat s) := by simp [execHeartbeat]

@[simp] theorem keeps_execModTimeExpiry (ring : Nat) (s : State) : Keeps s (execModTimeExpiry ring s) := by
  unfold execModTimeExpiry
  repeat' split
  all_goals simp
  all_goals exact fixed_of_reach ‹_›

@[simp] theorem fixed_clearSpans (s : State) (spans : List Nat) : fixed (clearSpans s spans) = fixed s := by simp [clearSpans]

@[simp] theorem fixed_takeSnapshot (s : State) (d : Deferred) (blocks dest clear : Nat) : fixed (takeSnapshot s d blocks dest clear) = fixed s := by
  simp [takeSnapshot]

/-! ### Images, generations and the Kuthastan core -/

@[simp] theorem fixed_showReason (s : State) (r : Nat) : fixed (showReason s r) = fixed s := by simp [showReason]
@[simp] theorem fixed_fuseAnchor (s : State) (i : Image) : fixed (fuseAnchor s i) = fixed s := by simp [fuseAnchor]
@[simp] theorem fixed_acceptImage (s : State) (i : Image) (source : Nat) : fixed (acceptImage s i source) = fixed s := by simp [acceptImage]
@[simp] theorem fixed_setFlash (s : State) (slot : Nat) (content : List Byte) : fixed (setFlash s slot content) = fixed s := by simp [setFlash]

@[simp] theorem fixed_slotVerified (s : State) (slot : Nat) (i : Image) (r : Nat) : fixed (slotVerified s slot i r) = fixed s := by
  simp [slotVerified]

@[simp] theorem keeps_execFlashSlotVerify (slot : Nat) (content : List Byte) (s : State) : Keeps s (execFlashSlotVerify slot content s) := by
  simp [execFlashSlotVerify]

@[simp] theorem fixed_writeCode (s : State) : fixed (writeCode s) = fixed s := by
  unfold writeCode
  split <;> simp

@[simp] theorem fixed_pushedVerified (s : State) (busy : Bool) (i : Image) : fixed (pushedVerified s busy i) = fixed s := by
  unfold pushedVerified
  dsimp only
  repeat' split
  all_goals simp

@[simp] theorem fixed_flashVerified (s : State) (slot : Nat) (bytes : List Byte) (i : Image) : fixed (flashVerified s slot bytes i) = fixed s := by
  unfold flashVerified
  dsimp only
  split <;> simp

@[simp] theorem keeps_execImageVerified (s : State) : Keeps s (execImageVerified s) := by
  unfold execImageVerified
  repeat' split
  all_goals simp

@[simp] theorem fixed_writeFlash (s : State) : fixed (writeFlash s) = fixed s := by
  unfold writeFlash
  split <;> simp

@[simp] theorem keeps_execFlashProgramWritten (s : State) : Keeps s (execFlashProgramWritten s) := by
  unfold execFlashProgramWritten
  split <;> simp

@[simp] theorem fixed_retireOld (s : State) : fixed (retireOld s) = fixed s := by simp [retireOld]
@[simp] theorem fixed_dropPackets (s : State) (g : Nat) : fixed (dropPackets s g) = fixed s := by simp [dropPackets]
@[simp] theorem fixed_cancelJobs (s : State) (g : Nat) : fixed (cancelJobs s g) = fixed s := by simp [cancelJobs]
@[simp] theorem fixed_forceOld (s : State) (g : Nat) : fixed (forceOld s g) = fixed s := by simp [forceOld]
@[simp] theorem fixed_adoptPartial (s : State) (i : Image) : fixed (adoptPartial s i) = fixed s := by simp [adoptPartial]

@[simp] theorem fixed_retireStep (s : State) : fixed (retireStep s) = fixed s := by
  unfold retireStep
  split <;> simp

@[simp] theorem fixed_stepGeneration (s : State) : fixed (stepGeneration s) = fixed s := by
  unfold stepGeneration
  dsimp only
  split <;> simp

@[simp] theorem keeps_execDrbgReseed (s : State) : Keeps s (execDrbgReseed s) := by
  unfold execDrbgReseed
  repeat' split
  all_goals simp
  all_goals exact fixed_of_reach ‹_›

@[simp] theorem keeps_execEntropyHealthFail (s : State) : Keeps s (execEntropyHealthFail s) := by simp [execEntropyHealthFail]
@[simp] theorem keeps_execEntropyStartupPassed (s : State) : Keeps s (execEntropyStartupPassed s) := by simp [execEntropyStartupPassed]

@[simp] theorem keeps_execAttestationReportSigned (s : State) : Keeps s (execAttestationReportSigned s) := by
  unfold execAttestationReportSigned
  dsimp only
  repeat' split
  all_goals simp

/-! ### The boot sequence -/

@[simp] theorem fixed_bootWaits (s : State) (w : BootWaitFor) : fixed (bootWaits s w) = fixed s := by simp [bootWaits]
@[simp] theorem fixed_bootNext (s : State) : fixed (bootNext s) = fixed s := by simp [bootNext]
@[simp] theorem fixed_bootFails (s : State) : fixed (bootFails s) = fixed s := by simp [bootFails]
@[simp] theorem fixed_putBit (s : State) (f : Fld) (n v : Nat) : fixed (putBit s f n v) = fixed s := by simp [putBit]
@[simp] theorem fixed_gpioSet (s : State) (pin value : Nat) : fixed (gpioSet s pin value) = fixed s := by simp [gpioSet]
@[simp] theorem fixed_bootBegin (s : State) (b : BootStep) : fixed (bootBegin s b) = fixed s := by simp [bootBegin]
@[simp] theorem fixed_bootEnds (s : State) : fixed (bootEnds s) = fixed s := by simp [bootEnds]

@[simp] theorem keeps_execBootStep (s : State) : Keeps s (execBootStep s) := by
  unfold execBootStep
  repeat' split
  all_goals simp

@[simp] theorem keeps_execBootWait (s : State) : Keeps s (execBootWait s) := by
  unfold execBootWait
  split <;> simp

@[simp] theorem keeps_execI2cWrite (ack : Bool) (s : State) : Keeps s (execI2cWrite ack s) := by simp [execI2cWrite]

@[simp] theorem fixed_bootFinds (s : State) (b : BootStep) (elapsed : Nat) (found : Bool) : fixed (bootFinds s b elapsed found) = fixed s := by
  simp [bootFinds]

@[simp] theorem keeps_execI2cPoll (elapsed : Nat) (reply : Option Nat) (s : State) : Keeps s (execI2cPoll elapsed reply s) := by
  unfold execI2cPoll
  repeat' split
  all_goals simp
  all_goals exact fixed_of_reach ‹_›

@[simp] theorem fixed_takeLevel (s : State) (pin level : Nat) : fixed (takeLevel s pin level) = fixed s := by simp [takeLevel]

@[simp] theorem keeps_execGpioWait (elapsed level : Nat) (s : State) : Keeps s (execGpioWait elapsed level s) := by
  unfold execGpioWait
  repeat' split
  all_goals simp
  all_goals exact fixed_of_reach ‹_›

/-! ### The monitor -/

@[simp] theorem fixed_reply (s : State) (line : String) (values : List Nat) : fixed (reply s line values) = fixed s := by simp [reply]
@[simp] theorem fixed_replyOk (s : State) (values : List Nat) : fixed (replyOk s values) = fixed s := by simp [replyOk]
@[simp] theorem fixed_replySyntax (s : State) : fixed (replySyntax s) = fixed s := by simp [replySyntax]
@[simp] theorem fixed_replyDenied (s : State) : fixed (replyDenied s) = fixed s := by simp [replyDenied]
@[simp] theorem fixed_replyLocked (s : State) : fixed (replyLocked s) = fixed s := by simp [replyLocked]
@[simp] theorem fixed_replyUnavailable (s : State) : fixed (replyUnavailable s) = fixed s := by simp [replyUnavailable]
@[simp] theorem keeps_execIdent (s : State) : Keeps s (execIdent s) := by simp [execIdent]
@[simp] theorem keeps_execStatus (s : State) : Keeps s (execStatus s) := by simp [execStatus]
@[simp] theorem keeps_execLog (first count : Nat) (s : State) : Keeps s (execLog first count s) := by simp [execLog]
@[simp] theorem keeps_execCounters (block : Nat) (s : State) : Keeps s (execCounters block s) := by simp [execCounters]
@[simp] theorem fixed_freshNonce (s : State) : fixed (freshNonce s) = fixed s := by simp [freshNonce]
@[simp] theorem keeps_execChallenge (s : State) : Keeps s (execChallenge s) := by simp [execChallenge]
@[simp] theorem keeps_execUnlock (block : List Byte) (spelt : Bool) (s : State) : Keeps s (execUnlock block spelt s) := by simp [execUnlock]
@[simp] theorem keeps_execPeek (off : Nat) (s : State) : Keeps s (execPeek off s) := by simp [execPeek]
@[simp] theorem keeps_execPoke (off value : Nat) (s : State) : Keeps s (execPoke off value s) := by simp [execPoke]
@[simp] theorem keeps_execLock (s : State) : Keeps s (execLock s) := by simp [execLock]

@[simp] theorem keeps_execUnlockExpiry (s : State) : Keeps s (execUnlockExpiry s) := by
  unfold execUnlockExpiry
  split <;> simp

/-! ### The evaluation of directives -/

/-- The verdict on a directive keeps what no command changes, in each of its outcomes that has a state. -/
def VerdictKeeps (s : State) : Verdict → Prop
  | .wait => True
  | .refused t _ _ => fixed t = fixed s
  | .passed t => fixed t = fixed s

@[simp] theorem verdictKeeps_wait (s : State) : VerdictKeeps s .wait := trivial
@[simp] theorem verdictKeeps_refused (s t : State) (status detail : Nat) : VerdictKeeps s (.refused t status detail) ↔ fixed t = fixed s := Iff.rfl
@[simp] theorem verdictKeeps_passed (s t : State) : VerdictKeeps s (.passed t) ↔ fixed t = fixed s := Iff.rfl

@[simp] theorem verdictKeeps_ite (s : State) (c : Prop) [Decidable c] (a b : Verdict) :
    VerdictKeeps s (if c then a else b) ↔ if c then VerdictKeeps s a else VerdictKeeps s b := by
  split <;> rfl

theorem VerdictKeeps.congr {s t : State} {v : Verdict} (h : fixed s = fixed t) (k : VerdictKeeps s v) : VerdictKeeps t v := by
  cases v <;> simp_all

@[simp] theorem rulingKeeps_ruleOf (w : Deferred) (s : State) (d : Directive) : RulingKeeps s (ruleOf w s d) := by cases d <;> simp [ruleOf]
@[simp] theorem fixed_countAuth (s : State) : fixed (countAuth s) = fixed s := by simp [countAuth]
@[simp] theorem fixed_newNonce (s : State) : fixed (newNonce s) = fixed s := by simp [newNonce]
@[simp] theorem fixed_countRate (s : State) (op : Nat) : fixed (countRate s op) = fixed s := by simp [countRate]

@[simp] theorem verdictKeeps_checkRate (s : State) (h : DirHeader) (d : Directive) (rate : Nat) : VerdictKeeps s (checkRate s h d rate) := by
  unfold checkRate
  dsimp only
  repeat' split
  all_goals simp

@[simp] theorem verdictKeeps_checkPolicy (s : State) (h : DirHeader) (d : Directive) : VerdictKeeps s (checkPolicy s h d) := by
  unfold checkPolicy
  dsimp only
  repeat' split
  all_goals simp [VerdictKeeps.congr _ (verdictKeeps_checkRate _ _ _ _)]

@[simp] theorem verdictKeeps_check (s : State) (h : DirHeader) (d : Directive) : VerdictKeeps s (check s h d) := by simp [check]
@[simp] theorem fixed_takeHead (s : State) : fixed (takeHead s) = fixed s := by simp [takeHead]
@[simp] theorem fixed_refuse (s : State) (w : Deferred) (status detail : Nat) : fixed (refuse s w status detail) = fixed s := by simp [refuse]

@[simp] theorem optionKeeps_evaluateHead (s : State) (h : DirHeader) (d : Directive) : OptionKeeps s (evaluateHead s h d) := by
  have checked := verdictKeeps_check (takeHead s) h d
  unfold evaluateHead
  dsimp only
  split
  · simp
  · next e => simp_all
  · next t e =>
    have head : fixed t = fixed s := by simpa [e] using checked
    have ruled := rulingKeeps_ruleOf (entryAt s h d) t d
    split <;> simp_all

@[simp] theorem fixed_stalled (s : State) : fixed (stalled s) = fixed s := by simp [stalled]

@[simp] theorem fixed_evaluateOne (s : State) (h : DirHeader) (d : Directive) : fixed (evaluateOne s h d).1 = fixed s := by
  unfold evaluateOne
  repeat' split
  all_goals simp
  all_goals exact (optionKeeps_evaluateHead _ _ _).fixed_eq ‹_›

@[simp] theorem keeps_evaluate (h : DirHeader) (d : Directive) (s : State) : Keeps s (evaluate h d s) := by simp [evaluate]

@[simp] theorem fixed_evaluateAll (s : State) (l : List (DirHeader × Directive)) : fixed (evaluateAll s l) = fixed s := by
  induction l generalizing s with
  | nil => rfl
  | cons e l ih => simp [evaluateAll, ih]

@[simp] theorem fixed_fetchFails (s : State) : fixed (fetchFails s) = fixed s := by simp [fetchFails]

@[simp] theorem keeps_execDirectiveFetch (entries : List (DirHeader × Directive)) (s : State) : Keeps s (execDirectiveFetch entries s) := by
  simp [execDirectiveFetch]

@[simp] theorem keeps_execAdmitRoom (h : DirHeader) (index maxParticipants : Nat) (s : State) : Keeps s (execAdmitRoom h index maxParticipants s) := by
  simp [execAdmitRoom]

@[simp] theorem keeps_execAdmitParticipant (h : DirHeader) (index : Nat) (p : PartSpec) (a : AggSpec) (s : State) :
    Keeps s (execAdmitParticipant h index p a s) := by
  simp [execAdmitParticipant]

@[simp] theorem keeps_execAdmitLeg (h : DirHeader) (index : Nat) (l : LegSpec) (s : State) : Keeps s (execAdmitLeg h index l s) := by
  simp [execAdmitLeg]

@[simp] theorem keeps_execSetLeg (h : DirHeader) (index : Nat) (l : LegChange) (s : State) : Keeps s (execSetLeg h index l s) := by simp [execSetLeg]

@[simp] theorem keeps_execSetParticipant (h : DirHeader) (index minRate maxRate weight : Nat) (s : State) :
    Keeps s (execSetParticipant h index minRate maxRate weight s) := by
  simp [execSetParticipant]

@[simp] theorem keeps_execRelease (h : DirHeader) (kind index : Nat) (s : State) : Keeps s (execRelease h kind index s) := by simp [execRelease]

@[simp] theorem keeps_execRequestKeyframe (h : DirHeader) (sender : Nat) (s : State) : Keeps s (execRequestKeyframe h sender s) := by
  simp [execRequestKeyframe]

@[simp] theorem keeps_execAdmitDecode (h : DirHeader) (index : Nat) (d : DecodeSpec) (s : State) : Keeps s (execAdmitDecode h index d s) := by
  simp [execAdmitDecode]

@[simp] theorem keeps_execReadStatistics (h : DirHeader) (kind index what dest : Nat) (s : State) :
    Keeps s (execReadStatistics h kind index what dest s) := by
  simp [execReadStatistics]

@[simp] theorem keeps_execAdmitComposite (h : DirHeader) (index : Nat) (c : CompositeSpec) (s : State) : Keeps s (execAdmitComposite h index c s) := by
  simp [execAdmitComposite]

@[simp] theorem keeps_execSetLayout (h : DirHeader) (index : Nat) (list : List Byte) (length : Nat) (s : State) :
    Keeps s (execSetLayout h index list length s) := by
  simp [execSetLayout]

@[simp] theorem keeps_execAdmitEncode (h : DirHeader) (index : Nat) (e : EncodeSpec) (s : State) : Keeps s (execAdmitEncode h index e s) := by
  simp [execAdmitEncode]

@[simp] theorem keeps_execSetEncode (h : DirHeader) (index : Nat) (e : EncodeRate) (s : State) : Keeps s (execSetEncode h index e s) := by
  simp [execSetEncode]

@[simp] theorem keeps_execAdmitMix (h : DirHeader) (room : Nat) (m : MixSpec) (s : State) : Keeps s (execAdmitMix h room m s) := by
  simp [execAdmitMix]

@[simp] theorem keeps_execSetRoute (h : DirHeader) (leg mode : Nat) (gain : Int) (s : State) : Keeps s (execSetRoute h leg mode gain s) := by
  simp [execSetRoute]

@[simp] theorem keeps_execReadLevels (h : DirHeader) (room dest : Nat) (s : State) : Keeps s (execReadLevels h room dest s) := by
  simp [execReadLevels]

@[simp] theorem keeps_execEnableTalkerExport (h : DirHeader) (room : Nat) (record : Option Nat) (s : State) :
    Keeps s (execEnableTalkerExport h room record s) := by
  simp [execEnableTalkerExport]

@[simp] theorem keeps_execStartThread (h : DirHeader) (entry cluster arg : Nat) (s : State) : Keeps s (execStartThread h entry cluster arg s) := by
  simp [execStartThread]

@[simp] theorem keeps_execStopThread (h : DirHeader) (thread : Nat) (s : State) : Keeps s (execStopThread h thread s) := by simp [execStopThread]

@[simp] theorem keeps_execDeliverKeyToken (h : DirHeader) (token : List Byte) (length : Nat) (s : State) :
    Keeps s (execDeliverKeyToken h token length s) := by
  simp [execDeliverKeyToken]

@[simp] theorem keeps_execAdmitTunnel (h : DirHeader) (index : Nat) (t : TunnelSpec) (s : State) : Keeps s (execAdmitTunnel h index t s) := by
  simp [execAdmitTunnel]

@[simp] theorem keeps_execSwitchEpoch (h : DirHeader) (tunnel epoch : Nat) (s : State) : Keeps s (execSwitchEpoch h tunnel epoch s) := by
  simp [execSwitchEpoch]

@[simp] theorem keeps_execSendTunnelMessage (h : DirHeader) (tunnel label : Nat) (data : List (BitVec 8)) (s : State) :
    Keeps s (execSendTunnelMessage h tunnel label data s) := by
  simp [execSendTunnelMessage]

@[simp] theorem keeps_execSendFrame (h : DirHeader) (egress cls : Nat) (frame : List (BitVec 8)) (s : State) :
    Keeps s (execSendFrame h egress cls frame s) := by
  simp [execSendFrame]

@[simp] theorem keeps_execSetShaper (h : DirHeader) (egress cls rate burst : Nat) (s : State) : Keeps s (execSetShaper h egress cls rate burst s) := by
  simp [execSetShaper]

@[simp] theorem keeps_execSetPortLpi (h : DirHeader) (mac tw : Nat) (s : State) : Keeps s (execSetPortLpi h mac tw s) := by simp [execSetPortLpi]

@[simp] theorem keeps_execEnablePon (h : DirHeader) (port disabled : Nat) (registration : List (BitVec 8)) (s : State) :
    Keeps s (execEnablePon h port disabled registration s) := by
  simp [execEnablePon]

@[simp] theorem keeps_execSetPonPort (h : DirHeader) (port index portId direction queue flags : Nat) (s : State) :
    Keeps s (execSetPonPort h port index portId direction queue flags s) := by
  simp [execSetPonPort]

@[simp] theorem keeps_execSetPonMap (h : DirHeader) (port cls allocId : Nat) (s : State) : Keeps s (execSetPonMap h port cls allocId s) := by
  simp [execSetPonMap]

@[simp] theorem keeps_execSendOmci (h : DirHeader) (port : Nat) (message : List (BitVec 8)) (s : State) : Keeps s (execSendOmci h port message s) := by
  simp [execSendOmci]

@[simp] theorem keeps_execPonTimeOfDay (h : DirHeader) (port superframe seconds nanoseconds : Nat) (s : State) :
    Keeps s (execPonTimeOfDay h port superframe seconds nanoseconds s) := by
  simp [execPonTimeOfDay]

@[simp] theorem keeps_execSwitchPon (h : DirHeader) (s : State) : Keeps s (execSwitchPon h s) := by simp [execSwitchPon]
@[simp] theorem keeps_execStep (h : DirHeader) (source : Nat) (s : State) : Keeps s (execStep h source s) := by simp [execStep]
@[simp] theorem keeps_execSetSeconds (h : DirHeader) (seconds : Nat) (s : State) : Keeps s (execSetSeconds h seconds s) := by simp [execSetSeconds]

@[simp] theorem keeps_execSetMemoryRate (h : DirHeader) (point : Nat) (s : State) : Keeps s (execSetMemoryRate h point s) := by
  simp [execSetMemoryRate]

@[simp] theorem keeps_execArchivePages (h : DirHeader) (first count keyEntry dest : Nat) (s : State) :
    Keeps s (execArchivePages h first count keyEntry dest s) := by
  simp [execArchivePages]

@[simp] theorem keeps_execAttest (h : DirHeader) (nonce dest : Nat) (s : State) : Keeps s (execAttest h nonce dest s) := by simp [execAttest]
@[simp] theorem keeps_execPushImage (h : DirHeader) (image : List Byte) (s : State) : Keeps s (execPushImage h image s) := by simp [execPushImage]

@[simp] theorem keeps_execFlashProgram (h : DirHeader) (image : List Byte) (slot : Nat) (s : State) : Keeps s (execFlashProgram h image slot s) := by
  simp [execFlashProgram]

@[simp] theorem keeps_execSnapshotCounters (h : DirHeader) (blocks dest clear : Nat) (s : State) :
    Keeps s (execSnapshotCounters h blocks dest clear s) := by
  simp [execSnapshotCounters]

@[simp] theorem keeps_execEngineReset (h : DirHeader) (kind index : Nat) (s : State) : Keeps s (execEngineReset h kind index s) := by
  simp [execEngineReset]

@[simp] theorem keeps_execWarmReset (h : DirHeader) (s : State) : Keeps s (execWarmReset h s) := by simp [execWarmReset]
@[simp] theorem keeps_execZeroize (h : DirHeader) (s : State) : Keeps s (execZeroize h s) := by simp [execZeroize]
@[simp] theorem keeps_execRetire (h : DirHeader) (s : State) : Keeps s (execRetire h s) := by simp [execRetire]

/-! ### The words of the lanes -/

@[simp] theorem fixed_threadFault (s : State) (l : Nat) (k : BankId) (code : Nat) : fixed (threadFault s l k code) = fixed s := by simp [threadFault]

@[simp] theorem fixed_putBank (s : State) (l : Nat) (k : BankId) (b : Bank) (cycles : Nat) : fixed (putBank s l k b cycles) = fixed s := by
  simp [putBank]

@[simp] theorem fixed_runSlots (s : State) (l : Nat) (k : BankId) (t : Nat) (x : Thread) (op : AOp) (i : AIn) (ls : LSlot) :
    fixed (runSlots s l k t x op i ls) = fixed s := by
  unfold runSlots
  dsimp only
  repeat' split
  all_goals simp

@[simp] theorem fixed_transferWord (s : State) (l : Nat) (k : BankId) (isPut : Bool) (localReg pair words : Nat) :
    fixed (transferWord s l k isPut localReg pair words) = fixed s := by
  simp [transferWord]

@[simp] theorem fixed_spawnThread (s : State) (x : Thread) (entry arg : Nat) : fixed (spawnThread s x entry arg).1 = fixed s := by
  unfold spawnThread
  repeat' split
  all_goals simp

@[simp] theorem fixed_runControl (s : State) (l : Nat) (k : BankId) (x : Thread) (c : Control) : fixed (runControl s l k x c) = fixed s := by
  unfold runControl
  dsimp only
  repeat' split
  all_goals simp

@[simp] theorem fixed_runWord (s : State) (l : Nat) (k : BankId) (t : Nat) (x : Thread) (w : MWord) : fixed (runWord s l k t x w) = fixed s := by
  unfold runWord
  split <;> simp

@[simp] theorem fixed_issue (s : State) (l : Nat) (w : MWord) : fixed (issue s l w) = fixed s := by
  unfold issue
  repeat' split
  all_goals simp

@[simp] theorem keeps_issueA (op : AOp) (w : LaneA) (s : State) : Keeps s (issueA op w s) := by simp [issueA]
@[simp] theorem keeps_issueL (op : LOp) (w : LaneL) (s : State) : Keeps s (issueL op w s) := by simp [issueL]
@[simp] theorem keeps_issueC (l : Nat) (c : Control) (s : State) : Keeps s (issueC l c s) := by simp [issueC]
@[simp] theorem keeps_execNop (l : Nat) (s : State) : Keeps s (execNop l s) := by simp [execNop]
@[simp] theorem keeps_execAdd (w : LaneA) (s : State) : Keeps s (execAdd w s) := by simp [execAdd]
@[simp] theorem keeps_execSub (w : LaneA) (s : State) : Keeps s (execSub w s) := by simp [execSub]
@[simp] theorem keeps_execAdds (w : LaneA) (s : State) : Keeps s (execAdds w s) := by simp [execAdds]
@[simp] theorem keeps_execSubs (w : LaneA) (s : State) : Keeps s (execSubs w s) := by simp [execSubs]
@[simp] theorem keeps_execAnd (w : LaneA) (s : State) : Keeps s (execAnd w s) := by simp [execAnd]
@[simp] theorem keeps_execOr (w : LaneA) (s : State) : Keeps s (execOr w s) := by simp [execOr]
@[simp] theorem keeps_execXor (w : LaneA) (s : State) : Keeps s (execXor w s) := by simp [execXor]
@[simp] theorem keeps_execShl (w : LaneA) (s : State) : Keeps s (execShl w s) := by simp [execShl]
@[simp] theorem keeps_execShr (w : LaneA) (s : State) : Keeps s (execShr w s) := by simp [execShr]
@[simp] theorem keeps_execAsr (w : LaneA) (s : State) : Keeps s (execAsr w s) := by simp [execAsr]
@[simp] theorem keeps_execMin (w : LaneA) (s : State) : Keeps s (execMin w s) := by simp [execMin]
@[simp] theorem keeps_execMax (w : LaneA) (s : State) : Keeps s (execMax w s) := by simp [execMax]
@[simp] theorem keeps_execAbs (w : LaneA) (s : State) : Keeps s (execAbs w s) := by simp [execAbs]
@[simp] theorem keeps_execMul (w : LaneA) (s : State) : Keeps s (execMul w s) := by simp [execMul]
@[simp] theorem keeps_execMov (w : LaneA) (s : State) : Keeps s (execMov w s) := by simp [execMov]
@[simp] theorem keeps_execMac (w : LaneA) (s : State) : Keeps s (execMac w s) := by simp [execMac]
@[simp] theorem keeps_execMsu (w : LaneA) (s : State) : Keeps s (execMsu w s) := by simp [execMsu]
@[simp] theorem keeps_execDot4 (w : LaneA) (s : State) : Keeps s (execDot4 w s) := by simp [execDot4]
@[simp] theorem keeps_execVmac4 (w : LaneA) (s : State) : Keeps s (execVmac4 w s) := by simp [execVmac4]
@[simp] theorem keeps_execAclr (w : LaneA) (s : State) : Keeps s (execAclr w s) := by simp [execAclr]
@[simp] theorem keeps_execAext (w : LaneA) (s : State) : Keeps s (execAext w s) := by simp [execAext]
@[simp] theorem keeps_execAld (w : LaneA) (s : State) : Keeps s (execAld w s) := by simp [execAld]
@[simp] theorem keeps_execAadd (w : LaneA) (s : State) : Keeps s (execAadd w s) := by simp [execAadd]
@[simp] theorem keeps_execDstep (w : LaneA) (s : State) : Keeps s (execDstep w s) := by simp [execDstep]
@[simp] theorem keeps_execDfix (w : LaneA) (s : State) : Keeps s (execDfix w s) := by simp [execDfix]
@[simp] theorem keeps_execMovcTo (w : LaneA) (s : State) : Keeps s (execMovcTo w s) := by simp [execMovcTo]
@[simp] theorem keeps_execMovcFrom (w : LaneA) (s : State) : Keeps s (execMovcFrom w s) := by simp [execMovcFrom]
@[simp] theorem keeps_execCmp (w : LaneA) (s : State) : Keeps s (execCmp w s) := by simp [execCmp]
@[simp] theorem keeps_execLd8s (w : LaneL) (s : State) : Keeps s (execLd8s w s) := by simp [execLd8s]
@[simp] theorem keeps_execLd16s (w : LaneL) (s : State) : Keeps s (execLd16s w s) := by simp [execLd16s]
@[simp] theorem keeps_execLd32 (w : LaneL) (s : State) : Keeps s (execLd32 w s) := by simp [execLd32]
@[simp] theorem keeps_execLd64 (w : LaneL) (s : State) : Keeps s (execLd64 w s) := by simp [execLd64]
@[simp] theorem keeps_execLdq (w : LaneL) (s : State) : Keeps s (execLdq w s) := by simp [execLdq]
@[simp] theorem keeps_execSt8 (w : LaneL) (s : State) : Keeps s (execSt8 w s) := by simp [execSt8]
@[simp] theorem keeps_execSt16 (w : LaneL) (s : State) : Keeps s (execSt16 w s) := by simp [execSt16]
@[simp] theorem keeps_execSt32 (w : LaneL) (s : State) : Keeps s (execSt32 w s) := by simp [execSt32]
@[simp] theorem keeps_execSt64 (w : LaneL) (s : State) : Keeps s (execSt64 w s) := by simp [execSt64]
@[simp] theorem keeps_execStq (w : LaneL) (s : State) : Keeps s (execStq w s) := by simp [execStq]
@[simp] theorem keeps_execPset (w : LaneL) (s : State) : Keeps s (execPset w s) := by simp [execPset]
@[simp] theorem keeps_execPget (w : LaneL) (s : State) : Keeps s (execPget w s) := by simp [execPget]
@[simp] theorem keeps_execLdxy (l : Nat) (x : XYArgs) (beside : ASlot) (s : State) : Keeps s (execLdxy l x beside s) := by simp [execLdxy]
@[simp] theorem keeps_execBr (l cond : Nat) (offset : Int) (s : State) : Keeps s (execBr l cond offset s) := by simp [execBr]
@[simp] theorem keeps_execCall (l cond : Nat) (offset : Int) (s : State) : Keeps s (execCall l cond offset s) := by simp [execCall]
@[simp] theorem keeps_execRet (l : Nat) (s : State) : Keeps s (execRet l s) := by simp [execRet]

@[simp] theorem keeps_execLoop (l level : Nat) (rotate isReg : Bool) (count body : Nat) (s : State) :
    Keeps s (execLoop l level rotate isReg count body s) := by
  simp [execLoop]

@[simp] theorem keeps_execWait (l mode value : Nat) (s : State) : Keeps s (execWait l mode value s) := by simp [execWait]
@[simp] theorem keeps_execSignal (l cluster event : Nat) (s : State) : Keeps s (execSignal l cluster event s) := by simp [execSignal]
@[simp] theorem keeps_execSpawn (l entry arg result : Nat) (s : State) : Keeps s (execSpawn l entry arg result s) := by simp [execSpawn]
@[simp] theorem keeps_execFetch (l localReg pair words : Nat) (s : State) : Keeps s (execFetch l localReg pair words s) := by simp [execFetch]
@[simp] theorem keeps_execPut (l localReg pair words : Nat) (s : State) : Keeps s (execPut l localReg pair words s) := by simp [execPut]
@[simp] theorem keeps_execFence (l : Nat) (s : State) : Keeps s (execFence l s) := by simp [execFence]

@[simp] theorem fixed_endTransfer (s : State) (l : Nat) (k : BankId) (x : Transfer) (r : TransferResult) : fixed (endTransfer s l k x r) = fixed s := by
  unfold endTransfer
  dsimp only
  repeat' split
  all_goals simp

@[simp] theorem keeps_execTransferDone (l bank : Nat) (r : TransferResult) (s : State) : Keeps s (execTransferDone l bank r s) := by
  unfold execTransferDone
  dsimp only
  repeat' split
  all_goals simp

@[simp] theorem keeps_execPreempt (t : Nat) (s : State) : Keeps s (execPreempt t s) := by
  unfold execPreempt
  dsimp only
  repeat' split
  all_goals simp

@[simp] theorem keeps_execAffinityExpiry (t : Nat) (s : State) : Keeps s (execAffinityExpiry t s) := by
  unfold execAffinityExpiry
  repeat' split
  all_goals simp
  all_goals exact fixed_of_reach ‹_›

@[simp] theorem keeps_execRunaway (l : Nat) (s : State) : Keeps s (execRunaway l s) := by
  unfold execRunaway
  dsimp only
  split <;> simp

/-! ### The effects at a boundary -/

@[simp] theorem fixed_startThreadEffect (s : State) (t u entry arg : Nat) : fixed (startThreadEffect s t u entry arg) = fixed s := by
  unfold startThreadEffect
  split <;> simp

@[simp] theorem fixed_memoryRateEffect (s : State) (point : Nat) : fixed (memoryRateEffect s point) = fixed s := by
  unfold memoryRateEffect
  split <;> simp

@[simp] theorem fixed_archiveEffect (s : State) (sequence first count key dest : Nat) :
    fixed (archiveEffect s sequence first count key dest) = fixed s := by
  unfold archiveEffect
  split <;> simp

@[simp] theorem fixed_applyEffect (s : State) (e : Effect) : fixed (applyEffect s e) = fixed s := by
  unfold applyEffect
  repeat' split
  all_goals simp

@[simp] theorem fixed_applyEffects (s : State) : fixed (applyEffects s) = fixed s := by simp [applyEffects]
@[simp] theorem fixed_activateAll (s : State) : fixed (activateAll s) = fixed s := by simp [activateAll]
@[simp] theorem fixed_freeTunnels (s : State) : fixed (freeTunnels s) = fixed s := by simp [freeTunnels]
@[simp] theorem fixed_freeAll (s : State) : fixed (freeAll s) = fixed s := by simp [freeAll]
@[simp] theorem fixed_latenessAll (s : State) : fixed (latenessAll s) = fixed s := by simp [latenessAll]

@[simp] theorem fixed_lateDrop (s : State) (kind i : Nat) : fixed (lateDrop s kind i) = fixed s := by
  unfold lateDrop
  dsimp only
  repeat' split
  all_goals simp

@[simp] theorem fixed_lateDrops (s : State) : fixed (lateDrops s) = fixed s := by simp [lateDrops]
@[simp] theorem fixed_moveSchedules (s : State) : fixed (moveSchedules s) = fixed s := by simp [moveSchedules]

/-! ### The tick boundary -/

@[simp] theorem fixed_enterProving (s : State) (reason : Nat) : fixed (enterProving s reason) = fixed s := by
  unfold enterProving
  dsimp only
  split <;> simp

@[simp] theorem fixed_pinPageKey (s : State) (key salt : Nat) : fixed (pinPageKey s key salt) = fixed s := by
  unfold pinPageKey
  split <;> simp

@[simp] theorem fixed_drawKeys (s : State) : fixed (drawKeys s) = fixed s := by simp [drawKeys]
@[simp] theorem fixed_fuseRollback (s : State) : fixed (fuseRollback s) = fixed s := by simp [fuseRollback]
@[simp] theorem fixed_timeEntry (s : State) : fixed (timeEntry s) = fixed s := by simp [timeEntry]
@[simp] theorem fixed_enterService (s : State) (m : Mode) (reason : Nat) : fixed (enterService s m reason) = fixed s := by simp [enterService]
@[simp] theorem fixed_transition (s : State) (r : Mode × Nat) : fixed (transition s r) = fixed s := by simp [transition]

@[simp] theorem fixed_modeStep (s : State) : fixed (modeStep s) = fixed s := by
  unfold modeStep
  repeat' split
  all_goals simp

@[simp] theorem fixed_toBoundary (s : State) : fixed (toBoundary s) = fixed s := by simp [toBoundary]
@[simp] theorem fixed_endTick (s : State) : fixed (endTick s) = fixed s := by simp [endTick]
@[simp] theorem fixed_startTick (s : State) : fixed (startTick s) = fixed s := by simp [startTick]
@[simp] theorem fixed_generationStep (s : State) : fixed (generationStep s) = fixed s := by simp [generationStep]
@[simp] theorem fixed_admissionStep (s : State) : fixed (admissionStep s) = fixed s := by simp [admissionStep]
@[simp] theorem fixed_mixDrops (s : State) : fixed (mixDrops s) = fixed s := by simp [mixDrops]
@[simp] theorem fixed_serviceStep (s : State) : fixed (serviceStep s) = fixed s := by simp [serviceStep]
@[simp] theorem fixed_tickBoundary (s : State) : fixed (tickBoundary s) = fixed s := by simp [tickBoundary]
@[simp] theorem keeps_execTickBoundary (s : State) : Keeps s (execTickBoundary s) := by simp [execTickBoundary]
@[simp] theorem keeps_boundaryIf (due : Bool) (s : State) : Keeps s (boundaryIf due s) := by simp [boundaryIf]
@[simp] theorem keeps_execLateDrop (kind stream : Nat) (s : State) : Keeps s (execLateDrop kind stream s) := by simp [execLateDrop]
@[simp] theorem keeps_execGenerationChanged (s : State) : Keeps s (execGenerationChanged s) := by simp [execGenerationChanged]
@[simp] theorem keeps_execGenerationRetired (s : State) : Keeps s (execGenerationRetired s) := by simp [execGenerationRetired]
@[simp] theorem keeps_execGenForced (s : State) : Keeps s (execGenForced s) := by simp [execGenForced]
@[simp] theorem keeps_execEntryToServing (s : State) : Keeps s (execEntryToServing s) := by simp [execEntryToServing]
@[simp] theorem keeps_execLegDrained (kind index : Nat) (s : State) : Keeps s (execLegDrained kind index s) := by simp [execLegDrained]
@[simp] theorem keeps_execThreadDelayExpiry (s : State) : Keeps s (execThreadDelayExpiry s) := by simp [execThreadDelayExpiry]
@[simp] theorem keeps_execTunnelFreed (tunnel : Nat) (s : State) : Keeps s (execTunnelFreed tunnel s) := by simp [execTunnelFreed]
@[simp] theorem keeps_execRetirement (kind index : Nat) (s : State) : Keeps s (execRetirement kind index s) := by simp [execRetirement]
@[simp] theorem keeps_execAutoWarmReset (s : State) : Keeps s (execAutoWarmReset s) := by simp [execAutoWarmReset]
@[simp] theorem keeps_execSetPointChange (s : State) : Keeps s (execSetPointChange s) := by simp [execSetPointChange]
@[simp] theorem keeps_execCrownLinkFault (met : LinkMeeting) (s : State) : Keeps s (execCrownLinkFault met s) := by simp [execCrownLinkFault]
@[simp] theorem fixed_idleCycle (s : State) : fixed (idleCycle s) = fixed s := by simp [idleCycle]

/-! ### The dispatch -/

@[simp] theorem keeps_exec (i : Instr) (s : State) : Keeps s (exec i s) := by
  unfold exec
  split <;> simp

/-! ### The step -/

/-- A step keeps what no command changes but the queue, from which it takes the front command. -/
theorem fixed_step {s t : State} (h : step s = .next t) : ∃ q, fixed t = fixed (s.withQueue q) := by
  unfold step at h
  split at h
  · obtain rfl := Host.Outcome.next.inj h
    exact ⟨s.pending, fixed_idleCycle s⟩
  · next c rest _ =>
    have kept := keeps_exec c (s.withQueue rest)
    rw [h] at kept
    exact ⟨rest, kept⟩

/-- Settles O4: every operation of the model leaves the identity of the fuses, so every command and every cycle of the clock does (R3). -/
theorem partIdentityNeverChanges : Obligations.PartIdentityNeverChanges := by
  intro s t h
  obtain ⟨q, kept⟩ := fixed_step h
  exact ⟨congrArg Fixed.is8832 kept, congrArg Fixed.gradeI kept, congrArg Fixed.dv kept⟩

end Sys2Proof.Machine

/-!
Internal memory as data (R26, R27): what a write leaves, and that a canonical memory is what it reads as.
-/

namespace Sys2Proof.Machine

/-! ### Internal memory -/

/-- Putting a byte leaves every other address, in canonical form or not. -/
theorem memByte_put_ne {a x : Nat} (v : Byte) (h : x ≠ a) (m : List Host.Cell) : memByte (memPut m a v) x = memByte m x := by
  induction m with
  | nil =>
    unfold memPut
    split <;> simp [memByte, h.symm]
  | cons c t ih =>
    obtain ⟨b, w⟩ := c
    unfold memPut
    split
    · split <;> simp [memByte, h.symm]
    · split
      · next e => subst e; split <;> simp [memByte, h.symm]
      · simp [memByte, ih]

/-- Writing bytes leaves every address outside them, in canonical form or not. -/
theorem memByte_write_ne (l : List Byte) (m : List Host.Cell) {a x : Nat} (h : x < a ∨ a + l.length ≤ x) :
    memByte (memWrite m a l) x = memByte m x := by
  induction l generalizing m a with
  | nil => rfl
  | cons v l ih =>
    rw [List.length_cons] at h
    rw [memWrite, ih _ (by omega), memByte_put_ne v (by omega)]

/-- The byte at an address after a write: the one written there, or the one before. -/
theorem memByte_write (l : List Byte) {m : List Host.Cell} (a x : Nat) (h : Memory.wf m = true) :
    memByte (memWrite m a l) x = if a ≤ x then l.getD (x - a) (memByte m x) else memByte m x := by
  induction l generalizing m a with
  | nil => simp [memWrite]
  | cons v l ih =>
    rw [memWrite, ih (a + 1) (Memory.wf_put h a v), memByte_put h]
    obtain lt | rfl | gt := Nat.lt_trichotomy x a
    · simp [show ¬ a + 1 ≤ x by omega, show ¬ a ≤ x by omega, show x ≠ a by omega]
    · simp
    · simp [show a + 1 ≤ x by omega, show a ≤ x by omega, show x ≠ a by omega, show x - a = x - (a + 1) + 1 by omega]

/-- A cell of a canonical memory holds no zero. -/
theorem memByte_head_ne_zero {n : Nat} {c : Host.Cell} {t : List Host.Cell} (h : Memory.wfFrom n (c :: t) = true) : memByte (c :: t) c.1 ≠ 0 := by
  simp only [Memory.wfFrom, Bool.and_eq_true, decide_eq_true_eq] at h
  simpa [memByte] using h.1.1

/-- Above its first address a canonical memory reads as its tail. -/
theorem memByte_tail {c : Host.Cell} {t : List Host.Cell} {a : Nat} (h : c.1 < a) : memByte (c :: t) a = memByte t a := by
  simp [memByte, Nat.ne_of_lt h]

/-- A canonical memory is determined by what it reads as. -/
theorem Memory.eq_of_memByte {k : Nat} {m n : List Host.Cell} (hm : Memory.wfFrom k m = true) (hn : Memory.wfFrom k n = true)
    (same : ∀ a, memByte m a = memByte n a) : m = n := by
  induction m generalizing k n with
  | nil =>
    cases n with
    | nil => rfl
    | cons d u => exact absurd (same d.1).symm (memByte_head_ne_zero hn)
  | cons c t ih =>
    cases n with
    | nil => exact absurd (same c.1) (memByte_head_ne_zero hm)
    | cons d u =>
      have headC := memByte_head_ne_zero hm
      have headD := memByte_head_ne_zero hn
      simp only [Memory.wfFrom, Bool.and_eq_true, decide_eq_true_eq] at hm hn
      obtain ⟨⟨-, -⟩, tailC⟩ := hm
      obtain ⟨⟨-, -⟩, tailD⟩ := hn
      have first : c.1 = d.1 := by
        obtain lt | eq | gt := Nat.lt_trichotomy c.1 d.1
        · exact absurd ((same c.1).trans (by rw [memByte, if_neg (by omega), memByte_below tailD (by omega)])) headC
        · exact eq
        · exact absurd ((same d.1).symm.trans (by rw [memByte, if_neg (by omega), memByte_below tailC (by omega)])) headD
      have value : c.2 = d.2 := by simpa [memByte, first] using same c.1
      have rest : t = u := by
        refine ih tailC (first ▸ tailD) fun a => ?_
        by_cases above : c.1 < a
        · rw [← memByte_tail (c := c) above, same, memByte_tail (first ▸ above)]
        · rw [memByte_below tailC (by omega), memByte_below tailD (by omega)]
      rw [Prod.ext first value, rest]

/-- Canonical memories that read alike are equal. -/
theorem Memory.ext {m n : List Host.Cell} (hm : Memory.wf m = true) (hn : Memory.wf n = true) (same : ∀ a, memByte m a = memByte n a) : m = n := by
  rw [Memory.wf_iff] at hm hn
  exact Memory.eq_of_memByte hm hn same

/-- Writes to ranges that do not meet may be exchanged. -/
theorem memWrite_comm {m : List Host.Cell} (h : Memory.wf m = true) {a b : Nat} {x y : List Byte} (apart : a + x.length ≤ b) :
    memWrite (memWrite m a x) b y = memWrite (memWrite m b y) a x := by
  have wx := Memory.wf_write x a h
  have wy := Memory.wf_write y b h
  refine Memory.ext (Memory.wf_write y b wx) (Memory.wf_write x a wy) fun i => ?_
  by_cases below : i < b
  · rw [memByte_write_ne y _ (.inl below), memByte_write x a i h, memByte_write x a i wy, memByte_write_ne y _ (.inl below)]
  · have beyond : i < a ∨ a + x.length ≤ i := .inr (by omega)
    rw [memByte_write_ne x _ beyond, memByte_write y b i wx, memByte_write y b i h, memByte_write_ne x _ beyond]

/-- Settles O8, by the bytes that a write leaves and the canonical form. -/
theorem memoryReadsBackWhatWasWritten : Obligations.MemoryReadsBackWhatWasWritten :=
  ⟨fun _ a bs h => memRead_write bs a h, fun m _ bs _ => memByte_write_ne bs m, fun _ a bs h => Memory.wf_write bs a h,
   fun _ _ => Memory.ext, fun _ _ _ _ _ h => memWrite_comm h⟩

/-- Settles O7: nothing is listed in any memory after the cold reset. -/
theorem resetMemoryIsCanonical : Obligations.ResetMemoryIsCanonical := ⟨rfl, fun _ => rfl⟩

end Sys2Proof.Machine

/-!
The clock, the temperature and the aging monitors (R500 to R502), and the failures of engines and links (R22, R480, R486): one rule for each branch.
-/

namespace Sys2Proof.Machine

/-! ### The clock -/

theorem clockRequest_inForce {s : State} {point : Nat} (known : point < 3) (h : point = eclk s) :
    clockRequest s point = wr s Reg.POWER.CLOCK_CONTROL_REQUEST point := by
  rw [clockRequest, if_neg (Nat.not_le.2 known), if_pos h]

/-- A request is refused where the host may ask for none, below the ceiling and while one is pending (R500). -/
theorem clockRequest_refused {s : State} {point : Nat} (known : point < 3) (other : point ≠ eclk s)
    (h : rd s Reg.POWER.POWER_CONFIG_HOST_CLOCK = 0 ∨ point < rd s Reg.POWER.CLOCK_CONTROL_CEILING ∨ rd s Reg.POWER.CLOCK_CONTROL_PENDING = 1) :
    clockRequest s point = raise s Reg.POWER.CLOCK_CONTROL_REFUSED := by
  rw [clockRequest, if_neg (Nat.not_le.2 known), if_neg other, if_pos]
  simpa [or_assoc] using h

theorem exec_clockRequest {s : State} (point : Nat) (h : hostReaches s = true) : exec (.clockRequest point) s = .next (clockRequest s point) := by
  simp [exec, execClockRequest, h]

/-! ### Temperature and aging -/

section
variable {s u : State} {celsius : Int} (on : s.mode ≠ .dormant) (shown : wr s Reg.POWER.POWER_STATUS_JUNCTION (ofSigned 8 celsius) = u)
include on shown

theorem exec_junctionReading_outside (h : celsius < -50 ∨ 125 < celsius) : exec (.junctionReading celsius) s = .next (zeroizeTrigger u 3 0) := by
  simp [exec, execJunctionReading, on, shown, h]

/-- Within the limits of R97 the reading steps the clock down at the threshold and above (R501). -/
theorem exec_junctionReading_inside (low : -50 ≤ celsius) (high : celsius ≤ 125) : exec (.junctionReading celsius) s =
    .next (if (rd u Reg.POWER.POWER_CONFIG_THROTTLE_TEMP : Int) ≤ celsius then stepDown u else u) := by
  simp only [exec, execJunctionReading, on, shown, if_false, Int.not_lt.2 low, Int.not_lt.2 high, decide_false, Bool.or_false, Bool.false_eq_true]
  split <;> rfl
end

theorem exec_agingCheck {s : State} (slack : Nat) (on : s.mode ≠ .dormant) (due : reachable s s.power.agingAt = true) :
    exec (.agingCheck slack) s = .next (agingCheck (advanceTo s s.power.agingAt) slack) := by
  simp [exec, execAgingCheck, on, reach, due]

section
variable {w u v : State} {slack : Nat} (shown : wr w Reg.POWER.POWER_STATUS_MARGIN (min slack 255) = u) (moved : setVdd u (agingTarget u slack) = v)
include shown moved

/-- A margin that suffices ends the run of low ones (R502). -/
theorem agingCheck_sufficient (h : rd u Reg.POWER.POWER_CONFIG_MARGIN_MIN ≤ slack) : agingCheck w slack =
    { v with power := { v.power with marginLow := 0, learned := v.power.learned.put (eclk v) (vdd v), agingAt := nowNs v + 1000000000 } } := by
  simp [agingCheck, shown, moved, Nat.not_lt.2 h]

/-- The third low margin in a row at 800 mV steps the clock down (R502). -/
theorem agingCheck_third (low : slack < rd u Reg.POWER.POWER_CONFIG_MARGIN_MIN) (most : vdd u = 800) (run : 2 ≤ u.power.marginLow) :
    agingCheck w slack = stepDown (raise
      { v with power := { v.power with marginLow := 0, learned := v.power.learned.put (eclk v) (vdd v), agingAt := nowNs v + 1000000000 } }
      Reg.POWER.POWER_EVENTS_AGING_LIMIT) := by
  have third : 3 ≤ u.power.marginLow + 1 := by omega
  simp [agingCheck, shown, moved, low, most, third]
end

/-! ### Engine and link failures -/

/-- A failure is counted, and the engine is reset unless it is resetting already (R480). -/
theorem exec_engineFailure {s : State} (kind index : Nat) (laneMemory : Bool) (on : enginesPowered s = true) :
    exec (.engineFailure kind index laneMemory) s = .next
      (if (countFailure (if laneMemory then countLaneError s kind index else s) kind index).2
        then resetEngine (countFailure (if laneMemory then countLaneError s kind index else s) kind index).1 kind index
        else (countFailure (if laneMemory then countLaneError s kind index else s) kind index).1) := by
  simp only [exec, execEngineFailure, on, if_true]

theorem exec_engineResetDone (s : State) (kind index : Nat) : exec (.engineResetDone kind index) s =
    .next { s with faults := { s.faults with resetting := s.faults.resetting.filter (fun e => e ≠ engineId kind index) } } := rfl

section
variable {s u : State} {link : Nat} {e : LinkError}

/-- What a link meets and corrects is counted and no more (R22). -/
theorem exec_crownLinkFault_corrected (met : linkMeets s link e = (u, false)) : exec (.crownLinkFault ⟨link, e⟩) s = .next u := by
  simp [exec, execCrownLinkFault, met]

/-- A lasting fault in service is logged and met at the next boundary (R486). -/
theorem exec_crownLinkFault_lasting (met : linkMeets s link e = (u, true)) (service : inService u = true) (whole : u.trust.zeroizing = false) :
    exec (.crownLinkFault ⟨link, e⟩) s = .next { fault u 0x50 21 0xFFFF (link % 2 ^ 16) 0 with faults :=
        { (fault u 0x50 21 0xFFFF (link % 2 ^ 16) 0).faults with linkPending := (fault u 0x50 21 0xFFFF (link % 2 ^ 16) 0).faults.linkPending ++ [linkOf link] } } := by
  simp [exec, execCrownLinkFault, met, service, whole]

/-- On a link within a die a single bit is corrected and counted, a double bit is lasting. -/
theorem linkMeets_onDie (s : State) (h : dieCrossing (linkOf link) = false) :
    (linkMeets s link .singleBit).2 = false ∧ (linkMeets s link .doubleBit).2 = true ∧
      (linkMeets s link .singleBit).1.crown.corrected.get link = some ((s.crown.corrected.get link).getD 0 + 1) := by
  simp [linkMeets, h]

/-- On a link between dies a flit is replayed up to 8 times, and the ninth failure in a row is lasting. -/
theorem linkMeets_crossing (s : State) (h : dieCrossing (linkOf link) = true) (n : Nat) : ((linkMeets s link (.crc n)).2 = true ↔ 9 ≤ n) ∧
    (linkMeets s link (.crc n)).1.crown.replays.get link = some ((s.crown.replays.get link).getD 0 + min 8 n) := by
  simp [linkMeets, h]
end

/-- Settles O59, by one rule for each branch of the six commands. -/
theorem powerAndRecoveryCommandsComplete : Obligations.PowerAndRecoveryCommandsComplete := by
  refine ⟨?clock, ?junction, ?aging, ?failure, ?done, ?lasting, fun _ _ _ _ => exec_crownLinkFault_corrected, ?link⟩
  case clock =>
    intro s point host known
    rw [exec_clockRequest point host]
    exact ⟨fun h => by rw [clockRequest_inForce known h], fun other h => by rw [clockRequest_refused known other h]⟩
  case junction =>
    intro s u celsius on shown
    refine ⟨exec_junctionReading_outside on shown, fun low high hot => ?_, fun low high cool => ?_⟩
    · rw [exec_junctionReading_inside on shown low high, if_pos hot]
    · rw [exec_junctionReading_inside on shown low high, if_neg (Int.not_le.2 cool)]
  case aging =>
    rintro s w u v slack on due rfl shown moved
    rw [exec_agingCheck slack on due]
    exact ⟨fun low most run => by rw [agingCheck_third shown moved low most run], fun h => by rw [agingCheck_sufficient shown moved h]⟩
  case failure =>
    intro s kind index on
    refine ⟨fun h => ?_, fun h => ?_, fun h => ?_⟩ <;> rw [exec_engineFailure kind index _ on] <;> simp [h]
  case done =>
    intro s kind index
    refine ⟨_, exec_engineResetDone s kind index, ?_, fun e other => ?_, rfl⟩
    · simp
    · simp [other]
  case lasting =>
    intro s u link e met _ service whole
    exact exec_crownLinkFault_lasting met service whole
  case link =>
    intro s link
    exact ⟨linkMeets_onDie s, linkMeets_crossing s⟩

end Sys2Proof.Machine

/-!
The canonical form of the memories (R26, R27, R446). Each operation of the model has one lemma: `memoryWf_f` says that `f` leaves the canonical form
of the memories as it finds it or, for an operation that writes a memory, that it keeps it. `outcomeWf_f` says of a command, and `rulingWf_f` of the
rule of a directive, that canonical memories stay so. The section of an operation is named after its chapter of the model.
-/

namespace Sys2Proof.Machine

/-! ### The canonical form of the parts of a state -/

/-- The local memories of the lanes are in canonical form. -/
def lanesWf (t : Table Lane) : Bool := List.all t (fun e => Memory.wf e.2.mem)

/-- The page frames are in canonical form. -/
def framesWf (t : Table PageFrame) : Bool := List.all t (fun e => Memory.wf e.2.data)

/-- The rules speak of the three parts, and `simp` puts them together again to the predicate of the model. -/
@[simp] theorem memoryWf_fold (s : State) : (Memory.wf s.mem && lanesWf s.mitten.lanes && framesWf s.glove.frames) = s.memoryWf := rfl

/-- A state given by its fields, as an update of a record leaves it: three of the fields hold memories. -/
@[simp] theorem memoryWf_mk (x0 : Mode) (x1 : List (Mode × Nat)) (x2 : Bool) (x3 : Table Nat) (x4 : HostState) (x5 : TimeState) (x6 : TrustState)
    (x7 : FaultState) (x8 : ProvingState) (x9 : PowerState) (x10 : List Charge) (x11 : List Host.Cell) (x12 : Table Room) (x13 : Table Participant)
    (x14 : Table Leg) (x15 : Table DecodeStream) (x16 : Table Buffer) (x17 : Table Composite) (x18 : Table EncodeStream) (x19 : Table AudioSource)
    (x20 : Table Nat) (x21 : Table Mix) (x22 : MittenState) (x23 : IngressState) (x24 : CipherState) (x25 : GauntletState) (x26 : BandState)
    (x27 : Table EthPort) (x28 : PonState) (x29 : CrownState) (x30 : NearState) (x31 : LiningState) (x32 : GloveState) (x33 : DmaState) (x34 : List Effect)
    (x35 : List Output) (x36 : Nat) (x37 : List Instr) :
    State.memoryWf ⟨x0, x1, x2, x3, x4, x5, x6, x7, x8, x9, x10, x11, x12, x13, x14, x15, x16, x17, x18, x19, x20, x21, x22, x23, x24, x25, x26, x27, x28, x29,
      x30, x31, x32, x33, x34, x35, x36, x37⟩ =
      (Memory.wf x11 && lanesWf x22.lanes && framesWf x32.frames) := rfl

@[simp] theorem memoryWf_ite (c : Prop) [Decidable c] (a b : State) : (if c then a else b).memoryWf = if c then a.memoryWf else b.memoryWf :=
  apply_ite State.memoryWf c a b

theorem memoryWf_iff (s : State) :
    s.memoryWf = true ↔ Memory.wf s.mem = true ∧ lanesWf s.mitten.lanes = true ∧ framesWf s.glove.frames = true := by
  rw [← memoryWf_fold, Bool.and_eq_true, Bool.and_eq_true, and_assoc]

section
variable {s : State} (h : s.memoryWf = true)
include h

@[simp] theorem wf_mem : Memory.wf s.mem = true := ((memoryWf_iff s).1 h).1
@[simp] theorem lanesWf_lanes : lanesWf s.mitten.lanes = true := ((memoryWf_iff s).1 h).2.1
@[simp] theorem framesWf_frames : framesWf s.glove.frames = true := ((memoryWf_iff s).1 h).2.2
end

@[simp] theorem memoryWf_cold (f : Fuses) : (State.cold f).memoryWf = true := (memoryWf_iff _).2 ⟨rfl, rfl, rfl⟩

@[simp] theorem wf_nil : Memory.wf [] = true := rfl

/-! ### The memory of a lane -/

@[simp] theorem Lane.withBank_mem (l : Lane) (k : BankId) (b : Bank) : (l.withBank k b).mem = l.mem := by cases k <;> rfl
@[simp] theorem Lane.withThread_mem (l : Lane) (k : BankId) (t : Option Nat) : (l.withThread k t).mem = l.mem := by cases k <;> rfl
@[simp] theorem Lane.ran_mem (l : Lane) (k : BankId) (n : Nat) : (l.ran k n).mem = l.mem := by cases k <;> rfl

/-- An entry of a table is one of its pairs. -/
theorem Table.mem_of_get {α : Type} {t : Table α} {k : Nat} {x : α} (h : t.get k = some x) : (k, x) ∈ (t : List (Nat × α)) := by
  induction t with
  | nil => simp at h
  | cons e t ih =>
    obtain ⟨a, b⟩ := e
    unfold Table.get at h
    split at h
    · next same => simp_all
    · exact List.mem_cons_of_mem _ (ih h)

/-- A property of all entries survives an entry that has it. -/
theorem Table.all_put {α : Type} {p : Nat × α → Bool} {t : Table α} {k : Nat} {x : α} (h : List.all t p = true) (hx : p (k, x) = true) :
    List.all (t.put k x) p = true := by
  induction t with
  | nil => simp [Table.put, hx]
  | cons e t ih =>
    rw [List.all_cons, Bool.and_eq_true] at h
    obtain ⟨first, rest⟩ := h
    unfold Table.put
    split
    · simp_all
    · split
      · simp_all
      · simp [first, ih rest]

/-- Setting an entry to one that has the property as the entry before it had leaves whether all have it. -/
theorem Table.all_put_eq {α : Type} {p : α → Bool} {t : Table α} {k : Nat} {x y : α} (hy : t.get k = some y) (hx : p x = p y) :
    List.all (t.put k x) (fun e => p e.2) = List.all t (fun e => p e.2) := by
  induction t with
  | nil => simp at hy
  | cons e t ih =>
    obtain ⟨a, b⟩ := e
    have listed := Table.mem_of_get hy
    unfold Table.get at hy
    unfold Table.put
    split
    · have : List.all ((a, b) :: t) (fun e => p e.2) = true → p y = true := fun all => List.all_eq_true.1 all _ listed
      rw [List.all_cons, hx, Bool.and_eq_right_iff_imp]
      exact this
    · split at hy
      · next same => obtain rfl := Option.some.inj hy; simp [same, hx]
      · next other => simp [Ne.symm other, ih hy]

/-- A new entry that has the property leaves whether all have it. -/
theorem Table.all_put_new {α : Type} {p : α → Bool} {t : Table α} {k : Nat} {x : α} (hy : t.get k = none) (hx : p x = true) :
    List.all (t.put k x) (fun e => p e.2) = List.all t (fun e => p e.2) := by
  induction t with
  | nil => simp [Table.put, hx]
  | cons e t ih =>
    obtain ⟨a, b⟩ := e
    unfold Table.get at hy
    split at hy
    · simp at hy
    · next other =>
      unfold Table.put
      split
      · simp [hx]
      · simp [Ne.symm other, ih hy]

/-- A lane with the memory that it had leaves the canonical form of the lanes as it is. -/
theorem lanesWf_put_same {s : State} {l : Nat} {x : Lane} (h : x.mem = (laneOf s l).mem) : lanesWf (s.mitten.lanes.put l x) = lanesWf s.mitten.lanes := by
  unfold laneOf at h
  unfold lanesWf
  cases e : s.mitten.lanes.get l with
  | none => exact Table.all_put_new (p := fun y : Lane => Memory.wf y.mem) e (by simp [h, e, Lane.zero])
  | some y => exact Table.all_put_eq (p := fun y : Lane => Memory.wf y.mem) e (by simp [h, e])

/-- The memory of a lane is in canonical form. -/
@[simp] theorem wf_laneOf {s : State} (h : s.memoryWf = true) (l : Nat) : Memory.wf (laneOf s l).mem = true := by
  unfold laneOf
  cases e : s.mitten.lanes.get l with
  | none => rfl
  | some x => exact List.all_eq_true.1 (lanesWf_lanes h) _ (Table.mem_of_get e)

/-! ### The data of a page frame -/

theorem framesWf_put {t : Table PageFrame} {k : Nat} {f : PageFrame} (h : framesWf t = true) (hf : Memory.wf f.data = true) :
    framesWf (t.put k f) = true :=
  Table.all_put h hf

theorem framesWf_del {t : Table PageFrame} (h : framesWf t = true) (k : Nat) : framesWf (t.del k) = true :=
  List.all_eq_true.2 fun _ listed => List.all_eq_true.1 h _ (List.mem_of_mem_filter listed)

theorem wf_data_of_mem {t : Table PageFrame} {e : Nat × PageFrame} (h : framesWf t = true) (listed : e ∈ (t : List (Nat × PageFrame))) :
    Memory.wf e.2.data = true :=
  List.all_eq_true.1 h e listed

theorem mem_of_leastBy {α : Type} {f : α → Int} {l : List α} {a : α} (h : leastBy f l = some a) : a ∈ l := by
  induction l generalizing a with
  | nil => simp [leastBy] at h
  | cons b l ih =>
    unfold leastBy at h
    split at h
    · simp_all
    · next c e =>
      split at h
      · simp_all
      · exact List.mem_cons_of_mem _ (ih (e.trans h))

/-! ### Outcomes, folds and reaches -/

/-- The state that a command answers has canonical memories. -/
def OutcomeWf (o : Host.Outcome State Fault Refusal) : Prop :=
  match o with
  | .next t => t.memoryWf = true
  | _ => True

@[simp] theorem outcomeWf_next (t : State) : OutcomeWf (.next t) ↔ t.memoryWf = true := Iff.rfl
@[simp] theorem outcomeWf_fault (f : Fault) : OutcomeWf (.fault f) ↔ True := Iff.rfl
@[simp] theorem outcomeWf_refused (r : Refusal) : OutcomeWf (.refused r) ↔ True := Iff.rfl
@[simp] theorem outcomeWf_ok (t : State) : OutcomeWf (ok t) ↔ t.memoryWf = true := Iff.rfl

@[simp] theorem outcomeWf_ite (c : Prop) [Decidable c] (a b : Host.Outcome State Fault Refusal) :
    OutcomeWf (if c then a else b) ↔ if c then OutcomeWf a else OutcomeWf b := by
  split <;> rfl

/-- A fold leaves the canonical form as it is if each of its steps does. -/
@[simp] theorem memoryWf_foldl {α : Type} (l : List α) (f : State → α → State) (h : ∀ s x, (f s x).memoryWf = s.memoryWf) (s : State) :
    (l.foldl f s).memoryWf = s.memoryWf := by
  induction l generalizing s with
  | nil => rfl
  | cons x l ih => simp [ih, h]

/-- A state with canonical memories. -/
abbrev CanonicalState := { s : State // s.memoryWf = true }

@[simp] theorem memoryWf_canonical (s : CanonicalState) : s.1.memoryWf = true := s.2

/-- A fold keeps canonical memories if each of its steps does. -/
@[simp] theorem memoryWf_foldl_of {α : Type} (l : List α) (f : State → α → State) (step : ∀ (s : CanonicalState) x, (f s.1 x).memoryWf = true)
    {s : State} (h : s.memoryWf = true) : (l.foldl f s).memoryWf = true := by
  induction l generalizing s with
  | nil => exact h
  | cons x l ih => exact ih (step ⟨s, h⟩ x)

/-- Advancing the clock leaves the canonical form as it is. -/
@[simp] theorem memoryWf_advanceTo (s : State) (t : Nat) : (advanceTo s t).memoryWf = s.memoryWf := by
  unfold advanceTo State.withClock
  split <;> simp

/-- A fold of a state beside other data leaves the canonical form as it is if each of its steps does. -/
@[simp] theorem memoryWf_foldl_fst {α β : Type} (l : List α) (f : State × β → α → State × β) (h : ∀ r x, (f r x).1.memoryWf = r.1.memoryWf)
    (r : State × β) : (l.foldl f r).1.memoryWf = r.1.memoryWf := by
  induction l generalizing r with
  | nil => rfl
  | cons x l ih => simp [ih, h]

/-- A fold of a state beside other data keeps canonical memories if each of its steps does. -/
@[simp] theorem memoryWf_foldl_fst_of {α β : Type} (l : List α) (f : State × β → α → State × β)
    (step : ∀ (s : CanonicalState) b x, (f (s.1, b) x).1.memoryWf = true) {r : State × β} (h : r.1.memoryWf = true) :
    (l.foldl f r).1.memoryWf = true := by
  induction l generalizing r with
  | nil => exact h
  | cons x l ih => exact ih (step ⟨r.1, h⟩ r.2 x)

/-- The state that is reached has the canonical form of the state before. -/
theorem memoryWf_of_reach {s r : State} {t : Nat} (h : reach s t = some r) : r.memoryWf = s.memoryWf := by
  obtain ⟨-, rfl⟩ := (reach_eq_some s t r).1 h
  exact memoryWf_advanceTo s t

/-- A reach that goes on to `f` leaves the canonical form as it is if `f` does. -/
@[simp] theorem memoryWf_reach_elim (s : State) (t : Nat) (f : State → State) (h : ∀ r, (f r).memoryWf = r.memoryWf) :
    ((reach s t).elim s f).memoryWf = s.memoryWf := by
  cases e : reach s t with
  | none => rfl
  | some r => simp [h, memoryWf_of_reach e]

/-- An operation that may answer no state leaves the canonical form as it is in the state it answers. -/
def OptionKeepsMemory (s : State) (o : Option State) : Prop := ∀ t, o = some t → t.memoryWf = s.memoryWf

@[simp] theorem optionKeepsMemory_none (s : State) : OptionKeepsMemory s none := by simp [OptionKeepsMemory]

@[simp] theorem optionKeepsMemory_some (s t : State) : OptionKeepsMemory s (some t) ↔ t.memoryWf = s.memoryWf := by simp [OptionKeepsMemory]

@[simp] theorem optionKeepsMemory_ite (s : State) (c : Prop) [Decidable c] (a b : Option State) :
    OptionKeepsMemory s (if c then a else b) ↔ if c then OptionKeepsMemory s a else OptionKeepsMemory s b := by
  split <;> rfl

theorem OptionKeepsMemory.memoryWf_eq {s t : State} {o : Option State} (h : OptionKeepsMemory s o) (e : o = some t) : t.memoryWf = s.memoryWf := h t e

theorem OptionKeepsMemory.congr {s t : State} {o : Option State} (h : s.memoryWf = t.memoryWf) (k : OptionKeepsMemory s o) : OptionKeepsMemory t o :=
  fun u e => (k u e).trans h

/-- An operation that may answer no state answers canonical memories. -/
def OptionWf (o : Option State) : Prop := ∀ t, o = some t → t.memoryWf = true

@[simp] theorem optionWf_none : OptionWf none := by simp [OptionWf]

@[simp] theorem optionWf_some (t : State) : OptionWf (some t) ↔ t.memoryWf = true := by simp [OptionWf]

/-! ### Registers, rings, events, the fault log and draws -/

@[simp] theorem memoryWf_wr (s : State) (f : Fld) (v : Nat) : (wr s f v).memoryWf = s.memoryWf := by simp [wr]
@[simp] theorem memoryWf_bumpBy (s : State) (f : Fld) (n : Nat) : (bumpBy s f n).memoryWf = s.memoryWf := by simp [bumpBy]
@[simp] theorem memoryWf_bump (s : State) (f : Fld) : (bump s f).memoryWf = s.memoryWf := by simp [bump]
@[simp] theorem memoryWf_emit (s : State) (o : Output) : (emit s o).memoryWf = s.memoryWf := by simp [emit]
@[simp] theorem memoryWf_cutFrame (s : State) (m : Nat) : (cutFrame s m).memoryWf = s.memoryWf := by simp [cutFrame]
@[simp] theorem memoryWf_withPon (s : State) (p : Nat) (f : PonPort → PonPort) : (withPon s p f).memoryWf = s.memoryWf := by simp [withPon]
@[simp] theorem memoryWf_takeLos (s : State) (p : Nat) (high : Bool) : (takeLos s p high).memoryWf = s.memoryWf := by simp [takeLos]
@[simp] theorem memoryWf_signal (s : State) (v : Nat) : (signal s v).memoryWf = s.memoryWf := by simp [signal]
@[simp] theorem memoryWf_moderateEvt (s : State) (atOnce : Bool) : (moderateEvt s atOnce).memoryWf = s.memoryWf := by simp [moderateEvt]
@[simp] theorem memoryWf_moderateCpl (s : State) (atOnce : Bool) : (moderateCpl s atOnce).memoryWf = s.memoryWf := by simp [moderateCpl]
@[simp] theorem memoryWf_moderateStats (s : State) : (moderateStats s).memoryWf = s.memoryWf := by simp [moderateStats]

@[simp] theorem memoryWf_putEvent (s : State) (block stamp : Nat) (data : EventData) (atOnce : Bool) :
    (putEvent s block stamp data atOnce).memoryWf = s.memoryWf := by
  simp [putEvent]

@[simp] theorem memoryWf_loseEvent (s : State) : (loseEvent s).memoryWf = s.memoryWf := by simp [loseEvent]

@[simp] theorem memoryWf_event (s : State) (block stamp : Nat) (data : EventData) (atOnce : Bool) :
    (event s block stamp data atOnce).memoryWf = s.memoryWf := by
  simp [event]

@[simp] theorem memoryWf_raiseAll (s : State) (fs : List Fld) : (raiseAll s fs).memoryWf = s.memoryWf := by
  unfold raiseAll
  dsimp only
  split <;> simp

@[simp] theorem memoryWf_raise (s : State) (f : Fld) : (raise s f).memoryWf = s.memoryWf := by simp [raise]
@[simp] theorem memoryWf_accessError (s : State) : (accessError s).memoryWf = s.memoryWf := by simp [accessError]

@[simp] theorem memoryWf_logEntry (s : State) (code block port detail address : Nat) : (logEntry s code block port detail address).1.memoryWf = s.memoryWf := by
  unfold logEntry
  split <;> simp

@[simp] theorem memoryWf_fault (s : State) (code block port detail address : Nat) : (fault s code block port detail address).memoryWf = s.memoryWf := by
  simp [fault]

@[simp] theorem memoryWf_changeMode (s : State) (m : Mode) (reason : Nat) : (changeMode s m reason).memoryWf = s.memoryWf := by simp [changeMode]
@[simp] theorem memoryWf_reseed (s : State) : (reseed s).memoryWf = s.memoryWf := by simp [reseed]
@[simp] theorem memoryWf_draw (s : State) : (draw s).1.memoryWf = s.memoryWf := by simp [draw]

@[simp] theorem memoryWf_setCharges (s : State) (kind index : Nat) (cs : List Charge) : (setCharges s kind index cs).memoryWf = s.memoryWf := by
  simp [setCharges]

@[simp] theorem memoryWf_releaseCharges (s : State) (kind index : Nat) : (releaseCharges s kind index).memoryWf = s.memoryWf := by simp [releaseCharges]

@[simp] theorem memoryWf_exchangeWrite {s : State} (offset : Nat) (bytes : List Byte) (h : s.memoryWf = true) :
    (exchangeWrite s offset bytes).memoryWf = true := by
  simp [exchangeWrite, Memory.wf_write, h]

@[simp] theorem optionKeepsMemory_deliver (s : State) (bytes : List Byte) (source reason port context stamp : Nat) :
    OptionKeepsMemory s (deliver s bytes source reason port context stamp) := by
  unfold deliver
  repeat' split
  all_goals simp

@[simp] theorem memoryWf_deliveryFailed (s : State) : (deliveryFailed s).memoryWf = s.memoryWf := by simp [deliveryFailed]
@[simp] theorem memoryWf_lateJobs (s : State) (counter : Fld) (n : Nat) : (lateJobs s counter n).memoryWf = s.memoryWf := by simp [lateJobs]

/-! ### The clock and requests for a mode -/

@[simp] theorem memoryWf_withClock (s : State) (c : Nat) : (State.withClock s c).memoryWf = s.memoryWf := by simp [State.withClock]
@[simp] theorem memoryWf_requestMode (s : State) (m : Mode) (reason : Nat) : (requestMode s m reason).memoryWf = s.memoryWf := by simp [requestMode]
@[simp] theorem memoryWf_provingFailed (s : State) (item : Nat) : (provingFailed s item).memoryWf = s.memoryWf := by simp [provingFailed]
@[simp] theorem memoryWf_markOnce (s : State) (key : Nat) : (markOnce s key).memoryWf = s.memoryWf := by simp [markOnce]
@[simp] theorem memoryWf_freshId (s : State) : (State.freshId s).1.memoryWf = s.memoryWf := by simp [State.freshId]

/-! ### The budget -/

@[simp] theorem memoryWf_wrAll (s : State) (l : List (Fld × Nat)) : (wrAll s l).memoryWf = s.memoryWf := by
  induction l generalizing s with
  | nil => rfl
  | cons e l ih => simp [wrAll, ih]

@[simp] theorem memoryWf_loadImage (s : State) (i : Image) (source : Nat) : (loadImage s i source).memoryWf = s.memoryWf := by simp [loadImage]

/-! ### Completions -/

@[simp] theorem memoryWf_putCompletion (s : State) (c : Completion) : (putCompletion s c).memoryWf = s.memoryWf := by simp [putCompletion]
@[simp] theorem memoryWf_complete (s : State) (c : Completion) : (complete s c).memoryWf = s.memoryWf := by simp [complete]

@[simp] theorem memoryWf_flushFrom (s : State) (l : List Completion) : (flushFrom s l).memoryWf = s.memoryWf := by
  induction l generalizing s with
  | nil => simp [flushFrom]
  | cons c l ih => simp [flushFrom, ih]

@[simp] theorem memoryWf_flush (s : State) : (flush s).memoryWf = s.memoryWf := by simp [flush]

@[simp] theorem memoryWf_finish (s : State) (d : Deferred) (status detail result : Nat) : (finish s d status detail result).memoryWf = s.memoryWf := by
  simp [finish]

@[simp] theorem memoryWf_defer (s : State) (d : Deferred) : (defer s d).memoryWf = s.memoryWf := by simp [defer]

/-! ### The Crown -/

@[simp] theorem memoryWf_flitServed (s : State) (src dst : Nat) : (flitServed s src dst).memoryWf = s.memoryWf := by simp [flitServed]
@[simp] theorem memoryWf_refuseAt (s : State) (port reason : Nat) : (refuseAt s port reason).memoryWf = s.memoryWf := by simp [refuseAt]
@[simp] theorem memoryWf_unmapped (s : State) (port a : Nat) : (unmapped s port a).memoryWf = s.memoryWf := by simp [unmapped]
@[simp] theorem memoryWf_denied (s : State) (port a : Nat) : (denied s port a).memoryWf = s.memoryWf := by simp [denied]
@[simp] theorem memoryWf_portOff (s : State) (port : Nat) : (portOff s port).memoryWf = s.memoryWf := by simp [portOff]

@[simp] theorem memoryWf_answerCrown (s : State) (port a : Nat) (r : CrownReply) : (answerCrown s port a r).memoryWf = s.memoryWf := by
  cases r <;> simp [answerCrown]

@[simp] theorem memoryWf_linkMeets (s : State) (link : Nat) (e : LinkError) : (linkMeets s link e).1.memoryWf = s.memoryWf := by
  unfold linkMeets
  repeat' split
  all_goals simp

/-! ### Near memory -/

@[simp] theorem memoryWf_withChannel (s : State) (stack ch : Nat) (c : MemChannel) : (withChannel s stack ch c).memoryWf = s.memoryWf := by simp [withChannel]
@[simp] theorem memoryWf_withBank (s : State) (stack ch bank : Nat) (b : MemBank) : (withBank s stack ch bank b).memoryWf = s.memoryWf := by simp [withBank]
@[simp] theorem memoryWf_correctedIn (s : State) (stack ch bank row : Nat) : (correctedIn s stack ch bank row).memoryWf = s.memoryWf := by simp [correctedIn]

@[simp] theorem memoryWf_uncorrectableIn (s : State) (stack ch bank row port a syndrome : Nat) :
    (uncorrectableIn s stack ch bank row port a syndrome).memoryWf = s.memoryWf := by
  simp [uncorrectableIn]

@[simp] theorem memoryWf_updLeg (s : State) (l : Nat) (f : Leg → Leg) : (updLeg s l f).memoryWf = s.memoryWf := by simp [updLeg]
@[simp] theorem memoryWf_faultLeg (s : State) (l : Nat) : (faultLeg s l).memoryWf = s.memoryWf := by simp [faultLeg]

@[simp] theorem memoryWf_faultLegAt (s : State) (a : Nat) : (faultLegAt s a).memoryWf = s.memoryWf := by
  unfold faultLegAt
  split <;> simp

@[simp] theorem memoryWf_serve {s : State} (stack ch : Nat) (isWrite : Bool) (q : QueuedRequest) (e : Ecc) (h : s.memoryWf = true) :
    (serve s stack ch isWrite q e).memoryWf = true := by
  unfold serve
  dsimp only
  repeat' split
  all_goals simp [Memory.wf_write, h]

@[simp] theorem memoryWf_refresh (s : State) (stack ch bank : Nat) (forced : Bool) : (refresh s stack ch bank forced).memoryWf = s.memoryWf := by
  simp [refresh]

@[simp] theorem memoryWf_enqueue (s : State) (stack ch : Nat) (r : MemRequest) : (enqueue s stack ch r).memoryWf = s.memoryWf := by
  unfold enqueue
  split <;> simp

@[simp] theorem memoryWf_admitWaiting (s : State) (stack ch : Nat) (n : Nat) : (admitWaiting s stack ch n).memoryWf = s.memoryWf := by
  induction n generalizing s with
  | zero => rfl
  | succ n ih =>
    unfold admitWaiting
    split
    · rfl
    · simp [ih]

@[simp] theorem memoryWf_arrive (s : State) (stack ch : Nat) (r : Option MemRequest) : (arrive s stack ch r).memoryWf = s.memoryWf := by
  unfold arrive
  split <;> simp

@[simp] theorem memoryWf_issueCommand {s : State} (stack ch : Nat) (ecc : Ecc) (h : s.memoryWf = true) : (issueCommand s stack ch ecc).memoryWf = true := by
  unfold issueCommand
  split <;> simp [h]

@[simp] theorem outcomeWf_execMemoryRequest (stack channel : Nat) (request : Option MemRequest) (ecc : Ecc) {s : State} (h : s.memoryWf = true) :
    OutcomeWf (execMemoryRequest stack channel request ecc s) := by
  unfold execMemoryRequest
  repeat' split
  all_goals simp [h]

@[simp] theorem outcomeWf_execRefreshDue (stack channel bank : Nat) {s : State} (h : s.memoryWf = true) : OutcomeWf (execRefreshDue stack channel bank s) := by
  unfold execRefreshDue
  dsimp only
  repeat' split
  all_goals simp [h]
  all_goals exact (memoryWf_of_reach ‹_›).trans h

@[simp] theorem outcomeWf_execTemperatureReading (stack : Nat) (celsius : Int) {s : State} (h : s.memoryWf = true) :
    OutcomeWf (execTemperatureReading stack celsius s) := by
  unfold execTemperatureReading
  repeat' split
  all_goals simp [h]
  all_goals exact (memoryWf_of_reach ‹_›).trans h

@[simp] theorem outcomeWf_execCatchupEnd (stack : Nat) {s : State} (h : s.memoryWf = true) : OutcomeWf (execCatchupEnd stack s) := by simp [execCatchupEnd, h]

@[simp] theorem memoryWf_poisonRow (s : State) (stack channel bank row : Nat) (bad : List Nat) :
    (poisonRow s stack channel bank row bad).memoryWf = s.memoryWf := by
  simp [poisonRow]

@[simp] theorem outcomeWf_execRowRemap (stack channel : Nat) (c : RowCopy) {s : State} (h : s.memoryWf = true) :
    OutcomeWf (execRowRemap stack channel c s) := by
  unfold execRowRemap
  dsimp only
  repeat' split
  all_goals simp [h]

@[simp] theorem outcomeWf_execScrubRead (stack channel : Nat) (ecc : Ecc) {s : State} (h : s.memoryWf = true) :
    OutcomeWf (execScrubRead stack channel ecc s) := by
  unfold execScrubRead
  dsimp only
  repeat' split
  all_goals simp [h]

@[simp] theorem memoryWf_showSets (s : State) (stack : Nat) : (showSets s stack).memoryWf = s.memoryWf := by simp [showSets]
@[simp] theorem memoryWf_trainSet (s : State) (stack ch point : Nat) : (trainSet s stack ch point).memoryWf = s.memoryWf := by simp [trainSet]
@[simp] theorem memoryWf_holdStep (s : State) (stack ch ns : Nat) : (holdStep s stack ch ns).memoryWf = s.memoryWf := by simp [holdStep]
@[simp] theorem memoryWf_faultChannel (s : State) (stack ch : Nat) : (faultChannel s stack ch).memoryWf = s.memoryWf := by simp [faultChannel]

@[simp] theorem outcomeWf_execTrackingStep (stack channel : Nat) (inRange trains : Bool) {s : State} (h : s.memoryWf = true) :
    OutcomeWf (execTrackingStep stack channel inRange trains s) := by
  simp [execTrackingStep, h]

@[simp] theorem outcomeWf_execChannelFault (stack channel : Nat) {s : State} (h : s.memoryWf = true) : OutcomeWf (execChannelFault stack channel s) := by
  simp [execChannelFault, h]

@[simp] theorem outcomeWf_execTrainingSetExpiry (stack point : Nat) {s : State} (h : s.memoryWf = true) :
    OutcomeWf (execTrainingSetExpiry stack point s) := by
  unfold execTrainingSetExpiry
  -- with a number in its place the kernel would count up to the hour (R417) while it compares the two matches
  obtain ⟨hour, e⟩ : ∃ n, 3600000000000 = n := ⟨_, rfl⟩
  rw [e]
  dsimp only
  split
  · simp [h]
  · split
    · simp [h]
    · split
      · simp [h]
      · next reached => simp [memoryWf_of_reach reached, h]

@[simp] theorem memoryWf_takePoint (s : State) (point : Nat) : (takePoint s point).memoryWf = s.memoryWf := by simp [takePoint]

@[simp] theorem memoryWf_beginPointChange (s : State) (d : Deferred) (point : Nat) : (beginPointChange s d point).memoryWf = s.memoryWf := by
  simp [beginPointChange]

@[simp] theorem memoryWf_faultRetrained (s : State) (point : Nat) (failed : List Nat) : (faultRetrained s point failed).memoryWf = s.memoryWf := by
  simp [faultRetrained]

@[simp] theorem outcomeWf_execMemoryRetrainingDone (failed : List Nat) {s : State} (h : s.memoryWf = true) : OutcomeWf (execMemoryRetrainingDone failed s) := by
  unfold execMemoryRetrainingDone
  split <;> simp [h]

@[simp] theorem memoryWf_store {s : State} (address : Nat) (bytes : List Byte) (h : s.memoryWf = true) : (store s address bytes).memoryWf = true := by
  simp [store, Memory.wf_write, h]

/-! ### The Lining -/

@[simp] theorem memoryWf_setGroup (s : State) (g v : Nat) : (setGroup s g v).memoryWf = s.memoryWf := by simp [setGroup]
@[simp] theorem memoryWf_withLiningBank (s : State) (g b : Nat) (x : LiningBank) : (withLiningBank s g b x).memoryWf = s.memoryWf := by simp [withLiningBank]

@[simp] theorem memoryWf_poisonLining (s : State) (g b row : Nat) (bad : List Nat) : (poisonLining s g b row bad).memoryWf = s.memoryWf := by
  simp [poisonLining]

@[simp] theorem memoryWf_spareRow (s : State) (g b row : Nat) (bad : List Nat) : (spareRow s g b row bad).memoryWf = s.memoryWf := by simp [spareRow]

@[simp] theorem outcomeWf_execRowSpare (group : Nat) (c : RowCopy) {s : State} (h : s.memoryWf = true) : OutcomeWf (execRowSpare group c s) := by
  unfold execRowSpare
  repeat' split
  all_goals simp [h]

@[simp] theorem memoryWf_liningServe {s : State} (g : Nat) (q : LiningRequest) (h : s.memoryWf = true) : (liningServe s g q).memoryWf = true := by
  unfold liningServe
  dsimp only
  repeat' split
  all_goals simp [h]

@[simp] theorem memoryWf_liningCycle {s : State} (g : Nat) (qs : List LiningRequest) (h : s.memoryWf = true) : (liningCycle s g qs).memoryWf = true := by
  refine memoryWf_foldl_of _ _ (fun s b => ?_) h
  dsimp only
  split <;> simp

@[simp] theorem memoryWf_liningPass (s : State) (qs : List LiningRequest) : (liningPass s qs).1.memoryWf = s.memoryWf := by simp [liningPass]

@[simp] theorem outcomeWf_execLiningAccess (group : Nat) (requests : List LiningRequest) {s : State} (h : s.memoryWf = true) :
    OutcomeWf (execLiningAccess group requests s) := by
  simp [execLiningAccess, h]

@[simp] theorem memoryWf_spareFailing (r : State × List Nat) (x : Nat × Nat × Nat) : (spareFailing r x).1.memoryWf = r.1.memoryWf := by
  simp [spareFailing]

@[simp] theorem memoryWf_clearGroup {s : State} (g : Nat) (h : s.memoryWf = true) : (clearGroup s g).memoryWf = true := by
  simp [clearGroup, Memory.wf_filter, h]
@[simp] theorem memoryWf_marchGo (s : State) (group form : Nat) : (marchGo s group form).memoryWf = s.memoryWf := by simp [marchGo]
@[simp] theorem outcomeWf_execMarchGo (group form : Nat) {s : State} (h : s.memoryWf = true) : OutcomeWf (execMarchGo group form s) := by simp [execMarchGo, h]

@[simp] theorem memoryWf_stopMarch (s : State) : (stopMarch s).memoryWf = s.memoryWf := by
  unfold stopMarch
  split <;> simp

@[simp] theorem memoryWf_failGroup (s : State) (g : Nat) : (failGroup s g).memoryWf = s.memoryWf := by
  unfold failGroup
  dsimp only
  repeat' split
  all_goals simp

@[simp] theorem memoryWf_trainAll (s : State) : (trainAll s).memoryWf = s.memoryWf := by
  have trained (s : State) (k : Nat) :
      ((List.range 16).foldl (fun s ch => (List.range 3).foldl (fun s p => trainSet s k ch p) s) s).memoryWf = s.memoryWf := by
    apply memoryWf_foldl
    intro s ch
    simp
  simp [trainAll, trained]

@[simp] theorem outcomeWf_execMarchDone (failing again : List Nat) {s : State} (h : s.memoryWf = true) : OutcomeWf (execMarchDone failing again s) := by
  unfold execMarchDone
  split
  · split
    · simp [h]
    · next reached => simp [memoryWf_of_reach reached, h]
  · simp [h]

@[simp] theorem memoryWf_placeLining (s : State) : (placeLining s).memoryWf = s.memoryWf := by simp [placeLining]

/-! ### The Glovebox -/

@[simp] theorem memoryWf_showFrames (s : State) : (showFrames s).memoryWf = s.memoryWf := by simp [showFrames]
@[simp] theorem memoryWf_countPageJob (s : State) : (countPageJob s).memoryWf = s.memoryWf := by simp [countPageJob]

@[simp] theorem memoryWf_writeBack {s : State} (k : Nat) {f : PageFrame} (h : s.memoryWf = true) (hf : Memory.wf f.data = true) :
    (writeBack s k f).memoryWf = true := by
  simp [writeBack, framesWf_put, h, hf]

@[simp] theorem memoryWf_emptyFrame {s : State} (h : s.memoryWf = true) : (emptyFrame s).memoryWf = true := by
  unfold emptyFrame
  split
  · exact h
  · split
    · simp [framesWf_del, h]
    · split
      · next f oldest =>
        have written := memoryWf_writeBack f.1 h (wf_data_of_mem (framesWf_frames h) (mem_of_leastBy oldest))
        simp [framesWf_del, written]
      · exact h

@[simp] theorem memoryWf_fillFrame {s : State} (page : Nat) {data : List Host.Cell} (h : s.memoryWf = true) (hd : Memory.wf data = true) :
    (fillFrame s page data).memoryWf = true := by
  unfold fillFrame
  split <;> simp [framesWf_put, h, hd]

/-- The frame of a page holds canonical data. -/
theorem wf_data_of_frameOf {s : State} {page k : Nat} {f : PageFrame} (h : s.memoryWf = true) (held : frameOf s page = some (k, f)) :
    Memory.wf f.data = true :=
  wf_data_of_mem (framesWf_frames h) (List.mem_of_find?_eq_some held)

@[simp] theorem memoryWf_gloveServe {s : State} (r : MemRequest) (h : s.memoryWf = true) : (gloveServe s r).memoryWf = true := by
  unfold gloveServe
  split
  · exact h
  · next held =>
    have data := wf_data_of_frameOf h held
    dsimp only
    split <;> simp [framesWf_put, Memory.wf_write, h, data]

/-- A page that was never written fills an empty frame with zeros. -/
@[simp] theorem memoryWf_fillFrame_emptyFrame {s : State} (page : Nat) (h : s.memoryWf = true) :
    (fillFrame (bump (emptyFrame s) Reg.GLOVEBOX.ZERO_FILLS) page []).memoryWf = true :=
  memoryWf_fillFrame page ((memoryWf_bump _ _).trans (memoryWf_emptyFrame h)) wf_nil

@[simp] theorem memoryWf_gloveAccess {s : State} (r : MemRequest) (h : s.memoryWf = true) : (gloveAccess s r).memoryWf = true := by
  have empty := memoryWf_emptyFrame h
  simp [gloveAccess, h, empty]

@[simp] theorem memoryWf_archiveRecord (s : State) (j : ArchiveJob) (f : PageFrame) : (archiveRecord s j f).memoryWf = s.memoryWf := by simp [archiveRecord]

@[simp] theorem memoryWf_archiveOn {s : State} (j : ArchiveJob) (n : Nat) (h : s.memoryWf = true) : (archiveOn s j n).1.memoryWf = true := by
  induction n generalizing s j with
  | zero => exact h
  | succ n ih =>
    unfold archiveOn
    dsimp only
    repeat' split
    all_goals simp [ih, h]

@[simp] theorem memoryWf_runArchives {s : State} (h : s.memoryWf = true) : (runArchives s).memoryWf = true := by
  refine memoryWf_foldl_of _ _ (fun s j => ?_) h
  dsimp only
  split <;> simp

@[simp] theorem memoryWf_endArchives (s : State) (page : Nat) : (endArchives s page).memoryWf = s.memoryWf := by simp [endArchives]
@[simp] theorem outcomeWf_execGloveboxAccess (r : MemRequest) {s : State} (h : s.memoryWf = true) : OutcomeWf (execGloveboxAccess r s) := by
  simp [execGloveboxAccess, h]

@[simp] theorem memoryWf_poisonRequests (s : State) (rs : List MemRequest) : (poisonRequests s rs).memoryWf = s.memoryWf := by
  unfold poisonRequests
  apply memoryWf_foldl
  intro s x
  split <;> simp

@[simp] theorem outcomeWf_execPageFetchDone (page : Nat) (r : FetchResult) {s : State} (h : s.memoryWf = true) :
    OutcomeWf (execPageFetchDone page r s) := by
  have served {t : State} (ht : t.memoryWf = true) (bytes : List Byte) (rs : List MemRequest) :
      (rs.foldl gloveServe (fillFrame (emptyFrame t) page (memWrite [] 0 bytes))).memoryWf = true :=
    memoryWf_foldl_of rs gloveServe (fun s r => memoryWf_gloveServe r s.2) (memoryWf_fillFrame page (memoryWf_emptyFrame ht) (Memory.wf_write bytes 0 wf_nil))
  unfold execPageFetchDone
  repeat' split
  all_goals simp [served, h]

/-! ### DMA -/

@[simp] theorem memoryWf_withDma (s : State) (ch : Nat) (c : DmaChannel) : (withDma s ch c).memoryWf = s.memoryWf := by simp [withDma]

@[simp] theorem memoryWf_dmaNext (s : State) (engine : Nat) : (dmaNext s engine).memoryWf = s.memoryWf := by
  unfold dmaNext
  dsimp only
  repeat' split
  all_goals simp

@[simp] theorem memoryWf_dmaFaultFields (s : State) (ch : Nat) (c : DmaChannel) : (dmaFaultFields s ch c).memoryWf = s.memoryWf := by
  unfold dmaFaultFields
  split <;> simp

@[simp] theorem memoryWf_dmaHalt (s : State) (ch : Nat) (c : DmaChannel) (reason : Nat) : (dmaHalt s ch c reason).memoryWf = s.memoryWf := by simp [dmaHalt]
@[simp] theorem memoryWf_dmaHaltAll (s : State) (which : Nat → Bool) (reason : Nat) : (dmaHaltAll s which reason).memoryWf = s.memoryWf := by simp [dmaHaltAll]
@[simp] theorem memoryWf_dmaIssue (s : State) (ch : Nat) (c : DmaChannel) (d : Descriptor) : (dmaIssue s ch c d).memoryWf = s.memoryWf := by simp [dmaIssue]

@[simp] theorem memoryWf_dmaDescriptorDone (s : State) (ch : Nat) (c : DmaChannel) (d : Descriptor) : (dmaDescriptorDone s ch c d).memoryWf = s.memoryWf := by
  simp [dmaDescriptorDone]

@[simp] theorem memoryWf_dmaStore {s : State} (ch : Nat) (d : Descriptor) (a : Nat) (bs : List Byte) (h : s.memoryWf = true) :
    (dmaStore s ch d a bs).memoryWf = true := by
  simp [dmaStore, h]

@[simp] theorem memoryWf_dmaGo (s : State) (ch : Nat) : (dmaGo s ch).memoryWf = s.memoryWf := by simp [dmaGo]
@[simp] theorem outcomeWf_execDmaGo (ch : Nat) {s : State} (h : s.memoryWf = true) : OutcomeWf (execDmaGo ch s) := by simp [execDmaGo, h]

@[simp] theorem memoryWf_dmaAbort (s : State) (ch : Nat) : (dmaAbort s ch).memoryWf = s.memoryWf := by
  unfold dmaAbort
  split <;> simp

@[simp] theorem outcomeWf_execDmaAbort (ch : Nat) {s : State} (h : s.memoryWf = true) : OutcomeWf (execDmaAbort ch s) := by simp [execDmaAbort, h]
@[simp] theorem outcomeWf_execChainHeadWrite (ch address : Nat) {s : State} (h : s.memoryWf = true) : OutcomeWf (execChainHeadWrite ch address s) := by
  simp [execChainHeadWrite, h]

@[simp] theorem outcomeWf_execDescriptorFetched (ch : Nat) (r : Option (List Byte)) {s : State} (h : s.memoryWf = true) :
    OutcomeWf (execDescriptorFetched ch r s) := by
  unfold execDescriptorFetched
  repeat' split
  all_goals simp [h]

@[simp] theorem memoryWf_answerDma (s : State) (ch : Nat) (d : Descriptor) (a : DmaAccess) : (answerDma s ch d a).memoryWf = s.memoryWf := by
  unfold answerDma
  split <;> simp

@[simp] theorem outcomeWf_execDmaAccessComplete (ch : Nat) (succeeded : Bool) (data : List Byte) {s : State} (h : s.memoryWf = true) :
    OutcomeWf (execDmaAccessComplete ch succeeded data s) := by
  unfold execDmaAccessComplete
  repeat' split
  all_goals simp [h]

/-! ### Step times -/

@[simp] theorem memoryWf_moveBasics (o : Int) (s : State) : (moveBasics o s).memoryWf = s.memoryWf := by simp [moveBasics]
@[simp] theorem memoryWf_moveMedia (o : Int) (s : State) : (moveMedia o s).memoryWf = s.memoryWf := by simp [moveMedia]
@[simp] theorem memoryWf_moveNetwork (o : Int) (s : State) : (moveNetwork o s).memoryWf = s.memoryWf := by simp [moveNetwork]
@[simp] theorem memoryWf_moveReadiness (o : Int) (s : State) : (moveReadiness o s).memoryWf = s.memoryWf := by simp [moveReadiness]
@[simp] theorem memoryWf_moveInstants (o : Int) (s : State) : (moveInstants o s).memoryWf = s.memoryWf := by simp [moveInstants]

/-! ### The time block -/

@[simp] theorem memoryWf_sourcePut (s : State) (c : Nat) (x : TimeSource) : (sourcePut s c x).memoryWf = s.memoryWf := by simp [sourcePut]
@[simp] theorem memoryWf_setSource (s : State) (c : Nat) : (setSource s c).memoryWf = s.memoryWf := by simp [setSource]
@[simp] theorem memoryWf_pinsLow (s : State) : (pinsLow s).memoryWf = s.memoryWf := by simp [pinsLow]
@[simp] theorem memoryWf_setTimeState (s : State) (v : Nat) : (setTimeState s v).memoryWf = s.memoryWf := by simp [setTimeState]

@[simp] theorem memoryWf_requestClockMode (s : State) (m : Mode) (reason : Nat) : (requestClockMode s m reason).memoryWf = s.memoryWf := by
  simp [requestClockMode]

@[simp] theorem memoryWf_selectSource (s : State) (c : Nat) : (selectSource s c).memoryWf = s.memoryWf := by simp [selectSource]
@[simp] theorem memoryWf_enterHoldover (s : State) : (enterHoldover s).memoryWf = s.memoryWf := by simp [enterHoldover]

@[simp] theorem memoryWf_sourceLost (s : State) : (sourceLost s).memoryWf = s.memoryWf := by
  unfold sourceLost
  split <;> simp

@[simp] theorem memoryWf_selectFree (s : State) : (selectFree s).memoryWf = s.memoryWf := by
  unfold selectFree
  split <;> simp

@[simp] theorem memoryWf_disqualify (s : State) (c : Nat) (jumpOnly : Bool) : (disqualify s c jumpOnly).memoryWf = s.memoryWf := by simp [disqualify]
@[simp] theorem memoryWf_correct (s : State) (o : Int) : (correct s o).memoryWf = s.memoryWf := by simp [correct]
@[simp] theorem memoryWf_measure (s : State) (c : Nat) (o : Int) (meets : Bool) : (measure s c o meets).memoryWf = s.memoryWf := by simp [measure]
@[simp] theorem outcomeWf_execSourceDisqualified {s : State} (h : s.memoryWf = true) : OutcomeWf (execSourceDisqualified s) := by
  simp [execSourceDisqualified, h]

@[simp] theorem outcomeWf_execRestoreWaitExpiry (c : Nat) {s : State} (h : s.memoryWf = true) : OutcomeWf (execRestoreWaitExpiry c s) := by
  unfold execRestoreWaitExpiry
  repeat' split
  all_goals simp [h]
  all_goals exact (memoryWf_of_reach ‹_›).trans h

@[simp] theorem memoryWf_withEngine (s : State) (e : PtpState) : (withEngine s e).memoryWf = s.memoryWf := by simp [withEngine]

@[simp] theorem memoryWf_runBmca (s : State) : (runBmca s).memoryWf = s.memoryWf := by
  unfold runBmca
  split <;> simp

@[simp] theorem memoryWf_ptpMeasure (s : State) (origin ingress : Int) : (ptpMeasure s origin ingress).memoryWf = s.memoryWf := by
  unfold ptpMeasure
  split <;> simp

@[simp] theorem memoryWf_ptpReceive (s : State) (port stamp : Nat) (m : PtpMessage) : (ptpReceive s port stamp m).memoryWf = s.memoryWf := by
  unfold ptpReceive
  dsimp only
  repeat' split
  all_goals simp

@[simp] theorem outcomeWf_execPtpMessage (port : Nat) (a : PtpArrival) (m : PtpMessage) {s : State} (h : s.memoryWf = true) :
    OutcomeWf (execPtpMessage port a m s) := by
  simp [execPtpMessage, h]

@[simp] theorem outcomeWf_execDelayReqSend {s : State} (h : s.memoryWf = true) : OutcomeWf (execDelayReqSend s) := by
  unfold execDelayReqSend
  dsimp only
  repeat' split
  all_goals simp [h]
  all_goals exact (memoryWf_of_reach ‹_›).trans h

@[simp] theorem outcomeWf_execAnnounceTimeout (identity : Nat) {s : State} (h : s.memoryWf = true) : OutcomeWf (execAnnounceTimeout identity s) := by
  unfold execAnnounceTimeout
  repeat' split
  all_goals simp [h]
  all_goals exact (memoryWf_of_reach ‹_›).trans h

@[simp] theorem memoryWf_ppsMissed (s : State) : (ppsMissed s).memoryWf = s.memoryWf := by simp [ppsMissed]

@[simp] theorem memoryWf_countEdge (s : State) (stamp : Nat) (frequencyOk : Bool) : (countEdge s stamp frequencyOk).memoryWf = s.memoryWf := by
  simp [countEdge]

@[simp] theorem outcomeWf_execPpsEdge (stamp : Nat) (frequencyOk : Bool) {s : State} (h : s.memoryWf = true) : OutcomeWf (execPpsEdge stamp frequencyOk s) := by
  unfold execPpsEdge
  dsimp only
  repeat' split
  all_goals simp [h]

@[simp] theorem outcomeWf_execPpsMissing {s : State} (h : s.memoryWf = true) : OutcomeWf (execPpsMissing s) := by
  unfold execPpsMissing
  repeat' split
  all_goals simp [h]
  all_goals exact (memoryWf_of_reach ‹_›).trans h

@[simp] theorem outcomeWf_execTodTimeout (port : Nat) {s : State} (h : s.memoryWf = true) : OutcomeWf (execTodTimeout port s) := by
  unfold execTodTimeout
  dsimp only
  repeat' split
  all_goals simp [h]
  all_goals exact (memoryWf_of_reach ‹_›).trans h

@[simp] theorem memoryWf_afterStep (s : State) : (afterStep s).memoryWf = s.memoryWf := by
  unfold afterStep
  dsimp only
  repeat' split
  all_goals simp

@[simp] theorem memoryWf_applyStep (s : State) : (applyStep s).memoryWf = s.memoryWf := by
  unfold applyStep
  split <;> simp

@[simp] theorem memoryWf_loadIncrement (s : State) : (loadIncrement s).memoryWf = s.memoryWf := by simp [loadIncrement]
@[simp] theorem memoryWf_capture (s : State) : (capture s).memoryWf = s.memoryWf := by simp [capture]
@[simp] theorem outcomeWf_execSnapshotCapture {s : State} (h : s.memoryWf = true) : OutcomeWf (execSnapshotCapture s) := by simp [execSnapshotCapture, h]
@[simp] theorem outcomeWf_execPpsOut {s : State} (h : s.memoryWf = true) : OutcomeWf (execPpsOut s) := by simp [execPpsOut, h]
@[simp] theorem memoryWf_tickPulse (s : State) : (tickPulse s).memoryWf = s.memoryWf := by simp [tickPulse]

@[simp] theorem outcomeWf_execPulseWidthEnd (output : Nat) {s : State} (h : s.memoryWf = true) : OutcomeWf (execPulseWidthEnd output s) := by
  unfold execPulseWidthEnd
  repeat' split
  all_goals simp [h]
  all_goals exact (memoryWf_of_reach ‹_›).trans h

/-! ### Power -/

@[simp] theorem memoryWf_setDomains (s : State) (m : Nat) : (setDomains s m).memoryWf = s.memoryWf := by simp [setDomains]
@[simp] theorem memoryWf_loseSets (s : State) (stack : Nat) : (loseSets s stack).memoryWf = s.memoryWf := by simp [loseSets]
@[simp] theorem memoryWf_domainOff (s : State) (d : Nat) : (domainOff s d).memoryWf = s.memoryWf := by simp [domainOff]
@[simp] theorem memoryWf_startRamps (s : State) : (startRamps s).memoryWf = s.memoryWf := by simp [startRamps]
@[simp] theorem memoryWf_askDomains (s : State) (ds : List Nat) : (askDomains s ds).memoryWf = s.memoryWf := by simp [askDomains]
@[simp] theorem memoryWf_powerImage (s : State) : (powerImage s).memoryWf = s.memoryWf := by simp [powerImage]
@[simp] theorem memoryWf_powerStep (s : State) : (powerStep s).memoryWf = s.memoryWf := by simp [powerStep]
@[simp] theorem memoryWf_endUnlock (s : State) : (endUnlock s).memoryWf = s.memoryWf := by simp [endUnlock]

@[simp] theorem outcomeWf_execDomainRampDone (d : Nat) {s : State} (h : s.memoryWf = true) : OutcomeWf (execDomainRampDone d s) := by
  unfold execDomainRampDone
  repeat' split
  all_goals simp [h]
  all_goals exact (memoryWf_of_reach ‹_›).trans h

@[simp] theorem memoryWf_setVdd (s : State) (mv : Nat) : (setVdd s mv).memoryWf = s.memoryWf := by simp [setVdd]
@[simp] theorem memoryWf_passTo (s : State) (point : Nat) : (passTo s point).memoryWf = s.memoryWf := by simp [passTo]
@[simp] theorem memoryWf_changePoint (s : State) (point : Nat) : (changePoint s point).memoryWf = s.memoryWf := by simp [changePoint]

@[simp] theorem memoryWf_duePoint (s : State) : (duePoint s).memoryWf = s.memoryWf := by
  unfold duePoint
  dsimp only
  repeat' split
  all_goals simp

@[simp] theorem memoryWf_stepDown (s : State) : (stepDown s).memoryWf = s.memoryWf := by simp [stepDown]
@[simp] theorem memoryWf_clockRequest (s : State) (point : Nat) : (clockRequest s point).memoryWf = s.memoryWf := by simp [clockRequest]
@[simp] theorem outcomeWf_execClockRequest (point : Nat) {s : State} (h : s.memoryWf = true) : OutcomeWf (execClockRequest point s) := by
  simp [execClockRequest, h]

@[simp] theorem memoryWf_agingCheck (s : State) (slack : Nat) : (agingCheck s slack).memoryWf = s.memoryWf := by simp [agingCheck]

@[simp] theorem outcomeWf_execAgingCheck (slack : Nat) {s : State} (h : s.memoryWf = true) : OutcomeWf (execAgingCheck slack s) := by
  unfold execAgingCheck
  repeat' split
  all_goals simp [h]
  all_goals exact (memoryWf_of_reach ‹_›).trans h

/-! ### Resets and changes of mode -/

@[simp] theorem memoryWf_coldReset (s : State) : (coldReset s).memoryWf = true := (memoryWf_iff _).2 ⟨rfl, rfl, rfl⟩

@[simp] theorem memoryWf_clearWork {s : State} (k : Keep) (h : s.memoryWf = true) : (clearWork s k).memoryWf = true := by
  unfold clearWork
  dsimp only
  split <;> simp [h]

@[simp] theorem memoryWf_warmReset {s : State} (h : s.memoryWf = true) : (warmReset s).memoryWf = true := by simp [warmReset, h]
@[simp] theorem memoryWf_warmResetFor {s : State} (reason : Nat) (h : s.memoryWf = true) : (warmResetFor s reason).memoryWf = true := by simp [warmResetFor, h]
@[simp] theorem memoryWf_fuseRetired (s : State) : (fuseRetired s).memoryWf = s.memoryWf := by simp [fuseRetired]
@[simp] theorem memoryWf_refuseUnfinished (s : State) : (refuseUnfinished s).memoryWf = s.memoryWf := by simp [refuseUnfinished]

@[simp] theorem memoryWf_eraseAll {s : State} (h : s.memoryWf = true) : (eraseAll s).memoryWf = true := by
  have cleared : (clearWork (stopMarch (refuseUnfinished s)) .zeroize).memoryWf = true := memoryWf_clearWork .zeroize (by simp [h])
  simp [eraseAll, Memory.wf_filter, cleared]

@[simp] theorem memoryWf_zeroizeTrigger {s : State} (cause input : Nat) (h : s.memoryWf = true) : (zeroizeTrigger s cause input).memoryWf = true := by
  simp [zeroizeTrigger, h]

@[simp] theorem outcomeWf_execZeroizeScrubDone {s : State} (h : s.memoryWf = true) : OutcomeWf (execZeroizeScrubDone s) := by simp [execZeroizeScrubDone, h]
@[simp] theorem outcomeWf_execKnitBreach {s : State} (h : s.memoryWf = true) : OutcomeWf (execKnitBreach s) := by simp [execKnitBreach, h]
@[simp] theorem outcomeWf_execRailOutOfRange (millivolts : Nat) {s : State} (h : s.memoryWf = true) : OutcomeWf (execRailOutOfRange millivolts s) := by
  simp [execRailOutOfRange, h]

@[simp] theorem outcomeWf_execTemperatureTrigger (celsius : Int) {s : State} (h : s.memoryWf = true) : OutcomeWf (execTemperatureTrigger celsius s) := by
  simp [execTemperatureTrigger, h]

@[simp] theorem outcomeWf_execJunctionReading (celsius : Int) {s : State} (h : s.memoryWf = true) : OutcomeWf (execJunctionReading celsius s) := by
  simp [execJunctionReading, h]

@[simp] theorem outcomeWf_execClockTrigger (deviation : Int) {s : State} (h : s.memoryWf = true) : OutcomeWf (execClockTrigger deviation s) := by
  simp [execClockTrigger, h]

@[simp] theorem outcomeWf_execTamperIn (input duration : Nat) {s : State} (h : s.memoryWf = true) : OutcomeWf (execTamperIn input duration s) := by
  simp [execTamperIn, h]

@[simp] theorem outcomeWf_execZeroizePin (duration : Nat) {s : State} (h : s.memoryWf = true) : OutcomeWf (execZeroizePin duration s) := by
  simp [execZeroizePin, h]

@[simp] theorem outcomeWf_execPwrGoodFall (s : State) : OutcomeWf (execPwrGoodFall s) := by simp [execPwrGoodFall]
@[simp] theorem outcomeWf_execPwrGoodRise {s : State} (h : s.memoryWf = true) : OutcomeWf (execPwrGoodRise s) := by simp [execPwrGoodRise, h]
@[simp] theorem outcomeWf_execSelfTestDone (passed : Bool) {s : State} (h : s.memoryWf = true) : OutcomeWf (execSelfTestDone passed s) := by
  simp [execSelfTestDone, h]

@[simp] theorem outcomeWf_execResetNLow (duration : Nat) {s : State} (h : s.memoryWf = true) : OutcomeWf (execResetNLow duration s) := by
  simp [execResetNLow, h]

@[simp] theorem outcomeWf_execResetNRise {s : State} (h : s.memoryWf = true) : OutcomeWf (execResetNRise s) := by simp [execResetNRise, h]
@[simp] theorem memoryWf_linkDown (s : State) : (linkDown s).memoryWf = s.memoryWf := by simp [linkDown]
@[simp] theorem memoryWf_linkReset (s : State) : (linkReset s).memoryWf = s.memoryWf := by simp [linkReset]
@[simp] theorem outcomeWf_execPerstN {s : State} (h : s.memoryWf = true) : OutcomeWf (execPerstN s) := by simp [execPerstN, h]
@[simp] theorem outcomeWf_execFunctionLevelReset {s : State} (h : s.memoryWf = true) : OutcomeWf (execFunctionLevelReset s) := by
  simp [execFunctionLevelReset, h]

@[simp] theorem outcomeWf_execPcieLinkLoss {s : State} (h : s.memoryWf = true) : OutcomeWf (execPcieLinkLoss s) := by simp [execPcieLinkLoss, h]
@[simp] theorem outcomeWf_execPcieLinkUp {s : State} (h : s.memoryWf = true) : OutcomeWf (execPcieLinkUp s) := by simp [execPcieLinkUp, h]

/-! ### Faults and zeroization -/

@[simp] theorem memoryWf_engineRegs (s : State) (kind index : Nat) : (engineRegs s kind index).memoryWf = s.memoryWf := by simp [engineRegs]

@[simp] theorem memoryWf_countFailure (s : State) (kind index : Nat) : (countFailure s kind index).1.memoryWf = s.memoryWf := by
  unfold countFailure
  split <;> simp

/-! ### The Band -/

@[simp] theorem memoryWf_withLegQueue (s : State) (l : Nat) (q : LegQueue) : (withLegQueue s l q).memoryWf = s.memoryWf := by simp [withLegQueue]
@[simp] theorem memoryWf_dropFrom (s : State) (agg : Nat) : (dropFrom s agg).memoryWf = s.memoryWf := by simp [dropFrom]
@[simp] theorem memoryWf_queueLeg (s : State) (l : Nat) (p : LegPacket) (atHead : Bool) : (queueLeg s l p atHead).memoryWf = s.memoryWf := by simp [queueLeg]

@[simp] theorem memoryWf_drainLeg (s : State) (l tr w : Nat) : (drainLeg s l tr w).1.memoryWf = s.memoryWf := by
  unfold drainLeg
  dsimp only
  split <;> simp

@[simp] theorem memoryWf_withClass (s : State) (e c : Nat) (q : ClassQueue) : (withClass s e c q).memoryWf = s.memoryWf := by simp [withClass]
@[simp] theorem memoryWf_setFinish (s : State) (e c agg v : Nat) : (setFinish s e c agg v).memoryWf = s.memoryWf := by simp [setFinish]
@[simp] theorem memoryWf_enqueueClass (s : State) (e c : Nat) (p : ClassPacket) : (enqueueClass s e c p).memoryWf = s.memoryWf := by simp [enqueueClass]

@[simp] theorem memoryWf_chargeShaper (s : State) (e c t n : Nat) : (chargeShaper s e c t n).memoryWf = s.memoryWf := by
  unfold chargeShaper
  split <;> simp

@[simp] theorem memoryWf_setShaper (s : State) (e c rate burst : Nat) : (setShaper s e c rate burst).memoryWf = s.memoryWf := by simp [setShaper]
@[simp] theorem memoryWf_removePacket (s : State) (e c : Nat) (p : ClassPacket) : (removePacket s e c p).memoryWf = s.memoryWf := by simp [removePacket]

@[simp] theorem memoryWf_recordSent (s : State) (p : ClassPacket) : (recordSent s p).memoryWf = s.memoryWf := by
  unfold recordSent
  split <;> simp

@[simp] theorem memoryWf_countSent (s : State) (e c : Nat) (p : ClassPacket) : (countSent s e c p).memoryWf = s.memoryWf := by simp [countSent]
@[simp] theorem memoryWf_dropStale (s : State) (e c : Nat) (p : ClassPacket) : (dropStale s e c p).memoryWf = s.memoryWf := by simp [dropStale]

@[simp] theorem memoryWf_dropStaleHeads (s : State) (e c : Nat) (n : Nat) : (dropStaleHeads s e c n).memoryWf = s.memoryWf := by
  induction n generalizing s with
  | zero => rfl
  | succ n ih =>
    unfold dropStaleHeads
    repeat' split
    all_goals simp [ih]

@[simp] theorem memoryWf_waitGate (s : State) (e c : Nat) (p : ClassPacket) : (waitGate s e c p).memoryWf = s.memoryWf := by simp [waitGate]
@[simp] theorem memoryWf_startFrame (s : State) (e c tPs : Nat) (p : ClassPacket) : (startFrame s e c tPs p).memoryWf = s.memoryWf := by simp [startFrame]

@[simp] theorem memoryWf_considerClasses (s : State) (e tPs : Nat) (l : List Nat) : (considerClasses s e tPs l).memoryWf = s.memoryWf := by
  induction l generalizing s with
  | nil => rfl
  | cons c cs ih =>
    unfold considerClasses
    dsimp only
    split <;> simp [ih]

@[simp] theorem outcomeWf_execEgressFree (e : Nat) {s : State} (h : s.memoryWf = true) : OutcomeWf (execEgressFree e s) := by
  unfold execEgressFree
  dsimp only
  repeat' split
  all_goals simp [h]
  all_goals exact (memoryWf_of_reach ‹_›).trans h

@[simp] theorem memoryWf_gateInstant (s : State) (e : Nat) (was : Nat) (now_ : Nat) : (gateInstant s e was now_).memoryWf = s.memoryWf := by
  unfold gateInstant
  apply memoryWf_foldl
  intro s x
  split <;> simp

@[simp] theorem outcomeWf_execGateEntryChange (e : Nat) {s : State} (h : s.memoryWf = true) : OutcomeWf (execGateEntryChange e s) := by
  unfold execGateEntryChange
  dsimp only
  repeat' split
  all_goals simp [h]
  all_goals exact (memoryWf_of_reach ‹_›).trans h

@[simp] theorem outcomeWf_execGateListChanged (e : Nat) {s : State} (h : s.memoryWf = true) : OutcomeWf (execGateListChanged e s) := by
  unfold execGateListChanged
  repeat' split
  all_goals simp [h]
  all_goals exact (memoryWf_of_reach ‹_›).trans h

@[simp] theorem memoryWf_loadGates (s : State) (lists : List GateList) (atOnce : Bool) : (loadGates s lists atOnce).memoryWf = s.memoryWf := by
  unfold loadGates
  apply memoryWf_foldl
  intro s e
  dsimp only
  repeat' split
  all_goals simp

@[simp] theorem outcomeWf_execPacingSlot {s : State} (h : s.memoryWf = true) : OutcomeWf (execPacingSlot s) := by
  unfold execPacingSlot
  dsimp only
  repeat' split
  all_goals simp [h]
  all_goals exact (memoryWf_of_reach ‹_›).trans h

@[simp] theorem memoryWf_putSample (s : State) (queue bytes packets : Nat) (head : Option Nat) :
    (putSample s queue bytes packets head).memoryWf = s.memoryWf := by
  simp [putSample]

@[simp] theorem memoryWf_sampleQueues (s : State) : (sampleQueues s).memoryWf = s.memoryWf := by simp [sampleQueues]

@[simp] theorem memoryWf_sendSystem (s : State) (e c : Nat) (frame : List Byte) (stamp : Nat) : (sendSystem s e c frame stamp).memoryWf = s.memoryWf := by
  simp [sendSystem]

@[simp] theorem memoryWf_enqueueLegPacket (s : State) (l : Nat) (b : List Byte) (p : LegPacket) : (enqueueLegPacket s l b p).memoryWf = s.memoryWf := by
  unfold enqueueLegPacket
  repeat' split
  all_goals simp

@[simp] theorem memoryWf_dropReleased (s : State) (engine : Nat) : (dropReleased s engine).memoryWf = s.memoryWf := by simp [dropReleased]

/-! ### The assembly of frames -/

@[simp] theorem memoryWf_updDecode (s : State) (i : Nat) (f : DecodeStream → DecodeStream) : (updDecode s i f).memoryWf = s.memoryWf := by simp [updDecode]
@[simp] theorem memoryWf_loseFrame (s : State) (i : Nat) : (loseFrame s i).memoryWf = s.memoryWf := by simp [loseFrame]

@[simp] theorem memoryWf_assemblePacket (s : State) (i : Nat) (d : DecodeStream) (p : MediaPacket) : (assemblePacket s i d p).memoryWf = s.memoryWf := by
  simp [assemblePacket]

@[simp] theorem memoryWf_assembleMedia (s : State) (leg : Nat) (p : MediaPacket) : (assembleMedia s leg p).memoryWf = s.memoryWf := by simp [assembleMedia]
@[simp] theorem memoryWf_markReady (s : State) : (markReady s).memoryWf = s.memoryWf := by simp [markReady]

/-! ### Sound -/

@[simp] theorem memoryWf_arriveAudio (s : State) (l : Nat) (p : MediaPacket) (stamp : Nat) : (arriveAudio s l p stamp).memoryWf = s.memoryWf := by
  simp [arriveAudio]

/-! ### Legs -/

@[simp] theorem memoryWf_updPart (s : State) (p : Nat) (f : Participant → Participant) : (updPart s p f).memoryWf = s.memoryWf := by simp [updPart]

@[simp] theorem memoryWf_police (s : State) (l t n : Nat) : (police s l t n).1.memoryWf = s.memoryWf := by
  unfold police
  dsimp only
  repeat' split
  all_goals simp

@[simp] theorem memoryWf_queueRtcp (s : State) (l p : Nat) (bytes : List Byte) : (queueRtcp s l p bytes).memoryWf = s.memoryWf := by simp [queueRtcp]
@[simp] theorem memoryWf_queueNack (s : State) (l : Nat) (x : LegSpec) (seqs : List Nat) : (queueNack s l x seqs).memoryWf = s.memoryWf := by simp [queueNack]
@[simp] theorem memoryWf_queuePli (s : State) (l : Nat) (x : LegSpec) : (queuePli s l x).memoryWf = s.memoryWf := by simp [queuePli]
@[simp] theorem memoryWf_queueFir (s : State) (l : Nat) (x : LegSpec) (n : Nat) : (queueFir s l x n).memoryWf = s.memoryWf := by simp [queueFir]

@[simp] theorem memoryWf_arriveFeedback (s : State) (p : Nat) (b : List Byte) : (arriveFeedback s p b).memoryWf = s.memoryWf := by
  unfold arriveFeedback
  apply memoryWf_foldl
  intro s x
  split <;> simp

@[simp] theorem optionKeepsMemory_takeFeedback (s : State) (p : Nat) (f : Feedback) : OptionKeepsMemory s (takeFeedback s p f) := by
  unfold takeFeedback
  repeat' split
  all_goals simp

@[simp] theorem memoryWf_sendKeyframe (s : State) (sender : Nat) : (sendKeyframe s sender).memoryWf = s.memoryWf := by
  unfold sendKeyframe
  repeat' split
  all_goals simp

@[simp] theorem memoryWf_setKeyframe (s : State) (sender : Nat) (k : KeyframeState) : (setKeyframe s sender k).memoryWf = s.memoryWf := by simp [setKeyframe]

@[simp] theorem memoryWf_requestKeyframe (s : State) (sender : Nat) (fir : Bool) : (requestKeyframe s sender fir).memoryWf = s.memoryWf := by
  unfold requestKeyframe
  split <;> simp

@[simp] theorem memoryWf_clearKeyframe (s : State) (sender : Nat) : (clearKeyframe s sender).memoryWf = s.memoryWf := by
  unfold clearKeyframe
  split <;> simp

@[simp] theorem outcomeWf_execKeyframeRequest (l : Nat) (fir : Bool) {s : State} (h : s.memoryWf = true) : OutcomeWf (execKeyframeRequest l fir s) := by
  unfold execKeyframeRequest
  repeat' split
  all_goals simp [h]
  all_goals exact ((optionKeepsMemory_takeFeedback _ _ _).memoryWf_eq ‹_›).trans h

@[simp] theorem outcomeWf_execKeyframePendingExpiry (sender : Nat) {s : State} (h : s.memoryWf = true) :
    OutcomeWf (execKeyframePendingExpiry sender s) := by
  unfold execKeyframePendingExpiry
  -- as in `outcomeWf_execTrainingSetExpiry`
  obtain ⟨wait, e⟩ : ∃ n, 200000000 = n := ⟨_, rfl⟩
  rw [e]
  split
  · split
    · next reached => simp [memoryWf_of_reach reached, h]
    · simp [h]
  · simp [h]

@[simp] theorem memoryWf_cachePacket (s : State) (l seq : Nat) (p : MediaPacket) : (cachePacket s l seq p).memoryWf = s.memoryWf := by
  unfold cachePacket
  split <;> simp

@[simp] theorem memoryWf_countTickBytes (s : State) (p n : Nat) : (countTickBytes s p n).memoryWf = s.memoryWf := by simp [countTickBytes]
@[simp] theorem memoryWf_setRoc (s : State) (l n : Nat) : (setRoc s l n).memoryWf = s.memoryWf := by simp [setRoc]

@[simp] theorem memoryWf_forwardTo (s : State) (l : Nat) (x : Leg) (pt : Nat) (p : MediaPacket) (fresh : Bool) :
    (forwardTo s l x pt p fresh).memoryWf = s.memoryWf := by
  simp [forwardTo]

@[simp] theorem memoryWf_forwardAll (s : State) (src : Nat) (p : MediaPacket) (fresh : Bool) : (forwardAll s src p fresh).memoryWf = s.memoryWf := by
  unfold forwardAll
  apply memoryWf_foldl
  intro s x
  split <;> simp

@[simp] theorem memoryWf_acceptMedia (s : State) (l : Nat) (p : MediaPacket) (bytes stamp : Nat) : (acceptMedia s l p bytes stamp).memoryWf = s.memoryWf := by
  unfold acceptMedia
  split <;> simp

@[simp] theorem memoryWf_producePacket (s : State) (l : Nat) (timestamp : Nat) (marker : Bool) (head : Nat) (payload : List Byte) :
    (producePacket s l timestamp marker head payload).memoryWf = s.memoryWf := by
  unfold producePacket
  split <;> simp

@[simp] theorem memoryWf_raisePoints (s : State) (rem : Nat) (l : List (Nat × Leg × Option Nat)) : (raisePoints s rem l).memoryWf = s.memoryWf := by
  induction l generalizing s rem with
  | nil => rfl
  | cons e t ih =>
    obtain ⟨l, x, _ | r⟩ := e
    · simp [raisePoints, ih]
    · unfold raisePoints
      dsimp only
      split <;> simp [ih]

@[simp] theorem memoryWf_setTargets (s : State) : (setTargets s).memoryWf = s.memoryWf := by simp [setTargets]

@[simp] theorem outcomeWf_execLayerRaiseWait (l : Nat) {s : State} (h : s.memoryWf = true) : OutcomeWf (execLayerRaiseWait l s) := by
  unfold execLayerRaiseWait
  repeat' split
  all_goals simp [h]
  all_goals exact (memoryWf_of_reach ‹_›).trans h

@[simp] theorem outcomeWf_execNackUpTimer (l : Nat) {s : State} (h : s.memoryWf = true) : OutcomeWf (execNackUpTimer l s) := by
  unfold execNackUpTimer
  repeat' split
  all_goals simp [h]
  all_goals exact (memoryWf_of_reach ‹_›).trans h

@[simp] theorem memoryWf_answerNack (s : State) (l seq : Nat) : (answerNack s l seq).memoryWf = s.memoryWf := by
  unfold answerNack
  repeat' split
  all_goals simp

@[simp] theorem outcomeWf_execNackReceived (l : Nat) (seqs : List Nat) {s : State} (h : s.memoryWf = true) : OutcomeWf (execNackReceived l seqs s) := by
  unfold execNackReceived
  repeat' split
  all_goals simp [h]
  all_goals exact ((optionKeepsMemory_takeFeedback _ _ _).memoryWf_eq ‹_›).trans h

@[simp] theorem outcomeWf_execFeedbackReport (p : Nat) (items : List FeedbackItem) {s : State} (h : s.memoryWf = true) :
    OutcomeWf (execFeedbackReport p items s) := by
  unfold execFeedbackReport
  repeat' split
  all_goals simp [h]
  all_goals exact ((optionKeepsMemory_takeFeedback _ _ _).memoryWf_eq ‹_›).trans h

@[simp] theorem outcomeWf_execFeedbackStale (p : Nat) {s : State} (h : s.memoryWf = true) : OutcomeWf (execFeedbackStale p s) := by
  unfold execFeedbackStale
  repeat' split
  all_goals simp [h]
  all_goals exact (memoryWf_of_reach ‹_›).trans h

@[simp] theorem memoryWf_legsTick (s : State) : (legsTick s).memoryWf = s.memoryWf := by simp [legsTick]

/-! ### The Mitten and its threads -/

/-- A lane that keeps its memory leaves the canonical form as it is. -/
@[simp] theorem memoryWf_withLane {s : State} {l : Nat} {x : Lane} (same : x.mem = (laneOf s l).mem) : (withLane s l x).memoryWf = s.memoryWf := by
  simp [withLane, lanesWf_put_same same]

/-- A lane with a canonical memory keeps canonical memories. -/
theorem memoryWf_withLane_of {s : State} (l : Nat) {x : Lane} (h : s.memoryWf = true) (hx : Memory.wf x.mem = true) :
    (withLane s l x).memoryWf = true := by
  have put : lanesWf (s.mitten.lanes.put l x) = true := Table.all_put (lanesWf_lanes h) hx
  simp [withLane, put, h]

@[simp] theorem memoryWf_withThreadEntry (s : State) (t : Nat) (x : Thread) : (withThreadEntry s t x).memoryWf = s.memoryWf := by simp [withThreadEntry]
@[simp] theorem memoryWf_updThread (s : State) (t : Nat) (f : Thread → Thread) : (updThread s t f).memoryWf = s.memoryWf := by simp [updThread]
@[simp] theorem memoryWf_setReady (s : State) (cluster prio : Nat) (l : List Nat) : (setReady s cluster prio l).memoryWf = s.memoryWf := by simp [setReady]
@[simp] theorem memoryWf_leaveList (s : State) (t : Nat) (x : Thread) : (leaveList s t x).memoryWf = s.memoryWf := by simp [leaveList]

@[simp] theorem memoryWf_makeReady (s : State) (t reason ev : Nat) : (makeReady s t reason ev).memoryWf = s.memoryWf := by
  unfold makeReady
  split <;> simp

@[simp] theorem memoryWf_freeThread (s : State) (t : Nat) : (freeThread s t).memoryWf = s.memoryWf := by
  unfold freeThread
  split <;> simp

@[simp] theorem memoryWf_adopt (s : State) (t : Nat) : (adopt s t).memoryWf = s.memoryWf := by
  unfold adopt
  split <;> simp

@[simp] theorem memoryWf_countWait (s : State) (x : Thread) (extra : Nat) : (countWait s x extra).memoryWf = s.memoryWf := by simp [countWait]
@[simp] theorem memoryWf_dispatchNormal (s : State) (l t : Nat) (x : Thread) : (dispatchNormal s l t x).memoryWf = s.memoryWf := by simp [dispatchNormal]
@[simp] theorem memoryWf_dispatchPriv (s : State) (l t : Nat) (x : Thread) : (dispatchPriv s l t x).memoryWf = s.memoryWf := by simp [dispatchPriv]

@[simp] theorem memoryWf_scheduleLane (s : State) (l : Nat) (n : Nat) : (scheduleLane s l n).memoryWf = s.memoryWf := by
  induction n generalizing s with
  | zero => rfl
  | succ n ih =>
    unfold scheduleLane
    dsimp only
    repeat' split
    all_goals simp [ih]

@[simp] theorem memoryWf_schedule (s : State) (cluster : Nat) : (schedule s cluster).memoryWf = s.memoryWf := by simp [schedule]
@[simp] theorem memoryWf_scheduleAll (s : State) : (scheduleAll s).memoryWf = s.memoryWf := by simp [scheduleAll]
@[simp] theorem memoryWf_leaveBank (s : State) (l : Nat) (k : BankId) : (leaveBank s l k).memoryWf = s.memoryWf := by simp [leaveBank]
@[simp] theorem memoryWf_beginJob (s : State) (t ev : Nat) : (beginJob s t ev).memoryWf = s.memoryWf := by simp [beginJob]
@[simp] theorem memoryWf_wakeEvent (s : State) (cluster ev : Nat) : (wakeEvent s cluster ev).memoryWf = s.memoryWf := by simp [wakeEvent]
@[simp] theorem memoryWf_signalEvent (s : State) (cluster ev : Nat) : (signalEvent s cluster ev).memoryWf = s.memoryWf := by simp [signalEvent]

@[simp] theorem memoryWf_waitThread (s : State) (t mode value next : Nat) : (waitThread s t mode value next).memoryWf = s.memoryWf := by
  unfold waitThread
  split <;> simp

@[simp] theorem memoryWf_doWait (s : State) (l : Nat) (k : BankId) (mode value : Nat) : (doWait s l k mode value).memoryWf = s.memoryWf := by
  unfold doWait
  dsimp only
  split <;> simp

@[simp] theorem memoryWf_cancelJob (s : State) (t : Nat) : (cancelJob s t).memoryWf = s.memoryWf := by
  unfold cancelJob
  repeat' split
  all_goals simp

@[simp] theorem memoryWf_faultThread (s : State) (l : Nat) (k : BankId) (code : Nat) : (faultThread s l k code).1.memoryWf = s.memoryWf := by
  unfold faultThread
  dsimp only
  repeat' split
  all_goals simp

@[simp] theorem memoryWf_resetLanes {s : State} (cluster : Nat) (h : s.memoryWf = true) : (resetLanes s cluster).memoryWf = true := by
  refine memoryWf_foldl_of _ _ (fun s k => memoryWf_withLane_of _ ((memoryWf_foldl _ _ (fun s t => ?_) s.1).trans s.2) wf_nil) h
  split <;> simp

@[simp] theorem memoryWf_createThread (s : State) (t entry cluster lane arg : Nat) (e : CodeEntry) (byHost : Bool) :
    (createThread s t entry cluster lane arg e byHost).memoryWf = s.memoryWf := by
  simp [createThread]

@[simp] theorem memoryWf_createStatic (s : State) (x : StaticThread) : (createStatic s x).memoryWf = s.memoryWf := by
  unfold createStatic
  split
  · rfl
  · apply memoryWf_foldl
    intro s c
    apply memoryWf_foldl
    intro s k
    split <;> simp

@[simp] theorem memoryWf_createStatics (s : State) : (createStatics s).memoryWf = s.memoryWf := by simp [createStatics]

@[simp] theorem memoryWf_stopThread (s : State) (t : Nat) : (stopThread s t).memoryWf = s.memoryWf := by
  unfold stopThread
  split <;> simp

@[simp] theorem memoryWf_recodeFaulted (s : State) : (recodeFaulted s).memoryWf = s.memoryWf := by simp [recodeFaulted]

@[simp] theorem memoryWf_moveThreads (s : State) : (moveThreads s).memoryWf = s.memoryWf := by
  unfold moveThreads
  rw [memoryWf_scheduleAll]
  apply memoryWf_foldl
  intro s e
  split
  · rfl
  · simp

@[simp] theorem memoryWf_mittenLateness (s : State) (ended : Nat) : (mittenLateness s ended).memoryWf = s.memoryWf := by simp [mittenLateness]
@[simp] theorem memoryWf_delayTick (s : State) : (delayTick s).memoryWf = s.memoryWf := by simp [delayTick]
@[simp] theorem memoryWf_freeEnded (s : State) : (freeEnded s).memoryWf = s.memoryWf := by simp [freeEnded]

@[simp] theorem memoryWf_publishLane (s : State) (l : Nat) : (publishLane s l).memoryWf = s.memoryWf := by
  unfold publishLane
  split
  · rfl
  · next x listed =>
    have same : x.mem = (laneOf s l).mem := by simp [laneOf, listed]
    simp [same]

@[simp] theorem memoryWf_publishDepths (s : State) : (publishDepths s).memoryWf = s.memoryWf := by simp [publishDepths]
@[simp] theorem memoryWf_hatstandTick (s : State) (mix : Bool) : (hatstandTick s mix).memoryWf = s.memoryWf := by simp [hatstandTick]

/-! ### Audio -/

@[simp] theorem memoryWf_updSource (s : State) (l : Nat) (f : AudioSource → AudioSource) : (updSource s l f).memoryWf = s.memoryWf := by simp [updSource]
@[simp] theorem memoryWf_updMix (s : State) (r : Nat) (f : Mix → Mix) : (updMix s r f).memoryWf = s.memoryWf := by simp [updMix]
@[simp] theorem memoryWf_resync (s : State) (x : AudioSource) : (resync s x).1.memoryWf = s.memoryWf := by simp [resync]

@[simp] theorem memoryWf_placePacket (s : State) (l codec : Nat) (x : AudioSource) (p : ArrivedPacket) : (placePacket s l codec x p).memoryWf = s.memoryWf := by
  unfold placePacket
  dsimp only
  repeat' split
  all_goals simp

@[simp] theorem outcomeWf_execAudioPacket (l sequence : Nat) {s : State} (h : s.memoryWf = true) : OutcomeWf (execAudioPacket l sequence s) := by
  unfold execAudioPacket
  repeat' split
  all_goals simp [h]

@[simp] theorem outcomeWf_execJbRecompute (l : Nat) {s : State} (h : s.memoryWf = true) : OutcomeWf (execJbRecompute l s) := by
  unfold execJbRecompute
  repeat' split
  all_goals simp [h]
  all_goals exact (memoryWf_of_reach ‹_›).trans h

@[simp] theorem memoryWf_runDecode (s : State) (l codec : Nat) (x : AudioSource) (j : DecodeJob) (poisoned : Bool) :
    (runDecode s l codec x j poisoned).memoryWf = s.memoryWf := by
  unfold runDecode
  dsimp only
  repeat' split
  all_goals simp

@[simp] theorem memoryWf_countFill (s : State) (x : AudioSource) : (countFill s x).1.memoryWf = s.memoryWf := by
  unfold countFill
  split <;> simp

@[simp] theorem memoryWf_adjust (s : State) (l codec : Nat) (x : AudioSource) (t : Int) : (adjust s l codec x t).1.memoryWf = s.memoryWf := by
  unfold adjust
  dsimp only
  repeat' split
  all_goals simp

@[simp] theorem memoryWf_sourcePeriod (s : State) (l codec : Nat) (x : AudioSource) (w : PlayWindow) :
    (sourcePeriod s l codec x w).1.memoryWf = s.memoryWf := by
  unfold sourcePeriod
  dsimp only
  repeat' split
  all_goals simp

@[simp] theorem memoryWf_finishPeriod (s : State) (l : Nat) (x : AudioSource) (w : PlayWindow) (rest : List PlayWindow) :
    (finishPeriod s l x w rest).memoryWf = s.memoryWf := by
  simp [finishPeriod]

@[simp] theorem memoryWf_finishPeriods (l n : Nat) (s : State) : (finishPeriods l n s).memoryWf = s.memoryWf := by
  induction n generalizing s with
  | zero => rfl
  | succ n ih =>
    unfold finishPeriods
    repeat' split
    all_goals simp [ih]

@[simp] theorem memoryWf_beginPeriod (s : State) (l : Nat) (x : AudioSource) : (beginPeriod s l x).memoryWf = s.memoryWf := by simp [beginPeriod]

@[simp] theorem outcomeWf_execComfortNoise (l : Nat) {s : State} (h : s.memoryWf = true) : OutcomeWf (execComfortNoise l s) := by
  unfold execComfortNoise
  split <;> simp [h]

@[simp] theorem memoryWf_meterSource (s : State) (l k : Nat) (x : AudioSource) : (meterSource s l k x).memoryWf = s.memoryWf := by simp [meterSource]

@[simp] theorem memoryWf_feedInstance (room : Nat) (acc : State × Mix) (k : Nat × Nat) : (feedInstance room acc k).1.memoryWf = acc.1.memoryWf := by
  simp [feedInstance]

@[simp] theorem memoryWf_fillFrames (s : State) (room : Nat) (m : Mix) (k i : Nat) : (fillFrames s room m k i).memoryWf = s.memoryWf := by simp [fillFrames]
@[simp] theorem memoryWf_runMix (s : State) (room : Nat) (m : Mix) (k i : Nat) : (runMix s room m k i).memoryWf = s.memoryWf := by simp [runMix]

@[simp] theorem memoryWf_meterRoom (s : State) (room k : Nat) : (meterRoom s room k).memoryWf = s.memoryWf := by
  unfold meterRoom
  apply memoryWf_foldl
  intro s x
  split <;> simp

@[simp] theorem outcomeWf_execMixPeriod (room cluster : Nat) {s : State} (h : s.memoryWf = true) : OutcomeWf (execMixPeriod room cluster s) := by
  unfold execMixPeriod
  repeat' split
  all_goals simp [h]

@[simp] theorem memoryWf_codecJob (s : State) (cluster : Nat) (f : CodecJob) : (codecJob s cluster f).memoryWf = s.memoryWf := by
  unfold codecJob
  dsimp only
  repeat' split
  all_goals simp

@[simp] theorem outcomeWf_execCodecBatchDone (cluster : Nat) (jobs : List CodecJob) {s : State} (h : s.memoryWf = true) :
    OutcomeWf (execCodecBatchDone cluster jobs s) := by
  simp [execCodecBatchDone, h]

@[simp] theorem outcomeWf_execTalkerExportWrite (room : Nat) {s : State} (h : s.memoryWf = true) : OutcomeWf (execTalkerExportWrite room s) := by
  unfold execTalkerExportWrite
  split
  · simp [h]
  · split
    · simp [h]
    · split
      · simp [h]
      · split
        · simp [h]
        · next reached => simp [memoryWf_of_reach reached, h]

@[simp] theorem memoryWf_audioPeriod (s : State) : (audioPeriod s).memoryWf = s.memoryWf := by simp [audioPeriod]
@[simp] theorem memoryWf_audioLateness (s : State) : (audioLateness s).memoryWf = s.memoryWf := by simp [audioLateness]

@[simp] theorem memoryWf_dropMix (s : State) (room : Nat) (m : Mix) : (dropMix s room m).memoryWf = s.memoryWf := by
  unfold dropMix
  dsimp only
  split <;> simp

@[simp] theorem memoryWf_loseCoded (s : State) (l : Nat) : (loseCoded s l).memoryWf = s.memoryWf := by
  unfold loseCoded
  dsimp only
  repeat' split
  all_goals simp

@[simp] theorem memoryWf_dropSource (s : State) (l : Nat) : (dropSource s l).memoryWf = s.memoryWf := by simp [dropSource]
@[simp] theorem memoryWf_cancelFrames (s : State) (room : Nat) : (cancelFrames s room).memoryWf = s.memoryWf := by simp [cancelFrames]
@[simp] theorem memoryWf_resetAudio {s : State} (cluster : Nat) (h : s.memoryWf = true) : (resetAudio s cluster).memoryWf = true := by simp [resetAudio, h]
@[simp] theorem memoryWf_audioFailure {s : State} (cluster : Nat) (h : s.memoryWf = true) : (audioFailure s cluster).memoryWf = true := by
  simp [audioFailure, h]

@[simp] theorem memoryWf_endFormats (s : State) : (endFormats s).memoryWf = s.memoryWf := by simp [endFormats]

/-! ### Pictures -/

@[simp] theorem memoryWf_writeBlock {s : State} (b k : Nat) (samples : List Nat) (h : s.memoryWf = true) : (writeBlock s b k samples).memoryWf = true := by
  unfold writeBlock
  split <;> simp [h]

@[simp] theorem memoryWf_writeVector {s : State} (b k : Nat) (entry : List Byte) (h : s.memoryWf = true) : (writeVector s b k entry).memoryWf = true := by
  unfold writeVector
  split <;> simp [h]

@[simp] theorem memoryWf_addRow {s : State} (b r intra inter bits concealed : Nat) (h : s.memoryWf = true) :
    (addRow s b r intra inter bits concealed).memoryWf = true := by
  unfold addRow
  split <;> simp [h]

@[simp] theorem memoryWf_clearStatistics {s : State} (b : Nat) (h : s.memoryWf = true) : (clearStatistics s b).memoryWf = true := by
  unfold clearStatistics
  split
  · next p _ =>
    have vectors := Memory.wf_clear (wf_mem h) (vectorArea p).1 (vectorArea p).2
    simp [Memory.wf_clear vectors, h]
  · exact h

/-! ### Video decode -/

@[simp] theorem memoryWf_updBuffer (s : State) (b : Nat) (f : Buffer → Buffer) : (updBuffer s b f).memoryWf = s.memoryWf := by simp [updBuffer]
@[simp] theorem memoryWf_sweepBuffers (s : State) : (sweepBuffers s).memoryWf = s.memoryWf := by simp [sweepBuffers]
@[simp] theorem memoryWf_takeHold (s : State) (b : Nat) : (takeHold s b).memoryWf = s.memoryWf := by simp [takeHold]
@[simp] theorem memoryWf_dropHold (s : State) (b : Nat) : (dropHold s b).memoryWf = s.memoryWf := by simp [dropHold]
@[simp] theorem memoryWf_freeBuffers (s : State) : (freeBuffers s).memoryWf = s.memoryWf := by simp [freeBuffers]
@[simp] theorem memoryWf_dropCharges (s : State) (kind index : Nat) : (dropCharges s kind index).memoryWf = s.memoryWf := by simp [dropCharges]

@[simp] theorem memoryWf_outputPicture (s : State) (i pic : Nat) : (outputPicture s i pic).memoryWf = s.memoryWf := by
  unfold outputPicture
  repeat' split
  all_goals simp

@[simp] theorem memoryWf_applyMarks (s : State) (i pic : Nat) (m : Marking) : (applyMarks s i pic m).memoryWf = s.memoryWf := by simp [applyMarks]
@[simp] theorem memoryWf_clearMarks (s : State) (i : Nat) : (clearMarks s i).memoryWf = s.memoryWf := by simp [clearMarks]
@[simp] theorem memoryWf_standIns (s : State) (leg n : Nat) : (standIns s leg n).memoryWf = s.memoryWf := by simp [standIns]
@[simp] theorem memoryWf_quietDecode (s : State) (i : Nat) : (quietDecode s i).memoryWf = s.memoryWf := by simp [quietDecode]

@[simp] theorem memoryWf_beginReady (s : State) (i : Nat) (n : Nat) : (beginReady s i n).memoryWf = s.memoryWf := by
  induction n generalizing s with
  | zero => rfl
  | succ n ih =>
    unfold beginReady
    dsimp only
    repeat' split
    all_goals simp [ih]

@[simp] theorem memoryWf_nextFrameOf (s : State) (i : Nat) : (nextFrameOf s i).memoryWf = s.memoryWf := by simp [nextFrameOf]

@[simp] theorem memoryWf_openFrame {s : State} (i : Nat) (d : DecodeStream) (j : DecodeFrame) (h : s.memoryWf = true) :
    (openFrame s i d j).1.memoryWf = true := by
  unfold openFrame
  dsimp only
  split <;> simp [h]

@[simp] theorem memoryWf_completeFrame (s : State) (i : Nat) (j : DecodeFrame) (b : Nat) : (completeFrame s i j b).memoryWf = s.memoryWf := by
  simp [completeFrame]

@[simp] theorem memoryWf_dropDecodeFrame (s : State) (i : Nat) : (dropDecodeFrame s i).memoryWf = s.memoryWf := by
  unfold dropDecodeFrame
  repeat' split
  all_goals simp

@[simp] theorem memoryWf_resetDecode (s : State) (cluster : Nat) : (resetDecode s cluster).memoryWf = s.memoryWf := by simp [resetDecode]
@[simp] theorem memoryWf_decodeFailure (s : State) (cluster : Nat) : (decodeFailure s cluster).memoryWf = s.memoryWf := by simp [decodeFailure]

@[simp] theorem memoryWf_takeFrame (s : State) (i : Nat) (d : DecodeStream) (a : AsmFrame) (tr : Nat) (f : CodedFrame) :
    (takeFrame s i d a tr f).memoryWf = s.memoryWf := by
  unfold takeFrame
  split <;> simp

@[simp] theorem outcomeWf_execFrameReady (i : Nat) (f : CodedFrame) {s : State} (h : s.memoryWf = true) : OutcomeWf (execFrameReady i f s) := by
  unfold execFrameReady
  repeat' split
  all_goals simp [h]

@[simp] theorem memoryWf_writeDecoded {s : State} (d : DecodeStream) (j : DecodeFrame) (out : Nat) (p : RowPlace) (x : Nat × BlockWork × Bool)
    (h : s.memoryWf = true) :
    (writeDecoded s d j out p x).memoryWf = true := by
  simp [writeDecoded, h]

@[simp] theorem memoryWf_endRow {s : State} (i : Nat) (d : DecodeStream) (j : DecodeFrame) (out : Nat) (w : RowWork) (n : Nat) (h : s.memoryWf = true) :
    (endRow s i d j out w n).memoryWf = true := by
  have written (l : List (Nat × BlockWork × Bool)) :
      (l.foldl (fun s x => writeDecoded s d j out (rowPlace j.frame j.sched.next) x) s).memoryWf = true :=
    memoryWf_foldl_of l _ (by simp) h
  simp [endRow, written]

@[simp] theorem memoryWf_abandonRow {s : State} (i : Nat) (d : DecodeStream) (j : DecodeFrame) (out : Nat) (w : RowWork) (n : Nat) (h : s.memoryWf = true) :
    (abandonRow s i d j out w n).memoryWf = true := by
  simp [abandonRow, h]

@[simp] theorem memoryWf_strayWrites {s : State} (out : Nat) (writes : List (Nat × List Byte)) (h : s.memoryWf = true) :
    (strayWrites s out writes).1.memoryWf = true := by
  unfold strayWrites
  dsimp only
  split <;> simp [h]

@[simp] theorem memoryWf_runRow {s : State} (i : Nat) (d : DecodeStream) (j : DecodeFrame) (out : Nat) (w : RowWork) (h : s.memoryWf = true) :
    (runRow s i d j out w).memoryWf = true := by
  simp [runRow, h]

@[simp] theorem outcomeWf_execDecodeRowJob (i : Nat) (w : RowWork) {s : State} (h : s.memoryWf = true) : OutcomeWf (execDecodeRowJob i w s) := by
  unfold execDecodeRowJob
  split
  · simp [h]
  · split
    · simp [h]
    · next d _ _ j _ =>
      have opened := memoryWf_openFrame i d j h
      repeat' split
      all_goals simp_all

@[simp] theorem memoryWf_activateDecode (s : State) (i : Nat) : (activateDecode s i).memoryWf = s.memoryWf := by
  unfold activateDecode
  split <;> simp

@[simp] theorem memoryWf_decodeLateness (s : State) (n : Nat) : (decodeLateness s n).memoryWf = s.memoryWf := by simp [decodeLateness]

@[simp] theorem memoryWf_drainDecode (s : State) (i : Nat) : (drainDecode s i).memoryWf = s.memoryWf := by
  unfold drainDecode
  dsimp only
  split <;> simp

@[simp] theorem memoryWf_endDecodes (s : State) : (endDecodes s).memoryWf = s.memoryWf := by simp [endDecodes]

/-! ### The Veil -/

@[simp] theorem memoryWf_updComp (s : State) (i : Nat) (f : Composite → Composite) : (updComp s i f).memoryWf = s.memoryWf := by simp [updComp]

@[simp] theorem memoryWf_takePicture (i : Nat) (l : DisplayList) (s : State) (x : Layer) : (takePicture i l s x).memoryWf = s.memoryWf := by
  unfold takePicture
  split <;> simp

@[simp] theorem memoryWf_dropShows (s : State) (shows : List (Nat × LayerShow)) : (dropShows s shows).memoryWf = s.memoryWf := by simp [dropShows]
@[simp] theorem memoryWf_takePictures (s : State) (i : Nat) (l : DisplayList) : (takePictures s i l).memoryWf = s.memoryWf := by simp [takePictures]

@[simp] theorem memoryWf_lineBuffers (s : State) (i : Nat) (l : DisplayList) : (lineBuffers s i l).memoryWf = s.memoryWf := by
  unfold lineBuffers
  split <;> simp

@[simp] theorem memoryWf_quietComposite (s : State) (i : Nat) : (quietComposite s i).memoryWf = s.memoryWf := by
  unfold quietComposite
  split <;> simp

@[simp] theorem memoryWf_endFrame (s : State) (i : Nat) : (endFrame s i).memoryWf = s.memoryWf := by simp [endFrame]

@[simp] theorem memoryWf_countWithheld (s : State) (i : Nat) (j : CompFrame) (run : Bool) : (countWithheld s i j run).memoryWf = s.memoryWf := by
  simp [countWithheld]

@[simp] theorem memoryWf_withhold (s : State) (i : Nat) (j : CompFrame) (run : Bool) : (withhold s i j run).memoryWf = s.memoryWf := by simp [withhold]

@[simp] theorem memoryWf_publish (s : State) (i : Nat) (c : Composite) (j : CompFrame) : (publish s i c j).memoryWf = s.memoryWf := by
  unfold publish
  split <;> simp

@[simp] theorem memoryWf_verdict (s : State) (i : Nat) (c : Composite) (j : CompFrame) : (verdict s i c j).memoryWf = s.memoryWf := by simp [verdict]

@[simp] theorem memoryWf_beginComposition {s : State} (i : Nat) (c : Composite) (l : SignedList) (slate : Bool) (h : s.memoryWf = true) :
    (beginComposition s i c l slate).memoryWf = true := by
  unfold beginComposition
  dsimp only
  split <;> simp [h]

@[simp] theorem memoryWf_adoptList (s : State) (i : Nat) : (adoptList s i).memoryWf = s.memoryWf := by simp [adoptList]

@[simp] theorem memoryWf_revalidate (s : State) (i : Nat) : (revalidate s i).memoryWf = s.memoryWf := by
  unfold revalidate
  repeat' split
  all_goals simp

@[simp] theorem memoryWf_compositeBoundary {s : State} (i : Nat) (h : s.memoryWf = true) : (compositeBoundary s i).memoryWf = true := by
  unfold compositeBoundary
  dsimp only
  repeat' split
  all_goals simp [h]

@[simp] theorem outcomeWf_execCompositeFrameBoundary (i : Nat) {s : State} (h : s.memoryWf = true) : OutcomeWf (execCompositeFrameBoundary i s) := by
  unfold execCompositeFrameBoundary
  split <;> simp [h]

@[simp] theorem outcomeWf_execSignaturesComputed (i veil : Nat) {s : State} (h : s.memoryWf = true) : OutcomeWf (execSignaturesComputed i veil s) := by
  unfold execSignaturesComputed
  dsimp only
  repeat' split
  all_goals simp [h]

@[simp] theorem memoryWf_dropComposite (s : State) (i : Nat) : (dropComposite s i).memoryWf = s.memoryWf := by
  unfold dropComposite
  split <;> simp

@[simp] theorem memoryWf_dropWaiting (s : State) (i g : Nat) : (dropWaiting s i g).memoryWf = s.memoryWf := by
  unfold dropWaiting
  split <;> simp

@[simp] theorem memoryWf_resetVeil (s : State) (veil : Nat) : (resetVeil s veil).memoryWf = s.memoryWf := by simp [resetVeil]
@[simp] theorem memoryWf_veilFailure (s : State) (veil : Nat) : (veilFailure s veil).memoryWf = s.memoryWf := by simp [veilFailure]

@[simp] theorem memoryWf_writeBand {s : State} (g : Generation) (c : CompositeSpec) (j : CompFrame) (w : BandWork) (h : s.memoryWf = true) :
    (writeBand s g c j w).memoryWf = true := by
  simp [writeBand, h]

@[simp] theorem outcomeWf_execVeilBandJob (i : Nat) (w : BandWork) {s : State} (h : s.memoryWf = true) : OutcomeWf (execVeilBandJob i w s) := by
  unfold execVeilBandJob
  repeat' split
  all_goals simp [h]

@[simp] theorem outcomeWf_execVisorFail (i : Nat) {s : State} (h : s.memoryWf = true) : OutcomeWf (execVisorFail i s) := by
  unfold execVisorFail
  split <;> simp [h]

@[simp] theorem memoryWf_activateComposite (s : State) (i : Nat) : (activateComposite s i).memoryWf = s.memoryWf := by simp [activateComposite]
@[simp] theorem memoryWf_compositeLateness (s : State) (n : Nat) : (compositeLateness s n).memoryWf = s.memoryWf := by simp [compositeLateness]

@[simp] theorem memoryWf_drainComposite (s : State) (i : Nat) : (drainComposite s i).memoryWf = s.memoryWf := by
  unfold drainComposite
  split <;> simp

@[simp] theorem memoryWf_endComposites (s : State) : (endComposites s).memoryWf = s.memoryWf := by simp [endComposites]

/-! ### Video encode -/

@[simp] theorem memoryWf_updEncode (s : State) (i : Nat) (f : EncodeStream → EncodeStream) : (updEncode s i f).memoryWf = s.memoryWf := by simp [updEncode]

@[simp] theorem memoryWf_sendUnit (s : State) (l : Nat) (timestamp : Nat) (packets : List (Nat × List Byte)) :
    (sendUnit s l timestamp packets).memoryWf = s.memoryWf := by
  simp [sendUnit]

@[simp] theorem memoryWf_sendFrameOf (s : State) (i : Nat) (e : EncodeStream) (j : EncodeFrame) (coded : List CodedLayer) :
    (sendFrameOf s i e j coded).memoryWf = s.memoryWf := by
  simp [sendFrameOf]

@[simp] theorem memoryWf_encodeMarks (s : State) (i : Nat) : (encodeMarks s i).memoryWf = s.memoryWf := by
  unfold encodeMarks
  split <;> simp

@[simp] theorem memoryWf_quietEncode (s : State) (i : Nat) : (quietEncode s i).memoryWf = s.memoryWf := by
  unfold quietEncode
  split <;> simp

@[simp] theorem memoryWf_finishFrame (s : State) (i : Nat) (e : EncodeStream) (j : EncodeFrame) (coded : Bool) :
    (finishFrame s i e j coded).memoryWf = s.memoryWf := by
  simp [finishFrame]

@[simp] theorem memoryWf_takeBuffers {s : State} (i : Nat) (e : EncodeStream) (n : Nat) (h : s.memoryWf = true) :
    (takeBuffers s i e n).1.memoryWf = true := by
  induction n generalizing s with
  | zero => exact h
  | succ n ih =>
    unfold takeBuffers
    split
    · exact h
    · simp [ih, h]

@[simp] theorem memoryWf_startEncode {s : State} (i : Nat) (stamp : Nat) (sched : Schedule) (h : s.memoryWf = true) :
    (startEncode s i stamp sched).memoryWf = true := by
  unfold startEncode
  dsimp only
  repeat' split
  all_goals simp [h]

@[simp] theorem outcomeWf_execEncodeFrameStart (i : Nat) {s : State} (h : s.memoryWf = true) : OutcomeWf (execEncodeFrameStart i s) := by
  unfold execEncodeFrameStart
  split <;> simp [h]

@[simp] theorem memoryWf_startWaiting {s : State} (i : Nat) (n : Nat) (h : s.memoryWf = true) : (startWaiting s i n).memoryWf = true := by
  induction n generalizing s with
  | zero => exact h
  | succ n ih =>
    unfold startWaiting
    repeat' split
    all_goals simp [ih, h]

@[simp] theorem memoryWf_endEncode {s : State} (i : Nat) (e : EncodeStream) (j : EncodeFrame) (coded : Bool) (h : s.memoryWf = true) :
    (endEncode s i e j coded).memoryWf = true := by
  simp [endEncode, h]

@[simp] theorem memoryWf_dropEncode {s : State} (i : Nat) (counted : Bool) (h : s.memoryWf = true) : (dropEncode s i counted).memoryWf = true := by
  unfold dropEncode
  repeat' split
  all_goals simp [h]

@[simp] theorem memoryWf_resetEncode {s : State} (cluster : Nat) (h : s.memoryWf = true) : (resetEncode s cluster).memoryWf = true := by simp [resetEncode, h]
@[simp] theorem memoryWf_encodeFailure {s : State} (cluster : Nat) (h : s.memoryWf = true) : (encodeFailure s cluster).memoryWf = true := by
  simp [encodeFailure, h]

@[simp] theorem memoryWf_writeCoded (e : EncodeStream) (p : JobPlace) (out : Nat) {s : State} (b : CodedBlock) (h : s.memoryWf = true) :
    (writeCoded e p out s b).memoryWf = true := by
  have vector (k : Nat) (samples : List Nat) (entry : List Byte) : (writeVector (writeBlock s out k samples) out k entry).memoryWf = true := by simp [h]
  simp [writeCoded, vector, h]

@[simp] theorem memoryWf_rowCoded {s : State} (i : Nat) (e : EncodeStream) (j : EncodeFrame) (p : JobPlace) (f : LayerFrame) (w : EncodeWork)
    (searched : Nat) (h : s.memoryWf = true) : (rowCoded s i e j p f w searched).memoryWf = true := by
  have written (out : Nat) (l : List CodedBlock) : (l.foldl (writeCoded e p out) s).memoryWf = true := memoryWf_foldl_of l _ (by simp) h
  simp [rowCoded, written]

@[simp] theorem memoryWf_strayEncodeWrites {s : State} (out : Nat) (writes : List (Nat × List Byte)) (h : s.memoryWf = true) :
    (strayEncodeWrites s out writes).1.memoryWf = true := by
  unfold strayEncodeWrites
  dsimp only
  split <;> simp [h]

@[simp] theorem memoryWf_runEncodeRow {s : State} (i : Nat) (e : EncodeStream) (j : EncodeFrame) (f : LayerFrame) (w : EncodeWork)
    (h : s.memoryWf = true) : (runEncodeRow s i e j f w).memoryWf = true := by
  have stray := fun out writes => memoryWf_strayEncodeWrites out writes h
  simp [runEncodeRow, stray, h]

@[simp] theorem outcomeWf_execEncodeRowJob (i : Nat) (w : EncodeWork) {s : State} (h : s.memoryWf = true) : OutcomeWf (execEncodeRowJob i w s) := by
  unfold execEncodeRowJob
  repeat' split
  all_goals simp [h]

@[simp] theorem memoryWf_activateEncode (s : State) (i : Nat) : (activateEncode s i).memoryWf = s.memoryWf := by simp [activateEncode]
@[simp] theorem memoryWf_encodeTick (s : State) : (encodeTick s).memoryWf = s.memoryWf := by simp [encodeTick]
@[simp] theorem memoryWf_encodeLateness (s : State) (n : Nat) : (encodeLateness s n).memoryWf = s.memoryWf := by simp [encodeLateness]
@[simp] theorem memoryWf_drainEncode (s : State) (i : Nat) : (drainEncode s i).memoryWf = s.memoryWf := by simp [drainEncode]
@[simp] theorem memoryWf_endEncodes (s : State) : (endEncodes s).memoryWf = s.memoryWf := by simp [endEncodes]

/-! ### The ciphers and the Palm -/

@[simp] theorem memoryWf_withCipher (s : State) (f : CipherState → CipherState) : (withCipher s f).memoryWf = s.memoryWf := by simp [withCipher]
@[simp] theorem memoryWf_setSlot (s : State) (k : Nat) (x : PalmSlot) : (setSlot s k x).memoryWf = s.memoryWf := by simp [setSlot]

@[simp] theorem memoryWf_beginLoad (s : State) (k entry version usage refs : Nat) (pinned : Bool) :
    (beginLoad s k entry version usage refs pinned).memoryWf = s.memoryWf := by
  simp [beginLoad]

@[simp] theorem memoryWf_serveWaits (s : State) (cluster : Nat) (l : List WaitingMiss) : (serveWaits s cluster l).memoryWf = s.memoryWf := by
  induction l generalizing s with
  | nil => rfl
  | cons w rest ih =>
    unfold serveWaits
    split
    · simp [ih]
    · split
      · rfl
      · simp [ih]

@[simp] theorem memoryWf_dropRef (s : State) (k : Nat) : (dropRef s k).memoryWf = s.memoryWf := by simp [dropRef]
@[simp] theorem memoryWf_staleEntry (s : State) (entry version : Nat) : (staleEntry s entry version).memoryWf = s.memoryWf := by simp [staleEntry]

@[simp] theorem memoryWf_pinEntry (s : State) (entry : Nat) : (pinEntry s entry).memoryWf = s.memoryWf := by
  unfold pinEntry
  dsimp only
  split <;> simp

@[simp] theorem memoryWf_putKey (s : State) (entry : Nat) (k : KeyEntry) : (putKey s entry k).memoryWf = s.memoryWf := by simp [putKey]
@[simp] theorem memoryWf_releaseKey (s : State) (entry : Nat) : (releaseKey s entry).memoryWf = s.memoryWf := by simp [releaseKey]
@[simp] theorem memoryWf_replaceKey (s : State) (entry : Nat) (k : KeyEntry) : (replaceKey s entry k).memoryWf = s.memoryWf := by simp [replaceKey]
@[simp] theorem memoryWf_applyReplacements (s : State) : (applyReplacements s).memoryWf = s.memoryWf := by simp [applyReplacements]
@[simp] theorem memoryWf_setSrtp (s : State) (l : Nat) (x : SrtpState) : (setSrtp s l x).memoryWf = s.memoryWf := by simp [setSrtp]
@[simp] theorem memoryWf_setSrtpCtx (s : State) (l : Nat) (rtx : Bool) (x : SrtpState) : (setSrtpCtx s l rtx x).memoryWf = s.memoryWf := by simp [setSrtpCtx]

@[simp] theorem memoryWf_writeCompletion (s : State) (port completion status : Nat) (untrusted missed : Bool) (core stall : Nat) :
    (writeCompletion s port completion status untrusted missed core stall).memoryWf = s.memoryWf := by
  simp [writeCompletion]

@[simp] theorem memoryWf_acceptJob (s : State) (cluster port : Nat) (d : JobDesc) (purpose : JobPurpose) (entry version : Nat) :
    (acceptJob s cluster port d purpose entry version).memoryWf = s.memoryWf := by
  unfold acceptJob
  dsimp only
  repeat' split
  all_goals simp

@[simp] theorem memoryWf_answerJob (s : State) (j : CipherJob) : (answerJob s j).memoryWf = s.memoryWf := by
  unfold answerJob
  split <;> simp

@[simp] theorem memoryWf_jobOutput {s : State} (j : CipherJob) (h : s.memoryWf = true) : (jobOutput s j).memoryWf = true := by simp [jobOutput, h]

@[simp] theorem memoryWf_removeJob (s : State) (j : CipherJob) : (removeJob s j).memoryWf = s.memoryWf := by
  unfold removeJob
  split <;> simp

@[simp] theorem memoryWf_countLoad (s : State) : (countLoad s).memoryWf = s.memoryWf := by simp [countLoad]
@[simp] theorem memoryWf_endLoad (s : State) (k : Nat) : (endLoad s k).memoryWf = s.memoryWf := by simp [endLoad]
@[simp] theorem memoryWf_deliverShares (s : State) (k : Nat) : (deliverShares s k).memoryWf = s.memoryWf := by simp [deliverShares]
@[simp] theorem memoryWf_failLoad (s : State) (k entry : Nat) (free : Bool) : (failLoad s k entry free).memoryWf = s.memoryWf := by simp [failLoad]
@[simp] theorem outcomeWf_execPalmReshare (cluster slot : Nat) {s : State} (h : s.memoryWf = true) : OutcomeWf (execPalmReshare cluster slot s) := by
  simp [execPalmReshare, h]

@[simp] theorem memoryWf_cipherTick (s : State) : (cipherTick s).memoryWf = s.memoryWf := by simp [cipherTick]

/-! ### Classification -/

@[simp] theorem memoryWf_withIngress (s : State) (f : IngressState → IngressState) : (withIngress s f).memoryWf = s.memoryWf := by simp [withIngress]

@[simp] theorem optionKeepsMemory_insertEntry (s : State) (path kind target : Nat) (key : List Byte) :
    OptionKeepsMemory s (insertEntry s path kind target key) := by
  unfold insertEntry
  intro t h
  obtain ⟨k, -, rfl⟩ := Option.map_eq_some_iff.1 h
  simp

@[simp] theorem memoryWf_removeEntries (s : State) (kind target : Nat) : (removeEntries s kind target).memoryWf = s.memoryWf := by simp [removeEntries]

@[simp] theorem memoryWf_adoptRules (s : State) (old new_ : List ClassRule) (gen : Nat) : (adoptRules s old new_ gen).memoryWf = s.memoryWf := by
  unfold adoptRules
  apply memoryWf_foldl
  intro s x
  split <;> simp

@[simp] theorem memoryWf_freeOldRules (s : State) : (freeOldRules s).memoryWf = s.memoryWf := by simp [freeOldRules]
@[simp] theorem memoryWf_recirculate (s : State) (x : Recirculated) : (recirculate s x).memoryWf = s.memoryWf := by simp [recirculate]

@[simp] theorem memoryWf_deliverIngress (s : State) (bytes : List Byte) (source reason port context stamp : Nat) :
    (deliverIngress s bytes source reason port context stamp).memoryWf = s.memoryWf := by
  unfold deliverIngress
  split
  · next h => simp [(optionKeepsMemory_deliver _ _ _ _ _ _ _).memoryWf_eq h]
  · simp

/-! ### The Gauntlet -/

@[simp] theorem memoryWf_updTunnel (s : State) (t : Nat) (f : Tunnel → Tunnel) : (updTunnel s t f).memoryWf = s.memoryWf := by simp [updTunnel]
@[simp] theorem memoryWf_setFloor (s : State) (t v : Nat) : (setFloor s t v).memoryWf = s.memoryWf := by simp [setFloor]
@[simp] theorem memoryWf_activateTunnel (s : State) (t : Nat) : (activateTunnel s t).memoryWf = s.memoryWf := by simp [activateTunnel]

@[simp] theorem memoryWf_queueTunnel (s : State) (t : Nat) (label : Nat) (leg : Option Nat) (bytes : List Byte) :
    (queueTunnel s t label leg bytes).memoryWf = s.memoryWf := by
  unfold queueTunnel
  split <;> simp

@[simp] theorem memoryWf_buildFrame (s : State) (t : Nat) (slot : Nat) (probe : Bool) : (buildFrame s t slot probe).memoryWf = s.memoryWf := by
  unfold buildFrame
  split <;> simp

@[simp] theorem memoryWf_buildTick (s : State) (t tr k : Nat) : (buildTick s t tr k).memoryWf = s.memoryWf := by
  unfold buildTick
  split <;> simp

@[simp] theorem memoryWf_releaseTunnel (s : State) (t tr n : Nat) : (releaseTunnel s t tr n).memoryWf = s.memoryWf := by
  unfold releaseTunnel
  split <;> simp

@[simp] theorem memoryWf_sealFrame (s : State) (t seq : Nat) (done : Bool) (sealedArea : List Byte) :
    (sealFrame s t seq done sealedArea).memoryWf = s.memoryWf := by
  unfold sealFrame
  split <;> simp

@[simp] theorem memoryWf_sendTunnelFrame (s : State) (t : Nat) (x : Tunnel) (b : BuiltFrame) : (sendTunnelFrame s t x b).memoryWf = s.memoryWf := by
  simp [sendTunnelFrame]

@[simp] theorem outcomeWf_execTunnelFrameSlot (t : Nat) {s : State} (h : s.memoryWf = true) : OutcomeWf (execTunnelFrameSlot t s) := by
  unfold execTunnelFrameSlot
  repeat' split
  all_goals simp [h]
  all_goals exact (memoryWf_of_reach ‹_›).trans h

@[simp] theorem memoryWf_rejectFrame (s : State) (t : Nat) (f : Fld) : (rejectFrame s t f).memoryWf = s.memoryWf := by simp [rejectFrame]

@[simp] theorem memoryWf_takeArrival (s : State) (a : TunnelArrival) (x : Tunnel) : (takeArrival s a x).memoryWf = s.memoryWf := by
  unfold takeArrival
  dsimp only
  repeat' split
  all_goals simp

@[simp] theorem outcomeWf_execGauntletFrameRx (port stamp : Nat) (frame : List Byte) {s : State} (h : s.memoryWf = true) :
    OutcomeWf (execGauntletFrameRx port stamp frame s) := by
  unfold execGauntletFrameRx
  dsimp only
  repeat' split
  all_goals simp [h]

@[simp] theorem memoryWf_deliverInner (s : State) (t label stamp port gen : Nat) (bytes : List Byte) :
    (deliverInner s t label stamp port gen bytes).memoryWf = s.memoryWf := by
  unfold deliverInner
  split
  · simp
  · split
    · next h => simp [(optionKeepsMemory_deliver _ _ _ _ _ _ _).memoryWf_eq h]
    · simp

@[simp] theorem memoryWf_takeProbe (s : State) (t rx : Nat) (b : List Byte) : (takeProbe s t rx b).memoryWf = s.memoryWf := by simp [takeProbe]

@[simp] theorem memoryWf_losePartial (s : State) (t : Nat) : (losePartial s t).memoryWf = s.memoryWf := by
  unfold losePartial
  split <;> simp

@[simp] theorem memoryWf_takeSegment (t stamp port gen : Nat) (follows : Bool) (s : State) (g : Segment) :
    (takeSegment t stamp port gen follows s g).memoryWf = s.memoryWf := by
  unfold takeSegment
  split
  · rfl
  split
  · simp
  split
  · simp
  dsimp only
  generalize (s.gauntlet.tunnels.get t).bind (·.reassembly) = held
  cases held <;> simp

@[simp] theorem memoryWf_takeSegments (s : State) (t stamp port gen : Nat) (follows : Bool) (l : List Segment) :
    (takeSegments s t stamp port gen follows l).memoryWf = s.memoryWf := by
  induction l generalizing s follows with
  | nil => rfl
  | cons g l ih => simp [takeSegments, ih]

@[simp] theorem memoryWf_promote (s : State) (t : Nat) (x : Tunnel) : (promote s t x).memoryWf = s.memoryWf := by simp [promote]

@[simp] theorem memoryWf_validFrame (s : State) (t : Nat) (x : Tunnel) (epoch seq : Nat) (peerUp : Bool) (stamp boundary : Nat) :
    (validFrame s t x epoch seq peerUp stamp boundary).memoryWf = s.memoryWf := by
  simp [validFrame]

@[simp] theorem memoryWf_acceptTunnelFrame (s : State) (t epoch seq : Nat) (peerUp : Bool) (stamp boundary port gen : Nat) (area : List Byte) :
    (acceptTunnelFrame s t epoch seq peerUp stamp boundary port gen area).memoryWf = s.memoryWf := by
  unfold acceptTunnelFrame
  split <;> simp

@[simp] theorem outcomeWf_execTunnelDown (t : Nat) {s : State} (h : s.memoryWf = true) : OutcomeWf (execTunnelDown t s) := by
  unfold execTunnelDown
  split <;> simp [h]

@[simp] theorem memoryWf_installEpoch (s : State) (t : Nat) (k : KeyEntry) (entry : Nat) : (installEpoch s t k entry).memoryWf = s.memoryWf := by
  simp [installEpoch]

@[simp] theorem memoryWf_endTokens (s : State) (t status detail result : Nat) : (endTokens s t status detail result).memoryWf = s.memoryWf := by
  simp [endTokens]

@[simp] theorem outcomeWf_execOldEpochExpiry (t : Nat) {s : State} (h : s.memoryWf = true) : OutcomeWf (execOldEpochExpiry t s) := by
  unfold execOldEpochExpiry
  dsimp only
  repeat' split
  all_goals simp [h]

@[simp] theorem memoryWf_stopTunnels (s : State) : (stopTunnels s).memoryWf = s.memoryWf := by simp [stopTunnels]
@[simp] theorem memoryWf_freeTunnel (s : State) (t : Nat) (x : Tunnel) : (freeTunnel s t x).memoryWf = s.memoryWf := by simp [freeTunnel]

/-! ### Ingress -/

@[simp] theorem memoryWf_withCuff (s : State) (m : Nat) (c : Cuff) : (withCuff s m c).memoryWf = s.memoryWf := by simp [withCuff]
@[simp] theorem memoryWf_writeCuff (s : State) (m : Nat) (p : Preface) (b : List Byte) : (writeCuff s m p b).memoryWf = s.memoryWf := by simp [writeCuff]
@[simp] theorem outcomeWf_execCuffBankSwitch (m : Nat) {s : State} (h : s.memoryWf = true) : OutcomeWf (execCuffBankSwitch m s) := by
  simp [execCuffBankSwitch, h]

@[simp] theorem memoryWf_countCorrected (s : State) (m : Nat) (ws : List (Bool × CuffWord)) (errors : List (Nat × Nat)) :
    (countCorrected s m ws errors).memoryWf = s.memoryWf := by
  unfold countCorrected
  apply memoryWf_foldl
  intro s x
  split <;> simp

@[simp] theorem memoryWf_takeException (s : State) (x : PacketContext) (reason : Nat) : (takeException s x reason).memoryWf = s.memoryWf := by
  simp [takeException]

@[simp] theorem memoryWf_submitFor (s : State) (p : JobPurpose) : (submitFor s p).memoryWf = s.memoryWf := by simp [submitFor]
@[simp] theorem memoryWf_takeRtp (s : State) (l n stamp gen : Nat) (u : List Byte) : (takeRtp s l n stamp gen u).memoryWf = s.memoryWf := by simp [takeRtp]

@[simp] theorem memoryWf_takeRtcp (s : State) (p n stamp : Nat) (u : List Byte) : (takeRtcp s p n stamp u).memoryWf = s.memoryWf := by
  unfold takeRtcp
  split <;> simp

@[simp] theorem memoryWf_takeParticipant (s : State) (x : PacketContext) (p : Nat) (u : List Byte) (n : Nat) :
    (takeParticipant s x p u n).memoryWf = s.memoryWf := by
  unfold takeParticipant
  repeat' split
  all_goals simp

@[simp] theorem memoryWf_arriveTunnel (s : State) (x : PacketContext) (t : Nat) (frame : List Byte) : (arriveTunnel s x t frame).memoryWf = s.memoryWf := by
  simp [arriveTunnel]

@[simp] theorem memoryWf_takeResult (s : State) (x : PacketContext) (p : Parsed) (e : ClassEntry) : (takeResult s x p e).memoryWf = s.memoryWf := by
  unfold takeResult
  split <;> simp

@[simp] theorem memoryWf_withFragment (s : State) (k : Nat) (e : FragEntry) : (withFragment s k e).memoryWf = s.memoryWf := by simp [withFragment]

@[simp] theorem memoryWf_closeFragment (s : State) (k : Nat) (e : FragEntry) (f : Fld) : (closeFragment s k e f).memoryWf = s.memoryWf := by
  simp [closeFragment]

@[simp] theorem memoryWf_deliverDatagram (s : State) (k : Nat) (e : FragEntry) (x : PacketContext) : (deliverDatagram s k e x).memoryWf = s.memoryWf := by
  unfold deliverDatagram
  split <;> simp

@[simp] theorem memoryWf_addFragment {s : State} (k : Nat) (e : FragEntry) (offset : Nat) (more : Bool) (data : List Byte) (x : PacketContext)
    (h : s.memoryWf = true) :
    (addFragment s k e offset more data x).memoryWf = true := by
  simp [addFragment, h]

@[simp] theorem memoryWf_firstFragment {s : State} (x : PacketContext) (p : Parsed) (f : Nat × Nat × Bool × Nat) (c : ClassEntry) (h : s.memoryWf = true) :
    (firstFragment s x p f c).memoryWf = true := by
  unfold firstFragment
  dsimp only
  repeat' split
  all_goals simp [h]

@[simp] theorem outcomeWf_execFragTimeout (k : Nat) {s : State} (h : s.memoryWf = true) : OutcomeWf (execFragTimeout k s) := by
  unfold execFragTimeout
  repeat' split
  all_goals simp [h]
  all_goals exact (memoryWf_of_reach ‹_›).trans h

@[simp] theorem memoryWf_parsePacket {s : State} (x : PacketContext) (g : Generation) (h : s.memoryWf = true) : (parsePacket s x g).memoryWf = true := by
  unfold parsePacket
  dsimp only
  repeat' split
  all_goals simp [h]

@[simp] theorem memoryWf_parseRead {s : State} (p : Preface) (boundary : Nat) (b : List Byte) (poisoned : Bool) (h : s.memoryWf = true) :
    (parseRead s p boundary b poisoned).memoryWf = true := by
  simp [parseRead, h]

@[simp] theorem memoryWf_resyncCuff (s : State) (m : Nat) (c : Cuff) : (resyncCuff s m c).memoryWf = s.memoryWf := by simp [resyncCuff]

@[simp] theorem outcomeWf_execFrameParse (m : Nat) (r : ParseReads) {s : State} (h : s.memoryWf = true) : OutcomeWf (execFrameParse m r s) := by
  unfold execFrameParse
  dsimp only
  repeat' split
  all_goals simp [h]

@[simp] theorem memoryWf_takeTunnelMedia (s : State) (x : Recirculated) (layers : MediaPacket) : (takeTunnelMedia s x layers).memoryWf = s.memoryWf := by
  unfold takeTunnelMedia
  dsimp only
  split <;> simp

@[simp] theorem outcomeWf_execRecirculated (engine : Nat) (r : InnerReads) {s : State} (h : s.memoryWf = true) : OutcomeWf (execRecirculated engine r s) := by
  unfold execRecirculated
  split <;> simp [h]

@[simp] theorem memoryWf_resetIngress (s : State) (engine : Nat) : (resetIngress s engine).memoryWf = s.memoryWf := by simp [resetIngress]
@[simp] theorem memoryWf_ingressTick (s : State) : (ingressTick s).memoryWf = s.memoryWf := by simp [ingressTick]

/-! ### The consumers of a packet -/

@[simp] theorem memoryWf_srtpSent (s : State) (l : Nat) (done : Bool) (protected_ : List Byte) : (srtpSent s l done protected_).memoryWf = s.memoryWf := by
  unfold srtpSent
  split <;> simp

@[simp] theorem memoryWf_srtpAccepted (s : State) (l roc : Nat) (rtx : Bool) (bytes stamp : Nat) (p : MediaPacket) :
    (srtpAccepted s l roc rtx bytes stamp p).memoryWf = s.memoryWf := by
  simp [srtpAccepted]

@[simp] theorem memoryWf_consume (s : State) (p : JobPurpose) (status : Nat) (untrusted : Bool) (out : List Byte) (layers : MediaPacket) :
    (consume s p status untrusted out layers).memoryWf = s.memoryWf := by
  unfold consume
  repeat' split
  all_goals simp

@[simp] theorem memoryWf_countStatus (s : State) (status : Nat) : (countStatus s status).memoryWf = s.memoryWf := by
  unfold countStatus
  split <;> simp

@[simp] theorem memoryWf_consumeNone (s : State) (p : JobPurpose) (status : Nat) : (consumeNone s p status).memoryWf = s.memoryWf := by simp [consumeNone]
@[simp] theorem memoryWf_failJob (s : State) (j : CipherJob) (status : Nat) : (failJob s j status).memoryWf = s.memoryWf := by simp [failJob]
@[simp] theorem memoryWf_failJobs (s : State) (status : Nat) (l : List CipherJob) : (failJobs s status l).memoryWf = s.memoryWf := by simp [failJobs]

@[simp] theorem memoryWf_placeJob {s : State} (d : JobDesc) (p : JobPurpose) (h : s.memoryWf = true) : (placeJob s d p).memoryWf = true := by
  unfold placeJob
  split <;> simp [h]

@[simp] theorem memoryWf_unsubmit (s : State) (p : JobPurpose) : (unsubmit s p).memoryWf = s.memoryWf := by simp [unsubmit]

@[simp] theorem memoryWf_refuseJob (s : State) (cluster port : Nat) (d : JobDesc) (p : JobPurpose) (status : Nat) :
    (refuseJob s cluster port d p status).memoryWf = s.memoryWf := by
  simp [refuseJob]

@[simp] theorem outcomeWf_execCipherJobAccept (cluster port : Nat) (b : List Byte) (p : JobPurpose) {s : State} (h : s.memoryWf = true) :
    OutcomeWf (execCipherJobAccept cluster port b p s) := by
  unfold execCipherJobAccept
  dsimp only
  repeat' split
  all_goals simp [h]

@[simp] theorem memoryWf_resetCipher (s : State) (cluster : Nat) : (resetCipher s cluster).memoryWf = s.memoryWf := by simp [resetCipher]
@[simp] theorem memoryWf_cipherFailure (s : State) (cluster : Nat) : (cipherFailure s cluster).memoryWf = s.memoryWf := by simp [cipherFailure]
@[simp] theorem memoryWf_countCore (s : State) (core n : Nat) : (countCore s core n).memoryWf = s.memoryWf := by simp [countCore]
@[simp] theorem memoryWf_completeJob {s : State} (j : CipherJob) (r : JobResult) (h : s.memoryWf = true) : (completeJob s j r).memoryWf = true := by
  simp [completeJob, h]

@[simp] theorem outcomeWf_execCipherCompletion (id : Nat) (r : JobResult) {s : State} (h : s.memoryWf = true) : OutcomeWf (execCipherCompletion id r s) := by
  unfold execCipherCompletion
  split <;> simp [h]

@[simp] theorem outcomeWf_execKeyLoad (cluster slot : Nat) (unwraps : Bool) {s : State} (h : s.memoryWf = true) :
    OutcomeWf (execKeyLoad cluster slot unwraps s) := by
  unfold execKeyLoad
  dsimp only
  repeat' split
  all_goals simp [h]

/-! ### Ethernet -/

@[simp] theorem memoryWf_withEth (s : State) (m : Nat) (p : EthPort) : (withEth s m p).memoryWf = s.memoryWf := by simp [withEth]
@[simp] theorem memoryWf_countFec (s : State) (m : Nat) (f : MacFrame) : (countFec s m f).memoryWf = s.memoryWf := by simp [countFec]
@[simp] theorem memoryWf_storeFrame (s : State) (m : Nat) (f : MacFrame) (queue : Nat) : (storeFrame s m f queue).memoryWf = s.memoryWf := by simp [storeFrame]

@[simp] theorem memoryWf_frameOutcome (s : State) (m : Nat) (f : MacFrame) : (frameOutcome s m f).memoryWf = s.memoryWf := by
  unfold frameOutcome
  dsimp only
  repeat' split
  all_goals simp

@[simp] theorem outcomeWf_execFrameReceived (m : Nat) (f : MacFrame) {s : State} (h : s.memoryWf = true) : OutcomeWf (execFrameReceived m f s) := by
  simp [execFrameReceived, h]

@[simp] theorem outcomeWf_execLinkUp (m : Nat) {s : State} (h : s.memoryWf = true) : OutcomeWf (execLinkUp m s) := by
  unfold execLinkUp
  dsimp only
  repeat' split
  all_goals simp [h]
  all_goals exact (memoryWf_of_reach ‹_›).trans h

@[simp] theorem memoryWf_loseLink (s : State) (m : Nat) : (loseLink s m).memoryWf = s.memoryWf := by simp [loseLink]
@[simp] theorem outcomeWf_execLinkDown (m : Nat) (receiving : Bool) {s : State} (h : s.memoryWf = true) : OutcomeWf (execLinkDown m receiving s) := by
  simp [execLinkDown, h]

@[simp] theorem outcomeWf_execLpiEnter (m : Nat) {s : State} (h : s.memoryWf = true) : OutcomeWf (execLpiEnter m s) := by
  unfold execLpiEnter
  repeat' split
  all_goals simp [h]
  all_goals exact (memoryWf_of_reach ‹_›).trans h

@[simp] theorem outcomeWf_execLpiWake (m : Nat) {s : State} (h : s.memoryWf = true) : OutcomeWf (execLpiWake m s) := by simp [execLpiWake, h]
@[simp] theorem outcomeWf_execPartnerLpiSignal (m : Nat) (on : Bool) {s : State} (h : s.memoryWf = true) : OutcomeWf (execPartnerLpiSignal m on s) := by
  simp [execPartnerLpiSignal, h]

/-! ### The PON ports -/

@[simp] theorem memoryWf_installPonKey (s : State) (o index : Nat) (broadcast : Bool) (key : Nat) :
    (installPonKey s o index broadcast key).memoryWf = s.memoryWf := by
  unfold installPonKey
  repeat' split
  all_goals simp

@[simp] theorem memoryWf_ponCrypt (s : State) (k : PonKey) (op iv : Nat) (source : List Byte) : (ponCrypt s k op iv source).1.memoryWf = s.memoryWf := by
  unfold ponCrypt
  dsimp only
  repeat' split
  all_goals simp

@[simp] theorem memoryWf_dropPonKeys (s : State) (o : Nat) : (dropPonKeys s o).memoryWf = s.memoryWf := by simp [dropPonKeys]
@[simp] theorem memoryWf_cutBursts (s : State) (o : Nat) : (cutBursts s o).memoryWf = s.memoryWf := by simp [cutBursts]
@[simp] theorem memoryWf_ponMove (s : State) (o st : Nat) (events : List Fld) : (ponMove s o st events).memoryWf = s.memoryWf := by simp [ponMove]
@[simp] theorem memoryWf_ponDiscard (s : State) (o : Nat) : (ponDiscard s o).memoryWf = s.memoryWf := by simp [ponDiscard]
@[simp] theorem memoryWf_ponAdvance (s : State) (o : Nat) : (ponAdvance s o).memoryWf = s.memoryWf := by simp [ponAdvance]
@[simp] theorem memoryWf_ponToO1 (s : State) (o : Nat) : (ponToO1 s o).memoryWf = s.memoryWf := by simp [ponToO1]
@[simp] theorem memoryWf_ponStop (s : State) (o : Nat) : (ponStop s o).memoryWf = s.memoryWf := by simp [ponStop]
@[simp] theorem memoryWf_ponUnstop (s : State) (o : Nat) : (ponUnstop s o).memoryWf = s.memoryWf := by simp [ponUnstop]

@[simp] theorem memoryWf_ponLoss (s : State) (o : Nat) : (ponLoss s o).memoryWf = s.memoryWf := by
  unfold ponLoss
  split <;> simp

@[simp] theorem memoryWf_ponRegain (s : State) (o : Nat) : (ponRegain s o).memoryWf = s.memoryWf := by simp [ponRegain]
@[simp] theorem memoryWf_loseSync (s : State) (p : Nat) : (loseSync s p).memoryWf = s.memoryWf := by simp [loseSync]

@[simp] theorem outcomeWf_execTo1Expiry (p : Nat) {s : State} (h : s.memoryWf = true) : OutcomeWf (execTo1Expiry p s) := by
  unfold execTo1Expiry
  dsimp only
  repeat' split
  all_goals simp [h]
  all_goals exact (memoryWf_of_reach ‹_›).trans h

@[simp] theorem outcomeWf_execTo2Expiry (p : Nat) {s : State} (h : s.memoryWf = true) : OutcomeWf (execTo2Expiry p s) := by
  unfold execTo2Expiry
  dsimp only
  repeat' split
  all_goals simp [h]
  all_goals exact (memoryWf_of_reach ‹_›).trans h

@[simp] theorem outcomeWf_execPsyncHunt (p position : Nat) (r : PsyncRead) {s : State} (h : s.memoryWf = true) : OutcomeWf (execPsyncHunt p position r s) := by
  simp [execPsyncHunt, h]

@[simp] theorem outcomeWf_execSyncLost (p : Nat) {s : State} (h : s.memoryWf = true) : OutcomeWf (execSyncLost p s) := by simp [execSyncLost, h]
@[simp] theorem memoryWf_closeBursts (s : State) (p : Nat) : (closeBursts s p).memoryWf = s.memoryWf := by simp [closeBursts]

@[simp] theorem memoryWf_readAlloc (p o t0 delay superframe : Nat) (r : BwReading) (a : BwAlloc) :
    (readAlloc p o t0 delay superframe r a).st.memoryWf = r.st.memoryWf := by
  unfold readAlloc
  dsimp only
  repeat' split
  all_goals simp

/-- Reading the allocations of a bandwidth map leaves the canonical form as it is. -/
@[simp] theorem memoryWf_foldl_readAlloc (p o t0 delay superframe : Nat) (m : List BwAlloc) (r : BwReading) :
    (m.foldl (readAlloc p o t0 delay superframe) r).st.memoryWf = r.st.memoryWf := by
  induction m generalizing r with
  | nil => rfl
  | cons a m ih => simp [ih]

@[simp] theorem memoryWf_readBwmap (s : State) (p stamp superframe : Nat) (m : List BwAlloc) : (readBwmap s p stamp superframe m).memoryWf = s.memoryWf := by
  unfold readBwmap
  dsimp only
  rw [memoryWf_withPon, memoryWf_foldl_readAlloc]
  repeat' split
  all_goals simp

@[simp] theorem memoryWf_sendPloam (s : State) (p o : Nat) : (sendPloam s p o).memoryWf = s.memoryWf := by
  unfold sendPloam
  split <;> simp

@[simp] theorem memoryWf_queuePloam (s : State) (o kind : Nat) (values : List Nat) : (queuePloam s o kind values).memoryWf = s.memoryWf := by simp [queuePloam]

@[simp] theorem outcomeWf_execBurstWindow (p : Nat) {s : State} (h : s.memoryWf = true) : OutcomeWf (execBurstWindow p s) := by
  unfold execBurstWindow
  repeat' split
  all_goals simp [h]
  all_goals exact (memoryWf_of_reach ‹_›).trans h

@[simp] theorem outcomeWf_execWatchdogTrip (p rise instant : Nat) {s : State} (h : s.memoryWf = true) : OutcomeWf (execWatchdogTrip p rise instant s) := by
  simp [execWatchdogTrip, h]

@[simp] theorem memoryWf_countXgem (s : State) (o index : Nat) : (countXgem s o index).memoryWf = s.memoryWf := by simp [countXgem]

@[simp] theorem memoryWf_ponFrame {s : State} (p o : Nat) (e : PonPortId) (b : List Byte) (stamp : Nat) (h : s.memoryWf = true) :
    (ponFrame s p o e b stamp).memoryWf = true := by
  simp [ponFrame, h]

@[simp] theorem memoryWf_assemble {s : State} (p o : Nat) (e : PonPortId) (f : XgemFrame) (h : s.memoryWf = true) : (assemble s p o e f).memoryWf = true := by
  unfold assemble
  dsimp only
  split <;> simp [h]

@[simp] theorem memoryWf_xgemFrame {s : State} (p o position : Nat) (f : XgemFrame) (h : s.memoryWf = true) : (xgemFrame s p o position f).memoryWf = true := by
  unfold xgemFrame
  dsimp only
  split
  · exact h
  · split
    · simp [h]
    · next k e _ =>
      split
      · split <;> simp [h]
      · split
        · simp [h]
        · next key _ =>
          have coded := memoryWf_ponCrypt (countXgem s o k) key 1 (Config.ponCounter false (ponPort s p).superframe position) f.payload
          split <;> simp_all

@[simp] theorem memoryWf_xgemFrames {s : State} (p o position : Nat) (l : List XgemFrame) (h : s.memoryWf = true) :
    (xgemFrames s p o position l).memoryWf = true := by
  induction l generalizing s position with
  | nil => exact h
  | cons f fs ih => simp [xgemFrames, ih, h]

@[simp] theorem memoryWf_checkPsync (s : State) (p : Nat) (hit : Bool) : (checkPsync s p hit).memoryWf = s.memoryWf := by simp [checkPsync]

@[simp] theorem memoryWf_switchUpKey (s : State) (o : Nat) (k : Option Nat) : (switchUpKey s o k).memoryWf = s.memoryWf := by
  unfold switchUpKey
  split <;> simp

@[simp] theorem outcomeWf_execPonDownstreamFrame (p : Nat) (f : DownFrame) {s : State} (h : s.memoryWf = true) : OutcomeWf (execPonDownstreamFrame p f s) := by
  simp [execPonDownstreamFrame, h]

/-- A PLOAM message keeps canonical memories if what it does when it is sound leaves the canonical form as it is. -/
@[simp] theorem outcomeWf_ploamIn {s : State} (p : Nat) (m : Ploam) {act : State → State} (acts : ∀ t, (act t).memoryWf = t.memoryWf)
    (h : s.memoryWf = true) : OutcomeWf (ploamIn s p m act) := by
  simp [ploamIn, acts, h]

@[simp] theorem outcomeWf_execBurstProfile (p : Nat) (m : Ploam) (f : BurstProfile) {s : State} (h : s.memoryWf = true) :
    OutcomeWf (execBurstProfile p m f s) := by
  simp [execBurstProfile, h]

@[simp] theorem memoryWf_sendRegistration (s : State) (o : Nat) : (sendRegistration s o).memoryWf = s.memoryWf := by simp [sendRegistration]
@[simp] theorem memoryWf_takeOnuId (s : State) (o id : Nat) : (takeOnuId s o id).memoryWf = s.memoryWf := by simp [takeOnuId]

@[simp] theorem outcomeWf_execAssignOnuId (p : Nat) (m : Ploam) (serial : List Byte) (id : Nat) {s : State} (h : s.memoryWf = true) :
    OutcomeWf (execAssignOnuId p m serial id s) := by
  simp [execAssignOnuId, h]

@[simp] theorem outcomeWf_execRangingTime (p : Nat) (m : Ploam) (relative : Bool) (delay : Int) {s : State} (h : s.memoryWf = true) :
    OutcomeWf (execRangingTime p m relative delay s) := by
  simp [execRangingTime, h]

@[simp] theorem outcomeWf_execRequestRegistration (p : Nat) (m : Ploam) {s : State} (h : s.memoryWf = true) : OutcomeWf (execRequestRegistration p m s) := by
  simp [execRequestRegistration, h]

@[simp] theorem outcomeWf_execAssignAllocId (p : Nat) (m : Ploam) (a : Nat) (release : Bool) {s : State} (h : s.memoryWf = true) :
    OutcomeWf (execAssignAllocId p m a release s) := by
  simp [execAssignAllocId, h]

@[simp] theorem outcomeWf_execKeyControl (p : Nat) (m : Ploam) (index : Nat) {s : State} (h : s.memoryWf = true) : OutcomeWf (execKeyControl p m index s) := by
  simp [execKeyControl, h]

@[simp] theorem outcomeWf_execDeactivateOnuId (p : Nat) (m : Ploam) {s : State} (h : s.memoryWf = true) : OutcomeWf (execDeactivateOnuId p m s) := by
  simp [execDeactivateOnuId, h]

@[simp] theorem outcomeWf_execDisableSerialNumber (p : Nat) (m : Ploam) (serial : Option (List Byte)) (disable : Bool) {s : State} (h : s.memoryWf = true) :
    OutcomeWf (execDisableSerialNumber p m serial disable s) := by
  simp [execDisableSerialNumber, h]

@[simp] theorem outcomeWf_execSleepAllow (p : Nat) (m : Ploam) {s : State} (h : s.memoryWf = true) : OutcomeWf (execSleepAllow p m s) := by
  simp [execSleepAllow, h]

@[simp] theorem outcomeWf_execPloamUnsupported (p : Nat) (m : Ploam) (kind : Nat) {s : State} (h : s.memoryWf = true) :
    OutcomeWf (execPloamUnsupported p m kind s) := by
  simp [execPloamUnsupported, h]

@[simp] theorem memoryWf_settleAllocs (s : State) (p o : Nat) : (settleAllocs s p o).memoryWf = s.memoryWf := by simp [settleAllocs]
@[simp] theorem memoryWf_ponStart (s : State) (p o c : Nat) (x : ClassPacket) : (ponStart s p o c x).memoryWf = s.memoryWf := by simp [ponStart]

@[simp] theorem memoryWf_sendXgem (s : State) (p o k : Nat) (e : PonPortId) (g : Grant) (position : Nat) (last : Bool) (payload : List Byte) :
    (sendXgem s p o k e g position last payload).memoryWf = s.memoryWf := by
  unfold sendXgem
  dsimp only
  split
  · simp
  · cases ponKey s o (rd s (Reg.PON.PON_STATUS_UP_KEY_INDEX.on o)) false with
    | none => simp
    | some key =>
      have coded := memoryWf_ponCrypt s key 0 (Config.ponCounter true g.superframe position) payload
      rw [Option.map_some]
      split
      · next h => rw [Option.some.inj h] at coded; simp [coded]
      · next h => rw [Option.some.inj h] at coded; simp [coded]
      · simp

@[simp] theorem memoryWf_sendRemainder (s : State) (p o a : Nat) (g : Grant) (total space : Nat) :
    (sendRemainder s p o a g total space).1.memoryWf = s.memoryWf := by
  unfold sendRemainder
  repeat' split
  all_goals simp

@[simp] theorem memoryWf_sendOmciQueue (s : State) (p o : Nat) (g : Grant) (total space : Nat) (l : List (List Byte)) :
    (sendOmciQueue s p o g total space l).1.memoryWf = s.memoryWf := by
  induction l generalizing s space with
  | nil => rfl
  | cons m ms ih =>
    unfold sendOmciQueue
    dsimp only
    repeat' split
    all_goals simp [ih]

@[simp] theorem memoryWf_fillGrant (s : State) (p o a : Nat) (g : Grant) (total space : Nat) (n : Nat) :
    (fillGrant s p o a g total space n).1.memoryWf = s.memoryWf := by
  induction n generalizing s space with
  | zero => rfl
  | succ n ih =>
    unfold fillGrant
    dsimp only
    repeat' split
    all_goals simp [ih]

@[simp] theorem outcomeWf_execPonGrant (p a : Nat) {s : State} (h : s.memoryWf = true) : OutcomeWf (execPonGrant p a s) := by
  unfold execPonGrant
  dsimp only
  repeat' split
  all_goals simp [h]

@[simp] theorem memoryWf_deliverOmci (s : State) (p source reason : Nat) (b : List Byte) (stamp : Nat) (counted : Bool) :
    (deliverOmci s p source reason b stamp counted).memoryWf = s.memoryWf := by
  unfold deliverOmci
  split
  · next h => simp [(optionKeepsMemory_deliver _ _ _ _ _ _ _).memoryWf_eq h]
  · simp

@[simp] theorem memoryWf_authenticate (s : State) (o : Nat) (m : List Byte) : (authenticate s o m).memoryWf = s.memoryWf := by simp [authenticate]

@[simp] theorem outcomeWf_execOmciMessage (p : Nat) (m : OmciMessage) {s : State} (h : s.memoryWf = true) : OutcomeWf (execOmciMessage p m s) := by
  unfold execOmciMessage
  repeat' split
  all_goals simp [h]

@[simp] theorem memoryWf_measureTod (s : State) (o stamp time : Nat) : (measureTod s o stamp time).memoryWf = s.memoryWf := by simp [measureTod]

@[simp] theorem outcomeWf_execTodMeasurement (p : Nat) {s : State} (h : s.memoryWf = true) : OutcomeWf (execTodMeasurement p s) := by
  unfold execTodMeasurement
  dsimp only
  split <;> simp [h]

@[simp] theorem memoryWf_showActive (s : State) : (showActive s).memoryWf = s.memoryWf := by simp [showActive]
@[simp] theorem memoryWf_swapRoles (s : State) (events : List Fld) : (swapRoles s events).memoryWf = s.memoryWf := by simp [swapRoles]

@[simp] theorem outcomeWf_execProtectSwitch {s : State} (h : s.memoryWf = true) : OutcomeWf (execProtectSwitch s) := by
  unfold execProtectSwitch
  dsimp only
  repeat' split
  all_goals simp [h]
  all_goals exact (memoryWf_of_reach ‹_›).trans h

@[simp] theorem memoryWf_enablePonEffect (s : State) (p disabled : Nat) (registration : List Byte) :
    (enablePonEffect s p disabled registration).memoryWf = s.memoryWf := by
  simp [enablePonEffect]

@[simp] theorem memoryWf_ponEntry (s : State) : (ponEntry s).memoryWf = s.memoryWf := by simp [ponEntry]
@[simp] theorem memoryWf_resetPon (s : State) (k : Nat) : (resetPon s k).memoryWf = s.memoryWf := by simp [resetPon]

/-! ### The release of the Band -/

@[simp] theorem memoryWf_countPacket (s : State) (l : Nat) (p : LegPacket) : (countPacket s l p).memoryWf = s.memoryWf := by simp [countPacket]

@[simp] theorem memoryWf_submitPacket (s : State) (i l : Nat) (x : Participant) (p : LegPacket) : (submitPacket s i l x p).memoryWf = s.memoryWf := by
  simp [submitPacket]

@[simp] theorem memoryWf_releaseParticipant (s : State) (tr i : Nat) (x : Participant) : (releaseParticipant s tr i x).memoryWf = s.memoryWf := by
  simp [releaseParticipant]

@[simp] theorem memoryWf_releaseTunnelNow (s : State) (tr t : Nat) (x : Tunnel) : (releaseTunnelNow s tr t x).memoryWf = s.memoryWf := by
  simp [releaseTunnelNow]

@[simp] theorem outcomeWf_execBandRelease {s : State} (h : s.memoryWf = true) : OutcomeWf (execBandRelease s) := by simp [execBandRelease, h]
@[simp] theorem memoryWf_bandLateness (s : State) : (bandLateness s).memoryWf = s.memoryWf := by simp [bandLateness]

/-! ### Admission -/

/-- The ruling on a directive has canonical memories, in each of its outcomes that has a state. -/
def RulingWf : Ruling → Prop
  | .done t _ _ => t.memoryWf = true
  | .silent t => t.memoryWf = true
  | _ => True

@[simp] theorem rulingWf_done (t : State) (detail result : Nat) : RulingWf (.done t detail result) ↔ t.memoryWf = true := Iff.rfl
@[simp] theorem rulingWf_silent (t : State) : RulingWf (.silent t) ↔ t.memoryWf = true := Iff.rfl
@[simp] theorem rulingWf_refuse (status detail : Nat) : RulingWf (.refuse status detail) := trivial
@[simp] theorem rulingWf_hold : RulingWf .hold := trivial
@[simp] theorem rulingWf_notAdmitted : RulingWf .notAdmitted := trivial

@[simp] theorem rulingWf_ite (c : Prop) [Decidable c] (a b : Ruling) :
    RulingWf (if c then a else b) ↔ if c then RulingWf a else RulingWf b := by
  split <;> rfl

@[simp] theorem memoryWf_commit (s : State) (xs : List NewCharges) : (commit s xs).memoryWf = s.memoryWf := by simp [commit]
@[simp] theorem memoryWf_rechargeWindow (s : State) : (rechargeWindow s).memoryWf = s.memoryWf := by simp [rechargeWindow]

/-! ### Rooms, participants and legs -/

@[simp] theorem rulingWf_admitRoomRule (index maxParticipants : Nat) {s : State} (h : s.memoryWf = true) :
    RulingWf (admitRoomRule index maxParticipants s) := by
  simp [admitRoomRule, h]

@[simp] theorem optionKeepsMemory_participantEntry (s : State) (index : Nat) (p : PartSpec) : OptionKeepsMemory s (participantEntry s index p) := by
  simp [participantEntry]

@[simp] theorem rulingWf_admitParticipantRule (index : Nat) (p : PartSpec) (a : AggSpec) {s : State} (h : s.memoryWf = true) :
    RulingWf (admitParticipantRule index p a s) := by
  unfold admitParticipantRule
  repeat' split
  all_goals simp
  all_goals exact ((optionKeepsMemory_participantEntry _ _ _).memoryWf_eq ‹_›).trans h

@[simp] theorem memoryWf_later (s : State) (d : Directive) (info : List Nat) : (later s d info).memoryWf = s.memoryWf := by simp [later]

@[simp] theorem rulingWf_setParticipantRule (index minRate maxRate weight : Nat) {s : State} (h : s.memoryWf = true) :
    RulingWf (setParticipantRule index minRate maxRate weight s) := by
  simp [setParticipantRule, h]

@[simp] theorem memoryWf_applySetParticipant (s : State) (index minRate maxRate weight : Nat) :
    (applySetParticipant s index minRate maxRate weight).memoryWf = s.memoryWf := by
  simp [applySetParticipant]

@[simp] theorem optionKeepsMemory_legEntriesOf (s : State) (l : Nat) (holder : Nat × Nat) (ssrcs : List Nat) :
    OptionKeepsMemory s (legEntriesOf s l holder ssrcs) := by
  induction ssrcs generalizing s with
  | nil => simp [legEntriesOf]
  | cons ssrc more ih =>
    intro t h
    obtain ⟨u, hu, ht⟩ := Option.bind_eq_some_iff.1 h
    exact ((ih u).memoryWf_eq ht).trans ((optionKeepsMemory_insertEntry _ _ _ _ _).memoryWf_eq hu)

/-- What `setLegRule` does with the entries of a leg leaves the canonical form as it is. -/
theorem optionKeepsMemory_changedEntries (s : State) (d : Directive) (info : List Nat) (l : Nat) (holder : Nat × Nat) (ssrcs : List Nat) (c : Prop)
    [Decidable c] : OptionKeepsMemory s (if c then legEntriesOf (later s d info) l holder ssrcs else some (later s d info)) := by
  split
  · exact (optionKeepsMemory_legEntriesOf _ _ _ _).congr (by simp)
  · simp

@[simp] theorem memoryWf_insertLeg (s : State) (l : Nat) (x : LegSpec) (area : Nat) (cs : List NewCharges)
    (formats : Option (Nat × Mix × List (Option MixFormat))) (cluster : Nat) : (insertLeg s l x area cs formats cluster).memoryWf = s.memoryWf := by
  unfold insertLeg
  split <;> simp

@[simp] theorem rulingWf_admitLegRule (l : Nat) (x : LegSpec) {s : State} (h : s.memoryWf = true) : RulingWf (admitLegRule l x s) := by
  unfold admitLegRule
  dsimp only
  repeat' split
  all_goals simp
  all_goals exact ((optionKeepsMemory_legEntriesOf _ _ _ _).memoryWf_eq ‹_›).trans h

@[simp] theorem rulingWf_setLegRule (l : Nat) (c : LegChange) {s : State} (h : s.memoryWf = true) : RulingWf (setLegRule l c s) := by
  unfold setLegRule
  dsimp only
  repeat' split
  all_goals simp
  all_goals exact ((optionKeepsMemory_changedEntries _ _ _ _ _ _ _).memoryWf_eq ‹_›).trans h

@[simp] theorem memoryWf_applySetLeg (s : State) (l : Nat) (c : LegChange) (area size : Nat) : (applySetLeg s l c area size).memoryWf = s.memoryWf := by
  unfold applySetLeg
  dsimp only
  repeat' split
  all_goals simp

@[simp] theorem rulingWf_requestKeyframeRule (sender : Nat) {s : State} (h : s.memoryWf = true) : RulingWf (requestKeyframeRule sender s) := by
  simp [requestKeyframeRule, h]

@[simp] theorem memoryWf_drainLegs (s : State) (ls : List Nat) : (drainLegs s ls).1.memoryWf = s.memoryWf := by simp [drainLegs]
@[simp] theorem memoryWf_drainParts (s : State) (ps : List Nat) : (drainParts s ps).1.memoryWf = s.memoryWf := by simp [drainParts]
@[simp] theorem memoryWf_drainMix (s : State) (r : Nat) : (drainMix s r).1.memoryWf = s.memoryWf := by simp [drainMix]
@[simp] theorem memoryWf_drainEncodeAll (s : State) (i : Nat) : (drainEncodeAll s i).1.memoryWf = s.memoryWf := by simp [drainEncodeAll]

/-- Draining each of a list leaves the canonical form as it is if draining one does. -/
@[simp] theorem memoryWf_drainEach (f : State → Nat → State × Nat) (h : ∀ s i, (f s i).1.memoryWf = s.memoryWf) (s : State) (l : List Nat) :
    (drainEach f s l).1.memoryWf = s.memoryWf := by
  induction l generalizing s with
  | nil => rfl
  | cons i is ih => simp [drainEach, ih, h]

@[simp] theorem memoryWf_drainDecodeAll (s : State) (i : Nat) : (drainDecodeAll s i).1.memoryWf = s.memoryWf := by simp [drainDecodeAll]

@[simp] theorem memoryWf_endLayout (s : State) (i : Nat) : (endLayout s i).memoryWf = s.memoryWf := by
  unfold endLayout
  split <;> simp

@[simp] theorem memoryWf_drainCompositeAll (s : State) (i : Nat) : (drainCompositeAll s i).1.memoryWf = s.memoryWf := by simp [drainCompositeAll]
@[simp] theorem memoryWf_drainFollowers (s : State) : (drainFollowers s).1.memoryWf = s.memoryWf := by simp [drainFollowers]
@[simp] theorem memoryWf_drainTunnel (s : State) (t : Nat) : (drainTunnel s t).1.memoryWf = s.memoryWf := by simp [drainTunnel]

@[simp] theorem memoryWf_drainRoom (s : State) (r : Nat) : (drainRoom s r).1.memoryWf = s.memoryWf := by
  unfold drainRoom
  dsimp only
  split <;> simp

@[simp] theorem memoryWf_releaseEntry (s : State) (kind i : Nat) : (releaseEntry s kind i).1.memoryWf = s.memoryWf := by
  unfold releaseEntry
  split <;> simp

@[simp] theorem rulingWf_releaseRule (kind i : Nat) {s : State} (h : s.memoryWf = true) : RulingWf (releaseRule kind i s) := by simp [releaseRule, h]

@[simp] theorem memoryWf_activateLeg (s : State) (l : Nat) : (activateLeg s l).memoryWf = s.memoryWf := by
  unfold activateLeg
  split <;> simp

@[simp] theorem memoryWf_activateLegs (s : State) : (activateLegs s).memoryWf = s.memoryWf := by simp [activateLegs]
@[simp] theorem memoryWf_freeLeg (s : State) (l : Nat) : (freeLeg s l).memoryWf = s.memoryWf := by simp [freeLeg]
@[simp] theorem memoryWf_freeParticipant (s : State) (p : Nat) : (freeParticipant s p).memoryWf = s.memoryWf := by simp [freeParticipant]

@[simp] theorem memoryWf_endLegs (s : State) : (endLegs s).memoryWf = s.memoryWf := by
  unfold endLegs
  dsimp only
  rw [memoryWf_endFormats, memoryWf_mk, memoryWf_fold]
  refine (memoryWf_foldl _ _ (by simp) _).trans ((memoryWf_foldl _ _ (fun s p => ?_) _).trans (memoryWf_foldl _ _ (by simp) _))
  split <;> simp

@[simp] theorem memoryWf_endMixes (s : State) : (endMixes s).memoryWf = s.memoryWf := by simp [endMixes]

/-! ### Media and tunnels -/

@[simp] theorem rulingWf_admitDecodeRule (i : Nat) (d : DecodeSpec) {s : State} (h : s.memoryWf = true) : RulingWf (admitDecodeRule i d s) := by
  unfold admitDecodeRule
  dsimp only
  repeat' split
  all_goals simp [h]

@[simp] theorem memoryWf_endCopy {s : State} (c : StatCopy) (allowed : Bool) (h : s.memoryWf = true) : (endCopy s c allowed).memoryWf = true := by
  simp [endCopy, h]

@[simp] theorem memoryWf_stepCopy {s : State} (c : StatCopy) (h : s.memoryWf = true) : (stepCopy s c).memoryWf = true := by simp [stepCopy, h]
@[simp] theorem memoryWf_stepCopies {s : State} (h : s.memoryWf = true) : (stepCopies s).memoryWf = true := by simp [stepCopies, h]

@[simp] theorem rulingWf_readStatisticsRule (w : Deferred) (kind i what dest : Nat) {s : State} (h : s.memoryWf = true) :
    RulingWf (readStatisticsRule w kind i what dest s) := by
  unfold readStatisticsRule
  repeat' split
  all_goals simp [h]

@[simp] theorem rulingWf_admitCompositeRule (i : Nat) (c : CompositeSpec) {s : State} (h : s.memoryWf = true) : RulingWf (admitCompositeRule i c s) := by
  unfold admitCompositeRule
  dsimp only
  repeat' split
  all_goals simp [h]

@[simp] theorem rulingWf_setLayoutRule (w : Deferred) (i : Nat) (l : DisplayList) (length : Nat) {s : State} (h : s.memoryWf = true) :
    RulingWf (setLayoutRule w i l length s) := by
  unfold setLayoutRule
  dsimp only
  repeat' split
  all_goals simp [h]

@[simp] theorem rulingWf_admitEncodeRule (i : Nat) (e : EncodeSpec) {s : State} (h : s.memoryWf = true) : RulingWf (admitEncodeRule i e s) := by
  unfold admitEncodeRule
  dsimp only
  repeat' split
  all_goals simp [h]

@[simp] theorem rulingWf_setEncodeRule (i : Nat) (r : EncodeRate) {s : State} (h : s.memoryWf = true) : RulingWf (setEncodeRule i r s) := by
  unfold setEncodeRule
  split <;> simp [h]

@[simp] theorem rulingWf_admitMixRule (r : Nat) (m : MixSpec) {s : State} (h : s.memoryWf = true) : RulingWf (admitMixRule r m s) := by
  unfold admitMixRule
  dsimp only
  repeat' split
  all_goals simp [h]

@[simp] theorem rulingWf_setRouteRule (l mode : Nat) (gain : Int) {s : State} (h : s.memoryWf = true) : RulingWf (setRouteRule l mode gain s) := by
  unfold setRouteRule
  split <;> simp [h]

@[simp] theorem rulingWf_readLevelsRule (room dest : Nat) {s : State} (h : s.memoryWf = true) : RulingWf (readLevelsRule room dest s) := by
  simp [readLevelsRule, h]

@[simp] theorem rulingWf_enableTalkerExportRule (room : Nat) (record : Option Nat) {s : State} (h : s.memoryWf = true) :
    RulingWf (enableTalkerExportRule room record s) := by
  unfold enableTalkerExportRule
  split <;> simp [h]

@[simp] theorem memoryWf_applyTalkerExport (s : State) (room : Nat) (record : Option Nat) : (applyTalkerExport s room record).memoryWf = s.memoryWf := by
  simp [applyTalkerExport]

@[simp] theorem memoryWf_endExports (s : State) : (endExports s).memoryWf = s.memoryWf := by simp [endExports]

@[simp] theorem optionKeepsMemory_tunnelEntry (s : State) (i : Nat) (t : TunnelSpec) : OptionKeepsMemory s (tunnelEntry s i t) := by
  unfold tunnelEntry
  split <;> simp

@[simp] theorem rulingWf_admitTunnelRule (i : Nat) (t : TunnelSpec) {s : State} (h : s.memoryWf = true) : RulingWf (admitTunnelRule i t s) := by
  unfold admitTunnelRule
  dsimp only
  repeat' split
  all_goals simp
  all_goals exact ((optionKeepsMemory_tunnelEntry _ _ _).memoryWf_eq ‹_›).trans h

@[simp] theorem rulingWf_switchEpochRule (t epoch : Nat) {s : State} (h : s.memoryWf = true) : RulingWf (switchEpochRule t epoch s) := by
  unfold switchEpochRule
  split <;> simp [h]

@[simp] theorem memoryWf_switchEpochs (s : State) : (switchEpochs s).memoryWf = s.memoryWf := by simp [switchEpochs]

/-! ### The other rules of directives -/

@[simp] theorem rulingWf_atBoundary (t : State) (d : Directive) (info : List Nat) (result : Nat) :
    RulingWf (.atBoundary t d info result) ↔ t.memoryWf = true := by
  simp [Ruling.atBoundary]

@[simp] theorem rulingWf_startThreadRule (entry cluster arg : Nat) {s : State} (h : s.memoryWf = true) : RulingWf (startThreadRule entry cluster arg s) := by
  unfold startThreadRule
  dsimp only
  repeat' split
  all_goals simp [h]

@[simp] theorem rulingWf_stopThreadRule (t : Nat) {s : State} (h : s.memoryWf = true) : RulingWf (stopThreadRule t s) := by simp [stopThreadRule, h]
@[simp] theorem memoryWf_countToken (s : State) (kind : Nat) : (countToken s kind).memoryWf = s.memoryWf := by simp [countToken]

@[simp] theorem memoryWf_setCounter (s : State) (usage target counter : Nat) : (setCounter s usage target counter).memoryWf = s.memoryWf := by
  simp [setCounter]

@[simp] theorem memoryWf_awaitReplacement (s : State) (entry : Nat) (k : KeyEntry) : (awaitReplacement s entry k).memoryWf = s.memoryWf := by
  simp [awaitReplacement]

@[simp] theorem rulingWf_tokenAccepted (s : State) (t : KeyToken) (entry : Nat) : RulingWf (tokenAccepted s t entry) ↔ s.memoryWf = true := by
  simp [tokenAccepted]

/-- A key installed by `put` keeps canonical memories if `put` does. -/
@[simp] theorem rulingWf_installKey (s : State) (t : KeyToken) {put : Nat → State} (h : ∀ e, (put e).memoryWf = true) : RulingWf (installKey s t put) := by
  unfold installKey
  split <;> simp [h]

@[simp] theorem rulingWf_deliverKeyTokenRule (w : Deferred) (token : List Byte) (length : Nat) {s : State} (h : s.memoryWf = true) :
    RulingWf (deliverKeyTokenRule w token length s) := by
  unfold deliverKeyTokenRule
  dsimp only
  repeat' split
  all_goals simp [h]

@[simp] theorem rulingWf_sendTunnelMessageRule (t label : Nat) (data : List Byte) {s : State} (h : s.memoryWf = true) :
    RulingWf (sendTunnelMessageRule t label data s) := by
  simp [sendTunnelMessageRule, h]

@[simp] theorem rulingWf_sendFrameRule (e c : Nat) (frame : List Byte) {s : State} (h : s.memoryWf = true) : RulingWf (sendFrameRule e c frame s) := by
  simp [sendFrameRule, h]

@[simp] theorem rulingWf_setShaperRule (e c rate burst : Nat) {s : State} (h : s.memoryWf = true) : RulingWf (setShaperRule e c rate burst s) := by
  simp [setShaperRule, h]

@[simp] theorem rulingWf_setPortLpiRule (m tw : Nat) {s : State} (h : s.memoryWf = true) : RulingWf (setPortLpiRule m tw s) := by simp [setPortLpiRule, h]

@[simp] theorem rulingWf_enablePonRule (p disabled : Nat) (registration : List Byte) {s : State} (h : s.memoryWf = true) :
    RulingWf (enablePonRule p disabled registration s) := by
  simp [enablePonRule, h]

@[simp] theorem rulingWf_setPonPortRule (p index portId direction queue flags : Nat) {s : State} (h : s.memoryWf = true) :
    RulingWf (setPonPortRule p index portId direction queue flags s) := by
  simp [setPonPortRule, h]

@[simp] theorem rulingWf_setPonMapRule (p c allocId : Nat) {s : State} (h : s.memoryWf = true) : RulingWf (setPonMapRule p c allocId s) := by
  simp [setPonMapRule, h]

@[simp] theorem rulingWf_sendOmciRule (p : Nat) (message : List Byte) {s : State} (h : s.memoryWf = true) : RulingWf (sendOmciRule p message s) := by
  simp [sendOmciRule, h]

@[simp] theorem rulingWf_ponTimeOfDayRule (p superframe seconds nanoseconds : Nat) {s : State} (h : s.memoryWf = true) :
    RulingWf (ponTimeOfDayRule p superframe seconds nanoseconds s) := by
  unfold ponTimeOfDayRule
  repeat' split
  all_goals simp [h]

@[simp] theorem rulingWf_switchPonRule {s : State} (h : s.memoryWf = true) : RulingWf (switchPonRule s) := by simp [switchPonRule, h]

@[simp] theorem rulingWf_stepRule (source : Nat) {s : State} (h : s.memoryWf = true) : RulingWf (stepRule source s) := by
  unfold stepRule
  dsimp only
  split <;> simp [h]

@[simp] theorem rulingWf_setSecondsRule (seconds : Nat) {s : State} (h : s.memoryWf = true) : RulingWf (setSecondsRule seconds s) := by simp [setSecondsRule, h]

@[simp] theorem rulingWf_setMemoryRateRule (w : Deferred) (point : Nat) {s : State} (h : s.memoryWf = true) : RulingWf (setMemoryRateRule w point s) := by
  simp [setMemoryRateRule, h]

@[simp] theorem rulingWf_archivePagesRule (w : Deferred) (first count keyEntry dest : Nat) {s : State} (h : s.memoryWf = true) :
    RulingWf (archivePagesRule w first count keyEntry dest s) := by
  unfold archivePagesRule
  split <;> simp [h]

@[simp] theorem rulingWf_attestRule (w : Deferred) (nonce dest : Nat) {s : State} (h : s.memoryWf = true) : RulingWf (attestRule w nonce dest s) := by
  simp [attestRule, defer, h]

@[simp] theorem memoryWf_verify (s : State) (why : VerifyPurpose) (i : Image) : (verify s why i).memoryWf = s.memoryWf := by simp [verify]

@[simp] theorem rulingWf_pushImageRule (w : Deferred) (image : List Byte) {s : State} (h : s.memoryWf = true) : RulingWf (pushImageRule w image s) := by
  simp [pushImageRule, h]

@[simp] theorem rulingWf_flashProgramRule (w : Deferred) (image : List Byte) (slot : Nat) {s : State} (h : s.memoryWf = true) :
    RulingWf (flashProgramRule w image slot s) := by
  simp [flashProgramRule, h]

@[simp] theorem rulingWf_snapshotCountersRule (w : Deferred) (blocks dest clear : Nat) {s : State} (h : s.memoryWf = true) :
    RulingWf (snapshotCountersRule w blocks dest clear s) := by
  simp [snapshotCountersRule, h]

@[simp] theorem rulingWf_engineResetRule (kind index : Nat) {s : State} (h : s.memoryWf = true) : RulingWf (engineResetRule kind index s) := by
  simp [engineResetRule, h]

@[simp] theorem rulingWf_warmResetRule (w : Deferred) {s : State} (h : s.memoryWf = true) : RulingWf (warmResetRule w s) := by simp [warmResetRule, h]
@[simp] theorem rulingWf_zeroizeRule {s : State} (h : s.memoryWf = true) : RulingWf (zeroizeRule s) := by simp [zeroizeRule, h]
@[simp] theorem rulingWf_retireRule {s : State} (h : s.memoryWf = true) : RulingWf (retireRule s) := by simp [retireRule, h]

/-! ### Recovery -/

@[simp] theorem memoryWf_resetPortLogic (s : State) (k : Nat) : (resetPortLogic s k).memoryWf = s.memoryWf := by simp [resetPortLogic]

@[simp] theorem memoryWf_resetWork {s : State} (kind index : Nat) (h : s.memoryWf = true) : (resetWork s kind index).memoryWf = true := by
  unfold resetWork
  split <;> simp [h]

@[simp] theorem memoryWf_resetEngine {s : State} (kind index : Nat) (h : s.memoryWf = true) : (resetEngine s kind index).memoryWf = true := by
  simp [resetEngine, h]

@[simp] theorem memoryWf_beginReset {s : State} (kind index : Nat) (h : s.memoryWf = true) : (beginReset s kind index).memoryWf = true := by
  simp [beginReset, h]

@[simp] theorem memoryWf_countLaneError (s : State) (kind index : Nat) : (countLaneError s kind index).memoryWf = s.memoryWf := by simp [countLaneError]

@[simp] theorem outcomeWf_execEngineFailure (kind index : Nat) (laneMemory : Bool) {s : State} (h : s.memoryWf = true) :
    OutcomeWf (execEngineFailure kind index laneMemory s) := by
  simp [execEngineFailure, h]

@[simp] theorem outcomeWf_execEngineResetDone (kind index : Nat) {s : State} (h : s.memoryWf = true) : OutcomeWf (execEngineResetDone kind index s) := by
  simp [execEngineResetDone, h]

@[simp] theorem memoryWf_moveCharges (s : State) (kind i code old new_ : Nat) : (moveCharges s kind i code old new_).memoryWf = s.memoryWf := by
  simp [moveCharges]

@[simp] theorem memoryWf_releaseWork (s : State) (kind index table i : Nat) : (releaseWork s kind index table i).memoryWf = s.memoryWf := by simp [releaseWork]

/-- Work placed again leaves the canonical form as it is if moving it does. -/
@[simp] theorem memoryWf_placeAgain (s : State) (kind index table code i : Nat) (unit : Option Nat) (move : State → Nat → State)
    (h : ∀ t u, (move t u).memoryWf = t.memoryWf) : (placeAgain s kind index table code i unit move).memoryWf = s.memoryWf := by
  unfold placeAgain
  split <;> simp [h]

@[simp] theorem memoryWf_replaceDecodes (s : State) (index : Nat) : (replaceDecodes s index).memoryWf = s.memoryWf := by simp [replaceDecodes]
@[simp] theorem memoryWf_replaceEncodes (s : State) (index : Nat) : (replaceEncodes s index).memoryWf = s.memoryWf := by simp [replaceEncodes]
@[simp] theorem memoryWf_replaceComposites (s : State) (index : Nat) : (replaceComposites s index).memoryWf = s.memoryWf := by simp [replaceComposites]
@[simp] theorem memoryWf_replaceAudio (s : State) (index : Nat) : (replaceAudio s index).memoryWf = s.memoryWf := by simp [replaceAudio]

@[simp] theorem memoryWf_endThreads {s : State} (index : Nat) (h : s.memoryWf = true) : (endThreads s index).memoryWf = true := by
  refine memoryWf_foldl_of _ _ (fun s k => memoryWf_withLane_of _ s.2 wf_nil) ?_
  simp [h]

@[simp] theorem memoryWf_unpinTunnel (s : State) (index t : Nat) : (unpinTunnel s index t).memoryWf = s.memoryWf := by simp [unpinTunnel]

@[simp] theorem memoryWf_movePinnedTunnels (s : State) (index : Nat) : (movePinnedTunnels s index).memoryWf = s.memoryWf := by
  unfold movePinnedTunnels
  dsimp only
  apply memoryWf_foldl_fst
  intro r t
  split <;> simp

@[simp] theorem memoryWf_movePins (s : State) (index : Nat) : (movePins s index).memoryWf = s.memoryWf := by simp [movePins]
@[simp] theorem memoryWf_replaceCipher (s : State) (index : Nat) : (replaceCipher s index).memoryWf = s.memoryWf := by simp [replaceCipher]
@[simp] theorem memoryWf_respread (s : State) (kind index : Nat) : (respread s kind index).memoryWf = s.memoryWf := by simp [respread]
@[simp] theorem memoryWf_replaceBand (s : State) (index : Nat) : (replaceBand s index).memoryWf = s.memoryWf := by simp [replaceBand]

@[simp] theorem memoryWf_replaceWork {s : State} (kind index : Nat) (h : s.memoryWf = true) : (replaceWork s kind index).memoryWf = true := by
  unfold replaceWork
  split <;> simp [h]

@[simp] theorem memoryWf_retireEngine {s : State} (kind index : Nat) (h : s.memoryWf = true) : (retireEngine s kind index).memoryWf = true := by
  unfold retireEngine
  split <;> simp [h]

@[simp] theorem memoryWf_performRetirements {s : State} (h : s.memoryWf = true) : (performRetirements s).memoryWf = true := by
  have replace {s : State} (h : s.memoryWf = true) (l : List (Nat × Nat)) : (l.foldl (fun s e => replaceWork s e.1 e.2) s).memoryWf = true :=
    memoryWf_foldl_of l _ (fun s e => memoryWf_replaceWork e.1 e.2 s.2) h
  have retire : ((retirementsDue s).foldl (fun (acc : State × List (Nat × Nat)) e =>
      if canRetire acc.1 e.1 e.2 then (retireEngine acc.1 e.1 e.2, acc.2 ++ [e]) else acc) (s, [])).1.memoryWf = true :=
    memoryWf_foldl_fst_of (retirementsDue s) _ (fun s l e => by dsimp only; split <;> simp) h
  simp [performRetirements, replace retire]

@[simp] theorem memoryWf_autoReset {s : State} (code : Nat) (h : s.memoryWf = true) : (autoReset s code).memoryWf = true := by simp [autoReset, h]
@[simp] theorem memoryWf_fenceAll (s : State) : (fenceAll s).memoryWf = s.memoryWf := by simp [fenceAll]

@[simp] theorem memoryWf_deviceFaults {s : State} (h : s.memoryWf = true) : (deviceFaults s).memoryWf = true := by
  unfold deviceFaults
  split <;> simp [h]

/-! ### Copies of tables -/

@[simp] theorem memoryWf_endQuery (s : State) (g : Nat × Nat) : (endQuery s g).memoryWf = s.memoryWf := by
  unfold endQuery
  split <;> simp

@[simp] theorem memoryWf_endQueries (s : State) : (endQueries s).memoryWf = s.memoryWf := by simp [endQueries]
@[simp] theorem memoryWf_startQuery (s : State) (q v : Nat) : (startQuery s q v).memoryWf = s.memoryWf := by simp [startQuery]

/-! ### The host's registers -/

@[simp] theorem memoryWf_writeMsix (s : State) (k v : Nat) : (writeMsix s k v).memoryWf = s.memoryWf := by simp [writeMsix]
@[simp] theorem memoryWf_clearRead (s : State) (off : Nat) : (clearRead s off).memoryWf = s.memoryWf := by simp [clearRead]
@[simp] theorem memoryWf_restartModeration (s : State) (k : Nat) : (restartModeration s k).memoryWf = s.memoryWf := by simp [restartModeration]
@[simp] theorem memoryWf_ringControl (s : State) (k v : Nat) : (ringControl s k v).memoryWf = s.memoryWf := by simp [ringControl]
@[simp] theorem memoryWf_ringIndex (s : State) (k v : Nat) : (ringIndex s k v).memoryWf = s.memoryWf := by simp [ringIndex]

@[simp] theorem memoryWf_putFields (s : State) (fs : List Fld) (v : Nat) : (putFields s fs v).memoryWf = s.memoryWf := by
  unfold putFields
  apply memoryWf_foldl
  intro s x
  split <;> simp

@[simp] theorem memoryWf_gpioDrives (was s : State) : (gpioDrives was s).memoryWf = s.memoryWf := by simp [gpioDrives]

@[simp] theorem memoryWf_writeEffect (s : State) (off v : Nat) (fs : List Fld) : (writeEffect s off v fs).memoryWf = s.memoryWf := by
  unfold writeEffect
  repeat' split
  all_goals simp

@[simp] theorem memoryWf_regWrite (s : State) (off v : Nat) : (regWrite s off v).memoryWf = s.memoryWf := by simp [regWrite]
@[simp] theorem memoryWf_narrowWrite (s : State) (off : Nat) : (narrowWrite s off).memoryWf = s.memoryWf := by simp [narrowWrite]
@[simp] theorem memoryWf_hostWrite (s : State) (off width v : Nat) : (hostWrite s off width v).memoryWf = s.memoryWf := by simp [hostWrite]

@[simp] theorem outcomeWf_execRegisterWrite (off width value : Nat) {s : State} (h : s.memoryWf = true) : OutcomeWf (execRegisterWrite off width value s) := by
  simp [execRegisterWrite, h]

@[simp] theorem outcomeWf_execRegisterReadClear (off width : Nat) {s : State} (h : s.memoryWf = true) : OutcomeWf (execRegisterReadClear off width s) := by
  simp [execRegisterReadClear, h]

@[simp] theorem outcomeWf_execRingEnable (ring value : Nat) {s : State} (h : s.memoryWf = true) : OutcomeWf (execRingEnable ring value s) := by
  simp [execRingEnable, h]

@[simp] theorem outcomeWf_execRingIndexWrite (ring value : Nat) {s : State} (h : s.memoryWf = true) : OutcomeWf (execRingIndexWrite ring value s) := by
  simp [execRingIndexWrite, h]

@[simp] theorem outcomeWf_goQuery {s : State} (off index bits rest : Nat) (h : s.memoryWf = true) : OutcomeWf (goQuery s off index bits rest) := by
  simp [goQuery, h]

@[simp] theorem outcomeWf_execLegsQuery (kind index : Nat) {s : State} (h : s.memoryWf = true) : OutcomeWf (execLegsQuery kind index s) := by
  simp [execLegsQuery, h]

@[simp] theorem outcomeWf_execDecodeQuery (kind index : Nat) {s : State} (h : s.memoryWf = true) : OutcomeWf (execDecodeQuery kind index s) := by
  simp [execDecodeQuery, h]

@[simp] theorem outcomeWf_execVeilQuery (kind index : Nat) {s : State} (h : s.memoryWf = true) : OutcomeWf (execVeilQuery kind index s) := by
  simp [execVeilQuery, h]

@[simp] theorem outcomeWf_execEncodeQuery (index : Nat) {s : State} (h : s.memoryWf = true) : OutcomeWf (execEncodeQuery index s) := by
  simp [execEncodeQuery, h]

@[simp] theorem outcomeWf_execAudioQuery (kind index : Nat) {s : State} (h : s.memoryWf = true) : OutcomeWf (execAudioQuery kind index s) := by
  simp [execAudioQuery, h]

@[simp] theorem outcomeWf_execMittenQuery (index : Nat) {s : State} (h : s.memoryWf = true) : OutcomeWf (execMittenQuery index s) := by
  simp [execMittenQuery, h]

@[simp] theorem outcomeWf_execIngressQuery (kind index : Nat) {s : State} (h : s.memoryWf = true) : OutcomeWf (execIngressQuery kind index s) := by
  simp [execIngressQuery, h]

@[simp] theorem outcomeWf_execCipherQuery (index : Nat) {s : State} (h : s.memoryWf = true) : OutcomeWf (execCipherQuery index s) := by
  simp [execCipherQuery, h]

@[simp] theorem outcomeWf_execGauntletQuery (index : Nat) {s : State} (h : s.memoryWf = true) : OutcomeWf (execGauntletQuery index s) := by
  simp [execGauntletQuery, h]

@[simp] theorem outcomeWf_execBandQuery (kind index : Nat) {s : State} (h : s.memoryWf = true) : OutcomeWf (execBandQuery kind index s) := by
  simp [execBandQuery, h]

@[simp] theorem outcomeWf_execPonQuery (port index : Nat) {s : State} (h : s.memoryWf = true) : OutcomeWf (execPonQuery port index s) := by
  simp [execPonQuery, h]

@[simp] theorem outcomeWf_execNearmemQuery (stack kind index : Nat) {s : State} (h : s.memoryWf = true) : OutcomeWf (execNearmemQuery stack kind index s) := by
  simp [execNearmemQuery, h]

@[simp] theorem outcomeWf_execHeartbeat {s : State} (h : s.memoryWf = true) : OutcomeWf (execHeartbeat s) := by simp [execHeartbeat, h]

@[simp] theorem outcomeWf_execModTimeExpiry (ring : Nat) {s : State} (h : s.memoryWf = true) : OutcomeWf (execModTimeExpiry ring s) := by
  unfold execModTimeExpiry
  repeat' split
  all_goals simp [h]
  all_goals exact (memoryWf_of_reach ‹_›).trans h

@[simp] theorem memoryWf_clearSpans (s : State) (spans : List Nat) : (clearSpans s spans).memoryWf = s.memoryWf := by simp [clearSpans]

@[simp] theorem memoryWf_takeSnapshot {s : State} (d : Deferred) (blocks dest clear : Nat) (h : s.memoryWf = true) :
    (takeSnapshot s d blocks dest clear).memoryWf = true := by
  simp [takeSnapshot, h]

/-! ### Images, generations and the Kuthastan core -/

@[simp] theorem memoryWf_showReason (s : State) (r : Nat) : (showReason s r).memoryWf = s.memoryWf := by simp [showReason]
@[simp] theorem memoryWf_fuseAnchor (s : State) (i : Image) : (fuseAnchor s i).memoryWf = s.memoryWf := by simp [fuseAnchor]
@[simp] theorem memoryWf_acceptImage (s : State) (i : Image) (source : Nat) : (acceptImage s i source).memoryWf = s.memoryWf := by simp [acceptImage]
@[simp] theorem memoryWf_setFlash (s : State) (slot : Nat) (content : List Byte) : (setFlash s slot content).memoryWf = s.memoryWf := by simp [setFlash]

@[simp] theorem memoryWf_slotVerified (s : State) (slot : Nat) (i : Image) (r : Nat) : (slotVerified s slot i r).memoryWf = s.memoryWf := by
  simp [slotVerified]

@[simp] theorem outcomeWf_execFlashSlotVerify (slot : Nat) (content : List Byte) {s : State} (h : s.memoryWf = true) :
    OutcomeWf (execFlashSlotVerify slot content s) := by
  simp [execFlashSlotVerify, h]

@[simp] theorem memoryWf_writeCode (s : State) : (writeCode s).memoryWf = s.memoryWf := by
  unfold writeCode
  split <;> simp

@[simp] theorem memoryWf_pushedVerified {s : State} (busy : Bool) (i : Image) (h : s.memoryWf = true) : (pushedVerified s busy i).memoryWf = true := by
  unfold pushedVerified
  dsimp only
  repeat' split
  all_goals simp [h]

@[simp] theorem memoryWf_flashVerified (s : State) (slot : Nat) (bytes : List Byte) (i : Image) : (flashVerified s slot bytes i).memoryWf = s.memoryWf := by
  unfold flashVerified
  dsimp only
  split <;> simp

@[simp] theorem outcomeWf_execImageVerified {s : State} (h : s.memoryWf = true) : OutcomeWf (execImageVerified s) := by
  unfold execImageVerified
  repeat' split
  all_goals simp [h]

@[simp] theorem memoryWf_writeFlash (s : State) : (writeFlash s).memoryWf = s.memoryWf := by
  unfold writeFlash
  split <;> simp

@[simp] theorem outcomeWf_execFlashProgramWritten {s : State} (h : s.memoryWf = true) : OutcomeWf (execFlashProgramWritten s) := by
  unfold execFlashProgramWritten
  split <;> simp [h]

@[simp] theorem memoryWf_retireOld (s : State) : (retireOld s).memoryWf = s.memoryWf := by simp [retireOld]
@[simp] theorem memoryWf_dropPackets (s : State) (g : Nat) : (dropPackets s g).memoryWf = s.memoryWf := by simp [dropPackets]
@[simp] theorem memoryWf_cancelJobs {s : State} (g : Nat) (h : s.memoryWf = true) : (cancelJobs s g).memoryWf = true := by simp [cancelJobs, h]
@[simp] theorem memoryWf_forceOld {s : State} (g : Nat) (h : s.memoryWf = true) : (forceOld s g).memoryWf = true := by simp [forceOld, h]
@[simp] theorem memoryWf_adoptPartial (s : State) (i : Image) : (adoptPartial s i).memoryWf = s.memoryWf := by simp [adoptPartial]

@[simp] theorem memoryWf_retireStep {s : State} (h : s.memoryWf = true) : (retireStep s).memoryWf = true := by
  unfold retireStep
  split <;> simp [h]

@[simp] theorem memoryWf_stepGeneration {s : State} (h : s.memoryWf = true) : (stepGeneration s).memoryWf = true := by
  unfold stepGeneration
  dsimp only
  split <;> simp [h]

@[simp] theorem outcomeWf_execDrbgReseed {s : State} (h : s.memoryWf = true) : OutcomeWf (execDrbgReseed s) := by
  unfold execDrbgReseed
  split
  · simp [h]
  · split
    · simp [h]
    · split
      · simp [h]
      · split
        · simp [h]
        · next reached => simp [memoryWf_of_reach reached, h]

@[simp] theorem outcomeWf_execEntropyHealthFail {s : State} (h : s.memoryWf = true) : OutcomeWf (execEntropyHealthFail s) := by simp [execEntropyHealthFail, h]
@[simp] theorem outcomeWf_execEntropyStartupPassed {s : State} (h : s.memoryWf = true) : OutcomeWf (execEntropyStartupPassed s) := by
  simp [execEntropyStartupPassed, h]

@[simp] theorem outcomeWf_execAttestationReportSigned {s : State} (h : s.memoryWf = true) : OutcomeWf (execAttestationReportSigned s) := by
  unfold execAttestationReportSigned
  dsimp only
  repeat' split
  all_goals simp [h]

/-! ### The boot sequence -/

@[simp] theorem memoryWf_bootWaits (s : State) (w : BootWaitFor) : (bootWaits s w).memoryWf = s.memoryWf := by simp [bootWaits]
@[simp] theorem memoryWf_bootNext (s : State) : (bootNext s).memoryWf = s.memoryWf := by simp [bootNext]
@[simp] theorem memoryWf_bootFails (s : State) : (bootFails s).memoryWf = s.memoryWf := by simp [bootFails]
@[simp] theorem memoryWf_putBit (s : State) (f : Fld) (n v : Nat) : (putBit s f n v).memoryWf = s.memoryWf := by simp [putBit]
@[simp] theorem memoryWf_gpioSet (s : State) (pin value : Nat) : (gpioSet s pin value).memoryWf = s.memoryWf := by simp [gpioSet]
@[simp] theorem memoryWf_bootBegin (s : State) (b : BootStep) : (bootBegin s b).memoryWf = s.memoryWf := by simp [bootBegin]
@[simp] theorem memoryWf_bootEnds (s : State) : (bootEnds s).memoryWf = s.memoryWf := by simp [bootEnds]

@[simp] theorem outcomeWf_execBootStep {s : State} (h : s.memoryWf = true) : OutcomeWf (execBootStep s) := by
  unfold execBootStep
  repeat' split
  all_goals simp [h]

@[simp] theorem outcomeWf_execBootWait {s : State} (h : s.memoryWf = true) : OutcomeWf (execBootWait s) := by
  unfold execBootWait
  split <;> simp [h]

@[simp] theorem outcomeWf_execI2cWrite (ack : Bool) {s : State} (h : s.memoryWf = true) : OutcomeWf (execI2cWrite ack s) := by simp [execI2cWrite, h]

@[simp] theorem memoryWf_bootFinds (s : State) (b : BootStep) (elapsed : Nat) (found : Bool) : (bootFinds s b elapsed found).memoryWf = s.memoryWf := by
  simp [bootFinds]

@[simp] theorem outcomeWf_execI2cPoll (elapsed : Nat) (reply : Option Nat) {s : State} (h : s.memoryWf = true) : OutcomeWf (execI2cPoll elapsed reply s) := by
  unfold execI2cPoll
  repeat' split
  all_goals simp [h]
  all_goals exact (memoryWf_of_reach ‹_›).trans h

@[simp] theorem memoryWf_takeLevel (s : State) (pin level : Nat) : (takeLevel s pin level).memoryWf = s.memoryWf := by simp [takeLevel]

@[simp] theorem outcomeWf_execGpioWait (elapsed level : Nat) {s : State} (h : s.memoryWf = true) : OutcomeWf (execGpioWait elapsed level s) := by
  unfold execGpioWait
  repeat' split
  all_goals simp [h]
  all_goals exact (memoryWf_of_reach ‹_›).trans h

/-! ### The monitor -/

@[simp] theorem memoryWf_reply (s : State) (line : String) (values : List Nat) : (reply s line values).memoryWf = s.memoryWf := by simp [reply]
@[simp] theorem memoryWf_replyOk (s : State) (values : List Nat) : (replyOk s values).memoryWf = s.memoryWf := by simp [replyOk]
@[simp] theorem memoryWf_replySyntax (s : State) : (replySyntax s).memoryWf = s.memoryWf := by simp [replySyntax]
@[simp] theorem memoryWf_replyDenied (s : State) : (replyDenied s).memoryWf = s.memoryWf := by simp [replyDenied]
@[simp] theorem memoryWf_replyLocked (s : State) : (replyLocked s).memoryWf = s.memoryWf := by simp [replyLocked]
@[simp] theorem memoryWf_replyUnavailable (s : State) : (replyUnavailable s).memoryWf = s.memoryWf := by simp [replyUnavailable]
@[simp] theorem outcomeWf_execIdent {s : State} (h : s.memoryWf = true) : OutcomeWf (execIdent s) := by simp [execIdent, h]
@[simp] theorem outcomeWf_execStatus {s : State} (h : s.memoryWf = true) : OutcomeWf (execStatus s) := by simp [execStatus, h]
@[simp] theorem outcomeWf_execLog (first count : Nat) {s : State} (h : s.memoryWf = true) : OutcomeWf (execLog first count s) := by simp [execLog, h]
@[simp] theorem outcomeWf_execCounters (block : Nat) {s : State} (h : s.memoryWf = true) : OutcomeWf (execCounters block s) := by simp [execCounters, h]
@[simp] theorem memoryWf_freshNonce (s : State) : (freshNonce s).memoryWf = s.memoryWf := by simp [freshNonce]
@[simp] theorem outcomeWf_execChallenge {s : State} (h : s.memoryWf = true) : OutcomeWf (execChallenge s) := by simp [execChallenge, h]
@[simp] theorem outcomeWf_execUnlock (block : List Byte) (spelt : Bool) {s : State} (h : s.memoryWf = true) : OutcomeWf (execUnlock block spelt s) := by
  simp [execUnlock, h]

@[simp] theorem outcomeWf_execPeek (off : Nat) {s : State} (h : s.memoryWf = true) : OutcomeWf (execPeek off s) := by simp [execPeek, h]
@[simp] theorem outcomeWf_execPoke (off value : Nat) {s : State} (h : s.memoryWf = true) : OutcomeWf (execPoke off value s) := by simp [execPoke, h]
@[simp] theorem outcomeWf_execLock {s : State} (h : s.memoryWf = true) : OutcomeWf (execLock s) := by simp [execLock, h]

@[simp] theorem outcomeWf_execUnlockExpiry {s : State} (h : s.memoryWf = true) : OutcomeWf (execUnlockExpiry s) := by
  unfold execUnlockExpiry
  split <;> simp [h]

/-! ### The evaluation of directives -/

/-- The verdict on a directive has canonical memories, in each of its outcomes that has a state. -/
def VerdictWf : Verdict → Prop
  | .wait => True
  | .refused t _ _ => t.memoryWf = true
  | .passed t => t.memoryWf = true

@[simp] theorem verdictWf_wait : VerdictWf .wait := trivial
@[simp] theorem verdictWf_refused (t : State) (status detail : Nat) : VerdictWf (.refused t status detail) ↔ t.memoryWf = true := Iff.rfl
@[simp] theorem verdictWf_passed (t : State) : VerdictWf (.passed t) ↔ t.memoryWf = true := Iff.rfl

@[simp] theorem verdictWf_ite (c : Prop) [Decidable c] (a b : Verdict) :
    VerdictWf (if c then a else b) ↔ if c then VerdictWf a else VerdictWf b := by
  split <;> rfl

@[simp] theorem rulingWf_ruleOf (w : Deferred) {s : State} (d : Directive) (h : s.memoryWf = true) : RulingWf (ruleOf w s d) := by cases d <;> simp [ruleOf, h]
@[simp] theorem memoryWf_countAuth (s : State) : (countAuth s).memoryWf = s.memoryWf := by simp [countAuth]
@[simp] theorem memoryWf_newNonce (s : State) : (newNonce s).memoryWf = s.memoryWf := by simp [newNonce]
@[simp] theorem memoryWf_countRate (s : State) (op : Nat) : (countRate s op).memoryWf = s.memoryWf := by simp [countRate]

@[simp] theorem verdictWf_checkRate {s : State} (h : DirHeader) (d : Directive) (rate : Nat) (wf : s.memoryWf = true) : VerdictWf (checkRate s h d rate) := by
  unfold checkRate
  dsimp only
  repeat' split
  all_goals simp [wf]

@[simp] theorem verdictWf_checkPolicy {s : State} (h : DirHeader) (d : Directive) (wf : s.memoryWf = true) : VerdictWf (checkPolicy s h d) := by
  unfold checkPolicy
  dsimp only
  repeat' split
  all_goals simp [wf]

@[simp] theorem verdictWf_check {s : State} (h : DirHeader) (d : Directive) (wf : s.memoryWf = true) : VerdictWf (check s h d) := by simp [check, wf]
@[simp] theorem memoryWf_takeHead (s : State) : (takeHead s).memoryWf = s.memoryWf := by simp [takeHead]
@[simp] theorem memoryWf_refuse (s : State) (w : Deferred) (status detail : Nat) : (refuse s w status detail).memoryWf = s.memoryWf := by simp [refuse]

@[simp] theorem optionWf_evaluateHead {s : State} (h : DirHeader) (d : Directive) (wf : s.memoryWf = true) : OptionWf (evaluateHead s h d) := by
  have checked : VerdictWf (check (takeHead s) h d) := by simp [wf]
  unfold evaluateHead
  dsimp only
  split
  · simp
  · next e => simp_all
  · next t e =>
    have head : t.memoryWf = true := by simpa [e] using checked
    have ruled := rulingWf_ruleOf (entryAt s h d) d head
    split <;> simp_all

@[simp] theorem memoryWf_stalled (s : State) : (stalled s).memoryWf = s.memoryWf := by simp [stalled]

@[simp] theorem memoryWf_evaluateOne {s : State} (h : DirHeader) (d : Directive) (wf : s.memoryWf = true) : (evaluateOne s h d).1.memoryWf = true := by
  unfold evaluateOne
  repeat' split
  all_goals simp [wf]
  all_goals exact optionWf_evaluateHead _ _ wf _ ‹_›

@[simp] theorem outcomeWf_evaluate (h : DirHeader) (d : Directive) {s : State} (wf : s.memoryWf = true) : OutcomeWf (evaluate h d s) := by simp [evaluate, wf]

@[simp] theorem memoryWf_evaluateAll {s : State} (l : List (DirHeader × Directive)) (h : s.memoryWf = true) : (evaluateAll s l).memoryWf = true := by
  induction l generalizing s with
  | nil => exact h
  | cons e l ih => simp [evaluateAll, ih, h]

@[simp] theorem memoryWf_fetchFails (s : State) : (fetchFails s).memoryWf = s.memoryWf := by simp [fetchFails]

@[simp] theorem outcomeWf_execDirectiveFetch (entries : List (DirHeader × Directive)) {s : State} (h : s.memoryWf = true) :
    OutcomeWf (execDirectiveFetch entries s) := by
  simp [execDirectiveFetch, h]

@[simp] theorem outcomeWf_execAdmitRoom (h : DirHeader) (index maxParticipants : Nat) {s : State} (wf : s.memoryWf = true) :
    OutcomeWf (execAdmitRoom h index maxParticipants s) := by
  simp [execAdmitRoom, wf]

@[simp] theorem outcomeWf_execAdmitParticipant (h : DirHeader) (index : Nat) (p : PartSpec) (a : AggSpec) {s : State} (wf : s.memoryWf = true) :
    OutcomeWf (execAdmitParticipant h index p a s) := by
  simp [execAdmitParticipant, wf]

@[simp] theorem outcomeWf_execAdmitLeg (h : DirHeader) (index : Nat) (l : LegSpec) {s : State} (wf : s.memoryWf = true) :
    OutcomeWf (execAdmitLeg h index l s) := by
  simp [execAdmitLeg, wf]

@[simp] theorem outcomeWf_execSetLeg (h : DirHeader) (index : Nat) (l : LegChange) {s : State} (wf : s.memoryWf = true) :
    OutcomeWf (execSetLeg h index l s) := by
  simp [execSetLeg, wf]

@[simp] theorem outcomeWf_execSetParticipant (h : DirHeader) (index minRate maxRate weight : Nat) {s : State} (wf : s.memoryWf = true) :
    OutcomeWf (execSetParticipant h index minRate maxRate weight s) := by
  simp [execSetParticipant, wf]

@[simp] theorem outcomeWf_execRelease (h : DirHeader) (kind index : Nat) {s : State} (wf : s.memoryWf = true) : OutcomeWf (execRelease h kind index s) := by
  simp [execRelease, wf]

@[simp] theorem outcomeWf_execRequestKeyframe (h : DirHeader) (sender : Nat) {s : State} (wf : s.memoryWf = true) :
    OutcomeWf (execRequestKeyframe h sender s) := by
  simp [execRequestKeyframe, wf]

@[simp] theorem outcomeWf_execAdmitDecode (h : DirHeader) (index : Nat) (d : DecodeSpec) {s : State} (wf : s.memoryWf = true) :
    OutcomeWf (execAdmitDecode h index d s) := by
  simp [execAdmitDecode, wf]

@[simp] theorem outcomeWf_execReadStatistics (h : DirHeader) (kind index what dest : Nat) {s : State} (wf : s.memoryWf = true) :
    OutcomeWf (execReadStatistics h kind index what dest s) := by
  simp [execReadStatistics, wf]

@[simp] theorem outcomeWf_execAdmitComposite (h : DirHeader) (index : Nat) (c : CompositeSpec) {s : State} (wf : s.memoryWf = true) :
    OutcomeWf (execAdmitComposite h index c s) := by
  simp [execAdmitComposite, wf]

@[simp] theorem outcomeWf_execSetLayout (h : DirHeader) (index : Nat) (list : List Byte) (length : Nat) {s : State} (wf : s.memoryWf = true) :
    OutcomeWf (execSetLayout h index list length s) := by
  simp [execSetLayout, wf]

@[simp] theorem outcomeWf_execAdmitEncode (h : DirHeader) (index : Nat) (e : EncodeSpec) {s : State} (wf : s.memoryWf = true) :
    OutcomeWf (execAdmitEncode h index e s) := by
  simp [execAdmitEncode, wf]

@[simp] theorem outcomeWf_execSetEncode (h : DirHeader) (index : Nat) (e : EncodeRate) {s : State} (wf : s.memoryWf = true) :
    OutcomeWf (execSetEncode h index e s) := by
  simp [execSetEncode, wf]

@[simp] theorem outcomeWf_execAdmitMix (h : DirHeader) (room : Nat) (m : MixSpec) {s : State} (wf : s.memoryWf = true) :
    OutcomeWf (execAdmitMix h room m s) := by
  simp [execAdmitMix, wf]

@[simp] theorem outcomeWf_execSetRoute (h : DirHeader) (leg mode : Nat) (gain : Int) {s : State} (wf : s.memoryWf = true) :
    OutcomeWf (execSetRoute h leg mode gain s) := by
  simp [execSetRoute, wf]

@[simp] theorem outcomeWf_execReadLevels (h : DirHeader) (room dest : Nat) {s : State} (wf : s.memoryWf = true) : OutcomeWf (execReadLevels h room dest s) := by
  simp [execReadLevels, wf]

@[simp] theorem outcomeWf_execEnableTalkerExport (h : DirHeader) (room : Nat) (record : Option Nat) {s : State} (wf : s.memoryWf = true) :
    OutcomeWf (execEnableTalkerExport h room record s) := by
  simp [execEnableTalkerExport, wf]

@[simp] theorem outcomeWf_execStartThread (h : DirHeader) (entry cluster arg : Nat) {s : State} (wf : s.memoryWf = true) :
    OutcomeWf (execStartThread h entry cluster arg s) := by
  simp [execStartThread, wf]

@[simp] theorem outcomeWf_execStopThread (h : DirHeader) (thread : Nat) {s : State} (wf : s.memoryWf = true) : OutcomeWf (execStopThread h thread s) := by
  simp [execStopThread, wf]

@[simp] theorem outcomeWf_execDeliverKeyToken (h : DirHeader) (token : List Byte) (length : Nat) {s : State} (wf : s.memoryWf = true) :
    OutcomeWf (execDeliverKeyToken h token length s) := by
  simp [execDeliverKeyToken, wf]

@[simp] theorem outcomeWf_execAdmitTunnel (h : DirHeader) (index : Nat) (t : TunnelSpec) {s : State} (wf : s.memoryWf = true) :
    OutcomeWf (execAdmitTunnel h index t s) := by
  simp [execAdmitTunnel, wf]

@[simp] theorem outcomeWf_execSwitchEpoch (h : DirHeader) (tunnel epoch : Nat) {s : State} (wf : s.memoryWf = true) :
    OutcomeWf (execSwitchEpoch h tunnel epoch s) := by
  simp [execSwitchEpoch, wf]

@[simp] theorem outcomeWf_execSendTunnelMessage (h : DirHeader) (tunnel label : Nat) (data : List (BitVec 8)) {s : State} (wf : s.memoryWf = true) :
    OutcomeWf (execSendTunnelMessage h tunnel label data s) := by
  simp [execSendTunnelMessage, wf]

@[simp] theorem outcomeWf_execSendFrame (h : DirHeader) (egress cls : Nat) (frame : List (BitVec 8)) {s : State} (wf : s.memoryWf = true) :
    OutcomeWf (execSendFrame h egress cls frame s) := by
  simp [execSendFrame, wf]

@[simp] theorem outcomeWf_execSetShaper (h : DirHeader) (egress cls rate burst : Nat) {s : State} (wf : s.memoryWf = true) :
    OutcomeWf (execSetShaper h egress cls rate burst s) := by
  simp [execSetShaper, wf]

@[simp] theorem outcomeWf_execSetPortLpi (h : DirHeader) (mac tw : Nat) {s : State} (wf : s.memoryWf = true) : OutcomeWf (execSetPortLpi h mac tw s) := by
  simp [execSetPortLpi, wf]

@[simp] theorem outcomeWf_execEnablePon (h : DirHeader) (port disabled : Nat) (registration : List (BitVec 8)) {s : State} (wf : s.memoryWf = true) :
    OutcomeWf (execEnablePon h port disabled registration s) := by
  simp [execEnablePon, wf]

@[simp] theorem outcomeWf_execSetPonPort (h : DirHeader) (port index portId direction queue flags : Nat) {s : State} (wf : s.memoryWf = true) :
    OutcomeWf (execSetPonPort h port index portId direction queue flags s) := by
  simp [execSetPonPort, wf]

@[simp] theorem outcomeWf_execSetPonMap (h : DirHeader) (port cls allocId : Nat) {s : State} (wf : s.memoryWf = true) :
    OutcomeWf (execSetPonMap h port cls allocId s) := by
  simp [execSetPonMap, wf]

@[simp] theorem outcomeWf_execSendOmci (h : DirHeader) (port : Nat) (message : List (BitVec 8)) {s : State} (wf : s.memoryWf = true) :
    OutcomeWf (execSendOmci h port message s) := by
  simp [execSendOmci, wf]

@[simp] theorem outcomeWf_execPonTimeOfDay (h : DirHeader) (port superframe seconds nanoseconds : Nat) {s : State} (wf : s.memoryWf = true) :
    OutcomeWf (execPonTimeOfDay h port superframe seconds nanoseconds s) := by
  simp [execPonTimeOfDay, wf]

@[simp] theorem outcomeWf_execSwitchPon (h : DirHeader) {s : State} (wf : s.memoryWf = true) : OutcomeWf (execSwitchPon h s) := by simp [execSwitchPon, wf]
@[simp] theorem outcomeWf_execStep (h : DirHeader) (source : Nat) {s : State} (wf : s.memoryWf = true) : OutcomeWf (execStep h source s) := by
  simp [execStep, wf]

@[simp] theorem outcomeWf_execSetSeconds (h : DirHeader) (seconds : Nat) {s : State} (wf : s.memoryWf = true) : OutcomeWf (execSetSeconds h seconds s) := by
  simp [execSetSeconds, wf]

@[simp] theorem outcomeWf_execSetMemoryRate (h : DirHeader) (point : Nat) {s : State} (wf : s.memoryWf = true) : OutcomeWf (execSetMemoryRate h point s) := by
  simp [execSetMemoryRate, wf]

@[simp] theorem outcomeWf_execArchivePages (h : DirHeader) (first count keyEntry dest : Nat) {s : State} (wf : s.memoryWf = true) :
    OutcomeWf (execArchivePages h first count keyEntry dest s) := by
  simp [execArchivePages, wf]

@[simp] theorem outcomeWf_execAttest (h : DirHeader) (nonce dest : Nat) {s : State} (wf : s.memoryWf = true) : OutcomeWf (execAttest h nonce dest s) := by
  simp [execAttest, wf]

@[simp] theorem outcomeWf_execPushImage (h : DirHeader) (image : List Byte) {s : State} (wf : s.memoryWf = true) : OutcomeWf (execPushImage h image s) := by
  simp [execPushImage, wf]

@[simp] theorem outcomeWf_execFlashProgram (h : DirHeader) (image : List Byte) (slot : Nat) {s : State} (wf : s.memoryWf = true) :
    OutcomeWf (execFlashProgram h image slot s) := by
  simp [execFlashProgram, wf]

@[simp] theorem outcomeWf_execSnapshotCounters (h : DirHeader) (blocks dest clear : Nat) {s : State} (wf : s.memoryWf = true) :
    OutcomeWf (execSnapshotCounters h blocks dest clear s) := by
  simp [execSnapshotCounters, wf]

@[simp] theorem outcomeWf_execEngineReset (h : DirHeader) (kind index : Nat) {s : State} (wf : s.memoryWf = true) :
    OutcomeWf (execEngineReset h kind index s) := by
  simp [execEngineReset, wf]

@[simp] theorem outcomeWf_execWarmReset (h : DirHeader) {s : State} (wf : s.memoryWf = true) : OutcomeWf (execWarmReset h s) := by simp [execWarmReset, wf]
@[simp] theorem outcomeWf_execZeroize (h : DirHeader) {s : State} (wf : s.memoryWf = true) : OutcomeWf (execZeroize h s) := by simp [execZeroize, wf]
@[simp] theorem outcomeWf_execRetire (h : DirHeader) {s : State} (wf : s.memoryWf = true) : OutcomeWf (execRetire h s) := by simp [execRetire, wf]

/-! ### The words of the lanes -/

@[simp] theorem memoryWf_threadFault {s : State} (l : Nat) (k : BankId) (code : Nat) (h : s.memoryWf = true) : (threadFault s l k code).memoryWf = true := by
  simp [threadFault, h]

@[simp] theorem memoryWf_putBank (s : State) (l : Nat) (k : BankId) (b : Bank) (cycles : Nat) : (putBank s l k b cycles).memoryWf = s.memoryWf := by
  simp [putBank]

/-- The stores of a word keep a canonical memory. -/
theorem wf_writeLocal {m : List Host.Cell} (ws : List (Nat × List Byte)) (h : Memory.wf m = true) : Memory.wf (writeLocal m ws) = true := by
  unfold writeLocal
  induction ws generalizing m with
  | nil => exact h
  | cons w ws ih => exact ih (Memory.wf_write w.2 w.1 h)

@[simp] theorem memoryWf_runSlots {s : State} (l : Nat) (k : BankId) (t : Nat) (x : Thread) (op : AOp) (i : AIn) (ls : LSlot) (h : s.memoryWf = true) :
    (runSlots s l k t x op i ls).memoryWf = true := by
  have written (ws : List (Nat × List Byte)) : (withLane s l { laneOf s l with mem := writeLocal (laneOf s l).mem ws }).memoryWf = true :=
    memoryWf_withLane_of l h (wf_writeLocal ws (wf_laneOf h l))
  unfold runSlots
  dsimp only
  repeat' split
  all_goals simp [h, written]

@[simp] theorem memoryWf_transferWord {s : State} (l : Nat) (k : BankId) (isPut : Bool) (localReg pair words : Nat) (h : s.memoryWf = true) :
    (transferWord s l k isPut localReg pair words).memoryWf = true := by
  simp [transferWord, h]

@[simp] theorem memoryWf_spawnThread (s : State) (x : Thread) (entry arg : Nat) : (spawnThread s x entry arg).1.memoryWf = s.memoryWf := by
  unfold spawnThread
  repeat' split
  all_goals simp

@[simp] theorem memoryWf_runControl {s : State} (l : Nat) (k : BankId) (x : Thread) (c : Control) (h : s.memoryWf = true) :
    (runControl s l k x c).memoryWf = true := by
  unfold runControl
  dsimp only
  repeat' split
  all_goals simp [h]

@[simp] theorem memoryWf_runWord {s : State} (l : Nat) (k : BankId) (t : Nat) (x : Thread) (w : MWord) (h : s.memoryWf = true) :
    (runWord s l k t x w).memoryWf = true := by
  unfold runWord
  split <;> simp [h]

@[simp] theorem memoryWf_issue {s : State} (l : Nat) (w : MWord) (h : s.memoryWf = true) : (issue s l w).memoryWf = true := by
  unfold issue
  repeat' split
  all_goals simp [h]

@[simp] theorem outcomeWf_issueA (op : AOp) (w : LaneA) {s : State} (h : s.memoryWf = true) : OutcomeWf (issueA op w s) := by simp [issueA, h]
@[simp] theorem outcomeWf_issueL (op : LOp) (w : LaneL) {s : State} (h : s.memoryWf = true) : OutcomeWf (issueL op w s) := by simp [issueL, h]
@[simp] theorem outcomeWf_issueC (l : Nat) (c : Control) {s : State} (h : s.memoryWf = true) : OutcomeWf (issueC l c s) := by simp [issueC, h]
@[simp] theorem outcomeWf_execNop (l : Nat) {s : State} (h : s.memoryWf = true) : OutcomeWf (execNop l s) := by simp [execNop, h]
@[simp] theorem outcomeWf_execLdxy (l : Nat) (x : XYArgs) (beside : ASlot) {s : State} (h : s.memoryWf = true) : OutcomeWf (execLdxy l x beside s) := by
  simp [execLdxy, h]

@[simp] theorem memoryWf_endTransfer {s : State} (l : Nat) (k : BankId) (x : Transfer) (r : TransferResult) (h : s.memoryWf = true) :
    (endTransfer s l k x r).memoryWf = true := by
  unfold endTransfer
  extract_lets lane b b' banked lane' fetched stored
  have data : Memory.wf lane'.mem = true := by
    dsimp only [lane', lane]
    split <;> simp [Memory.wf_write, h]
  have fetchedWf : fetched.memoryWf = true := memoryWf_withLane_of l h data
  have storedWf : stored.memoryWf = true := by
    dsimp only [stored]
    split <;> simp [fetchedWf]
  have resumed (b : Bank) : (withLane stored l (lane'.withBank k b)).memoryWf = true := memoryWf_withLane_of l storedWf (by simpa using data)
  repeat' split
  all_goals simp [resumed, storedWf]

@[simp] theorem outcomeWf_execTransferDone (l bank : Nat) (r : TransferResult) {s : State} (h : s.memoryWf = true) :
    OutcomeWf (execTransferDone l bank r s) := by
  unfold execTransferDone
  dsimp only
  repeat' split
  all_goals simp [h]

@[simp] theorem outcomeWf_execPreempt (t : Nat) {s : State} (h : s.memoryWf = true) : OutcomeWf (execPreempt t s) := by
  unfold execPreempt
  dsimp only
  repeat' split
  all_goals simp [h]

@[simp] theorem outcomeWf_execAffinityExpiry (t : Nat) {s : State} (h : s.memoryWf = true) : OutcomeWf (execAffinityExpiry t s) := by
  unfold execAffinityExpiry
  repeat' split
  all_goals simp [h]
  all_goals exact (memoryWf_of_reach ‹_›).trans h

@[simp] theorem outcomeWf_execRunaway (l : Nat) {s : State} (h : s.memoryWf = true) : OutcomeWf (execRunaway l s) := by
  unfold execRunaway
  dsimp only
  split <;> simp [h]

/-! ### The effects at a boundary -/

@[simp] theorem memoryWf_startThreadEffect (s : State) (t u entry arg : Nat) : (startThreadEffect s t u entry arg).memoryWf = s.memoryWf := by
  unfold startThreadEffect
  split <;> simp

@[simp] theorem memoryWf_memoryRateEffect (s : State) (point : Nat) : (memoryRateEffect s point).memoryWf = s.memoryWf := by
  unfold memoryRateEffect
  split <;> simp

@[simp] theorem memoryWf_archiveEffect {s : State} (sequence first count key dest : Nat) (h : s.memoryWf = true) :
    (archiveEffect s sequence first count key dest).memoryWf = true := by
  unfold archiveEffect
  split <;> simp [h]

@[simp] theorem memoryWf_applyEffect {s : State} (e : Effect) (h : s.memoryWf = true) : (applyEffect s e).memoryWf = true := by
  unfold applyEffect
  repeat' split
  all_goals simp [h]

@[simp] theorem memoryWf_applyEffects {s : State} (h : s.memoryWf = true) : (applyEffects s).memoryWf = true := by simp [applyEffects, h]
@[simp] theorem memoryWf_activateAll (s : State) : (activateAll s).memoryWf = s.memoryWf := by simp [activateAll]
@[simp] theorem memoryWf_freeTunnels (s : State) : (freeTunnels s).memoryWf = s.memoryWf := by simp [freeTunnels]
@[simp] theorem memoryWf_freeAll (s : State) : (freeAll s).memoryWf = s.memoryWf := by simp [freeAll]
@[simp] theorem memoryWf_latenessAll (s : State) : (latenessAll s).memoryWf = s.memoryWf := by simp [latenessAll]

@[simp] theorem memoryWf_lateDrop {s : State} (kind i : Nat) (h : s.memoryWf = true) : (lateDrop s kind i).memoryWf = true := by
  unfold lateDrop
  dsimp only
  repeat' split
  all_goals simp [h]

@[simp] theorem memoryWf_lateDrops {s : State} (h : s.memoryWf = true) : (lateDrops s).memoryWf = true := by simp [lateDrops, h]
@[simp] theorem memoryWf_moveSchedules (s : State) : (moveSchedules s).memoryWf = s.memoryWf := by simp [moveSchedules]

/-! ### The tick boundary -/

@[simp] theorem memoryWf_enterProving (s : State) (reason : Nat) : (enterProving s reason).memoryWf = s.memoryWf := by
  unfold enterProving
  dsimp only
  split <;> simp

@[simp] theorem memoryWf_pinPageKey (s : State) (key salt : Nat) : (pinPageKey s key salt).memoryWf = s.memoryWf := by
  unfold pinPageKey
  split <;> simp

@[simp] theorem memoryWf_drawKeys (s : State) : (drawKeys s).memoryWf = s.memoryWf := by simp [drawKeys]
@[simp] theorem memoryWf_fuseRollback (s : State) : (fuseRollback s).memoryWf = s.memoryWf := by simp [fuseRollback]
@[simp] theorem memoryWf_timeEntry (s : State) : (timeEntry s).memoryWf = s.memoryWf := by simp [timeEntry]
@[simp] theorem memoryWf_enterService (s : State) (m : Mode) (reason : Nat) : (enterService s m reason).memoryWf = s.memoryWf := by simp [enterService]
@[simp] theorem memoryWf_transition (s : State) (r : Mode × Nat) : (transition s r).memoryWf = s.memoryWf := by simp [transition]

@[simp] theorem memoryWf_modeStep (s : State) : (modeStep s).memoryWf = s.memoryWf := by
  unfold modeStep
  repeat' split
  all_goals simp

@[simp] theorem memoryWf_toBoundary (s : State) : (toBoundary s).memoryWf = s.memoryWf := by simp [toBoundary]
@[simp] theorem memoryWf_endTick (s : State) : (endTick s).memoryWf = s.memoryWf := by simp [endTick]
@[simp] theorem memoryWf_startTick (s : State) : (startTick s).memoryWf = s.memoryWf := by simp [startTick]
@[simp] theorem memoryWf_generationStep {s : State} (h : s.memoryWf = true) : (generationStep s).memoryWf = true := by simp [generationStep, h]

@[simp] theorem memoryWf_admissionStep {s : State} (h : s.memoryWf = true) : (admissionStep s).memoryWf = true := by
  have admitted : (applyReplacements (applyEffects (activateAll s))).memoryWf = true := by simp [h]
  simp [admissionStep, admitted]

@[simp] theorem memoryWf_mixDrops {s : State} (h : s.memoryWf = true) : (mixDrops s).memoryWf = true :=
  memoryWf_foldl_of _ _ (fun s e => by split <;> simp) h

@[simp] theorem memoryWf_serviceStep (s : State) : (serviceStep s).memoryWf = s.memoryWf := by simp [serviceStep]

@[simp] theorem memoryWf_tickBoundary {s : State} (h : s.memoryWf = true) : (tickBoundary s).memoryWf = true := by
  have begun : (startTick (endTick (toBoundary s))).memoryWf = true := by simp [h]
  have dropped : (mixDrops (audioLateness (lateDrops (startTick (endTick (toBoundary s)))))).memoryWf = true := by simp [begun]
  have admitted {s : State} (h : s.memoryWf = true) : (admissionStep (generationStep s)).memoryWf = true := by simp [h]
  unfold tickBoundary
  dsimp only
  split <;> split <;> simp [admitted, begun, dropped]

@[simp] theorem outcomeWf_execTickBoundary {s : State} (h : s.memoryWf = true) : OutcomeWf (execTickBoundary s) := by simp [execTickBoundary, h]
@[simp] theorem outcomeWf_boundaryIf (due : Bool) {s : State} (h : s.memoryWf = true) : OutcomeWf (boundaryIf due s) := by simp [boundaryIf, h]
@[simp] theorem outcomeWf_execLateDrop (kind stream : Nat) {s : State} (h : s.memoryWf = true) : OutcomeWf (execLateDrop kind stream s) := by
  simp [execLateDrop, h]

@[simp] theorem outcomeWf_execGenerationChanged {s : State} (h : s.memoryWf = true) : OutcomeWf (execGenerationChanged s) := by simp [execGenerationChanged, h]
@[simp] theorem outcomeWf_execGenerationRetired {s : State} (h : s.memoryWf = true) : OutcomeWf (execGenerationRetired s) := by simp [execGenerationRetired, h]
@[simp] theorem outcomeWf_execGenForced {s : State} (h : s.memoryWf = true) : OutcomeWf (execGenForced s) := by simp [execGenForced, h]
@[simp] theorem outcomeWf_execEntryToServing {s : State} (h : s.memoryWf = true) : OutcomeWf (execEntryToServing s) := by simp [execEntryToServing, h]
@[simp] theorem outcomeWf_execLegDrained (kind index : Nat) {s : State} (h : s.memoryWf = true) : OutcomeWf (execLegDrained kind index s) := by
  simp [execLegDrained, h]

@[simp] theorem outcomeWf_execThreadDelayExpiry {s : State} (h : s.memoryWf = true) : OutcomeWf (execThreadDelayExpiry s) := by simp [execThreadDelayExpiry, h]
@[simp] theorem outcomeWf_execTunnelFreed (tunnel : Nat) {s : State} (h : s.memoryWf = true) : OutcomeWf (execTunnelFreed tunnel s) := by
  simp [execTunnelFreed, h]

@[simp] theorem outcomeWf_execRetirement (kind index : Nat) {s : State} (h : s.memoryWf = true) : OutcomeWf (execRetirement kind index s) := by
  simp [execRetirement, h]

@[simp] theorem outcomeWf_execAutoWarmReset {s : State} (h : s.memoryWf = true) : OutcomeWf (execAutoWarmReset s) := by simp [execAutoWarmReset, h]
@[simp] theorem outcomeWf_execSetPointChange {s : State} (h : s.memoryWf = true) : OutcomeWf (execSetPointChange s) := by simp [execSetPointChange, h]
@[simp] theorem outcomeWf_execCrownLinkFault (met : LinkMeeting) {s : State} (h : s.memoryWf = true) : OutcomeWf (execCrownLinkFault met s) := by
  simp [execCrownLinkFault, h]

@[simp] theorem memoryWf_idleCycle {s : State} (h : s.memoryWf = true) : (idleCycle s).memoryWf = true := by simp [idleCycle, h]

/-! ### The dispatch -/

@[simp] theorem outcomeWf_exec (i : Instr) {s : State} (h : s.memoryWf = true) : OutcomeWf (exec i s) := by
  unfold exec
  split <;> simp [h, execAdd, execSub, execAdds, execSubs, execAnd, execOr, execXor, execShl, execShr, execAsr, execMin, execMax, execAbs,
    execMul, execMov, execMac, execMsu, execDot4, execVmac4, execAclr, execAext, execAld, execAadd, execDstep, execDfix, execMovcTo,
    execMovcFrom, execCmp, execLd8s, execLd16s, execLd32, execLd64, execLdq, execSt8, execSt16, execSt32, execSt64, execStq, execPset, execPget,
    execBr, execCall, execRet, execLoop, execWait, execSignal, execSpawn, execFetch, execPut, execFence]

/-! ### The step -/

/-- A step keeps canonical memories: every operation of the model does, so every command and every cycle of the clock does. -/
theorem memoryWf_step {s t : State} (h : s.memoryWf = true) (next : step s = .next t) : t.memoryWf = true := by
  unfold step at next
  split at next
  · obtain rfl := Host.Outcome.next.inj next
    exact memoryWf_idleCycle h
  · next c rest _ =>
    have queued : (s.withQueue rest).memoryWf = true := h
    have kept := outcomeWf_exec c queued
    rw [next] at kept
    exact kept

/-- Settles O6, by the rule of each operation, through the commands (`outcomeWf_exec`) and the cycle of the clock (`memoryWf_idleCycle`). -/
theorem internalMemoryStaysCanonical : Obligations.InternalMemoryStaysCanonical := fun _ _ => memoryWf_step

end Sys2Proof.Machine

/-!
The clock of a tick (R38, R39, R53), the commands of its boundary (R55), the sources and the outputs of time (R41 to R52, R65), the rows of the
decode and encode clusters (R134 to R136, R183, R187), and the directives that act at once: one rule for each branch.
-/

namespace Sys2Proof.Machine

/-! ### The clock -/

/-- A span rounded up to whole cycles is no shorter. -/
theorem le_ceilDiv_mul (a : Nat) {b : Nat} (h : 0 < b) : a ≤ ceilDiv a b * b := by
  have whole := Nat.div_add_mod' (a + b - 1) b
  have part := Nat.mod_lt (a + b - 1) h
  rw [ceilDiv, if_neg (Nat.ne_of_gt h)]
  omega

/-- A span rounded up to whole cycles is less than one cycle longer. -/
theorem ceilDiv_mul_lt (a : Nat) {b : Nat} (h : 0 < b) : ceilDiv a b * b < a + b := by
  have whole := Nat.div_mul_le_self (a + b - 1) b
  rw [ceilDiv, if_neg (Nat.ne_of_gt h)]
  omega

theorem le_clockAt (s : State) (c : Nat) : s.time.clock ≤ clockAt s c := Nat.le_add_right _ _

theorem increment_dvd_clockAt_sub (s : State) (c : Nat) : s.time.increment ∣ clockAt s c - s.time.clock :=
  ⟨_, by rw [clockAt, Nat.add_sub_cancel_left, Nat.mul_comm]⟩

section
variable {s : State} (run : 0 < s.time.increment)
include run

/-- The first cycle at or beyond a reading does not come before it. -/
theorem reading_le_clockAt (c : Nat) : c ≤ clockAt s c := by
  have := le_ceilDiv_mul (c - s.time.clock) run
  unfold clockAt
  omega

/-- The first cycle at or beyond a reading ahead comes within one cycle of it. -/
theorem clockAt_lt {c : Nat} (ahead : s.time.clock < c) : clockAt s c < c + s.time.increment := by
  have := ceilDiv_mul_lt (c - s.time.clock) run
  unfold clockAt
  omega

/-- The state brought to an instant shows that instant or a later one. -/
theorem le_nowNs_advanceTo (t : Nat) : t ≤ nowNs (advanceTo s t) := by
  unfold advanceTo
  split
  · assumption
  · exact (Nat.le_div_iff_mul_le (by decide)).2 (reading_le_clockAt run (t * Config.fracUnit))
end

/-- Bringing a state to an instant changes nothing of it but its time. -/
theorem advanceTo_restore_time (s : State) (t : Nat) : { advanceTo s t with time := s.time } = s := by
  unfold advanceTo
  split <;> rfl

/-- Bringing a state to an instant changes nothing of its time but the clock. -/
theorem advanceTo_restore_clock (s : State) (t : Nat) : { (advanceTo s t).time with clock := s.time.clock } = s.time := by
  unfold advanceTo
  split <;> rfl

theorem clock_le_advanceTo (s : State) (t : Nat) : s.time.clock ≤ (advanceTo s t).time.clock := by
  unfold advanceTo
  split
  · exact Nat.le_refl _
  · exact le_clockAt s _

/-- An instant that is reached has passed, or comes before the next boundary. -/
theorem advanceTo_before_boundary {s : State} {t : Nat} (due : reachable s t = true) :
    advanceTo s t = s ∨ (advanceTo s t).time.clock < nextMultiple s := by
  unfold advanceTo
  split
  · exact .inl rfl
  · next ahead =>
    have before : clockAt s (t * Config.fracUnit) < nextMultiple s := by simpa [reachable, ahead] using due
    exact .inr before

theorem clock_lt_nextMultiple (s : State) : s.time.clock < nextMultiple s := by
  rw [nextMultiple, Nat.add_one_mul]
  exact Nat.lt_div_mul_add (by decide)

theorem nextMultiple_le (s : State) : nextMultiple s ≤ s.time.clock + tickUnits := by
  rw [nextMultiple, Nat.add_one_mul]
  exact Nat.add_le_add_right (Nat.div_mul_le_self _ _) _

theorem tickUnits_dvd_nextMultiple (s : State) : tickUnits ∣ nextMultiple s := Nat.dvd_mul_left _ _

/-- Settles O32, by the bounds of a rounding up to whole cycles. -/
theorem theClockOfABoundary : Obligations.TheClockOfABoundary := by
  refine ⟨?boundary, ?instant, fun s => ⟨clock_lt_nextMultiple s, nextMultiple_le s, tickUnits_dvd_nextMultiple s⟩⟩
  case boundary =>
    exact fun s run ahead => ⟨reading_le_clockAt run _, clockAt_lt run ahead, increment_dvd_clockAt_sub s _⟩
  case instant =>
    rintro s _ t run due rfl
    exact ⟨le_nowNs_advanceTo run t, advanceTo_restore_time s t, advanceTo_restore_clock s t, clock_le_advanceTo s t, advanceTo_before_boundary due⟩

/-! ### The step -/

/-- Settles O1, by the two branches of `step`. -/
theorem stepTakesTheFrontCommand : Obligations.StepTakesTheFrontCommand := by
  refine ⟨fun c rest s front => ?_, fun s empty => ?_, fun _ _ => rfl⟩
  · simp only [step, front]
  · simp only [step, empty]

/-! ### The commands of a boundary -/

theorem boundaryIf_due {s : State} {due : Bool} (on : s.power.pwrGood = true) (h : due = true) : boundaryIf due s = .next (tickBoundary s) := by
  simp [boundaryIf, on, h]

theorem boundaryIf_notDue {due : Bool} (s : State) (h : due = false) : boundaryIf due s = .next s := by simp [boundaryIf, h]

/-- Settles O31: each command is the boundary, on a condition that its clause gives. -/
theorem boundaryCommandsComplete : Obligations.BoundaryCommandsComplete := by
  refine ⟨?tick, fun _ _ _ => boundaryIf_due, fun _ => boundaryIf_due, fun _ => boundaryIf_due, fun _ => boundaryIf_due, fun _ => boundaryIf_due,
    fun _ _ _ => boundaryIf_due, fun _ => boundaryIf_due, ?tunnel, ?retirement, ?reset, ?protective, ?asked, ?off, fun s _ => boundaryIf_notDue s⟩
  case tick =>
    intro s on
    simp [exec, execTickBoundary, on]
  case tunnel =>
    intro s t x on here draining idle
    refine boundaryIf_due on ?_
    rw [here, Option.any_some, idle, decide_eq_true draining]
    rfl
  case retirement =>
    intro s kind i on retiring can
    refine boundaryIf_due on ?_
    simp only [retiring, can, Bool.and_self]
  case reset =>
    intro s on cause enabled few
    refine boundaryIf_due on ?_
    simp [cause, enabled, few]
  case protective =>
    intro s on stepDown
    refine boundaryIf_due on ?_
    simp [stepDown]
  case asked =>
    intro s p t on pending ready
    refine boundaryIf_due on ?_
    simp [pending, ready]
  case off =>
    intro s off
    simp [exec, execTickBoundary, off]

/-! ### The sources of time -/

theorem reach_of_reachable {s : State} {t : Nat} (due : reachable s t = true) : reach s t = some (advanceTo s t) := if_pos due

theorem exec_ptpMessage {s : State} {port : Nat} {a : PtpArrival} (m : PtpMessage) (service : inService s = true) (known : port < 16)
    (enabled : bitOf (rd s Reg.TIME.TIME_CONFIG_PTP_PORTS) port = 1) (listed : (slots s).contains 1 = true) (mine : ptpMine s a.via = true) :
    exec (.ptpMessage port a m) s = .next (ptpReceive s port a.stamp m) := by
  simp only [exec, execPtpMessage, service, known, enabled, listed, mine, decide_true, Bool.and_self, if_true]

theorem exec_announceTimeout {s : State} {m : PtpMaster} {identity : Nat} (heard : s.time.engine.masters.find? (fun m => m.identity = identity) = some m)
    (due : reachable s (m.announceAt + orDefault (timeRec s).announceTimeout 3 * m.announceInterval) = true) :
    exec (.announceTimeout identity) s =
      let u := advanceTo s (m.announceAt + orDefault (timeRec s).announceTimeout 3 * m.announceInterval)
      .next (runBmca (withEngine u { u.time.engine with masters := u.time.engine.masters.filter (fun y => y.identity ≠ identity) })) := by
  simp only [exec, execAnnounceTimeout, heard, reach_of_reachable due]

theorem exec_ppsMissing {s : State} {t : Nat} (edge : s.time.lastEdge = some t) (service : inService s = true) (listed : (slots s).contains 4 = true)
    (qualified : s.time.pps.qualified = true) (due : reachable s (t + 1000001001) = true) :
    exec .ppsMissing s = .next (ppsMissed (advanceTo s (t + 1000001001))) := by
  simp only [exec, execPpsMissing, edge, service, listed, qualified, Bool.and_self, Bool.not_true, Bool.false_eq_true, if_false, reach_of_reachable due]

theorem exec_todTimeout {s : State} {port : Nat} (known : port < 2) (qualified : (sourceGet s.time (todSource port)).qualified = true)
    (due : reachable s ((sourceGet s.time (todSource port)).measuredAt + 10000000000) = true) : exec (.todTimeout port) s =
      .next (wr (disqualify (advanceTo s ((sourceGet s.time (todSource port)).measuredAt + 10000000000)) (todSource port) false)
        (Reg.PON.PON_STATUS_TOD_QUALIFIED.on port) 0) := by
  simp only [exec, execTodTimeout, known, qualified, decide_true, Bool.and_self, if_true, reach_of_reachable due]

theorem exec_sourceDisqualified {s : State} (follows : tracking s = true) (refused : 4 ≤ (sourceGet s.time (selected s)).refusals) :
    exec .sourceDisqualified s = .next (disqualify s (selected s) true) := by
  simp only [exec, execSourceDisqualified, follows, refused, decide_true, Bool.and_self, if_true]

theorem exec_restoreWaitExpiry {s : State} {c t : Nat} (since : (sourceGet s.time c).candidateSince = some t) (service : inService s = true)
    (locked : everLocked s = true) (follows : tracking s = true) (able : candidate s c = true)
    (higher : (slots s).idxOf c < (slots s).idxOf (selected s)) (due : reachable s (t + rd s Reg.TIME.SOURCE_PRIORITY_RESTORE_WAIT * 1000000000) = true) :
    exec (.restoreWaitExpiry c) s = .next (selectSource (advanceTo s (t + rd s Reg.TIME.SOURCE_PRIORITY_RESTORE_WAIT * 1000000000)) c) := by
  simp only [exec, execRestoreWaitExpiry, since, service, locked, follows, able, higher, decide_true, Bool.and_self, if_true, reach_of_reachable due]

/-- A request takes the next sequence number, is sent through the port of the selected master, and puts the next one off (R42, R67). -/
theorem exec_delayReqSend {s u : State} (service : inService s = true) (master : s.time.engine.selected.isSome = true) (listed : (slots s).contains 1 = true)
    (due : reach s s.time.engine.nextRequest = some u) : ∃ t, exec .delayReqSend s = .next t ∧
      t.time.engine.requestSeq = (s.time.engine.requestSeq + 1) % 65536 ∧ nowNs u ≤ t.time.engine.nextRequest ∧
      t.out = .ptp (ptpPort u) (if rd u Reg.TIME.TIME_CONFIG_PTP_DELAY = 1 then 2 else 1) (ptpVia t ++ [(s.time.engine.requestSeq + 1) % 65536]) :: u.out := by
  simp only [exec, execDelayReqSend, service, master, listed, Bool.and_self, if_true, due]
  exact ⟨_, rfl, rfl, Nat.le_add_right _ _, rfl⟩

/-- An edge of a source that does not qualify, before the first lock and with no second named, is counted and measures nothing (R44). -/
theorem exec_ppsEdge_unnamed {s : State} (stamp : Nat) (service : inService s = true) (listed : (slots s).contains 4 = true)
    (unlocked : everLocked s = false) (unnamed : s.time.nextSecond = none) (unqualified : s.time.pps.qualified = false) :
    exec (.ppsEdge stamp true) s = .next (countEdge s stamp true) := by
  simp only [exec, execPpsEdge, service, listed, unlocked, unnamed, unqualified, Bool.and_self, Bool.not_true, Bool.false_and, Bool.false_eq_true, if_false]

/-- The first edge starts the run of a source. -/
theorem countEdge_first {s : State} (stamp : Nat) (first : s.time.lastEdge = none) (unnamed : s.time.nextSecond = none) :
    (countEdge s stamp true).time.lastEdge = some stamp ∧ (countEdge s stamp true).time.nextSecond = none ∧ (countEdge s stamp true).time.pps.count = 1 := by
  simp [countEdge, edgeGap, first, unnamed, sourcePut]

/-- Settles O33, by one rule for each command. -/
theorem timeSourcesComplete : Obligations.TimeSourcesComplete := by
  refine ⟨fun _ _ _ m => exec_ptpMessage m, ?request, ?announce, ?missing, ?tod, fun _ => exec_sourceDisqualified, ?restore, ?edge⟩
  case request =>
    rintro s _ k service master listed due rfl
    exact exec_delayReqSend service (by simp [master]) listed (reach_of_reachable due)
  case announce =>
    rintro s _ m identity heard due rfl
    exact exec_announceTimeout heard due
  case missing =>
    rintro s _ t edge service listed qualified due rfl
    exact exec_ppsMissing edge service listed qualified due
  case tod =>
    rintro s _ port known qualified due rfl
    exact exec_todTimeout known qualified due
  case restore =>
    rintro s _ c t since service locked follows able higher due rfl
    exact exec_restoreWaitExpiry since service locked follows able higher due
  case edge =>
    intro s stamp service listed first unlocked unnamed unqualified
    exact ⟨_, exec_ppsEdge_unnamed stamp service listed unlocked unnamed unqualified, countEdge_first stamp first unnamed⟩

/-! ### The outputs of time -/

/-- At the start of a second whose pulse has not been taken, the pulse begins (R65). -/
theorem exec_ppsOut_second {s : State} (drive : pinsDrive s = true) (enabled : rd s Reg.TIME.PULSE_CONFIG_PPS_ENABLE = 1) (begins : secondBegins s = true)
    (first : onceDue s 2 = true) : exec .ppsOut s = .next (emit { markOnce s 2 with time := { (markOnce s 2).time with
      ppsOut := true, lastPpsSecond := nowNs s / 1000000000,
      ppsOutUntil := some (nowNs s + rd s Reg.TIME.PULSE_CONFIG_PPS_WIDTH * 1000) } } (.pin "TIME_PPS_OUT" 1)) := by
  simp only [exec, execPpsOut, drive, enabled, begins, first, decide_true, Bool.and_self, if_true]
  rfl

section
variable {s : State} {t : Nat}

theorem exec_pulseWidthEnd_pps (high : s.time.ppsOutUntil = some t) (due : reachable s t = true) : exec (.pulseWidthEnd 0) s =
    .next (emit { advanceTo s t with time := { (advanceTo s t).time with ppsOut := false, ppsOutUntil := none } } (.pin "TIME_PPS_OUT" 0)) := by
  simp only [exec, execPulseWidthEnd, high, reach_of_reachable due, if_true]

theorem exec_pulseWidthEnd_tick (high : s.time.tickOutUntil = some t) (due : reachable s t = true) : exec (.pulseWidthEnd 1) s =
    .next (emit { advanceTo s t with time := { (advanceTo s t).time with tickOut := false, tickOutUntil := none } } (.pin "TIME_TICK_OUT" 0)) := by
  simp only [exec, execPulseWidthEnd, high, reach_of_reachable due, Nat.one_ne_zero, if_false, if_true]
end

/-- Settles O34, by one rule for each edge of a pulse. -/
theorem timeOutputsComplete : Obligations.TimeOutputsComplete := by
  refine ⟨?rise, ?pps, ?tick⟩
  case rise =>
    intro s drive enabled begins first
    exact ⟨_, exec_ppsOut_second drive enabled begins first, rfl, rfl, rfl, rfl⟩
  case pps =>
    rintro s _ t high due rfl
    exact exec_pulseWidthEnd_pps high due
  case tick =>
    rintro s _ t high due rfl
    exact exec_pulseWidthEnd_tick high due

/-! ### The rows of the decode clusters -/

section
variable {s : State} {i tr : Nat} {d : DecodeStream} {a : AsmFrame} {rest : List AsmFrame} (f : CodedFrame) (here : s.decodes.get i = some d)
  (front : nextAssembled d = a :: rest) (ready : a.readyAt = some tr) (service : inService s = true) (whole : s.time.shortTick = false)
  (live : d.state = .waiting ∨ d.state = .running) (works : inServiceEngine s 0 d.cluster = true)
include here front ready service whole live works

/-- The next frame leaves the assembly; it is lost where none of its packets is there, and taken otherwise (R134). -/
theorem exec_frameReady : exec (.frameReady i f) s = .next
    (let e := { d with assembly := rest, takenStamp := some a.timestamp, takenLast := a.marker }
     if a.absent then loseFrame (updDecode s i (fun _ => e)) i else takeFrame (updDecode s i (fun _ => e)) i e a tr f) := by
  have goes : (decide (d.state = .waiting) || decide (d.state = .running)) = true := by simpa using live
  simp only [exec, execFrameReady, here, front, ready, service, whole, goes, works, Bool.not_false, Bool.and_self, if_true]
  split <;> rfl
end

section
variable {s : State} {i : Nat} {d : DecodeStream} {j : DecodeFrame} (w : RowWork) (due : decodeRowDue s d j = true) (here : s.decodes.get i = some d)
  (job : d.job = some j)
include due here job

/-- A row of a frame that has its buffer runs. -/
theorem exec_decodeRowJob_opened {b : Nat} (opened : j.buffer = some b) : exec (.decodeRowJob i w) s = .next (runRow s i d j b w) := by
  unfold decodeRowDue at due
  simp only [exec, execDecodeRowJob, here, job, due, opened, Bool.not_true, Bool.false_eq_true, if_false]

/-- The first row of a frame opens its buffer, and runs if there is one. -/
theorem exec_decodeRowJob_first (first : j.buffer = none) : exec (.decodeRowJob i w) s = .next (match openFrame s i d j with
    | (t, none) => t
    | (t, some k) => runRow t i { d with pictures := d.pictures + 1, job := some k } k (k.buffer.getD 0) w) := by
  unfold decodeRowDue at due
  simp only [exec, execDecodeRowJob, here, job, due, first, Bool.not_true, Bool.false_eq_true, if_false]
  obtain ⟨t, _ | k⟩ := openFrame s i d j <;> rfl
end

/-- How a row runs (R136, R143): it fails, ends within its cap (twice the cap where it has been suspended), is abandoned, or is suspended. Its work is what
was held when it was suspended. -/
theorem runRow_eq (s : State) (i : Nat) (d : DecodeStream) {j : DecodeFrame} (b : Nat) {v w : RowWork} (work : j.held.getD v = w) : runRow s i d j b v =
    if decodeRowWorks s b w = false then decodeFailure (abandonRow (strayWrites s b w.writes).1 i d j b w 0) d.cluster
    else if decodeRowNeed j w ≤ decodeRowCap s j ∨ (j.sched.suspended = true ∧ decodeRowNeed j w ≤ 2 * decodeRowCap s j) then
      endRow (strayWrites s b w.writes).1 i d j b w (decodeRowBlocks j w).length
    else if j.sched.suspended = true then
      abandonRow (strayWrites s b w.writes).1 i d j b w (blocksWithin (2 * decodeRowCap s j) (decodeRowBlocks j w))
    else updDecode s i (fun d => { d with job := some { j with held := some w, sched :=
      { j.sched with suspended := true, carried := decodeRowNeed j w - decodeRowCap s j, resumeAt := s.time.boundaries + 1 } } }) := by
  simp only [runRow, work, decodeRowWorks, decodeRowNeed, decodeRowCap, decodeRowBlocks, Bool.not_eq_false', Bool.or_eq_true, Bool.and_eq_true,
    decide_eq_true_eq]
  congr

/-! ### The rows of the encode clusters -/

/-- In the tick in which a frame of a stream starts, it starts at once, or waits behind the one at work (R63, R183). -/
theorem exec_encodeFrameStart {s : State} {i : Nat} {e : EncodeStream} (here : s.encodes.get i = some e) (service : inService s = true)
    (live : e.state = .waiting ∨ e.state = .running) (works : inServiceEngine s 1 e.cluster = true) (starts : startsNow s e = true)
    (first : onceDue s (0x500000 + i) = true) : exec (.encodeFrameStart i) s = .next
      (if e.job.isSome then updEncode (markOnce s (0x500000 + i)) i
        (fun e' => { e' with startDue := e'.startDue ++ [(s.time.boundaryAt, frameSchedule e s.time.boundaries)] })
      else startEncode (markOnce s (0x500000 + i)) i s.time.boundaryAt (frameSchedule e s.time.boundaries)) := by
  have goes : (decide (e.state = .waiting) || decide (e.state = .running)) = true := by simpa using live
  simp only [exec, execEncodeFrameStart, here, service, goes, works, starts, first, Bool.and_self, if_true]
  split <;> rfl

theorem exec_encodeRowJob {s : State} {i : Nat} {e : EncodeStream} {j : EncodeFrame} {f : LayerFrame} (w : EncodeWork) (due : encodeRowDue s e j = true)
    (here : s.encodes.get i = some e) (job : e.job = some j) (layer : j.layers[(jobPlace e j j.sched.next).layer]? = some f) :
    exec (.encodeRowJob i w) s = .next (runEncodeRow s i e j f w) := by
  unfold encodeRowDue at due
  simp only [exec, execEncodeRowJob, here, job, due, layer, Bool.not_true, Bool.false_eq_true, if_false]

/-- How a row is coded (R187, R205): it fails, is coded within its cap (twice the cap where it has been suspended), is cut, or is suspended. Its work is what
was held when it was suspended. -/
theorem runEncodeRow_eq (s : State) (i : Nat) (e : EncodeStream) (j : EncodeFrame) {f : LayerFrame} {v w : EncodeWork} (work : f.held.getD v = w) :
    runEncodeRow s i e j f v =
      if encodeRowWorks s f.buffer w = false then encodeFailure (dropEncode (strayEncodeWrites s f.buffer w.writes).1 i true) e.cluster
      else if encodeRowNeed w < encodeRowCap s e j ∨ (j.sched.suspended = true ∧ encodeRowNeed w < 2 * encodeRowCap s e j) then
        rowCoded (strayEncodeWrites s f.buffer w.writes).1 i e j (jobPlace e j j.sched.next) f w w.blocks.length
      else if j.sched.suspended = true then
        rowCoded (raise (bump (strayEncodeWrites s f.buffer w.writes).1 Reg.ENCODE.ROWS_CUT) Reg.ENCODE.ENCODE_EVENTS_ROW_CUT) i e j
          (jobPlace e j j.sched.next) f w (searchedWithin (2 * encodeRowCap s e j) w.blocks)
      else updEncode s i (fun e' => { e' with job := some { j with
        sched := { j.sched with suspended := true, carried := encodeRowNeed w - encodeRowCap s e j, resumeAt := s.time.boundaries + 1 },
        layers := j.layers.mapIdx (fun k g => if k = (jobPlace e j j.sched.next).layer then { g with held := some w } else g) } }) := by
  simp only [runEncodeRow, work, encodeRowWorks, encodeRowNeed, encodeRowCap, Bool.not_eq_false', Bool.or_eq_true, Bool.and_eq_true, decide_eq_true_eq]
  congr

/-- Settles O38, by how a row runs in each of the two clusters. -/
theorem decodeAndEncodeCommandsComplete : Obligations.DecodeAndEncodeCommandsComplete := by
  refine ⟨?taken, ?absent, fun _ _ w _ _ due here job => exec_decodeRowJob_first w due here job, ?within, ?beyond, ?resumed, ?abandoned, ?fails,
    ?starts, ?waits, ?coded, ?cap, ?resumedCoded, ?cut, ?codingFails⟩
  case taken =>
    intro s i tr d a rest f here front ready present service whole live works
    simp [exec_frameReady f here front ready service whole live works, present]
  case absent =>
    intro s i tr d a rest f here front ready absent service whole live works
    simp [exec_frameReady f here front ready service whole live works, absent]
  case within =>
    intro s i b w d j due here job opened fresh new works need
    simp [exec_decodeRowJob_opened w due here job opened, runRow_eq s i d b (w := w) (by rw [fresh]; rfl), works, need]
  case beyond =>
    intro s i b w d j due here job opened fresh new works need
    simp [exec_decodeRowJob_opened w due here job opened, runRow_eq s i d b (w := w) (by rw [fresh]; rfl), works, new, Nat.not_le.2 need]
  case resumed =>
    intro s i b w v d j due here job opened held again works need
    simp [exec_decodeRowJob_opened v due here job opened, runRow_eq s i d b (w := w) (by rw [held]; rfl), works, again, need]
  case abandoned =>
    intro s i b w v d j due here job opened held again works need
    have beyond : ¬ decodeRowNeed j w ≤ decodeRowCap s j := by omega
    simp [exec_decodeRowJob_opened v due here job opened, runRow_eq s i d b (w := w) (by rw [held]; rfl), works, again, beyond, Nat.not_le.2 need]
  case fails =>
    intro s i b w d j due here job opened fresh fails
    simp [exec_decodeRowJob_opened w due here job opened, runRow_eq s i d b (w := w) (by rw [fresh]; rfl), fails]
  case starts =>
    intro s i e here service live works starts first idle
    simp [exec_encodeFrameStart here service live works starts first, idle]
  case waits =>
    intro s i e here service live works starts first busy
    simp [exec_encodeFrameStart here service live works starts first, busy]
  case coded =>
    intro s i w e j f due here job layer fresh new works need
    simp [exec_encodeRowJob w due here job layer, runEncodeRow_eq s i e j (w := w) (by rw [fresh]; rfl), works, need]
  case cap =>
    intro s i w e j f due here job layer fresh new works need
    simp [exec_encodeRowJob w due here job layer, runEncodeRow_eq s i e j (w := w) (by rw [fresh]; rfl), works, new, Nat.not_lt.2 need]
  case resumedCoded =>
    intro s i w v e j f due here job layer held again works need
    simp [exec_encodeRowJob v due here job layer, runEncodeRow_eq s i e j (w := w) (by rw [held]; rfl), works, again, need]
  case cut =>
    intro s i w v e j f due here job layer held again works need
    have beyond : ¬ encodeRowNeed w < encodeRowCap s e j := by omega
    simp [exec_encodeRowJob v due here job layer, runEncodeRow_eq s i e j (w := w) (by rw [held]; rfl), works, again, beyond, Nat.not_lt.2 need]
  case codingFails =>
    intro s i w e j f due here job layer fresh fails
    simp [exec_encodeRowJob w due here job layer, runEncodeRow_eq s i e j (w := w) (by rw [fresh]; rfl), fails]

/-! ### The directives that act at once -/

/-- A directive whose own rule succeeds is answered with STATUS 0. -/
theorem evaluate_done {s t : State} {h : DirHeader} {d : Directive} {detail result : Nat} (p : passes s h d = true)
    (rule : ruleOf (entryAt s h d) (checked s h d) d = .done t detail result) : evaluate h d s = .next (answered s h d t detail result) := by
  rw [evaluate_of_passes p, rule]

/-- A directive whose own rule answers later, or never, leaves the state of its rule. -/
theorem evaluate_silent {s t : State} {h : DirHeader} {d : Directive} (p : passes s h d = true)
    (rule : ruleOf (entryAt s h d) (checked s h d) d = .silent t) : evaluate h d s = .next t := by
  rw [evaluate_of_passes p, rule]

theorem admitRoomRule_free {s : State} {i : Nat} (n : Nat) (free : s.rooms.get i = none) :
    admitRoomRule i n s = .done { s with rooms := s.rooms.put i { state := .active, maxTalkers := 0, mix := false, maxParticipants := n } } 0 0 := by
  simp [admitRoomRule, free]

theorem releaseRule_releasable {s : State} {kind i : Nat} (h : releasable s kind i = true) :
    releaseRule kind i s = .done (releaseEntry s kind i).1 0 (releaseEntry s kind i).2 := if_pos h

theorem readLevelsRule_exported {s : State} {room : Nat} (dest : Nat) (active : roomActive s room = true) (exported : bitOf (exportBits s) 2 = 1) :
    readLevelsRule room dest s = .done (exchangeWrite s dest (levelsOf s room)) 0 (sourcesOf s room).length := by
  simp [readLevelsRule, active, exported]

theorem switchEpochRule_keyed {s : State} {t : Nat} {x : Tunnel} (here : s.gauntlet.tunnels.get t = some x) (live : tunnelLive s t = true)
    (keyed : x.nextKeyed = true) : switchEpochRule t x.epochNext s = .done (updTunnel s t (fun y => { y with nextSendEpoch := some x.epochNext })) 0 0 := by
  simp [switchEpochRule, here, live, keyed]

theorem stepRule_qualified {s : State} {source : Nat} {o : Int} (offset : (sourceGet s.time source).offset = some o) (measures : measuring source = true)
    (listed : (slots s).contains source = true) (qualified : (sourceGet s.time source).qualified = true) (idle : s.time.pendingStep = none) :
    stepRule source s = .done { s with time := { s.time with pendingStep := some o } } 0 0 := by
  simp only [stepRule, offset, measures, listed, qualified, idle, Bool.not_true, Bool.true_or, Bool.or_self, Option.isSome_none, Bool.false_eq_true, if_false]

theorem setMemoryRateRule_idle {s : State} (w : Deferred) (point : Nat) (idle : s.near.change = none)
    (first : s.host.deferred.any (fun d => d.opcode = 0x52) = false) :
    setMemoryRateRule w point s = .silent (later (defer s w) (.setMemoryRate point) []) := by
  simp only [setMemoryRateRule, idle, first, Option.isSome_none, Bool.or_self, Bool.false_eq_true, if_false]

theorem archivePagesRule_keyed {s : State} (w : Deferred) (first count : Nat) {key : Nat} (dest : Nat) {k : KeyEntry} (here : s.trust.keys.get key = some k)
    (use : k.usage = 4) (usable : k.usableAt ≤ s.time.boundaries) :
    archivePagesRule w first count key dest s = .silent (later (defer s w) (.archivePages first count key dest) [w.sequence]) := by
  simp [archivePagesRule, here, use, Nat.not_lt.2 usable]

theorem attestRule_room {s : State} (w : Deferred) (nonce dest : Nat) (entropy : rd s Reg.TRUST.ENTROPY_STATUS = 0) (room : s.trust.attest.length < 16) :
    attestRule w nonce dest s = .silent { defer s { w with key := w.sequence } with
      trust := { s.trust with attest := s.trust.attest ++ [{ sequence := w.sequence, nonce := nonce, dest := dest }] } } := by
  simp [attestRule, entropy, Nat.not_le.2 room]

theorem pushImageRule_taken {s : State} (w : Deferred) {b : List Byte} (taken : s.mode ≠ .proving ∨ (Image.ofBytes b).kind ≠ 1) :
    pushImageRule w b s = .silent (verify (defer s w) (.pushed s.trust.pendingPartial.isSome) (Image.ofBytes b)) := by
  obtain mode | kind := taken
  · simp [pushImageRule, mode]
  · simp [pushImageRule, kind]

/-! ### A layout that is set -/

theorem moderateCpl_onlyHost (s : State) (b : Bool) : OnlyHost s (moderateCpl s b) := by
  unfold moderateCpl
  dsimp only
  split
  · exact (host_onlyHost s _).trans (signal_onlyHost _ _)
  · exact host_onlyHost s _

theorem putCompletion_onlyHost (s : State) (c : Completion) : OnlyHost s (putCompletion s c) :=
  (emit_onlyHost s _).trans ((wr_onlyHost _ _ _).trans (moderateCpl_onlyHost _ _))

/-- A completion, written or waiting, changes registers, the host's side and the record of what left. -/
theorem complete_onlyHost (s : State) (c : Completion) : OnlyHost s (complete s c) := by
  unfold complete
  dsimp only
  split
  · exact putCompletion_onlyHost s c
  · split
    · exact (host_onlyHost s _).trans (raise_onlyHost _ _)
    · exact host_onlyHost s _

theorem finish_onlyHost (s : State) (d : Deferred) (status detail result : Nat) : OnlyHost s (finish s d status detail result) := by
  unfold finish
  dsimp only
  split
  · exact (host_onlyHost s _).trans (complete_onlyHost _ _)
  · exact (host_onlyHost s _).trans ((bump_onlyHost _ _).trans (complete_onlyHost _ _))

theorem OnlyHost.composites {s t : State} (h : OnlyHost s t) : t.composites = s.composites := by
  obtain ⟨_, _, _, rfl⟩ := h
  rfl

@[simp] theorem commit_composites (s : State) (xs : List NewCharges) : (commit s xs).composites = s.composites := by
  unfold commit
  induction xs generalizing s with
  | nil => rfl
  | cons x xs ih => exact ih _

/-- The state in which a new layout of a composite is entered: one that waited before it is superseded, and its charges are committed (R161). -/
def layoutCharged (s : State) (i : Nat) (c : Composite) (l : DisplayList) : State :=
  commit (match deferredOf s 0x13 i with
    | some d => finish s d stSuperseded 0 0
    | none => s) [{ kind := 4, index := i, charges := compositeCharges s i c.veil c.spec (some l) }]

@[simp] theorem layoutCharged_composites (s : State) (i : Nat) (c : Composite) (l : DisplayList) : (layoutCharged s i c l).composites = s.composites := by
  rw [layoutCharged, commit_composites]
  split
  · exact (finish_onlyHost s _ _ _ _).composites
  · rfl

/-- A layout that is admissible is charged and awaited by its composite, and its completion is still to come. -/
theorem setLayoutRule_admissible {s : State} (w : Deferred) {i : Nat} {c : Composite} {l : DisplayList} {length : Nat} (here : s.composites.get i = some c)
    (fits : layoutAdmissible s i c l length = true) : setLayoutRule w i l length s = .silent (defer (updComp (layoutCharged s i c l) i
      (fun c => { c with awaiting := some l, signed := none, listReadyAt := (layoutCharged s i c l).time.boundaries + 1 })) { w with key := i }) := by
  simp only [layoutAdmissible, Bool.and_eq_true, decide_eq_true_eq, Option.isNone_iff_eq_none] at fits
  obtain ⟨⟨live, sound⟩, charged⟩ := fits
  simp only [setLayoutRule, here, live, sound, charged, if_false, ne_eq, not_true_eq_false]
  rfl

/-- Settles O12, by the own rule of each directive. -/
theorem immediateDirectivesComplete : Obligations.ImmediateDirectivesComplete := by
  refine ⟨fun _ _ _ n p free => evaluate_done p (admitRoomRule_free n free), fun _ _ _ _ p h => evaluate_done p (releaseRule_releasable h),
    fun _ _ _ dest p active exported => evaluate_done p (readLevelsRule_exported dest active exported), ?epoch,
    fun _ _ _ _ p offset measures listed qualified idle => evaluate_done p (stepRule_qualified offset measures listed qualified idle), ?layout,
    fun _ _ point p idle first => evaluate_silent p (setMemoryRateRule_idle _ point idle first),
    fun _ _ first count _ dest _ p here use usable => evaluate_silent p (archivePagesRule_keyed _ first count dest here use usable), ?attest, ?push, ?flash,
    fun _ _ _ _ _ p => evaluate_silent p rfl, fun _ _ p => evaluate_silent p rfl, fun _ _ p => evaluate_silent p rfl, fun _ _ p => evaluate_silent p rfl⟩
  case epoch =>
    rintro s h t _ x p here live keyed rfl
    exact evaluate_done p (switchEpochRule_keyed here live keyed)
  case layout =>
    rintro s _ h i bytes n c p rfl here fits
    refine ⟨_, evaluate_silent p (setLayoutRule_admissible _ here fits), ?_, ?_⟩
    · simp [defer, updComp, here]
    · simp [defer]
  case attest =>
    intro s h nonce dest ready space
    refine ⟨(evaluateOne s h (.attest nonce dest)).1, rfl, fun ⟨p, entropy, room⟩ => ?_⟩
    have answer := Host.Outcome.next.inj (evaluate_silent p (attestRule_room _ nonce dest entropy room))
    rw [answer]
    exact ⟨rfl, rfl⟩
  case push =>
    rintro s _ h b p rfl taken
    exact evaluate_silent p (pushImageRule_taken _ taken)
  case flash =>
    rintro s _ h b slot p rfl
    exact evaluate_silent p rfl

end Sys2Proof.Machine

/-!
Proving and the zeroize sequence (R76, R97, R98, R425, R477, R504): what an event, a fault, a change of mode and a reset leave as it was, what a zeroize
trigger erases, and one rule for each branch of the commands.
-/

namespace Sys2Proof.Machine

/-! ### The fields that an event or a fault writes -/

/-- Two states of which the second has the same directives unanswered, and reads the same in every field but those of a list. -/
structure SameBut (l : List Fld) (s t : State) : Prop where
  deferred : t.host.deferred = s.host.deferred
  reads : ∀ g : Fld, g.key ∉ l.map Fld.key → rd t g = rd s g

/-- The fields that an event writes (R456, R465 to R467): the tail of the ring, its two counts and the flag of an overflow. -/
def eventFields : List Fld :=
  [evtRing.tail, Reg.EVENT.EVENTS_WRITTEN, Reg.EVENT.EVENTS_LOST, Reg.EVENT.EVENT_FLAGS_OVERFLOW]

/-- The counts that an entry of the fault log writes (R479, R493). -/
def logFields : List Fld :=
  [Reg.FAULTLOG.OVERWRITTEN, Reg.FAULTLOG.FAULTS_TRANSIENT, Reg.FAULTLOG.FAULTS_LASTING, Reg.FAULTLOG.FAULTS_DEVICE]

theorem SameBut.refl (l : List Fld) (s : State) : SameBut l s s := ⟨rfl, fun _ _ => rfl⟩

theorem SameBut.trans {l : List Fld} {s t u : State} (a : SameBut l s t) (b : SameBut l t u) : SameBut l s u :=
  ⟨b.deferred.trans a.deferred, fun g h => (b.reads g h).trans (a.reads g h)⟩

theorem SameBut.mono {l m : List Fld} {s t : State} (h : SameBut l s t) (sub : l ⊆ m) : SameBut m s t :=
  ⟨h.deferred, fun g other => h.reads g fun listed => other (List.map_subset _ sub listed)⟩

theorem wr_sameBut {l : List Fld} (s : State) {f : Fld} (v : Nat) (listed : f ∈ l) : SameBut l s (wr s f v) :=
  ⟨rfl, fun _ other => rd_wr_ne s v fun same => other (same ▸ List.mem_map_of_mem listed)⟩

theorem bump_sameBut {l : List Fld} (s : State) {f : Fld} (listed : f ∈ l) : SameBut l s (bump s f) := wr_sameBut s _ listed

theorem wrFold_sameBut {l fs : List Fld} (v : Nat) (sub : fs ⊆ l) (s : State) : SameBut l s (fs.foldl (fun s g => wr s g v) s) := by
  induction fs generalizing s with
  | nil => exact .refl l s
  | cons f fs ih =>
    obtain ⟨first, rest⟩ := List.cons_subset.1 sub
    exact (wr_sameBut s v first).trans (ih rest _)

theorem host_sameBut (l : List Fld) (s : State) {h : HostState} (same : h.deferred = s.host.deferred) : SameBut l s { s with host := h } :=
  ⟨same, fun _ _ => rfl⟩

theorem faults_sameBut (l : List Fld) (s : State) (q : FaultState) : SameBut l s { s with faults := q } := ⟨rfl, fun _ _ => rfl⟩

theorem emit_sameBut (l : List Fld) (s : State) (o : Output) : SameBut l s (emit s o) := ⟨rfl, fun _ _ => rfl⟩

theorem signal_sameBut (l : List Fld) (s : State) (v : Nat) : SameBut l s (signal s v) := by
  unfold signal
  split
  · exact host_sameBut l s (by rfl)
  · exact emit_sameBut l s _

theorem moderateEvt_sameBut (l : List Fld) (s : State) (atOnce : Bool) : SameBut l s (moderateEvt s atOnce) := by
  unfold moderateEvt
  dsimp only
  split
  · exact (host_sameBut l s (by rfl)).trans (signal_sameBut l _ _)
  · exact host_sameBut l s (by rfl)

theorem putEvent_sameBut (s : State) (block stamp : Nat) (data : EventData) (atOnce : Bool) :
    SameBut eventFields s (putEvent s block stamp data atOnce) := by
  have tail (t : State) (v : Nat) : SameBut eventFields t (wr t evtRing.tail v) := wr_sameBut t v (by simp [eventFields])
  have written (t : State) : SameBut eventFields t (bump t Reg.EVENT.EVENTS_WRITTEN) := bump_sameBut t (by simp [eventFields])
  exact (emit_sameBut _ s _).trans ((tail _ _).trans ((written _).trans (moderateEvt_sameBut _ _ _)))

theorem loseEvent_sameBut (s : State) : SameBut eventFields s (loseEvent s) := by
  have lost (t : State) : SameBut eventFields t (bump t Reg.EVENT.EVENTS_LOST) := bump_sameBut t (by simp [eventFields])
  exact (host_sameBut _ s (by rfl)).trans (lost _)

/-- An event is written, or it is lost, and then the ring's flag of an overflow is set. -/
theorem event_sameBut (s : State) (block stamp : Nat) (data : EventData) (atOnce : Bool) :
    SameBut eventFields s (event s block stamp data atOnce) := by
  have flagged (t : State) : SameBut eventFields t (wr t Reg.EVENT.EVENT_FLAGS_OVERFLOW 1) := wr_sameBut t 1 (by simp [eventFields])
  have own (t : State) : SameBut eventFields t (if evtOpen t then putEvent t block stamp data atOnce
      else if rd (loseEvent t) Reg.EVENT.EVENT_FLAGS_OVERFLOW = 1 then loseEvent t
        else loseEvent (wr (loseEvent t) Reg.EVENT.EVENT_FLAGS_OVERFLOW 1)) := by
    split
    · exact putEvent_sameBut t _ _ _ _
    · split
      · exact loseEvent_sameBut t
      · exact (loseEvent_sameBut t).trans ((flagged _).trans (loseEvent_sameBut _))
  unfold event
  split
  · exact loseEvent_sameBut s
  · dsimp only
    split
    · exact ((host_sameBut _ s (by rfl)).trans (putEvent_sameBut _ _ _ _ _)).trans (own _)
    · exact own s

/-- Raising flags writes them, and what an event writes. -/
theorem raiseAll_sameBut (s : State) (fs : List Fld) : SameBut (eventFields ++ fs) s (raiseAll s fs) := by
  have fresh : fs.filter (fun f => rd s f = 0) ⊆ eventFields ++ fs := List.Subset.trans (List.filter_subset_self _) (List.subset_append_right _ _)
  unfold raiseAll
  dsimp only
  split
  · exact .refl _ s
  · exact (wrFold_sameBut 1 fresh s).trans ((event_sameBut _ _ _ _ _).mono (List.subset_append_left _ _))

/-- An entry of the fault log writes the count of its class, and counts the entry that it takes the place of. -/
theorem logEntry_sameBut (s : State) (code block port detail address : Nat) :
    SameBut logFields s (logEntry s code block port detail address).1 := by
  have counted {f : Fld} (t : State) (h : f ∈ logFields) : SameBut logFields t (bump t f) := bump_sameBut t h
  have overwrites (t : State) (lost : Bool) : SameBut logFields t (if lost then bump t Reg.FAULTLOG.OVERWRITTEN else t) := by
    split
    · exact counted t (by simp [logFields])
    · exact .refl _ t
  unfold logEntry
  dsimp only
  split
  · exact ((faults_sameBut _ s _).trans (overwrites _ _)).trans (counted _ (by simp [logFields]))
  · exact ((faults_sameBut _ s _).trans (overwrites _ _)).trans (counted _ (by simp [logFields]))
  · exact ((faults_sameBut _ s _).trans (overwrites _ _)).trans (counted _ (by simp [logFields]))
  · exact (faults_sameBut _ s _).trans (overwrites _ _)

theorem fault_sameBut (s : State) (code block port detail address : Nat) :
    SameBut (logFields ++ eventFields) s (fault s code block port detail address) :=
  ((logEntry_sameBut s code block port detail address).mono (List.subset_append_left _ _)).trans
    ((event_sameBut _ _ _ _ _).mono (List.subset_append_right _ _))

/-! ### The work of a state -/

/-- The second state differs from the first at most in its registers, its time, its power, its fault log, the host's side and what has left; the same
directives are unanswered. -/
def SameWork (s t : State) : Prop :=
  ∃ r h c q p o, t = { s with regs := r, host := h, time := c, faults := q, power := p, out := o } ∧ h.deferred = s.host.deferred

theorem SameWork.refl (s : State) : SameWork s s := ⟨_, _, _, _, _, _, rfl, rfl⟩

theorem SameWork.trans {s t u : State} (a : SameWork s t) (b : SameWork t u) : SameWork s u := by
  obtain ⟨_, _, _, _, _, _, rfl, first⟩ := a
  obtain ⟨_, _, _, _, _, _, rfl, second⟩ := b
  exact ⟨_, _, _, _, _, _, rfl, second.trans first⟩

theorem SameWork.of_onlyHost {s t : State} (only : OnlyHost s t) (deferred : t.host.deferred = s.host.deferred) : SameWork s t := by
  obtain ⟨_, _, _, rfl⟩ := only
  exact ⟨_, _, _, _, _, _, rfl, deferred⟩

/-- What stays where the work does. -/
theorem SameWork.keeps {s t : State} (h : SameWork s t) :
    t.mode = s.mode ∧ t.modeRequests = s.modeRequests ∧ t.trust = s.trust ∧ t.mem = s.mem := by
  obtain ⟨_, _, _, _, _, _, rfl, -⟩ := h
  exact ⟨rfl, rfl, rfl, rfl⟩

theorem wr_sameWork (s : State) (f : Fld) (v : Nat) : SameWork s (wr s f v) := .of_onlyHost (wr_onlyHost s f v) rfl

theorem event_sameWork (s : State) (block stamp : Nat) (data : EventData) (atOnce : Bool) : SameWork s (event s block stamp data atOnce) :=
  .of_onlyHost (event_onlyHost s _ _ _ _) (event_sameBut s _ _ _ _).deferred

theorem raiseAll_sameWork (s : State) (fs : List Fld) : SameWork s (raiseAll s fs) :=
  .of_onlyHost (raiseAll_onlyHost s fs) (raiseAll_sameBut s fs).deferred

theorem raise_sameWork (s : State) (f : Fld) : SameWork s (raise s f) := raiseAll_sameWork s [f]

theorem logEntry_sameWork (s : State) (code block port detail address : Nat) : SameWork s (logEntry s code block port detail address).1 := by
  obtain ⟨⟨r, q, only⟩, -⟩ := logEntry_frame s code block port detail address
  exact ⟨r, s.host, s.time, q, s.power, s.out, only, rfl⟩

theorem fault_sameWork (s : State) (code block port detail address : Nat) : SameWork s (fault s code block port detail address) :=
  (logEntry_sameWork s code block port detail address).trans (event_sameWork _ _ _ _ _)

theorem changeMode_sameWork (s : State) (m : Mode) (reason : Nat) : SameWork { s with mode := m } (changeMode s m reason) :=
  ((wr_sameWork _ _ _).trans (logEntry_sameWork _ _ _ _ _ _)).trans ((raise_sameWork _ _).trans (event_sameWork _ _ _ _ _))

theorem setDomains_sameWork (s : State) (m : Nat) : SameWork s (setDomains s m) := by
  have fold (l : List Nat) (t : State) : SameWork t (l.foldl (fun s k => wr s (Reg.NEARMEM.MEM_STATUS_POWERED.on k) (bitOf m (48 + k))) t) := by
    induction l generalizing t with
    | nil => exact .refl t
    | cons k l ih => exact (wr_sameWork t _ _).trans (ih _)
  exact ((wr_sameWork s _ _).trans (wr_sameWork _ _ _)).trans (fold _ _)

theorem setVdd_sameWork (s : State) (mv : Nat) : SameWork s (setVdd s mv) := by
  unfold setVdd
  split
  · exact .refl s
  · exact ⟨_, _, _, _, _, _, rfl, rfl⟩

theorem pinsLow_sameWork (s : State) : SameWork s (pinsLow s) := by
  have tick (t : State) : SameWork t
      (if t.time.tickOut then emit { t with time := { t.time with tickOut := false, tickOutUntil := none } } (.pin "TIME_TICK_OUT" 0) else t) := by
    split
    · exact ⟨_, _, _, _, _, _, rfl, rfl⟩
    · exact .refl t
  unfold pinsLow
  dsimp only
  split
  · exact .trans ⟨_, _, _, _, _, _, rfl, rfl⟩ (tick _)
  · exact tick s

/-! ### What a zeroize trigger erases -/

/-- No key, image, entity or work is left, and no directive is unanswered (R98). -/
structure Erased (t : State) : Prop where
  keys : t.trust.keys = []
  keks : t.trust.keks = []
  tableKek : t.trust.tableKek = none
  pageKey : t.trust.pageKey = none
  accepted : t.trust.accepted = false
  held : t.trust.held = none
  pendingPartial : t.trust.pendingPartial = none
  rooms : t.rooms = []
  participants : t.participants = []
  legs : t.legs = []
  decodes : t.decodes = []
  encodes : t.encodes = []
  composites : t.composites = []
  mixes : t.mixes = []
  buffers : t.buffers = []
  tunnels : t.gauntlet.tunnels = []
  threads : t.mitten.threads = []
  jobs : t.cipher.jobs = []
  channels : t.dma.channels = []
  deferred : t.host.deferred = []

theorem Erased.of_sameWork {s t : State} (h : Erased s) (same : SameWork s t) : Erased t := by
  obtain ⟨_, _, _, _, _, _, rfl, deferred⟩ := same
  exact { h with deferred := deferred.trans h.deferred }

/-- The resets other than a cold one leave a state without keys, entities and work; its fuses and its memory stay (R14, R503). -/
theorem clearWork_frame (s : State) (k : Keep) :
    ∃ u, SameWork u (clearWork s k) ∧ Erased u ∧ u.trust.fuses = s.trust.fuses ∧ u.mem = s.mem := by
  have lowered (u : State) (c : Prop) [Decidable c] (mv : Nat) : SameWork u (pinsLow (if c then u else setVdd u mv)) := by
    split
    · exact pinsLow_sameWork u
    · exact (setVdd_sameWork u mv).trans (pinsLow_sameWork _)
  exact ⟨_, (setDomains_sameWork _ _).trans (lowered _ _ _), by constructor <;> rfl, rfl, rfl⟩

theorem erased_clearWork (s : State) (k : Keep) : Erased (clearWork s k) := by
  obtain ⟨_, same, erased, -⟩ := clearWork_frame s k
  exact erased.of_sameWork same

theorem clearWork_fuses (s : State) (k : Keep) : (clearWork s k).trust.fuses = s.trust.fuses := by
  obtain ⟨_, same, -, fuses, -⟩ := clearWork_frame s k
  obtain ⟨-, -, trust, -⟩ := same.keeps
  rw [trust, fuses]

theorem clearWork_mem (s : State) (k : Keep) : (clearWork s k).mem = s.mem := by
  obtain ⟨_, same, -, -, mem⟩ := clearWork_frame s k
  obtain ⟨-, -, -, kept⟩ := same.keeps
  rw [kept, mem]

/-- A march that is stopped leaves the Kuthastan core and the memory. -/
theorem stopMarch_keeps (s : State) : (stopMarch s).trust = s.trust ∧ (stopMarch s).mem = s.mem := by
  unfold stopMarch
  split
  · exact ⟨rfl, rfl⟩
  · obtain ⟨-, -, trust, mem⟩ := (raiseAll_sameWork _ _).keeps
    exact ⟨trust, mem⟩

theorem refuseUnfinished_onlyHost (s : State) : OnlyHost s (refuseUnfinished s) := by
  have fold (l : List Deferred) (t : State) : OnlyHost t (l.foldl (fun s d => finish s d 12 0 0) t) := by
    induction l generalizing t with
    | nil => exact .refl t
    | cons d l ih => exact (finish_onlyHost t d 12 0 0).trans (ih _)
  exact fold _ s

theorem erased_eraseAll (s : State) : Erased (eraseAll s) :=
  { erased_clearWork (stopMarch (refuseUnfinished s)) .zeroize with }

theorem eraseAll_fuses (s : State) : (eraseAll s).trust.fuses = s.trust.fuses := by
  obtain ⟨-, -, trust, -⟩ := (refuseUnfinished_onlyHost s).keeps
  calc (eraseAll s).trust.fuses = (stopMarch (refuseUnfinished s)).trust.fuses := clearWork_fuses _ _
    _ = s.trust.fuses := by rw [(stopMarch_keeps _).1, trust]

/-- The addresses of the exchange region. -/
def inExchangeRegion (a : Nat) : Bool := decide (exchangeBase ≤ a) && decide (a < exchangeBase + 2 ^ 32)

theorem eraseAll_mem (s : State) : (eraseAll s).mem = s.mem.filter (fun c => !inExchangeRegion c.1) := by
  obtain ⟨-, -, -, -, mem, -⟩ := (refuseUnfinished_onlyHost s).keeps
  have kept : (clearWork (stopMarch (refuseUnfinished s)) .zeroize).mem = s.mem := by rw [clearWork_mem, (stopMarch_keeps _).2, mem]
  exact congrArg (List.filter _) kept

/-- A memory from which addresses are taken out reads zero there, and elsewhere as before. -/
theorem memByte_filter (p : Nat → Bool) (m : List Host.Cell) (a : Nat) : memByte (m.filter (fun c => p c.1)) a = if p a then memByte m a else 0 := by
  induction m with
  | nil => simp [memByte]
  | cons c m ih =>
    by_cases here : c.1 = a
    · subst here
      cases kept : p c.1 <;> simp [memByte, kept, ih]
    · cases kept : p c.1 <;> simp [memByte, kept, ih, here]

theorem memByte_eraseAll (s : State) (a : Nat) : memByte (eraseAll s).mem a = if inExchangeRegion a then 0 else memByte s.mem a := by
  rw [eraseAll_mem, memByte_filter fun x => !inExchangeRegion x]
  cases inExchangeRegion a <;> rfl

/-! ### The triggers of the zeroize sequence -/

/-- A Knit breach and a retire directive fuse RETIRED. -/
def triggerFuses (s : State) (cause : Nat) : State := if cause = 1 || cause = 9 then fuseRetired s else s

/-- The state in which a trigger begins the sequence: all is erased, the cause and its input are shown, and the fault is logged (R97, R98). -/
def zeroizeBegins (s : State) (cause input : Nat) : State :=
  fault (bump (wrAll (eraseAll s) [(Reg.TRUST.ZEROIZE_CAUSE_CAUSE, cause), (Reg.TRUST.ZEROIZE_CAUSE_INPUT, input)]) Reg.TRUST.ZEROIZE_COUNT)
    0x90 2 0xFFFF cause 0

/-- Nothing is left to erase: a sequence runs, or one has ended in Sealed (log 115). -/
def zeroizeSpent (s : State) : Bool := s.trust.zeroizing || (s.mode = .sealed && decide (rd s Reg.TRUST.ZEROIZE_CAUSE_CAUSE ≠ 0))

theorem zeroizeSpent_triggerFuses (s : State) (cause : Nat) : zeroizeSpent (triggerFuses s cause) = zeroizeSpent s := by
  unfold triggerFuses
  split <;> rfl

theorem zeroizeTrigger_eq (s : State) (cause input : Nat) : zeroizeTrigger s cause input =
    if zeroizeSpent s then triggerFuses s cause else zeroizeBegins (triggerFuses s cause) cause input := by
  rw [← zeroizeSpent_triggerFuses s cause]
  rfl

theorem eraseAll_sameWork_zeroizeBegins (s : State) (cause input : Nat) : SameWork (eraseAll s) (zeroizeBegins s cause input) :=
  .trans (.trans (.trans (wr_sameWork _ _ _) (wr_sameWork _ _ _)) (wr_sameWork _ _ _)) (fault_sameWork _ _ _ _ _ _)

theorem zeroizeBegins_cause (s : State) (cause input : Nat) :
    rd (zeroizeBegins s cause input) Reg.TRUST.ZEROIZE_CAUSE_CAUSE = cause % 2 ^ Reg.TRUST.ZEROIZE_CAUSE_CAUSE.width := by
  unfold zeroizeBegins
  rw [(fault_sameBut _ _ _ _ _ _).reads _ (by decide), bump, rd_bumpBy_ne _ _ (by decide), wrAll, wrAll, wrAll, rd_wr_ne _ _ (by decide), rd_wr]

theorem zeroizeBegins_fuses (s : State) (cause input : Nat) : (zeroizeBegins s cause input).trust.fuses = s.trust.fuses := by
  obtain ⟨-, -, trust, -⟩ := (eraseAll_sameWork_zeroizeBegins s cause input).keeps
  rw [trust, eraseAll_fuses]

theorem memByte_zeroizeBegins (s : State) (cause input a : Nat) :
    memByte (zeroizeBegins s cause input).mem a = if inExchangeRegion a then 0 else memByte s.mem a := by
  obtain ⟨-, -, -, mem⟩ := (eraseAll_sameWork_zeroizeBegins s cause input).keeps
  rw [mem, memByte_eraseAll]

/-- The trigger that begins a sequence. -/
theorem zeroizeTrigger_begins {s : State} (cause input : Nat) (idle : s.trust.zeroizing = false) (unsealed : s.mode ≠ .sealed) :
    zeroizeTrigger s cause input = zeroizeBegins (triggerFuses s cause) cause input := by
  rw [zeroizeTrigger_eq, if_neg (by simp [zeroizeSpent, idle, unsealed])]

/-- A Knit breach and a retire directive leave a part that is RETIRED, whether they begin a sequence or not. -/
theorem zeroizeTrigger_retires (s : State) (input : Nat) {cause : Nat} (breach : cause = 1 ∨ cause = 9) :
    (zeroizeTrigger s cause input).trust.fuses.lifecycle = 3 := by
  have fused : (triggerFuses s cause).trust.fuses.lifecycle = 3 := by simp [triggerFuses, breach, fuseRetired]
  rw [zeroizeTrigger_eq]
  split
  · exact fused
  · rw [zeroizeBegins_fuses, fused]

theorem zeroizeTrigger_spent {s : State} {cause : Nat} (input : Nat) (notBreach : cause ≠ 1) (notRetire : cause ≠ 9)
    (spent : s.trust.zeroizing = true ∨ (s.mode = .sealed ∧ rd s Reg.TRUST.ZEROIZE_CAUSE_CAUSE ≠ 0)) : zeroizeTrigger s cause input = s := by
  rw [zeroizeTrigger_eq, if_pos (by simpa [zeroizeSpent] using spent)]
  simp [triggerFuses, notBreach, notRetire]

/-- The end of the scrub, before the device enters Sealed: no sequence runs, no change of mode is asked for, and the domains of Sealed are on (R474). -/
def scrubbed (s : State) : State :=
  setDomains { s with trust := { s.trust with zeroizing := false }, modeRequests := [], warming := false } (2 ^ 63 + 2 ^ 58)

theorem scrubbed_keeps (s : State) : (scrubbed s).modeRequests = [] ∧ (scrubbed s).trust.zeroizing = false := by
  obtain ⟨-, requests, trust, -⟩ := (setDomains_sameWork
    { s with trust := { s.trust with zeroizing := false }, modeRequests := [], warming := false } (2 ^ 63 + 2 ^ 58)).keeps
  exact ⟨requests, congrArg TrustState.zeroizing trust⟩

theorem exec_zeroizeScrubDone {s : State} (runs : s.trust.zeroizing = true) : exec .zeroizeScrubDone s =
    .next (if (scrubbed s).mode = .sealed then scrubbed s else changeMode (scrubbed s) .sealed 12) := by
  simp only [exec, execZeroizeScrubDone, runs, if_true]
  rfl

/-- The sequence ends in Sealed, whether the device has been in it or enters it. -/
theorem zeroizeScrubDone_seals {s : State} (runs : s.trust.zeroizing = true) :
    ∃ t, exec .zeroizeScrubDone s = .next t ∧ t.mode = .sealed ∧ t.trust.zeroizing = false ∧ t.modeRequests = [] := by
  obtain ⟨requests, whole⟩ := scrubbed_keeps s
  refine ⟨_, exec_zeroizeScrubDone runs, ?_⟩
  split
  · next already => exact ⟨already, whole, requests⟩
  · obtain ⟨mode, asked, trust, -⟩ := (changeMode_sameWork (scrubbed s) .sealed 12).keeps
    exact ⟨mode, (congrArg TrustState.zeroizing trust).trans whole, asked.trans requests⟩

/-- Settles O27, by what the beginning of the sequence erases and by one rule for each trigger. -/
theorem zeroizeErasesAndSeals : Obligations.ZeroizeErasesAndSeals := by
  refine ⟨?begins, ?knit, fun s => ⟨zeroizeTrigger_retires s 0 (.inl rfl), zeroizeTrigger_retires s 0 (.inr rfl)⟩, ?rail, ?temperature, ?clock,
    ?tamper, ?pin, fun _ _ input => zeroizeTrigger_spent input, fun _ => zeroizeScrubDone_seals, ?idle⟩
  case begins =>
    intro s cause input idle unsealed
    have same := eraseAll_sameWork_zeroizeBegins (triggerFuses s cause) cause input
    obtain ⟨-, -, trust, -⟩ := same.keeps
    have erased := (erased_eraseAll (triggerFuses s cause)).of_sameWork same
    have memory : (triggerFuses s cause).mem = s.mem := by unfold triggerFuses; split <;> rfl
    refine ⟨_, zeroizeTrigger_begins cause input idle unsealed, congrArg TrustState.zeroizing trust, erased.keys, erased.keks, erased.tableKek,
      erased.pageKey, erased.accepted, erased.held, erased.pendingPartial, erased.rooms, erased.participants, erased.legs, erased.decodes, erased.encodes,
      erased.composites, erased.mixes, erased.buffers, erased.tunnels, erased.threads, erased.jobs, erased.channels, erased.deferred,
      zeroizeBegins_cause _ cause input, fun a low high => ?_, fun a outside => ?_⟩
    · have within : inExchangeRegion a = true := by simp only [inExchangeRegion, low, high, decide_true, Bool.and_self]
      rw [memByte_zeroizeBegins, if_pos within]
    · have beyond : ¬ inExchangeRegion a = true := by
        simp only [inExchangeRegion, Bool.and_eq_true, decide_eq_true_eq]
        omega
      rw [memByte_zeroizeBegins, if_neg beyond, memory]
  case knit =>
    intro s on
    simp [exec, execKnitBreach, on]
  case rail =>
    intro s mv on outside
    simp [exec, execRailOutOfRange, on, outside]
  case temperature =>
    intro s c outside
    simp [exec, execTemperatureTrigger, outside]
  case clock =>
    intro s d outside
    have far : 100 < d.natAbs := by omega
    simp [exec, execClockTrigger, far]
  case tamper =>
    intro s pin d known long
    simp [exec, execTamperIn, known, long]
  case pin =>
    intro s d long
    simp [exec, execZeroizePin, long]
  case idle =>
    intro s idle
    simp [exec, execZeroizeScrubDone, idle]

/-! ### The commands of Proving -/

theorem exec_flashSlotVerify {s : State} {slot : Nat} (content : List Byte) (seeks : seeksImage s = true) (known : slot < 2)
    (turn : s.proving.flashTried = slot) : exec (.flashSlotVerify slot content) s =
      .next (slotVerified (setFlash s slot (slotContent s slot content)) slot (Image.ofBytes (slotContent s slot content))
        (bootReason s (Image.ofBytes (slotContent s slot content)))) := by
  subst turn
  simp only [exec, execFlashSlotVerify, seeks, known, decide_true, Bool.and_self, Bool.not_true, Bool.false_eq_true, if_false]

theorem slotVerified_primary (s : State) (i : Image) : slotVerified s 0 i 0 =
    acceptImage { wr (showReason s 0) Reg.TRUST.IMAGE_STATUS_PRIMARY_REASON 0 with proving := { s.proving with flashTried := 1 } } i 1 := by
  simp only [slotVerified, showReason, if_true, Nat.zero_ne_one, if_false, wr_proving]

theorem slotVerified_fallback (s : State) (i : Image) : slotVerified s 1 i 0 =
    raise (acceptImage { showReason s 0 with proving := { s.proving with flashTried := 2 } } i 2) Reg.TRUST.TRUST_EVENTS_FALLBACK_USED := by
  simp only [slotVerified, showReason, if_true, Nat.one_ne_zero, if_false, wr_proving]

/-- A primary slot that is refused leaves what governs, and the fallback slot as the next to be tried. -/
theorem slotVerified_refused (s : State) (i : Image) {r : Nat} (bad : r ≠ 0) :
    (slotVerified s 0 i r).trust.accepted = s.trust.accepted ∧ (slotVerified s 0 i r).proving.flashTried = 1 := by
  obtain ⟨-, -, trust, -⟩ := (raise_sameWork (wr s Reg.TRUST.IMAGE_STATUS_LAST_REASON r) Reg.TRUST.TRUST_EVENTS_IMAGE_REFUSED).keeps
  simp only [slotVerified, showReason, bad, if_false, if_true, Nat.zero_ne_one, wr_trust]
  exact ⟨congrArg TrustState.accepted trust, trivial⟩

section
variable {s : State} (ready : bootReady s = true)
include ready

theorem exec_bootStep_begins {b : BootStep} (free : s.proving.bootWait = .none) (present : (bootSteps s)[s.proving.bootIndex]? = some b) :
    exec .bootStep s = .next (bootBegin s b) := by
  simp only [exec, execBootStep, ready, free, present, decide_true, Bool.and_self, if_true]

theorem exec_bootStep_ends (free : s.proving.bootWait = .none) (last : (bootSteps s)[s.proving.bootIndex]? = none) :
    exec .bootStep s = .next (bootEnds s) := by
  simp only [exec, execBootStep, ready, free, last, decide_true, Bool.and_self, if_true]

theorem exec_bootWait {t : Nat} (waits : s.proving.bootWait = .delay t) (due : reachable s t = true) :
    exec .bootWait s = .next (bootNext (advanceTo s t)) := by
  simp only [exec, execBootWait, waits, ready, if_true, reach_of_reachable due]
  rfl

theorem exec_i2cWrite (waits : s.proving.bootWait = .ack) :
    exec (.i2cWrite true) s = .next (bootNext s) ∧ exec (.i2cWrite false) s = .next (bootFails s) := by
  simp [exec, execI2cWrite, waits, ready, ok]

theorem exec_i2cPoll {b : BootStep} {t elapsed : Nat} (v : Nat) (waits : s.proving.bootWait = .poll t)
    (present : (bootSteps s)[s.proving.bootIndex]? = some b) (due : reachable s (t + elapsed) = true) : exec (.i2cPoll elapsed (some v)) s =
      .next (bootFinds (advanceTo s (t + elapsed)) b elapsed (decide ((v % 256) &&& bitsOf b.value 15 8 = bitsOf b.value 7 0))) := by
  simp only [exec, execI2cPoll, waits, present, ready, if_true, reach_of_reachable due]

theorem exec_gpioWait {b : BootStep} {t elapsed level : Nat} (waits : s.proving.bootWait = .gpio t)
    (present : (bootSteps s)[s.proving.bootIndex]? = some b) (binary : level < 2) (due : reachable s (t + elapsed) = true) :
    exec (.gpioWait elapsed level) s =
      .next (bootFinds (takeLevel (advanceTo s (t + elapsed)) b.pin level) b elapsed (decide (level = bitOf b.value 0))) := by
  simp only [exec, execGpioWait, waits, present, ready, binary, decide_true, Bool.and_self, if_true, reach_of_reachable due]
end

theorem exec_domainRampDone {s u : State} {d t : Nat} (ramps : s.power.ramping.find? (fun r => r.1 = d) = some (d, t)) (due : reach s t = some u) :
    exec (.domainRampDone d) s =
      .next (startRamps (setDomains { u with power := { u.power with ramping := u.power.ramping.erase (d, t) } }
        (setBit (domainsOn { u with power := { u.power with ramping := u.power.ramping.erase (d, t) } }) d))) := by
  simp only [exec, execDomainRampDone, ramps, due]

/-- The end of a march shows it: BUSY is clear, PASSED tells whether it passed, and the event of its end and that of a failure are raised (R425). -/
def showMarch (s : State) (passed : Bool) : State :=
  raiseAll (wr (wr s Reg.LINING.MARCH_CONTROL_BUSY 0) Reg.LINING.MARCH_CONTROL_PASSED (b2n passed))
    (Reg.LINING.LINING_EVENTS_MARCH_DONE :: if passed then [] else [Reg.LINING.LINING_EVENTS_MARCH_FAIL])

theorem rd_showMarch (s : State) (passed : Bool) : rd (showMarch s passed) Reg.LINING.MARCH_CONTROL_BUSY = 0 ∧
    rd (showMarch s passed) Reg.LINING.MARCH_CONTROL_PASSED = b2n passed := by
  have flags : eventFields ++ (Reg.LINING.LINING_EVENTS_MARCH_DONE :: if passed then [] else [Reg.LINING.LINING_EVENTS_MARCH_FAIL]) ⊆
      eventFields ++ [Reg.LINING.LINING_EVENTS_MARCH_DONE, Reg.LINING.LINING_EVENTS_MARCH_FAIL] := by
    cases passed <;> simp
  have same := (raiseAll_sameBut (wr (wr s Reg.LINING.MARCH_CONTROL_BUSY 0) Reg.LINING.MARCH_CONTROL_PASSED (b2n passed)) _).mono flags
  refine ⟨(same.reads _ (by decide)).trans ?_, (same.reads _ (by decide)).trans ?_⟩
  · rw [rd_wr_ne _ _ (by decide), rd_wr]
    rfl
  · rw [rd_wr]
    cases passed <;> rfl

/-- A march that the host asked for ends with the failing words of its group: their rows are spared, the group is back in its state, and the end is
shown (R425 to R427, log 158). -/
def marchEnds (s : State) (g form st : Nat) (bad : List Nat) : State :=
  let spared := ((failingRows bad).foldl spareFailing (s, [])).1
  let back := setGroup { spared with lining := { spared.lining with march := none } } g st
  showMarch (if form = 1 then clearGroup back g else back) bad.isEmpty

theorem exec_marchDone {s u : State} {g form st ends : Nat} (failing again : List Nat) (march : s.lining.march = some (g, form, st, ends))
    (due : reach s ends = some u) :
    exec (.marchDone failing again) s = .next (marchEnds u g form st (failing.filter (fun w => wordGroup w = g))) := by
  simp only [exec, execMarchDone, march, due]
  rfl

theorem OnlyHost.lining {s t : State} (h : OnlyHost s t) : t.lining = s.lining := by
  obtain ⟨_, _, _, rfl⟩ := h
  rfl

/-- After its end no march runs, BUSY is clear, and PASSED tells whether no word failed. -/
theorem marchEnds_shows (s : State) (g form st : Nat) (bad : List Nat) : (marchEnds s g form st bad).lining.march = none ∧
    rd (marchEnds s g form st bad) Reg.LINING.MARCH_CONTROL_BUSY = 0 ∧
    rd (marchEnds s g form st bad) Reg.LINING.MARCH_CONTROL_PASSED = b2n bad.isEmpty := by
  refine ⟨?_, rd_showMarch _ _⟩
  unfold marchEnds showMarch
  rw [(raiseAll_onlyHost _ _).lining]
  dsimp only
  split <;> rfl

/-- Settles O29, by one rule for each command. -/
theorem provingCommandsComplete : Obligations.ProvingCommandsComplete := by
  refine ⟨fun _ _ => exec_flashSlotVerify, slotVerified_primary, slotVerified_fallback, fun s i _ => slotVerified_refused s i,
    fun _ _ ready => exec_bootStep_begins ready, fun _ ready => exec_bootStep_ends ready, ?wait,
    fun _ ready waits => exec_i2cWrite ready waits, ?poll, ?gpio, ?ramp, ?march, ?go⟩
  case wait =>
    rintro s _ t ready waits due rfl
    exact exec_bootWait ready waits due
  case poll =>
    rintro s _ b t elapsed v ready waits present due rfl
    exact exec_i2cPoll ready v waits present due
  case gpio =>
    rintro s _ b t elapsed level ready waits present binary due rfl
    exact exec_gpioWait ready waits present binary due
  case ramp =>
    rintro s _ d t ramps due rfl
    exact exec_domainRampDone ramps (reach_of_reachable due)
  case march =>
    intro s g form st ends march due
    exact ⟨_, exec_marchDone [] [] march (reach_of_reachable due), marchEnds_shows _ g form st []⟩
  case go =>
    intro s g form up awake powered
    simp [exec, execMarchGo, up, awake, powered]

end Sys2Proof.Machine

/-!
Rooms and legs: what an admission needs and leaves (R105 to R107, R130, R158, R179, R210, R322). The own rule of each admission succeeds exactly where its
`Admissible` condition holds; what it leaves in its table and what exec answers follow from that.
-/

namespace Sys2Proof.Machine

/-! ### Rules that refuse -/

@[simp] theorem notAdmitted_ne_done (t : State) (x y : Nat) : Ruling.notAdmitted ≠ .done t x y := nofun

/-- A rule that refuses on a condition succeeds exactly where the condition fails and the rest of the rule succeeds. -/
@[simp] theorem refuse_if_eq_done {c : Prop} [Decidable c] {status detail x y : Nat} {r : Ruling} {t : State} :
    (if c then .refuse status detail else r) = .done t x y ↔ ¬ c ∧ r = .done t x y := by
  by_cases h : c <;> simp [h]

@[simp] theorem refuse_unless_eq_done {c : Prop} [Decidable c] {status detail x y : Nat} {r : Ruling} {t : State} :
    (if c then r else .refuse status detail) = .done t x y ↔ c ∧ r = .done t x y := by
  by_cases h : c <;> simp [h]

@[simp] theorem notAdmitted_if_eq_done {c : Prop} [Decidable c] {x y : Nat} {r : Ruling} {t : State} :
    (if c then .notAdmitted else r) = .done t x y ↔ ¬ c ∧ r = .done t x y := refuse_if_eq_done

@[simp] theorem notAdmitted_unless_eq_done {c : Prop} [Decidable c] {x y : Nat} {r : Ruling} {t : State} :
    (if c then r else .notAdmitted) = .done t x y ↔ c ∧ r = .done t x y := refuse_unless_eq_done

/-! ### Charges, classification entries and the order of clusters -/

/-- Committing charges changes the ledger alone. -/
theorem commit_eq (s : State) (xs : List NewCharges) : commit s xs = { s with ledger := (commit s xs).ledger } := by
  unfold commit
  induction xs generalizing s with
  | nil => rfl
  | cons x xs ih => exact ih (setCharges s x.kind x.index x.charges)

@[simp] theorem commit_legs (s : State) (xs : List NewCharges) : (commit s xs).legs = s.legs := by rw [commit_eq]
@[simp] theorem commit_effects (s : State) (xs : List NewCharges) : (commit s xs).effects = s.effects := by rw [commit_eq]
@[simp] theorem commit_decodes (s : State) (xs : List NewCharges) : (commit s xs).decodes = s.decodes := by rw [commit_eq]
@[simp] theorem commit_encodes (s : State) (xs : List NewCharges) : (commit s xs).encodes = s.encodes := by rw [commit_eq]
@[simp] theorem commit_mixes (s : State) (xs : List NewCharges) : (commit s xs).mixes = s.mixes := by rw [commit_eq]
@[simp] theorem commit_gauntlet (s : State) (xs : List NewCharges) : (commit s xs).gauntlet = s.gauntlet := by rw [commit_eq]

/-- An entry of the classification table is all that a directive for it adds (R285). -/
theorem insertEntry_frame {s e : State} {path kind target : Nat} {key : List Byte} (made : insertEntry s path kind target key = some e) :
    ∃ c, e = { s with ingress := c } := by
  obtain ⟨k, -, rfl⟩ := Option.map_eq_some_iff.1 made
  exact ⟨_, rfl⟩

theorem participantEntry_frame {s e : State} {i : Nat} {p : PartSpec} (made : participantEntry s i p = some e) : ∃ c, e = { s with ingress := c } := by
  unfold participantEntry at made
  split at made
  · exact ⟨s.ingress, (Option.some.inj made).symm⟩
  · exact insertEntry_frame made

theorem tunnelEntry_frame {s e : State} {i : Nat} {u : TunnelSpec} (made : tunnelEntry s i u = some e) : ∃ c, e = { s with ingress := c } := by
  unfold tunnelEntry at made
  split at made <;> exact insertEntry_frame made

theorem insertBy_perm {α : Type} (f : α → Int) (a : α) (l : List α) : (insertBy f a l).Perm (a :: l) := by
  induction l with
  | nil => exact .refl _
  | cons b l ih =>
    unfold insertBy
    split
    · exact .refl _
    · exact (ih.cons b).trans (.swap a b l)

theorem sortBy_perm {α : Type} (f : α → Int) (l : List α) : (sortBy f l).Perm l := by
  induction l with
  | nil => exact .refl _
  | cons a l ih => exact (insertBy_perm f a _).trans (ih.cons a)

/-! ### The own rules of the admissions -/

theorem admitDecodeRule_done_iff {i : Nat} {d : DecodeSpec} {s t : State} {x y : Nat} : admitDecodeRule i d s = .done t x y ↔
    decodeAdmissible s i d = true ∧ ∃ u, decodePlace s i d = some u ∧
      commit { s with decodes := s.decodes.put i (.fresh d u) } (decodeCost i d u) = t ∧ 0 = x ∧ 0 = y := by
  unfold decodeAdmissible decodePlace decodeCost admitDecodeRule
  cases leg : s.legs.get d.leg with
  | none => simp [legLive, leg]
  | some l =>
    dsimp only
    cases place : placeWork s 1 (chargeOf (decodeBlocks d * d.rate) 8000) 4 (poolQuarter s d.pool) (enginesOf s 0)
        (fun u => [{ kind := 3, index := i, charges := decodeCharges i u (decodeBlocks d) d }]) with
    | inl code => simp
    | inr u => simp [and_assoc]

theorem admitCompositeRule_done_iff {i : Nat} {c : CompositeSpec} {s t : State} {x y : Nat} : admitCompositeRule i c s = .done t x y ↔
    compositeAdmissible s i c = true ∧ ∃ u, compositePlace s i c = some u ∧
      commit { s with composites := s.composites.put i (.fresh c u) } (compositeCost s i c u) = t ∧ 0 = x ∧ 0 = y := by
  unfold compositeAdmissible compositePlace compositeCost admitCompositeRule
  dsimp only
  cases place : placeWork s 3 (chargeOf (c.width * 16 * ceilDiv c.height 16 * c.rate) 8000) 4 (poolQuarter s c.pool) (enginesOf s 2)
      (fun u => [{ kind := 4, index := i, charges := compositeCharges s i u c none }]) with
  | inl code => simp
  | inr u => simp [and_assoc]

theorem admitEncodeRule_done_iff {i : Nat} {e : EncodeSpec} {s t : State} {x y : Nat} : admitEncodeRule i e s = .done t x y ↔
    ∃ size, encodeAdmissible s i e size = true ∧ ∃ u, encodePlace s i e size = some u ∧
      commit { s with encodes := s.encodes.put i (.fresh s e u size) } (encodeCost i e size u) = t ∧ 0 = x ∧ 0 = y := by
  unfold encodeAdmissible encodePlace encodeCost admitEncodeRule
  cases source : sourceSize s e.sourceKind e.source with
  | none => simp
  | some size =>
    dsimp only
    cases place : placeWork s 2 (chargeOf (frameBlocks (spatialLayers e.structure_) size.1 size.2 * e.rate) 8000) 2 (poolQuarter s e.pool) (enginesOf s 1)
        (fun u => [{ kind := 5, index := i, charges := encodeCharges i u (frameBlocks (spatialLayers e.structure_) size.1 size.2) e }]) with
    | inl code => simp +contextual [place, ← and_assoc]
    | inr u => simp [and_assoc, place]

/-- The cluster that a mix is placed on: with the most free encode slots of those that have room (R213). -/
def mixPlace (s : State) (r : Nat) (m : MixSpec) : Option Nat :=
  (sortBy (fun c => -unitRoom s 5 c 256) (enginesOf s 3)).find? (fun u => (overBudget s (mixCost r m u)).isNone)

/-- The state with a mix entered on a cluster. -/
def mixEntered (s : State) (r : Nat) (m : MixSpec) (u : Nat) : State :=
  commit { s with rooms := s.rooms.update r (fun x => { x with mix := true, maxTalkers := m.maxTalkers }), mixes := s.mixes.put r (.fresh u m) } (mixCost r m u)

theorem mixPlace_isSome (s : State) (r : Nat) (m : MixSpec) :
    (mixPlace s r m).isSome = (enginesOf s 3).any (fun u => (overBudget s (mixCost r m u)).isNone) := by
  rw [Bool.eq_iff_iff, mixPlace, List.find?_isSome, List.any_eq_true]
  simp only [(sortBy_perm _ _).mem_iff]

theorem admitMixRule_done_iff {r : Nat} {m : MixSpec} {s t : State} {x y : Nat} : admitMixRule r m s = .done t x y ↔
    mixAdmissible s r m = true ∧ ∃ u, mixPlace s r m = some u ∧ mixEntered s r m u = t ∧ 0 = x ∧ 0 = y := by
  rw [mixAdmissible, ← mixPlace_isSome]
  unfold mixPlace mixEntered mixCost admitMixRule
  dsimp only
  cases place : (sortBy (fun c => -unitRoom s 5 c 256) (enginesOf s 3)).find?
      (fun u => (overBudget s [{ kind := 6, index := r, charges := mixCharges r u m.maxTalkers [] }]).isNone) with
  | none => simp
  | some u => simp [and_assoc]

theorem admitTunnelRule_done_iff {i : Nat} {u : TunnelSpec} {s t : State} {x y : Nat} : admitTunnelRule i u s = .done t x y ↔
    tunnelAdmissible s i u = true ∧ ∃ e, tunnelEntry s i u = some e ∧
      commit { e with gauntlet := { e.gauntlet with tunnels := e.gauntlet.tunnels.put i (.fresh u) } }
        [{ kind := 7, index := i, charges := tunnelCharges s (batchWindow s) i u }] = t ∧ 0 = x ∧ 0 = y := by
  unfold tunnelAdmissible admitTunnelRule
  dsimp only
  cases budget : overBudget s [{ kind := 7, index := i, charges := tunnelCharges s (batchWindow s) i u }] with
  | some code => simp
  | none =>
    cases entry : tunnelEntry s i u with
    | none => simp
    | some e => cases u.pinned <;> simp [and_assoc]

/-- The aggregate of a participant just admitted; one behind a tunnel has none of its own (R339). -/
def freshAggregate (p : PartSpec) (a : AggSpec) : Aggregate :=
  { spec := if p.transport = 2 then { egress := 0, weight := 0, nextHop := 0, vlanOuter := 0, vlanInner := 0 } else a,
    finish := List.replicate 8 0, bytesSent := 0, packetsSent := 0, drops := 0 }

/-- The state with a participant and its aggregate entered, `e` being the one with its classification entry. -/
def participantEntered (e : State) (i : Nat) (p : PartSpec) (a : AggSpec) : State :=
  { e with participants := e.participants.put i (.fresh e p),
           band := { e.band with aggregates := e.band.aggregates.put i (freshAggregate p a) } }

theorem admitParticipantRule_done_iff {i : Nat} {p : PartSpec} {a : AggSpec} {s t : State} {x y : Nat} : admitParticipantRule i p a s = .done t x y ↔
    participantAdmissible s i p = true ∧ ∃ e, participantEntry s i p = some e ∧ participantEntered e i p a = t ∧ 0 = x ∧ 0 = y := by
  unfold participantAdmissible roomTakes admitParticipantRule participantEntered freshAggregate
  cases room : s.rooms.get p.room with
  | none => simp
  | some r =>
    cases tunnel : tunnelRefusal s p with
    | some status => simp
    | none =>
      cases entry : participantEntry s i p with
      | none => simp
      | some e => simp [and_assoc]

/-! ### What is admissible has a free entry and a place -/

theorem participantAdmissible_free {s : State} {i : Nat} {p : PartSpec} (fits : participantAdmissible s i p = true) : s.participants.get i = none := by
  simp_all [participantAdmissible]

theorem decodeAdmissible_free {s : State} {i : Nat} {d : DecodeSpec} (fits : decodeAdmissible s i d = true) : s.decodes.get i = none := by
  simp_all [decodeAdmissible]

theorem compositeAdmissible_free {s : State} {i : Nat} {c : CompositeSpec} (fits : compositeAdmissible s i c = true) : s.composites.get i = none := by
  simp_all [compositeAdmissible]

theorem encodeAdmissible_free {s : State} {i : Nat} {e : EncodeSpec} {size : Nat × Nat} (fits : encodeAdmissible s i e size = true) :
    s.encodes.get i = none := by
  simp_all [encodeAdmissible]

theorem mixAdmissible_free {s : State} {r : Nat} {m : MixSpec} (fits : mixAdmissible s r m = true) : s.mixes.get r = none := by
  simp_all [mixAdmissible]

theorem tunnelAdmissible_free {s : State} {i : Nat} {u : TunnelSpec} (fits : tunnelAdmissible s i u = true) : s.gauntlet.tunnels.get i = none := by
  simp_all [tunnelAdmissible]

theorem decodeAdmissible_placed {s : State} {i : Nat} {d : DecodeSpec} (fits : decodeAdmissible s i d = true) : ∃ u, decodePlace s i d = some u := by
  simp only [decodeAdmissible, Bool.and_eq_true, Option.isSome_iff_exists] at fits
  exact fits.2

theorem compositeAdmissible_placed {s : State} {i : Nat} {c : CompositeSpec} (fits : compositeAdmissible s i c = true) :
    ∃ u, compositePlace s i c = some u := by
  simp only [compositeAdmissible, Bool.and_eq_true, Option.isSome_iff_exists] at fits
  exact fits.2

theorem encodeAdmissible_placed {s : State} {i : Nat} {e : EncodeSpec} {size : Nat × Nat} (fits : encodeAdmissible s i e size = true) :
    ∃ u, encodePlace s i e size = some u := by
  simp only [encodeAdmissible, Bool.and_eq_true, Option.isSome_iff_exists] at fits
  exact fits.2

theorem mixAdmissible_placed {s : State} {r : Nat} {m : MixSpec} (fits : mixAdmissible s r m = true) : ∃ u, mixPlace s r m = some u := by
  simp only [mixAdmissible, ← mixPlace_isSome, Bool.and_eq_true, Option.isSome_iff_exists] at fits
  exact fits.2

/-- The cluster of a mix is in service and has room for it. -/
theorem mixPlace_room {s : State} {r : Nat} {m : MixSpec} {u : Nat} (place : mixPlace s r m = some u) :
    u ∈ enginesOf s 3 ∧ overBudget s (mixCost r m u) = none :=
  ⟨(sortBy_perm _ _).mem_iff.1 (List.mem_of_find?_eq_some place), by simpa using List.find?_some place⟩

theorem participantAdmissible_entered {s : State} {i : Nat} {p : PartSpec} (fits : participantAdmissible s i p = true) :
    ∃ e, participantEntry s i p = some e := by
  simp only [participantAdmissible, Bool.and_eq_true, Option.isSome_iff_exists] at fits
  exact fits.2

theorem tunnelAdmissible_entered {s : State} {i : Nat} {u : TunnelSpec} (fits : tunnelAdmissible s i u = true) : ∃ e, tunnelEntry s i u = some e := by
  simp only [tunnelAdmissible, Bool.and_eq_true, Option.isSome_iff_exists] at fits
  exact fits.2

/-- Settles O15, by the condition of each admission and the entry that its rule makes. -/
theorem admissionsEnterTheirTables : Obligations.AdmissionsEnterTheirTables := by
  refine ⟨?participant, ?decode, ?composite, ?encode, ?mix, ?tunnel⟩
  case participant =>
    intro i p a s t x y done
    obtain ⟨fits, e, made, rfl, -, -⟩ := admitParticipantRule_done_iff.1 done
    obtain ⟨c, rfl⟩ := participantEntry_frame made
    exact ⟨participantAdmissible_free fits, ⟨.fresh { s with ingress := c } p, by simp [participantEntered], rfl, rfl⟩,
      fun j other => by simp [participantEntered, other]⟩
  case decode =>
    intro i d s t x y done
    obtain ⟨fits, u, -, rfl, -, -⟩ := admitDecodeRule_done_iff.1 done
    exact ⟨decodeAdmissible_free fits, ⟨u, by simp⟩, fun j other => by simp [other]⟩
  case composite =>
    intro i c s t x y done
    obtain ⟨fits, u, -, rfl, -, -⟩ := admitCompositeRule_done_iff.1 done
    exact ⟨compositeAdmissible_free fits, ⟨u, by simp⟩, fun j other => by simp [other]⟩
  case encode =>
    intro i e s t x y done
    obtain ⟨size, fits, u, -, rfl, -, -⟩ := admitEncodeRule_done_iff.1 done
    exact ⟨encodeAdmissible_free fits, ⟨.fresh s e u size, by simp, rfl, rfl⟩, fun j other => by simp [other]⟩
  case mix =>
    intro r m s t x y done
    obtain ⟨fits, u, -, rfl, -, -⟩ := admitMixRule_done_iff.1 done
    exact ⟨mixAdmissible_free fits, ⟨.fresh u m, by simp [mixEntered], rfl, rfl⟩, fun j other => by simp [mixEntered, other]⟩
  case tunnel =>
    intro i u s t x y done
    obtain ⟨fits, e, made, rfl, -, -⟩ := admitTunnelRule_done_iff.1 done
    obtain ⟨c, rfl⟩ := tunnelEntry_frame made
    exact ⟨tunnelAdmissible_free fits, by simp, fun j other => by simp [other]⟩

end Sys2Proof.Machine

/-!
The directives put off to a tick boundary and the directives with budget rules (R60, R104, R109, R123, R152, R263, R310, R316, R333, R382, R395 to R398):
the outcome of a directive by how its own rule ends, and that rule for each of them.
-/

namespace Sys2Proof.Machine

/-! ### The outcome of a directive -/

/-- A directive that its own rule paces stays at the head of its ring. -/
theorem evaluate_holds {s : State} {h : DirHeader} {d : Directive} (p : passes s h d = true)
    (rule : ruleOf (entryAt s h d) (checked s h d) d = .hold) : evaluate h d s = .next s := by
  rw [evaluate_of_passes p, rule]

theorem evaluate_refuses {s : State} {h : DirHeader} {d : Directive} {status detail : Nat} (p : passes s h d = true)
    (rule : ruleOf (entryAt s h d) (checked s h d) d = .refuse status detail) :
    evaluate h d s = .next (refuse (checked s h d) (entryAt s h d) status detail) := by
  rw [evaluate_of_passes p, rule]

theorem OnlyHost.effects {s t : State} (h : OnlyHost s t) : t.effects = s.effects := by
  obtain ⟨_, _, _, rfl⟩ := h
  rfl

theorem refuse_onlyHost (s : State) (w : Deferred) (status detail : Nat) : OnlyHost s (refuse s w status detail) := by
  have counted : OnlyHost s (if status = stTokenRefused then bump (bump s Reg.DIRECTIVE.REFUSED) Reg.TRUST.TOKEN_REFUSED else bump s Reg.DIRECTIVE.REFUSED) := by
    split
    · exact (bump_onlyHost _ _).trans (bump_onlyHost _ _)
    · exact bump_onlyHost _ _
  exact counted.trans (complete_onlyHost _ _)

/-- A directive whose own rule refuses it is not put off: no effect waits for it. -/
theorem evaluate_refuses_ne_putOff {s : State} {h : DirHeader} {d : Directive} {status detail : Nat} (p : passes s h d = true)
    (rule : ruleOf (entryAt s h d) (checked s h d) d = .refuse status detail) (info : List Nat) : evaluate h d s ≠ .next (putOff s h d info) := by
  rw [evaluate_refuses p rule]
  intro same
  have effects : (checked s h d).effects = (putOff s h d info).effects :=
    (refuse_onlyHost _ _ _ _).effects.symm.trans (congrArg State.effects (Host.Outcome.next.inj same))
  simp [putOff, answered, (complete_onlyHost _ _).effects, later] at effects

/-! ### A Port-ID entry that is not counted -/

/-- The host side of a device whose directive ring holds one entry to evaluate. -/
def ringsOpen (s : State) : State :=
  wrAll { s with mode := .serving, host := { s.host with linkUp := true } }
    [(dirRing.enable, 1), (dirRing.size, 3), (cplRing.enable, 1), (cplRing.size, 3), (dirRing.tail, 1)]

/-- A directive header that asks for nothing beside its directive. -/
def plainHeader : DirHeader := { tag := 0, interrupt := false, authAt := 0, authBlock := [], extAt := 0, bufferAt := 0, reserved := [] }

/-- An OMCI record that lets the host hold one Port-ID entry. -/
def onePortId : OmciLimits := { OmciLimits.absent with maxPortIds := 1 }

/-- A Port-ID entry that the host has set with bit 1 of its FLAGS, the mark of OMCI. -/
def hostOmciEntry : PonPortId := { portId := 7, direction := 2, queue := 0, flags := 3, frames := 0 }

/-- PON_A is enabled, the one entry that the host may hold is taken by `hostOmciEntry`, and the port has no ONU-ID. -/
def portIdsTaken : State :=
  let s := wr (ringsOpen State.reset) (Reg.PON.PON_CONFIG_MODE.on 0) 1
  { s with pon := { s.pon with portA := { s.pon.portA with portIds := [(0, hostOmciEntry)] } },
           trust := { s.trust with current := { s.trust.current with policy := [.omciLimits onePortId] } } }

/-- Port-ID 100 set in a second entry of PON_A. -/
def secondPortId : Directive := .setPonPort 0 1 100 2 0 1

theorem secondPortId_passes : passes portIdsTaken plainHeader secondPortId = true := rfl

theorem secondPortId_admissible : ponEntryAdmissible (checked portIdsTaken plainHeader secondPortId) 0 1 100 2 0 1 = true := rfl

theorem secondPortId_denied : setPonPortRule 0 1 100 2 0 1 (checked portIdsTaken plainHeader secondPortId) = .refuse stPolicyDenied 0 := rfl

/-- Refutes O10 in its clause for set-pon-port. Its condition leaves every entry with bit 1 of FLAGS out of the count against MAX_PORT_IDS; the rule of
R382 and R396 leaves out only the entry that the device itself has written, so it still counts `hostOmciEntry` and refuses `secondPortId`. -/
theorem not_lateDirectivesComplete : ¬ Obligations.LateDirectivesComplete := by
  intro late
  obtain ⟨-, -, -, -, -, -, -, -, -, -, -, -, -, setPonPort, -⟩ := late
  exact evaluate_refuses_ne_putOff secondPortId_passes secondPortId_denied [] (setPonPort _ _ 0 1 100 2 0 1 secondPortId_passes secondPortId_admissible)

/-! ### Legs -/

theorem insertLeg_legs (s : State) (l : Nat) (x : LegSpec) (area : Nat) (cs : List NewCharges) (formats : Option (Nat × Mix × List (Option MixFormat)))
    (cluster : Nat) : (insertLeg s l x area cs formats cluster).legs = s.legs.put l (.fresh s x area) := by
  unfold insertLeg
  dsimp only
  cases formats <;> split <;> simp

/-- A mix takes the format of a leg that fits it, and refuses no other leg. -/
theorem formatFits_taken {s : State} {x : LegSpec} (fits : formatFits s x = true) :
    ((mixOfLeg s x).map (fun rm => (rm.1, rm.2, addFormat rm.2.formats x.codec x.rate))).map (fun f => f.2.2.isNone) ≠ some true := by
  unfold formatFits at fits
  cases mix : mixOfLeg s x with
  | none => simp
  | some rm =>
    obtain ⟨formats, added⟩ : ∃ fs, addFormat rm.2.formats x.codec x.rate = some fs := by simpa [mix, Option.isSome_iff_exists] using fits
    simp [added]

theorem formatsOf_eq (s : State) (x : LegSpec) :
    ((mixOfLeg s x).map (fun rm => (rm.1, rm.2, addFormat rm.2.formats x.codec x.rate))).map (fun f => (f.1, f.2.1, f.2.2.getD [])) = formatsOf s x := by
  simp [formatsOf, Function.comp_def]

/-- What `legFits` finds: the participant and its mix take the leg, its SSRCs are new, its format fits, and its area, a cluster and its classification
entries have room. -/
theorem legFits_finds {s : State} {l : Nat} {x : LegSpec} {a : PartSpec} (fits : legFits s l x a = true) :
    ((legsOfPart s x.participant).length < 256 ∧ mixBars s x = false) ∧
    ((expectedSsrcs x).any (ssrcsOf s (ssrcHolder x.participant a) l).contains = false ∧ (decide (x.kind = 0) && x.rtx && decide (x.ssrc = x.rtxSsrc)) = false) ∧
    formatFits s x = true ∧ (∃ area, placeRtx s l x = some area) ∧
    (∃ c, (legClusters s x).find? (fun c => (overBudget s (admitLegCharges s l x a (formatsOf s x) c)).isNone) = some c) ∧
    ∃ e, legEntriesOf s l (ssrcHolder x.participant a) (expectedSsrcs x) = some e := by
  simp only [legFits, Bool.and_eq_true, decide_eq_true_eq, Bool.not_eq_true', Option.isSome_iff_exists, List.any_eq_true] at fits
  obtain ⟨⟨⟨⟨⟨⟨⟨count, single⟩, unexpected⟩, distinct⟩, format⟩, area⟩, room⟩, entries⟩ := fits
  exact ⟨⟨count, single⟩, ⟨unexpected, distinct⟩, format, area, Option.isSome_iff_exists.1 (List.find?_isSome.2 room), entries⟩

/-- A leg as it is admitted: a FORWARDED one with the PACKET_SIZE of its source (R525). -/
def sized (s : State) (x : LegSpec) : LegSpec := { x with packetSize := packetSizeOf s x }

theorem admitLegRule_admissible {s : State} {l : Nat} {x : LegSpec} (fits : legAdmissible s l x = true) : ∃ e area cs formats c,
    admitLegRule l x s = .done (insertLeg e l (sized s x) area cs formats c) 0 0 := by
  unfold legAdmissible at fits
  cases participant : s.participants.get x.participant with
  | none => simp [participant] at fits
  | some a =>
    simp only [participant, Option.map_some, Option.getD_some, Bool.and_eq_true, decide_eq_true_eq, Option.isNone_iff_eq_none] at fits
    obtain ⟨⟨free, source⟩, ⟨active, room⟩, fits⟩ := fits
    obtain ⟨⟨count, single⟩, ⟨unexpected, distinct⟩, format, ⟨area, placed⟩, ⟨c, chosen⟩, e, entries⟩ := legFits_finds fits
    have taken := formatFits_taken format
    have formats := formatsOf_eq s (sized s x)
    refine ⟨e, area, admitLegCharges s l (sized s x) a.spec (formatsOf s (sized s x)) c, formatsOf s (sized s x), c, ?_⟩
    unfold expectedSsrcs at unexpected entries
    unfold legClusters at chosen
    unfold sized at formats ⊢
    unfold admitLegRule
    dsimp only at *
    rw [free, participant]
    dsimp only
    rw [if_neg (by simp), if_neg (by simp [active]), if_neg (by simp [room]), source]
    dsimp only
    rw [if_neg (by simp [single, count]), if_neg (by simp only [unexpected, distinct]; simp), if_neg taken, placed]
    dsimp only
    rw [formats, chosen]
    dsimp only
    rw [entries]

/-- A set-leg that leaves RTX as it is and fits waits for the next boundary. -/
theorem setLegRule_changeable {s : State} {l : Nat} {c : LegChange} (fits : legChangeable s l c = true) :
    ∃ t, setLegRule l c s = .done t 0 0 ∧ t.effects.length = s.effects.length + 1 := by
  unfold legChangeable at fits
  cases here : s.legs.get l with
  | none => simp [here] at fits
  | some x =>
    simp only [here, Option.map_some, Option.getD_some, Bool.and_eq_true, decide_eq_true_eq] at fits
    obtain ⟨live, ⟨rtx, format⟩, charged⟩ := fits
    cases area : areaNext s l c x with
    | none => simp [area] at charged
    | some a =>
      simp only [area, Option.map_some, Option.getD_some, Option.isNone_iff_eq_none] at charged
      have taken := formatFits_taken format
      have formats := formatsOf_eq s (legNext s l c x.spec)
      unfold areaNext at area
      unfold legNext at area rtx taken formats charged
      unfold setLegRule
      simp only [here, live, rtx, Bool.not_true, Bool.false_eq_true, if_false]
      simp only [Bool.and_assoc, Bool.and_not_self, Bool.and_false, Bool.false_and, Bool.false_eq_true, if_false]
      rw [if_neg taken, formats, area]
      dsimp only
      rw [charged]
      refine ⟨_, rfl, ?_⟩
      rw [commit_effects]
      cases formatsOf s (futureSpec (later s (.setLeg l c) []) l x.spec) <;> simp [later]

theorem startThreadRule_placed {s : State} {entry cluster t u : Nat} {e : CodeEntry} (arg : Nat) (known : entryOf s.trust.current entry = some e)
    (serves : cluster = 255 ∨ inServiceEngine s 3 cluster = true) (next : nextThread s = some t) (placed : threadPlace s t e.cost cluster = some u) :
    startThreadRule entry cluster arg s = .done (later (commit s (threadCost t e.cost u)) (.startThread entry cluster arg) [t, u]) 0 t := by
  have named : ¬ (cluster ≠ 255 && !inServiceEngine s 3 cluster) = true := by
    obtain rfl | serves := serves
    · simp
    · simp [serves]
  have place := Sum.getRight?_eq_some_iff.1 placed
  unfold nextThread at next
  unfold threadCost at place ⊢
  unfold startThreadRule
  rw [known]
  dsimp only
  rw [if_neg named, next]
  dsimp only
  rw [place]
  rfl

theorem sendOmciRule_admissible {s : State} {port : Nat} (message : List Byte) (fits : omciAdmissible s port = true) : sendOmciRule port message s =
    .done (later (withPon s port (fun x => { x with omciTimes := nowNs s :: omciRecent s port })) (.sendOmci port message) []) 0 0 := by
  simp only [omciAdmissible, Bool.and_eq_true, decide_eq_true_eq] at fits
  obtain ⟨⟨named, o5⟩, room⟩ := fits
  simp [sendOmciRule, named, o5, Nat.not_le.2 room, Ruling.atBoundary]

theorem ponTimeOfDayRule_admissible {s : State} {port : Nat} (superframe seconds nanoseconds : Nat) (fits : todAdmissible s port = true) :
    ∃ t, ponTimeOfDayRule port superframe seconds nanoseconds s = .done t 0 0 := by
  simp only [todAdmissible, Bool.and_eq_true, decide_eq_true_eq] at fits
  obtain ⟨named, allowed⟩ := fits
  cases stamp : psyncStamp s (livePort s port) superframe with
  | none => exact ⟨_, by simp [ponTimeOfDayRule, named, allowed, stamp]; rfl⟩
  | some n => exact ⟨_, by simp [ponTimeOfDayRule, named, allowed, stamp]; rfl⟩

/-! ### Statistics -/

section
variable {s : State} {kind i what : Nat} (w : Deferred) (dest : Nat) (allowed : exportAllows s what = true)
include allowed

theorem readStatisticsRule_none (none : statisticsBuffer s kind i = some none) : readStatisticsRule w kind i what dest s = .done s 0 0 := by
  simp [readStatisticsRule, none, allowed]

theorem readStatisticsRule_short {b : Nat} (here : statisticsBuffer s kind i = some (some b)) (short : statisticsLength s kind i what ≤ 65536) :
    readStatisticsRule w kind i what dest s =
      .done (exchangeWrite (dropHold (takeHold s b) b) dest (statisticsPiece s b what 0)) 0 (statisticsLength s kind i what) := by
  simp only [statisticsLength, here] at short ⊢
  simp [readStatisticsRule, here, allowed, short]

theorem readStatisticsRule_long {b : Nat} (here : statisticsBuffer s kind i = some (some b)) (long : 65536 < statisticsLength s kind i what) :
    ∃ t, readStatisticsRule w kind i what dest s = .silent t ∧ t.host.deferred = (takeHold s b).host.deferred ++ [w] ∧
      t.host.copies.length = (takeHold s b).host.copies.length + 1 := by
  simp only [statisticsLength, here] at long
  refine ⟨_, by simp [readStatisticsRule, here, allowed, Nat.not_le.2 long]; rfl, rfl, ?_⟩
  simp [defer]
end

/-! ### Key tokens -/

theorem installKey_accepts {s : State} {k : KeyToken} (put : Nat → State) (free : (freeEntry s k.target).isSome = true) :
    ∃ t x, installKey s k put = .done (bump t Reg.TRUST.TOKEN_ACCEPTED) 0 x := by
  obtain ⟨e, here⟩ := Option.isSome_iff_exists.1 free
  exact ⟨_, e, by rw [installKey, here]; rfl⟩

/-- A token that is taken up is accepted: its key has no entry, replaces the one of an entry, or goes to a free one (R310, R316, R333). -/
theorem deliverKeyTokenRule_taken {s : State} (w : Deferred) {token : List Byte} (length : Nat) {k : KeyToken} (read : readToken s.trust.keks token = k)
    (ready : tokenWaits s k.kind = false) (taken : tokenTaken (countToken s k.kind) k = true)
    (released : k.usage ≠ 3 ∨ tunnelHolds (countToken s k.kind) k.target = false) :
    ∃ t x, deliverKeyTokenRule w token length s = .done (bump t Reg.TRUST.TOKEN_ACCEPTED) 0 x := by
  simp only [tokenTaken, Bool.and_eq_true, decide_eq_true_eq, Bool.or_eq_true] at taken
  obtain ⟨good, placed⟩ := taken
  unfold deliverKeyTokenRule
  simp only [read, ready, good, Bool.false_eq_true, if_false, ne_eq, not_true_eq_false]
  by_cases kek : k.usage = 5
  · rw [if_pos kek]
    exact ⟨_, _, rfl⟩
  rw [if_neg kek]
  cases old : replacedBy (countToken s k.kind) k with
  | some e => exact ⟨_, _, rfl⟩
  | none =>
    have free : (freeEntry (countToken s k.kind) k.target).isSome = true := by
      obtain site | free := released <;> simp_all
    dsimp only
    by_cases site : k.usage = 3
    · rw [if_pos site, if_neg (by simp [released.resolve_left (not_not_intro site)])]
      exact installKey_accepts _ free
    · rw [if_neg site]
      split <;> exact installKey_accepts _ free

theorem deliverKeyTokenRule_refused {s : State} (w : Deferred) {token : List Byte} (length : Nat) {k : KeyToken} (read : readToken s.trust.keks token = k)
    (ready : tokenWaits s k.kind = false) (bad : tokenReason (countToken s k.kind) k ≠ 0) :
    deliverKeyTokenRule w token length s = .refuse stTokenRefused (tokenReason (countToken s k.kind) k) := by
  simp [deliverKeyTokenRule, read, ready, bad]

/-- Settles O11, by the own rule of each directive. -/
theorem admissionDirectivesComplete : Obligations.AdmissionDirectivesComplete := by
  refine ⟨?participant, ?leg, ?setLeg, ?decode, ?composite, ?encode, ?mix, ?tunnel, ?thread, ?omci, ?tod, ?noPicture, ?copied, ?copying, ?token,
    fun _ _ _ _ _ _ _ p rule => evaluate_done p rule, fun _ _ _ _ _ _ _ p rule => evaluate_done p rule,
    fun _ _ _ _ _ _ _ _ _ _ _ p rule => evaluate_done p rule, ?anyToken⟩
  case participant =>
    rintro s _ h i x a p rfl fits
    obtain ⟨e, made⟩ := participantAdmissible_entered fits
    have rule := admitParticipantRule_done_iff.2 ⟨fits, e, made, rfl (a := participantEntered e i x a), rfl, rfl⟩
    exact ⟨_, .fresh e x, rule, by simp [participantEntered], rfl, rfl, evaluate_done p rule⟩
  case leg =>
    rintro s _ h l x p rfl fits
    obtain ⟨e, area, cs, formats, c, rule⟩ := admitLegRule_admissible fits
    exact ⟨_, .fresh e (sized _ x) area, rule, by simp [insertLeg_legs], rfl, rfl, evaluate_done p rule⟩
  case setLeg =>
    rintro s _ h l c p rfl fits
    obtain ⟨t, rule, later⟩ := setLegRule_changeable fits
    exact ⟨t, rule, later, evaluate_done p rule⟩
  case decode =>
    rintro s _ h i d p rfl fits
    obtain ⟨u, place⟩ := decodeAdmissible_placed fits
    exact ⟨u, place, evaluate_done p (admitDecodeRule_done_iff.2 ⟨fits, u, place, rfl, rfl, rfl⟩)⟩
  case composite =>
    rintro s _ h i c p rfl fits
    obtain ⟨u, place⟩ := compositeAdmissible_placed fits
    exact ⟨u, place, evaluate_done p (admitCompositeRule_done_iff.2 ⟨fits, u, place, rfl, rfl, rfl⟩)⟩
  case encode =>
    rintro s _ h i e size p rfl fits
    obtain ⟨u, place⟩ := encodeAdmissible_placed fits
    exact ⟨u, place, evaluate_done p (admitEncodeRule_done_iff.2 ⟨size, fits, u, place, rfl, rfl, rfl⟩)⟩
  case mix =>
    rintro s _ h r m p rfl fits
    obtain ⟨u, place⟩ := mixAdmissible_placed fits
    obtain ⟨listed, budget⟩ := mixPlace_room place
    exact ⟨u, listed, budget, evaluate_done p (admitMixRule_done_iff.2 ⟨fits, u, place, rfl, rfl, rfl⟩)⟩
  case tunnel =>
    rintro s _ h i u p rfl fits
    obtain ⟨e, made⟩ := tunnelAdmissible_entered fits
    exact ⟨e, made, evaluate_done p (admitTunnelRule_done_iff.2 ⟨fits, e, made, rfl, rfl, rfl⟩)⟩
  case thread =>
    rintro s _ h entry cluster arg t u e p rfl known serves next placed
    have rule := startThreadRule_placed arg known serves next placed
    exact evaluate_done p rule
  case omci =>
    rintro s _ h port message p rfl fits
    exact evaluate_done p (sendOmciRule_admissible message fits)
  case tod =>
    rintro s _ h port superframe seconds nanoseconds p rfl fits
    obtain ⟨t, rule⟩ := ponTimeOfDayRule_admissible superframe seconds nanoseconds fits
    exact ⟨t, rule, evaluate_done p rule⟩
  case noPicture =>
    rintro s _ h kind i what dest p rfl allowed none
    exact evaluate_done p (readStatisticsRule_none _ dest allowed none)
  case copied =>
    rintro s _ h kind i what dest b p rfl allowed here short
    exact evaluate_done p (readStatisticsRule_short _ dest allowed here short)
  case copying =>
    rintro s _ h kind i what dest b p rfl allowed here long
    obtain ⟨t, rule, deferred, copies⟩ := readStatisticsRule_long (entryAt s h (.readStatistics kind i what dest)) dest allowed here long
    exact ⟨t, evaluate_silent p rule, deferred, copies⟩
  case token =>
    rintro s _ h token length k p rfl read ready
    split
    · next bad => exact evaluate_refuses p (deliverKeyTokenRule_refused _ length read.symm ready bad)
    · split
      · next taken =>
        obtain ⟨t, x, rule⟩ := deliverKeyTokenRule_taken (entryAt s h (.deliverKeyToken token length)) length read.symm ready taken.1 taken.2
        exact ⟨t, x, evaluate_done p rule⟩
      · exact ⟨_, rfl⟩
  case anyToken =>
    intro s h token length p
    cases rule : deliverKeyTokenRule (entryAt s h (.deliverKeyToken token length)) token length (checked s h (.deliverKeyToken token length)) with
    | hold => exact evaluate_holds p rule
    | refuse status detail => exact evaluate_refuses p rule
    | done t detail result => exact evaluate_done p rule
    | silent t => exact evaluate_silent p rule

end Sys2Proof.Machine

/-!
The queries of the host (R452, R455), and the feedback, keyframe requests and repair of the legs (R108, R114 to R121): one rule for each command.
-/

namespace Sys2Proof.Machine

/-! ### Queries -/

theorem goQuery_accepted {s : State} {index bits : Nat} (off rest : Nat) (reads : hostReads s = true) (fits : index < 2 ^ bits) :
    goQuery s off index bits rest = .next (regWrite s off (index + rest)) := by
  simp [goQuery, reads, fits]

theorem startQuery_idle {s : State} {q : Nat} (v : Nat) (idle : s.host.queries.any (fun g => g.1 = q) = false) :
    (startQuery s q v).host.queries = s.host.queries ++ [(q, v)] := by
  rw [startQuery, idle]
  rfl

theorem startQuery_busy {s : State} {q : Nat} (v : Nat) (busy : s.host.queries.any (fun g => g.1 = q) = true) : startQuery s q v = s := if_pos busy

/-- Settles O19: each query command is the write of GO. -/
theorem queriesComplete : Obligations.QueriesComplete := by
  refine ⟨fun _ _ _ => goQuery_accepted _ _, fun _ _ _ => goQuery_accepted _ _, fun _ _ _ => goQuery_accepted _ _, fun _ _ => goQuery_accepted _ _,
    fun _ _ _ => goQuery_accepted _ _, fun _ _ => goQuery_accepted _ _, fun _ _ _ => goQuery_accepted _ _, fun _ _ => goQuery_accepted _ _,
    fun _ _ => goQuery_accepted _ _, fun _ _ _ => goQuery_accepted _ _, ?pon, ?nearmem, fun _ _ v => startQuery_idle v, fun _ _ v => startQuery_busy v⟩
  case pon =>
    intro s port index reads known fits
    exact (if_pos known).trans (goQuery_accepted _ _ reads fits)
  case nearmem =>
    intro s stack kind index reads known fits
    exact (if_pos known).trans (goQuery_accepted _ _ reads fits)

/-! ### What has been asked for, and the clock -/

/-- What a participant asks for is acted on once: it is gone afterwards, and nothing else of the participant changes. -/
theorem takeFeedback_asked {s : State} {p : Nat} {f : Feedback} {a : Participant} (here : s.participants.get p = some a)
    (asked : a.feedback.contains f = true) : ∃ t, takeFeedback s p f = some t ∧
      t.participants.get p = some { a with feedback := a.feedback.erase f } ∧ inService t = inService s :=
  ⟨updPart s p (fun a => { a with feedback := a.feedback.erase f }), by simp only [takeFeedback, here, asked, if_true], by simp [updPart, here], rfl⟩

theorem reach_reachable {s : State} {t : Nat} (due : reachable s t = true) : reach s t = some (advanceTo s t) := if_pos due

@[simp] theorem advanceTo_participants (s : State) (t : Nat) : (advanceTo s t).participants = s.participants := by
  unfold advanceTo
  split <;> rfl

theorem OnlyHost.participants {s t : State} (h : OnlyHost s t) : t.participants = s.participants := by
  obtain ⟨_, _, _, rfl⟩ := h
  rfl

/-! ### Keyframe requests and NACKs -/

section
variable {s : State} {l : Nat} {x : Leg}

theorem exec_keyframeRequest {t : State} {fir : Bool} (here : s.legs.get l = some x) (service : inService s = true) (active : x.state = .active)
    (sends : x.spec.kind ≠ 0) (asked : takeFeedback s x.spec.participant (.keyframe l fir) = some t) :
    exec (.keyframeRequest l fir) s = .next (requestKeyframe t x.spec.source fir) := by
  simp [exec, execKeyframeRequest, here, asked, service, active, sends]

theorem exec_nackReceived {t : State} {seqs : List Nat} (here : s.legs.get l = some x) (service : inService s = true) (active : x.state = .active)
    (sends : x.spec.kind ≠ 0) (asked : takeFeedback s x.spec.participant (.nack l seqs) = some t) :
    exec (.nackReceived l seqs) s = .next (seqs.foldl (fun s q => answerNack s l (q % 65536)) t) := by
  simp [exec, execNackReceived, here, asked, service, active, sends]

theorem exec_keyframePendingExpiry {u : State} {sender t firs : Nat} {fir : Bool}
    (waits : keyframeOf s sender = some { last := some t, pending := true, fir := fir, firs := firs }) (due : reach s (t + 200000000) = some u) :
    exec (.keyframePendingExpiry sender) s = .next (sendKeyframe u sender) := by
  change execKeyframePendingExpiry sender s = _
  unfold execKeyframePendingExpiry
  -- as in `keeps_execTrainingSetExpiry`: the kernel would count up to the number
  obtain ⟨wait, e⟩ : ∃ n, 200000000 = n := ⟨_, rfl⟩
  rw [e] at due ⊢
  simp only [waits, due]

theorem exec_layerRaiseWait {u : State} {t : Nat} (here : s.legs.get l = some x) (raises : x.raiseSince = some t) (active : x.state = .active)
    (service : inService s = true) (first : x.raiseAsked = false) (due : reach s (t + 500000000) = some u) : exec (.layerRaiseWait l) s =
      .next (requestKeyframe (updLeg u l (fun y => { y with raiseAsked := true })) x.spec.source false) := by
  simp [exec, execLayerRaiseWait, here, raises, active, service, first, due]

theorem exec_nackUpTimer {u : State} {g : Gap} (here : s.legs.get l = some x) (gap : x.gaps.find? (fun g => !g.nacked) = some g) (active : x.state = .active)
    (nacks : x.spec.nackUp = true) (service : inService s = true) (due : reach s (g.seen + 5000000) = some u) : exec (.nackUpTimer l) s =
      .next (queueNack (updLeg u l (fun y => { y with gaps := y.gaps.map (fun h =>
          if (x.gaps.filter (fun h => !h.nacked && decide (h.seen + 5000000 ≤ nowNs u))).contains h then { h with nacked := true } else h) })) l x.spec
        ((x.gaps.filter (fun h => !h.nacked && decide (h.seen + 5000000 ≤ nowNs u))).map (·.seq))) := by
  simp only [exec, execNackUpTimer, here, gap, active, nacks, service, due]
  rfl
end

/-! ### The estimate of a participant -/

section
variable {s u : State} {p : Nat} {a : Participant} (here : s.participants.get p = some a) (service : inService s = true) (active : a.state = .active)
  (srtp : a.spec.transport ≠ 2)
include here service active srtp

theorem exec_feedbackReport {items : List FeedbackItem} (asked : a.feedback.contains (.report items) = true) :
    ∃ t b, takeFeedback s p (.report items) = some t ∧ t.participants.get p = some b ∧ b.spec = a.spec ∧
      exec (.feedbackReport p items) s = .next { t with participants := t.participants.put p (updateEstimate t b (matchItems b items)) } := by
  obtain ⟨t, taken, stands, still⟩ := takeFeedback_asked here asked
  refine ⟨t, _, taken, stands, rfl, ?_⟩
  simp [exec, execFeedbackReport, taken, stands, still, service, active, srtp]

theorem exec_feedbackStale_least (due : reach s a.staleAt = some u) (least : a.nextEstimate.getD a.estimate ≤ a.spec.minRate) :
    exec (.feedbackStale p) s = .next { u with participants := u.participants.put p { a with staleAt := a.staleAt + 500000000 } } := by
  simp [exec, execFeedbackStale, here, service, active, srtp, due, least]

/-- A participant after 500 ms without a report: its estimates are halved, the one to come not below MIN_RATE (R114). -/
def halved (a : Participant) : Participant :=
  { a with staleAt := a.staleAt + 500000000, nextEstimate := some (max a.spec.minRate (roundOf (a.nextEstimate.getD a.estimate) 2)),
           estD := roundOf a.estD 2, estL := roundOf a.estL 2 }

theorem exec_feedbackStale_halves (due : reach s a.staleAt = some u) (above : a.spec.minRate < a.nextEstimate.getD a.estimate) :
    ∃ t, exec (.feedbackStale p) s = .next t ∧ OnlyHost { u with participants := u.participants.put p (halved a) } t := by
  have step : exec (.feedbackStale p) s = .next
      (let t := bump { u with participants := u.participants.put p (halved a) } Reg.LEGS.FEEDBACK_STALE
       if max a.spec.minRate (roundOf (a.nextEstimate.getD a.estimate) 2) = a.spec.minRate then raise t Reg.LEGS.LEGS_EVENTS_FEEDBACK_LOST else t) := by
    simp only [exec, execFeedbackStale, here, service, due, Nat.not_le.2 above]
    simp [active, srtp, halved]
  refine ⟨_, step, ?_⟩
  dsimp only
  split
  · exact (bump_onlyHost _ _).trans (raise_onlyHost _ _)
  · exact bump_onlyHost _ _

end

/-- Settles O37, by one rule for each command. -/
theorem legCommandsComplete : Obligations.LegCommandsComplete := by
  refine ⟨?keyframe, ?pending, ?raising, ?nackUp, ?nack, ?report, ?stale, ?least⟩
  case keyframe =>
    intro s l x fir here service active sends asked
    obtain ⟨t, asked⟩ := Option.isSome_iff_exists.1 asked
    exact ⟨t, asked, exec_keyframeRequest here service active sends asked⟩
  case pending =>
    rintro s _ sender t fir firs waits due rfl
    exact exec_keyframePendingExpiry waits (reach_reachable due)
  case raising =>
    rintro s _ l t x here raises active service first due rfl
    exact exec_layerRaiseWait here raises active service first (reach_reachable due)
  case nackUp =>
    rintro s _ l x g here gap active nacks service due rfl
    exact exec_nackUpTimer here gap active nacks service (reach_reachable due)
  case nack =>
    intro s l x seqs here service active sends asked
    obtain ⟨t, asked⟩ := Option.isSome_iff_exists.1 asked
    exact ⟨t, asked, exec_nackReceived here service active sends asked⟩
  case report =>
    intro s p items a here asked service active srtp
    exact exec_feedbackReport here service active srtp asked
  case stale =>
    rintro s _ p a here service active srtp due rfl above
    obtain ⟨t, step, only⟩ := exec_feedbackStale_halves here service active srtp (reach_reachable due) above
    have parts : t.participants = s.participants.put p (halved a) := by simp [only.participants]
    exact ⟨t, halved a, step, by simp [parts], rfl, rfl, rfl, fun q other => by simp [parts, other]⟩
  case least =>
    rintro s _ p a here service active srtp due rfl least
    exact exec_feedbackStale_least here service active srtp (reach_reachable due) least

end Sys2Proof.Machine

/-!
The commands of the audio engines (R213 to R217, R220, R229): one rule for each command.
-/

namespace Sys2Proof.Machine

theorem exec_audioPacket {s : State} {l : Nat} {p : ArrivedPacket} {rest : List ArrivedPacket} {x : Leg} {a : AudioSource} (leg : s.legs.get l = some x)
    (source : s.audio.get l = some a) (arrived : a.arrived = p :: rest) (service : inService s = true) (receives : x.state = .active)
    (active : a.state = .active) : exec (.audioPacket l p.seq) s = .next (placePacket s l x.spec.codec { a with arrived := rest } p) := by
  simp [exec, execAudioPacket, leg, source, arrived, service, receives, active]

section
variable {s : State} {l : Nat} {x : AudioSource} (here : s.audio.get l = some x) (service : inService s = true) (active : x.state = .active)
include here service active

theorem exec_jbRecompute {u : State} (due : reach s (x.lastRecompute + 100000000) = some u) : exec (.jbRecompute l) s =
    .next { u with audio := u.audio.put l { x with jbTarget := jbTargetOf u x, lastRecompute := x.lastRecompute + 100000000 } } := by
  simp [exec, execJbRecompute, here, service, active, due]

theorem exec_comfortNoise (quiet : x.noise = false) (concealed : rd s Reg.AUDIO.AUDIO_CONFIG_CONCEAL_LIMIT ≤ x.concealRun) :
    exec (.comfortNoise l) s =
      .next (raise { s with audio := s.audio.put l { x with noise := true, fade := 0 } } Reg.AUDIO.AUDIO_EVENTS_COMFORT_NOISE) := by
  simp [exec, execComfortNoise, here, service, active, quiet, concealed]

end

/-! ### The mix periods of a room -/

section
variable {s : State} {room : Nat} {r : Room} (here : s.rooms.get room = some r) (service : inService s = true)
include here service

theorem exec_mixPeriod_metersOnly (cluster : Nat) (noMix : s.mixes.get room = none) (begun : s.time.mixCount ≠ 0)
    (first : s.time.once.get (1000 + room) ≠ some s.time.mixCount) (ready : sourcesReady s room s.time.mixCount = true) :
    exec (.mixPeriod room cluster) s =
      .next (meterRoom { s with time := { s.time with once := s.time.once.put (1000 + room) s.time.mixCount } } room s.time.mixCount) := by
  simp [exec, execMixPeriod, here, service, noMix, begun, first, ready]

theorem exec_mixPeriod_mixes {k i : Nat} {m : Mix} {rest : List (Nat × Nat)} (mix : s.mixes.get room = some m) (active : m.state = .active)
    (next : m.periods = (k, i) :: rest) (ready : sourcesReady s room k = true) :
    exec (.mixPeriod room m.home) s = .next (runMix (meterRoom s room k) room m k i) := by
  simp [exec, execMixPeriod, here, service, mix, Option.filter, active, next, ready]

end

/-! ### The codec engines -/

section
variable {s : State} {cluster : Nat} (service : inService s = true) (known : cluster < 8) (usable : inServiceEngine s 3 cluster = true)
include service known usable

theorem exec_codecBatchDone_decoded (leg : Nat) (poisoned : Bool) : exec (.codecBatchDone cluster [.decoded leg poisoned]) s =
    .next (wakeEvent (codecJob s cluster (.decoded leg poisoned)) cluster 2) := by
  simp [exec, execCodecBatchDone, service, known, usable]

theorem exec_codecBatchDone_encoded (room format slot : Nat) : exec (.codecBatchDone cluster [.encoded room format slot]) s =
    .next (wakeEvent (codecJob s cluster (.encoded room format slot)) cluster 3) := by
  simp [exec, execCodecBatchDone, service, known, usable]

end

/-! ### The talker export -/

theorem exec_talkerExportWrite {s u : State} {room off : Nat} {m : Mix} (here : s.mixes.get room = some m) (exported : m.recordAt = some off)
    (service : inService s = true) (changed : m.recordDirty = true) (allowed : bitOf (exportBits s) 3 = 1)
    (due : reach s (m.recordWritten + 100000000) = some u) :
    ∃ t, exec (.talkerExportWrite room) s = .next t ∧ t.mem = (exchangeWrite u off (talkerRecord u m)).mem := by
  have step : exec (.talkerExportWrite room) s = .next
      (let t := exchangeWrite u off (talkerRecord u m)
       let t := updMix t room (fun m => { m with recordDirty := false, recordWritten := nowNs t })
       event t 9 (now t) (.talkers room m.recordTick) false) := by
    simp [exec, execTalkerExportWrite, here, exported, service, changed, allowed, due]
  obtain ⟨-, -, -, -, mem, -⟩ := (event_onlyHost (updMix (exchangeWrite u off (talkerRecord u m)) room _) 9 _ (.talkers room m.recordTick) false).keeps
  exact ⟨_, step, mem⟩

/-- Settles O40, by one rule for each command. -/
theorem audioCommandsComplete : Obligations.AudioCommandsComplete := by
  refine ⟨?packet, ?target, ?noise, ?meters, ?mixes, ?batch, ?record⟩
  case packet =>
    intro s l p rest x a leg source arrived service receives active
    exact exec_audioPacket leg source arrived service receives active
  case target =>
    rintro s _ l x here service active due rfl
    exact exec_jbRecompute here service active (reach_reachable due)
  case noise =>
    intro s l x here service active quiet concealed
    exact exec_comfortNoise here service active quiet concealed
  case meters =>
    intro s room cluster r here service noMix begun first ready
    exact exec_mixPeriod_metersOnly here service cluster noMix begun first ready
  case mixes =>
    intro s room k i r m rest here service mix active next ready
    exact exec_mixPeriod_mixes here service mix active next ready
  case batch =>
    intro s cluster f service known usable
    cases f with
    | decoded leg poisoned => exact exec_codecBatchDone_decoded service known usable leg poisoned
    | encoded room format slot => exact exec_codecBatchDone_encoded service known usable room format slot
  case record =>
    rintro s _ room off m here exported service changed allowed due rfl
    exact exec_talkerExportWrite here exported service changed allowed (reach_reachable due)

end Sys2Proof.Machine

/-!
The 64 bits of a lane's word (R247 to R249): the fields that each kind of word has at its bits, and the word that the fields spell.
-/

namespace Sys2Proof

/-! ### Numbers in a field -/

theorem b2n_lt (b : Bool) : b2n b < 2 := by cases b <;> decide
theorem b2n_eq_one (b : Bool) : b2n b = 1 ↔ b = true := by cases b <;> decide

/-- A number that `w + 1` signed bits hold is read back from them. -/
theorem toSigned_ofSigned {w : Nat} {i : Int} (least : -(2 ^ w : Int) ≤ i) (most : i < 2 ^ w) : toSigned (w + 1) (ofSigned (w + 1) i) = i := by
  obtain ⟨m, pow⟩ : ∃ m, 2 ^ w = m := ⟨_, rfl⟩
  have cast : (2 : Int) ^ w = m := by rw [← pow]; norm_num
  rw [cast] at least most
  have value : i % (2 * m : Nat) = if i < 0 then i + 2 * m else i := by
    split
    · rw [← Int.add_emod_right, Int.emod_eq_of_lt] <;> omega
    · rw [Int.emod_eq_of_lt] <;> omega
  unfold toSigned ofSigned
  rw [Nat.pow_succ', pow, value, Nat.mod_eq_of_lt (by split <;> omega)]
  split <;> split <;> omega

theorem ofSigned_lt (w : Nat) (i : Int) : ofSigned w i < 2 ^ w := by
  have positive : (0 : Int) < (2 ^ w : Nat) := by exact_mod_cast Nat.two_pow_pos w
  rw [ofSigned, Int.toNat_lt (Int.emod_nonneg _ positive.ne')]
  exact Int.emod_lt_of_pos _ positive

/-! ### The fields of a number -/

theorem aFields_read {c d x y w u h : Nat} (code : c < 2 ^ 7) (dst : d < 32) (src1 : x < 32) (src2 : y < 32) (satw : w < 4) (uns : u < 2) (shift : h < 64) :
    let v := c * 2 ^ 24 + d * 2 ^ 19 + x * 2 ^ 14 + y * 2 ^ 9 + w * 2 ^ 7 + u * 2 ^ 6 + h
    v < 2 ^ 31 ∧ bitsOf v 30 24 = c ∧ bitsOf v 23 19 = d ∧ bitsOf v 18 14 = x ∧ bitsOf v 13 9 = y ∧ bitsOf v 8 7 = w ∧ bitOf v 6 = u ∧ bitsOf v 5 0 = h := by
  dsimp only
  unfold bitsOf bitOf
  refine ⟨?_, ?_, ?_, ?_, ?_, ?_, ?_, ?_⟩ <;> omega

theorem memFields_read {c r p u o : Nat} (code : c < 2 ^ 5) (reg : r < 32) (ptr : p < 8) (upd : u < 4) (offset : o < 2 ^ 14) :
    let v := c * 2 ^ 26 + r * 2 ^ 21 + p * 2 ^ 18 + u * 2 ^ 16 + o
    v < 2 ^ 31 ∧ bitsOf v 30 26 = c ∧ bitsOf v 25 21 = r ∧ bitsOf v 20 18 = p ∧ bitsOf v 17 16 = u ∧ bitsOf v 15 14 = 0 ∧ bitsOf v 13 0 = o := by
  dsimp only
  unfold bitsOf
  refine ⟨?_, ?_, ?_, ?_, ?_, ?_, ?_⟩ <;> omega

theorem ldxyFields_read {x y p q u w : Nat} (quadX : x < 8) (quadY : y < 8) (ptrX : p < 8) (ptrY : q < 8) (updX : u < 4) (updY : w < 4) :
    let v := 11 * 2 ^ 26 + x * 2 ^ 23 + y * 2 ^ 20 + p * 2 ^ 17 + q * 2 ^ 14 + u * 2 ^ 12 + w * 2 ^ 10
    v < 2 ^ 31 ∧ bitsOf v 30 26 = 11 ∧ bitsOf v 25 23 = x ∧ bitsOf v 22 20 = y ∧ bitsOf v 19 17 = p ∧ bitsOf v 16 14 = q ∧ bitsOf v 13 12 = u ∧
      bitsOf v 11 10 = w ∧ bitsOf v 9 0 = 0 := by
  dsimp only
  unfold bitsOf
  refine ⟨?_, ?_, ?_, ?_, ?_, ?_, ?_, ?_, ?_⟩ <;> omega

theorem pairFields_read {a l : Nat} (slotA : a < 2 ^ 31) (slotL : l < 2 ^ 31) :
    a * 2 ^ 31 + l < 2 ^ 64 ∧ bitsOf (a * 2 ^ 31 + l) 63 62 = 0 ∧ bitsOf (a * 2 ^ 31 + l) 61 31 = a ∧ bitsOf (a * 2 ^ 31 + l) 30 0 = l := by
  unfold bitsOf
  refine ⟨?_, ?_, ?_, ?_⟩ <;> omega

theorem longFields_read {c d i : Nat} (code : c < 2 ^ 7) (dst : d < 32) (imm : i < 4294967296) :
    let v := 2 ^ 62 + c * 2 ^ 55 + d * 2 ^ 50 + i
    v < 2 ^ 64 ∧ bitsOf v 63 62 = 1 ∧ bitsOf v 61 55 = c ∧ bitsOf v 54 50 = d ∧ bitsOf v 49 32 = 0 ∧ bitsOf v 31 0 = i := by
  dsimp only
  unfold bitsOf
  refine ⟨?_, ?_, ?_, ?_, ?_, ?_⟩ <;> omega

/-! ### The opcodes -/

theorem aOp_code_lt (o : AOp) : o.code < 2 ^ 7 := by cases o <;> decide
theorem aOp_find_code (o : AOp) : AOp.all.find? (fun p => p.code = o.code) = some o := by cases o <;> decide
theorem lOp_code_lt (o : LOp) : o.code < 2 ^ 5 := by cases o <;> decide
theorem lOp_code_ne (o : LOp) : o.code ≠ 0 ∧ o.code ≠ 11 := by cases o <;> decide
theorem lOp_find_code (o : LOp) : LOp.all.find? (fun p => p.code = o.code) = some o := by cases o <;> decide

/-! ### The slots -/

/-- An A slot leaves bit 31 free, and is spelled by its bits. -/
theorem ASlot.ofBits_bits {a : ASlot} (wf : a.x.wf = true) : a.bits < 2 ^ 31 ∧ ((a.op = .nop → a = .idle) → ASlot.ofBits a.bits = some a) := by
  simp only [AArgs.wf, Bool.and_eq_true, decide_eq_true_eq] at wf
  obtain ⟨⟨⟨⟨dst, src1⟩, src2⟩, satw⟩, shift⟩ := wf
  obtain ⟨room, code, dst, src1, src2, satw, uns, shift⟩ := aFields_read (aOp_code_lt a.op) dst src1 src2 satw (b2n_lt a.x.uns) shift
  refine ⟨room, fun idle => ?_⟩
  simp only [ASlot.ofBits, ASlot.bits, code, dst, src1, src2, satw, uns, shift, aOp_find_code, Option.map_some, b2n_eq_one, Bool.decide_eq_true]
  split
  · next nop => rw [← idle nop]
  · rfl

/-- An L slot leaves bit 31 free, and is spelled by its bits. -/
theorem LSlot.ofBits_bits {l : LSlot} (wf : l.wf = true) : l.bits < 2 ^ 31 ∧ LSlot.ofBits l.bits = some l := by
  cases l with
  | nop => decide
  | mem o x =>
    simp only [LSlot.wf, LArgs.wf, Bool.and_eq_true, decide_eq_true_eq] at wf
    obtain ⟨⟨⟨⟨reg, ptr⟩, upd⟩, least⟩, most⟩ := wf
    obtain ⟨room, code, reg, ptr, upd, zero, offset⟩ := memFields_read (lOp_code_lt o) reg ptr upd (ofSigned_lt 14 x.offset)
    obtain ⟨notNop, notLdxy⟩ := lOp_code_ne o
    exact ⟨room, by simp only [LSlot.ofBits, LSlot.bits, code, reg, ptr, upd, zero, offset, toSigned_ofSigned (w := 13) least most, notNop, notLdxy,
      lOp_find_code, if_false, ne_eq, not_true_eq_false, Option.map_some]⟩
  | ldxy x =>
    simp only [LSlot.wf, XYArgs.wf, Bool.and_eq_true, decide_eq_true_eq] at wf
    obtain ⟨⟨⟨⟨⟨quadX, quadY⟩, ptrX⟩, ptrY⟩, updX⟩, updY⟩ := wf
    obtain ⟨room, code, quadX, quadY, ptrX, ptrY, updX, updY, zero⟩ := ldxyFields_read quadX quadY ptrX ptrY updX updY
    refine ⟨room, ?_⟩
    simp only [LSlot.ofBits, LSlot.bits, code, quadX, quadY, ptrX, ptrY, updX, updY, zero]
    rfl

/-! ### CONTROL words -/

theorem branchFields_read {k c o : Nat} (code : k < 2 ^ 6) (cond : c < 16) (offset : o < 2 ^ 24) :
    let x := k * 2 ^ 56 + c * 2 ^ 52 + o
    x < 2 ^ 62 ∧ bitsOf (2 ^ 63 + x) 61 56 = k ∧ bitsOf (2 ^ 63 + x) 55 52 = c ∧ bitsOf (2 ^ 63 + x) 23 0 = o := by
  dsimp only
  unfold bitsOf
  refine ⟨?_, ?_, ?_, ?_⟩ <;> omega

theorem loopFields_read {k l r n b : Nat} {isReg : Bool} (code : k < 2 ^ 6) (level : l < 2) (rotate : r < 2)
    (count : if isReg then n < 32 else n < 65536) (body : b < 4096) :
    let x := k * 2 ^ 56 + l * 2 ^ 55 + r * 2 ^ 54 + b2n isReg * 2 ^ 53 + (if isReg then n * 2 ^ 48 else n * 2 ^ 37) + b
    x < 2 ^ 62 ∧ bitsOf (2 ^ 63 + x) 61 56 = k ∧ bitOf (2 ^ 63 + x) 55 = l ∧ bitOf (2 ^ 63 + x) 54 = r ∧ bitOf (2 ^ 63 + x) 53 = b2n isReg ∧
      (if isReg then bitsOf (2 ^ 63 + x) 52 48 else bitsOf (2 ^ 63 + x) 52 37) = n ∧ bitsOf (2 ^ 63 + x) 11 0 = b := by
  unfold bitsOf bitOf
  cases isReg <;> simp only [b2n, if_true, Bool.false_eq_true, if_false] at count ⊢
  all_goals refine ⟨?_, ?_, ?_, ?_, ?_, ?_, ?_⟩ <;> omega

theorem waitFields_read {k m v : Nat} (code : k < 2 ^ 6) (mode : m < 4) (value : v < 65536) :
    let x := k * 2 ^ 56 + m * 2 ^ 54 + v
    x < 2 ^ 62 ∧ bitsOf (2 ^ 63 + x) 61 56 = k ∧ bitsOf (2 ^ 63 + x) 55 54 = m ∧ bitsOf (2 ^ 63 + x) 15 0 = v := by
  dsimp only
  unfold bitsOf
  refine ⟨?_, ?_, ?_, ?_⟩ <;> omega

theorem signalFields_read {k c e : Nat} (code : k < 2 ^ 6) (cluster : c < 8) (event : e < 64) :
    let x := k * 2 ^ 56 + c * 2 ^ 53 + e
    x < 2 ^ 62 ∧ bitsOf (2 ^ 63 + x) 61 56 = k ∧ bitsOf (2 ^ 63 + x) 55 53 = c ∧ bitsOf (2 ^ 63 + x) 5 0 = e := by
  dsimp only
  unfold bitsOf
  refine ⟨?_, ?_, ?_, ?_⟩ <;> omega

theorem spawnFields_read {k e a r : Nat} (code : k < 2 ^ 6) (entry : e < 32) (arg : a < 32) (result : r < 32) :
    let x := k * 2 ^ 56 + e * 2 ^ 51 + a * 2 ^ 46 + r * 2 ^ 41
    x < 2 ^ 62 ∧ bitsOf (2 ^ 63 + x) 61 56 = k ∧ bitsOf (2 ^ 63 + x) 55 51 = e ∧ bitsOf (2 ^ 63 + x) 50 46 = a ∧ bitsOf (2 ^ 63 + x) 45 41 = r := by
  dsimp only
  unfold bitsOf
  refine ⟨?_, ?_, ?_, ?_, ?_⟩ <;> omega

theorem transferFields_read {k l p w : Nat} (code : k < 2 ^ 6) (localReg : l < 32) (pair : p < 32) (words : w < 64) :
    let x := k * 2 ^ 56 + l * 2 ^ 51 + p * 2 ^ 46 + w * 2 ^ 40
    x < 2 ^ 62 ∧ bitsOf (2 ^ 63 + x) 61 56 = k ∧ bitsOf (2 ^ 63 + x) 55 51 = l ∧ bitsOf (2 ^ 63 + x) 50 46 = p ∧ bitsOf (2 ^ 63 + x) 45 40 = w := by
  dsimp only
  unfold bitsOf
  refine ⟨?_, ?_, ?_, ?_, ?_⟩ <;> omega

/-- A CONTROL word leaves its format free, and is spelled by its bits. -/
theorem Control.ofBits_bits {c : Control} (wf : c.wf = true) : c.bits < 2 ^ 62 ∧ Control.ofBits (2 ^ 63 + c.bits) = some c := by
  cases c <;> simp only [Control.wf, Bool.and_eq_true, decide_eq_true_eq] at wf
  case br c o =>
    obtain ⟨⟨cond, least⟩, most⟩ := wf
    obtain ⟨room, code, cond, offset⟩ := branchFields_read (k := 1) (by decide) cond (ofSigned_lt 24 o)
    exact ⟨room, by simp only [Control.ofBits, Control.bits, code, cond, offset, toSigned_ofSigned (w := 23) least most]⟩
  case call c o =>
    obtain ⟨⟨cond, least⟩, most⟩ := wf
    obtain ⟨room, code, cond, offset⟩ := branchFields_read (k := 2) (by decide) cond (ofSigned_lt 24 o)
    exact ⟨room, by simp only [Control.ofBits, Control.bits, code, cond, offset, toSigned_ofSigned (w := 23) least most]⟩
  case ret => decide
  case loop l r isReg n b =>
    obtain ⟨⟨⟨level, count⟩, least⟩, most⟩ := wf
    have count : if isReg then n < 32 else n < 65536 := by cases isReg <;> simpa using count
    obtain ⟨room, code, level, rotate, reg, count, body⟩ := loopFields_read (k := 4) (by decide) level (b2n_lt r) count (b := b - 1) (by omega)
    exact ⟨room, by simp only [Control.ofBits, Control.bits, code, level, rotate, reg, body, count, b2n_eq_one, Bool.decide_eq_true, Nat.sub_add_cancel least]⟩
  case wait m v =>
    obtain ⟨mode, value⟩ := wf
    obtain ⟨room, code, mode, value⟩ := waitFields_read (k := 5) (by decide) mode value
    exact ⟨room, by simp only [Control.ofBits, Control.bits, code, mode, value]⟩
  case signal c e =>
    obtain ⟨cluster, event⟩ := wf
    obtain ⟨room, code, cluster, event⟩ := signalFields_read (k := 6) (by decide) cluster event
    exact ⟨room, by simp only [Control.ofBits, Control.bits, code, cluster, event]⟩
  case spawn e a r =>
    obtain ⟨⟨entry, arg⟩, result⟩ := wf
    obtain ⟨room, code, entry, arg, result⟩ := spawnFields_read (k := 7) (by decide) entry arg result
    exact ⟨room, by simp only [Control.ofBits, Control.bits, code, entry, arg, result]⟩
  case fetch l p w =>
    obtain ⟨⟨⟨reg, pair⟩, least⟩, most⟩ := wf
    obtain ⟨room, code, reg, pair, words⟩ := transferFields_read (k := 8) (by decide) reg pair (w := w - 1) (by omega)
    exact ⟨room, by simp only [Control.ofBits, Control.bits, code, reg, pair, words, Nat.sub_add_cancel least]⟩
  case put l p w =>
    obtain ⟨⟨⟨reg, pair⟩, least⟩, most⟩ := wf
    obtain ⟨room, code, reg, pair, words⟩ := transferFields_read (k := 9) (by decide) reg pair (w := w - 1) (by omega)
    exact ⟨room, by simp only [Control.ofBits, Control.bits, code, reg, pair, words, Nat.sub_add_cancel least]⟩
  case fence => decide

/-! ### Words -/

theorem MWord.ofBits_bits {w : MWord} (wf : w.wf = true) (idle : ∀ a l, w = .pair a l → a.op = .nop → a = .idle)
    (long : ∀ o d i, w = .long o d i → o ≠ .nop) : MWord.ofBits w.bits = some w := by
  cases w with
  | pair a l =>
    simp only [MWord.wf, Bool.and_eq_true] at wf
    obtain ⟨roomA, spelledA⟩ := ASlot.ofBits_bits wf.1
    obtain ⟨roomL, spelledL⟩ := LSlot.ofBits_bits wf.2
    obtain ⟨-, format, slotA, slotL⟩ := pairFields_read roomA roomL
    simp only [MWord.ofBits, MWord.bits, format, slotA, slotL, spelledA (idle a l rfl), spelledL]
  | long o d i =>
    simp only [MWord.wf, Bool.and_eq_true, decide_eq_true_eq] at wf
    obtain ⟨-, format, code, dst, zero, imm⟩ := longFields_read (aOp_code_lt o) wf.1 wf.2
    simp only [MWord.ofBits, MWord.bits, format, code, dst, zero, imm, aOp_find_code, long o d i rfl, Option.map_some, ne_eq, not_true_eq_false, if_false]
  | control c =>
    obtain ⟨room, spelled⟩ := Control.ofBits_bits wf
    have format : bitsOf (2 ^ 63 + c.bits) 63 62 = 2 := by unfold bitsOf; omega
    simp only [MWord.ofBits, MWord.bits, format, spelled, Option.map_some]

theorem MWord.bits_lt {w : MWord} (wf : w.wf = true) : w.bits < 2 ^ 64 := by
  cases w with
  | pair a l =>
    simp only [MWord.wf, Bool.and_eq_true] at wf
    exact (pairFields_read (ASlot.ofBits_bits wf.1).1 (LSlot.ofBits_bits wf.2).1).1
  | long o d i =>
    simp only [MWord.wf, Bool.and_eq_true, decide_eq_true_eq] at wf
    exact (longFields_read (aOp_code_lt o) wf.1 wf.2).1
  | control c =>
    have room := (Control.ofBits_bits wf).1
    simp only [MWord.bits]
    omega

/-! ### What decodes has fields that fit -/

theorem bitsOf_lt {v hi lo m : Nat} (width : 2 ^ (hi + 1 - lo) = m) : bitsOf v hi lo < m := width ▸ Nat.mod_lt _ (by positivity)
theorem toSigned_bounds (w n : Nat) : -(2 ^ w : Int) ≤ toSigned (w + 1) n ∧ toSigned (w + 1) n < 2 ^ w := by
  obtain ⟨m, pow⟩ : ∃ m, 2 ^ w = m := ⟨_, rfl⟩
  have cast : (2 : Int) ^ w = m := by rw [← pow]; norm_num
  have cut : n % (2 * m) < 2 * m := Nat.mod_lt _ (by rw [← pow]; positivity)
  rw [toSigned, cast, Nat.pow_succ', pow]
  split <;> omega

theorem ASlot.wf_of_ofBits {v : Nat} {a : ASlot} (spelled : ASlot.ofBits v = some a) : a.x.wf = true := by
  simp only [ASlot.ofBits, Option.map_eq_some_iff] at spelled
  obtain ⟨o, -, rfl⟩ := spelled
  split
  · decide
  · simp [AArgs.wf, bitsOf_lt]

theorem LSlot.wf_of_ofBits {v : Nat} {l : LSlot} (spelled : LSlot.ofBits v = some l) : l.wf = true := by
  unfold LSlot.ofBits at spelled
  dsimp only at spelled
  split at spelled
  · cases spelled
    rfl
  · split at spelled
    · split at spelled
      · cases spelled
      · cases spelled
        simp [LSlot.wf, XYArgs.wf, bitsOf_lt]
    · split at spelled
      · cases spelled
      · obtain ⟨o, -, rfl⟩ := Option.map_eq_some_iff.1 spelled
        obtain ⟨least, most⟩ := toSigned_bounds 13 (bitsOf v 13 0)
        simpa [LSlot.wf, LArgs.wf, bitsOf_lt] using ⟨least, most⟩

theorem Control.wf_of_ofBits {v : Nat} {c : Control} (spelled : Control.ofBits v = some c) : c.wf = true := by
  obtain ⟨least, most⟩ := toSigned_bounds 23 (bitsOf v 23 0)
  have level : bitOf v 55 < 2 := Nat.mod_lt _ (by decide)
  unfold Control.ofBits at spelled
  split at spelled <;> cases spelled
  case h_1 | h_2 => simpa [Control.wf, bitsOf_lt] using ⟨least, most⟩
  case h_4 => by_cases reg : bitOf v 53 = 1 <;> simp [Control.wf, reg, level, bitsOf_lt]
  case h_3 | h_5 | h_6 | h_7 | h_8 | h_9 | h_10 => simp [Control.wf, bitsOf_lt]

theorem MWord.wf_of_ofBits {v : Nat} {w : MWord} (spelled : MWord.ofBits v = some w) : w.wf = true := by
  unfold MWord.ofBits at spelled
  split at spelled
  · split at spelled
    · next slotA slotL =>
      cases spelled
      simp [MWord.wf, ASlot.wf_of_ofBits slotA, LSlot.wf_of_ofBits slotL]
    · cases spelled
  · split at spelled
    · cases spelled
    · obtain ⟨o, -, rfl⟩ := Option.map_eq_some_iff.1 spelled
      split
      · decide
      · simp [MWord.wf, bitsOf_lt]
  · obtain ⟨c, slot, rfl⟩ := Option.map_eq_some_iff.1 spelled
    exact Control.wf_of_ofBits slot
  · cases spelled

/-- Settles O60, kind by kind: the fields of a word stand at their bits, and what is read at those bits fits the field. -/
theorem mittenWordsDecodeAsEncoded : Obligations.MittenWordsDecodeAsEncoded :=
  ⟨fun _ => MWord.ofBits_bits, fun _ => MWord.bits_lt, fun _ _ => MWord.wf_of_ofBits, fun _ reserved => by simp only [MWord.ofBits, reserved]⟩

end Sys2Proof

/-!
Division on a lane (R240): one step on an accumulator whose remainder and low word are known, and `n` steps as the long division of a dividend.
-/

namespace Sys2Proof.Machine

/-! ### One step -/

/-- The next remainder of a step, before it is cut to 40 bits. -/
def nextRem (rem : Int) (bit d : Nat) (dq : Bool) : Int := 2 * rem + (bit : Int) + (if dq then -(d : Int) else d)

theorem pack_div {low : Nat} (rem : Int) (fits : low < 2 ^ 32) : (rem * 2 ^ 32 + low) / 2 ^ 32 = rem := by omega

theorem pack_mod {low : Nat} (rem : Int) (fits : low < 2 ^ 32) : (rem * 2 ^ 32 + low) % 2 ^ 32 = low := by omega

/-- One step of DSTEP on an accumulator of a remainder and a low word. -/
theorem divStep_pack {rem : Int} {low d : Nat} (dq : Bool) (least : -(2 ^ 34 : Int) ≤ rem) (most : rem < 2 ^ 34) (fits : low < 2 ^ 32) (word : d < 2 ^ 32) :
    divStep (rem * 2 ^ 32 + low) d dq =
      (nextRem rem (low / 2 ^ 31) d dq * 2 ^ 32 + ((low * 2 % 2 ^ 32 + b2n (decide (0 ≤ nextRem rem (low / 2 ^ 31) d dq)) : Nat) : Int),
        decide (0 ≤ nextRem rem (low / 2 ^ 31) d dq)) := by
  have next : (if dq then 2 * rem + ((low / 2 ^ 31 : Nat) : Int) - (d : Int) else 2 * rem + ((low / 2 ^ 31 : Nat) : Int) + (d : Int)) =
      nextRem rem (low / 2 ^ 31) d dq := by
    unfold nextRem
    split <;> rfl
  have cut : toSigned 40 (ofSigned 40 (nextRem rem (low / 2 ^ 31) d dq)) = nextRem rem (low / 2 ^ 31) d dq := by
    refine toSigned_ofSigned (w := 39) ?_ ?_ <;> unfold nextRem <;> split <;> omega
  simp only [divStep, pack_div rem fits, pack_mod rem fits, Int.toNat_natCast, next, cut]

/-- DFIX on an accumulator of a remainder and a low word. -/
theorem divFix_pack {rem : Int} {low d : Nat} (fits : low < 2 ^ 32) (least : -(d : Int) ≤ rem) (most : rem < d) (word : d < 2 ^ 32) :
    divFix (rem * 2 ^ 32 + low) d = (if rem < 0 then rem + d else rem) * 2 ^ 32 + low := by
  have cut : toSigned 40 (ofSigned 40 (if rem < 0 then rem + (d : Int) else rem)) = if rem < 0 then rem + (d : Int) else rem := by
    refine toSigned_ofSigned (w := 39) ?_ ?_ <;> split <;> omega
  simp only [divFix, pack_div rem fits, pack_mod rem fits, cut]

/-! ### The low word while the dividend leaves it -/

/-- The low word of a division: the `m` bits of the dividend that are still to come, above the quotient bits that have been found. -/
def lowWord (m y q : Nat) : Nat := y * 2 ^ (32 - m) + q

theorem pow_mul_pow_below {m n k : Nat} (sum : m + n = k) : 2 ^ m * 2 ^ n = 2 ^ k := by rw [← Nat.pow_add, sum]

section
variable {m y q : Nat} (steps : m < 32) (found : q < 2 ^ (32 - (m + 1)))
include steps found

/-- The leading bit of the dividend still to come is bit 31, and what follows it fills the bits below. -/
theorem lowWord_split : lowWord (m + 1) y q = y / 2 ^ m * 2 ^ 31 + (y % 2 ^ m * 2 ^ (32 - (m + 1)) + q) ∧
    y % 2 ^ m * 2 ^ (32 - (m + 1)) + q < 2 ^ 31 := by
  have whole : 2 ^ m * 2 ^ (32 - (m + 1)) = 2 ^ 31 := pow_mul_pow_below (by omega)
  constructor
  · rw [lowWord, ← whole]
    nth_rw 1 [← Nat.div_add_mod y (2 ^ m)]
    ring
  · have room : (y % 2 ^ m + 1) * 2 ^ (32 - (m + 1)) ≤ 2 ^ m * 2 ^ (32 - (m + 1)) := Nat.mul_le_mul_right _ (Nat.mod_lt _ (by positivity))
    rw [← whole]
    linarith

theorem lowWord_lt (bits : y < 2 ^ (m + 1)) : lowWord (m + 1) y q < 2 ^ 32 := by
  obtain ⟨split, rest⟩ := lowWord_split (y := y) steps found
  have top : y / 2 ^ m < 2 := Nat.div_lt_of_lt_mul (by rwa [← Nat.pow_succ])
  omega

/-- The bit that a step shifts out of the low word is the leading bit of the dividend still to come. -/
theorem lowWord_top : lowWord (m + 1) y q / 2 ^ 31 = y / 2 ^ m := by
  obtain ⟨split, rest⟩ := lowWord_split (y := y) steps found
  omega

/-- A step shifts the low word left, and its quotient bit enters at the right. -/
theorem lowWord_shift (b : Nat) : lowWord (m + 1) y q * 2 % 2 ^ 32 + b = lowWord m (y % 2 ^ m) (2 * q + b) := by
  obtain ⟨split, rest⟩ := lowWord_split (y := y) steps found
  have twice : 2 ^ (32 - m) = 2 * 2 ^ (32 - (m + 1)) := by rw [← Nat.pow_succ']; congr 1; omega
  have shifted : lowWord (m + 1) y q * 2 % 2 ^ 32 = (y % 2 ^ m * 2 ^ (32 - (m + 1)) + q) * 2 := by omega
  rw [shifted, lowWord, twice]
  ring
end

/-! ### `n` steps -/

/-- The partial remainder of non-restoring division: with DQ clear the divisor has been taken from the remainder once too often. -/
def partialRem (r d : Nat) (dq : Bool) : Int := (r : Int) - (if dq then 0 else (d : Int))

section
variable {m y q r d : Nat}

/-- A step of the long division of a dividend by its leading bit. -/
theorem longDivision_step (r m y : Nat) (positive : 0 < d) :
    (r * 2 ^ (m + 1) + y) / d = (2 * r + y / 2 ^ m) / d * 2 ^ m + ((2 * r + y / 2 ^ m) % d * 2 ^ m + y % 2 ^ m) / d ∧
      (r * 2 ^ (m + 1) + y) % d = ((2 * r + y / 2 ^ m) % d * 2 ^ m + y % 2 ^ m) % d := by
  have whole : r * 2 ^ (m + 1) + y = d * ((2 * r + y / 2 ^ m) / d * 2 ^ m) + ((2 * r + y / 2 ^ m) % d * 2 ^ m + y % 2 ^ m) := by
    have taken := Nat.div_add_mod (2 * r + y / 2 ^ m) d
    calc r * 2 ^ (m + 1) + y = (2 * r + y / 2 ^ m) * 2 ^ m + y % 2 ^ m := by nth_rw 1 [← Nat.div_add_mod y (2 ^ m)]; ring
      _ = (d * ((2 * r + y / 2 ^ m) / d) + (2 * r + y / 2 ^ m) % d) * 2 ^ m + y % 2 ^ m := by rw [taken]
      _ = _ := by ring
  rw [whole]
  exact ⟨Nat.mul_add_div positive _ _, Nat.mul_add_mod _ _ _⟩

/-- Whether the divisor was taken once too often or not, the next remainder is the shifted one less the divisor. -/
theorem nextRem_partialRem (r b d : Nat) (dq : Bool) : nextRem (partialRem r d dq) b d dq = 2 * r + b - d := by
  cases dq <;> simp only [nextRem, partialRem, if_true, Bool.false_eq_true, if_false] <;> ring

/-- One step finds one bit of the quotient: the accumulator stays a partial remainder above a low word. -/
theorem divStep_partialRem (dq : Bool) (steps : m < 32) (bits : y < 2 ^ (m + 1)) (found : q < 2 ^ (32 - (m + 1))) (least : r < d) (word : d < 2 ^ 32) :
    ∃ dq', divStep (partialRem r d dq * 2 ^ 32 + lowWord (m + 1) y q) d dq =
      (partialRem ((2 * r + y / 2 ^ m) % d) d dq' * 2 ^ 32 + lowWord m (y % 2 ^ m) (2 * q + (2 * r + y / 2 ^ m) / d), dq') := by
  have top : y / 2 ^ m < 2 := Nat.div_lt_of_lt_mul (by rwa [← Nat.pow_succ])
  have step := divStep_pack (rem := partialRem r d dq) dq (by unfold partialRem; split <;> omega) (by unfold partialRem; split <;> omega)
    (lowWord_lt steps found bits) word
  rw [nextRem_partialRem, lowWord_top steps found, lowWord_shift steps found] at step
  generalize y / 2 ^ m = b at top step ⊢
  by_cases taken : d ≤ 2 * r + b
  · have quotient : (2 * r + b) / d = 1 := Nat.div_eq_of_lt_le (by omega) (by omega)
    have rest : (2 * r + b) % d = 2 * r + b - d := by rw [Nat.mod_eq_sub_mod taken, Nat.mod_eq_of_lt (by omega)]
    have sign : (0 : Int) ≤ 2 * r + b - d := by omega
    have kept : partialRem (2 * r + b - d) d true = 2 * r + b - d := by simp [partialRem, taken]
    exact ⟨true, by simp only [step, quotient, rest, sign, kept, decide_true, b2n, if_true]⟩
  · have quotient : (2 * r + b) / d = 0 := Nat.div_eq_of_lt (by omega)
    have rest : (2 * r + b) % d = 2 * r + b := Nat.mod_eq_of_lt (by omega)
    have sign : ¬ (0 : Int) ≤ 2 * r + b - d := by omega
    have kept : partialRem (2 * r + b) d false = 2 * r + b - d := by simp [partialRem]
    exact ⟨false, by simp only [step, quotient, rest, sign, kept, decide_false, b2n, Bool.false_eq_true, if_false]⟩

theorem lowWord_zero {y : Nat} (q : Nat) (bits : y < 2 ^ 0) : lowWord 0 y q = q := by
  rw [lowWord, Nat.lt_one_iff.1 bits, Nat.zero_mul, Nat.zero_add]

/-- A quotient with one more bit still lies below the dividend that is still to come. -/
theorem quotient_room {b : Nat} (steps : m < 32) (found : q < 2 ^ (32 - (m + 1))) (bit : b < 2) : 2 * q + b < 2 ^ (32 - m) := by
  have twice : 2 ^ (32 - m) = 2 * 2 ^ (32 - (m + 1)) := by rw [← Nat.pow_succ']; congr 1; omega
  omega

/-- `m` steps divide: the low word is the quotient, and the remainder is exact or one divisor below. -/
theorem divSteps_partialRem (dq : Bool) (steps : m ≤ 32) (bits : y < 2 ^ m) (found : q < 2 ^ (32 - m)) (least : r < d) (word : d < 2 ^ 32) :
    ∃ dq', divSteps m d (partialRem r d dq * 2 ^ 32 + lowWord m y q) dq =
      partialRem ((r * 2 ^ m + y) % d) d dq' * 2 ^ 32 + ((q * 2 ^ m + (r * 2 ^ m + y) / d : Nat) : Int) := by
  induction m generalizing y q r dq with
  | zero =>
    refine ⟨dq, ?_⟩
    rw [divSteps, lowWord_zero q bits, Nat.lt_one_iff.1 bits, Nat.pow_zero, Nat.mul_one, Nat.mul_one, Nat.add_zero, Nat.mod_eq_of_lt least,
      Nat.div_eq_of_lt least, Nat.add_zero]
  | succ m ih =>
    obtain ⟨dq', step⟩ := divStep_partialRem dq steps bits found least word
    have positive : 0 < d := by omega
    have top : y / 2 ^ m < 2 := Nat.div_lt_of_lt_mul (by rwa [← Nat.pow_succ])
    have bit : (2 * r + y / 2 ^ m) / d < 2 := Nat.div_lt_of_lt_mul (by omega)
    obtain ⟨dq'', rest⟩ := ih (y := y % 2 ^ m) dq' (by omega) (Nat.mod_lt _ (by positivity)) (quotient_room steps found bit)
      (Nat.mod_lt (2 * r + y / 2 ^ m) positive)
    obtain ⟨quotient, remainder⟩ := longDivision_step r m y positive
    refine ⟨dq'', ?_⟩
    rw [divSteps, step, rest, quotient, remainder]
    congr 2
    ring

/-- A divisor of zero is taken in every step: the quotient is all ones. -/
theorem divSteps_zero (steps : m ≤ 32) (bits : y < 2 ^ m) (found : q < 2 ^ (32 - m)) (room : r * 2 ^ m + y < 2 ^ 34) :
    divSteps m 0 ((r : Int) * 2 ^ 32 + lowWord m y q) true = ((r * 2 ^ m + y : Nat) : Int) * 2 ^ 32 + ((q * 2 ^ m + (2 ^ m - 1) : Nat) : Int) := by
  induction m generalizing y q r with
  | zero =>
    rw [divSteps, lowWord_zero q bits, Nat.lt_one_iff.1 bits, Nat.pow_zero, Nat.mul_one, Nat.mul_one, Nat.add_zero, Nat.sub_self, Nat.add_zero]
  | succ m ih =>
    have small : r ≤ r * 2 ^ (m + 1) := Nat.le_mul_of_pos_right r (by positivity)
    have step := divStep_pack (rem := r) (d := 0) true (by omega) (by omega) (lowWord_lt steps found bits) (by omega)
    have next : nextRem r (y / 2 ^ m) 0 true = ((2 * r + y / 2 ^ m : Nat) : Int) := by simp [nextRem]
    have positive : (0 : Int) ≤ ((2 * r + y / 2 ^ m : Nat) : Int) := Int.natCast_nonneg _
    rw [lowWord_top steps found, lowWord_shift steps found, next, decide_eq_true positive] at step
    have whole : (2 * r + y / 2 ^ m) * 2 ^ m + y % 2 ^ m = r * 2 ^ (m + 1) + y := by nth_rw 3 [← Nat.div_add_mod y (2 ^ m)]; ring
    have ones : 2 ^ (m + 1) - 1 = 2 ^ m + (2 ^ m - 1) := by have := Nat.one_le_two_pow (n := m); omega
    rw [divSteps, step, ih (by omega) (Nat.mod_lt _ (by positivity)) (quotient_room steps found (by decide)) (by rwa [whole]), whole, ones]
    congr 2
    simp only [b2n, if_true]
    ring
end

/-- The accumulator that a division begins with: the remainder is cleared, the dividend stands at the left of the low word. -/
theorem dividend_eq_pack (n x : Nat) : ((x * 2 ^ (32 - n) : Nat) : Int) = ((0 : Nat) : Int) * 2 ^ 32 + lowWord n x 0 := by simp [lowWord]

@[simp] theorem partialRem_true (r d : Nat) : partialRem r d true = r := by simp [partialRem]

/-- The bits below 2^n of an accumulator are those of its low word. -/
theorem pack_mod_pow {n low : Nat} (rem : Int) (steps : n ≤ 32) (fits : low < 2 ^ n) : (rem * 2 ^ 32 + low) % 2 ^ n = low := by
  have above : (2 : Int) ^ n ∣ rem * 2 ^ 32 := (pow_dvd_pow 2 steps).mul_left rem
  rw [Int.add_emod, Int.emod_eq_zero_of_dvd above, zero_add, Int.emod_emod_of_dvd _ dvd_rfl]
  exact_mod_cast Nat.mod_eq_of_lt fits

/-- The outcome of a division by a divisor that is not zero. -/
theorem divSteps_outcome {n x d : Nat} (steps : n ≤ 32) (bits : x < 2 ^ n) (positive : 0 < d) (word : d < 2 ^ 32) :
    ∃ dq, divSteps n d ((x * 2 ^ (32 - n) : Nat) : Int) true = partialRem (x % d) d dq * 2 ^ 32 + ((x / d : Nat) : Int) := by
  obtain ⟨dq, outcome⟩ := divSteps_partialRem (q := 0) (r := 0) true steps bits (by positivity) positive word
  refine ⟨dq, ?_⟩
  rw [dividend_eq_pack, ← partialRem_true 0 d, outcome]
  simp only [Nat.zero_mul, Nat.zero_add]

/-- DFIX makes a partial remainder exact. -/
theorem divFix_partialRem {r d q : Nat} (dq : Bool) (least : r < d) (word : d < 2 ^ 32) (fits : q < 2 ^ 32) :
    divFix (partialRem r d dq * 2 ^ 32 + q) d = (r : Int) * 2 ^ 32 + q := by
  have undone : (if partialRem r d dq < 0 then partialRem r d dq + d else partialRem r d dq) = r := by
    cases dq <;> simp only [partialRem, if_true, Bool.false_eq_true, if_false] <;> split <;> omega
  rw [divFix_pack fits (by unfold partialRem; split <;> omega) (by unfold partialRem; split <;> omega) word, undone]

/-- Settles O45, by the invariant of `divSteps_partialRem`: the low word holds the rest of the dividend above the quotient so far, and the remainder
is that of long division, or one divisor less where DQ is clear. -/
theorem divisionGivesQuotientAndRemainder : Obligations.DivisionGivesQuotientAndRemainder := by
  refine ⟨?divides, ?zero, ?step, ?slots⟩
  case divides =>
    intro n x d steps bits positive word
    obtain ⟨dq, outcome⟩ := divSteps_outcome steps bits positive word
    have quotient : x / d < 2 ^ n := (Nat.div_le_self x d).trans_lt bits
    have fits : x / d < 2 ^ 32 := quotient.trans_le (Nat.pow_le_pow_right (by decide) steps)
    rw [outcome, divFix_partialRem dq (Nat.mod_lt x positive) word fits]
    exact ⟨pack_mod_pow _ steps quotient, pack_div _ fits, pack_mod_pow _ steps quotient⟩
  case zero =>
    intro n x steps bits
    have few : x < 2 ^ 34 := bits.trans_le (Nat.pow_le_pow_right (by decide) (by omega))
    have outcome := divSteps_zero (q := 0) (r := 0) steps bits (by positivity) (by omega)
    have ones := Nat.one_le_two_pow (n := n)
    rw [dividend_eq_pack, outcome, pack_mod_pow _ steps (by omega), Nat.zero_mul, Nat.zero_add]
    push_cast [ones]
    rfl
  case step =>
    intro rem low d dq least most fits word
    rw [divStep_pack dq least most fits word]
    have shifted : low * 2 % 2 ^ 32 + b2n (decide (0 ≤ nextRem rem (low / 2 ^ 31) d dq)) < 2 ^ 32 := by unfold b2n; split <;> omega
    refine ⟨pack_div _ shifted, decide_eq_true_iff, (pack_mod _ shifted).trans ?_⟩
    simp [b2n]
  case slots =>
    intro b ctl i known
    exact ⟨if_pos known, if_pos known⟩

end Sys2Proof.Machine

/-!
The words of the lanes: when a lane issues a word, and what the two slots of a PAIR or LONG word answer.
-/

namespace Sys2Proof.Machine

/-! ### Issuing a word -/

section
variable {s : State} {l t : Nat} {k : BankId} {x : Thread}

theorem nextWord_of_issuing (here : issuing s l = some (k, t, x)) :
    nextWord s l = (codeWord s x ((laneOf s l).bank k).pc).bind MWord.ofBits := by
  rw [nextWord, here]

theorem issue_idle (w : MWord) (idle : issuing s l = none) : issue s l w = s := by
  rw [issue, idle]

theorem issue_unspelled (w : MWord) (here : issuing s l = some (k, t, x)) (none : nextWord s l = none) : issue s l w = threadFault s l k 1 := by
  rw [nextWord_of_issuing here] at none
  simp only [issue, here, none]

theorem issue_word {w : MWord} (here : issuing s l = some (k, t, x)) (word : nextWord s l = some w) : issue s l w = runWord s l k t x w := by
  rw [nextWord_of_issuing here] at word
  simp only [issue, here, word, if_true]

/-- A command whose word stands at the PC of its lane ends as the word does. -/
theorem ok_issue {w : MWord} {u : State} (here : issuing s l = some (k, t, x)) (word : nextWord s l = some w) (run : runWord s l k t x w = u) :
    ok (issue s l w) = .next u := congrArg _ ((issue_word here word).trans run)

/-- A command whose word is not the one at the PC changes nothing (the model's choice, log 64). -/
theorem issue_other {v w : MWord} (word : nextWord s l = some v) (other : v ≠ w) : issue s l w = s := by
  cases here : issuing s l with
  | none => exact issue_idle w here
  | some i =>
    obtain ⟨k, t, x⟩ := i
    rw [nextWord_of_issuing here] at word
    simp only [issue, here, word, other, if_false]
end

/-! ### The A slot -/

/-- An A slot answers as its fields say: it is legal where they are, and writes the data register that it names. -/
def AAnswers (b : Bank) (op : AOp) (i : AIn) (o : Option AEffect) : Prop :=
  o.isSome = aLegal op i ∧ ∀ a ∈ o, a.d.map Prod.fst = ((aDest op i).map (physReg b.rot)).toList

section
variable {b : Bank} {op : AOp} {i : AIn} {a : AEffect}

theorem aAnswers_some (legal : aLegal op i = true) (dest : a.d.map Prod.fst = ((aDest op i).map (physReg b.rot)).toList) : AAnswers b op i (some a) :=
  ⟨legal.symm, fun _ e => Option.some.inj e ▸ dest⟩

theorem aAnswers_none (illegal : aLegal op i = false) : AAnswers b op i none := ⟨illegal.symm, fun _ e => nomatch e⟩

theorem aAnswers_ite {c : Prop} [Decidable c] (legal : aLegal op i = decide c) (dest : a.d.map Prod.fst = ((aDest op i).map (physReg b.rot)).toList) :
    AAnswers b op i (if c then some a else none) := by
  by_cases h : c
  · rw [if_pos h]
    exact aAnswers_some (legal.trans (decide_eq_true h)) dest
  · rw [if_neg h]
    exact aAnswers_none (legal.trans (decide_eq_false h))
end

/-- The quads of DOT4 and VMAC4 are read where they are aligned. -/
theorem aInQuads_isSome (i : AIn) (op : AOp) (b : Bank) : (aInQuads i op b).isSome = (i.imm.isSome || (decide (i.src1 % 4 = 0) && decide (i.src2 % 4 = 0))) := by
  unfold aInQuads
  split
  · next none =>
    rw [none]
    split <;> simp_all
  · next some => rw [some]; rfl

theorem aSlot_answers (b : Bank) (ctl : Nat → Nat) (op : AOp) (i : AIn) : AAnswers b op i (aSlot b ctl op i) := by
  cases op
  case mac | msu | ald => exact aAnswers_ite (by simp [aLegal]) rfl
  case aclr | dstep | dfix | movcTo => exact aAnswers_ite rfl rfl
  case dot4 | vmac4 =>
    dsimp only [aSlot]
    split
    · next read =>
      have aligned := (aInQuads_isSome i _ b).symm.trans (congrArg Option.isSome read)
      exact aAnswers_ite (by simp [aLegal, aligned]) rfl
    · next unread =>
      have odd := (aInQuads_isSome i _ b).symm.trans (congrArg Option.isSome unread)
      exact aAnswers_none (by simp only [aLegal, odd]; rfl)
  case aext | movcFrom =>
    obtain ⟨dst, src1, src2, satw, uns, shift, imm⟩ := i
    cases imm
    · exact aAnswers_ite rfl rfl
    · exact aAnswers_some rfl rfl
  case aadd =>
    obtain ⟨dst, src1, src2, satw, uns, shift, imm⟩ := i
    cases imm <;> exact aAnswers_ite (by simp [aLegal, Bool.and_assoc]) rfl
  all_goals exact aAnswers_some rfl rfl

/-! ### The L slot -/

/-- An L slot answers as its fields and its accesses say, and writes the data registers that it names. -/
def LAnswers (k : BankId) (b : Bank) (ls : LSlot) : LResult → Prop
  | .illegal => lLegal b ls = false
  | .access => lLegal b ls = true ∧ lReaches k b ls = false
  | .done e => lLegal b ls = true ∧ lReaches k b ls = true ∧ ∀ r, r ∈ e.d.map Prod.fst ↔ r ∈ (lDests ls).map (physReg b.rot)

theorem loadRegs_dests (b : Bank) (m : List Host.Cell) {op : LOp} (r a : Nat) (load : op.stores = false) (notPset : op ≠ .pset) (notPget : op ≠ .pget) :
    (loadRegs b m op r a).map Prod.fst = ((List.range (max 1 (op.size / 4))).map (r + ·)).map (physReg b.rot) := by
  cases op
  case ld8s | ld16s | ld32 | ld64 | ldq => rfl
  case st8 | st16 | st32 | st64 | stq => cases load
  case pset => exact absurd rfl notPset
  case pget => exact absurd rfl notPget

theorem pointerMove_dests (b : Bank) (toReg : Bool) (x : LArgs) :
    (pointerMove b toReg x).d.map Prod.fst = if toReg then [physReg b.rot x.reg] else [] := by
  unfold pointerMove
  split <;> rfl

theorem memSlot_answers (k : BankId) (b : Bank) (m : List Host.Cell) (op : LOp) (x : LArgs) : LAnswers k b (.mem op x) (memSlot k b m op x) := by
  unfold memSlot
  split
  case h_1 => exact ⟨rfl, rfl, by simp [lDests, pointerMove_dests]⟩
  case h_2 => exact ⟨rfl, rfl, by simp [lDests, pointerMove_dests, LOp.stores]⟩
  case h_3 notPset notPget =>
    have notPset : op ≠ .pset := notPset
    have notPget : op ≠ .pget := notPget
    have legal : lLegal b (.mem op x) = ((b.nextPtr x.ptr x.upd).isSome && op.regOk x.reg) := by simp [lLegal, notPset, notPget]
    have reaches : lReaches k b (.mem op x) = localOk k (b.address x.ptr x.offset) op.size := by simp [lReaches, notPset, notPget]
    split
    · next none => exact legal.trans (by rw [none]; rfl)
    · next some =>
      rw [some, Option.isSome_some, Bool.true_and] at legal
      dsimp only
      split
      · next odd => exact legal.trans (by simpa using odd)
      · next even =>
        have legal := legal.trans (by simpa using even)
        split
        · next outside => exact ⟨legal, reaches.trans (by simpa using outside)⟩
        · next inside =>
          refine ⟨legal, reaches.trans (by simpa using inside), fun r => ?_⟩
          split
          · next store => simp [lDests, store, LEffect.none]
          · next load => simp [lDests, load, loadRegs_dests b m _ _ (by simpa using load) notPset notPget, notPset, notPget]

theorem xySlot_answers (k : BankId) (b : Bank) (m : List Host.Cell) (x : XYArgs) : LAnswers k b (.ldxy x) (xySlot k b m x) := by
  have quad (r a : Nat) := loadRegs_dests b m (op := .ldq) r a rfl (by decide) (by decide)
  unfold xySlot
  split
  · next toX toY =>
    have legal : lLegal b (.ldxy x) = true := by simp [lLegal, toX, toY]
    dsimp only
    split
    · next outside => exact ⟨legal, by simpa only [lReaches, Bool.and_eq_false_iff, Bool.or_eq_true, Bool.not_eq_true'] using outside⟩
    · next inside =>
      refine ⟨legal, by simpa [lReaches] using inside, fun r => ?_⟩
      have dests : (lDests (.ldxy x)).map (physReg b.rot) = (loadRegs b m .ldq (4 * x.quadX) (b.address x.ptrX 0)).map Prod.fst ++
          (loadRegs b m .ldq (4 * x.quadY) (b.address x.ptrY 0)).map Prod.fst := by
        rw [quad, quad, lDests, List.map_append]
        rfl
      rw [dests]
      split <;> simp only [List.map_append, List.mem_append, or_comm]
  · next notBoth =>
    refine Bool.eq_false_iff.2 fun legal => ?_
    obtain ⟨toX, toY⟩ := Bool.and_eq_true_iff.1 legal
    obtain ⟨px, toX⟩ := Option.isSome_iff_exists.1 toX
    obtain ⟨py, toY⟩ := Option.isSome_iff_exists.1 toY
    exact notBoth px py toX toY

/-- What an L slot answers. -/
theorem lSlot_answers (k : BankId) (b : Bank) (m : List Host.Cell) (ls : LSlot) : LAnswers k b ls (lSlot k b m ls) := by
  cases ls with
  | nop => exact ⟨rfl, rfl, fun r => Iff.rfl⟩
  | mem op x => exact memSlot_answers k b m op x
  | ldxy x => exact xySlot_answers k b m x

section
variable {k : BankId} {b : Bank} (m : List Host.Cell) {ls : LSlot}

theorem lSlot_illegal (illegal : lLegal b ls = false) : lSlot k b m ls = .illegal := by
  have answers := lSlot_answers k b m ls
  cases out : lSlot k b m ls with
  | illegal => rfl
  | access | done => simp [LAnswers, out, illegal] at answers

theorem lSlot_access (legal : lLegal b ls = true) (outside : lReaches k b ls = false) : lSlot k b m ls = .access := by
  have answers := lSlot_answers k b m ls
  cases out : lSlot k b m ls with
  | access => rfl
  | illegal | done => simp [LAnswers, out, legal, outside] at answers

theorem lSlot_done (legal : lLegal b ls = true) (reaches : lReaches k b ls = true) : ∃ e, lSlot k b m ls = .done e := by
  have answers := lSlot_answers k b m ls
  cases out : lSlot k b m ls with
  | done e => exact ⟨e, rfl⟩
  | illegal | access => simp [LAnswers, out, legal, reaches] at answers
end

theorem aSlot_none {b : Bank} (ctl : Nat → Nat) {op : AOp} {i : AIn} (illegal : aLegal op i = false) : aSlot b ctl op i = none :=
  Option.isSome_eq_false_iff.1 ((aSlot_answers b ctl op i).1.trans illegal) |> Option.isNone_iff_eq_none.1

theorem aSlot_some {b : Bank} (ctl : Nat → Nat) {op : AOp} {i : AIn} (legal : aLegal op i = true) : ∃ a, aSlot b ctl op i = some a :=
  Option.isSome_iff_exists.1 ((aSlot_answers b ctl op i).1.trans legal)

/-! ### Both slots -/

/-- The slots of a word clash where they name one physical register. -/
theorem clash_eq {k : BankId} {b : Bank} {ctl : Nat → Nat} {m : List Host.Cell} {op : AOp} {i : AIn} {ls : LSlot} {a : AEffect} {e : LEffect}
    (outA : aSlot b ctl op i = some a) (outL : lSlot k b m ls = .done e) : clash a e = !slotsApart b op i ls := by
  have destA : a.d.map Prod.fst = ((aDest op i).map (physReg b.rot)).toList := (aSlot_answers b ctl op i).2 a outA
  have slotL := lSlot_answers k b m ls
  rw [outL] at slotL
  obtain ⟨-, -, destL⟩ := slotL
  have both : clash a e = true ↔ ∃ r ∈ a.d.map Prod.fst, r ∈ e.d.map Prod.fst := by simp [clash]
  rw [Bool.eq_iff_iff, both, destA]
  simp only [destL, slotsApart, Bool.not_not]
  cases aDest op i <;> simp

section
variable {s : State} {l t : Nat} {k : BankId} {x : Thread} {op : AOp} {i : AIn} {ls : LSlot}

theorem runSlots_done (legalA : aLegal op i = true) (legalL : lLegal ((laneOf s l).bank k) ls = true) (reaches : lReaches k ((laneOf s l).bank k) ls = true)
    (apart : slotsApart ((laneOf s l).bank k) op i ls = true) :
    ∃ a e, aOutcome s l k t x op i = some a ∧ lOutcome s l k ls = .done e ∧ runSlots s l k t x op i ls = wordDone s l k a e := by
  obtain ⟨a, outA⟩ := aSlot_some (b := (laneOf s l).bank k) (controlReg s l ((laneOf s l).bank k) t x.generation) legalA
  obtain ⟨e, outL⟩ := lSlot_done (laneOf s l).mem legalL reaches
  refine ⟨a, e, outA, outL, ?_⟩
  simp only [runSlots, outA, outL, clash_eq outA outL, apart, Bool.not_true, Bool.false_eq_true, if_false]
  rfl

theorem runSlots_access (legalA : aLegal op i = true) (legalL : lLegal ((laneOf s l).bank k) ls = true)
    (outside : lReaches k ((laneOf s l).bank k) ls = false) : runSlots s l k t x op i ls = threadFault s l k 2 := by
  obtain ⟨a, outA⟩ := aSlot_some (b := (laneOf s l).bank k) (controlReg s l ((laneOf s l).bank k) t x.generation) legalA
  simp only [runSlots, outA, lSlot_access (laneOf s l).mem legalL outside]

theorem runSlots_illegal (fault : aLegal op i = false ∨ lLegal ((laneOf s l).bank k) ls = false ∨
    (lReaches k ((laneOf s l).bank k) ls = true ∧ slotsApart ((laneOf s l).bank k) op i ls = false)) :
    runSlots s l k t x op i ls = threadFault s l k 1 := by
  cases legalA : aLegal op i with
  | false => simp only [runSlots, aSlot_none _ legalA]
  | true =>
    obtain ⟨a, outA⟩ := aSlot_some (b := (laneOf s l).bank k) (controlReg s l ((laneOf s l).bank k) t x.generation) legalA
    cases legalL : lLegal ((laneOf s l).bank k) ls with
    | false => simp only [runSlots, outA, lSlot_illegal (laneOf s l).mem legalL]
    | true =>
      simp only [legalA, legalL, Bool.true_eq_false, false_or] at fault
      obtain ⟨e, outL⟩ := lSlot_done (laneOf s l).mem legalL fault.1
      simp only [runSlots, outA, outL, clash_eq outA outL, fault.2, Bool.not_false, if_true]
end

/-! ### The commands of the A slot and of the L slot -/

/-- The commands of the A slot, each with its operation. -/
def aCommands : List (AOp × (LaneA → Instr)) :=
  [(.add, .add), (.sub, .sub), (.adds, .adds), (.subs, .subs), (.and, .and), (.or, .or), (.xor, .xor),
   (.shl, .shl), (.shr, .shr), (.asr, .asr), (.min, .min), (.max, .max), (.abs, .abs), (.mul, .mul),
   (.mov, .mov), (.mac, .mac), (.msu, .msu), (.dot4, .dot4), (.vmac4, .vmac4), (.aclr, .aclr), (.aext, .aext),
   (.ald, .ald), (.aadd, .aadd), (.dstep, .dstep), (.dfix, .dfix), (.movcTo, .movcTo), (.movcFrom, .movcFrom), (.cmp, .cmp)]

/-- The commands of the L slot but LDXY, each with its operation. -/
def lCommands : List (LOp × (LaneL → Instr)) :=
  [(.ld8s, .ld8s), (.ld16s, .ld16s), (.ld32, .ld32), (.ld64, .ld64), (.ldq, .ldq), (.st8, .st8),
   (.st16, .st16), (.st32, .st32), (.st64, .st64), (.stq, .stq), (.pset, .pset), (.pget, .pget)]

/-- Every command of the A slot issues its word. -/
theorem exec_aCommand (w : LaneA) (s : State) : ∀ p ∈ aCommands, exec (p.2 w) s = .next (issue s w.lane (AForm.word w.form p.1)) := by
  simp only [aCommands, List.forall_mem_cons, List.not_mem_nil, false_imp_iff, implies_true, and_true]
  and_intros <;> rfl

theorem runWord_aForm (s : State) (l : Nat) (k : BankId) (t : Nat) (x : Thread) (f : AForm) (op : AOp) :
    runWord s l k t x (AForm.word f op) = runSlots s l k t x op (operandsOf f) (besideOf f) := by
  cases f <;> rfl

/-- Settles O41: every command issues its word, and the word does what its two slots answer. -/
theorem arithmeticWordsComplete : Obligations.ArithmeticWordsComplete := by
  refine ⟨fun p listed => ⟨?done, ?illegal, ?access, ?other, ?idle⟩, ?nop⟩
  case done =>
    intro s w k t x here word legalA legalL reaches apart
    obtain ⟨a, e, outA, outL, run⟩ := runSlots_done legalA legalL reaches apart
    exact ⟨a, e, outA, outL, (exec_aCommand w s p listed).trans (ok_issue here word ((runWord_aForm ..).trans run))⟩
  case illegal =>
    intro s w k t x here word fault
    exact (exec_aCommand w s p listed).trans (ok_issue here word ((runWord_aForm ..).trans (runSlots_illegal fault)))
  case access =>
    intro s w k t x here word legalA legalL outside
    exact (exec_aCommand w s p listed).trans (ok_issue here word ((runWord_aForm ..).trans (runSlots_access legalA legalL outside)))
  case other =>
    intro s w v word other
    rw [exec_aCommand w s p listed, issue_other word other]
  case idle =>
    intro s w idle
    rw [exec_aCommand w s p listed, issue_idle _ idle]
  case nop =>
    intro s l k t x here word
    exact ok_issue here word rfl

/-- Every command of the L slot but LDXY issues its word. -/
theorem exec_lCommand (w : LaneL) (s : State) : ∀ p ∈ lCommands, exec (p.2 w) s = .next (issue s w.lane (.pair w.beside (.mem p.1 w.x))) := by
  simp only [lCommands, List.forall_mem_cons, List.not_mem_nil, false_imp_iff, implies_true, and_true]
  and_intros <;> rfl

/-- Settles O42: every command issues its word, and the word does what its two slots answer. -/
theorem memoryWordsComplete : Obligations.MemoryWordsComplete := by
  refine ⟨fun p listed => ⟨?done, ?access, ?illegal⟩, ?xyDone, ?xyAccess⟩
  case done =>
    intro s w k t x here word legalA legalL reaches apart
    obtain ⟨a, e, outA, outL, run⟩ := runSlots_done legalA legalL reaches apart
    exact ⟨a, e, outA, outL, (exec_lCommand w s p listed).trans (ok_issue here word run)⟩
  case access =>
    intro s w k t x here word legalA legalL outside
    exact (exec_lCommand w s p listed).trans (ok_issue here word (runSlots_access legalA legalL outside))
  case illegal =>
    intro s w k t x here word fault
    exact (exec_lCommand w s p listed).trans (ok_issue here word (runSlots_illegal (fault.imp_right .inl)))
  case xyDone =>
    intro s l q beside k t x here word legalA legalL reaches apart
    obtain ⟨a, e, outA, outL, run⟩ := runSlots_done legalA legalL reaches apart
    exact ⟨a, e, outA, outL, ok_issue here word run⟩
  case xyAccess =>
    intro s l q beside k t x here word legalA legalL outside
    exact ok_issue here word (runSlots_access legalA legalL outside)

end Sys2Proof.Machine

/-!
The CONTROL words of the lanes (R237, R243, R245, R246, R249, R252): loops and branches of a bank, and one rule for each branch of a command.
-/

namespace Sys2Proof.Machine

/-! ### Loops and branches of a bank -/

section
variable (b : Bank) (target : Nat)

theorem branch_leaves1 (out : target < b.ls1 ∨ b.le1 < target) (active : b.lc1 ≠ 0) : (b.branch target).lc1 = 0 ∧ (b.branch target).lc0 = 0 := by
  simp [Bank.branch, out, active]

theorem branch_leaves0 (out : target < b.ls0 ∨ b.le0 < target) : (b.branch target).lc0 = 0 := by
  by_cases active : b.lc0 = 0 <;> simp [Bank.branch, out, active]

theorem branch_within (start0 : b.ls0 ≤ target) (stop0 : target ≤ b.le0) (start1 : b.ls1 ≤ target) (stop1 : target ≤ b.le1) :
    b.branch target = { b with pc := target } := by
  simp [Bank.branch, Nat.not_lt.2 start0, Nat.not_lt.2 stop0, Nat.not_lt.2 start1, Nat.not_lt.2 stop1]
end

/-- The bank that a legal LOOP leaves. -/
def loopOpened (b : Bank) (level : Nat) (rotate : Bool) (count body : Nat) : Bank :=
  if level = 0 then { b with lc0 := count, ls0 := b.pc + 8, le0 := b.pc + 8 * body, rot0 := rotate, pc := if count = 0 then b.pc + 8 * body + 8 else b.pc + 8 }
  else { b with lc1 := count, ls1 := b.pc + 8, le1 := b.pc + 8 * body, rot1 := rotate, pc := if count = 0 then b.pc + 8 * body + 8 else b.pc + 8 }

theorem loopWord_illegal {b : Bank} {len level count body : Nat} {rotate : Bool} (illegal : loopLegal b len level rotate count body = false) :
    loopWord b len level rotate count body = none := if_pos ((Bool.not_eq_false' _).mp illegal)

theorem loopWord_legal {b : Bank} {len level count body : Nat} {rotate : Bool} (legal : loopLegal b len level rotate count body = true) :
    loopWord b len level rotate count body = some (loopOpened b level rotate count body) := by
  refine (if_neg (Bool.eq_false_iff.1 ((Bool.not_eq_true' _).mp legal))).trans ?_
  unfold loopOpened bodyEnd
  split <;> rfl

/-- A LOOP at a free level is legal while both levels are inactive, if its count fits and its body ends within the code. -/
theorem loopLegal_inactive {b : Bank} {len count body : Nat} (level : Nat) (rotate : Bool) (free0 : b.lc0 = 0) (free1 : b.lc1 = 0) (fits : count ≤ 65535)
    (within : b.pc + 8 * body < len) : loopLegal b len level rotate count body = true := by
  simp [loopLegal, free0, free1, Nat.not_lt.2 fits, within]

theorem advance_repeats0 {b : Bank} (last : b.pc = b.le0) (more : 1 < b.lc0) :
    b.advance = { b with lc0 := b.lc0 - 1, pc := b.ls0, rot := if b.rot0 then (b.rot + 1) % 16 else b.rot } := by
  have active : b.lc0 ≠ 0 := by omega
  simp [Bank.advance, last, more, active]

theorem advance_repeats1 {b : Bank} (free0 : b.lc0 = 0) (last : b.pc = b.le1) (more : 1 < b.lc1) :
    b.advance = { b with lc1 := b.lc1 - 1, pc := b.ls1, rot := if b.rot1 then (b.rot + 1) % 16 else b.rot } := by
  have active : b.lc1 ≠ 0 := by omega
  simp [Bank.advance, loopEnd1, free0, last, more, active]

theorem advance_ends1 {b : Bank} (free0 : b.lc0 = 0) (last : b.pc = b.le1) (once : b.lc1 = 1) :
    b.advance = { b with lc1 := 0, pc := b.pc + 8, rot := if b.rot1 then (b.rot + 1) % 16 else b.rot } := by
  simp [Bank.advance, loopEnd1, free0, last, once]

theorem advance_plain {b : Bank} (out0 : b.lc0 = 0 ∨ b.pc ≠ b.le0) (out1 : b.lc1 = 0 ∨ b.pc ≠ b.le1) : b.advance = { b with pc := b.pc + 8 } := by
  have not0 : ¬ (b.lc0 ≠ 0 ∧ b.pc = b.le0) := by tauto
  have not1 : ¬ (b.lc1 ≠ 0 ∧ b.pc = b.le1) := by tauto
  simp only [Bank.advance, loopEnd1, Bool.and_eq_true, decide_eq_true_eq, not0, not1, if_false]

/-- Settles O47, by what a legal LOOP opens and by the branches of `Bank.advance`. -/
theorem loopsRunTheirCount : Obligations.LoopsRunTheirCount := by
  refine ⟨?opens, ?skips, fun _ => advance_repeats1, fun _ => advance_ends1, fun _ => advance_repeats0, fun _ => advance_plain⟩
  case opens =>
    intro b len rotate count body free0 free1 positive fits within
    have legal (level : Nat) := loopWord_legal (loopLegal_inactive level rotate free0 free1 fits within)
    simp [legal, loopOpened, positive.ne']
  case skips =>
    intro b len level rotate body free0 free1 within
    refine ⟨_, loopWord_legal (loopLegal_inactive level rotate free0 free1 (Nat.zero_le _) within), ?_⟩
    unfold loopOpened
    split <;> exact ⟨rfl, by simp [free0], by simp [free1]⟩

/-! ### CONTROL words -/

section
variable {s : State} {l : Nat} {k : BankId} {x : Thread}

theorem branchTarget_eq {b : Bank} {len : Nat} {off : Int} (least : 0 ≤ branchAddress b off) (within : branchAddress b off < (len : Int)) :
    branchTarget b len off = some (branchAddress b off).toNat := by
  refine if_pos ?_
  rw [Bool.and_eq_true, decide_eq_true_eq, decide_eq_true_eq]
  exact ⟨least, within⟩

theorem runControl_loop_illegal {level count body : Nat} {rotate isReg : Bool}
    (illegal : ∀ n, loopLegal ((laneOf s l).bank k) (codeLength s x) level rotate n body = false) :
    runControl s l k x (.loop level rotate isReg count body) = threadFault s l k 1 := by
  simp only [runControl, loopWord_illegal (illegal _)]
end

/-- A LOOP is illegal at a level that is not free, whatever its count. -/
theorem loopLegal_active {b : Bank} {level : Nat} {rotate : Bool} (len count body : Nat)
    (active : (level = 0 ∧ b.lc0 ≠ 0) ∨ (level = 1 ∧ b.lc1 ≠ 0) ∨ (level = 1 ∧ b.lc0 ≠ 0) ∨
      (rotate = true ∧ level = 0 ∧ b.lc1 ≠ 0 ∧ b.rot1 = true) ∨ (rotate = true ∧ level = 1 ∧ b.lc0 ≠ 0 ∧ b.rot0 = true)) :
    loopLegal b len level rotate count body = false := by
  obtain ⟨rfl, busy⟩ | ⟨rfl, busy⟩ | ⟨rfl, busy⟩ | ⟨rfl, rfl, busy, other⟩ | ⟨rfl, rfl, busy, other⟩ := active
  all_goals simp [loopLegal, *]

/-- Settles O46, by the conditions of a legal LOOP and by the two levels that a branch leaves. -/
theorem illegalLoopsAndBranchesOut : Obligations.IllegalLoopsAndBranchesOut := by
  refine ⟨?illegal, branch_leaves1, branch_leaves0, ?within⟩
  case illegal =>
    intro s l level rotate isReg count body k t x here word active
    exact ok_issue here word (runControl_loop_illegal fun n => loopLegal_active _ n body active)
  case within =>
    intro b target start0 stop0 start1 stop1
    rw [branch_within b target start0 stop0 start1 stop1]
    exact ⟨rfl, rfl, rfl⟩

section
variable {s : State} {l : Nat} {k : BankId} {x : Thread}

/-- WAIT on an event that there is: the lane is given up, after a fence where transfers are outstanding. -/
theorem runControl_wait {mode value : Nat} (known : mode = 2 → value ≤ 63) :
    runControl s l k x (.wait mode value) =
      if ((laneOf s l).bank k).transfers = [] then doWait (controlDone s l k ((laneOf s l).bank k) 1) l k mode value
      else controlDone s l k { (laneOf s l).bank k with fenced := true, waitNext := some (mode, value) } 1 := by
  have fits : ¬ (mode = 2 ∧ 63 < value) := fun h => absurd (known h.1) (Nat.not_le.2 h.2)
  simp only [runControl, Bool.and_eq_true, decide_eq_true_eq, fits, if_false, List.isEmpty_iff]
  rfl

/-- What FETCH and PUT do with aligned addresses: the transfer is queued, unless eight are outstanding. -/
theorem transferWord_fits {isPut : Bool} {r pair words : Nat} (even : pair % 2 = 0) (fits : transferFits k ((laneOf s l).bank k) r pair words = true) :
    transferWord s l k isPut r pair words =
      if 8 ≤ ((laneOf s l).bank k).transfers.length then s
      else controlDone s l k ({ (laneOf s l).bank k with
        transfers := ((laneOf s l).bank k).transfers ++ [transferOf ((laneOf s l).bank k) isPut r pair words] }).advance 1 := by
  simp only [transferFits, Bool.and_eq_true, Bool.or_eq_true, decide_eq_true_eq] at fits
  obtain ⟨⟨⟨localAligned, aligned⟩, within⟩, below⟩ := fits
  simp only [transferOf] at localAligned aligned within below
  have reserve : ¬ (k = .normal ∧ 14336 < (((laneOf s l).bank k).dreg r).toNat + 64 * words) :=
    fun h => below.elim (· h.1) (Nat.not_le.2 h.2)
  simp only [transferWord, even, localAligned, aligned, within, ne_eq, not_true_eq_false, if_false, decide_false, decide_true, Bool.not_true, Bool.or_false,
    Bool.false_or, Bool.and_eq_true, decide_eq_true_eq, reserve]
  rfl
end

/-- Settles O43, by one branch of `runControl` for each clause. -/
theorem controlWordsComplete : Obligations.ControlWordsComplete := by
  refine ⟨?br, ?brNot, ?call, ?ret, ?loop, ?loopReg, ?wait, ?waitFence, ?signal, ?signalLow, ?spawn, ?fetch, ?put, ?stall, ?fence, ?none⟩
  case br =>
    intro s l cond off k t x here word holds least within
    refine ok_issue here word ?_
    simp only [runWord, runControl, holds, branchTarget_eq least within]
    rfl
  case brNot =>
    intro s l cond off k t x here word holds
    refine ok_issue here word ?_
    simp only [runWord, runControl, holds]
    rfl
  case call =>
    intro s l cond off k t x here word holds least within
    refine ok_issue here word ?_
    simp only [runWord, runControl, holds, branchTarget_eq least within]
    rfl
  case ret =>
    intro s l k t x here word aligned within
    refine ok_issue here word ?_
    simp only [runWord, runControl, aligned, within, decide_true, Bool.and_self, if_true]
    rfl
  case loop =>
    intro s l level count body rotate k t x here word legal
    refine ⟨_, loopWord_legal legal, ok_issue here word ?_⟩
    simp only [runWord, runControl, Bool.false_eq_true, if_false, loopWord_legal legal]
    rfl
  case loopReg =>
    intro s l level r body rotate k t x here word legal
    refine ⟨_, loopWord_legal legal, ok_issue here word ?_⟩
    simp only [runWord, runControl, if_true, loopWord_legal legal]
    rfl
  case wait =>
    intro s l mode value k t x here word known idle
    exact ok_issue here word ((runControl_wait (x := x) known).trans (if_pos idle))
  case waitFence =>
    intro s l mode value k t x here word known busy
    exact ok_issue here word ((runControl_wait (x := x) known).trans (if_neg busy))
  case signal =>
    intro s l cluster ev k t x here word free
    exact ok_issue here word (if_neg (Nat.not_lt.2 free))
  case signalLow =>
    intro s l cluster ev k t x here word reserved
    exact ok_issue here word (if_pos reserved)
  case spawn =>
    intro s l entry arg result k t x here word
    exact ok_issue here word rfl
  case fetch =>
    intro s l r pair words k t x here word even fits room
    exact ok_issue here word ((transferWord_fits even fits).trans (if_neg (Nat.not_le.2 room)))
  case put =>
    intro s l r pair words k t x here word even fits room
    exact ok_issue here word ((transferWord_fits even fits).trans (if_neg (Nat.not_le.2 room)))
  case stall =>
    intro s l r pair words k t x here word even fits full
    exact ok_issue here word ((transferWord_fits even fits).trans (if_pos full))
  case fence =>
    intro s l k t x here word
    exact ok_issue here word rfl
  case none =>
    intro s l k t x here unspelled
    exact ⟨congrArg _ (issue_unspelled _ here unspelled), congrArg _ (issue_unspelled _ here unspelled)⟩

end Sys2Proof.Machine

/-!
The events of the Hatstand (R243, R244, R255, R256, R260): one rule for each branch of a command.
-/

namespace Sys2Proof.Machine

/-! ### Transfers -/

/-- A reply to a range is the Crown's refusal of a word in it. -/
theorem rangeReply_refuses {s : State} {src a n : Nat} {r : Nat × CrownReply} (refused : rangeReply s src a n = some r) :
    r.2 ≠ .pass ∧ a ≤ r.1 ∧ r.1 < a + n := by
  obtain ⟨w, listed, reply⟩ := List.exists_of_findSome?_eq_some refused
  obtain ⟨listed, within⟩ := List.mem_filter.1 listed
  obtain ⟨j, -, rfl⟩ := List.mem_map.1 listed
  split at reply
  · cases reply
  · next denied =>
    cases reply
    exact ⟨denied, le_max_left _ _, of_decide_eq_true within⟩

section
variable {s : State} {l bank t : Nat} {r : TransferResult} {x : Transfer} {xs : List Transfer}
  (oldest : ((laneOf s l).bank (bankOfNumber bank)).transfers = x :: xs) (runs : (laneOf s l).threadIn (bankOfNumber bank) = some t)
  (service : inService s = true)
include oldest runs service

theorem exec_transferDone_moves (whole : r.error = false) (passes : rangeReply s (enginePort 3 (l / 8)) x.address (64 * x.words) = none) :
    exec (.transferDone l bank r) s = .next (endTransfer s l (bankOfNumber bank) x r) := by
  simp [exec, execTransferDone, oldest, runs, service, whole, passes]

theorem exec_transferDone_refused {e : Nat × CrownReply} (whole : r.error = false)
    (refused : rangeReply s (enginePort 3 (l / 8)) x.address (64 * x.words) = some e) :
    exec (.transferDone l bank r) s = .next (threadFault (answerCrown s (enginePort 3 (l / 8)) e.1 e.2) l (bankOfNumber bank) 3) := by
  simp [exec, execTransferDone, oldest, runs, service, whole, refused]

theorem exec_transferDone_error (error : r.error = true) :
    exec (.transferDone l bank r) s = .next (threadFault s l (bankOfNumber bank) 3) := by
  simp [exec, execTransferDone, oldest, runs, service, error]
end

/-! ### Threads -/

section
variable {s : State} {t : Nat} {x : Thread} (here : threadOf s t = some x) (service : inService s = true) (ready : x.state = .ready)
include here service ready

theorem exec_preempt {y : Thread} (privileged : x.privileged = true) (normal : (laneOf s (8 * x.cluster + x.lane)).active = some .normal)
    (first : readyPrivOf s (8 * x.cluster + x.lane) = some t) (adopted : threadOf (adopt s t) t = some y) :
    exec (.preempt t) s = .next (dispatchPriv (bump (adopt s t) Reg.MITTEN.PREEMPTIONS) (8 * x.cluster + x.lane) t y) := by
  simp [exec, execPreempt, here, service, ready, privileged, normal, first, adopted]

theorem exec_affinityExpiry {u : State} (affinity : x.affinity = true) (due : reach s (x.readyAt / Config.fracUnit + 2000) = some u) :
    exec (.affinityExpiry t) s = .next (schedule (updThread u t (fun y => { y with affinity := false })) x.cluster) := by
  simp only [exec, execAffinityExpiry, here, service, ready, affinity, due]
  rfl
end

theorem exec_runaway {s : State} {l t : Nat} {k : BankId} (active : (laneOf s l).active = some k) (service : inService s = true)
    (ran : rd s Reg.MITTEN.MITTEN_CONFIG ≤ if k = .normal then (laneOf s l).run else (laneOf s l).runPriv)
    (runs : (laneOf s l).threadIn k = some t) : exec (.runaway l) s = .next (threadFault s l k 4) := by
  cases k <;> simp_all [exec, execRunaway]

/-- Settles O50, by one rule for each command. -/
theorem hatstandEventsComplete : Obligations.HatstandEventsComplete := by
  refine ⟨?moves, ?refused, ?error, ?preempt, ?affinity, ?normal, ?privileged⟩
  case moves =>
    intro s l bank t r x xs oldest runs service whole passes
    exact exec_transferDone_moves oldest runs service whole (Option.isNone_iff_eq_none.1 passes)
  case refused =>
    intro s l bank t r x xs oldest runs service whole refused
    obtain ⟨⟨a, e⟩, refused⟩ := Option.isSome_iff_exists.1 refused
    obtain ⟨denied, from_, below⟩ := rangeReply_refuses refused
    exact ⟨a, e, refused, denied, from_, below, exec_transferDone_refused oldest runs service whole refused⟩
  case error =>
    intro s l bank t r x xs oldest runs service error
    exact exec_transferDone_error oldest runs service error
  case preempt =>
    intro s t x y here service privileged ready normal first adopted
    exact exec_preempt here service ready privileged normal first adopted
  case affinity =>
    rintro s _ t x here service ready affinity due rfl
    exact exec_affinityExpiry here service ready affinity (reach_reachable due)
  case normal =>
    intro s l t active service ran runs
    exact exec_runaway active service ran runs
  case privileged =>
    intro s l t k active notNormal service ran runs
    exact exec_runaway active service (by rwa [if_neg notNormal]) runs

end Sys2Proof.Machine

/-!
The packet path from a MAC to classification (R273 to R292): one rule for each branch of a command.
-/

namespace Sys2Proof.Machine

/-! ### Frames -/

/-- The turn of a Cuff at its parse engine, which has no packet of its second pass to take first. -/
def parseTurn (s : State) (m : Nat) : Bool :=
  inService s && decide (m < 18) && inServiceEngine s 5 (parseEngine s m) && !s.faults.resetting.contains (engineId 5 (parseEngine s m))
    && ((s.ingress.recirc.get (parseEngine s m)).getD []).isEmpty && nextCuff s (parseEngine s m) = some m

section
variable {s : State} {m : Nat}

/-- A frame that arrives on a link that is up is given its outcome, unless the receive buffer has no room for it. -/
theorem exec_frameReceived (f : MacFrame) (service : inService s = true) (mac : macValid s m = true) (up : linkUp s m = true) :
    exec (.frameReceived m f) s = .next
      (if rxBuffer (countFec s m f) m < rxUsed (countFec s m f) m + min f.length (rd (countFec s m f) (Reg.ETH.PORT_CONFIG_MAX_FRAME.on m)) then
        raise (bump (countFec s m f) (Reg.ETH.RX_OVERFLOW.on m)) (Reg.ETH.PORT_EVENTS_RX_OVERFLOW.on m)
      else frameOutcome (countFec s m f) m f) := by
  simp only [exec, execFrameReceived, service, mac, up, Bool.and_self, Bool.not_true, Bool.false_eq_true, if_false]
  split <;> rfl

theorem exec_cuffBankSwitch (stalled : (cuffOf s m).stalled = true) (emptied : (cuffOf s m).words.all (fun w => w.1 = (cuffOf s m).bank) = true) :
    exec (.cuffBankSwitch m) s = .next (withCuff s m (fillCuff (bankWords s m) { cuffOf s m with stalled := false } (cuffOf s m).waiting)) := by
  simp only [exec, execCuffBankSwitch, stalled, emptied, Bool.and_self, if_true]

/-- A whole frame whose words are intact or corrected is read. -/
theorem exec_frameParse_whole {r : ParseReads} {ws rest : List (Bool × CuffWord)} (turn : parseTurn s m = true)
    (synced : (cuffOf s m).resync = false) (clean : (cuffOf s m).poisoned = false) (whole : splitFrame (cuffOf s m).words = some (ws, rest))
    (tags : badTag ws r.errors = false) (data : badData ws r.errors = false) :
    exec (.frameParse m r) s = .next (parseRead (withCuff (withIngress (countCorrected s m ws r.errors)
        (fun i => { i with lastCuff := i.lastCuff.put (parseEngine s m) m })) m
      { cuffOf s m with words := rest, gathered := [], poisoned := false, marked := false })
      (readPreface (((((cuffOf s m).gathered ++ ws.map (·.2)).find? (·.preface)).map (·.data)).getD []))
      (((((cuffOf s m).gathered ++ ws.map (·.2)).find? (·.preface)).map (·.boundary)).getD 0)
      ((((cuffOf s m).gathered ++ ws.map (·.2)).filter (fun w => !w.preface)).flatMap (·.data)) r.bucketPoisoned) := by
  unfold parseTurn at turn
  simp only [exec, execFrameParse, turn, synced, clean, whole, tags, data, Bool.not_true, Bool.or_self, Bool.false_eq_true, if_false]
end

theorem exec_fragTimeout {s u : State} {k : Nat} {e : FragEntry} (here : s.ingress.fragments.get k = some e) (opened : e.closed = false)
    (service : inService s = true) (due : reach s (fragmentEnd s e) = some u) :
    exec (.fragTimeout k) s = .next (closeFragment u k e Reg.INGRESS.FRAG_TIMEOUTS) := by
  simp [exec, execFragTimeout, here, opened, service, due]

/-! ### The second pass -/

/-- Media out of a tunnel go to their leg, while their generation is the current one or the old one. -/
theorem exec_recirculated_media {s : State} {engine : Nat} {x : Recirculated} {rest : List Recirculated} (layers : MediaPacket)
    (oldest : (s.ingress.recirc.get engine).getD [] = x :: rest) (service : inService s = true) (inUse : inServiceEngine s 5 engine = true)
    (runs : s.faults.resetting.contains (engineId 5 engine) = false)
    (live : x.generation = s.trust.current.number ∨ ∃ o, s.trust.old = some o ∧ o.number = x.generation)
    (media : x.label = 1) :
    exec (.recirculated engine ⟨layers, false⟩) s = .next (takeTunnelMedia
      (bump (withIngress s (fun i => { i with recirc := i.recirc.put engine rest })) Reg.INGRESS.RECIRCULATED) x layers) := by
  have listed : (decide (x.generation = s.trust.current.number) || (s.trust.old.map (fun o => decide (o.number = x.generation))).getD false) = true := by
    obtain current | ⟨o, old, same⟩ := live
    · simp [current]
    · simp [old, same]
  have kept (f : IngressState → IngressState) : (withIngress s f).trust = s.trust := rfl
  simp only [exec, execRecirculated, oldest, service, inUse, runs, media, bump_trust, kept, listed, Bool.and_self, Bool.not_true, Bool.not_false,
    Bool.false_eq_true, if_false, if_true]

/-- Settles O35, by one rule for each command. -/
theorem ingressCommandsComplete : Obligations.IngressCommandsComplete := by
  refine ⟨?room, ?overflow, fun s m => exec_cuffBankSwitch, ?parse, ?fragment, ?recirculated⟩
  case room =>
    intro s m f service mac up room
    rw [exec_frameReceived f service mac up, if_neg (Nat.not_lt.2 room)]
  case overflow =>
    intro s m f service mac up full
    rw [exec_frameReceived f service mac up, if_pos full]
  case parse =>
    intro s m bucketPoisoned service within inUse runs first next synced clean ws rest whole tags data
    have turn : parseTurn s m = true := by simp only [parseTurn, service, within, inUse, runs, first, next, decide_true, Bool.not_false, Bool.and_self]
    exact exec_frameParse_whole turn synced clean whole tags data
  case fragment =>
    rintro s _ k e here opened service due rfl
    exact exec_fragTimeout here opened service (reach_reachable due)
  case recirculated =>
    intro s engine layers x rest oldest service inUse runs current media
    exact exec_recirculated_media layers oldest service inUse runs (.inl current) media

end Sys2Proof.Machine

/-!
The cipher clusters and the Palm (R296 to R314): one rule for each branch of a command.
-/

namespace Sys2Proof.Machine

/-! ### The acceptance of a job -/

section
variable {s : State} {cluster port : Nat} {b : List Byte} {p : JobPurpose} (service : inService s = true) (whole : s.trust.zeroizing = false)
  (known : cluster < 8) (asked : wanted s p (readJobDesc b) = true) (allowed : maySubmit port (readJobDesc b) = true)
  (inUse : inServiceEngine s 4 cluster = true) (passes : portReply s port (enginePort 4 cluster) = .pass)
  (room : (s.cipher.jobs.filter (fun j => j.cluster = cluster)).length < 256)
include service whole known asked allowed inUse passes room

/-- A descriptor that meets no test of R303 is accepted under the entry and the version that its key names. -/
theorem exec_cipherJobAccept_accepts {entry version : Nat} (key : jobKey (unsubmit s p) cluster (readJobDesc b) = some (entry, version))
    (good : jobStatus (unsubmit s p) cluster (readJobDesc b) = 0) : exec (.cipherJobAccept cluster port b p) s =
      .next (acceptJob (placeJob (unsubmit s p) (readJobDesc b) p) cluster port (readJobDesc b) p entry version) := by
  simp [exec, execCipherJobAccept, service, whole, known, asked, allowed, inUse, passes, Nat.not_le.2 room, key, good]

/-- A descriptor that fails a test of R303 is refused with the status of that test, whether or not its key is at hand. -/
theorem exec_cipherJobAccept_refuses (bad : jobStatus (unsubmit s p) cluster (readJobDesc b) ≠ 0) : exec (.cipherJobAccept cluster port b p) s =
      .next (refuseJob (unsubmit s p) cluster port (readJobDesc b) p (jobStatus (unsubmit s p) cluster (readJobDesc b))) := by
  cases key : jobKey (unsubmit s p) cluster (readJobDesc b) <;>
    simp [exec, execCipherJobAccept, service, whole, known, asked, allowed, inUse, passes, Nat.not_le.2 room, key, bad]
end

/-! ### The completion of a job -/

/-- A job whose core and addresses are sound ends with status 5 where a word that it read is poisoned, and completes otherwise. -/
theorem exec_cipherCompletion {s : State} {j : CipherJob} {r : JobResult} (here : s.cipher.jobs.find? (fun k => k.id = j.id) = some j)
    (service : inService s = true) (turn : mayComplete s j = true) (core : r.core / 4 = j.cluster) (sound : r.failed = false)
    (mapped : r.addrError = false) (passes : (jobRefused (countCore s r.core (coreCycles j.desc + r.stall)) j).isSome = false) :
    exec (.cipherCompletion j.id r) s = .next
      (if r.poisoned || sourcePoisoned (countCore s r.core (coreCycles j.desc + r.stall)) j.desc then
        failJob (countCore s r.core (coreCycles j.desc + r.stall)) j 5
      else completeJob (countCore s r.core (coreCycles j.desc + r.stall)) j r) := by
  simp only [exec, execCipherCompletion, here, service, turn, core, sound, mapped, passes, decide_true, Bool.and_self, Bool.not_true,
    Bool.false_eq_true, if_false]
  split <;> rfl

/-! ### Loads and re-sharing -/

/-- A flit that is served changes the credit and the turns of the Crown alone. -/
theorem flitServed_eq (s : State) (src dst : Nat) : ∃ c, flitServed s src dst = { s with crown := c } := by
  unfold flitServed
  split <;> exact ⟨_, rfl⟩

/-- A path stays open or closed while a load ends and its flit is served. -/
theorem pathOpen_flitServed_endLoad (s : State) (slot src dst a b : Nat) : pathOpen (flitServed (endLoad s slot) src dst) a b = pathOpen s a b := by
  obtain ⟨c, served⟩ := flitServed_eq (endLoad s slot) src dst
  rw [served]
  rfl

theorem trust_flitServed_endLoad (s : State) (slot src dst : Nat) : (flitServed (endLoad s slot) src dst).trust = s.trust := by
  obtain ⟨c, served⟩ := flitServed_eq (endLoad s slot) src dst
  rw [served]
  rfl

/-- A load at work whose key unwraps, and whose port reaches the cluster, delivers its shares to the slot. -/
theorem exec_keyLoad_delivers {s : State} {cluster slot : Nat} {k : KeyEntry} (service : inService s = true) (whole : s.trust.zeroizing = false)
    (home : slot / 128 = cluster) (works : (loadsAtWork s).contains slot = true) (key : s.trust.keys.get (palmSlot s slot).entry = some k)
    (sound : k.corrupt = false) (path : pathOpen s (if creditFree s 73 then 73 else 89) (enginePort 4 cluster) = true) :
    exec (.keyLoad cluster slot true) s =
      .next (deliverShares (flitServed (endLoad s slot) (if creditFree s 73 then 73 else 89) (enginePort 4 cluster)) slot) := by
  simp only [exec, execKeyLoad, service, whole, home, works, pathOpen_flitServed_endLoad, path, trust_flitServed_endLoad, key, sound, decide_true,
    Bool.not_true, Bool.not_false, Bool.and_self, Bool.false_eq_true, if_false, if_true]

theorem exec_palmReshare {s : State} {cluster slot : Nat} (service : inService s = true) (home : slot / 128 = cluster)
    (resident : (palmSlot s slot).state = .resident)
    (due : rd s Reg.CIPHER.CIPHER_CONFIG_REFRESH_TICKS ≤ since s (palmSlot s slot).loadedAt) :
    exec (.palmReshare cluster slot) s =
      .next (setSlot (draw s).1 slot { palmSlot s slot with loadedAt := s.time.boundaries, shares := (draw s).2 }) := by
  simp [exec, execPalmReshare, service, home, resident, due]

/-- Settles O36, by one rule for each branch of a command. -/
theorem cipherCommandsComplete : Obligations.CipherCommandsComplete := by
  refine ⟨?accepts, ?refuses, ?completes, ?poisoned, ?load, ?reshare⟩
  case accepts =>
    intro s cluster port b p service whole known asked allowed inUse passes room good named
    obtain ⟨⟨entry, version⟩, key⟩ := Option.isSome_iff_exists.1 named
    exact ⟨entry, version, key, exec_cipherJobAccept_accepts service whole known asked allowed inUse passes room key good⟩
  case refuses =>
    intro s cluster port b p service whole known asked allowed inUse passes room bad
    exact exec_cipherJobAccept_refuses service whole known asked allowed inUse passes room bad
  case completes =>
    intro s j r here service turn core sound mapped intact passes clean
    rw [exec_cipherCompletion here service turn core sound mapped passes, if_neg (by simp [intact, clean])]
  case poisoned =>
    intro s j r here service turn core sound mapped passes poisoned
    rw [exec_cipherCompletion here service turn core sound mapped passes, if_pos (by simp [poisoned])]
  case load =>
    intro s cluster slot k service whole home works key sound path
    exact exec_keyLoad_delivers service whole home works key sound path
  case reshare =>
    intro s cluster slot service home resident due
    exact exec_palmReshare service home resident due

end Sys2Proof.Machine

/-!
The tunnels (R330 to R334): the checks of a received frame in their order, and one rule for each command.
-/

namespace Sys2Proof.Machine

/-! ### The checks before decryption -/

section
variable {s : State} {a : TunnelArrival} {x : Tunnel}

theorem takeArrival_of_badHeader (bad : headerFits a x = false) : takeArrival s a x = rejectFrame s a.tunnel Reg.GAUNTLET.HEADER_BAD := by
  simp [takeArrival, bad]

variable (fit : headerFits a x = true)
include fit

theorem takeArrival_of_notActive (idle : x.state ≠ .active) : takeArrival s a x = rejectFrame s a.tunnel Reg.GAUNTLET.NOT_ACTIVE := by
  simp [takeArrival, fit, idle]

variable (active : x.state = .active)
include active

theorem takeArrival_of_unknownEpoch (unknown : epochOk s x (readTunnelHeader a.frame).epoch = false) :
    takeArrival s a x = rejectFrame s a.tunnel Reg.GAUNTLET.EPOCH_UNKNOWN := by
  simp [takeArrival, fit, active, unknown]

variable (known : epochOk s x (readTunnelHeader a.frame).epoch = true)
include known

/-- A frame that passes every check goes to the cipher clusters, with what its header and its stamp say. -/
theorem takeArrival_of_admitted (admitted : windowCheck x (readTunnelHeader a.frame).sequence = 0) :
    takeArrival s a x = withCipher s (fun c => { c with submitted := c.submitted
      ++ [.gauntletIn a.tunnel (readTunnelHeader a.frame).epoch (readTunnelHeader a.frame).sequence (readTunnelHeader a.frame).up a.stamp a.boundary
        a.port a.generation a.frame] }) := by
  simp [takeArrival, fit, active, known, admitted]

theorem takeArrival_of_replayed (replayed : windowCheck x (readTunnelHeader a.frame).sequence = 1) :
    takeArrival s a x = rejectFrame s a.tunnel Reg.GAUNTLET.REPLAYED := by
  simp [takeArrival, fit, active, known, replayed]

theorem takeArrival_of_belowWindow (below : windowCheck x (readTunnelHeader a.frame).sequence = 2) :
    takeArrival s a x = rejectFrame s a.tunnel Reg.GAUNTLET.REPLAY_OLD := by
  simp [takeArrival, fit, active, known, below]
end

/-! ### The commands of a tunnel -/

section
variable {s : State} {a : TunnelArrival} {rest : List TunnelArrival} (oldest : s.gauntlet.arrivals = a :: rest) (service : inService s = true)
include oldest service

/-- The oldest frame leaves those that wait, and meets the checks of its tunnel. -/
theorem exec_gauntletFrameRx_takes {x : Tunnel} (here : s.gauntlet.tunnels.get a.tunnel = some x) :
    exec (.gauntletFrameRx a.port a.stamp a.frame) s =
      .next (takeArrival { s with gauntlet := { s.gauntlet with arrivals := rest } } a x) := by
  simp [exec, execGauntletFrameRx, oldest, service, here]

/-- A frame whose tunnel has gone leaves those that wait, and nothing else. -/
theorem exec_gauntletFrameRx_drops (gone : s.gauntlet.tunnels.get a.tunnel = none) :
    exec (.gauntletFrameRx a.port a.stamp a.frame) s = .next { s with gauntlet := { s.gauntlet with arrivals := rest } } := by
  simp [exec, execGauntletFrameRx, oldest, service, gone]
end

section
variable {s : State} {t : Nat} {x : Tunnel} (here : s.gauntlet.tunnels.get t = some x)
include here

theorem exec_tunnelFrameSlot {u : State} {b : BuiltFrame} {bs : List BuiltFrame} (first : x.built = b :: bs) (service : inService s = true)
    (encrypted : b.sealed_ = true) (due : reach s b.slot = some u) : exec (.tunnelFrameSlot t) s = .next (sendTunnelFrame u t x b) := by
  simp only [exec, execTunnelFrameSlot, here, first, service, encrypted, due, Bool.and_self, Bool.not_true, Bool.false_eq_true, if_false]

/-- Where the tunnel holds no token back, the release of its old key is all. -/
theorem exec_oldEpochExpiry {old : Nat} (free : oldKeyFree s x = some old) (held : x.heldKey = none) :
    exec (.oldEpochExpiry t) s = .next (releaseKey (updTunnel s t (fun x => { x with oldEpoch := none, heldKey := none })) old) := by
  simp only [exec, execOldEpochExpiry, here, free, held]

theorem exec_tunnelDown (service : inService s = true) (up : x.up = true) (silent : x.lastValidBoundary + 65 ≤ s.time.boundaries) :
    exec (.tunnelDown t) s = .next (raise (updTunnel s t
      (fun x => { x with up := false, downCount := x.downCount + 1, peerDownRaised := false })) Reg.GAUNTLET.GAUNTLET_EVENTS_TUNNEL_DOWN) := by
  simp only [exec, execTunnelDown, here, service, up, silent, decide_true, Bool.and_self, if_true]
end

/-- Settles O51, by one rule for each check of a received frame and for each command. -/
theorem tunnelCommandsComplete : Obligations.TunnelCommandsComplete := by
  refine ⟨?arrival, fun s a rest oldest service gone => exec_gauntletFrameRx_drops oldest service gone, ?slot,
    fun s t x old here free held => exec_oldEpochExpiry here free held, fun s t x here service up silent => exec_tunnelDown here service up silent⟩
  case arrival =>
    rintro s _ a rest x oldest service rfl here
    rw [exec_gauntletFrameRx_takes oldest service here]
    refine ⟨fun bad => ?_, fun fit idle => ?_, fun fit active unknown => ?_, fun fit active known => ⟨fun admitted => ?_, fun replayed => ?_, fun below => ?_⟩⟩
    · rw [takeArrival_of_badHeader bad]
    · rw [takeArrival_of_notActive fit idle]
    · rw [takeArrival_of_unknownEpoch fit active unknown]
    · rw [takeArrival_of_admitted fit active known admitted]
    · rw [takeArrival_of_replayed fit active known replayed]
    · rw [takeArrival_of_belowWindow fit active known below]
  case slot =>
    rintro s _ t x b bs here first service encrypted due rfl
    exact exec_tunnelFrameSlot here first service encrypted (reach_reachable due)

end Sys2Proof.Machine

/-!
The Band (R342 to R354): one rule for each command, on the branch in which it acts.
-/

namespace Sys2Proof.Machine

/-! ### Release and pacing -/

/-- The release at a boundary: every participant in ascending index, then every tunnel that the participants leave (R343, R346). -/
def releaseDue (s : State) : State :=
  let v := s.participants.foldl (fun v e => releaseParticipant v s.time.boundaryAt e.1 e.2) (markOnce s 1)
  v.gauntlet.tunnels.foldl (fun v e => releaseTunnelNow v s.time.boundaryAt e.1 e.2) v

/-- The slot of the timing wheel that begins next: the present one while the wheel lags behind it, and the one after it otherwise (R342). -/
def nextSlot (s : State) : Nat := nowNs s / 1000 + (if s.band.wheelSlot < nowNs s / 1000 then 0 else 1)

section
variable {s : State} (service : inService s = true)
include service

theorem exec_bandRelease (due : onceDue s 1 = true) :
    exec .bandRelease s = .next { releaseDue s with band := { (releaseDue s).band with releaseAll := false } } := by
  simp only [exec, execBandRelease, service, due, Bool.and_self, if_true, releaseDue]

/-- The wheel moves to its next slot; counting the entries that leave the overflow list does not move it again. -/
theorem exec_pacingSlot {u : State} (due : reach s (nextSlot s * 1000) = some u) :
    ∃ t, exec .pacingSlot s = .next t ∧ t.band.wheelSlot = nextSlot s := by
  unfold nextSlot at due
  simp only [exec, execPacingSlot, service, due, Bool.not_true, Bool.false_eq_true, if_false]
  exact ⟨_, rfl, by rw [bumpBy_band]; rfl⟩

/-! ### Transmission and gates -/

/-- When an egress point is free, in ps: its last frame and the gap after it have passed, and its port has woken (R349, R366). -/
def freeFrom (s : State) (e : Nat) : Nat :=
  max ((s.band.freeAt.get e).getD 0) (((s.eth.get e).map (fun p => p.wakeUntil)).getD 0 * 1000)

theorem exec_egressFree {u : State} {e : Nat} (mac : e < 16) (valid : egressValid s e = true) (transmits : canTransmit s e = true)
    (awake : rd s (Reg.ETH.PORT_STATUS_LPI_TX.on e) ≠ 1) (due : reach s (ceilDiv (freeFrom s e) 1000) = some u) :
    exec (.egressFree e) s = .next (considerClasses u e (max (freeFrom s e) (nowPs s)) classOrder) := by
  unfold freeFrom at due
  simp only [exec, execEgressFree, mac, service, valid, transmits, awake, due, decide_true, Bool.and_self, Bool.not_true, Bool.false_eq_true,
    if_false, freeFrom]

/-- The entry of a gate list in force at a local time: its index, its gates, and the offset in the cycle at which it ends (R351). -/
def gateEntryOf (g : GateList) (t : Nat) : Nat × Nat × Nat := gateEntryAt g.entries (cycleOffset g t)

/-- The gates of an egress point stand as given. -/
def withGate (s : State) (e : Nat) (st : GateState) : State := { s with band := { s.band with gates := s.band.gates.put e st } }

/-- While the recorded entry is in force, the command waits for that entry's end and puts the one that begins there in force. -/
theorem exec_gateEntryChange {u : State} {e : Nat} {g : GateList} {st : GateState} (list : gateOf s e = some g)
    (gates : s.band.gates.get e = some st) (inForce : (gateEntryOf g (nowNs s)).1 = st.entry)
    (due : reach s (nowNs s + ((gateEntryOf g (nowNs s)).2.2 - cycleOffset g (nowNs s))) = some u) :
    exec (.gateEntryChange e) s = .next (gateInstant (withGate u e { st with entry := (gateEntryOf g (nowNs u)).1 }) e
      (gatesOf (some g) st.entry) (gateEntryOf g (nowNs u)).2.1) := by
  unfold gateEntryOf at inForce due
  simp only [exec, execGateEntryChange, service, list, gates, inForce, due, Bool.not_true, Bool.false_eq_true, if_false, ne_eq, not_true_eq_false,
    withGate, gateEntryOf]

/-- A list that follows another wakes a sleeping port too (R366). -/
theorem exec_gateListChanged {u : State} {e t : Nat} {st : GateState} {l : GateList} (gates : s.band.gates.get e = some st)
    (waits : st.next = some (some l, t)) (due : reach s t = some u) :
    exec (.gateListChanged e) s = .next (raise (wr (gateInstant
      (withGate u e { current := some l, next := none, entry := (gateEntryOf l (nowNs u)).1 }) e
      (gatesOf st.current st.entry) (gateEntryOf l (nowNs u)).2.1) (Reg.ETH.PORT_STATUS_LPI_TX.on e) 0) Reg.BAND.BAND_EVENTS_GATE_LIST_CHANGED) := by
  simp only [exec, execGateListChanged, service, gates, waits, due, Bool.not_true, Bool.false_eq_true, if_false, Option.isSome_some, if_true,
    withGate, gateEntryOf]
end

/-! ### Grants -/

/-- A grant of an Alloc-ID that waits to be filled. -/
def waitsFor (a : Nat) (g : Grant) : Bool := g.allocId = a && !g.filled

/-- A burst whose window is open and which holds a grant of an Alloc-ID that waits to be filled (R354). -/
def offersGrant (s : State) (a : Nat) (b : Burst) : Bool :=
  b.sent && decide (b.on ≤ nowNs s) && decide (nowNs s < b.off) && b.grants.any (waitsFor a)

/-- The state in which the grant of a burst is filled, and what released Alloc-IDs held has returned to the default (R390). -/
def grantTaken (s : State) (p : Nat) (b : Burst) (g : Grant) : State :=
  settleAllocs (withPon s p (fun x => { x with bursts := x.bursts.map (fun y =>
    if y = b then { y with grants := updateAt y.grants (y.grants.findIdx (fun h => h = g)) (fun h => { h with filled := true }) } else y) }))
    p (ponOwner s p)

section
variable {s : State} {p a : Nat}

/-- In O2_3 a burst carries the serial number alone (R384, R386). -/
theorem exec_ponGrant_serialNumber (state : ponState s p = 2) : exec (.ponGrant p a) s = .next s := by
  simp only [exec, execPonGrant, state, ne_eq, not_true_eq_false, decide_false, Bool.and_false, Bool.false_and, Bool.not_false, if_true]

/-- In O4 the space of a grant is filled with idle frames. -/
theorem exec_ponGrant_idle {b : Burst} {g : Grant} (transmits : ponMayTransmit s p = true) (state : ponState s p = 3)
    (enabled : (ponPort s p).burstEn = true) (open_ : (ponPort s p).bursts.find? (offersGrant s a) = some b)
    (first : b.grants.find? (waitsFor a) = some g) (ranging : ponState (grantTaken s p b g) p = 3) :
    exec (.ponGrant p a) s = .next (bumpBy (grantTaken s p b g) (Reg.PON.IDLE_XGEM.on p)
      (Config.idleFrames (Config.grantSpace (rd (grantTaken s p b g) (Reg.PON.PON_CONFIG_MODE.on p)) g.bits g.ploamU g.dbru))) := by
  have notSerial : decide (ponState s p ≠ 2) = true := by simp [state]
  unfold offersGrant waitsFor at open_
  unfold waitsFor at first
  unfold grantTaken at ranging
  simp only [exec, execPonGrant, transmits, notSerial, enabled, open_, first, ranging, Bool.and_self, Bool.not_true, Bool.false_eq_true, if_false,
    if_true, grantTaken]
end

/-- Settles O52, by one rule for each command. -/
theorem bandCommandsComplete : Obligations.BandCommandsComplete := by
  refine ⟨?release, ?pacing, ?egress, ?entry, ?list, fun s p a _ state => exec_ponGrant_serialNumber state, ?grant⟩
  case release =>
    rintro s _ service due rfl
    exact exec_bandRelease service due
  case pacing =>
    rintro s _ _ service rfl due _
    exact exec_pacingSlot service (reach_reachable due)
  case egress =>
    rintro s _ e _ mac service valid transmits awake rfl due rfl
    exact exec_egressFree service mac valid transmits awake (reach_reachable due)
  case entry =>
    rintro s _ e g st service list gates inForce due rfl
    exact exec_gateEntryChange service list gates inForce (reach_reachable due)
  case list =>
    rintro s _ e t st l service gates waits due rfl
    exact exec_gateListChanged service gates waits (reach_reachable due)
  case grant =>
    rintro s _ p a b g transmits state enabled open_ first rfl ranging
    exact exec_ponGrant_idle transmits state enabled open_ first ranging

end Sys2Proof.Machine

/-!
Totality: every command answers a next state, but a register access outside BAR 0 (R446). A command whose meaning matches on data has a lemma of its
own; the others are built from conditions and `ok`.
-/

namespace Sys2Proof.Machine

/-- The outcome is a next state. -/
def Answers (o : Host.Outcome State Fault Refusal) : Prop := ∃ t, o = .next t

@[simp] theorem answers_next (t : State) : Answers (.next t) := ⟨t, rfl⟩

@[simp] theorem answers_ite (c : Prop) [Decidable c] (a b : Host.Outcome State Fault Refusal) :
    Answers (if c then a else b) ↔ (c → Answers a) ∧ (¬ c → Answers b) := by
  split <;> simp [*]

/-! ### Near memory -/

@[simp] theorem answers_execMemoryRequest (stack channel : Nat) (request : Option MemRequest) (ecc : Ecc) (s : State) :
    Answers (execMemoryRequest stack channel request ecc s) := by
  unfold execMemoryRequest
  repeat' split
  all_goals simp

@[simp] theorem answers_execRefreshDue (stack channel bank : Nat) (s : State) : Answers (execRefreshDue stack channel bank s) := by
  unfold execRefreshDue
  dsimp only
  repeat' split
  all_goals simp

@[simp] theorem answers_execTemperatureReading (stack : Nat) (celsius : Int) (s : State) : Answers (execTemperatureReading stack celsius s) := by
  unfold execTemperatureReading
  repeat' split
  all_goals simp

@[simp] theorem answers_execRowRemap (stack channel : Nat) (c : RowCopy) (s : State) : Answers (execRowRemap stack channel c s) := by
  unfold execRowRemap
  dsimp only
  repeat' split
  all_goals simp

@[simp] theorem answers_execScrubRead (stack channel : Nat) (ecc : Ecc) (s : State) : Answers (execScrubRead stack channel ecc s) := by
  unfold execScrubRead
  dsimp only
  repeat' split
  all_goals simp

@[simp] theorem answers_execTrainingSetExpiry (stack point : Nat) (s : State) : Answers (execTrainingSetExpiry stack point s) := by
  unfold execTrainingSetExpiry
  -- as in `keeps_execTrainingSetExpiry`
  obtain ⟨hour, e⟩ : ∃ n, 3600000000000 = n := ⟨_, rfl⟩
  rw [e]
  dsimp only
  repeat' split
  all_goals simp

@[simp] theorem answers_execMemoryRetrainingDone (failed : List Nat) (s : State) : Answers (execMemoryRetrainingDone failed s) := by
  unfold execMemoryRetrainingDone
  split <;> simp

/-! ### The Lining, the Glovebox and DMA -/

@[simp] theorem answers_execRowSpare (group : Nat) (c : RowCopy) (s : State) : Answers (execRowSpare group c s) := by
  unfold execRowSpare
  repeat' split
  all_goals simp

@[simp] theorem answers_execMarchDone (failing again : List Nat) (s : State) : Answers (execMarchDone failing again s) := by
  unfold execMarchDone
  repeat' split
  all_goals simp

@[simp] theorem answers_execPageFetchDone (page : Nat) (r : FetchResult) (s : State) : Answers (execPageFetchDone page r s) := by
  unfold execPageFetchDone
  repeat' split
  all_goals simp

@[simp] theorem answers_execDescriptorFetched (ch : Nat) (r : Option (List Byte)) (s : State) : Answers (execDescriptorFetched ch r s) := by
  unfold execDescriptorFetched
  repeat' split
  all_goals simp

@[simp] theorem answers_execDmaAccessComplete (ch : Nat) (succeeded : Bool) (data : List Byte) (s : State) :
    Answers (execDmaAccessComplete ch succeeded data s) := by
  unfold execDmaAccessComplete
  repeat' split
  all_goals simp

/-! ### Time and power -/

@[simp] theorem answers_execRestoreWaitExpiry (c : Nat) (s : State) : Answers (execRestoreWaitExpiry c s) := by
  unfold execRestoreWaitExpiry
  repeat' split
  all_goals simp

@[simp] theorem answers_execDelayReqSend (s : State) : Answers (execDelayReqSend s) := by
  unfold execDelayReqSend
  dsimp only
  repeat' split
  all_goals simp

@[simp] theorem answers_execAnnounceTimeout (identity : Nat) (s : State) : Answers (execAnnounceTimeout identity s) := by
  unfold execAnnounceTimeout
  repeat' split
  all_goals simp

@[simp] theorem answers_execPpsEdge (stamp : Nat) (frequencyOk : Bool) (s : State) : Answers (execPpsEdge stamp frequencyOk s) := by
  unfold execPpsEdge
  dsimp only
  repeat' split
  all_goals simp

@[simp] theorem answers_execPpsMissing (s : State) : Answers (execPpsMissing s) := by
  unfold execPpsMissing
  repeat' split
  all_goals simp

@[simp] theorem answers_execTodTimeout (port : Nat) (s : State) : Answers (execTodTimeout port s) := by
  unfold execTodTimeout
  dsimp only
  repeat' split
  all_goals simp

@[simp] theorem answers_execPulseWidthEnd (output : Nat) (s : State) : Answers (execPulseWidthEnd output s) := by
  unfold execPulseWidthEnd
  repeat' split
  all_goals simp

@[simp] theorem answers_execDomainRampDone (d : Nat) (s : State) : Answers (execDomainRampDone d s) := by
  unfold execDomainRampDone
  repeat' split
  all_goals simp

@[simp] theorem answers_execAgingCheck (slack : Nat) (s : State) : Answers (execAgingCheck slack s) := by
  unfold execAgingCheck
  repeat' split
  all_goals simp

/-! ### The Band -/

@[simp] theorem answers_execEgressFree (e : Nat) (s : State) : Answers (execEgressFree e s) := by
  unfold execEgressFree
  dsimp only
  repeat' split
  all_goals simp

@[simp] theorem answers_execGateEntryChange (e : Nat) (s : State) : Answers (execGateEntryChange e s) := by
  unfold execGateEntryChange
  dsimp only
  repeat' split
  all_goals simp

@[simp] theorem answers_execGateListChanged (e : Nat) (s : State) : Answers (execGateListChanged e s) := by
  unfold execGateListChanged
  repeat' split
  all_goals simp

@[simp] theorem answers_execPacingSlot (s : State) : Answers (execPacingSlot s) := by
  unfold execPacingSlot
  dsimp only
  repeat' split
  all_goals simp

/-! ### Legs and media -/

@[simp] theorem answers_execKeyframeRequest (l : Nat) (fir : Bool) (s : State) : Answers (execKeyframeRequest l fir s) := by
  unfold execKeyframeRequest
  repeat' split
  all_goals simp

@[simp] theorem answers_execKeyframePendingExpiry (sender : Nat) (s : State) : Answers (execKeyframePendingExpiry sender s) := by
  unfold execKeyframePendingExpiry
  -- as in `keeps_execTrainingSetExpiry`
  obtain ⟨wait, e⟩ : ∃ n, 200000000 = n := ⟨_, rfl⟩
  rw [e]
  repeat' split
  all_goals simp

@[simp] theorem answers_execLayerRaiseWait (l : Nat) (s : State) : Answers (execLayerRaiseWait l s) := by
  unfold execLayerRaiseWait
  repeat' split
  all_goals simp

@[simp] theorem answers_execNackUpTimer (l : Nat) (s : State) : Answers (execNackUpTimer l s) := by
  unfold execNackUpTimer
  repeat' split
  all_goals simp

@[simp] theorem answers_execNackReceived (l : Nat) (seqs : List Nat) (s : State) : Answers (execNackReceived l seqs s) := by
  unfold execNackReceived
  repeat' split
  all_goals simp

@[simp] theorem answers_execFeedbackReport (p : Nat) (items : List FeedbackItem) (s : State) : Answers (execFeedbackReport p items s) := by
  unfold execFeedbackReport
  repeat' split
  all_goals simp

@[simp] theorem answers_execFeedbackStale (p : Nat) (s : State) : Answers (execFeedbackStale p s) := by
  unfold execFeedbackStale
  repeat' split
  all_goals simp

@[simp] theorem answers_execAudioPacket (l sequence : Nat) (s : State) : Answers (execAudioPacket l sequence s) := by
  unfold execAudioPacket
  repeat' split
  all_goals simp

@[simp] theorem answers_execJbRecompute (l : Nat) (s : State) : Answers (execJbRecompute l s) := by
  unfold execJbRecompute
  repeat' split
  all_goals simp

@[simp] theorem answers_execComfortNoise (l : Nat) (s : State) : Answers (execComfortNoise l s) := by
  unfold execComfortNoise
  split <;> simp

@[simp] theorem answers_execMixPeriod (room cluster : Nat) (s : State) : Answers (execMixPeriod room cluster s) := by
  unfold execMixPeriod
  repeat' split
  all_goals simp

@[simp] theorem answers_execTalkerExportWrite (room : Nat) (s : State) : Answers (execTalkerExportWrite room s) := by
  unfold execTalkerExportWrite
  repeat' split
  all_goals simp

@[simp] theorem answers_execFrameReady (i : Nat) (f : CodedFrame) (s : State) : Answers (execFrameReady i f s) := by
  unfold execFrameReady
  repeat' split
  all_goals simp

@[simp] theorem answers_execDecodeRowJob (i : Nat) (w : RowWork) (s : State) : Answers (execDecodeRowJob i w s) := by
  unfold execDecodeRowJob
  repeat' split
  all_goals simp

@[simp] theorem answers_execCompositeFrameBoundary (i : Nat) (s : State) : Answers (execCompositeFrameBoundary i s) := by
  unfold execCompositeFrameBoundary
  split <;> simp

@[simp] theorem answers_execSignaturesComputed (i veil : Nat) (s : State) : Answers (execSignaturesComputed i veil s) := by
  unfold execSignaturesComputed
  dsimp only
  repeat' split
  all_goals simp

@[simp] theorem answers_execVeilBandJob (i : Nat) (w : BandWork) (s : State) : Answers (execVeilBandJob i w s) := by
  unfold execVeilBandJob
  repeat' split
  all_goals simp

@[simp] theorem answers_execVisorFail (i : Nat) (s : State) : Answers (execVisorFail i s) := by
  unfold execVisorFail
  split <;> simp

@[simp] theorem answers_execEncodeFrameStart (i : Nat) (s : State) : Answers (execEncodeFrameStart i s) := by
  unfold execEncodeFrameStart
  split <;> simp

@[simp] theorem answers_execEncodeRowJob (i : Nat) (w : EncodeWork) (s : State) : Answers (execEncodeRowJob i w s) := by
  unfold execEncodeRowJob
  repeat' split
  all_goals simp

/-! ### Tunnels, ingress and ciphers -/

@[simp] theorem answers_execTunnelFrameSlot (t : Nat) (s : State) : Answers (execTunnelFrameSlot t s) := by
  unfold execTunnelFrameSlot
  repeat' split
  all_goals simp

@[simp] theorem answers_execGauntletFrameRx (port stamp : Nat) (frame : List Byte) (s : State) :
    Answers (execGauntletFrameRx port stamp frame s) := by
  unfold execGauntletFrameRx
  dsimp only
  repeat' split
  all_goals simp

@[simp] theorem answers_execTunnelDown (t : Nat) (s : State) : Answers (execTunnelDown t s) := by
  unfold execTunnelDown
  split <;> simp

@[simp] theorem answers_execOldEpochExpiry (t : Nat) (s : State) : Answers (execOldEpochExpiry t s) := by
  unfold execOldEpochExpiry
  dsimp only
  repeat' split
  all_goals simp

@[simp] theorem answers_execFragTimeout (k : Nat) (s : State) : Answers (execFragTimeout k s) := by
  unfold execFragTimeout
  repeat' split
  all_goals simp

@[simp] theorem answers_execFrameParse (m : Nat) (r : ParseReads) (s : State) : Answers (execFrameParse m r s) := by
  unfold execFrameParse
  dsimp only
  repeat' split
  all_goals simp

@[simp] theorem answers_execRecirculated (engine : Nat) (r : InnerReads) (s : State) : Answers (execRecirculated engine r s) := by
  unfold execRecirculated
  split <;> simp

@[simp] theorem answers_execCipherJobAccept (cluster port : Nat) (b : List Byte) (p : JobPurpose) (s : State) :
    Answers (execCipherJobAccept cluster port b p s) := by
  unfold execCipherJobAccept
  dsimp only
  repeat' split
  all_goals simp

@[simp] theorem answers_execCipherCompletion (id : Nat) (r : JobResult) (s : State) : Answers (execCipherCompletion id r s) := by
  unfold execCipherCompletion
  split <;> simp

@[simp] theorem answers_execKeyLoad (cluster slot : Nat) (unwraps : Bool) (s : State) : Answers (execKeyLoad cluster slot unwraps s) := by
  unfold execKeyLoad
  dsimp only
  repeat' split
  all_goals simp

/-! ### Ethernet and PON -/

@[simp] theorem answers_execLinkUp (m : Nat) (s : State) : Answers (execLinkUp m s) := by
  unfold execLinkUp
  dsimp only
  repeat' split
  all_goals simp

@[simp] theorem answers_execLpiEnter (m : Nat) (s : State) : Answers (execLpiEnter m s) := by
  unfold execLpiEnter
  repeat' split
  all_goals simp

@[simp] theorem answers_execTo1Expiry (p : Nat) (s : State) : Answers (execTo1Expiry p s) := by
  unfold execTo1Expiry
  dsimp only
  repeat' split
  all_goals simp

@[simp] theorem answers_execTo2Expiry (p : Nat) (s : State) : Answers (execTo2Expiry p s) := by
  unfold execTo2Expiry
  dsimp only
  repeat' split
  all_goals simp

@[simp] theorem answers_execBurstWindow (p : Nat) (s : State) : Answers (execBurstWindow p s) := by
  unfold execBurstWindow
  repeat' split
  all_goals simp

@[simp] theorem answers_execPonGrant (p a : Nat) (s : State) : Answers (execPonGrant p a s) := by
  unfold execPonGrant
  dsimp only
  repeat' split
  all_goals simp

@[simp] theorem answers_execOmciMessage (p : Nat) (m : OmciMessage) (s : State) : Answers (execOmciMessage p m s) := by
  unfold execOmciMessage
  repeat' split
  all_goals simp

@[simp] theorem answers_execTodMeasurement (p : Nat) (s : State) : Answers (execTodMeasurement p s) := by
  unfold execTodMeasurement
  dsimp only
  repeat' split
  all_goals simp

@[simp] theorem answers_execProtectSwitch (s : State) : Answers (execProtectSwitch s) := by
  unfold execProtectSwitch
  dsimp only
  repeat' split
  all_goals simp

/-! ### The host, trust, boot and the monitor -/

@[simp] theorem answers_execModTimeExpiry (ring : Nat) (s : State) : Answers (execModTimeExpiry ring s) := by
  unfold execModTimeExpiry
  repeat' split
  all_goals simp

@[simp] theorem answers_execImageVerified (s : State) : Answers (execImageVerified s) := by
  unfold execImageVerified
  repeat' split
  all_goals simp

@[simp] theorem answers_execFlashProgramWritten (s : State) : Answers (execFlashProgramWritten s) := by
  unfold execFlashProgramWritten
  split <;> simp

@[simp] theorem answers_execDrbgReseed (s : State) : Answers (execDrbgReseed s) := by
  unfold execDrbgReseed
  repeat' split
  all_goals simp

@[simp] theorem answers_execAttestationReportSigned (s : State) : Answers (execAttestationReportSigned s) := by
  unfold execAttestationReportSigned
  dsimp only
  repeat' split
  all_goals simp

@[simp] theorem answers_execBootStep (s : State) : Answers (execBootStep s) := by
  unfold execBootStep
  repeat' split
  all_goals simp

@[simp] theorem answers_execBootWait (s : State) : Answers (execBootWait s) := by
  unfold execBootWait
  split <;> simp

@[simp] theorem answers_execI2cPoll (elapsed : Nat) (reply : Option Nat) (s : State) : Answers (execI2cPoll elapsed reply s) := by
  unfold execI2cPoll
  repeat' split
  all_goals simp

@[simp] theorem answers_execGpioWait (elapsed level : Nat) (s : State) : Answers (execGpioWait elapsed level s) := by
  unfold execGpioWait
  repeat' split
  all_goals simp

@[simp] theorem answers_execUnlockExpiry (s : State) : Answers (execUnlockExpiry s) := by
  unfold execUnlockExpiry
  split <;> simp

/-! ### The Hatstand -/

@[simp] theorem answers_execTransferDone (l bank : Nat) (r : TransferResult) (s : State) : Answers (execTransferDone l bank r s) := by
  unfold execTransferDone
  dsimp only
  repeat' split
  all_goals simp

@[simp] theorem answers_execPreempt (t : Nat) (s : State) : Answers (execPreempt t s) := by
  unfold execPreempt
  dsimp only
  repeat' split
  all_goals simp

@[simp] theorem answers_execAffinityExpiry (t : Nat) (s : State) : Answers (execAffinityExpiry t s) := by
  unfold execAffinityExpiry
  repeat' split
  all_goals simp

@[simp] theorem answers_execRunaway (l : Nat) (s : State) : Answers (execRunaway l s) := by
  unfold execRunaway
  dsimp only
  repeat' split
  all_goals simp

/-! ### The dispatch -/

/-- A register access answers a next state inside BAR 0 and is the fault that names its offset outside. -/
theorem exec_registerWrite_answers {off width : Nat} (value : Nat) (s : State) (inside : inBar0 off width = true) :
    Answers (exec (.registerWrite off width value) s) := by
  simp [exec, execRegisterWrite, inside]

theorem exec_registerReadClear_answers {off width : Nat} (s : State) (inside : inBar0 off width = true) : Answers (exec (.registerReadClear off width) s) := by
  simp [exec, execRegisterReadClear, inside]

theorem exec_registerWrite_outside {off width : Nat} (value : Nat) (s : State) (outside : inBar0 off width = false) :
    exec (.registerWrite off width value) s = .fault (.outsideBar0 off) := by
  simp [exec, execRegisterWrite, outside]

theorem exec_registerReadClear_outside {off width : Nat} (s : State) (outside : inBar0 off width = false) :
    exec (.registerReadClear off width) s = .fault (.outsideBar0 off) := by
  simp [exec, execRegisterReadClear, outside]

/-- A command that accesses no register answers a next state. -/
theorem exec_answers {c : Instr} (s : State) (noWrite : ∀ off width value, c ≠ .registerWrite off width value)
    (noRead : ∀ off width, c ≠ .registerReadClear off width) : Answers (exec c s) := by
  cases c
  case registerWrite => exact absurd rfl (noWrite _ _ _)
  case registerReadClear => exact absurd rfl (noRead _ _)
  case admitRoom | admitParticipant | admitLeg | setLeg | setParticipant | release | requestKeyframe | admitDecode | readStatistics | admitComposite
  | setLayout | admitEncode | setEncode | admitMix | setRoute | readLevels | enableTalkerExport | startThread | stopThread | deliverKeyToken |
  admitTunnel | switchEpoch | sendTunnelMessage | sendFrame | setShaper | setPortLpi | enablePon | setPonPort | setPonMap | sendOmci | ponTimeOfDay
  | switchPon | step | setSeconds | setMemoryRate | archivePages | attest | pushImage | flashProgram | snapshotCounters | engineReset | warmReset |
  zeroize | retire | nop | ldxy | add | sub | adds | subs | and | or | xor | shl | shr | asr | min | max | abs | mul | mov | mac | msu | dot4 |
  vmac4 | aclr | aext | ald | aadd | dstep | dfix | movcTo | movcFrom | cmp | ld8s | ld16s | ld32 | ld64 | ldq | st8 | st16 | st32 | st64 | stq |
  pset | pget | br | call | ret | loop | wait | signal | spawn | fetch | put | fence =>
    exact answers_next _
  case legsQuery | decodeQuery | veilQuery | encodeQuery | audioQuery | mittenQuery | ingressQuery | cipherQuery | gauntletQuery | bandQuery |
  ponQuery | nearmemQuery =>
    simp [exec, goQuery, execLegsQuery, execDecodeQuery, execVeilQuery, execEncodeQuery, execAudioQuery, execMittenQuery, execIngressQuery,
    execCipherQuery, execGauntletQuery, execBandQuery, execPonQuery, execNearmemQuery]
  case lateDrop | generationChanged | generationRetired | genForced | entryToServing | legDrained | threadDelayExpiry | tunnelFreed | retirement |
  autoWarmReset | setPointChange =>
    simp [exec, boundaryIf, execLateDrop, execGenerationChanged, execGenerationRetired, execGenForced, execEntryToServing, execLegDrained,
    execThreadDelayExpiry, execTunnelFreed, execRetirement, execAutoWarmReset, execSetPointChange]
  case burstProfile | assignOnuId | rangingTime | requestRegistration | assignAllocId | keyControl | deactivateOnuId | disableSerialNumber |
  sleepAllow | ploamUnsupported =>
    simp [exec, ploamIn, execBurstProfile, execAssignOnuId, execRangingTime, execRequestRegistration, execAssignAllocId, execKeyControl,
    execDeactivateOnuId, execDisableSerialNumber, execSleepAllow, execPloamUnsupported]
  case catchupEnd | trackingStep | channelFault | liningAccess | marchGo | gloveboxAccess | dmaGo | dmaAbort | chainHeadWrite | sourceDisqualified |
  ptpMessage | snapshotCapture | ppsOut | clockRequest =>
    simp [exec, execCatchupEnd, execTrackingStep, execChannelFault, execLiningAccess, execMarchGo, execGloveboxAccess, execDmaGo, execDmaAbort,
    execChainHeadWrite, execSourceDisqualified, execPtpMessage, execSnapshotCapture, execPpsOut, execClockRequest]
  case zeroizeScrubDone | knitBreach | railOutOfRange | temperatureTrigger | junctionReading | clockTrigger | tamperIn | zeroizePin | pwrGoodFall |
  pwrGoodRise | selfTestDone | resetNLow | resetNRise | perstN | functionLevelReset | pcieLinkLoss | pcieLinkUp =>
    simp [exec, execZeroizeScrubDone, execKnitBreach, execRailOutOfRange, execTemperatureTrigger, execJunctionReading, execClockTrigger,
    execTamperIn, execZeroizePin, execPwrGoodFall, execPwrGoodRise, execSelfTestDone, execResetNLow, execResetNRise, execPerstN,
    execFunctionLevelReset, execPcieLinkLoss, execPcieLinkUp]
  case codecBatchDone | palmReshare | cuffBankSwitch | frameReceived | linkDown | lpiWake | partnerLpiSignal | psyncHunt | syncLost | watchdogTrip |
  ponDownstreamFrame | bandRelease | engineFailure | engineResetDone =>
    simp [exec, execCodecBatchDone, execPalmReshare, execCuffBankSwitch, execFrameReceived, execLinkDown, execLpiWake, execPartnerLpiSignal,
    execPsyncHunt, execSyncLost, execWatchdogTrip, execPonDownstreamFrame, execBandRelease, execEngineFailure, execEngineResetDone]
  case ringEnable | ringIndexWrite | heartbeat | flashSlotVerify | entropyHealthFail | entropyStartupPassed | i2cWrite =>
    simp [exec, execRingEnable, execRingIndexWrite, execHeartbeat, execFlashSlotVerify, execEntropyHealthFail, execEntropyStartupPassed,
    execI2cWrite]
  case ident | status | log | counters | challenge | unlock | peek | poke | lock | directiveFetch | tickBoundary | crownLinkFault =>
    simp [exec, execIdent, execStatus, execLog, execCounters, execChallenge, execUnlock, execPeek, execPoke, execLock, execDirectiveFetch,
    execTickBoundary, execCrownLinkFault]
  all_goals simp [exec]

/-- Every command answers a next state, but a register access with bytes outside BAR 0, which is the fault of its offset. -/
theorem exec_answers_or_outside (c : Instr) (s : State) : Answers (exec c s) ∨ ∃ off width, inBar0 off width = false ∧
    exec c s = .fault (.outsideBar0 off) ∧ ((∃ value, c = .registerWrite off width value) ∨ c = .registerReadClear off width) := by
  by_cases write : ∃ off width value, c = .registerWrite off width value
  · obtain ⟨off, width, value, rfl⟩ := write
    cases inside : inBar0 off width with
    | true => exact .inl (exec_registerWrite_answers value s inside)
    | false => exact .inr ⟨off, width, inside, exec_registerWrite_outside value s inside, .inl ⟨value, rfl⟩⟩
  by_cases read : ∃ off width, c = .registerReadClear off width
  · obtain ⟨off, width, rfl⟩ := read
    cases inside : inBar0 off width with
    | true => exact .inl (exec_registerReadClear_answers s inside)
    | false => exact .inr ⟨off, width, inside, exec_registerReadClear_outside s inside, .inr rfl⟩
  · exact .inl (exec_answers s (fun off width value e => write ⟨off, width, value, e⟩) (fun off width e => read ⟨off, width, e⟩))

/-- Settles O2: a command that accesses no register answers a next state, and a register access does so inside BAR 0. -/
theorem everyCommandCompletes : Obligations.EveryCommandCompletes := by
  refine ⟨fun c s => ?completes, fun c s r refused => ?refused, fun c s f faults => ?faults⟩
  case completes =>
    obtain answers | ⟨off, -, -, fault, -⟩ := exec_answers_or_outside c s
    · exact .inl answers
    · exact .inr ⟨off, fault⟩
  case refused =>
    obtain ⟨t, next⟩ | ⟨_, _, _, fault, _⟩ := exec_answers_or_outside c s
    · rw [next] at refused
      cases refused
    · rw [fault] at refused
      cases refused
  case faults =>
    obtain ⟨t, next⟩ | ⟨off, width, outside, -, ⟨value, rfl⟩ | rfl⟩ := exec_answers_or_outside c s
    · rw [next] at faults
      cases faults
    · exact .inl ⟨off, width, value, rfl, outside⟩
    · exact .inr ⟨off, width, rfl, outside⟩

theorem inBar0_iff (off width : Nat) : inBar0 off width = true ↔ off + width ≤ 0x4000000 := by simp [inBar0]

theorem not_inBar0_iff (off width : Nat) : inBar0 off width = false ↔ 0x4000000 < off + width := by simp [inBar0]

/-- Settles O17, by the two outcomes of a register access. -/
theorem accessBeyondBar0Faults : Obligations.AccessBeyondBar0Faults :=
  ⟨fun s off width value beyond => exec_registerWrite_outside value s ((not_inBar0_iff off width).2 beyond),
   fun s off width beyond => exec_registerReadClear_outside s ((not_inBar0_iff off width).2 beyond),
   fun s off width value within => exec_registerWrite_answers value s ((inBar0_iff off width).2 within),
   fun s off width within => exec_registerReadClear_answers s ((inBar0_iff off width).2 within)⟩

/-! ### The queue, and the state after the cold reset -/

/-- The effect of a command leaves the queue alone. -/
theorem pending_of_exec {c : Instr} {s t : State} (next : exec c s = .next t) : t.pending = s.pending := by
  have kept := keeps_exec c s
  rw [next] at kept
  exact congrArg Fixed.pending kept

/-- Settles O5: what no command changes holds the queue, so a step takes its front command alone. -/
theorem commandsLeaveTheQueue : Obligations.CommandsLeaveTheQueue := by
  obtain ⟨front, empty, queue⟩ := stepTakesTheFrontCommand
  refine ⟨fun c s t => pending_of_exec, fun c rest s t waits next => ?_, fun s t none next => ?_⟩
  · rw [front c rest s waits] at next
    exact (pending_of_exec next).trans (queue s rest)
  · rw [empty s none] at next
    obtain rfl := Host.Outcome.next.inj next
    exact (congrArg Fixed.pending (fixed_idleCycle s)).trans none

/-- Settles O3: the reset state field by field. -/
theorem resetLeavesTheSpecifiedState : Obligations.ResetLeavesTheSpecifiedState :=
  ⟨rfl, rfl, rfl, rfl, rfl, rfl, rfl, rfl, rfl, rfl, rfl, rfl, rfl, rfl, by decide⟩

end Sys2Proof.Machine

/-!
Events, moderation and the heartbeat (R456, R465 to R467, R469), the self-test and the reset pins (R475, R476, R503), and the PCIe link (R447): one rule
for each branch of a command.
-/

namespace Sys2Proof.Machine

/-! ### Events -/

/-- Flags that are all set already raise nothing (R466). -/
theorem raiseAll_none_fresh {s : State} {fs : List Fld} (set : ∀ f ∈ fs, rd s f ≠ 0) : raiseAll s fs = s := by
  have fresh : fs.filter (fun f => rd s f = 0) = [] := by simpa using set
  simp only [raiseAll, fresh]

/-- The flags that were clear are set, and give one entry that names their register (R466). -/
theorem raiseAll_fresh {s : State} {fs l : List Fld} {f : Fld} (fresh : fs.filter (fun f => rd s f = 0) = f :: l) :
    raiseAll s fs = event (l.foldl (fun s g => wr s g 1) (wr s f 1)) (blockOf f.off) (now (l.foldl (fun s g => wr s g 1) (wr s f 1)))
      (.register f.off (l.foldl (fun b g => setBit b g.lo) (setBit 0 f.lo))) false := by
  simp only [raiseAll, fresh, List.foldl_cons]

/-- An event with the link up, the ring open and no loss to report is written. -/
theorem event_open {s : State} {block stamp : Nat} {data : EventData} {atOnce : Bool} (opened : evtOpen s = true) (noLoss : s.host.lostSince = 0) :
    event s block stamp data atOnce = putEvent s block stamp data atOnce := by
  have up : s.host.linkUp = true := by
    simp only [evtOpen, Bool.and_eq_true] at opened
    exact opened.1.1
  simp [event, up, noLoss, opened]

/-- With the link down an event is lost (R447). -/
theorem event_linkDown {s : State} {block stamp : Nat} {data : EventData} {atOnce : Bool} (down : s.host.linkUp = false) :
    event s block stamp data atOnce = loseEvent s := by
  simp [event, down]

/-- An event that is written moves the tail of the ring on by one. -/
theorem putEvent_tail (s : State) (block stamp : Nat) (data : EventData) (atOnce : Bool) :
    rd (putEvent s block stamp data atOnce) evtRing.tail = (rd s evtRing.tail + 1) % 2 ^ 32 := by
  have moderated (t : State) : rd (moderateEvt t atOnce) evtRing.tail = rd t evtRing.tail :=
    (moderateEvt_sameBut [] t atOnce).reads _ (by simp)
  rw [putEvent, moderated, bump, rd_bumpBy_ne _ _ (by decide), rd_wr]
  rfl

/-- Settles O24, by the flags that were clear. -/
theorem w1CBitsGiveOneRegisterEntry : Obligations.W1CBitsGiveOneRegisterEntry :=
  ⟨fun _ _ => raiseAll_none_fresh, fun _ _ _ _ => raiseAll_fresh, fun _ _ _ _ _ => event_open, putEvent_tail⟩

/-! ### The heartbeat and moderation -/

/-- A heartbeat is due once at a boundary (R469). -/
theorem heartbeatDue_markOnce (s : State) (o : Output) : heartbeatDue (emit (markOnce s 0) o) = false := by
  have spent : onceDue (emit (markOnce s 0) o) 0 = false := by simp [onceDue, markOnce, emit]
  simp [heartbeatDue, spent]

theorem exec_heartbeat {s : State} (due : heartbeatDue s = true) : exec .heartbeat s = .next
    (emit (markOnce s 0) (.heartbeat (heartbeatAddress s) (heartbeatBytes s.time.tickCount s.mode.code (timeState s) (now s)))) := by
  simp only [exec, execHeartbeat, due, if_true]

theorem exec_heartbeat_idle {s : State} (idle : heartbeatDue s = false) : exec .heartbeat s = .next s := by
  simp [exec, execHeartbeat, idle]

/-- The unsignalled entries of a ring are signalled at the end of its moderation time (R456). -/
theorem exec_modTimeExpiry {s u : State} {ring t : Nat} (first : (moderation s ring).1 = some t) (up : s.host.linkUp = true)
    (due : reach s (t + (moderation s ring).2.1 * 1000) = some u) :
    exec (.modTimeExpiry ring) s = .next (signal (restartModeration u ring) (moderation u ring).2.2) := by
  simp [exec, execModTimeExpiry, first, up, due]

/-- Settles O23, by one rule for each branch of the two commands. -/
theorem heartbeatAndModeration : Obligations.HeartbeatAndModeration := by
  refine ⟨fun s due => ⟨_, exec_heartbeat due, rfl, heartbeatDue_markOnce s _⟩, fun s => exec_heartbeat_idle, ?moderation⟩
  rintro s _ ring t first up due rfl
  exact exec_modTimeExpiry first up (reach_reachable due)

/-! ### The PCIe link -/

/-- The link goes down, and every DMA channel halts with LINK_DOWN (R438, R447). -/
theorem linkDown_up {s : State} (up : s.host.linkUp = true) :
    linkDown s = dmaHaltAll { s with host := { s.host with linkUp := false } } (fun _ => true) 5 := if_pos up

theorem linkDown_down {s : State} (down : s.host.linkUp = false) : linkDown s = s := by simp [linkDown, down]

theorem exec_perstN (s : State) : exec .perstN s = .next (endUnlock (linkDown s)) := rfl

theorem exec_functionLevelReset (s : State) : exec .functionLevelReset s = .next (endUnlock (linkDown s)) := rfl

theorem exec_pcieLinkLoss (s : State) : exec .pcieLinkLoss s = .next (linkDown s) := rfl

/-- The link comes up with the host domain on, and the completions that wait are written (R447). -/
theorem exec_pcieLinkUp {s : State} (down : s.host.linkUp = false) (power : s.power.pwrGood = true) (awake : s.mode ≠ .dormant)
    (domain : domainOn s 58 = true) : exec .pcieLinkUp s = .next (flush { s with host := { s.host with linkUp := true } }) := by
  simp [exec, execPcieLinkUp, down, power, awake, domain]

/-- Settles O28, by what taking the link down does. -/
theorem linkEvents : Obligations.LinkEvents := by
  refine ⟨fun s up => ?up, fun s down => ?down, fun s => exec_pcieLinkUp, fun s _ _ _ _ => event_linkDown⟩
  case up => rw [exec_perstN, exec_functionLevelReset, exec_pcieLinkLoss, linkDown_up up]; exact ⟨rfl, rfl, rfl⟩
  case down => rw [exec_perstN, exec_functionLevelReset, exec_pcieLinkLoss, linkDown_down down]; exact ⟨rfl, rfl, rfl⟩

/-! ### The fault log -/

/-- A fault puts its entry into its slot of the log, with the next sequence number (R479, R493). -/
theorem fault_logged (s : State) (code block port detail address : Nat) :
    (fault s code block port detail address).faults.nextSeq = s.faults.nextSeq + 1 ∧
    ((fault s code block port detail address).faults.log.get (faultSlot s.faults.log).1).map (fun e => (e.code, e.sequence)) =
      some (code, s.faults.nextSeq) := by
  have logged : (fault s code block port detail address).faults = (logEntry s code block port detail address).1.faults := by
    obtain ⟨-, -, -, kept, -⟩ := (event_onlyHost _ _ _ _ _).keeps
    exact kept
  rw [logged]
  unfold logEntry
  dsimp only
  split <;> split <;> simp

/-- A fault changes neither the mode, nor what is asked of it, nor the state of the power. -/
theorem fault_keeps (s : State) (code block port detail address : Nat) : (fault s code block port detail address).mode = s.mode ∧
    (fault s code block port detail address).modeRequests = s.modeRequests ∧ (fault s code block port detail address).power = s.power := by
  obtain ⟨_, _, _, _, frame⟩ := fault_frame s code block port detail address
  rw [frame]
  exact ⟨rfl, rfl, rfl⟩

/-! ### The self-test and RESET_N -/

/-- The state in which the self-test has been run. -/
def selfTested (s : State) : State := { s with power := { s.power with selfTestDone := true } }

section
variable {s : State} (power : s.power.pwrGood = true) (dormant : s.mode = .dormant) (first : s.power.selfTestDone = false)
  (test : s.power.testEn = false) (idle : s.trust.zeroizing = false)
include power dormant first test idle

/-- The first self-test in Dormant that passes, by the lifecycle of the part (R476). -/
theorem exec_selfTestDone_passes : exec (.selfTestDone true) s = .next (if s.trust.fuses.lifecycle = 3 then
    changeMode (setDomains (selfTested s) (2 ^ 63 + 2 ^ 58)) .sealed 13 else requestMode (selfTested s) .proving 1) := by
  simp only [exec, execSelfTestDone, power, dormant, first, test, idle, selfTested, decide_true, Bool.and_self, Bool.not_false, Bool.not_true,
    Bool.false_eq_true, if_true, if_false]
  split <;> simp

theorem exec_selfTestDone_fails : exec (.selfTestDone false) s = .next (fault (selfTested s) 0x80 2 0xFFFF (Config.itemCode 0) 0) := by
  simp [exec, execSelfTestDone, power, dormant, first, test, idle, selfTested]
end

/-- No later self-test is run (R476). -/
theorem exec_selfTestDone_later {s : State} (passed : Bool) (done : s.power.selfTestDone = true) : exec (.selfTestDone passed) s = .next s := by
  simp [exec, execSelfTestDone, done]

/-- The resets other than a cold one stay in the mode, until a boundary changes it (R475). -/
theorem clearWork_mode (s : State) (k : Keep) : (clearWork s k).mode = s.mode := by
  have lowered (u : State) (c : Prop) [Decidable c] (mv : Nat) : (pinsLow (if c then u else setVdd u mv)).mode = u.mode := by
    obtain ⟨low, -⟩ := (pinsLow_sameWork (if c then u else setVdd u mv)).keeps
    obtain ⟨vdd, -⟩ := (setVdd_sameWork u mv).keeps
    rw [low]
    split
    · rfl
    · exact vdd
  obtain ⟨domains, -⟩ := (setDomains_sameWork _ _).keeps
  exact (lowered _ _ _).trans domains

theorem stopMarch_mode (s : State) : (stopMarch s).mode = s.mode := by
  unfold stopMarch
  split
  · rfl
  · obtain ⟨mode, -⟩ := (raiseAll_sameWork _ _).keeps
    exact mode

/-- What a warm reset leaves of a device that it resets (R503). -/
theorem warmReset_clears {s : State} (awake : s.mode ≠ .dormant) (open_ : s.mode ≠ .sealed) (idle : s.trust.zeroizing = false) :
    (warmReset s).legs = [] ∧ (warmReset s).rooms = [] ∧ (warmReset s).mitten.threads = [] ∧ (warmReset s).mode = s.mode := by
  have cleared := erased_clearWork (stopMarch s) .warm
  simp only [warmReset, awake, open_, idle, decide_false, Bool.or_self, Bool.false_eq_true, if_false]
  exact ⟨cleared.legs, cleared.rooms, cleared.threads, (clearWork_mode _ _).trans (stopMarch_mode s)⟩

/-- RESET_N low for 100 ns or longer holds a warm reset (R503). -/
theorem exec_resetNLow {s : State} {d : Nat} (long : 100 ≤ d) (awake : s.mode ≠ .dormant) (open_ : s.mode ≠ .sealed)
    (idle : s.trust.zeroizing = false) (released : s.power.resetHeld = false) : exec (.resetNLow d) s = .next { warmReset s with
      power := { (warmReset s).power with resetHeld := true, resetLow := some (nowNs (warmReset s) - d) } } := by
  simp [exec, execResetNLow, Nat.not_lt.2 long, awake, open_, idle, released]

theorem exec_resetNRise {s : State} (held : s.power.resetHeld = true) : exec .resetNRise s = .next
    { s with power := { s.power with resetHeld := false }, modeRequests := s.modeRequests ++ [(.proving, 8)] } := by
  simp [exec, execResetNRise, held, requestMode]

/-- A warm reset is ignored in Dormant and in Sealed (R476). -/
theorem warmReset_ignored {s : State} (off : s.mode = .dormant ∨ s.mode = .sealed) (d reason : Nat) :
    exec (.resetNLow d) s = .next s ∧ warmReset s = s ∧ warmResetFor s reason = s := by
  obtain off | off := off <;> simp [exec, execResetNLow, warmReset, warmResetFor, off]

/-- Settles O26, by the outcomes of the first self-test and by what a warm reset leaves. -/
theorem selfTestAndResetPins : Obligations.SelfTestAndResetPins := by
  refine ⟨?passes, ?retired, ?fails, fun s passed => exec_selfTestDone_later passed, ?low, fun s => exec_resetNRise,
    fun s d reason off => warmReset_ignored off d reason⟩
  case passes =>
    intro s power dormant first test idle alive
    rw [exec_selfTestDone_passes power dormant first test idle, if_neg alive]
    rfl
  case retired =>
    intro s power dormant first test idle retired
    rw [exec_selfTestDone_passes power dormant first test idle, if_pos retired]
    obtain ⟨mode, -⟩ := (changeMode_sameWork (setDomains (selfTested s) (2 ^ 63 + 2 ^ 58)) .sealed 13).keeps
    exact ⟨_, rfl, mode⟩
  case fails =>
    intro s power dormant first test idle
    obtain ⟨sequence, entry⟩ := fault_logged (selfTested s) 0x80 2 0xFFFF (Config.itemCode 0) 0
    obtain ⟨mode, requests, kept⟩ := fault_keeps (selfTested s) 0x80 2 0xFFFF (Config.itemCode 0) 0
    exact ⟨_, exec_selfTestDone_fails power dormant first test idle, mode.trans dormant, requests, by rw [kept]; rfl, sequence, entry⟩
  case low =>
    intro s d long awake open_ idle released
    obtain ⟨legs, rooms, threads, mode⟩ := warmReset_clears awake open_ idle
    exact ⟨_, exec_resetNLow long awake open_ idle released, rfl, legs, rooms, threads, mode, rfl⟩

end Sys2Proof.Machine

/-!
The monitor (R506 to R508): one rule for each reply of a command.
-/

namespace Sys2Proof.Machine

/-! ### Reads -/

section
variable {s : State} (up : monitorUp s = true)
include up

theorem exec_ident : exec .ident s = .next (replyOk s (regRead s Reg.GLOBAL.PART_INFO_PART.off ::
    fieldWords s Reg.TRUST.DEVICE_ID ++ fieldWords s Reg.TRUST.NYMREHAL_ANCHOR ++ fieldWords s Reg.TRUST.CUSTOMER_ANCHOR ++ [s.trust.fuses.rollback])) := by
  simp only [exec, execIdent, up, if_true]

theorem exec_status : exec .status s = .next (replyOk s [s.mode.code, rd s Reg.FAULTLOG.MODE_REASON, regRead s Reg.TIME.TIME_STATUS_STATE.off,
    regRead s Reg.POWER.POWER_STATUS_VDD_CORE.off]) := by
  simp only [exec, execStatus, up, if_true]

theorem exec_log (first count : Nat) :
    exec (.log first count) s = .next (replyOk s ((logFrom s first (min count 64)).flatMap (fun e => (faultBytes e).map (·.toNat)))) := by
  simp only [exec, execLog, up, if_true]

theorem exec_counters {block : Nat} (listed : block < 22) (fused : blank s = false) (awake : s.mode ≠ .dormant) (open_ : s.mode ≠ .sealed) :
    exec (.counters block) s = .next (replyOk s (((Reg.blockFields block).filter (fun f => f.acc = .rc)).flatMap (fieldWords s))) := by
  simp [exec, execCounters, up, Nat.not_le.2 listed, fused, awake, open_]

theorem exec_counters_unlisted {block : Nat} (beyond : 22 ≤ block) : exec (.counters block) s = .next (replySyntax s) := by
  simp [exec, execCounters, up, beyond]
end

theorem exec_ident_down {s : State} (down : monitorUp s = false) : exec .ident s = .next s := by simp [exec, execIdent, down]

theorem exec_status_down {s : State} (down : monitorUp s = false) : exec .status s = .next s := by simp [exec, execStatus, down]

section
variable {s : State} {off : Nat} (up : monitorUp s = true) (listed : peekable off = true)
include up listed

/-- A PEEK reads as the host does, which clears RC fields (R507). -/
theorem exec_peek (fused : blank s = false) (free : unlocked s = true) (mask : maskHolds s DebugRec.peekBlocks off = true) :
    exec (.peek off) s = .next (clearRead (replyOk s [regRead s off]) off) := by
  simp [exec, execPeek, up, listed, fused, free, mask]

theorem exec_peek_locked (fused : blank s = false) (locked : unlocked s = false) : exec (.peek off) s = .next (replyLocked s) := by
  simp [exec, execPeek, up, listed, fused, locked]

theorem exec_peek_blank (unfused : blank s = true) : exec (.peek off) s = .next (replyDenied s) := by
  simp [exec, execPeek, up, listed, unfused]
end

/-- Settles O21, by one rule for each reply. -/
theorem monitorRepliesToReads : Obligations.MonitorRepliesToReads :=
  ⟨fun _ => exec_ident, fun _ => exec_status, fun _ first count up => exec_log up first count, fun _ _ up => exec_counters up, fun _ _ => exec_peek,
   fun _ _ => exec_peek_locked, fun _ _ up => exec_counters_unlisted up, fun _ _ => exec_peek_blank, fun _ down => ⟨exec_ident_down down, exec_status_down down⟩⟩

/-! ### The unlock -/

section
variable {s : State} (up : monitorUp s = true)
include up

/-- CHALLENGE answers the nonce that the monitor holds (R507). -/
theorem exec_challenge_held {n : Nat} (may : mayUnlock s = true) (free : s.power.challengeAt ≤ nowNs s) (held : s.power.challenge = some n) :
    exec .challenge s = .next (replyOk s [Config.drbg n]) := by
  simp [exec, execChallenge, up, may, Nat.not_lt.2 free, held]

/-- Where the monitor holds none, CHALLENGE answers a fresh one. -/
theorem exec_challenge_fresh (may : mayUnlock s = true) (free : s.power.challengeAt ≤ nowNs s) (none_ : s.power.challenge = none) :
    exec .challenge s = .next (replyOk (freshNonce s) [Config.drbg ((freshNonce s).power.challenge.getD 0)]) := by
  simp [exec, execChallenge, up, may, Nat.not_lt.2 free, none_]

theorem exec_challenge_denied (barred : mayUnlock s = false ∨ nowNs s < s.power.challengeAt) : exec .challenge s = .next (replyDenied s) := by
  obtain barred | barred := barred <;> simp [exec, execChallenge, up, barred]

/-- UNLOCK draws a fresh nonce, whether its block verifies or not (R507). -/
theorem exec_unlock (block : List Byte) (may : mayUnlock s = true) : exec (.unlock block true) s = .next (
    if unlockVerifies s block then
      replyOk { freshNonce s with power := { (freshNonce s).power with
        unlockUntil := some (nowNs (freshNonce s) + ((debugRec (freshNonce s)).map unlockNs).getD 0) } } []
    else replyDenied { freshNonce s with power := { (freshNonce s).power with challengeAt := nowNs (freshNonce s) + 10000000000 } }) := by
  simp only [exec, execUnlock, up, may, Bool.not_true, Bool.false_eq_true, if_false]
  split <;> rfl

theorem exec_unlock_unspelt (block : List Byte) : exec (.unlock block false) s = .next (replySyntax s) := by
  simp [exec, execUnlock, up]

/-- POKE is a 32-bit host write of a register in POKE_BLOCKS (R508). -/
theorem exec_poke {off value : Nat} (listed : peekable off = true) (word : value < 2 ^ 32) (fused : blank s = false) (writes : monitorReadOnly s = false)
    (free : unlocked s = true) (mask : maskHolds s DebugRec.pokeBlocks off = true) :
    exec (.poke off value) s = .next (replyOk (hostWrite s off 4 value) []) := by
  simp [exec, execPoke, up, listed, Nat.not_le.2 (show value < 4294967296 from word), fused, writes, free, mask]

theorem exec_lock (fused : blank s = false) : exec .lock s = .next (replyOk (endUnlock s) []) := by
  simp [exec, execLock, up, fused]
end

/-- No block verifies where no nonce has been given. -/
theorem unlockVerifies_no_nonce {s : State} (block : List Byte) (none_ : s.power.challenge = none) : unlockVerifies s block = false := by
  simp [unlockVerifies, none_]

/-- An unlock ends at its time. -/
theorem exec_unlockExpiry {s u : State} {t : Nat} (until_ : s.power.unlockUntil = some t) (due : reach s t = some u) :
    exec .unlockExpiry s = .next (endUnlock u) := by
  simp [exec, execUnlockExpiry, until_, due]

/-- Settles O22, by one rule for each reply. -/
theorem monitorUnlockAndPoke : Obligations.MonitorUnlockAndPoke := by
  refine ⟨fun _ _ up => exec_challenge_held up, fun _ => exec_challenge_fresh, fun _ => exec_challenge_denied,
    fun _ block up may => exec_unlock up block may, fun _ => unlockVerifies_no_nonce, fun _ block up => exec_unlock_unspelt up block,
    fun _ _ _ up => exec_poke up, fun _ => exec_lock, ?expiry⟩
  rintro s _ t until_ due rfl
  exact exec_unlockExpiry until_ (reach_reachable due)

end Sys2Proof.Machine

/-!
Directives that wait or are refused before their own rules (R458, R459, R461, R463, R473): one rule for each way in which an evaluation ends.
-/

namespace Sys2Proof.Machine

/-! ### The evaluation of one directive -/

section
variable {s : State} {h : DirHeader} {d : Directive}

theorem evaluate_notReady (idle : dirReady s = false) : evaluate h d s = .next s := by
  simp [evaluate, evaluateOne, idle]

/-- With no room for its completion a directive stays in the ring (R459). -/
theorem evaluate_noRoom (ready : dirReady s = true) (full : cplReady s = false) : evaluate h d s = .next (stalled s) := by
  simp [evaluate, evaluateOne, ready, full]

/-- A directive that a check refuses is answered with the STATUS and DETAIL of the check, and counted (R461). -/
theorem evaluate_refused {p : State} {status detail : Nat} (ready : dirReady s = true) (room : cplReady s = true)
    (refused : check (takeHead s) h d = .refused p status detail) (notToken : status ≠ stTokenRefused) :
    evaluate h d s = .next (complete (bump p Reg.DIRECTIVE.REFUSED) ((entryAt s h d).final status detail 0)) := by
  simp [evaluate, evaluateOne, ready, room, evaluateHead, refused, refuse, notToken]
end

/-! ### A fetch of directives -/

/-- A fetch of one entry is that directive. -/
theorem exec_directiveFetch_single (s : State) (h : DirHeader) (d : Directive) : exec (.directiveFetch [(h, d)]) s = evaluate h d s := by
  simp [exec, execDirectiveFetch, evaluate, evaluateAll]

/-- Where the first entry has been evaluated, the fetch goes on with the others. -/
theorem exec_directiveFetch_cons {s t : State} {h : DirHeader} {d : Directive} {l : List (DirHeader × Directive)}
    (first : evaluateOne s h d = (t, true)) (more : l ≠ []) : exec (.directiveFetch ((h, d) :: l)) s = exec (.directiveFetch l) t := by
  simp [exec, execDirectiveFetch, evaluateAll, first, more]

theorem exec_directiveFetch_nil (s : State) : exec (.directiveFetch []) s = .next (if dirReady s then fetchFails s else s) := by
  simp only [exec, execDirectiveFetch, List.isEmpty_nil, if_true]
  split <;> rfl

/-! ### Authorisation -/

/-- No offset names no authorisation block (R451, R463). -/
theorem authValid_noOffset {h : DirHeader} (s : State) (d : Directive) (none_ : h.authAt = noOffset) : authValid s h d = false := by
  simp [authValid, exchangeOk, none_, noOffset]

section
variable {s : State} {h : DirHeader} {d : Directive} {rate : Nat} (authorised : dirPolicy s (opcodeOf d) = (2, rate))
include authorised

/-- A directive that must be authorised and names no block is refused (R463). -/
theorem checkPolicy_noBlock (none_ : h.authAt = noOffset) : checkPolicy s h d =
    .refused (raise (bump s Reg.DIRECTIVE.AUTH_FAILS) Reg.DIRECTIVE.DIRECTIVE_EVENTS_AUTH_FAIL) stAuthFail 0 := by
  simp [checkPolicy, authorised, none_, authValid_noOffset s d none_]

/-- The block that a directive names is verified; a valid one draws AUTH_NONCE anew (R463). -/
theorem checkPolicy_block (named : h.authAt ≠ noOffset) (free : authBusy s = false) : checkPolicy s h d =
    if authValid s h d then checkRate (newNonce (countAuth s)) h d rate else
      .refused (raise (bump (countAuth s) Reg.DIRECTIVE.AUTH_FAILS) Reg.DIRECTIVE.DIRECTIVE_EVENTS_AUTH_FAIL) stAuthFail 0 := by
  simp [checkPolicy, authorised, named, free]
end

/-- Settles O13, by the ways in which an evaluation ends before the own rule of its directive. -/
theorem directivesThatWaitOrAreRefused : Obligations.DirectivesThatWaitOrAreRefused := by
  refine ⟨fun _ _ _ => evaluate_notReady, fun _ _ _ => evaluate_noRoom, fun _ _ _ _ _ _ => evaluate_refused, exec_directiveFetch_single,
    fun _ _ _ _ _ => exec_directiveFetch_cons, fun s idle => ?idle, fun s ready => ?fails, fun _ => rfl, fun _ _ _ _ => checkPolicy_noBlock,
    fun _ _ _ _ => checkPolicy_block⟩
  case idle => rw [exec_directiveFetch_nil, if_neg (by simp [idle])]
  case fails => rw [exec_directiveFetch_nil, if_pos ready]

end Sys2Proof.Machine

/-!
The links of the Ethernet ports (R365, R366, R374, R375) and the DMA channels (R436 to R442): one rule for each branch of a command.
-/

namespace Sys2Proof.Machine

/-! ### Links -/

/-- When a link that has been lost may come up again: 10 ms later (R365). -/
def linkUpDue (s : State) (m : Nat) : Nat :=
  match (ethOf s m).downAt with
  | some t => t + 10000000
  | none => 0

/-- The status of a port whose link comes up (R365). -/
def linkShown (s : State) (m : Nat) : State :=
  wrAll s [(Reg.ETH.PORT_STATUS_LINK.on m, 1), (Reg.ETH.PORT_STATUS_TRAINED.on m, rd s (Reg.ETH.PORT_CONFIG_TRAINING.on m))]

section
variable {s u : State} {m : Nat}

theorem exec_linkUp (service : inService s = true) (mac : macValid s m = true) (down : linkUp s m = false) (due : reach s (linkUpDue s m) = some u) :
    exec (.linkUp m) s = .next (raise (withEth (linkShown u m) m
      { ethOf (linkShown u m) m with idleSince := nowNs (linkShown u m), wakeUntil := 0, downAt := none }) (Reg.ETH.PORT_EVENTS_LINK_UP.on m)) := by
  cases lost : (ethOf s m).downAt <;> simp only [linkUpDue, lost] at due <;>
    simp only [exec, execLinkUp, service, mac, down, lost, due, linkShown, Bool.and_self, Bool.not_true, Bool.not_false, Bool.false_eq_true, if_false]

/-- A link that goes down ends the frame that it is receiving with a code error (R365). -/
theorem exec_linkDown (receiving : Bool) (mac : macValid s m = true) (up : linkUp s m = true) : exec (.linkDown m receiving) s =
    .next (raise (if receiving then bump (loseLink s m) (Reg.ETH.CODE_ERRORS.on m) else loseLink s m) (Reg.ETH.PORT_EVENTS_LINK_DOWN.on m)) := by
  simp only [exec, execLinkDown, mac, up, Bool.and_self, Bool.not_true, Bool.false_eq_true, if_false]

/-- A port that has been idle for LPI_IDLE sleeps, where it may (R374). -/
theorem exec_lpiEnter (service : inService s = true) (mac : macValid s m = true) (up : linkUp s m = true) (allowed : lpiAllowed s m = true)
    (idle : portEmpty s m = true) (awake : rd s (Reg.ETH.PORT_STATUS_LPI_TX.on m) = 0)
    (due : reach s (max (ethOf s m).idleSince (((s.band.freeAt.get m).getD 0) / 1000) + rd s (Reg.ETH.LPI_CONFIG_LPI_IDLE.on m) * 1000) = some u) :
    exec (.lpiEnter m) s = .next (emit (bump (wr u (Reg.ETH.PORT_STATUS_LPI_TX.on m) 1) (Reg.ETH.LPI_TX_ENTRIES.on m)) (.lpi m 1)) := by
  simp only [exec, execLpiEnter, service, mac, up, allowed, idle, awake, due, decide_true, Bool.and_self, Bool.not_true, Bool.false_eq_true, if_false]

/-- A sleeping port that has work wakes, and sends after TX_TW (R374). -/
theorem exec_lpiWake (mac : macValid s m = true) (asleep : rd s (Reg.ETH.PORT_STATUS_LPI_TX.on m) = 1)
    (work : portEmpty s m = false ∨ lpiAllowed s m = false) (woken : wr s (Reg.ETH.PORT_STATUS_LPI_TX.on m) 0 = u) : exec (.lpiWake m) s =
      .next (emit (withEth u m { ethOf u m with wakeUntil := nowNs u + rd u (Reg.ETH.LPI_CONFIG_TX_TW.on m) * 1000 }) (.lpi m 0)) := by
  have wakes : (!portEmpty s m || !lpiAllowed s m) = true := by simpa using work
  simp only [exec, execLpiWake, mac, asleep, wakes, woken, decide_true, Bool.and_self, if_true]

theorem exec_partnerLpiSignal (on : Bool) (mac : macValid s m = true) (up : linkUp s m = true) :
    exec (.partnerLpiSignal m on) s = .next (wr s (Reg.ETH.PORT_STATUS_LPI_RX.on m) (b2n on)) := by
  simp only [exec, execPartnerLpiSignal, mac, up, Bool.and_self, if_true]
end

/-- Settles O53, by one rule for each command. -/
theorem linkCommandsComplete : Obligations.LinkCommandsComplete := by
  refine ⟨?up, fun _ _ receiving => exec_linkDown receiving, ?enter, fun _ _ _ => exec_lpiWake, fun _ _ on => exec_partnerLpiSignal on⟩
  case up =>
    rintro s _ m service mac down due rfl
    exact exec_linkUp service mac down (reach_reachable due)
  case enter =>
    rintro s _ m service mac up allowed idle awake due rfl
    exact exec_lpiEnter service mac up allowed idle awake (reach_reachable due)

/-! ### DMA channels -/

section
variable {s : State} {ch : Nat} (host : hostReaches s = true) (known : ch < 64)
include host known

theorem exec_dmaGo : exec (.dmaGo ch) s = .next (dmaGo s ch) := by
  simp only [exec, execDmaGo, host, known, decide_true, Bool.and_self, if_true]

theorem exec_dmaAbort : exec (.dmaAbort ch) s = .next (dmaAbort s ch) := by
  simp only [exec, execDmaAbort, host, known, decide_true, Bool.and_self, if_true]

/-- The chain head of a channel that runs stands; of another it is written, aligned to 32 bytes (R436). -/
theorem exec_chainHeadWrite {address : Nat} (fits : address < 2 ^ 64) : exec (.chainHeadWrite ch address) s = .next
    (if dmaRunning s ch then s
      else if address % 32 = 0 then
        wr (wr s (Reg.GLOVEBOX.CHAIN_HEAD_HI.at ch) (address / 2 ^ 32)) (Reg.GLOVEBOX.CHAIN_HEAD_LO.at ch) address
      else accessError (wr s (Reg.GLOVEBOX.CHAIN_HEAD_HI.at ch) (address / 2 ^ 32))) := by
  simp only [exec, execChainHeadWrite, host, known, fits, decide_true, Bool.and_self, Bool.not_true, Bool.false_eq_true, if_false]
  split
  · rfl
  · split <;> rfl
end

/-- A channel that waits for its engine halts at once (R438). -/
theorem dmaAbort_waiting {s : State} {ch : Nat} {c : DmaChannel} (here : s.dma.channels.get ch = some c) (waits : c.waiting = true) :
    dmaAbort s ch = dmaHalt s ch c 4 := by
  simp only [dmaAbort, here, waits, if_true]

theorem dmaAbort_working {s : State} {ch : Nat} {c : DmaChannel} (here : s.dma.channels.get ch = some c) (works : c.waiting = false) :
    dmaAbort s ch = withDma s ch { c with abort := true } := by
  simp [dmaAbort, here, works]

/-- What a fetch or an access that fails does to its channel: it is tried again up to the limit, and then halts (R440). -/
def dmaFails (s : State) (ch : Nat) (c : DmaChannel) : State :=
  if c.retries < rd s Reg.GLOVEBOX.DMA_CONFIG then bump (withDma s ch { c with retries := c.retries + 1 }) Reg.GLOVEBOX.DMA_RETRIES
  else dmaHalt s ch c 1

section
variable {s : State} {ch : Nat} {c : DmaChannel} (here : s.dma.channels.get ch = some c) (works : c.waiting = false) (goes : c.abort = false)
include here works goes

/-- A descriptor that arrives is issued, unless it is malformed or leaves its address spaces (R437, R438). -/
theorem exec_descriptorFetched (b : List Byte) (none_ : c.desc = none) : exec (.descriptorFetched ch (some b)) s = .next
    (if malformed (readDescriptor b) then dmaHalt s ch c 3
      else if transferAllowed s (readDescriptor b) then
        dmaIssue s ch { c with desc := some (readDescriptor b), readDone := 0, written := 0, funnel := [], access := none, retries := 0,
                               down := downwards (readDescriptor b) } (readDescriptor b)
      else dmaHalt s ch c 2) := by
  simp only [exec, execDescriptorFetched, here, works, goes, none_, Option.isSome_none, Bool.or_self, Bool.false_eq_true, if_false]
  split
  · rfl
  · cases transferAllowed s (readDescriptor b) <;> simp

theorem exec_descriptorFetched_fails (none_ : c.desc = none) : exec (.descriptorFetched ch none) s = .next (dmaFails s ch c) := by
  simp only [exec, execDescriptorFetched, here, works, goes, none_, Option.isSome_none, Bool.or_self, Bool.false_eq_true, if_false, dmaFails]
  split <;> rfl

variable {d : Descriptor} {addr n : Nat} (at_ : c.desc = some d)
include at_

section
variable (reads : c.access = some (.read addr n)) (passes : (dmaRefused s ch d (.read addr n)).isSome = false)
include reads passes

/-- Data read enter the funnel, at its front where the copy runs downwards (R439). -/
theorem exec_dmaAccessComplete_read (data : List Byte) (clean : dmaPoisoned s d (.read addr n) = false) :
    exec (.dmaAccessComplete ch true data) s = .next (dmaIssue s ch { c with
      funnel := if c.down then (if d.srcInternal then memRead s.mem addr n else padTo n data) ++ c.funnel
        else c.funnel ++ (if d.srcInternal then memRead s.mem addr n else padTo n data),
      access := none, retries := 0 } d) := by
  simp only [exec, execDmaAccessComplete, here, works, goes, at_, reads, passes, clean, Bool.not_true, Bool.or_self, Bool.false_eq_true, if_false]

theorem exec_dmaAccessComplete_readFails (data : List Byte) : exec (.dmaAccessComplete ch false data) s = .next (dmaFails s ch c) := by
  have unanswered : answerDma s ch d (.read addr n) = s := by
    rw [Option.isSome_eq_false_iff, Option.isNone_iff_eq_none] at passes
    simp only [answerDma, passes]
  simp only [exec, execDmaAccessComplete, here, works, goes, at_, reads, unanswered, Bool.not_false, Bool.true_or, Bool.false_eq_true, if_true,
    if_false, dmaFails]
  split <;> rfl
end

/-- Data written leave the funnel, and the last of a descriptor ends it (R439, R442). -/
theorem exec_dmaAccessComplete_write (data : List Byte) (writes : c.access = some (.write addr n)) (up : c.down = false)
    (passes : (dmaRefused s ch d (.write addr n)).isSome = false) (clean : dmaPoisoned s d (.write addr n) = false) :
    exec (.dmaAccessComplete ch true data) s = .next
      (if c.written + n = d.count then dmaDescriptorDone (dmaStore s ch d addr (c.funnel.take n)) ch
          { c with funnel := c.funnel.drop n, written := c.written + n, access := none, retries := 0 } d
        else dmaIssue (dmaStore s ch d addr (c.funnel.take n)) ch
          { c with funnel := c.funnel.drop n, written := c.written + n, access := none, retries := 0 } d) := by
  simp only [exec, execDmaAccessComplete, here, works, goes, at_, writes, up, passes, clean, Bool.not_true, Bool.or_self, Bool.false_eq_true,
    if_false]
  split <;> rfl
end

/-- Settles O58, by one rule for each branch of the five commands. -/
theorem dmaCommandsComplete : Obligations.DmaCommandsComplete := by
  refine ⟨?go, ?abort, ?head, ?fetched, ?read, ?write⟩
  case go =>
    intro s ch host known
    rw [exec_dmaGo host known]
    exact ⟨fun runs => congrArg _ (if_pos runs), fun _ => rfl⟩
  case abort =>
    intro s ch c host known here
    rw [exec_dmaAbort host known]
    exact ⟨fun waits => by rw [dmaAbort_waiting here waits], fun works => by rw [dmaAbort_working here works]⟩
  case head =>
    intro s ch address host known fits
    rw [exec_chainHeadWrite host known fits]
    refine ⟨fun runs => ?_, fun rests aligned => ?_, fun rests odd => ?_⟩
    · rw [if_pos runs]
    · rw [if_neg (by simp [rests]), if_pos aligned]
    · rw [if_neg (by simp [rests]), if_neg odd]
  case fetched =>
    rintro s ch c b _ here works none_ goes rfl
    rw [exec_descriptorFetched here works goes b none_, exec_descriptorFetched_fails here works goes none_]
    refine ⟨fun bad => ?_, fun good denied => ?_, fun good allowed => ?_, fun again => ?_, fun spent => ?_⟩
    · rw [if_pos bad]
    · rw [if_neg (by simp [good]), if_neg (by simp [denied])]
    · rw [if_neg (by simp [good]), if_pos allowed]
    · rw [dmaFails, if_pos again]
    · rw [dmaFails, if_neg (Nat.not_lt.2 spent)]
  case read =>
    intro s ch addr n c d data here at_ reads works goes
    refine ⟨fun passes clean up => ?_, fun passes clean down => ?_, fun again passes => ?_, fun spent passes => ?_⟩
    · simp only [exec_dmaAccessComplete_read here works goes at_ reads passes data clean, up, Bool.false_eq_true, if_false]
    · simp only [exec_dmaAccessComplete_read here works goes at_ reads passes data clean, down, if_true]
    · rw [exec_dmaAccessComplete_readFails here works goes at_ reads passes, dmaFails, if_pos again]
    · rw [exec_dmaAccessComplete_readFails here works goes at_ reads passes, dmaFails, if_neg (Nat.not_lt.2 spent)]
  case write =>
    intro s ch addr n c d data here at_ writes works goes up passes clean
    rw [exec_dmaAccessComplete_write here works goes at_ data writes up passes clean]
    exact ⟨fun last => by rw [if_pos last], fun more => by rw [if_neg more]⟩

end Sys2Proof.Machine

/-!
The PON terminal (R379 to R401): the PLOAM messages, and one rule for each branch of the commands of a port.
-/

namespace Sys2Proof.Machine

/-! ### PLOAM messages (R386) -/

section
variable {s : State} {p : Nat} {m : Ploam} (hears : ponHears s p m = true)
include hears

/-- A message whose MIC fails is counted and raised, and not acted on (R386). -/
theorem ploamIn_micFails (act : State → State) (bad : m.micOk = false) : ploamIn s p m act =
    .next (raise (bump (bump s (Reg.PON.PLOAM_RX.on p)) (Reg.PON.PLOAM_MIC_FAIL.on p))
      (Reg.PON.PON_EVENTS_PLOAM_MIC_FAIL.on (ponOwner (bump s (Reg.PON.PLOAM_RX.on p)) p))) := by
  simp [ploamIn, hears, bad]

/-- A message whose MIC holds is counted and acted on. -/
theorem ploamIn_micHolds (act : State → State) (good : m.micOk = true) : ploamIn s p m act = .next (act (bump s (Reg.PON.PLOAM_RX.on p))) := by
  simp [ploamIn, hears, good]

variable {u : State} (good : m.micOk = true) (counted : bump s (Reg.PON.PLOAM_RX.on p) = u)
include good counted

/-- A burst profile of the port's rate is stored (R376), and may end O1. -/
theorem exec_burstProfile {f : BurstProfile} (rate : f.rate = rd u (Reg.PON.PON_CONFIG_UP_RATE.on p)) : exec (.burstProfile p m f) s =
    .next (ponAdvance (withPon u (ponOwner s p) (fun x => { x with profiles := storeProfile x.profiles f })) (ponOwner s p)) := by
  simp [exec, execBurstProfile, ploamIn_micHolds hears _ good, counted, rate]

/-- Its ONU-ID takes a port from O2_3 to O4. -/
theorem exec_assignOnuId (id : Nat) (state : ponState u p = 2) : exec (.assignOnuId p m (ponSerial u p) id) s =
    .next (sendRegistration (ponMove (takeOnuId u (ponOwner s p) (id % 1024)) (ponOwner s p) 3 []) (ponOwner s p)) := by
  simp [exec, execAssignOnuId, ploamIn_micHolds hears _ good, counted, state]

/-- The equalisation delay takes a port from O4 to O5, and ends TO1. -/
theorem exec_rangingTime {old : Nat} (relative : Bool) (delay : Int) (state : ponState u p = 3)
    (before : ((ponPort u (ponOwner s p)).nextEqd).getD (rd u (Reg.PON.EQD.on (ponOwner s p))) = old)
    (stays : ponState (withPon u (ponOwner s p) (fun x => { x with
      nextEqd := some ((if relative then (old : Int) else 0) + delay).toNat, to1 := none })) p = 3) :
    exec (.rangingTime p m relative delay) s = .next (ponMove (withPon u (ponOwner s p) (fun x => { x with
      nextEqd := some ((if relative then (old : Int) else 0) + delay).toNat, to1 := none })) (ponOwner s p) 4 []) := by
  simp only [exec, execRangingTime, ploamIn_micHolds hears _ good, counted, state, before, stays, decide_true, Bool.true_or, if_true]

theorem exec_requestRegistration : exec (.requestRegistration p m) s = .next (sendRegistration u (ponOwner u p)) := by
  simp only [exec, execRequestRegistration, ploamIn_micHolds hears _ good, counted]

/-- An Alloc-ID is taken or released in O4 and O5, and acknowledged. -/
theorem exec_assignAllocId (a : Nat) (release : Bool) (state : ponState u p = 3 ∨ ponState u p = 4) : exec (.assignAllocId p m a release) s =
    .next (if release then queuePloam (withPon u (ponOwner s p) (fun x => { x with
        allocs := (ponPort u (ponOwner s p)).allocs.mapIdx (fun i x => if i ≠ 0 && x = some (a % 16384) then none else x) })) (ponOwner s p) ploamAck [0]
      else queuePloam (withPon u (ponOwner s p) (fun x => { x with allocs := (putAlloc (ponPort u (ponOwner s p)).allocs (a % 16384)).1 }))
        (ponOwner s p) ploamAck [b2n (!(putAlloc (ponPort u (ponOwner s p)).allocs (a % 16384)).2)]) := by
  have hold : (ponState u p ≠ 3 && ponState u p ≠ 4) = false := by simpa [or_iff_not_imp_left] using state
  simp only [exec, execAssignAllocId, ploamIn_micHolds hears _ good, counted, hold, Bool.false_eq_true, if_false]
  cases release <;> rfl

/-- A new unicast key is drawn, installed and reported (R392). -/
theorem exec_keyControl {index : Nat} (listed : index = 1 ∨ index = 2) : exec (.keyControl p m index) s =
    .next (raise (queuePloam (installPonKey (draw u).1 (ponOwner s p) index false (Config.drbg (draw u).2 % 2 ^ 128)) (ponOwner s p) ploamKeyReport
      [index, Config.ponWrap (ponKek (installPonKey (draw u).1 (ponOwner s p) index false (Config.drbg (draw u).2 % 2 ^ 128)) (ponOwner s p))
        (Config.drbg (draw u).2 % 2 ^ 128)]) (Reg.PON.PON_EVENTS_KEY_CHANGED.on (ponOwner s p))) := by
  have unicast : (index ≠ 1 && index ≠ 2) = false := by simpa [or_iff_not_imp_left] using listed
  simp only [exec, execKeyControl, ploamIn_micHolds hears _ good, counted, unicast, Bool.false_eq_true, if_false]

theorem exec_deactivateOnuId (low : 2 ≤ ponState u p) (high : ponState u p ≤ 5) :
    exec (.deactivateOnuId p m) s = .next (ponToO1 u (ponOwner u p)) := by
  simp [exec, execDeactivateOnuId, ploamIn_micHolds hears _ good, counted, low, high]

/-- The emergency stop of a port, and its end, for its own serial number or for all. -/
theorem exec_disableSerialNumber {serial : Option (List Byte)} (disable : Bool) (meant : serial = none ∨ serial = some (ponSerial u p)) :
    exec (.disableSerialNumber p m serial disable) s = .next (if disable then ponStop u (ponOwner u p) else ponUnstop u (ponOwner u p)) := by
  simp [exec, execDisableSerialNumber, ploamIn_micHolds hears _ good, counted, meant]

theorem exec_sleepAllow : exec (.sleepAllow p m) s = .next (queuePloam u (ponOwner u p) ploamAck [0]) := by
  simp only [exec, execSleepAllow, ploamIn_micHolds hears _ good, counted]

theorem exec_ploamUnsupported (kind : Nat) : exec (.ploamUnsupported p m kind) s = .next (queuePloam u (ponOwner u p) ploamAck [2, kind]) := by
  simp only [exec, execPloamUnsupported, ploamIn_micHolds hears _ good, counted]
end

/-- The Alloc-IDs of a port with one released: the default one, in the first entry, stays, and no other entry holds it. -/
theorem releasedAllocs (l : List (Option Nat)) (a : Nat) :
    (l.mapIdx (fun i x => if i ≠ 0 && x = some a then none else x)).length = l.length ∧
    (l.mapIdx (fun i x => if i ≠ 0 && x = some a then none else x))[0]? = l[0]? ∧
    ∀ i, 0 < i → (l.mapIdx (fun i x => if i ≠ 0 && x = some a then none else x))[i]? ≠ some (some a) := by
  refine ⟨List.length_mapIdx, ?_, fun i other => ?_⟩
  · cases l <;> simp
  · rw [List.getElem?_mapIdx]
    cases l[i]? with
    | none => simp
    | some x => by_cases same : x = some a <;> simp [same, Nat.ne_of_gt other]

/-- Settles O54, by the two outcomes of a PLOAM message and one rule for each type. -/
theorem ploamMessagesComplete : Obligations.PloamMessagesComplete := by
  refine ⟨?micFails, ?profile, ?onuId, ?ranging, ?registration, ?alloc, ?release, ?key, ?deactivate, ?disable, ?other⟩
  case micFails =>
    intro s p id a index kind m f serial relative release disable delay whom hears bad c listed
    fin_cases listed <;> simp only [exec, execBurstProfile, execAssignOnuId, execRangingTime, execRequestRegistration, execAssignAllocId, execKeyControl,
      execDeactivateOnuId, execDisableSerialNumber, execSleepAllow, execPloamUnsupported, ploamIn_micFails hears _ bad]
  case profile =>
    intro s u p m f hears good counted rate
    exact exec_burstProfile hears good counted rate
  case registration =>
    intro s u p m hears good counted
    exact exec_requestRegistration hears good counted
  case key =>
    intro s u p index m hears good counted listed
    exact exec_keyControl hears good counted listed
  case deactivate =>
    intro s u p m hears good counted low high
    exact exec_deactivateOnuId hears good counted low high
  case onuId =>
    intro s u p id m hears good counted
    exact exec_assignOnuId hears good counted id
  case ranging =>
    intro s u p old m relative delay hears good counted state before
    exact exec_rangingTime hears good counted relative delay state before
  case alloc =>
    intro s u p a m hears good counted state
    rw [exec_assignAllocId hears good counted a false state, if_neg Bool.false_ne_true]
  case release =>
    intro s u p a m hears good counted state
    exact ⟨_, _, exec_assignAllocId hears good counted a true state, rfl, releasedAllocs _ _⟩
  case disable =>
    intro s u p m serial hears good counted meant
    exact ⟨exec_disableSerialNumber hears good counted true meant, exec_disableSerialNumber hears good counted false meant⟩
  case other =>
    intro s u p kind m hears good counted
    exact ⟨exec_sleepAllow hears good counted, exec_ploamUnsupported hears good counted kind⟩

end Sys2Proof.Machine

/-!
The commands of a PON port (R379 to R401): one rule for each branch that the statement names.
-/

namespace Sys2Proof.Machine

/-! ### The hunt and the loss of sync (R379, R380) -/

/-- PSYNC_HUNT of a port that hunts is one step of the hunt, which regains the port where it confirms a candidate. -/
theorem exec_psyncHunt {s u : State} {p position errors : Nat} {high confirmed full : Bool} {cs : List Candidate} (ready : inService s = true)
    (enabled : ponEnabled s p = true) (hunts : ponSync s p = false) (seen : takeLos s p high = u)
    (step : huntStep (ponPort u p).candidates (downBits u p) (rd u (Reg.PON.PON_CONFIG_SYNC_MATCHES.on p)) position (psyncMatches u p high errors)
      = (cs, confirmed, full)) :
    exec (.psyncHunt p position ⟨errors, high⟩) s =
      (let v := withPon u p (fun x => { x with candidates := cs, missRun := 0 })
       let w := if full then bump v (Reg.PON.HUNT_SATURATED.on p) else v
       if confirmed then
         let w := wr w (Reg.PON.PON_STATUS_SYNC.on p) 1
         .next (if ponActive w p then ponRegain w (ponOwner w p) else w)
       else .next w) := by
  simp only [exec, execPsyncHunt, ready, enabled, hunts, seen, step, Bool.not_false, Bool.not_true, Bool.and_self, Bool.false_eq_true, if_false]

/-- At the position that a candidate expects, a miss drops it, and a match that completes its count confirms it. -/
theorem huntStep_expected {cs : List Candidate} {frame position : Nat} {c : Candidate} (matches_ : Nat)
    (expected : (cs.filter (fun c => decide (position ≤ c.next))).find? (fun c => c.next = position) = some c) :
    huntStep cs frame matches_ position false = ((cs.filter (fun c => decide (position ≤ c.next))).filter (fun x => x.next ≠ position), false, false) ∧
    (matches_ ≤ c.matches_ + 1 → huntStep cs frame matches_ position true = ([], true, false)) := by
  refine ⟨by simp only [huntStep, expected]; rfl, fun enough => ?_⟩
  simp only [huntStep, expected, enough, Bool.not_true, Bool.false_eq_true, if_false, if_true]

theorem exec_syncLost {s : State} {p : Nat} (port : p < 2) (sync : ponSync s p = true) (missed : 4 ≤ (ponPort s p).missRun) :
    exec (.syncLost p) s = .next (loseSync s p) := by
  simp [exec, execSyncLost, port, sync, missed]

/-! ### Downstream frames (R381, R382) -/

/-- A port as a downstream frame leaves it before its contents are read: PSync checked, FEC results counted, the stamp kept. -/
def framed (s : State) (p : Nat) (f : DownFrame) : State :=
  withPon (bumpBy (bumpBy (closeBursts (checkPsync (takeLos s p f.rxLos) p (psyncMatches s p f.rxLos f.psyncErrors)) p)
    (Reg.PON.FEC_CORRECTED.on p) f.fecCorrected) (Reg.PON.FEC_UNCORRECTABLE.on p) f.fecUncorrectable) p
    (fun x => { x with superframe := f.superframe, stamps := ((f.superframe, f.stamp) :: x.stamps).take 8192 })

section
variable {s u : State} {p : Nat} {f : DownFrame} (ready : inService s = true) (enabled : ponEnabled s p = true) (sync : ponSync s p = true)
  (kept : (ponPort s p).missRun < 4) (reads : framed s p f = u)
include ready enabled sync kept reads

/-- The standby port of a pair keeps its sync and its counts only. -/
theorem exec_ponDownstreamFrame_standby (standby : ponActive u p = false) : exec (.ponDownstreamFrame p f) s = .next u := by
  subst reads
  rw [framed] at standby ⊢
  simp only [exec, execPonDownstreamFrame, ready, enabled, sync, kept, standby, decide_true, Bool.and_self, Bool.not_true, Bool.not_false, Bool.false_eq_true,
    if_false, if_true]

/-- The active port reads a frame outside O6 as far as its header holds. -/
theorem exec_ponDownstreamFrame_active (active : ponActive u p = true) (state : ponState u p ≠ 5) :
    exec (.ponDownstreamFrame p f) s = if f.headerBad then .next (bump u (Reg.PON.HEC_ERRORS.on p))
      else .next (xgemFrames (switchUpKey (readBwmap u p f.stamp f.superframe f.bwmap) (ponOwner s p) f.upKey) p (ponOwner s p) 0 f.xgem) := by
  subst reads
  rw [framed] at active state ⊢
  simp only [exec, execPonDownstreamFrame, ready, enabled, sync, kept, active, state, decide_true, decide_false, Bool.and_self, Bool.and_false, Bool.not_true,
    Bool.false_eq_true, if_false]
end

/-! ### The timers (R384) -/

theorem exec_to1Expiry {s : State} {p t : Nat} (port : p < 2) (set : (ponPort s (ponOwner s p)).to1 = some t)
    (state : ponState s p = 2 ∨ ponState s p = 3) (due : reachable s t = true) :
    exec (.to1Expiry p) s = .next (ponToO1 (advanceTo s t) (ponOwner s p)) := by
  simp [exec, execTo1Expiry, set, port, state, reach_reachable due]

theorem exec_to2Expiry {s : State} {p t : Nat} (port : p < 2) (set : (ponPort s (ponOwner s p)).to2 = some t) (state : ponState s p = 5)
    (due : reachable s t = true) : exec (.to2Expiry p) s = .next (ponToO1 (advanceTo s t) (ponOwner s p)) := by
  simp [exec, execTo2Expiry, set, port, state, reach_reachable due]

/-! ### Bursts (R387, R400, R401) -/

/-- A port at the start of a burst: the windows that have passed closed, BURST_EN high, the burst counted and sent. -/
def bursting (u : State) (p : Nat) (b : Burst) : State :=
  emit (emit (bump (withPon (closeBursts u p) p (fun x => { x with burstEn := true, bursts := replaceFirst x.bursts b { b with sent := true } }))
    (Reg.PON.BURSTS.on p)) (.pin (burstPin p) 1)) (.burst p [b.on, b.off])

/-- The next window of a port that may transmit opens: in O2_3 the serial number is sent, and otherwise the PLOAM messages granted. -/
theorem exec_burstWindow {s v : State} {p : Nat} {b : Burst} (may : ponMayTransmit s p = true)
    (next : (ponPort s p).bursts.find? (fun b => !b.sent && decide (nowNs s < b.off)) = some b) (due : reachable s b.on = true)
    (sent : bursting (advanceTo s b.on) p b = v) : exec (.burstWindow p) s =
      if ponState v p = 2 then .next (emit v (.ploam p ploamSerial ((ponSerial v p).map (·.toNat))))
      else .next ((b.grants.filter (·.ploamU)).foldl (fun s _ => sendPloam s p (ponOwner s p)) v) := by
  subst sent
  simp only [exec, execBurstWindow, may, next, reach_reachable due, Bool.not_true, Bool.false_eq_true, if_false]
  rfl

/-- BURST_EN outside every window goes low, and the transmitter is locked: at the third trip for good (R401). -/
theorem exec_watchdogTrip {s : State} {p rise instant : Nat} (port : p < 2)
    (outside : (ponPort s p).bursts.any (fun b => decide (b.on ≤ rise) && decide (rise < b.off) && decide (instant < b.off + 64)) = false) :
    exec (.watchdogTrip p rise instant) s = .next (fault (raise (bump (wr (emit (withPon s p
      (fun x => { x with burstEn := false, trips := (ponPort s p).trips + 1 })) (.pin (burstPin p) 0))
      (if 3 ≤ (ponPort s p).trips + 1 then Reg.PON.PON_STATUS_WATCHDOG_PERMANENT.on p else Reg.PON.PON_STATUS_TX_LOCKED.on p) 1)
      (Reg.PON.WATCHDOG_TRIPS.on p)) (Reg.PON.PON_EVENTS_WATCHDOG_TRIP.on p)) 0x70 16 (enginePort 8 (2 * p)) p 0) := by
  simp only [exec, execWatchdogTrip, Nat.not_le.mpr port, outside, Bool.false_eq_true, if_false]

/-! ### OMCI (R394) -/

section
variable {s : State} {p : Nat} {m : OmciMessage} (ready : inService s = true) (enabled : ponEnabled s p = true) (sync : ponSync s p = true)
  (active : ponActive s p = true) (state : ponState s p = 3 ∨ ponState s p = 4)
include ready enabled sync active state

/-- The port takes the message. -/
theorem omciMessage_taken : (inService s && ponEnabled s p && ponSync s p && ponActive s p && (ponState s p = 3 || ponState s p = 4)) = true := by
  simp [ready, enabled, sync, active, state]

theorem exec_omciMessage_micFails (bad : m.micOk = false) : exec (.omciMessage p m) s = .next (bump s (Reg.PON.OMCI_MIC_FAIL.on p)) := by
  simp [exec, execOmciMessage, omciMessage_taken ready enabled sync active state, bad]

theorem exec_omciMessage_other (good : m.micOk = true) (kind : m.kind = .other) :
    exec (.omciMessage p m) s = .next (deliverOmci s p 5 0 m.bytes m.stamp true) := by
  simp [exec, execOmciMessage, omciMessage_taken ready enabled sync active state, good, kind]

/-- A message of the mutual authentication is answered where the port has ENHANCED_SECURITY, and delivered as any other where not. -/
theorem exec_omciMessage_mutualAuth (good : m.micOk = true) (kind : m.kind = .mutualAuth) : exec (.omciMessage p m) s =
    if rd s (Reg.PON.PON_CONFIG_ENHANCED_SECURITY.on p) = 1 then
      .next (deliverOmci (authenticate s (ponOwner s p) m.bytes) p 6 (omciType m.bytes) [] m.stamp false)
    else .next (deliverOmci s p 5 0 m.bytes m.stamp true) := by
  simp [exec, execOmciMessage, omciMessage_taken ready enabled sync active state, good, kind]
end

/-! ### Time of day and the protected pair (R398, R399) -/

theorem exec_todMeasurement {s : State} {p : Nat} {b : TodBinding} (ready : inService s = true) (port : p < 2)
    (bound : (ponPort s (ponOwner s p)).tod.find? (fun b => (psyncStamp s (livePort s (ponOwner s p)) b.superframe).isSome) = some b) :
    exec (.todMeasurement p) s = .next (measureTod (withPon s (ponOwner s p) (fun x => { x with tod := x.tod.erase b })) (ponOwner s p)
      ((psyncStamp s (livePort s (ponOwner s p)) b.superframe).getD 0) b.time) := by
  simp [exec, execTodMeasurement, bound, ready, port]

/-- The first frame boundary of the standby at which a swap that is due may take place (R399). -/
def swapBoundary (due last : Nat) : Nat := if due ≤ last then last else last + ceilDiv (due - last) Config.tickNs * Config.tickNs

theorem exec_protectSwitch {s : State} {due last : Nat} (ready : inService s = true) (paired : ponPaired s = true) (set : swapDue s = some due)
    (heard : (((ponPort s (if s.pon.activeB then 0 else 1)).stamps.head?).map (·.2)).getD due = last)
    (sync : ponSync s (if s.pon.activeB then 0 else 1) = true) (at_ : reachable s (swapBoundary due last) = true) :
    exec .protectSwitch s = .next (swapRoles (advanceTo s (swapBoundary due last)) [Reg.PON.PON_EVENTS_PROTECT_SWITCH.on 0]) := by
  have boundary := reach_reachable at_
  rw [swapBoundary] at boundary
  simp only [exec, execProtectSwitch, ready, paired, set, sync, heard, boundary, swapBoundary, Bool.and_self, Bool.not_true, Bool.false_eq_true, if_false]

/-- Settles O55, with the rule of each command of a port. -/
theorem ponPortCommandsComplete : Obligations.PonPortCommandsComplete := by
  refine ⟨?hunt, ?confirmed, fun _ _ matches_ _ _ => huntStep_expected matches_, fun _ _ => exec_syncLost, ?frame, ?to1, ?to2, ?burst,
    fun _ _ _ _ => exec_watchdogTrip, ?omci, fun _ _ _ => exec_todMeasurement, ?swap⟩
  case hunt =>
    intro s u p position errors high cs full ready enabled hunts seen step
    rw [exec_psyncHunt ready enabled hunts seen step]
    cases full <;> rfl
  case confirmed =>
    intro s u p position errors high ready enabled hunts seen step standby
    rw [exec_psyncHunt ready enabled hunts seen step]
    simp only [standby, Bool.false_eq_true, if_false, if_true]
  case frame =>
    intro s u p f ready enabled sync kept reads
    refine ⟨exec_ponDownstreamFrame_standby ready enabled sync kept reads, fun active state bad => ?_, fun active state good => ?_⟩
    · rw [exec_ponDownstreamFrame_active ready enabled sync kept reads active state, if_pos bad]
    · rw [exec_ponDownstreamFrame_active ready enabled sync kept reads active state, if_neg (by simp [good])]
  case to1 =>
    rintro s _ p t port set state due rfl
    exact exec_to1Expiry port set state due
  case to2 =>
    rintro s _ p t port set state due rfl
    exact exec_to2Expiry port set state due
  case burst =>
    rintro s _ v p b may next due rfl sent
    exact ⟨fun state => (exec_burstWindow may next due sent).trans (if_pos state), fun state => (exec_burstWindow may next due sent).trans (if_neg state)⟩
  case omci =>
    intro s p m ready enabled sync active state
    refine ⟨exec_omciMessage_micFails ready enabled sync active state, exec_omciMessage_other ready enabled sync active state,
      fun good kind enhanced => ?_, fun good kind plain => ?_⟩
    · rw [exec_omciMessage_mutualAuth ready enabled sync active state good kind, if_pos enhanced]
    · rw [exec_omciMessage_mutualAuth ready enabled sync active state good kind, if_neg plain]
  case swap =>
    rintro s _ _ due last ready paired set rfl heard sync at_ rfl
    exact exec_protectSwitch ready paired set heard sync at_

end Sys2Proof.Machine

/-!
Near memory (R404 to R419): one rule for each branch of its commands, and its channels' training.
-/

namespace Sys2Proof.Machine

/-! ### Requests (R405, R27, R28) -/

section
variable {s : State} {stack channel : Nat} {r : MemRequest} (ecc : Ecc) (hstack : stack < 8) (hchannel : channel < 16)
  (fits : requestFits stack channel r = true) (fused : portFused s r.port = false)
include hstack hchannel fits fused

/-- A request that the Crown does not let through is answered as it says. -/
theorem exec_memoryRequest_refused (refused : crownReply s r.port r.address ≠ .pass) :
    exec (.memoryRequest stack channel (some r) ecc) s = .next (answerCrown s r.port r.address (crownReply s r.port r.address)) := by
  simp [exec, execMemoryRequest, hstack, hchannel, fits, fused, refused]

/-- A request that the Crown lets through to near memory enters its queue, and the channel issues its next command. -/
theorem exec_memoryRequest_passed (near : r.address < 8 * stackBytes) (passed : crownReply s r.port r.address = .pass) :
    exec (.memoryRequest stack channel (some r) ecc) s = .next (issueCommand (arrive s stack channel (some r)) stack channel ecc) := by
  simp [exec, execMemoryRequest, hstack, hchannel, fits, fused, passed, near]
end

/-- What the Crown makes of a request to near memory: a port needs rights, the stack power and the two ports a path. -/
theorem crownReply_near {s : State} {port a : Nat} (near : a < 8 * stackBytes) : crownReply s port a =
    if rightsOk s port a = false then .denied
    else if stackOn s (nearStack a) = true ∧ pathOpen s port (controllerPort (nearStack a) (nearChannel a)) = true then .pass else .portOff := by
  simp [crownReply, near]

theorem exec_memoryRequest_none {s : State} {stack channel : Nat} (ecc : Ecc) (hstack : stack < 8) (hchannel : channel < 16) (on : stackOn s stack = true) :
    exec (.memoryRequest stack channel none ecc) s = .next (issueCommand (arrive s stack channel none) stack channel ecc) := by
  simp [exec, execMemoryRequest, hstack, hchannel, on]

/-- A channel issues the first command of R405 that it can. -/
theorem issueCommand_eq (s : State) (stack channel : Nat) (ecc : Ecc) :
    (∀ w q, nextCommand s stack channel = .serve w q → issueCommand s stack channel ecc = serve s stack channel w q ecc) ∧
    (∀ b forced, nextCommand s stack channel = .refresh b forced → issueCommand s stack channel ecc = refresh s stack channel b forced) ∧
    (nextCommand s stack channel = .nothing → issueCommand s stack channel ecc = s) := by
  refine ⟨fun w q next => ?_, fun b forced next => ?_, fun next => ?_⟩ <;> simp only [issueCommand, next]

/-! ### Refresh, temperature, catch-up (R410 to R412) -/

theorem exec_refreshDue {s : State} {stack channel bank : Nat} (hstack : stack < 8) (hchannel : channel < 16) (hbank : bank < 32)
    (on : stackOn s stack = true) (due : reachable s (nextDue s stack channel bank) = true) : exec (.refreshDue stack channel bank) s =
      .next (withBank (advanceTo s (nextDue s stack channel bank)) stack channel bank { bankOf s stack channel bank with
        debt := min 8 ((bankOf s stack channel bank).debt + 1), lastDue := some (nextDue s stack channel bank) }) := by
  simp [exec, execRefreshDue, hstack, hchannel, hbank, on, reach_reachable due]

/-- The instant of a stack's next temperature reading. -/
def readingDue (s : State) (stack : Nat) : Nat :=
  match s.near.lastReading.get stack with
  | some t => t + 32000
  | none => 0

/-- A stack's temperature, read and shown. -/
def readTemperature (u : State) (stack : Nat) (celsius : Int) : State :=
  wr { u with near := { u.near with lastReading := u.near.lastReading.put stack (nowNs u) } } (Reg.NEARMEM.MEM_STATUS_TEMPERATURE.on stack) (ofSigned 8 celsius)

section
variable {s u : State} {stack : Nat} {celsius : Int} (hstack : stack < 8) (on : stackOn s stack = true) (arrives : reach s (readingDue s stack) = some u)
include hstack on arrives

/-- The stack is not HOT at 82 degrees or less. -/
theorem exec_temperatureReading_cool (cool : celsius ≤ 82) : exec (.temperatureReading stack celsius) s =
    .next (wr (readTemperature u stack celsius) (Reg.NEARMEM.MEM_STATUS_HOT.on stack) 0) := by
  have below : ¬ 85 < celsius := by omega
  have safe : ¬ 95 < celsius := by omega
  cases last : s.near.lastReading.get stack <;> simp only [readingDue, last] at arrives <;>
    simp only [exec, execTemperatureReading, hstack, on, last, arrives, below, safe, cool, readTemperature, decide_true, decide_false, Bool.and_self,
      Bool.and_false, Bool.false_and, Bool.not_true, Bool.false_eq_true, if_false, if_true]

/-- A stack that becomes HOT above 85 degrees, with a bank's debt above 4, enters catch-up (R412). -/
theorem exec_temperatureReading_catchup {v w : State} (hot : 85 < celsius) (safe : celsius ≤ 95) (before : rd u (Reg.NEARMEM.MEM_STATUS_HOT.on stack) ≠ 1)
    (shown : wr (readTemperature u stack celsius) (Reg.NEARMEM.MEM_STATUS_HOT.on stack) 1 = v) (debt : debtAbove4 v stack = true)
    (calm : inCatchup v stack = false) (enters : wr v (Reg.NEARMEM.MEM_STATUS_CATCHUP.on stack) 1 = w) :
    exec (.temperatureReading stack celsius) s = .next (raise (bump
      { w with near := { w.near with catchupFrom := w.near.catchupFrom.put stack (nowNs w) } } (Reg.NEARMEM.CATCHUPS.on stack))
      (Reg.NEARMEM.MEM_EVENTS_CATCHUP_ENTERED.on stack)) := by
  have below : ¬ 95 < celsius := by omega
  rw [readTemperature] at shown
  cases last : s.near.lastReading.get stack <;> simp only [readingDue, last] at arrives <;>
    simp only [exec, execTemperatureReading, hstack, on, last, arrives, hot, below, before, shown, debt, calm, enters, decide_true,
      decide_false, Bool.and_self, Bool.not_true, Bool.not_false, Bool.false_eq_true, if_false, if_true]
end

theorem exec_catchupEnd {s : State} {stack : Nat} (hstack : stack < 8) (catchup : inCatchup s stack = true) (paid : debtAbove4 s stack = false) :
    exec (.catchupEnd stack) s = .next (wr (wr s (Reg.NEARMEM.MEM_STATUS_CATCHUP.on stack) 0) (Reg.NEARMEM.CATCHUPS_LONGEST.on stack)
      (min (2 ^ 32 - 1) (max (nowNs s - (s.near.catchupFrom.get stack).getD (nowNs s))
        (rd (wr s (Reg.NEARMEM.MEM_STATUS_CATCHUP.on stack) 0) (Reg.NEARMEM.CATCHUPS_LONGEST.on stack))))) := by
  simp only [exec, execCatchupEnd, hstack, catchup, paid, decide_true, Bool.not_false, Bool.and_self, if_true]

/-! ### Remapping and scrub (R415, R416) -/

section
variable {s : State} {stack channel bank row n : Nat} (bad : List Nat) (hstack : stack < 8) (hchannel : channel < 16) (hbank : bank < 32)
  (remaps : remapDue s stack channel bank = some (row, n))
include hstack hchannel hbank remaps

/-- A row that is due moves to a spare row of its bank. -/
theorem exec_rowRemap_spare {b : MemBank} (held : bankOf s stack channel bank = b) (room : b.spares.length < 4) :
    exec (.rowRemap stack channel ⟨bank, bad⟩) s = .next (raise (bump (withBank (poisonRow s stack channel bank row bad) stack channel bank
      { b with open_ := none, buckets := [], uncorrectable := b.uncorrectable.filter (fun e => e.1 ≠ row),
               spares := b.spares ++ [{ row := row, tick := s.time.tickCount, corrected := n }] })
      (Reg.NEARMEM.ROWS_REMAPPED.on stack)) (Reg.NEARMEM.MEM_EVENTS_ROW_REMAPPED.on stack)) := by
  simp only [exec, execRowRemap, hstack, hchannel, hbank, remaps, held, room, decide_true, Bool.and_self, Bool.not_true, Bool.false_eq_true, if_false, if_true]

/-- With no spare row left, a crossing that has not been answered is raised the first time and logged later. -/
theorem exec_rowRemap_exhausted {b : MemBank} (held : bankOf s stack channel bank = b) (full : 4 ≤ b.spares.length) (first : b.answered = false) :
    exec (.rowRemap stack channel ⟨bank, bad⟩) s =
      if b.noSpare then .next (fault (withBank s stack channel bank { b with answered := true, uncorrectable := b.uncorrectable.filter (fun e => e.1 ≠ row) })
        0x23 17 (controllerPort stack channel) (bank + rowAddress stack channel bank row / 2 ^ 32 * 65536) (rowAddress stack channel bank row % 2 ^ 32))
      else .next (raise (withBank s stack channel bank { b with noSpare := true, answered := true, uncorrectable := b.uncorrectable.filter (fun e => e.1 ≠ row) })
        (Reg.NEARMEM.MEM_EVENTS_REMAP_EXHAUSTED.on stack)) := by
  simp only [exec, execRowRemap, hstack, hchannel, hbank, remaps, held, Nat.not_lt.mpr full, first, decide_true, Bool.and_self, Bool.false_and,
    Bool.not_true, Bool.false_eq_true, if_false]
end

/-- The word that a channel scrubs next: its bank and its address, from the counter (R416). -/
def scrubBank (at_ : Nat) : Nat := 4 * (bitsOf at_ 12 10 ^^^ bitsOf at_ 20 18) + bitsOf at_ 14 13
def scrubWord (stack channel at_ : Nat) : Nat :=
  (rowAddress stack channel (scrubBank at_) (at_ / 32768) + at_ % 1024 / 256 * 4096 + at_ % 256) / 64

/-- A channel whose counter has moved to the next word. -/
def scrubAdvanced (s : State) (stack channel : Nat) : State :=
  withChannel s stack channel { channelOf s stack channel with
    scrubAt := ((channelOf s stack channel).scrubAt + 64) % (49152 * 32768),
    scrubFrom := if (channelOf s stack channel).scrubAt = 0 then some (nowNs s) else (channelOf s stack channel).scrubFrom }

section
variable {s : State} {stack channel : Nat} {ecc : Ecc} (hstack : stack < 8) (hchannel : channel < 16) (on : stackOn s stack = true)
  (due : scrubDue s stack channel = true)
include hstack hchannel on due

theorem exec_scrubRead_clean (clean : eccOf (scrubAdvanced s stack channel) (scrubWord stack channel (channelOf s stack channel).scrubAt) ecc = .clean) :
    exec (.scrubRead stack channel ecc) s = .next (scrubAdvanced s stack channel) := by
  rw [scrubAdvanced, scrubWord, scrubBank] at clean
  simp only [exec, execScrubRead, hstack, hchannel, on, due, clean, scrubAdvanced, decide_true, Bool.and_self, Bool.not_true, Bool.false_eq_true, if_false]

theorem exec_scrubRead_corrected (corrected : eccOf (scrubAdvanced s stack channel) (scrubWord stack channel (channelOf s stack channel).scrubAt) ecc = .corrected) :
    exec (.scrubRead stack channel ecc) s = .next (bump (correctedIn (scrubAdvanced s stack channel) stack channel
      (scrubBank (channelOf s stack channel).scrubAt) ((channelOf s stack channel).scrubAt / 32768)) (Reg.NEARMEM.SCRUB_CORRECTED.on stack)) := by
  rw [scrubAdvanced, scrubWord, scrubBank] at corrected
  simp only [exec, execScrubRead, hstack, hchannel, on, due, corrected, scrubAdvanced, scrubBank, decide_true, Bool.and_self, Bool.not_true, Bool.false_eq_true, if_false]
end

/-! ### Training, tracking and faults (R414, R417 to R419) -/

/-- A tracking step in its tick renews the set, holds the channel longer and retrains it where the shift is out of range, or faults it. -/
theorem exec_trackingStep {s : State} {stack channel : Nat} (inRange trains : Bool) (ready : inService s = true) (hstack : stack < 8) (hchannel : channel < 16)
    (on : stackOn s stack = true) (slot : s.time.tickCount % 8000 = 62 * (16 * stack + channel)) (once : onceDue s (0x600000 + (16 * stack + channel)) = true) :
    exec (.trackingStep stack channel inRange trains) s =
      (let held := holdStep (markOnce s (0x600000 + (16 * stack + channel))) stack channel
       if inRange then .next (showSets (trainSet (held 20000) stack channel (setPoint (held 20000))) stack)
       else if trains then
         .next (raise (showSets (trainSet (held 1500000) stack channel (setPoint (held 1500000))) stack) (Reg.NEARMEM.MEM_EVENTS_RETRAINED.on stack))
       else .next (faultChannel (held 1500000) stack channel)) := by
  simp only [exec, execTrackingStep, ready, hstack, hchannel, on, slot, once, decide_true, Bool.and_self, Bool.not_true, Bool.false_eq_true, if_false]

theorem exec_channelFault {s : State} {stack channel : Nat} (hstack : stack < 8) (hchannel : channel < 16) (ready : inService s = true)
    (thrice : 3 ≤ ((channelOf s stack channel).exhausted.filter (fun t => nowNs s < t + 1000000000)).length)
    (well : bitOf (rd s (Reg.NEARMEM.MEM_STATUS_CHANNELS_FAULTED.on stack)) channel = 0) : exec (.channelFault stack channel) s =
      .next (faultChannel (withChannel s stack channel { channelOf s stack channel with exhausted := [] }) stack channel) := by
  simp only [exec, execChannelFault, hstack, hchannel, ready, thrice, well, decide_true, Bool.and_self, if_true]

/-- A channel without its set for a point, where that has expired. -/
def dropSet (stack point : Nat) (s : State) (ch : Nat) : State :=
  if setValid s (channelOf s stack ch) point then s else withChannel s stack ch { channelOf s stack ch with
    trained := updateAt (channelOf s stack ch).trained point (fun _ => none) }

theorem exec_trainingSetExpiry {s : State} {stack point t : Nat} (hstack : stack < 8) (points : point < 3)
    (oldest : leastBy (fun (t : Nat) => (t : Int)) ((List.range 16).filterMap (fun ch => (channelOf s stack ch).trained.getD point none)) = some t)
    (due : reachable s (t + 3600000000000) = true) : exec (.trainingSetExpiry stack point) s =
      .next (showSets ((List.range 16).foldl (dropSet stack point) (advanceTo s (t + 3600000000000))) stack) := by
  change execTrainingSetExpiry stack point s = _
  unfold execTrainingSetExpiry
  -- as in `keeps_execTrainingSetExpiry`: the kernel would count up to the hour (R417)
  obtain ⟨hour, e⟩ : ∃ n, 3600000000000 = n := ⟨_, rfl⟩
  rw [e] at due ⊢
  simp only [hstack, points, oldest, reach_reachable due, decide_true, Bool.and_self, Bool.not_true, Bool.false_eq_true, if_false]
  rfl

/-- A stack's channels trained at a point, shown and raised as the change of set point ends (R419). -/
def retrainedAt (point : Nat) (s : State) (k : Nat) : State :=
  raiseAll (showSets ((List.range 16).foldl (fun s ch => trainSet s k ch point) s) k)
    [Reg.NEARMEM.MEM_EVENTS_RATE_CHANGED.on k, Reg.NEARMEM.MEM_EVENTS_RETRAINED.on k]

theorem exec_memoryRetrainingDone {s u : State} {d : Deferred} {point old : Nat} (failed : List Nat) (waits : s.near.change = some (d, point, old))
    (training : s.near.retraining = true) (ended : { s with near := { s.near with change := none, retraining := false } } = u) :
    exec (.memoryRetrainingDone failed) s =
      if failed ≠ [] then .next (finish (faultRetrained (takePoint u old) point failed) d 18 0 0)
      else .next (finish ((poweredStacks u).foldl (retrainedAt point) u) d 0 1 0) := by
  simp only [exec, execMemoryRetrainingDone, waits, training, ended, Bool.not_true, Bool.false_eq_true, if_false]
  rfl

/-- Settles O56, by what the Crown makes of a request and with the rule of each command of the near memory. -/
theorem nearMemoryCommandsComplete : Obligations.NearMemoryCommandsComplete := by
  refine ⟨?request, ?unmapped, fun _ _ _ ecc => exec_memoryRequest_none ecc, issueCommand_eq, ?refreshDue, ?cool, ?hot, ?catchupEnd, ?remap, ?scrub,
    ?tracks, ?retrains, fun _ _ _ => exec_channelFault, ?expiry, ?retrained⟩
  case request =>
    intro s stack channel r ecc hstack hchannel fits fused near
    have reply := crownReply_near (s := s) (port := r.port) near
    refine ⟨fun noRights => ?_, fun rights off => ?_, fun rights on path => ?_⟩
    · rw [if_pos noRights] at reply
      simpa [reply, answerCrown] using exec_memoryRequest_refused ecc hstack hchannel fits fused (by simp [reply])
    · have shut : ¬(stackOn s (nearStack r.address) = true ∧ pathOpen s r.port (controllerPort (nearStack r.address) (nearChannel r.address)) = true) := by
        rcases off with off | off <;> simp [off]
      rw [if_neg (by simp [rights]), if_neg shut] at reply
      simpa [reply, answerCrown] using exec_memoryRequest_refused ecc hstack hchannel fits fused (by simp [reply])
    · rw [if_neg (by simp [rights]), if_pos ⟨on, path⟩] at reply
      exact exec_memoryRequest_passed ecc hstack hchannel fits fused near reply
  case unmapped =>
    intro s stack channel r ecc hstack hchannel fits fused reply
    simpa [reply, answerCrown] using exec_memoryRequest_refused ecc hstack hchannel fits fused (by simp [reply])
  case refreshDue =>
    rintro s _ stack channel bank _ hstack hchannel hbank on rfl due rfl
    exact exec_refreshDue hstack hchannel hbank on due
  case cool =>
    rintro s _ stack t celsius hstack on last cool due rfl
    have instant : readingDue s stack = t + 32000 := by simp only [readingDue, last]
    rw [← instant] at due ⊢
    exact exec_temperatureReading_cool hstack on (reach_reachable due) cool
  case hot =>
    rintro s _ v w stack celsius hstack on hot safe due rfl before shown debt calm enters
    exact exec_temperatureReading_catchup hstack on (reach_reachable due) hot safe before shown debt calm enters
  case catchupEnd =>
    rintro s _ stack hstack catchup paid rfl
    exact exec_catchupEnd hstack catchup paid
  case remap =>
    intro s stack channel bank row n bad b hstack hchannel hbank remaps held
    refine ⟨exec_rowRemap_spare bad hstack hchannel hbank remaps held, fun full first unused => ?_, fun full first used => ?_⟩
    · rw [exec_rowRemap_exhausted bad hstack hchannel hbank remaps held full first, if_neg (by simp [unused])]
    · rw [exec_rowRemap_exhausted bad hstack hchannel hbank remaps held full first, if_pos used]
  case scrub =>
    rintro s _ stack channel _ _ ecc hstack hchannel on due rfl rfl rfl
    exact ⟨exec_scrubRead_clean hstack hchannel on due, exec_scrubRead_corrected hstack hchannel on due⟩
  case tracks =>
    rintro s _ stack channel trains ready hstack hchannel on slot once rfl
    rw [exec_trackingStep true trains ready hstack hchannel on slot once, if_pos rfl]
  case retrains =>
    rintro s _ stack channel ready hstack hchannel on slot once rfl
    rw [exec_trackingStep false true ready hstack hchannel on slot once, exec_trackingStep false false ready hstack hchannel on slot once]
    simp only [Bool.false_eq_true, if_false, if_true, and_self]
  case expiry =>
    rintro s _ stack point t hstack points oldest due rfl
    exact exec_trainingSetExpiry hstack points oldest due
  case retrained =>
    intro s u failed d point old waits training ended
    refine ⟨fun some_ => ?_, fun none_ => ?_⟩
    · rw [exec_memoryRetrainingDone failed waits training ended, if_pos some_]
    · rw [exec_memoryRetrainingDone failed waits training ended, if_neg (by simp [none_])]
      rfl

end Sys2Proof.Machine
